-- ==== Sys2Proof/Word.lean ====
section
/-! DEFINITION. The word types of the block: bytes, 32-bit register words, 64-bit words (R7). -/

namespace Sys2Proof

/-- A byte of host memory, of an entry, of an operand. -/
abbrev Byte := BitVec 8

/-- A string of bytes in address order. -/
abbrev Bytes := List Byte

/-- A 32-bit register or stack word. -/
abbrev Word := BitVec 32

/-- A 64-bit word. -/
abbrev DWord := BitVec 64

end Sys2Proof
end

