-- ==== Sys2Proof/Syntax.lean ====
section
/-! DEFINITION. The commands of the block: one constructor for each row of spec/opcode_table.json, with
the operands the spec gives the row (a written value, an entry, a job, a unit, a measurement). -/

namespace Sys2Proof

/-- A vault line whose MAC or place in the integrity tree mismatches when a job's row reads it (Table 9.14): both copies of a line
of the key, KEK, context or stream it names, of a scratch line of its working state, or of a metadata, MAC or tree line; one
copy of any line. -/
inductive VaultHit where
  | key | kek | ctx | stream | scratch | tree | one
  deriving DecidableEq, Repr, Inhabited

/-- A physical upset that strikes a job while its row runs; `none` in a device without one. -/
inductive Upset where
  | none
  /-- The two evaluations of a decision disagree (R375). -/
  | glitch
  /-- The pairwise consistency test fails (R129). -/
  | pairwise
  /-- The recombined RSA result fails its check against the input (R202). -/
  | rsaCheck
  /-- The read-back of a counter record fails (R166). -/
  | readBack
  /-- A vault line that the row reads mismatches (R262). -/
  | vault (h : VaultHit)
  deriving DecidableEq, Repr, Inhabited

/-- What comes about of an MXU command: a job issues it, it reaches a yield point, it ends, or the MXU finds a fault under
it (R185 to R196). -/
inductive MxuEvent where
  | issue | yield | done | fault
  deriving DecidableEq, Repr, Inhabited

/-- The fields of a microword, but its SEQ (Table 12.2). -/
structure MicroWord where
  nano : Nat
  cond : Nat
  stretch : Nat
  isSecret : Bool
  deriving DecidableEq, Repr, Inhabited

/-- Operands of an Alada-M instruction: the specifier bytes and the extension word that each takes (R443). -/
structure MOps where
  s1 : Nat
  s2 : Nat
  s3 : Nat
  e1 : Nat
  e2 : Nat
  e3 : Nat
  deriving DecidableEq, Repr, Inhabited

/-- A firmware slot as the boot ROM finds it: its version and whether both signatures verify (R437). -/
structure FwSlot where
  version : Nat
  signed : Bool
  deriving DecidableEq, Repr, Inhabited

/-- What a boot meets outside the device: the straps (R501), the self-test, the firmware slots, the units that fail BIST
(R436), whether the regulator answers (R503), the image whose signature decision a glitch splits (R375): 0 and 1 the
firmware slots, 2 to 5 the graft slots in the order of Table 12.11; and the bytes of the key shelf that have been altered in flash
since it was written (R265): 0 and 1 the header copies, 2 on the records in their order, the byte's offset, its value. -/
structure BootEnv where
  role : Nat
  split : Nat
  mgAddr : Nat
  selfTest : Bool
  fwA : Option FwSlot
  fwB : Option FwSlot
  failed : List Nat
  avs : Bool
  glitch : Option Nat
  flash : List (Nat × Nat × Byte)
  deriving DecidableEq, Repr, Inhabited

/-- An ECC, parity or collector error (R382, R341, R372, R395). -/
inductive EccError where
  /-- A corrected error in an engine's SRAM; `full` when its macro has no spare row left for the repair. -/
  | engineCe (e : Nat) (full : Bool)
  /-- A double-bit error in an engine's D-space, registers, stacks or stores. -/
  | engineUe (e : Nat)
  /-- A parity error in a sequencer's stores (R341). -/
  | micro (q : Nat)
  /-- A double-bit error in a job's working state in grove memory, and in its latest commit record. -/
  | groveWork (j : Nat)
  | groveRecord (j : Nat)
  /-- Grove scheduler parity. -/
  | groveSched (g : Nat)
  /-- A corrected error in an MXU operand RAM context. -/
  | mxuCe (m ctx : Nat)
  /-- A double-bit error in one of the two copies of the save record of a job's MXU command (R196). -/
  | mxuSave (j : Nat) (second : Bool)
  /-- A double error in a key-cache slice, at an entry. -/
  | keyCache (g idx : Nat)
  | deviceCe
  | deviceUe
  /-- A mask generator of an engine or MXU of a grove repeats a word (R372). -/
  | mask (g unit : Nat)
  /-- An error that a vault channel corrects; bits of a stored line that it cannot correct: channel, line, the bits that flip
  (R262).  The MAC finds these when the line is read. -/
  | vaultCe (c : Nat)
  | vaultBits (c line : Nat) (flip : Bytes)
  /-- A fault of the collector in itself (R395). -/
  | collector (i : Nat)
  deriving DecidableEq, Repr, Inhabited

/-- An upset that strikes a life-cycle transition: a glitch splits the token decision (R424), or programming stops with
`bits` fuse bits of the stage done: 0 copy A, 1 the data block, 2 the actions, 3 copy B; by a failed read-back (R427) or
because PWR_FAIL_N has fallen (R429). -/
inductive LcsUpset where
  | none
  | glitch
  | readBack (stage bits : Nat)
  | powerFail (stage bits : Nat)
  deriving DecidableEq, Repr, Inhabited

/-- What a read of host memory is for (R482); `span` names the bus addresses themselves, whatever reads them: the reads that
overlap them are answered so until a completion with data covers them (log entry 52). -/
inductive ReadFor where
  | se (inst q pos : Nat)
  | input (j : Nat)
  | span (bus len : Nat)
  | other
  deriving DecidableEq, Repr, Inhabited

/-- A completion of a read: bytes at a bus address, Unsupported Request, Completer Abort, or poisoned (R482). -/
inductive Cpl where
  | ok (bus : Nat) (data : Bytes)
  | ur
  | ca
  | poisoned
  deriving DecidableEq, Repr, Inhabited

/-- A configuration request: a read, or a write of what this manual names: MSI-X Enable with Function Mask, and ARI Capable
Hierarchy (R476, R484, R496). -/
inductive CfgAccess where
  | read (off : Nat)
  | msix (enable mask : Bool)
  | ari (on : Bool)
  deriving DecidableEq, Repr, Inhabited

/-- A message as it arrives over a tether link: its header's SRC, DST and CTR (Table 17.7); its body, which after pairing is the
ciphertext with the GCM tag after it (R452), and in discovery the plaintext, with whether its signatures verify (R451). -/
structure TMsg where
  link : Nat
  src : Nat
  dst : Nat
  ctr : Nat
  ok : Bool
  body : Bytes
  deriving DecidableEq, Repr, Inhabited

/-- The commands, in the order of the table. -/
inductive Instr where
  /-- SQ_DOORBELL (R63). A host write of a new tail and lap to an SQ doorbell is checked and accepted, or it
  puts the SQ in ERROR. -/
  | sqDoorbell (face off width value : Nat)
  /-- CQ_DOORBELL (R64). A host write of a new head, lap and ARM bit to a CQ doorbell releases CQ slots and
  may arm the interrupt, or it puts the CQ in ERROR. -/
  | cqDoorbell (face off width value : Nat)
  /-- SE_FETCH (R66). The queue engine reads published SEs, or read-ahead reads unpublished ones, and checks
  each entry for well-formedness. -/
  | seFetch (inst q pos : Nat)
  /-- JOB_DISPATCH (R86). An eligible SQ head job is granted and takes a CQ credit; dispatch checks run, and
  the job is placed in a grove or routed to a worker. -/
  | jobDispatch (inst q cy : Nat)
  /-- PENDING_TIMEOUT (R273). A job still pending 4,096 t after its dispatch completes with
  DEPENDENCY_FAILED. -/
  | pendingTimeout (j : Nat)
  /-- TICK_BOUNDARY (R24). At each 1 µs boundary, the device publishes the health map, applies RWT writes
  and aborts, posts due CEs and assigns slices, in that order. -/
  | tickBoundary (tj : Int)
  /-- JOB_RELEASE (R45). When a job's release boundary is reached, its CE is posted in reservation order and
  its dependants are confirmed or ended. -/
  | jobRelease (j : Nat)
  /-- CQ_INTERRUPT (R90). An armed CQ sends its MSI-X message when its count, COAL_TICKS or sprint condition
  is met, and then disarms. -/
  | cqInterrupt (inst q : Nat)
  /-- CQ_STARVED (R83). An SQ head that has waited 1,000 boundaries only for a CQ credit sets CQ_STARVED and
  produces a record. -/
  | cqStarved (inst q : Nat)
  /-- SLICE_OVERRUN (R35). A segment still running at cycle 900 is abandoned and rerun; a second overrun
  from the same commit point ends the job. -/
  | sliceOverrun (j : Nat)
  /-- VECTOR_POWER_DOWN (R39). An SV or LV unit that idles for two ticks powers down. -/
  | vectorPowerDown (engine : Nat)
  /-- SQ_CREATE (R101). Admin command that creates an SQ at the lowest free number. -/
  | sqCreate (p : Nat) (se : Bytes)
  /-- SQ_DELETE (R101). Admin command that stops dispatch from an SQ and discards its undispatched entries.
  -/
  | sqDelete (p : Nat) (se : Bytes)
  /-- SQ_DELETE_DRAINED (R101). SQ_DELETE completes at the boundary of the last CE of its dispatched jobs.
  -/
  | sqDeleteDrained (inst q : Nat)
  /-- CQ_CREATE (R101). Admin command that creates a CQ with its vector and coalescing parameters. -/
  | cqCreate (p : Nat) (se : Bytes)
  /-- CQ_DELETE (R101). Admin command that deletes a CQ, refused while SQs are bound to it. -/
  | cqDelete (p : Nat) (se : Bytes)
  /-- SQ_RESTART (R79). Admin command that brings an SQ out of ERROR at a new empty position. -/
  | sqRestart (p : Nat) (se : Bytes)
  /-- CQ_RESTART (R79). Admin command that brings a CQ out of ERROR and posts its held CEs. -/
  | cqRestart (p : Nat) (se : Bytes)
  /-- CQ_MODIFY (R101). Admin command that changes a CQ's coalescing parameters. -/
  | cqModify (p : Nat) (se : Bytes)
  /-- SQ_MODIFY (R101). Admin command that changes an SQ's weight. -/
  | sqModify (p : Nat) (se : Bytes)
  /-- INSTANCE_CREATE (R102). Admin command that makes an enabled TF an ACTIVE instance with its resources.
  -/
  | instanceCreate (p : Nat) (se : Bytes)
  /-- INSTANCE_QUIESCE (R114). Admin command that stops an instance's dispatch and drains or aborts its
  jobs. -/
  | instanceQuiesce (p : Nat) (se : Bytes)
  /-- QUIESCE_DRAINED (R114). INSTANCE_QUIESCE completes with QUIESCED once the instance's last CE is
  posted. -/
  | quiesceDrained (inst : Nat)
  /-- INSTANCE_RESUME (R115). Admin command that returns a quiesced instance and its queues to ACTIVE. -/
  | instanceResume (p : Nat) (se : Bytes)
  /-- INSTANCE_RESET (R117). Admin command that deletes a quiesced instance's queues and streams while
  keeping its keys and contexts. -/
  | instanceReset (p : Nat) (se : Bytes)
  /-- INSTANCE_REMOVE (R118). Admin command that resets an instance, destroys its keys and contexts, and
  returns it to NONE. -/
  | instanceRemove (p : Nat) (se : Bytes)
  /-- INSTANCE_SET_RESOURCES (R104). Admin command that changes the masked resource fields of an instance.
  -/
  | instanceSetResources (p : Nat) (se : Bytes)
  /-- INSTANCE_GET (R105). Admin command that writes an instance's 48-byte state and resources. -/
  | instanceGet (p : Nat) (se : Bytes)
  /-- DATU_SET_ROOT (R109). Admin command that sets an instance's page-table root, width and mode. -/
  | datuSetRoot (p : Nat) (se : Bytes)
  /-- DATU_INVALIDATE (R108). Admin command that removes cached translations for a range. -/
  | datuInvalidate (p : Nat) (se : Bytes)
  /-- DIRTY_LOG_START (R110). Admin command that opens a dirty log over a range into two bitmaps. -/
  | dirtyLogStart (p : Nat) (se : Bytes)
  /-- DIRTY_LOG_STOP (R112). Admin command that flushes and stops a dirty log. -/
  | dirtyLogStop (p : Nat) (se : Bytes)
  /-- DIRTY_LOG_HARVEST (R112). Admin command that closes the active bitmap and opens the other. -/
  | dirtyLogHarvest (p : Nat) (se : Bytes)
  /-- JOB_ABORT (R116). Admin command that ends dispatched jobs of an SQ by TAG or all. -/
  | jobAbort (p : Nat) (se : Bytes)
  /-- DUMP_BUFFER_SET (R418). Admin command that registers or unregisters the fatal-state dump buffer. -/
  | dumpBufferSet (p : Nat) (se : Bytes)
  /-- HEALTH_GET (R392). Admin command with ACTION READ that writes the health map, or returns STATE_STALE.
  -/
  | healthGet (p : Nat) (se : Bytes)
  /-- HEALTH_GET_RETIRE (R392). Admin command with ACTION RETIRE that marks a serving engine, MXU or noise
  source FAILED and runs its fail-over. -/
  | healthGetRetire (p : Nat) (se : Bytes)
  /-- FAULT_SEVERITY_SET (R389). Admin command that changes the severity of a source or group. -/
  | faultSeveritySet (p : Nat) (se : Bytes)
  /-- ATTEST (R440). Admin command that returns a signed attestation report over a nonce. -/
  | attest (p : Nat) (se : Bytes)
  /-- LCS_TRANSITION (R427). Admin command that checks a token and programs a life-cycle transition with its
  actions. -/
  | lcsTransition (p : Nat) (se : Bytes) (u : LcsUpset)
  /-- GRAFT_INFO (R361). Admin command that writes the graft versions, floor and catalogue. -/
  | graftInfo (p : Nat) (se : Bytes)
  /-- CANOPY_CONFIG_LOAD (R450). CANOPY_CONFIG LOAD on a manager validates a charter and begins discovery; with the entry,
  whether a glitch splits the signature decision (R375). -/
  | canopyConfigLoad (p : Nat) (se : Bytes × Bool)
  /-- CANOPY_CONFIG_DISSOLVE (R450). CANOPY_CONFIG DISSOLVE sends DISSOLVE to the members, ends remote jobs
  and destroys contexts. -/
  | canopyConfigDissolve (p : Nat) (se : Bytes)
  /-- CANOPY_CONFIG_TENANT_BIND (R450). CANOPY_CONFIG TENANT_BIND binds an instance to a tenant tag for
  contexts created afterwards. -/
  | canopyConfigTenantBind (p : Nat) (se : Bytes)
  /-- ENVELOPE_SET_QUERY (R515). ENVELOPE_SET QUERY returns the envelope, thermal limit and throttle state.
  -/
  | envelopeSetQuery (p : Nat) (se : Bytes)
  /-- ENVELOPE_SET (R515). ENVELOPE_SET SET lowers or restores the power envelope in force. -/
  | envelopeSet (p : Nat) (se : Bytes)
  /-- PRIMARY_DELEGATE (R93). Admin command that moves primacy to another port's AF. -/
  | primaryDelegate (p : Nat) (se : Bytes)
  /-- PORT_PAIR_UNPAIR (R120). PORT_PAIR ACTION 0 unpairs two ports. -/
  | portPairUnpair (p : Nat) (se : Bytes)
  /-- PORT_PAIR_PAIR (R120). PORT_PAIR ACTION 1 joins two ports so that TF instances gain a second face. -/
  | portPairPair (p : Nat) (se : Bytes)
  /-- PORT_PAIR_RETURN (R490). PORT_PAIR ACTION 2 moves the serving face back to PORT_A. -/
  | portPairReturn (p : Nat) (se : Bytes)
  /-- KEM_KEYGEN (R129). Generates a KEM key pair into a new key object after a pairwise test. -/
  | kemKeygen (j : Nat) (u : Upset)
  /-- KEM_ENCAPS (R130). Encapsulates to a key and returns the ciphertext and the shared secret or a
  context. -/
  | kemEncaps (j : Nat) (u : Upset)
  /-- KEM_DECAPS (R133). Decapsulates a ciphertext with implicit rejection. -/
  | kemDecaps (j : Nat) (u : Upset)
  /-- SIG_KEYGEN (R129). Generates a signature key pair into a new key object. -/
  | sigKeygen (j : Nat) (u : Upset)
  /-- SIG_SIGN (R139). Signs a message, μ or digest with a private key object. -/
  | sigSign (j : Nat) (u : Upset)
  /-- SIG_VERIFY (R143). Verifies a signature and returns OK or VERIFY_FALSE. -/
  | sigVerify (j : Nat) (u : Upset)
  /-- DH_KEYGEN (R208). Generates an ECDH, X25519 or X448 key pair. -/
  | dhKeygen (j : Nat) (u : Upset)
  /-- DH_DERIVE (R208). Derives a shared secret from a private key and a validated peer value. -/
  | dhDerive (j : Nat) (u : Upset)
  /-- RSA_KEYGEN (R204). Generates an RSA key by prime search. -/
  | rsaKeygen (j : Nat) (u : Upset)
  /-- RSA_SIGN (R202). Signs with an RSA private key by blinded CRT, checked against the input. -/
  | rsaSign (j : Nat) (u : Upset)
  /-- RSA_VERIFY (R201). Verifies an RSA signature. -/
  | rsaVerify (j : Nat) (u : Upset)
  /-- RSA_DECRYPT (R203). Decrypts with implicit rejection for v1.5 or with an OAEP failure status. -/
  | rsaDecrypt (j : Nat) (u : Upset)
  /-- RSA_ENCRYPT (R201). Encrypts a plaintext under an RSA public key. -/
  | rsaEncrypt (j : Nat) (u : Upset)
  /-- DIGEST (R215). One-shot hash or XOF of a message. -/
  | digest (j : Nat) (u : Upset)
  /-- DIGEST_START (R218). Opens a stream and absorbs its first part. -/
  | digestStart (j : Nat) (u : Upset)
  /-- DIGEST_UPDATE (R218). Absorbs the next part into an OPEN stream. -/
  | digestUpdate (j : Nat) (u : Upset)
  /-- DIGEST_READ (R222). DIGEST_UPDATE with READ returns the result of a FINAL stream, or zero-fills the
  output with STREAM_NOT_FINAL. -/
  | digestRead (j : Nat) (u : Upset)
  /-- DIGEST_FINAL (R218). Absorbs the last part, pads, writes the result and frees or keeps the stream. -/
  | digestFinal (j : Nat) (u : Upset)
  /-- DIGEST_DISCARD (R218). DIGEST_FINAL with DISCARD frees a stream without output. -/
  | digestDiscard (j : Nat) (u : Upset)
  /-- MAC (R223). Computes an HMAC or KMAC tag. -/
  | mac (j : Nat) (u : Upset)
  /-- MAC_VERIFY (R225). MAC with VERIFY compares a tag without early exit. -/
  | macVerify (j : Nat) (u : Upset)
  /-- KDF (R226). Derives a new key object, or inline output, by HKDF or KMAC. -/
  | kdf (j : Nat) (u : Upset)
  /-- AEAD_SEAL (R229). Seals one record under AES-GCM or ChaCha20-Poly1305. -/
  | aeadSeal (j : Nat) (u : Upset)
  /-- AEAD_OPEN (R231). Opens one record and checks its tag. -/
  | aeadOpen (j : Nat) (u : Upset)
  /-- RNG (R232). Returns grove DRBG output, optionally after a prediction-resistance reseed. -/
  | rng (j : Nat) (u : Upset)
  /-- KEY_IMPORT (R244). Imports a public key or a wrapped private key or secret into a new key object. -/
  | keyImport (j : Nat) (u : Upset)
  /-- KEY_GENERATE (R246). KEY_IMPORT with GENERATE creates a symmetric key object from the DRBG. -/
  | keyGenerate (j : Nat) (u : Upset)
  /-- KEY_EXPORT (R247). Returns an extractable key object wrapped under a KEK. -/
  | keyExport (j : Nat) (u : Upset)
  /-- KEY_DESTROY (R248). Invalidates a key object's handle and zeroises its material. -/
  | keyDestroy (j : Nat) (u : Upset)
  /-- KEY_GET_PUBLIC (R249). Returns a key's public half or its information block. -/
  | keyGetPublic (j : Nat) (u : Upset)
  /-- CTX_DERIVE (R253). Derives into a context slot by HKDF-Expand-Label, Extract, Expand or KMAC. -/
  | ctxDerive (j : Nat) (u : Upset)
  /-- CTX_EXPORT (R255). Returns one context slot as a wrapped KIND 1 blob. -/
  | ctxExport (j : Nat) (u : Upset)
  /-- CTX_DESTROY (R256). Erases a context or one of its slots. -/
  | ctxDestroy (j : Nat) (u : Upset)
  /-- CLIENT_INIT (R146). HYBRID_KEX step 0 draws ephemeral key pairs into a context and returns the client
  share. -/
  | clientInit (j : Nat) (u : Upset)
  /-- SERVER_RESPOND (R145). HYBRID_KEX step 1 encapsulates and derives against a client share. -/
  | serverRespond (j : Nat) (u : Upset)
  /-- CLIENT_FINISH (R146). HYBRID_KEX step 2 decapsulates and derives with the stored ephemeral keys. -/
  | clientFinish (j : Nat) (u : Upset)
  /-- ROUTINE_CALL (R333). Runs a loaded owner routine under its declared budget. -/
  | routineCall (j n : Nat)
  /-- SHELF_WRITE (R263). The stewards copy a PERSIST object to the key shelf after its final commit,
  reclaiming sectors first if needed, and report SHELVED. -/
  | shelfWrite (idx : Nat)
  /-- VALIDATE (R190). MXU command that validates a supplied public key in the validation stage only. -/
  | validate (j : Nat) (ev : MxuEvent)
  /-- RSA_PRIV (R202). MXU command that runs the RSA private operation after validating the input. -/
  | rsaPriv (j : Nat) (ev : MxuEvent)
  /-- RSA_PUB (R186). MXU command that runs the RSA public operation. -/
  | rsaPub (j : Nat) (ev : MxuEvent)
  /-- RSA_GEN (R204). MXU command that generates RSA primes. -/
  | rsaGen (j : Nat) (ev : MxuEvent)
  /-- EC_GEN (R186). MXU command that generates an elliptic-curve key pair. -/
  | ecGen (j : Nat) (ev : MxuEvent)
  /-- EC_SIGN (R206). MXU command that makes an ECDSA or EdDSA signature. -/
  | ecSign (j : Nat) (ev : MxuEvent)
  /-- EC_VERIFY (R186). MXU command that verifies an ECDSA or EdDSA equation. -/
  | ecVerify (j : Nat) (ev : MxuEvent)
  /-- EC_DERIVE (R186). MXU command that derives an ECDH, X25519 or X448 secret. -/
  | ecDerive (j : Nat) (ev : MxuEvent)
  /-- VALIDATION_RESULT (R191). The validation stage delivers a pass or fail at the boundary after its 2,048
  mcy end, releasing the secret or ending the job. -/
  | validationResult (j : Nat)
  /-- NOP (R294). Alada no-operation. -/
  | alNop (j : Nat)
  /-- DUP (R294). Duplicates T. -/
  | alDup (j : Nat)
  /-- DROP (R294). Discards T. -/
  | alDrop (j : Nat)
  /-- SWAP (R294). Swaps T and N. -/
  | alSwap (j : Nat)
  /-- OVER (R294). Pushes a copy of N. -/
  | alOver (j : Nat)
  /-- ROT (R294). Rotates the top three entries. -/
  | alRot (j : Nat)
  /-- TOR (R294). Moves T to the return stack. -/
  | alTor (j : Nat)
  /-- FROMR (R294). Moves the top of the return stack to the data stack. -/
  | alFromr (j : Nat)
  /-- RCOPY (R294). Copies the top of the return stack to the data stack. -/
  | alRcopy (j : Nat)
  /-- DEPTH (R294). Pushes the data-stack depth, untagged. -/
  | alDepth (j : Nat)
  /-- ADD (R294). Wrapping 32-bit add. -/
  | alAdd (j : Nat)
  /-- SUB (R294). Wrapping 32-bit subtract. -/
  | alSub (j : Nat)
  /-- AND (R294). Bitwise AND. -/
  | alAnd (j : Nat)
  /-- OR (R294). Bitwise OR. -/
  | alOr (j : Nat)
  /-- XOR (R294). Bitwise XOR. -/
  | alXor (j : Nat)
  /-- INV (R294). Bitwise NOT of T. -/
  | alInv (j : Nat)
  /-- SHL (R294). Shift left by T mod 32. -/
  | alShl (j : Nat)
  /-- SHR (R294). Logical shift right by T mod 32. -/
  | alShr (j : Nat)
  /-- SAR (R294). Arithmetic shift right by T mod 32. -/
  | alSar (j : Nat)
  /-- MUL (R294). Low 32 bits of a product. -/
  | alMul (j : Nat)
  /-- MULHU (R294). Unsigned high 32 bits of a product. -/
  | alMulhu (j : Nat)
  /-- EQ (R294). Pushes an equality flag. -/
  | alEq (j : Nat)
  /-- ULT (R294). Pushes an unsigned less-than flag. -/
  | alUlt (j : Nat)
  /-- LT (R294). Pushes a signed less-than flag. -/
  | alLt (j : Nat)
  /-- CSEL (R294). Branchless selection between two values. -/
  | alCsel (j : Nat)
  /-- FETCH (R299). Loads a 32-bit D-space word. -/
  | alFetch (j : Nat)
  /-- STORE (R299). Stores a 32-bit D-space word. -/
  | alStore (j : Nat)
  /-- FETCHH (R299). Loads a 16-bit D-space value. -/
  | alFetchh (j : Nat)
  /-- STOREH (R299). Stores a 16-bit D-space value. -/
  | alStoreh (j : Nat)
  /-- FETCHB (R299). Loads a D-space byte. -/
  | alFetchb (j : Nat)
  /-- STOREB (R299). Stores a D-space byte. -/
  | alStoreb (j : Nat)
  /-- IFETCH (R298). Reads an instruction word from I-space. -/
  | alIfetch (j : Nat)
  /-- RET (R294). Returns to the address popped from the return stack. -/
  | alRet (j : Nat)
  /-- CALLT (R294). Calls the address in T. -/
  | alCallt (j : Nat)
  /-- COMMIT (R291). Makes the job state durable and continues. -/
  | alCommit (j : Nat)
  /-- YIELD (R291). Commits and gives up the engine for the rest of the tick. -/
  | alYield (j : Nat)
  /-- END (R291). Final commit of the job: staged outputs, status and result length are written. -/
  | alEnd (j : Nat)
  /-- LIT (R296). Pushes a sign-extended 12-bit immediate. -/
  | alLit (j imm : Nat)
  /-- LITX (R296). Extends T by 12 immediate bits. -/
  | alLitx (j imm : Nat)
  /-- BR (R297). Unconditional relative branch. -/
  | alBr (j off : Nat)
  /-- BZ (R297). Branches if the popped T is zero. -/
  | alBz (j off : Nat)
  /-- BNZ (R297). Branches if the popped T is not zero. -/
  | alBnz (j off : Nat)
  /-- DBNZ (R297). Decrements the loop count on the return stack and branches while it is not zero. -/
  | alDbnz (j off : Nat)
  /-- CALL (R297). Calls instruction index 2·k. -/
  | alCall (j k : Nat)
  /-- IN (R302). Reads an IO port. -/
  | alIn (j p : Nat)
  /-- OUT (R302). Writes an IO port that has no behaviour of its own. -/
  | alOut (j p : Nat)
  /-- KEY_REQ (R304). An OUT to KEY_REQ requests delivery of key material into the KEY region. -/
  | keyReq (j : Nat) (u : Upset)
  /-- KEY_DELIVERY_DONE (R304). A key-port delivery completes and KEY_STATUS reports the bytes delivered. -/
  | keyDeliveryDone (j : Nat)
  /-- HS_INIT (R305). HS_CTRL INIT resets the selected hash state for FUNC. -/
  | hsInit (j : Nat)
  /-- HS_PAD (R305). HS_CTRL PAD pads, ends absorbing and starts squeezing. -/
  | hsPad (j : Nat)
  /-- HS_IN (R305). Absorbs 4 bytes into the selected hash state. -/
  | hsIn (j : Nat)
  /-- HS_INB (R305). Absorbs one byte into the selected hash state. -/
  | hsInb (j : Nat)
  /-- HS_OUT (R305). Returns the next 4 output bytes, squeezing further as needed. -/
  | hsOut (j : Nat)
  /-- HASH_PERMUTATION_DONE (R305). A hash permutation or compression finishes and BUSY clears. -/
  | hashPermutationDone (j k : Nat)
  /-- DRBG_READ (R306). An IN from DRBG returns 4 tagged DRBG bytes, or ends the job when the DRBG is in
  error. -/
  | drbgRead (j : Nat)
  /-- VQ_WRITE (R309). A write to VQ sets the modulus and prepares reduction constants. -/
  | vqWrite (j : Nat)
  /-- VCFG_WRITE (R307). A write to VCFG sets the vector widths, group, element count and trap mode. -/
  | vcfgWrite (j : Nat)
  /-- VFAULT_FILL (R318). A write to VFAULT_FILL completes the faulted element and advances VSTART. -/
  | vfaultFill (j : Nat)
  /-- MBOX_CMD (R302). A vendor mailbox request to the grove scheduler for contexts, strands, attempts or
  vault streams. -/
  | mboxCmd (j : Nat)
  /-- DECL_GO (R323). Vendor declassification copies bytes untagged into OUT or WORK by KIND. -/
  | declGo (j : Nat)
  /-- GATE_SEAL (R331). Gate SEAL AEAD-seals data under the job's key into OUT. -/
  | gateSeal (j : Nat)
  /-- GATE_TAG (R331). Gate TAG writes a MAC tag under the job's key. -/
  | gateTag (j : Nat)
  /-- GATE_RANDOM (R331). Gate RANDOM writes untagged DRBG bytes. -/
  | gateRandom (j : Nat)
  /-- SV_LD (R313). Loads 16 bytes into an SV register. -/
  | svLd (j sd ss : Nat)
  /-- SV_ST (R313). Stores an SV register. -/
  | svSt (j sd ss : Nat)
  /-- SV_ADD (R313). Element-wise wrapping add. -/
  | svAdd (j sd ss : Nat)
  /-- SV_SUB (R313). Element-wise wrapping subtract. -/
  | svSub (j sd ss : Nat)
  /-- SV_MUL (R313). Element-wise multiply, keeping the low half. -/
  | svMul (j sd ss : Nat)
  /-- SV_AND (R313). Bitwise AND. -/
  | svAnd (j sd ss : Nat)
  /-- SV_OR (R313). Bitwise OR. -/
  | svOr (j sd ss : Nat)
  /-- SV_XOR (R313). Bitwise XOR. -/
  | svXor (j sd ss : Nat)
  /-- SV_SHL (R313). Element-wise shift left. -/
  | svShl (j sd ss : Nat)
  /-- SV_SHR (R313). Element-wise shift right. -/
  | svShr (j sd ss : Nat)
  /-- SV_ROTL (R313). Element-wise rotate left. -/
  | svRotl (j sd ss : Nat)
  /-- SV_CMOV (R313). Branchless conditional move. -/
  | svCmov (j sd ss : Nat)
  /-- SV_MOV (R313). Copies an SV register. -/
  | svMov (j sd ss : Nat)
  /-- SV_ZERO (R313). Writes an untagged zero. -/
  | svZero (j sd ss : Nat)
  /-- SV_SHUF (R313). Byte shuffle. -/
  | svShuf (j sd ss : Nat)
  /-- SV_AESR (R313). One AES round. -/
  | svAesr (j sd ss : Nat)
  /-- SV_AESLR (R313). Last AES round. -/
  | svAeslr (j sd ss : Nat)
  /-- SV_CLMUL (R313). Carry-less multiply. -/
  | svClmul (j sd ss : Nat)
  /-- SV_TOS (R313). Pushes one element onto the stack. -/
  | svTos (j sd ss : Nat)
  /-- SV_FROMS (R313). Writes one element from the stack. -/
  | svFroms (j sd ss : Nat)
  /-- LV_LD (R310). Loads an LV group from D-space. -/
  | lvLd (j m ld ls : Nat)
  /-- LV_ST (R310). Stores an LV group to D-space. -/
  | lvSt (j m ld ls : Nat)
  /-- LV_GATHER (R311). Gathers elements by index, resuming at VSTART after a fault. -/
  | lvGather (j m ld ls : Nat)
  /-- LV_SCATTER (R311). Scatters elements by index. -/
  | lvScatter (j m ld ls : Nat)
  /-- LV_ADDM (R310). Modular add. -/
  | lvAddm (j m ld ls : Nat)
  /-- LV_SUBM (R310). Modular subtract. -/
  | lvSubm (j m ld ls : Nat)
  /-- LV_MULM (R310). Modular multiply. -/
  | lvMulm (j m ld ls : Nat)
  /-- LV_PMUL (R310). Pointwise or base-case NTT-domain multiply. -/
  | lvPmul (j m ld ls : Nat)
  /-- LV_BFLY (R310). One shuffled layer of NTT butterflies. -/
  | lvBfly (j m ld ls : Nat)
  /-- LV_COMP (R310). Compresses or decompresses elements. -/
  | lvComp (j m ld ls : Nat)
  /-- LV_SAMU (R312). Uniform rejection sampling from an untagged hash state. -/
  | lvSamu (j m ld ls : Nat)
  /-- LV_SAMCBD (R310). Centred-binomial sampling. -/
  | lvSamcbd (j m ld ls : Nat)
  /-- LV_CMOV (R310). Branchless group move. -/
  | lvCmov (j m ld ls : Nat)
  /-- LV_PERM (R310). Bit-reversal, interleave, de-interleave or rotate. -/
  | lvPerm (j m ld ls : Nat)
  /-- LV_SAD (R310). Full-length sum of absolute differences, used for comparisons. -/
  | lvSad (j m ld ls : Nat) (u : Upset)
  /-- LV_SSD (R310). Sum of squared differences. -/
  | lvSsd (j m ld ls : Nat)
  /-- LV_OVB (R310). Flags elements over VBOUND. -/
  | lvOvb (j m ld ls : Nat)
  /-- LV_MOV (R310). Copies an LV group. -/
  | lvMov (j m ld ls : Nat)
  /-- LV_ZERO (R310). Zeroes an LV group, untagged. -/
  | lvZero (j m ld ls : Nat)
  /-- LV_LOGIC (R310). Bitwise group logic. -/
  | lvLogic (j m ld ls : Nat)
  /-- LV_ADD (R310). Wrapping add or subtract. -/
  | lvAdd (j m ld ls : Nat)
  /-- MICRO_NEXT (R337). Microword that sequences to the next address. -/
  | microNext (q : Nat) (w : MicroWord)
  /-- MICRO_JUMP (R337). Microword that jumps within its bank. -/
  | microJump (q : Nat) (w : MicroWord)
  /-- MICRO_MBRANCH (R339). Microword multiway branch on untagged condition bits. -/
  | microMbranch (q : Nat) (w : MicroWord) (c : Nat) (tagged : Bool)
  /-- MICRO_CALL (R337). Microword call onto the micro return stack. -/
  | microCall (q : Nat) (w : MicroWord)
  /-- MICRO_RETURN (R337). Microword return. -/
  | microReturn (q : Nat) (w : MicroWord)
  /-- MICRO_COMMIT (R342). Microword commit point. -/
  | microCommit (q : Nat) (w : MicroWord)
  /-- MICRO_YIELD (R337). Microword commit point, or MXU yield point, that gives up the rest of the tick. -/
  | microYield (q : Nat) (w : MicroWord)
  /-- MICRO_END (R337). Microword final commit, or the end of an MXU command. -/
  | microEnd (q : Nat) (w : MicroWord)
  /-- MICRO_XJUMP (R337). Microword jump to the other bank. -/
  | microXjump (q : Nat) (w : MicroWord)
  /-- MICRO_XCALL (R337). Microword call into the other bank. -/
  | microXcall (q : Nat) (w : MicroWord)
  /-- MICRO_WAIT (R337). Microword that repeats while a condition holds. -/
  | microWait (q : Nat) (w : MicroWord) (c : Nat) (tagged : Bool)
  /-- MICRO_DISPATCH (R337). Microword that ends the Alada instruction. -/
  | microDispatch (q : Nat) (w : MicroWord)
  /-- ALADA_M_MOV (R444). Steward move. -/
  | aladaMMov (o : MOps)
  /-- ALADA_M_ADD (R444). Steward add. -/
  | aladaMAdd (o : MOps)
  /-- ALADA_M_SUB (R444). Steward subtract. -/
  | aladaMSub (o : MOps)
  /-- ALADA_M_AND (R444). Steward AND. -/
  | aladaMAnd (o : MOps)
  /-- ALADA_M_OR (R444). Steward OR. -/
  | aladaMOr (o : MOps)
  /-- ALADA_M_XOR (R444). Steward XOR. -/
  | aladaMXor (o : MOps)
  /-- ALADA_M_SHL (R444). Steward shift left. -/
  | aladaMShl (o : MOps)
  /-- ALADA_M_SHR (R444). Steward logical shift right. -/
  | aladaMShr (o : MOps)
  /-- ALADA_M_SAR (R444). Steward arithmetic shift right. -/
  | aladaMSar (o : MOps)
  /-- ALADA_M_MUL (R444). Steward low multiply. -/
  | aladaMMul (o : MOps)
  /-- ALADA_M_MULHU (R444). Steward unsigned high multiply. -/
  | aladaMMulhu (o : MOps)
  /-- ALADA_M_DIVU (R444). Steward unsigned divide. -/
  | aladaMDivu (o : MOps)
  /-- ALADA_M_REMU (R444). Steward unsigned remainder. -/
  | aladaMRemu (o : MOps)
  /-- ALADA_M_BEQ (R444). Steward branch if equal. -/
  | aladaMBeq (o : MOps)
  /-- ALADA_M_BNE (R444). Steward branch if not equal. -/
  | aladaMBne (o : MOps)
  /-- ALADA_M_BLTU (R444). Steward branch if unsigned less. -/
  | aladaMBltu (o : MOps)
  /-- ALADA_M_BLT (R444). Steward branch if signed less. -/
  | aladaMBlt (o : MOps)
  /-- ALADA_M_JMP (R444). Steward jump. -/
  | aladaMJmp (o : MOps)
  /-- ALADA_M_CALL (R444). Steward call with link word. -/
  | aladaMCall (o : MOps)
  /-- ALADA_M_COPY (R444). Steward block copy. -/
  | aladaMCopy (o : MOps)
  /-- ALADA_M_FILL (R444). Steward block fill. -/
  | aladaMFill (o : MOps)
  /-- ALADA_M_WAIT (R444). Steward wait for an event in the mask. -/
  | aladaMWait (o : MOps)
  /-- ALADA_M_LEA (R444). Steward load of an effective address. -/
  | aladaMLea (o : MOps)
  /-- REGISTER_WRITE (R10). A host write to a BAR0 register without behaviour of its own, applied by its
  access code; locked RWL writes set CFG_REJECT. -/
  | registerWrite (p off width value : Nat)
  /-- TICK_COUNT_LO_READ (R30). Reading TICK_COUNT_LO latches the upper bits for the port. -/
  | tickCountLoRead (p : Nat)
  /-- CFG_REJECT_CLEAR (R31). W1C of TICK_STATUS.CFG_REJECT also clears TICK_CFG_REJ.VALID. -/
  | cfgRejectClear (p value : Nat)
  /-- ADMQ_ENABLE (R94). Writing ENABLE 1 resets the admin ring positions and starts fetching, or sets
  CFG_BAD. -/
  | admqEnable (p : Nat)
  /-- ADMQ_DISABLE (R94). Clearing ENABLE stops admin fetching once the current command completes. -/
  | admqDisable (p : Nat)
  /-- ADMQ_SQ_DB (R57). Admin SQ doorbell write under the ring rules. -/
  | admqSqDb (p value : Nat)
  /-- ADMQ_CQ_DB (R57). Admin CQ doorbell write under the ring rules. -/
  | admqCqDb (p value : Nat)
  /-- HEALTH_EPOCH_READ (R391). Reading HEALTH_EPOCH latches a health-map copy for the port. -/
  | healthEpochRead (p lag : Nat)
  /-- FAULT_INJ_GO (R399). In TEST, GO injects a fault into the selected source at the next boundary. -/
  | faultInjGo (p value : Nat)
  /-- GRAFT_STAGE_OPEN (R360). OPEN begins staging an image of LEN bytes. -/
  | graftStageOpen (p value : Nat)
  /-- GRAFT_STAGE_DATA (R360). Each write stages the next 4 image bytes. -/
  | graftStageData (p value : Nat)
  /-- GRAFT_STAGE_COMMIT (R360). COMMIT checks the staged image and starts writing its flash slot; with the value written,
  whether a glitch splits the signature decision (R375). -/
  | graftStageCommit (p : Nat) (value : Nat × Bool)
  /-- GRAFT_STAGE_ABANDON (R359). ABANDON ends staging and clears the buffer. -/
  | graftStageAbandon (p value : Nat)
  /-- GRAFT_STAGE_DONE (R360). The flash write and read-back finish, giving DONE or FAILED. -/
  | graftStageDone (ok : Bool)
  /-- SPEC_CLEAR (R289). SPEC_CTRL CLEAR zeroes the SPEC_ counters at the next boundary. -/
  | specClear (p : Nat)
  /-- SPEC_COUNTER_LO_READ (R289). Reading a SPEC_ counter's low word latches its high bits. -/
  | specCounterLoRead (p k : Nat)
  /-- PERF_CLEAR (R495). PERF_CTRL CLEAR zeroes the general counters at the next boundary. -/
  | perfClear (p : Nat)
  /-- PERF_COUNTER_LO_READ (R495). Reading a PERF counter's low word latches its high bits. -/
  | perfCounterLoRead (p k : Nat)
  /-- HWD_TIME_LO_READ (R401). Reading HWD_TIME_LO latches the upper time bits. -/
  | hwdTimeLoRead (p : Nat)
  /-- HWD_TMP_CFG_WRITE (R406). A tamper channel configuration write; in DEPLOYED it is accepted only if it
  makes the channel more sensitive. -/
  | hwdTmpCfgWrite (p value : Nat)
  /-- HWD_REC_FLUSH (R412). FLUSH writes the record buffer to the ring. -/
  | hwdRecFlush (p value : Nat)
  /-- HWD_REC_CLEAR (R415). CLEAR empties the ring, and the pinned area in RETURNED. -/
  | hwdRecClear (p value : Nat)
  /-- HWD_REC_WINDOW7_READ (R421). Reading window word 7 with AUTO set advances the record cursor. -/
  | hwdRecWindow7Read (p : Nat)
  /-- HWD_SNAP_MANUAL (R417). MANUAL takes a snapshot at the next boundary. -/
  | hwdSnapManual (p value : Nat)
  /-- HWD_SNAP_WINDOW7_READ (R421). Reading snapshot window word 7 advances CHUNK. -/
  | hwdSnapWindow7Read (p : Nat)
  /-- THROTTLE_CLEAR (R407). W1C of HWD_STATUS.THROTTLE ends the tamper throttle. -/
  | throttleClear (p value : Nat)
  /-- TETHER_RETRAIN (R453). TETHER_CTRL RETRAIN retrains a port to its widest width. -/
  | tetherRetrain (p value : Nat)
  /-- TETHER_TICK_OFF_LO_READ (R472). Reading the low tick-offset word latches its high bits. -/
  | tetherTickOffLoRead (p : Nat)
  /-- DATU_FAULT_CLEAR (R494). W1C of VALID opens DATU fault capture again. -/
  | datuFaultClear (p : Nat)
  /-- POWER_UP (R436). Supplies come up and the device boots through steps 1 to 8. -/
  | powerUp (env : BootEnv)
  /-- RESET_N_FALL (R510). RESET_N held low for 1 µs enters power-fail stop. -/
  | resetNFall
  /-- RESET_N_RISE (R510). Release of RESET_N samples the straps and starts boot. -/
  | resetNRise (env : BootEnv)
  /-- PWR_FAIL_N (R416). PWR_FAIL_N low for 1 µs enters power-fail stop and flushes the recorder during
  hold-up. -/
  | pwrFailN
  /-- BROWN_OUT (R505). VDD_CORE or VDD_IO below its threshold for 100 ns enters power-fail stop. -/
  | brownOut
  /-- SUPPLY_OUT_OF_RANGE (R505). A supply out of range for more than 1 t raises SUPPLY. -/
  | supplyOutOfRange (i : Nat) (below : Bool)
  /-- ECC_ERROR (R382). An SRAM ECC or parity error is corrected and counted, or abandons the slice and
  raises its source. -/
  | eccError (e : EccError)
  /-- FATAL_STATE_DUMP (R418). After zeroisation, the stewards write the signed dump to the registered
  buffer, or record DUMP_FAILED. -/
  | fatalStateDump
  /-- PLL_LOCK_LOSS (R383). The serving PLL loses lock; the clocked blocks stop and the slices of the tick
  are abandoned. -/
  | pllLockLoss (i : Nat)
  /-- PLL_SWITCHOVER_DONE (R383). The standby PLL is switched in and deferred boundary actions run. -/
  | pllSwitchoverDone
  /-- LOCKSTEP_MISMATCH (R384). A steward lockstep mismatch resets the pair, or raises STEWARD_REPEAT. -/
  | lockstepMismatch
  /-- STEWARD_RESET_DONE (R384). The steward pair returns and admin processing resumes. -/
  | stewardResetDone
  /-- VAULT_CHANNEL_LOSS (R262). A vault channel is lost and service continues on the survivor. -/
  | vaultChannelLoss (c : Nat)
  /-- VAULT_COPY_BACK_DONE (R262). A returned vault channel finishes its copy-back. -/
  | vaultCopyBackDone (c : Nat)
  /-- DRBG_RESEED (R371). Every 1,024 t, a grove DRBG reseeds from a conditioned block or retries. -/
  | drbgReseed (g : Nat)
  /-- DRBG_ERROR_STATE (R371). 65,536 t without a successful reseed puts the DRBG in its error state. -/
  | drbgErrorState (g : Nat)
  /-- NOISE_SAMPLE (R369). A raw noise bit is sampled, health-tested and conditioned. -/
  | noiseSample (i : Nat) (b : Bool)
  /-- NOISE_READMIT (R369). After 1,024 t, a withdrawn source is readmitted when it passes a start-up test.
  -/
  | noiseReadmit (i : Nat)
  /-- ALIVE_TOGGLE (R397). ALIVE toggles every 1,024 boundaries while the device runs. -/
  | aliveToggle
  /-- TICK_WRAP (R29). TICK_COUNT wraps, setting WRAPPED and producing a record. -/
  | tickWrap (tj : Int)
  /-- RECORDER_FLUSH (R412). The record buffer is flushed to MRAM when a count or timer trigger is reached.
  -/
  | recorderFlush
  /-- FLOOR_RAISE (R358). After 60,000,000 t without a FATAL event, the graft floor fuses are programmed. -/
  | floorRaise (torn : Bool)
  /-- LOCKOUT_EXPIRY (R424). The life-cycle token lockout ends after 1,000,000 t. -/
  | lockoutExpiry
  /-- THROTTLE_UPDATE (R513). Every 16 boundaries, the throttle level rises or falls against the power
  limit. -/
  | throttleUpdate (mw : Nat) (quiet back : Bool)
  /-- THERMAL_LIMIT_UPDATE (R514). Every 1,048,576 t, the thermal limit L moves by 1 W. -/
  | thermalLimitUpdate
  /-- TAMPER_SAMPLE (R405). At a channel's sample instant, its event filter is updated and may fire. -/
  | tamperSample (ch : Nat) (ev : Bool) (detail lights : Nat)
  /-- TAMPER_DECISION (R408). The decision set is ranked twice and its response applied, erasing secrets at
  rank 3 or 4. -/
  | tamperDecision (second : Option Nat)
  /-- SUPPLY_SOURCE_CHANGE (R400). Heartwood changes between VDD_IO and VBAK and clears the tamper windows.
  -/
  | supplySourceChange (vdd : Bool) (vbak : Nat)
  /-- HEARTWOOD_STATE_LOSS (R400). VBAK below 1.7 V on the cell alone loses the heartwood state. -/
  | heartwoodStateLoss
  /-- JTAG_LCS_CMD (R425). In BLANK, an LCS_TRANSITION is shifted in through JTAG. -/
  | jtagLcsCmd (params : Bytes) (u : LcsUpset)
  /-- DBG_CHALLENGE (R435). Returns a fresh nonce and the device identity for debug unlock. -/
  | dbgChallenge
  /-- DBG_RESPONSE (R435). Checks the signatures and opens the debug TAP in RETURNED. -/
  | dbgResponse (r : Bytes) (glitch : Bool)
  /-- EXTEST (R434). A boundary-scan instruction that takes the pins enters power-fail stop. -/
  | extest
  /-- MG_STATE_REPORT (R520). Management read 0x01 of the state report. -/
  | mgStateReport
  /-- MG_HEALTH_SUMMARY (R520). Management read 0x02 of HEALTH_SUMMARY. -/
  | mgHealthSummary
  /-- MG_TJ (R520). Management read 0x03 of Tj. -/
  | mgTj
  /-- MG_POWER (R520). Management read 0x04 of the power state. -/
  | mgPower
  /-- ALERT_RESPONSE (R519). An SMBus Alert Response Address read releases MG_ALERT_N. -/
  | alertResponse
  /-- I3C_IBI_ACK (R519). Acknowledging the in-band interrupt releases MG_ALERT_N. -/
  | i3cIbiAck
  /-- CONFIG_REQUEST (R438). A PCIe configuration request is answered, or gets Retry Status before ports
  ready. -/
  | configRequest (p fn : Nat) (a : CfgAccess)
  /-- VF_ENABLE_SET (R480). Setting VF Enable enables functions 1 to NumVFs. -/
  | vfEnableSet (p n : Nat)
  /-- VF_ENABLE_CLEAR (R480). Clearing VF Enable applies the FLR action to every TF instance of the port. -/
  | vfEnableClear (p : Nat)
  /-- FUNCTION_LEVEL_RESET (R119). FLR of a TF aborts its jobs without CEs and resets its instance. -/
  | functionLevelReset (inst : Nat)
  /-- BUS_MASTER_DISABLE (R481). Bus Master Enable cleared, or D3hot, stops the function's fetching and
  fails its accesses; with the function, whether it is D3hot. -/
  | busMasterDisable (fn : Nat × Bool)
  /-- BUS_MASTER_ENABLE (R481). Bus mastering returns and fetching resumes. -/
  | busMasterEnable (fn : Nat)
  /-- VECTOR_UNMASK (R484). A pending vector whose mask clears sends its message at the next boundary. -/
  | vectorUnmask (inst v addr data : Nat)
  /-- HOST_READ_COMPLETION (R482). A completion for a device read arrives; UR, CA or poison is a failed
  read. -/
  | hostReadCompletion (p : Nat) (f : ReadFor) (c : Cpl)
  /-- COMPLETION_TIMEOUT (R482). A read with no completion within the timeout is failed. -/
  | completionTimeout (p : Nat) (f : ReadFor)
  /-- PORT_RESET (R486). PERST, a hot reset or DL_Down resets the port's instances and configuration at the
  next boundary. -/
  | portReset (p : Nat)
  /-- HOST_LINK_TRAINED (R475). A host port trains and equalises to its speed and width. -/
  | hostLinkTrained (p speed width : Nat)
  /-- HOST_LINK_RETRY (R475). A port that cannot reach 8 GT/s retrains every 100 ms. -/
  | hostLinkRetry (p : Nat)
  /-- HOST_LINK_DOWN (R487). A port out of L0 or at DL_Down becomes WITHDRAWN and raises HOST_PORT. -/
  | hostLinkDown (p : Nat) (dl : Bool)
  /-- HOST_LANE_DEGRADE (R487). A link retrained narrower or slower raises HOST_LANE. -/
  | hostLaneDegrade (p speed width lane : Nat)
  /-- TETHER_LINK_TRAINED (R453). A tether link trains, and discovery can begin. -/
  | tetherLinkTrained (l width : Nat)
  /-- TETHER_LANE_FAIL (R453). A lane failure retrains the link narrower, or loses it at x1. -/
  | tetherLaneFail (l lane : Nat)
  /-- DISCOVERY_RETRY (R451). The manager retries discovery on a refused link every 1,048,576 t. -/
  | discoveryRetry (l : Nat)
  /-- HEARTBEAT_DUE (R459). Every 16 canopy ticks, BEAT messages are sent between the manager and the
  members. -/
  | heartbeatDue
  /-- TICK_SYNC_DUE (R458). Every 1,024 canopy ticks, the manager sends TICK. -/
  | tickSyncDue
  /-- MEMBER_LOST_TIMEOUT (R459). 64 t without a BEAT makes the manager declare a member lost and send LOST.
  -/
  | memberLostTimeout (d : Nat)
  /-- MANAGER_LOST_TIMEOUT (R469). A member, after 64 t, or the standby, after 48 t, without a BEAT treats
  the manager as lost. -/
  | managerLostTimeout
  /-- TETHER_JOB (R286). A JOB message is received and run by the worker, in its speculative class if
  unconfirmed. -/
  | tetherJob (m : TMsg)
  /-- TETHER_RESULT (R460). A RESULT message is held by the origin until the job's release. -/
  | tetherResult (m : TMsg)
  /-- CTX_MOVE_TRANSFER (R465). A receiver installs a transferred context and answers ACCEPT or REFUSE. -/
  | ctxMoveTransfer (m : TMsg)
  /-- CTX_MOVE_ACCEPT (R465). The holder erases its copy and informs the home. -/
  | ctxMoveAccept (m : TMsg)
  /-- CTX_MOVE_REFUSE (R465). The waiting job ends with CONTEXT_BUSY. -/
  | ctxMoveRefuse (m : TMsg)
  /-- TETHER_TICK (R458). A member corrects its tick phase, or becomes an orphan on a large error. -/
  | tetherTick (m : TMsg) (err : Int)
  /-- TETHER_FENCE (R468). FENCE treats the sender as lost at once and is forwarded. -/
  | tetherFence (m : TMsg)
  /-- HEALTH_CHARTER (R451). A receiver checks the charter and the manager's keys, then replies JOIN; with the message, whether a
  glitch splits the charter's signature decision (R375). -/
  | healthCharter (m : TMsg × Bool)
  /-- HEALTH_JOIN (R451). The manager checks the joiner, derives the pair secret and sends ADMIT. -/
  | healthJoin (m : TMsg)
  /-- HEALTH_ADMIT (R451). A member receives the canopy tick and pair keys and becomes JOINED. -/
  | healthAdmit (m : TMsg)
  /-- HEALTH_BEAT (R459). A BEAT refreshes the sender's liveness and free-slot count. -/
  | healthBeat (m : TMsg)
  /-- HEALTH_TAKEOVER (R469). A member accepts and forwards a TAKEOVER once it treats the manager as lost.
  -/
  | healthTakeover (m : TMsg)
  /-- HEALTH_LOST (R466). A member ends jobs sent to the lost member and forgets the contexts held there. -/
  | healthLost (m : TMsg)
  /-- HEALTH_KEY_ADD (R461). A member installs a key replica in FUNNEL mode. -/
  | healthKeyAdd (m : TMsg)
  /-- HEALTH_KEY_DROP (R461). A member drops a key replica and answers. -/
  | healthKeyDrop (m : TMsg)
  /-- HEALTH_DISSOLVE (R450). A member ends remote jobs, destroys contexts and leaves the canopy. -/
  | healthDissolve (m : TMsg)
  /-- CANCEL_CONFIRM (R287). The worker commits the job's envelope changes and continues it as confirmed
  work. -/
  | cancelConfirm (m : TMsg)
  /-- CANCEL_WITHDRAW (R287). The worker ends the job and zeroises its envelope. -/
  | cancelWithdraw (m : TMsg)
  /-- FLIT_RECEIVE (R455). A tether receiver takes a 256-byte flit whole, checks CRC, SEQ and length, and
  acknowledges it or answers NAK so that the sender replays, retraining the link after 8 NAKs. -/
  | flitReceive (l : Nat) (flit : Bytes)
  /-- VAULT_CHANNEL_RETURN (R262). A lost vault channel comes back and the stewards start copying it back
  from the survivor. -/
  | vaultChannelReturn (c : Nat)
  /-- AVS_UPDATE (R503). The device chooses a new VDD_CORE setpoint from its process monitors and Tj and
  sends it to the regulator over AVSBus, at most once per 1,024 t. -/
  | avsUpdate (setpoint : Nat)
  /-- PWR_FAIL_N_RELEASE (R510). PWR_FAIL_N rises and, once it has been high for 1 ms, lets a boot held at
  step 1 continue. -/
  | pwrFailNRelease (env : BootEnv)
  /-- XTAL32_STOP (R401). The 32.768 kHz crystal stops and the heartwood time counter switches to the RC
  fallback. -/
  | xtal32Stop
  /-- XTAL32_RESTART (R401). The crystal starts again and the time counter returns to it from the RC
  fallback. -/
  | xtal32Restart
  /-- UNASSIGNED_ENCODING (R293). An Alada instruction word whose encoding Table 11.2 or Table 11.3 does not
  assign is executed and raises ILLEGAL. -/
  | unassignedEncoding (j w : Nat)
  deriving DecidableEq, Repr, Inhabited

end Sys2Proof
end

