-- ==== Sys2Proof/Decode.lean ====
section
/-! DEFINITION. The command that a word spells by the table's bits. The table of this block gives no row any bits: its rows
are writes, reads, entries, messages and events, and no word spells one of them. -/

namespace Sys2Proof

/-- The command of a word: the rows of spec/opcode_table.json have no bits, so no word spells one. -/
def decodeTableWord (_nbits _w : Nat) : Option Instr := none

end Sys2Proof
end

