-- ==== Sys2Proof/Machine/Bytes.lean ====
section
/-! DEFINITION. Byte strings, little-endian fields (R7), bit fields and checksums. -/

namespace Sys2Proof.Machine

/-- `n` bytes of `v`, least significant first (R7). -/
def leBytes : Nat → Nat → Bytes
  | 0, _ => []
  | n + 1, v => BitVec.ofNat 8 v :: leBytes n (v / 256)

/-- The number a little-endian byte string spells (R7). -/
def leNat : Bytes → Nat
  | [] => 0
  | b :: bs => b.toNat + 256 * leNat bs

/-- `n` bytes of `v`, most significant first. -/
def beBytes (n v : Nat) : Bytes := (leBytes n v).reverse

/-- The number a big-endian byte string spells. -/
def beNat (b : Bytes) : Nat := leNat b.reverse

/-- The bytes from `off` on, `len` of them at most. -/
def sub (b : Bytes) (off len : Nat) : Bytes := (b.drop off).take len

/-- The little-endian field of `len` bytes at `off`. -/
def leAt (b : Bytes) (off len : Nat) : Nat := leNat (sub b off len)

/-- Byte `off` as a number; 0 beyond the end. -/
def byteAt (b : Bytes) (off : Nat) : Nat := (b.getD off 0).toNat

/-- `n` zero bytes. -/
def zeros (n : Nat) : Bytes := List.replicate n 0

/-- Exactly `n` bytes: cut or padded with zeros. -/
def fit (n : Nat) (b : Bytes) : Bytes := (b ++ zeros n).take n

/-- Overwrite `b` at `off` with `v`, keeping the length of `b`. -/
def patch (b : Bytes) (off : Nat) (v : Bytes) : Bytes :=
  fit b.length (b.take off ++ v ++ b.drop (off + v.length))

/-- Bits `hi` to `lo` of `v`. -/
def bits (v hi lo : Nat) : Nat := v / 2 ^ lo % 2 ^ (hi + 1 - lo)

/-- Bit `i` of `v`. -/
def bit (v i : Nat) : Bool := v.testBit i

/-- A truth value as a one-bit number. -/
def b2n (b : Bool) : Nat := if b then 1 else 0

/-- Division rounding up; 0 when the divisor is 0. -/
def ceilDiv (a b : Nat) : Nat := (a + b - 1) / b

/-- `v`, or `max` when it is larger. -/
def sat (max v : Nat) : Nat := if v > max then max else v

/-- Is every byte of a range of `b` zero? -/
def allZero (b : Bytes) (off len : Nat) : Bool := (sub b off len).all (· == 0)

/-- Byte-wise exclusive or of two strings, of the length of the first. -/
def xorBytes : Bytes → Bytes → Bytes
  | [], _ => []
  | a :: as, [] => a :: as
  | a :: as, b :: bs => (a ^^^ b) :: xorBytes as bs

/-- One bit of the CRC-16 with polynomial 0x1021 (R410). -/
def crc16Bit (c : BitVec 16) : BitVec 16 :=
  if c.msb then (c <<< 1) ^^^ 0x1021#16 else c <<< 1

/-- One byte of the CRC-16 (R410). -/
def crc16Byte (c : BitVec 16) (b : Byte) : BitVec 16 :=
  Nat.repeat crc16Bit 8 (c ^^^ ((b.zeroExtend 16) <<< 8))

/-- CRC-16 with polynomial 0x1021 and initial value 0xFFFF (R410). -/
def crc16 (b : Bytes) : BitVec 16 := b.foldl crc16Byte 0xFFFF#16

/-- Replace the elements that satisfy `p` by `f` of them. -/
def updWhere {α : Type} (p : α → Bool) (f : α → α) (l : List α) : List α :=
  l.map fun x => if p x then f x else x

/-- The index of the first element that satisfies `p`. -/
def indexWhere {α : Type} (p : α → Bool) : List α → Option Nat
  | [] => none
  | x :: xs => if p x then some 0 else (indexWhere p xs).map (· + 1)

/-- The lowest number below `n` that `used` does not hold. -/
def lowestFree (n : Nat) (used : Nat → Bool) : Option Nat :=
  (List.range n).find? fun i => !used i

/-- Increment a counter that saturates at `max`. -/
def satInc (max v : Nat) : Nat := if v < max then v + 1 else v

end Sys2Proof.Machine
end

