-- ==== Sys2Proof/Machine/Hash.lean ====
section
/-! DEFINITION. The hash functions of R213 and what R214 builds from them, as their own standards give them (PRESUMED, log
entry 53): Keccak and the functions over it (FIPS 202, SP 800-185), SHA-2 (FIPS 180-4), HMAC (RFC 2104), HKDF (RFC 5869),
KMAC and its KDF (SP 800-185, SP 800-108). -/

namespace Sys2Proof.Machine

/-- `f` of a number that is worked out first: a rule of evaluation, no more. -/
def forced {α : Type} (n : Nat) (f : Nat → α) : α :=
  match n with
  | 0 => f 0
  | k + 1 => f (Nat.succ k)

/-- Rotate a `w`-bit word left. -/
def rotlW (w n x : Nat) : Nat := ((x <<< n) ||| (x >>> (w - n))) % 2 ^ w

/-! ### Keccak-f[1600] (FIPS 202) -/

namespace Keccak

/-- Round constants. -/
def rc : List Nat :=
  [0x1, 0x8082, 0x800000000000808A, 0x8000000080008000,
   0x808B, 0x80000001, 0x8000000080008081, 0x8000000000008009,
   0x8A, 0x88, 0x80008009, 0x8000000A,
   0x8000808B, 0x800000000000008B, 0x8000000000008089, 0x8000000000008003,
   0x8000000000008002, 0x8000000000000080, 0x800A, 0x800000008000000A,
   0x8000000080008081, 0x8000000000008080, 0x80000001, 0x8000000080008008]

/-- Rotation offsets of lane x + 5y. -/
def rot : List Nat :=
  [0, 1, 62, 28, 27,
   36, 44, 6, 55, 20,
   3, 10, 43, 25, 39,
   41, 45, 15, 21, 8,
   18, 2, 61, 56, 14]

/-- Where each lane of pi's result comes from: lane X + 5Y from x = X + 3Y, y = X, as a bit offset and its rotation. -/
def moves : List (Nat × Nat) :=
  (List.range 25).map fun i => let k := (i % 5 + 3 * (i / 5)) % 5 + 5 * (i % 5); (64 * k, rot.getD k 0)

/-- A plane of five lanes five times over, and the lowest bit of each lane of a plane. -/
def planes : Nat := 1 + 2 ^ 320 + 2 ^ 640 + 2 ^ 960 + 2 ^ 1280

def lows : Nat := 1 + 2 ^ 64 + 2 ^ 128 + 2 ^ 192 + 2 ^ 256

/-- Theta.  A state is one number, its first lane lowest. -/
def theta (a : Nat) : Nat :=
  forced ((a ^^^ (a >>> 320) ^^^ (a >>> 640) ^^^ (a >>> 960) ^^^ (a >>> 1280)) % 2 ^ 320) fun c =>
  -- lanes x − 1 and x + 1, the second rotated by one
  let before := ((c <<< 64) % 2 ^ 320) ||| (c >>> 256)
  forced ((c >>> 64) ||| ((c % 2 ^ 64) <<< 256)) fun after =>
  let once := ((after <<< 1) &&& (2 ^ 320 - 1 - lows)) ||| ((after >>> 63) &&& lows)
  a ^^^ ((before ^^^ once) * planes)

/-- Rho and pi. -/
def rhoPi (a : Nat) : List (Nat × Nat) → Nat
  | [] => 0
  | (o, r) :: t => rotlW 64 r ((a >>> o) % 2 ^ 64) + (rhoPi a t) <<< 64

/-- Each lane replaced by the next one of its plane. -/
def next (b : Nat) : Nat :=
  ((b >>> 64) &&& ((2 ^ 256 - 1) * planes)) ||| ((b <<< 256) &&& ((2 ^ 320 - 2 ^ 256) * planes))

/-- Chi. -/
def chi (b : Nat) : Nat := forced (next b) fun c => b ^^^ ((c ^^^ (2 ^ 1600 - 1)) &&& next c)

/-- One round: theta, rho and pi, chi, iota. -/
def round (a k : Nat) : Nat := forced (theta a) fun t => forced (rhoPi t moves) fun b => chi b ^^^ k

/-- The permutation. -/
def f (st : Nat) : Nat := rc.foldl (fun st k => forced st fun st => round st k) st

/-- Absorb whole blocks of `rate` bytes; `n` bounds their number. -/
def absorb (rate : Nat) : Nat → Nat → Bytes → Nat
  | 0, st, _ => st
  | n + 1, st, m => if m.isEmpty then st else
    forced (f (st ^^^ leNat (m.take rate))) fun st => absorb rate n st (m.drop rate)

/-- `n` blocks of output. -/
def squeeze (rate : Nat) : Nat → Nat → Bytes
  | 0, _ => []
  | n + 1, st => leBytes rate st ++ (if n = 0 then [] else forced (f st) fun st => squeeze rate n st)

/-- The padding of a message of `len` bytes: the domain bits, and the last bit of the block. -/
def pad (rate dom len : Nat) : Bytes := leBytes (rate - len % rate) (dom + 2 ^ (8 * (rate - len % rate) - 1))

/-- The sponge: `n` bytes over a message under a rate and a domain. -/
def sponge (rate dom : Nat) (m : Bytes) (n : Nat) : Bytes :=
  let p := m ++ pad rate dom m.length
  forced (absorb rate (p.length / rate) 0 p) fun st => (squeeze rate (ceilDiv n rate) st).take n

end Keccak

/-! ### Strings of SP 800-185 -/

/-- Bytes that a number takes, at least one. -/
def byteLen (v : Nat) : Nat := max 1 (ceilDiv (Nat.log2 v + 1) 8)

def leftEncode (v : Nat) : Bytes := BitVec.ofNat 8 (byteLen v) :: beBytes (byteLen v) v

def rightEncode (v : Nat) : Bytes := beBytes (byteLen v) v ++ [BitVec.ofNat 8 (byteLen v)]

def encodeString (b : Bytes) : Bytes := leftEncode (8 * b.length) ++ b

/-- A string behind the encoded rate, filled up to a whole number of blocks. -/
def bytepad (b : Bytes) (w : Nat) : Bytes := let x := leftEncode w ++ b; x ++ zeros ((w - x.length % w) % w)

/-- cSHAKE of a rate, with its function name and customisation; SHAKE where both are empty. -/
def cshake (rate : Nat) (m name custom : Bytes) (n : Nat) : Bytes :=
  if name.isEmpty && custom.isEmpty then Keccak.sponge rate 0x1F m n
  else Keccak.sponge rate 0x04 (bytepad (encodeString name ++ encodeString custom) rate ++ m) n

/-! ### SHA-2 (FIPS 180-4) -/

namespace Sha2

/-- Round constants of SHA-512; those of SHA-256 are their upper halves. -/
def k : List Nat :=
  [0x428A2F98D728AE22, 0x7137449123EF65CD, 0xB5C0FBCFEC4D3B2F, 0xE9B5DBA58189DBBC,
   0x3956C25BF348B538, 0x59F111F1B605D019, 0x923F82A4AF194F9B, 0xAB1C5ED5DA6D8118,
   0xD807AA98A3030242, 0x12835B0145706FBE, 0x243185BE4EE4B28C, 0x550C7DC3D5FFB4E2,
   0x72BE5D74F27B896F, 0x80DEB1FE3B1696B1, 0x9BDC06A725C71235, 0xC19BF174CF692694,
   0xE49B69C19EF14AD2, 0xEFBE4786384F25E3, 0xFC19DC68B8CD5B5, 0x240CA1CC77AC9C65,
   0x2DE92C6F592B0275, 0x4A7484AA6EA6E483, 0x5CB0A9DCBD41FBD4, 0x76F988DA831153B5,
   0x983E5152EE66DFAB, 0xA831C66D2DB43210, 0xB00327C898FB213F, 0xBF597FC7BEEF0EE4,
   0xC6E00BF33DA88FC2, 0xD5A79147930AA725, 0x6CA6351E003826F, 0x142929670A0E6E70,
   0x27B70A8546D22FFC, 0x2E1B21385C26C926, 0x4D2C6DFC5AC42AED, 0x53380D139D95B3DF,
   0x650A73548BAF63DE, 0x766A0ABB3C77B2A8, 0x81C2C92E47EDAEE6, 0x92722C851482353B] ++
  [0xA2BFE8A14CF10364, 0xA81A664BBC423001, 0xC24B8B70D0F89791, 0xC76C51A30654BE30,
   0xD192E819D6EF5218, 0xD69906245565A910, 0xF40E35855771202A, 0x106AA07032BBD1B8,
   0x19A4C116B8D2D0C8, 0x1E376C085141AB53, 0x2748774CDF8EEB99, 0x34B0BCB5E19B48A8,
   0x391C0CB3C5C95A63, 0x4ED8AA4AE3418ACB, 0x5B9CCA4F7763E373, 0x682E6FF3D6B2B8A3,
   0x748F82EE5DEFB2FC, 0x78A5636F43172F60, 0x84C87814A1F0AB72, 0x8CC702081A6439EC,
   0x90BEFFFA23631E28, 0xA4506CEBDE82BDE9, 0xBEF9A3F7B2C67915, 0xC67178F2E372532B,
   0xCA273ECEEA26619C, 0xD186B8C721C0C207, 0xEADA7DD6CDE0EB1E, 0xF57D4F7FEE6ED178,
   0x6F067AA72176FBA, 0xA637DC5A2C898A6, 0x113F9804BEF90DAE, 0x1B710B35131C471B,
   0x28DB77F523047D84, 0x32CAAB7B40C72493, 0x3C9EBE0A15C9BEBC, 0x431D67C49C100D4C,
   0x4CC5D4BECB3E42B6, 0x597F299CFC657E2A, 0x5FCB6FAB3AD6FAEC, 0x6C44198C4A475817]

/-- Initial values of SHA-512, SHA-384, SHA-512/224 and SHA-512/256. -/
def iv512 : List Nat :=
  [0x6A09E667F3BCC908, 0xBB67AE8584CAA73B, 0x3C6EF372FE94F82B, 0xA54FF53A5F1D36F1,
   0x510E527FADE682D1, 0x9B05688C2B3E6C1F, 0x1F83D9ABFB41BD6B, 0x5BE0CD19137E2179]

def iv384 : List Nat :=
  [0xCBBB9D5DC1059ED8, 0x629A292A367CD507, 0x9159015A3070DD17, 0x152FECD8F70E5939,
   0x67332667FFC00B31, 0x8EB44A8768581511, 0xDB0C2E0D64F98FA7, 0x47B5481DBEFA4FA4]

def iv512t224 : List Nat :=
  [0x8C3D37C819544DA2, 0x73E1996689DCD4D6, 0x1DFAB7AE32FF9C82, 0x679DD514582F9FCF,
   0xF6D2B697BD44DA8, 0x77E36F7304C48942, 0x3F9D85A86A1D36C8, 0x1112E6AD91D692A1]

def iv512t256 : List Nat :=
  [0x22312194FC2BF72C, 0x9F555FA3C84C64C2, 0x2393B86B6F53B151, 0x963877195940EABD,
   0x96283EE2A88EFFE3, 0xBE5E1E2553863992, 0x2B0199FC2C85B8AA, 0xEB72DDC81C52CA2]

/-- What the two word widths differ in: the word, the rotations of the big sigmas, the rotations and shift of the small
ones. -/
structure Par where
  w : Nat
  a0 : Nat
  b0 : Nat
  c0 : Nat
  a1 : Nat
  b1 : Nat
  c1 : Nat
  d0 : Nat
  e0 : Nat
  s0 : Nat
  d1 : Nat
  e1 : Nat
  s1 : Nat

def par32 : Par := ⟨32, 2, 13, 22, 6, 11, 25, 7, 18, 3, 17, 19, 10⟩

def par64 : Par := ⟨64, 28, 34, 39, 14, 18, 41, 1, 8, 7, 19, 61, 6⟩

/-- The rotations of a word, twice in a row. -/
def big (w a b c x : Nat) : Nat := forced (x * (2 ^ w + 1)) fun y => ((y >>> a) ^^^ (y >>> b) ^^^ (y >>> c)) % 2 ^ w

def small (w a b c x : Nat) : Nat := forced (x * (2 ^ w + 1)) fun y => (((y >>> a) ^^^ (y >>> b)) % 2 ^ w) ^^^ (x >>> c)

/-- The rounds: round constants, the next sixteen schedule words as one number, the first lowest, and the eight working
variables. -/
def rounds (p : Par) : List Nat → Nat → Nat → Nat → Nat → Nat → Nat → Nat → Nat → Nat → List Nat
  | [], _, a, b, c, d, e, f, g, h => [a, b, c, d, e, f, g, h]
  | k :: ks, ws, a, b, c, d, e, f, g, h =>
    let w := p.w
    let word := fun i => (ws >>> (w * i)) % 2 ^ w
    forced (word 0) fun wt =>
    forced (h + big w p.a1 p.b1 p.c1 e + ((e &&& f) ^^^ ((e ^^^ (2 ^ w - 1)) &&& g)) + k + wt) fun t1 =>
    forced ((small w p.d1 p.e1 p.s1 (word 14) + word 9 + small w p.d0 p.e0 p.s0 (word 1) + wt) % 2 ^ w) fun next =>
    forced ((d + t1) % 2 ^ w) fun e' =>
    forced ((t1 + big w p.a0 p.b0 p.c0 a + ((a &&& b) ^^^ (a &&& c) ^^^ (b &&& c))) % 2 ^ w) fun a' =>
    forced ((ws >>> w) + next <<< (w * 15)) fun ws' =>
      rounds p ks ws' a' a b c e' e f g

/-- Big-endian words of a block. -/
def words (w : Nat) : Nat → Bytes → List Nat
  | 0, _ => []
  | n + 1, b => beNat (b.take (w / 8)) :: words w n (b.drop (w / 8))

/-- Words as one number, the first lowest. -/
def packed (w : Nat) : List Nat → Nat
  | [] => 0
  | x :: xs => x + packed w xs <<< w

/-- One block. -/
def compress (w : Nat) (h : List Nat) (block : Bytes) : List Nat :=
  let ks := if w = 32 then (k.take 64).map (· >>> 32) else k
  let x := fun i => h.getD i 0
  let r := rounds (if w = 32 then par32 else par64) ks (packed w (words w 16 block)) (x 0) (x 1) (x 2) (x 3) (x 4) (x 5)
    (x 6) (x 7)
  List.zipWith (fun a b => (a + b) % 2 ^ w) h r

/-- Blocks of `w / 4` bytes, one after the other; `n` bounds their number.  The state is held as one number. -/
def blocks (w : Nat) : Nat → Nat → Bytes → Nat
  | 0, h, _ => h
  | n + 1, h, m => if m.isEmpty then h else
    forced (beNat ((compress w (words w 8 (beBytes w h)) (m.take (2 * w))).flatMap (beBytes (w / 8)))) fun h =>
      blocks w n h (m.drop (2 * w))

/-- The padded message: a one bit, zeros, and the length in bits. -/
def padded (w : Nat) (m : Bytes) : Bytes :=
  let l := w / 4
  m ++ [0x80] ++ zeros ((2 * w - (m.length + 1 + l) % (2 * w)) % (2 * w)) ++ beBytes l (8 * m.length)

/-- The first `n` bytes of the hash of a message from an initial value. -/
def hash (w : Nat) (iv : List Nat) (m : Bytes) (n : Nat) : Bytes :=
  let p := padded w m
  forced (blocks w (p.length / (2 * w)) (beNat (iv.flatMap (beBytes (w / 8)))) p) fun h => (beBytes w h).take n

end Sha2

/-! ### Hashes by their code (Table 8.1) -/

/-- The whole output of a fixed-length hash, or `n` bytes of an XOF. -/
def hashRaw (code : Nat) (m name custom : Bytes) (n : Nat) : Bytes :=
  match code with
  | 0x01 => Sha2.hash 32 (Sha2.iv512.map (· >>> 32)) m 32
  | 0x02 => Sha2.hash 64 Sha2.iv384 m 48
  | 0x03 => Sha2.hash 64 Sha2.iv512 m 64
  | 0x04 => Sha2.hash 32 (Sha2.iv384.map (· % 2 ^ 32)) m 28
  | 0x05 => Sha2.hash 64 Sha2.iv512t224 m 28
  | 0x06 => Sha2.hash 64 Sha2.iv512t256 m 32
  | 0x07 => Keccak.sponge 144 0x06 m 28
  | 0x08 => Keccak.sponge 136 0x06 m 32
  | 0x09 => Keccak.sponge 104 0x06 m 48
  | 0x0A => Keccak.sponge 72 0x06 m 64
  | 0x0B => Keccak.sponge 168 0x1F m n
  | 0x0C => Keccak.sponge 136 0x1F m n
  | 0x0D => cshake 168 m name custom n
  | 0x0E => cshake 136 m name custom n
  | _ => []

/-- `n` bytes of a hash or XOF by its code (Table 8.1), with the cSHAKE strings N and S. -/
@[irreducible] def hashOf (code : Nat) (msg nStr sStr : Bytes) (n : Nat) : Bytes := fit n (hashRaw code msg nStr sStr n)

/-- Output length of a fixed-length hash, and its block: the rate of SHA-3. -/
def hashOut (code : Nat) : Nat := [0, 32, 48, 64, 28, 28, 32, 28, 32, 48, 64].getD code 0

def hashBlock (code : Nat) : Nat := [0, 64, 128, 128, 64, 128, 128, 144, 136, 104, 72].getD code 0

/-! ### HMAC, HKDF, KMAC -/

/-- The key as one block: hashed when it is longer, filled with zeros. -/
def hmacKey (code : Nat) (key : Bytes) : Bytes :=
  fit (hashBlock code) (if hashBlock code < key.length then hashOf code key [] [] (hashOut code) else key)

/-- HMAC over the hash of a code (RFC 2104). -/
@[irreducible] def hmacOf (code : Nat) (key msg : Bytes) : Bytes :=
  let k := hmacKey code key
  let inner := hashOf code (k.map (· ^^^ 0x36) ++ msg) [] [] (hashOut code)
  hashOf code (k.map (· ^^^ 0x5C) ++ inner) [] [] (hashOut code)

/-- HKDF-Extract (RFC 5869); an empty salt means hash-length zeros. -/
def hkdfExtract (code : Nat) (salt ikm : Bytes) : Bytes :=
  hmacOf code (if salt.isEmpty then zeros (hashOut code) else salt) ikm

/-- The blocks T(i) of HKDF-Expand after the one given; `n` of them. -/
def hkdfBlocks (code : Nat) (prk info : Bytes) : Nat → Nat → Bytes → Bytes
  | 0, _, _ => []
  | n + 1, i, t =>
    let t := hmacOf code prk (t ++ info ++ [BitVec.ofNat 8 i])
    t ++ hkdfBlocks code prk info n (i + 1) t

/-- HKDF-Expand (RFC 5869). -/
@[irreducible] def hkdfExpand (code : Nat) (prk info : Bytes) (n : Nat) : Bytes :=
  fit n (hkdfBlocks code prk info (ceilDiv n (hashOut code)) 1 [])

/-- KMAC128 or KMAC256 with a customisation string and an output length (SP 800-185). -/
@[irreducible] def kmacOf (pset : Nat) (key msg custom : Bytes) (n : Nat) : Bytes :=
  let rate := if pset = 1 then 168 else 136
  fit n (cshake rate (bytepad (encodeString key) rate ++ msg ++ rightEncode (8 * n)) [0x4B, 0x4D, 0x41, 0x43] custom n)

/-- KMAC#(K, context, L, label) of SP 800-108: KMAC with the label as its customisation. -/
def kmacKdf (pset : Nat) (key context label : Bytes) (n : Nat) : Bytes := kmacOf pset key context label n

end Sys2Proof.Machine
end

