-- ==== Sys2Proof/Machine/Cipher.lean ====
section
/-! DEFINITION. The ciphers of R229 and R245 as their own standards give them (PRESUMED, log entry 53): AES (FIPS 197),
AES-GCM (SP 800-38D), ChaCha20-Poly1305 (RFC 8439), AES key wrap with padding (RFC 5649). -/

namespace Sys2Proof.Machine

/-! ### AES (FIPS 197) -/

namespace Aes

/-- The S-box and its inverse, entry `x` in byte `x` of one number. -/
def sbox : Nat :=
  0x16BB54B00F2D99416842E6BF0D89A18CDF2855CEE9871E9B948ED9691198F8E19E1DC186B95735610EF6034866B53E708A8BBD4B1F74DDE8C6B4A61C2E2578BA08AE7A65EAF4566CA94ED58D6D37C8E779E4959162ACD3C25C2406490A3A32E0DB0B5EDE14B8EE4688902A22DC4F816073195D643D7EA7C41744975FEC130CCDD2F3FF1021DAB6BCF5389D928F40A351A89F3C507F02F94585334D43FBAAEFD0CF584C4A39BECB6A5BB1FC20ED00D153842FE329B3D63B52A05A6E1B1A2C830975B227EBE28012079A059618C323C7041531D871F1E5A534CCF73F362693FDB7C072A49CAFA2D4ADF04759FA7DC982CA76ABD7FE2B670130C56F6BF27B777C63

def sboxInv : Nat :=
  0x7D0C2155631469E126D677BA7E042B17619953833CBBEBC8B0F52AAE4D3BE0A0EF9CC9939F7AE52D0D4AB519A97F51605FEC8027591012B131C7078833A8DD1FF45ACD78FEC0DB9A2079D2C64B3E56FC1BBE18AA0E62B76F89C5291D711AF1476EDF751CE837F9E28535ADE72274AC9673E6B4F0CECFF297EADC674F4111913A6B8A130103BDAFC1020F3FCA8F1E2CD00645B3B80558E4F70AD3BC8C00ABD890849D8DA75746155EDAB9EDFD5048706C92B6655DCC5CA4D41698688664F6F87225D18B6D49A25B76B224D92866A12E084EC3FA420B954CEE3D23C2A632947B54CBE9DEC444438E3487FF2F9B8239E37CFBD7F3819EA340BF38A53630D56A0952

/-- A table's entry. -/
def look (t x : Nat) : Nat := (t >>> (8 * (x % 256))) % 256

/-- A four-byte pattern in each column of a state. -/
def cols (x : Nat) : Nat := x * (1 + 2 ^ 32 + 2 ^ 64 + 2 ^ 96)

/-- Every byte of a state times x. -/
def xtime (s : Nat) : Nat := ((s &&& cols 0x7F7F7F7F) <<< 1) ^^^ (((s >>> 7) &&& cols 0x01010101) * 0x1B)

/-- Each byte of a column replaced by the next one. -/
def next (s : Nat) : Nat := ((s >>> 8) &&& cols 0x00FFFFFF) ||| ((s <<< 24) &&& cols 0xFF000000)

/-- MixColumns; three of them in a row undo one. -/
def mix (s : Nat) : Nat :=
  forced (xtime s) fun d => forced (next s) fun n => forced (next n) fun n2 => d ^^^ next d ^^^ n ^^^ n2 ^^^ next n2

/-- ShiftRows and SubBytes together, forward by 1 and back by 3 columns for each row. -/
def subShift (t step s : Nat) : List Nat → Nat
  | [] => 0
  | i :: is =>
    let j := i % 4 + 4 * ((i / 4 + step * (i % 4)) % 4)
    look t ((s >>> (8 * j)) % 256) + (subShift t step s is) <<< 8

/-- SubWord. -/
def subWord (w : Nat) : Nat :=
  look sbox w + look sbox (w >>> 8) * 2 ^ 8 + look sbox (w >>> 16) * 2 ^ 16 + look sbox (w >>> 24) * 2 ^ 24

/-- The next `n` words of the key schedule after a window of `nk` of them, oldest first; `i` counts the words. -/
def schedule (nk : Nat) : Nat → Nat → Nat → List Nat → List Nat
  | 0, _, _, _ => []
  | n + 1, i, rc, ws =>
    let t := ws.getLastD 0
    let t := if i % nk = 0 then subWord ((t >>> 8) ||| ((t % 256) <<< 24)) ^^^ rc
      else if nk = 8 ∧ i % 8 = 4 then subWord t else t
    forced (ws.headD 0 ^^^ t) fun w =>
      w :: schedule nk n (i + 1) (if i % nk = 0 then (if rc < 128 then 2 * rc else (2 * rc) ^^^ 0x11B) else rc) (ws.tail ++ [w])

/-- Words of a key. -/
def words : Nat → Bytes → List Nat
  | 0, _ => []
  | n + 1, b => leNat (b.take 4) :: words n (b.drop 4)

/-- Round keys, one number each. -/
def group : Nat → List Nat → List Nat
  | 0, _ => []
  | n + 1, w => (w.getD 0 0 + w.getD 1 0 * 2 ^ 32 + w.getD 2 0 * 2 ^ 64 + w.getD 3 0 * 2 ^ 96) :: group n (w.drop 4)

/-- The round keys of a 16- or 32-byte key. -/
def keys (key : Bytes) : List Nat :=
  let nk := key.length / 4
  let w := words nk key
  group (nk + 7) (w ++ schedule nk (4 * (nk + 7) - nk) nk 1 w)

/-- The rounds after the first key: the last one has no MixColumns. -/
def rounds : List Nat → Nat → Nat
  | [], s => s
  | k :: ks, s =>
    forced (subShift sbox 1 s (List.range 16)) fun s =>
    forced ((if ks.isEmpty then s else mix s) ^^^ k) fun s => rounds ks s

/-- The cipher on a block held as a number, its first byte lowest. -/
def encrypt (ks : List Nat) (b : Nat) : Nat := rounds ks.tail (b ^^^ ks.headD 0)

/-- The rounds of the inverse cipher, over the keys from the last to the first. -/
def roundsInv : List Nat → Nat → Nat
  | [], s => s
  | k :: ks, s =>
    forced (subShift sboxInv 3 s (List.range 16) ^^^ k) fun s =>
    if ks.isEmpty then s else forced (mix s) fun s => forced (mix s) fun s => forced (mix s) fun s => roundsInv ks s

/-- The inverse cipher. -/
def decrypt (ks : List Nat) (b : Nat) : Nat := roundsInv ks.reverse.tail (b ^^^ ks.getLastD 0)

end Aes

/-! ### AES-GCM (SP 800-38D) -/

namespace Gcm

/-- The product in GF(2^128), bits as GCM numbers them; `n` steps are left. -/
def mulLoop (x : Nat) : Nat → Nat → Nat → Nat
  | 0, z, _ => z
  | n + 1, z, v =>
    forced (if x.testBit n then z ^^^ v else z) fun z =>
    forced (if v % 2 = 1 then (v / 2) ^^^ (0xE1 * 2 ^ 120) else v / 2) fun v => mulLoop x n z v

def mul (x y : Nat) : Nat := mulLoop x 128 0 y

/-- GHASH over a string of whole blocks; `n` bounds their number. -/
def ghash (h : Nat) : Nat → Nat → Bytes → Nat
  | 0, y, _ => y
  | n + 1, y, m => if m.isEmpty then y else forced (mul (y ^^^ beNat (m.take 16)) h) fun y => ghash h n y (m.drop 16)

/-- Zeros up to a whole block. -/
def padded (b : Bytes) : Bytes := b ++ zeros ((16 - b.length % 16) % 16)

/-- The cipher on a block as a string. -/
def block (ks : List Nat) (b : Bytes) : Bytes := leBytes 16 (Aes.encrypt ks (leNat b))

/-- Counter mode from a counter on; `n` bounds the blocks. -/
def ctr (ks : List Nat) (nonce : Bytes) : Nat → Nat → Bytes → Bytes
  | 0, _, _ => []
  | n + 1, c, m => if m.isEmpty then [] else
    xorBytes (m.take 16) (block ks (nonce ++ beBytes 4 c)) ++ ctr ks nonce n (c + 1) (m.drop 16)

/-- The text under the key stream. -/
def crypt (key nonce text : Bytes) : Bytes := ctr (Aes.keys key) nonce (ceilDiv text.length 16) 2 text

/-- The tag of a ciphertext. -/
def tag (key nonce aad ct : Bytes) : Bytes :=
  let ks := Aes.keys key
  let m := padded aad ++ padded ct ++ beBytes 8 (8 * aad.length) ++ beBytes 8 (8 * ct.length)
  forced (beNat (block ks (zeros 16))) fun h =>
    xorBytes (beBytes 16 (ghash h (m.length / 16) 0 m)) (block ks (nonce ++ beBytes 4 1))

end Gcm

/-! ### ChaCha20-Poly1305 (RFC 8439) -/

namespace Chacha

/-- A pattern in each of the four words of a row. -/
def lanes (x : Nat) : Nat := x * (1 + 2 ^ 32 + 2 ^ 64 + 2 ^ 96)

/-- Sum word by word. -/
def add (a b : Nat) : Nat :=
  ((a &&& lanes 0x7FFFFFFF) + (b &&& lanes 0x7FFFFFFF)) ^^^ ((a ^^^ b) &&& lanes 0x80000000)

/-- Rotation left word by word. -/
def rotl (n x : Nat) : Nat :=
  ((x <<< n) &&& lanes (2 ^ 32 - 2 ^ n)) ||| ((x >>> (32 - n)) &&& lanes (2 ^ n - 1))

/-- A row turned by `k` words: word `i` is what word `i + k` was. -/
def turn (k x : Nat) : Nat := (x >>> (32 * k)) ||| ((x <<< (128 - 32 * k)) % 2 ^ 128)

/-- The four quarter rounds of the columns. -/
def quarters (a b c d : Nat) (f : Nat → Nat → Nat → Nat → Nat) : Nat :=
  forced (add a b) fun a => forced (rotl 16 (d ^^^ a)) fun d => forced (add c d) fun c => forced (rotl 12 (b ^^^ c)) fun b =>
  forced (add a b) fun a => forced (rotl 8 (d ^^^ a)) fun d => forced (add c d) fun c => forced (rotl 7 (b ^^^ c)) fun b =>
    f a b c d

/-- `n` double rounds; the result is the four rows as one number. -/
def rounds : Nat → Nat → Nat → Nat → Nat → Nat
  | 0, a, b, c, d => a + b * 2 ^ 128 + c * 2 ^ 256 + d * 2 ^ 384
  | n + 1, a, b, c, d =>
    quarters a b c d fun a b c d =>
    quarters a (turn 1 b) (turn 2 c) (turn 3 d) fun a b c d => rounds n a (turn 3 b) (turn 2 c) (turn 1 d)

/-- One block of key stream. -/
def block (key nonce : Bytes) (count : Nat) : Bytes :=
  let a := 0x6B20657479622D323320646E61707865
  let b := leNat (key.take 16)
  let c := leNat (key.drop 16)
  let d := count + leNat nonce * 2 ^ 32
  forced (rounds 10 a b c d) fun r =>
    leBytes 16 (add (r % 2 ^ 128) a) ++ leBytes 16 (add (r >>> 128) b) ++ leBytes 16 (add (r >>> 256) c)
      ++ leBytes 16 (add (r >>> 384) d)

/-- The text under the key stream; `n` bounds the blocks. -/
def crypt (key nonce : Bytes) : Nat → Nat → Bytes → Bytes
  | 0, _, _ => []
  | n + 1, c, m => if m.isEmpty then [] else xorBytes (m.take 64) (block key nonce c) ++ crypt key nonce n (c + 1) (m.drop 64)

/-- Poly1305 over whole or cut blocks of 16 bytes; `n` bounds their number. -/
def poly (r : Nat) : Nat → Nat → Bytes → Nat
  | 0, h, _ => h
  | n + 1, h, m => if m.isEmpty then h else
    let b := m.take 16
    forced ((h + leNat b + 2 ^ (8 * b.length)) * r % (2 ^ 130 - 5)) fun h => poly r n h (m.drop 16)

/-- The tag of a ciphertext. -/
def tag (key nonce aad ct : Bytes) : Bytes :=
  let k := block key nonce 0
  let r := leNat (k.take 16) &&& 0x0FFFFFFC0FFFFFFC0FFFFFFC0FFFFFFF
  let m := Gcm.padded aad ++ Gcm.padded ct ++ leBytes 8 aad.length ++ leBytes 8 ct.length
  leBytes 16 (poly r (m.length / 16) 0 m + leNat (sub k 16 16))

end Chacha

/-! ### AEAD by ALG and PSET -/

/-- Plaintext or ciphertext under the key stream of an AEAD; `a` is ALG × 256 + PSET. -/
def aeadStream (a : Nat) (key nonce text : Bytes) : Bytes :=
  if a / 256 = 0x31 then Chacha.crypt key nonce (ceilDiv text.length 64) 1 text else Gcm.crypt key nonce text

def aeadTag (a : Nat) (key nonce aad ct : Bytes) : Bytes :=
  if a / 256 = 0x31 then Chacha.tag key nonce aad ct else Gcm.tag key nonce aad ct

/-- Ciphertext and 16-byte tag of an AEAD (SP 800-38D, RFC 8439). -/
@[irreducible] def aeadSealOf (a : Nat) (key nonce aad text : Bytes) : Bytes :=
  let ct := fit text.length (aeadStream a key nonce text)
  ct ++ fit 16 (aeadTag a key nonce aad ct)

/-- Does the tag verify? -/
@[irreducible] def aeadTagOk (a : Nat) (key nonce aad body : Bytes) : Bool :=
  fit 16 (aeadTag a key nonce aad (body.take (body.length - 16))) == body.drop (body.length - 16)

/-- The plaintext of an AEAD body of ciphertext and tag. -/
@[irreducible] def aeadTextOf (a : Nat) (key nonce _aad body : Bytes) : Bytes :=
  fit (body.length - 16) (aeadStream a key nonce (body.take (body.length - 16)))

/-! ### AES key wrap with padding (RFC 5649) -/

namespace Kwp

/-- Semiblocks of a string. -/
def semis : Nat → Bytes → List Nat
  | 0, _ => []
  | n + 1, b => beNat (b.take 8) :: semis n (b.drop 8)

/-- A cipher of a 16-byte block as a big-endian number. -/
def encrypt (ks : List Nat) (x : Nat) : Nat := beNat (leBytes 16 (Aes.encrypt ks (leNat (beBytes 16 x))))

def decrypt (ks : List Nat) (x : Nat) : Nat := beNat (leBytes 16 (Aes.decrypt ks (leNat (beBytes 16 x))))

/-- One pass of wrapping: A goes through the semiblocks; `t` counts the steps.  The answer lists A last. -/
def pass (ks : List Nat) : Nat → Nat → List Nat → List Nat
  | _, a, [] => [a]
  | t, a, r :: rs => forced (encrypt ks (a * 2 ^ 64 + r)) fun b => b % 2 ^ 64 :: pass ks (t + 1) (b / 2 ^ 64 ^^^ t) rs

/-- `n` passes of wrapping. -/
def wrapLoop (ks : List Nat) : Nat → Nat → Nat → List Nat → List Nat
  | 0, _, a, r => a :: r
  | n + 1, t, a, r =>
    let x := pass ks t a r
    wrapLoop ks n (t + r.length) (x.getLastD 0) x.dropLast

/-- One pass of unwrapping over the semiblocks from the last to the first; A comes last. -/
def passInv (ks : List Nat) : Nat → Nat → List Nat → List Nat
  | _, a, [] => [a]
  | t, a, r :: rs =>
    forced (decrypt ks ((a ^^^ t) * 2 ^ 64 + r)) fun b => b % 2 ^ 64 :: passInv ks (t - 1) (b / 2 ^ 64) rs

/-- `n` passes of unwrapping. -/
def unwrapLoop (ks : List Nat) : Nat → Nat → Nat → List Nat → List Nat
  | 0, _, a, r => a :: r
  | n + 1, t, a, r =>
    let x := passInv ks t a r.reverse
    unwrapLoop ks n (t - r.length) (x.getLastD 0) x.dropLast.reverse

def wrap (kek plain : Bytes) : Bytes :=
  let ks := Aes.keys kek
  let n := ceilDiv plain.length 8
  let a := 0xA65959A6 * 2 ^ 32 + plain.length % 2 ^ 32
  let r := semis n (fit (8 * n) plain)
  if n ≤ 1 then beBytes 16 (encrypt ks (a * 2 ^ 64 + r.headD 0)) else (wrapLoop ks 6 1 a r).flatMap (beBytes 8)

/-- A and the semiblocks of a wrapped string. -/
def opened (kek blob : Bytes) : List Nat :=
  let ks := Aes.keys kek
  let n := blob.length / 8 - 1
  let x := semis (n + 1) blob
  if n = 1 then let b := decrypt ks (beNat blob); [b / 2 ^ 64, b % 2 ^ 64] else unwrapLoop ks 6 (6 * n) (x.headD 0) x.tail

/-- The plaintext, when the check value, the length and the padding are right. -/
def unwrap (kek blob : Bytes) : Option Bytes :=
  if blob.length < 16 ∨ blob.length % 8 ≠ 0 then none else
  let x := opened kek blob
  let p := x.tail.flatMap (beBytes 8)
  let len := x.headD 0 % 2 ^ 32
  if x.headD 0 / 2 ^ 32 = 0xA65959A6 ∧ len ≤ p.length ∧ p.length < len + 8 ∧ (p.drop len).all (· == 0) then some (p.take len)
  else none

end Kwp

/-- AES key wrap with padding of RFC 5649 under a KEK. -/
@[irreducible] def wrapOf (kek plain : Bytes) : Bytes := fit (8 * ceilDiv plain.length 8 + 8) (Kwp.wrap kek plain)

/-- The plaintext of a wrapped blob; `none` when the integrity check fails. -/
@[irreducible] def unwrapOf (kek blob : Bytes) : Option Bytes := Kwp.unwrap kek blob

end Sys2Proof.Machine
end

