-- ==== Sys2Proof/Config.lean ====
section
/-! DEFINITION. What the spec leaves to the device, to chance or to another standard: constants
without a body, so that no proof can see a value of them.  The assumption log names each. -/

namespace Sys2Proof.Config

/-- The functions of the algorithms whose text is in another standard.  Their arguments are byte strings.  The model
holds every standard that the spec names (Machine/Standards.lean, log entry 53); what a parameter set that a graft adds computes
has no body (log entry 4). -/
inductive StdFn where
  /-- Public half of the pair generated from a seed. -/
  | pubOf
  /-- Private half of the pair generated from a seed. -/
  | privOf
  /-- The public half that belongs to a private half. -/
  | pubOfPriv
  /-- Ciphertext of an encapsulation under a public half with given randomness. -/
  | encapsCt
  /-- Shared secret of an encapsulation under a public half with given randomness. -/
  | encapsSs
  /-- Shared secret of a decapsulation, with implicit rejection (R133, R176). -/
  | decaps
  /-- A signature over a message representative with given randomness. -/
  | sign
  /-- Whether a signature is valid. -/
  | verify
  /-- The DETAIL of the first failed test of a verification. -/
  | verifyDetail
  /-- Number of rejected attempts before the accepted one. -/
  | attempts
  /-- Whether attempt number `a` is accepted (R140, R175). -/
  | attemptOk
  /-- Whether every check of an imported key passes. -/
  | importOk
  /-- Which import check fails first: STATUS × 256 + DETAIL. -/
  | importFail
  /-- Whether a stateful public key's typecodes name the hash function of PSET (R171). -/
  | pkHashOk
  /-- The validation stage's verdict on a peer input (R190 to R192). -/
  | validate
  /-- The shared secret of a Diffie-Hellman derivation. -/
  | dhDerive
  /-- The RSA public operation with its encoding. -/
  | rsaEncrypt
  /-- The plaintext of an RSA decryption, with implicit rejection for v1.5 (R203). -/
  | rsaPlain
  /-- The synthetic plaintext of RSA v1.5 from its key (R203, log entry 13). -/
  | rsaSynth
  /-- Whether the decoding of an RSA decryption succeeds. -/
  | rsaPadOk
  /-- A digital signature of the device (attestation, dump). -/
  | deviceSign
  /-- The public halves of the device attestation keys. -/
  | devicePub
  /-- A signature check made by the boot ROM or the stewards. -/
  | deviceVerify
  /-- Whether the RSA private result, raised to e, gives the input of a signature or a decryption back (R202). -/
  | rsaSignOk
  | rsaPlainOk
  /-- Further random bytes that follow from drawn ones: a nonce, a salt, a padding, a candidate for a prime. -/
  | stretch
  deriving DecidableEq, Repr

/-- Byte `i` of the value of a standard's function that the model does not hold: first argument the function, second the
algorithm and parameter set (ALG × 256 + PSET), then the operands (log entry 4). -/
opaque std : StdFn → Nat → List Bytes → Nat → Byte

/-- The truth value of a standard's predicate (log entry 4). -/
opaque stdOk : StdFn → Nat → List Bytes → Bool

/-- The number a standard's function gives: an attempt count, a failure class (log entry 4). -/
opaque stdNat : StdFn → Nat → List Bytes → Nat

/-- A free byte: what the DRBGs, the noise sources and every undefined value give (log entry 5). -/
opaque freeByte : Nat → Byte

/-- A free truth value (log entry 5). -/
opaque freeBool : Nat → Bool

/-- A free number (log entry 5). -/
opaque freeNat : Nat → Nat

/-- The segment bound, in engine cycles, that the vendor's routine table declares for an opcode, ALG
and PSET (R33, R345): the spec publishes no vendor routine table (log entry 6). -/
opaque segmentBound : Nat → Nat → Nat → Nat

/-- Whether the segments of an opcode, ALG and PSET need the SV unit (log entry 6). -/
opaque needsSv : Nat → Nat → Nat → Bool

/-- Whether the segments of an opcode, ALG and PSET need the LV unit (log entry 6). -/
opaque needsLv : Nat → Nat → Nat → Bool

/-- Length of an object of a parameter set that a graft's CATALOGUE adds, by kind, ALG and PSET: the graft defines it (R178, R354)
(log entry 4). -/
opaque graftLen : Nat → Nat → Nat → Nat

/-- Entry address of the vendor routine for an opcode, ALG and PSET, instruction word `i` of the vendor library, and
byte `a` of the CONST region: none is published (log entry 6). -/
opaque vendorEntry : Nat → Nat → Nat → Nat
opaque vendorWord : Nat → Nat
opaque constByte : Nat → Byte

/-- What LV.BFLY, LV.PERM, the degree-1 products and the samplers of Table 11.7 leave open: an element by the
operands (log entry 15). -/
opaque bflyElem : Nat → Nat → Nat → List Nat → List Nat → Nat → Nat
opaque permElem : Nat → Nat → List Nat → List Nat → Nat → Nat
opaque pairGamma : Nat → Nat → Nat
opaque negSample : Nat → Nat → Nat → Nat
opaque compElem : Nat → Nat → Nat → Nat → Nat

/-- SHA3-256 of the vendor's signing keys held in boot ROM, and the family graft root held in heartwood OTP: neither is
published (log entry 6). -/
opaque vendorRoot : Nat → Byte
opaque graftRoot : Nat → Byte

/-- The on-die fingerprint (R439), and the two public keys of the vendor debug root in boot ROM (R435) (log entry 6). -/
opaque fingerprint : Nat → Byte
opaque debugRoot : Nat → Byte

/-- Nanoword `i` of a sequencer's ROM: TARGET × 4 + MBW (R338); the controls are not published (log entry 6). -/
opaque nanoRom : Nat → Nat

/-- Word at an address of the steward boot ROM (R442) (log entry 6). -/
opaque bootRom : Nat → Nat

/-- Decode ROM of a sequencer (R336) (log entry 6). -/
opaque decodeRom : Nat → Nat

end Sys2Proof.Config
end

