-- ==== Sys2Proof/Machine/McEliece.lean ====
section
/-! DEFINITION. Classic McEliece as its specification gives it (PRESUMED, log entry 53; R172 to R177): the fields, the attempts
of key generation, the public matrix, the Benes network of the support, encapsulation, decoding and decapsulation. -/

namespace Sys2Proof.Machine

namespace McEliece

/-- A parameter set: m, n, t, the polynomial of F_q, and that of F_(q^t) below y^t, each term by exponent and coefficient. -/
structure Par where
  m : Nat
  n : Nat
  t : Nat
  f : Nat
  tail : List (Nat × Nat)
  deriving DecidableEq, Repr, Inhabited

/-- The parameter sets of Table 6.7 by PSET. -/
def par (ps : Nat) : Par :=
  match ps with
  | 1 => ⟨12, 3488, 64, 0x1009, [(3, 1), (1, 1), (0, 2)]⟩
  | 2 => ⟨13, 4608, 96, 0x201B, [(10, 1), (9, 1), (6, 1), (0, 1)]⟩
  | 3 => ⟨13, 6688, 128, 0x201B, [(7, 1), (2, 1), (1, 1), (0, 1)]⟩
  | 4 => ⟨13, 6960, 119, 0x201B, [(8, 1), (0, 1)]⟩
  | _ => ⟨13, 8192, 128, 0x201B, [(7, 1), (2, 1), (1, 1), (0, 1)]⟩

/-- q. -/
def Par.q (p : Par) : Nat := 2 ^ p.m

/-! ### The field of q elements -/

/-- A product, from the `k` highest bits of `b` left. -/
def mulFrom (p : Par) (a b : Nat) : Nat → Nat → Nat
  | 0, acc => acc
  | k + 1, acc =>
    let y := 2 * acc
    mulFrom p a b k ((if y.testBit p.m then y ^^^ p.f else y) ^^^ (if b.testBit k then a else 0))

def mul (p : Par) (a b : Nat) : Nat := mulFrom p a b p.m 0

/-- The inverse, a^(q − 2); 0 of 0. -/
def inv (p : Par) (a : Nat) : Nat :=
  let x := (List.range (p.m - 2)).foldl (fun x _ => mul p (mul p x x) a) a
  mul p x x

def pow (p : Par) (a : Nat) : Nat → Nat
  | 0 => 1
  | k + 1 => mul p a (pow p a k)

/-- A polynomial, lowest coefficient first, at a point. -/
def eval (p : Par) (g : List Nat) (x : Nat) : Nat := g.reverse.foldl (fun acc c => mul p acc x ^^^ c) 0

/-! ### Elimination -/

/-- Column `i` cleared in every row but row `i`: rows of a matrix over F_q, which has a pivot in row `i` or below. -/
def clearField (p : Par) (rows : List (List Nat)) (i : Nat) : Option (List (List Nat)) :=
  (indexWhere (fun r => r.getD i 0 != 0) (rows.drop i)).map fun k =>
    let pivot := rows.getD (i + k) []
    let unit := pivot.map (mul p (inv p (pivot.getD i 0)))
    (rows.set (i + k) (rows.getD i [])).mapIdx fun r row =>
      if r = i then unit else List.zipWith (fun x y => x ^^^ mul p (row.getD i 0) y) row unit

/-- The same over bits: a row is one number, column `i` its bit `i`. -/
def clearBits (rows : List Nat) (i : Nat) : Option (List Nat) :=
  (indexWhere (fun r => r.testBit i) (rows.drop i)).map fun k =>
    let pivot := rows.getD (i + k) 0
    (rows.set (i + k) (rows.getD i 0)).mapIdx fun r row =>
      if r = i then pivot else if row.testBit i then row ^^^ pivot else row

/-- Columns 0 to k − 1 brought to the identity, where that succeeds. -/
def reduce {α : Type} (clear : α → Nat → Option α) (k : Nat) (rows : α) : Option α :=
  (List.range k).foldl (fun r i => r.bind fun r => clear r i) (some rows)

/-! ### The field of q^t elements -/

def timesY (p : Par) (a : List Nat) : List Nat :=
  let top := a.getD (p.t - 1) 0
  (0 :: a.take (p.t - 1)).mapIdx fun i x => ((p.tail.filter (·.1 == i)).map (·.2)).foldl (fun x c => x ^^^ mul p top c) x

def extMul (p : Par) (a b : List Nat) : List Nat :=
  a.reverse.foldl (fun acc x => List.zipWith (· ^^^ ·) (timesY p acc) (b.map (mul p x))) (List.replicate p.t 0)

/-- Powers of an element from the zeroth on, `n` of them. -/
def powers (p : Par) (b : List Nat) : Nat → List Nat → List (List Nat)
  | 0, _ => []
  | n + 1, x => x :: powers p b n (extMul p x b)

/-- Irreducible: the minimal polynomial of an element below its leading term, if its degree is t. -/
def minPoly (p : Par) (b : List Nat) : Option (List Nat) :=
  let one := 1 :: List.replicate (p.t - 1) 0
  let xs := powers p b (p.t + 1) one
  (reduce (clearField p) p.t ((List.range p.t).map fun r => xs.map (·.getD r 0))).map
    fun rows => rows.map (·.getD p.t 0)

/-! ### Goppa codes: g below its leading term, the support -/

/-- Value of g. -/
def gAt (p : Par) (g : List Nat) (x : Nat) : Nat := eval p (g ++ [1]) x

/-- The binary parity-check matrix of a code: row i·m + b holds bit b of α^i / g(α), a column for each α. -/
def checkRows (p : Par) (g alpha : List Nat) : List Nat :=
  let start := alpha.map fun a => inv p (gAt p g a)
  let column (i : Nat) : List Nat := List.zipWith (fun a s => mul p (pow p a i) s) alpha start
  (List.range p.t).flatMap fun i =>
    let c := column i
    (List.range p.m).map fun b => c.foldr (fun x acc => 2 * acc + b2n (x.testBit b)) 0

/-- MatGen: the rows of T, when the matrix reduces to systematic form. -/
def matGen (p : Par) (g alpha : List Nat) : Option (List Nat) :=
  (reduce clearBits (p.m * p.t) (checkRows p g alpha)).map fun rows => rows.map (· >>> (p.m * p.t))

/-- Bytes of the public key. -/
def packRows (p : Par) (rows : List Nat) : Bytes := rows.flatMap (leBytes (ceilDiv (p.n - p.m * p.t) 8))

/-! ### The support's Benes network -/

/-- The low `k` bits of a number in reverse. -/
def reversed (k v : Nat) : Nat := (List.range k).foldl (fun acc i => 2 * acc + v / 2 ^ i % 2) 0

/-- π followed by c inverse: the values of `c` in the order of `pi`. -/
def composeInv (c pi : List Nat) : List Nat :=
  ((List.zip pi c).mergeSort fun a b => decide (a.1 ≤ b.1)).map (·.2)

/-- c[x] after `k` more rounds of halving the cycles of p and q. -/
def cycleMin : Nat → List Nat → List Nat → List Nat → List Nat
  | 0, c, _, _ => c
  | k + 1, c, p, q =>
    let cp := composeInv c q
    cycleMin k (List.zipWith min c cp) (composeInv p q) (composeInv q p)

/-- Interleave two lists. -/
def interleave : List Nat → List Nat → List Nat
  | x :: xs, y :: ys => x :: y :: interleave xs ys
  | xs, _ => xs

/-- Elements at even, or at odd, places. -/
def everySecond (odd : Nat) (l : List Nat) : List Nat :=
  (List.range (l.length / 2)).map fun i => l.getD (2 * i + odd) 0

/-- The control bits of a permutation of 2^k elements. -/
def controlBits : Nat → List Nat → List Nat
  | 0, _ => []
  | k + 1, pi =>
    let n := pi.length
    if k = 0 then [pi.getD 0 0] else
    let p0 := (List.range n).map fun x => pi.getD (x ^^^ 1) 0
    let q0 := pi.map (· ^^^ 1)
    let inverse := composeInv (List.range n) pi
    let p1 := composeInv p0 q0
    let q1 := composeInv q0 p0
    let c0 := List.zipWith min (List.range n) p1
    let c := cycleMin (k - 1) c0 (composeInv p1 q1) (composeInv q1 p1)
    let first := (everySecond 0 c).map (· % 2)
    let f := (List.range n).map fun x => x ^^^ first.getD (x / 2) 0
    let fpi := composeInv f inverse
    let last := (everySecond 0 fpi).map (· % 2)
    let m := composeInv fpi ((List.range n).map fun y => y ^^^ last.getD (y / 2) 0)
    let half (e : Nat) : List Nat := controlBits k ((everySecond e m).map (· / 2))
    first ++ interleave (half 0) (half 1) ++ last

/-- One layer of a network: elements `gap` apart change places where their control bit is set. -/
def layer (gap : Nat) (c pi : List Nat) : List Nat :=
  (List.range pi.length).map fun x =>
    let j := x / (2 * gap) * gap + x % gap
    if c.getD j 0 = 0 then pi.getD x 0
    else pi.getD (if x / gap % 2 = 0 then x + gap else x - gap) 0

/-- The permutation of 2^k elements that control bits describe. -/
def permutation (k : Nat) (c : List Nat) : List Nat :=
  let half := 2 ^ (k - 1)
  (List.range (2 * k - 1)).foldl (fun pi i => layer (2 ^ min i (2 * k - 2 - i)) ((c.drop (i * half)).take half) pi)
    (List.range (2 ^ k))

/-! ### Key generation (R175) -/

/-- PRG: the string of a seed. -/
def prg (p : Par) (seed : Bytes) : Bytes :=
  hashOf 0x0C (64 :: seed) [] [] (p.n / 8 + 4 * p.q + 2 * p.t + 32)

/-- The seed that follows a failed attempt. -/
def nextSeed (p : Par) (seed : Bytes) : Bytes := (prg p seed).drop (p.n / 8 + 4 * p.q + 2 * p.t)

/-- The seed of attempt `a`. -/
def seedAt (p : Par) (seed : Bytes) : Nat → Bytes
  | 0 => seed
  | a + 1 => nextSeed p (seedAt p seed a)

/-- FieldOrdering: the permutation that sorts q numbers, if they differ. -/
def ordering (p : Par) (b : Bytes) : Option (List Nat) :=
  let xs := ((List.range p.q).map fun i => (leAt b (4 * i) 4, i)).mergeSort fun a b => decide (a.1 ≤ b.1)
  if (List.zip xs (xs.drop 1)).any fun x => x.1.1 == x.2.1 then none else some (xs.map (·.2))

/-- A key pair as parts: s, the permutation of the support, g, and the rows of T. -/
structure Pair where
  s : Bytes
  pi : List Nat
  g : List Nat
  rows : List Nat
  deriving DecidableEq, Repr, Inhabited

/-- The support of a permutation: its first n elements, the bits of each in reverse. -/
def support (p : Par) (pi : List Nat) : List Nat := (pi.take p.n).map (reversed p.m)

/-- The pair of a seed, when its attempt succeeds. -/
def pairOf (p : Par) (seed : Bytes) : Option Pair :=
  let e := prg p seed
  (ordering p (e.drop (p.n / 8))).bind fun pi =>
    (minPoly p ((List.range p.t).map fun i => leAt e (p.n / 8 + 4 * p.q + 2 * i) 2 % p.q)).bind fun g =>
      (matGen p g (support p pi)).map fun rows => ⟨e.take (p.n / 8), pi, g, rows⟩

/-- Bits as bytes, the first lowest. -/
def packBits (bs : List Nat) : Bytes := leBytes (ceilDiv bs.length 8) (bs.foldr (fun b acc => 2 * acc + b) 0)

/-- Private key: the seed, the pivots, g, the control bits, s. -/
def secKey (p : Par) (seed : Bytes) (x : Pair) : Bytes :=
  fit 32 seed ++ leBytes 8 (2 ^ 32 - 1) ++ x.g.flatMap (leBytes 2) ++ packBits (controlBits p.m x.pi) ++ x.s

/-! ### Reading a private key -/

/-- Bytes of the control bits, and of a private key. -/
def controlLen (p : Par) : Nat := (2 * p.m - 1) * 2 ^ (p.m - 1) / 8

def skLen (p : Par) : Nat := 40 + 2 * p.t + controlLen p + p.n / 8

/-- g of a private key. -/
def gOf (p : Par) (sk : Bytes) : List Nat := (List.range p.t).map fun i => leAt sk (40 + 2 * i) 2

/-- The support of a private key. -/
def supportOf (p : Par) (sk : Bytes) : List Nat :=
  let c := leNat (sub sk (40 + 2 * p.t) (controlLen p))
  support p (permutation p.m ((List.range (8 * controlLen p)).map fun i => c / 2 ^ i % 2))

/-- Its string s. -/
def sOf (p : Par) (sk : Bytes) : Bytes := sub sk (40 + 2 * p.t + controlLen p) (p.n / 8)

/-- The checks of R177 on a private key and a public key that may come with it: the coefficients of g, which is monic of degree t
by its form, and the elements of α lie in the field; the elements of α differ; the public key follows. -/
def importOk (p : Par) (sk : Bytes) (pk : Option Bytes) : Bool :=
  let g := gOf p sk
  let a := supportOf p sk
  g.all (fun c => decide (c < p.q)) && a.all (fun x => decide (x < p.q)) && decide a.Nodup
    && (match pk with
      | some b => (matGen p g a).map (packRows p) == some b
      | none => true)

/-! ### Encapsulation and decapsulation (R174, R176) -/

/-- FixedWeight on one string of random bytes: the places of the t errors, if it succeeds. -/
def fixedWeight (p : Par) (b : Bytes) : Option (List Nat) :=
  let tau := if p.n = p.q then p.t else 2 * p.t
  let xs := (((List.range tau).map fun i => leAt b (2 * i) 2 % p.q).filter fun x => decide (x < p.n)).take p.t
  if xs.length < p.t ∨ ¬ xs.Nodup then none else some xs

/-- The error vector that the first of 256 strings gives. -/
def errorOf (p : Par) (draw : Nat → Bytes) : Nat :=
  (((List.range 256).findSome? fun i => fixedWeight p (draw i)).getD []).foldl (fun e i => e ||| 2 ^ i) 0

/-- Parity of the bits of a number below 2^k. -/
def parity (k x : Nat) : Nat := (List.range k).foldl (fun acc i => acc ^^^ (x / 2 ^ i % 2)) 0

/-- The ciphertext of an error vector under a public key. -/
def encode (p : Par) (pk : Bytes) (e : Nat) : Bytes :=
  let k := p.n - p.m * p.t
  let len := ceilDiv k 8
  let hi := e >>> (p.m * p.t)
  packBits ((List.range (p.m * p.t)).map fun r => (e / 2 ^ r + parity k (leNat (sub pk (len * r) len) &&& hi)) % 2)

/-- H of a byte, an error vector and a ciphertext. -/
def hashKey (p : Par) (b : Nat) (e : Bytes) (ct : Bytes) : Bytes :=
  hashOf 0x0C (BitVec.ofNat 8 b :: fit (p.n / 8) e ++ ct) [] [] 32

/-- The syndromes of a vector: sums of α^i / g(α)² over its set bits. -/
def syndromes (p : Par) (g alpha : List Nat) (v : Nat) : List Nat :=
  let terms := (alpha.mapIdx fun j a => (j, a)).filter fun x => v.testBit x.1
  let start := terms.map fun x => let w := inv p (gAt p g x.2); (x.2, mul p w w)
  (List.range (2 * p.t)).map fun i => start.foldl (fun acc x => acc ^^^ mul p (pow p x.1 i) x.2) 0

/-- Berlekamp-Massey: the connection polynomial of the syndromes from number `k` on; `c` and `b` the polynomials, `l` the length,
`gap` the shift, `d` the last discrepancy. -/
def massey (p : Par) (s : List Nat) : Nat → Nat → List Nat → List Nat → Nat → Nat → Nat → List Nat
  | 0, _, c, _, _, _, _ => c
  | n + 1, k, c, b, l, gap, d =>
    let e := (List.range (l + 1)).foldl (fun acc i => acc ^^^ mul p (c.getD i 0) (s.getD (k - i) 0)) 0
    if e = 0 then massey p s n (k + 1) c b l (gap + 1) d
    else
      let f := mul p e (inv p d)
      let shifted := List.replicate gap 0 ++ b.map (mul p f)
      let w := max c.length shifted.length
      let c' := (List.range w).map fun i => c.getD i 0 ^^^ shifted.getD i 0
      if 2 * l ≤ k then massey p s n (k + 1) c' c (k + 1 - l) 1 e
      else massey p s n (k + 1) c' b l (gap + 1) d

/-- Decode: the error vector of weight t that a ciphertext stands for, if there is one. -/
def decode (p : Par) (sk ct : Bytes) : Option Nat :=
  let g := gOf p sk
  let alpha := supportOf p sk
  let s := syndromes p g alpha (leNat ct % 2 ^ (p.m * p.t))
  let c := massey p s (2 * p.t) 0 [1] [1] 0 1 1
  let locator := ((List.range (p.t + 1)).map fun i => c.getD i 0).reverse
  let roots := (alpha.mapIdx fun j a => (j, a)).filter fun x => eval p locator x.2 == 0
  let e := roots.foldl (fun e x => e ||| 2 ^ x.1) 0
  if roots.length = p.t ∧ syndromes p g alpha e = s then some e else none

/-- Decapsulation with implicit rejection. -/
def decaps (p : Par) (sk ct : Bytes) : Bytes :=
  match decode p sk ct with
  | some e => hashKey p 1 (leBytes (p.n / 8) e) ct
  | none => hashKey p 0 (sOf p sk) ct

end McEliece

end Sys2Proof.Machine
end

