-- ==== Sys2Proof/Machine/Hqc.lean ====
section
/-! DEFINITION. HQC as the 2025 submission specification gives it (PRESUMED, log entry 53; R178, R179): sampling, products modulo
X^n − 1, the concatenated Reed-Solomon and Reed-Muller code, key generation, encapsulation and decapsulation with implicit
rejection. -/

namespace Sys2Proof.Machine

namespace Hqc

/-- A parameter set: n, the Reed-Solomon length n1 and dimension k, the copies of a Reed-Muller word, and the weights of the
secret and of the noise vectors. -/
structure Par where
  n : Nat
  n1 : Nat
  k : Nat
  copies : Nat
  w : Nat
  wr : Nat
  deriving DecidableEq, Repr, Inhabited

/-- The parameter sets of Table 6.8 by PSET. -/
def par (ps : Nat) : Par :=
  match ps with
  | 1 => ⟨17669, 46, 16, 3, 66, 75⟩
  | 2 => ⟨35851, 56, 24, 5, 100, 114⟩
  | _ => ⟨57637, 90, 32, 5, 131, 149⟩

/-- Bytes of a vector of n bits, and bits of a code word. -/
def Par.bytes (p : Par) : Nat := ceilDiv p.n 8

def Par.word (p : Par) : Nat := 128 * p.copies * p.n1

/-! ### Hashes, and a string that is read in turn -/

def hashG (x : Bytes) : Bytes := hashOf 0x0A (x ++ [0]) [] [] 64

def hashH (x : Bytes) : Bytes := hashOf 0x08 (x ++ [1]) [] [] 32

def hashI (x : Bytes) : Bytes := hashOf 0x0A (x ++ [2]) [] [] 64

def hashJ (x : Bytes) : Bytes := hashOf 0x08 (x ++ [3]) [] [] 32

/-- The first `n` bytes of the string of a seed. -/
def xof (seed : Bytes) (n : Nat) : Bytes := hashOf 0x0C (seed ++ [1]) [] [] n

/-- Bytes that a read of `n` bytes uses up. -/
def step8 (n : Nat) : Nat := 8 * ceilDiv n 8

/-! ### Sampling -/

/-- The places that a string of 3-byte numbers gives: those past a multiple of n, and repeated ones, are left out. -/
def placesOf (p : Par) (b : Bytes) : List Nat :=
  let bound := 2 ^ 24 / p.n * p.n
  ((List.range (b.length / 3)).map fun i => beNat (sub b (3 * i) 3)).foldl
    (fun acc r => if bound ≤ r ∨ acc.contains (r % p.n) then acc else acc ++ [r % p.n]) []

/-- A vector with bits set at the given places. -/
def vector (places : List Nat) : Nat := places.foldl (fun v i => v ||| 2 ^ i) 0

/-- A vector of weight `w` by rejection, from offset `off` of a seed's string, and the offset after it: the string is read in
blocks of `3 * w` bytes, `k` at most. -/
def sampleReject (p : Par) (seed : Bytes) (w : Nat) : Nat → Nat → Bytes → Nat × Nat
  | 0, off, b => (vector ((placesOf p b).take w), off)
  | k + 1, off, b =>
    if w ≤ (placesOf p b).length then (vector ((placesOf p b).take w), off)
    else sampleReject p seed w k (off + step8 (3 * w)) (b ++ (xof seed (off + 3 * w)).drop off)

/-- Places in a row made to differ from the later ones. -/
def settle : Nat → List Nat → List Nat
  | _, [] => []
  | i, x :: rest =>
    let later := settle (i + 1) rest
    (if later.contains x then i else x) :: later

/-- A vector of weight `w` without rejection from 4-byte numbers. -/
def sampleWeight (p : Par) (w : Nat) (b : Bytes) : Nat :=
  vector (settle 0 ((List.range w).map fun i => i + leAt b (4 * i) 4 * (p.n - i) / 2 ^ 32))

/-- The vector h of a seed. -/
def uniform (p : Par) (seed : Bytes) : Nat := leNat (xof seed p.bytes) % 2 ^ p.n

/-! ### Vectors -/

/-- The product modulo X^n − 1. -/
def mul (p : Par) (a b : Nat) : Nat :=
  let x := ((List.range p.n).filter a.testBit).foldl (fun acc i => acc ^^^ (b <<< i)) 0
  (x % 2 ^ p.n) ^^^ (x >>> p.n)

/-! ### The code -/

/-- The field of 256 elements. -/
def gf : McEliece.Par := ⟨8, 0, 0, 0x11D, []⟩

def gmul (a b : Nat) : Nat := McEliece.mul gf a b

/-- α^i. -/
def alpha (i : Nat) : Nat := McEliece.pow gf 2 (i % 255)

/-- A polynomial times x + r, lowest coefficient first. -/
def timesRoot (g : List Nat) (r : Nat) : List Nat := List.zipWith (· ^^^ ·) (0 :: g) (g.map (gmul r) ++ [0])

/-- The generator polynomial of the Reed-Solomon code, of degree n1 − k. -/
def generator (p : Par) : List Nat := (List.range (p.n1 - p.k)).foldl (fun g i => timesRoot g (alpha (i + 1))) [1]

/-- The systematic word of a message: parity below, message above. -/
def rsEncode (p : Par) (m : List Nat) : List Nat :=
  let d := p.n1 - p.k
  let g := (generator p).take d
  let parity := m.reverse.foldl (fun c x =>
    let gate := x ^^^ c.getD (d - 1) 0
    List.zipWith (· ^^^ ·) (0 :: c.take (d - 1)) (g.map (gmul gate))) (List.replicate d 0)
  parity ++ m

/-- The message of a received word. -/
def rsDecode (p : Par) (c : List Nat) : List Nat :=
  let d := p.n1 - p.k
  let s := (List.range d).map fun i => McEliece.eval gf c (alpha (i + 1))
  let sigma := McEliece.massey gf s d 0 [1] [1] 0 1 1
  let omega := (List.range d).map fun i => (List.range (i + 1)).foldl (fun a k => a ^^^ gmul (sigma.getD k 0) (s.getD (i - k) 0)) 0
  let slope := (List.range sigma.length).map fun i => if i % 2 = 0 then sigma.getD (i + 1) 0 else 0
  let fixed := c.mapIdx fun j x =>
    let y := alpha (255 - j)
    if McEliece.eval gf sigma y = 0 then x ^^^ gmul (McEliece.eval gf omega y) (McEliece.inv gf (McEliece.eval gf slope y)) else x
  fixed.drop d

/-- The Reed-Muller word of a byte: bit x is bit 7 plus the sum of the bits i with bit i of x set. -/
def rmWord (m : Nat) : Nat :=
  (List.range 128).foldl (fun v x => v ||| ((m / 128 + McEliece.parity 7 (m % 128 &&& x)) % 2 * 2 ^ x)) 0

/-- The copies of a byte's word. -/
def rmEncode (p : Par) (m : Nat) : Nat := (List.range p.copies).foldl (fun v i => v ||| rmWord m <<< (128 * i)) 0

/-- The byte whose word is nearest: the first place where the transform of the ones is greatest in size, and its sign. -/
def rmDecode (p : Par) (v : Nat) : Nat :=
  let ones := (List.range 128).map fun x => ((List.range p.copies).filter fun i => v.testBit (128 * i + x)).length
  let at_ (a : Nat) : Int :=
    ((ones.mapIdx fun x (c : Nat) => if McEliece.parity 7 (a &&& x) = 0 then Int.ofNat c else -Int.ofNat c) : List Int).foldl (· + ·)
      (if a = 0 then -(64 * p.copies : Int) else 0)
  let best := (List.range 128).foldl (fun (best : Nat × Int) a => if best.2.natAbs < (at_ a).natAbs then (a, at_ a) else best)
    ((0, 0) : Nat × Int)
  best.1 + (if 0 < best.2 then 128 else 0)

def encode (p : Par) (m : Bytes) : Nat :=
  ((rsEncode p (m.map (·.toNat))).mapIdx fun i x => rmEncode p x <<< (128 * p.copies * i)).foldl (· ||| ·) 0

def decode (p : Par) (v : Nat) : Bytes :=
  (rsDecode p ((List.range p.n1).map fun i => rmDecode p (v >>> (128 * p.copies * i) % 2 ^ (128 * p.copies)))).map
    (BitVec.ofNat 8)

/-! ### Encryption -/

/-- The secret vectors y and x of a seed, in this order. -/
def secrets (p : Par) (seedDk : Bytes) : Nat × Nat :=
  let y := sampleReject p seedDk p.w 64 0 []
  (y.1, (sampleReject p seedDk p.w 64 y.2 []).1)

/-- The seed of h and the syndrome of an encapsulation key. -/
def syndromeOf (p : Par) (ek : Bytes) : Nat := leNat (ek.drop 32) % 2 ^ p.n

/-- u and v of a message under the randomness θ. -/
def encrypt (p : Par) (ek m theta : Bytes) : Bytes :=
  let len := 4 * p.wr
  let b := xof theta (3 * step8 len)
  let r2 := sampleWeight p p.wr (b.take len)
  let e := sampleWeight p p.wr (sub b (step8 len) len)
  let r1 := sampleWeight p p.wr (sub b (2 * step8 len) len)
  let u := r1 ^^^ mul p r2 (uniform p (ek.take 32))
  let v := (encode p m ^^^ mul p r2 (syndromeOf p ek) ^^^ e) % 2 ^ p.word
  leBytes p.bytes u ++ leBytes (p.word / 8) v

def decrypt (p : Par) (seedDk ct : Bytes) : Bytes :=
  let y := (secrets p seedDk).1
  let u := leNat (ct.take p.bytes) % 2 ^ p.n
  decode p ((leNat (sub ct p.bytes (p.word / 8)) ^^^ mul p y u) % 2 ^ p.word)

/-! ### The KEM -/

/-- The encapsulation key of the seed of a pair's encryption part. -/
def ekOf (p : Par) (seedPke : Bytes) : Bytes :=
  let b := hashI seedPke
  let (y, x) := secrets p (b.take 32)
  let seedEk := b.drop 32
  seedEk ++ leBytes p.bytes (x ^^^ mul p y (uniform p seedEk))

/-- Encapsulation key of a seed. -/
def encapsKey (ps : Nat) (seed : Bytes) : Bytes := ekOf (par ps) (xof (seed.take 32) 32)

/-- Decapsulation key: the encapsulation key, the seed of y, σ, and the seed of all. -/
def decapsKey (ps : Nat) (seed : Bytes) : Bytes :=
  let p := par ps
  let b := xof (seed.take 32) (32 + p.k)
  ekOf p (b.take 32) ++ (hashI (b.take 32)).take 32 ++ b.drop 32 ++ fit 32 seed

/-- Bits beyond the polynomial length in the last byte of a vector are zero (R179). -/
def paddingOk (ps : Nat) (ek : Bytes) : Bool :=
  let p := par ps
  decide (leNat (ek.drop 32) < 2 ^ p.n)

/-- K and θ of a message and a salt. -/
def derive (ek m salt : Bytes) : Bytes := hashG (hashH ek ++ m ++ salt)

/-- Ciphertext: the drawn bytes are the message and the salt. -/
def encapsCt (ps : Nat) (ek drawn : Bytes) : Bytes :=
  let p := par ps
  let m := drawn.take p.k
  let salt := sub drawn p.k 16
  encrypt p ek m ((derive ek m salt).drop 32) ++ salt

def encapsSs (ps : Nat) (ek drawn : Bytes) : Bytes :=
  let p := par ps
  (derive ek (drawn.take p.k) (sub drawn p.k 16)).take 32

/-- A ciphertext with the padding bits of u at zero (R179). -/
def cleaned (p : Par) (ct : Bytes) : Bytes := leBytes p.bytes (leNat (ct.take p.bytes) % 2 ^ p.n) ++ ct.drop p.bytes

/-- Decapsulation with implicit rejection. -/
def decaps (ps : Nat) (dk ct0 : Bytes) : Bytes :=
  let p := par ps
  let ct := cleaned p ct0
  let ek := dk.take (32 + p.bytes)
  let body := ct.take (p.bytes + p.word / 8)
  let m := decrypt p (sub dk (32 + p.bytes) 32) body
  let kt := derive ek m (ct.drop (p.bytes + p.word / 8))
  if encrypt p ek m (kt.drop 32) = body then kt.take 32
  else hashJ (hashH ek ++ sub dk (64 + p.bytes) p.k ++ ct)

end Hqc

end Sys2Proof.Machine
end

