-- ==== Sys2Proof/Machine/HashTree.lean ====
section
/-! DEFINITION. What the hash-based schemes share (FIPS 205, RFC 8391, RFC 8554): digits of a string, Winternitz chains, and
binary hash trees with their authentication paths (log entry 53). -/

namespace Sys2Proof.Machine

/-- A table's row for a parameter set numbered from 1; 0 where it has none. -/
def row (t : List Nat) (pset : Nat) : Nat := if pset = 0 then 0 else t.getD (pset - 1) 0

/-- n of a stateful PSET (Table 6.2). -/
def statefulN (pset : Nat) : Nat := row [32, 24, 32, 24] pset

namespace HashTree

/-- The first `n` digits of `w` bits of a string, the most significant first. -/
def digits (w n : Nat) (x : Bytes) : List Nat :=
  let v := beNat x
  (List.range n).map fun i => v / 2 ^ (8 * x.length - w * (i + 1)) % 2 ^ w

/-- The Winternitz checksum of digits of `w` bits. -/
def checksum (w : Nat) (ds : List Nat) : Nat := (ds.map fun d => 2 ^ w - 1 - d).sum

/-- `n` steps of a chain from position `i`. -/
def chain (f : Nat → Bytes → Bytes) : Nat → Nat → Bytes → Bytes
  | 0, _, x => x
  | n + 1, i, x => chain f n (i + 1) (f i x)

/-- The node at a height and an index of the tree over `leaf`; `join` takes the height and index of the node it makes. -/
def node (leaf : Nat → Bytes) (join : Nat → Nat → Bytes → Bytes → Bytes) : Nat → Nat → Bytes
  | 0, i => leaf i
  | h + 1, i => join (h + 1) i (node leaf join h (2 * i)) (node leaf join h (2 * i + 1))

/-- The authentication path of leaf `i` of a tree of height `h`, from the leaf's sibling up. -/
def path (leaf : Nat → Bytes) (join : Nat → Nat → Bytes → Bytes → Bytes) (h i : Nat) : List Bytes :=
  (List.range h).map fun j => node leaf join j (i / 2 ^ j ^^^ 1)

/-- The node that a path leads to from node `x` at height `k` and index `i`. -/
def climb (join : Nat → Nat → Bytes → Bytes → Bytes) : Nat → Nat → Bytes → List Bytes → Bytes
  | _, _, x, [] => x
  | k, i, x, a :: rest =>
    climb join (k + 1) (i / 2) (if i % 2 = 0 then join (k + 1) (i / 2) x a else join (k + 1) (i / 2) a x) rest

/-- `k` pieces of `n` bytes. -/
def pieces (n k : Nat) (b : Bytes) : List Bytes := (List.range k).map fun i => sub b (n * i) n

end HashTree

end Sys2Proof.Machine
end

