-- ==== Sys2Proof/Machine/Lms.lean ====
section
/-! DEFINITION. LMS and HSS as RFC 8554 and SP 800-208 give them (PRESUMED, log entry 53; R161 to R171): typecodes, one-time keys,
trees, hierarchical keys, signing at an index, parsing and verification. -/

namespace Sys2Proof.Machine

namespace Lms

/-! ### Typecodes -/

/-- Typecode of an LMS tree of height `h` over the hash function of PSET. -/
def treeType (ps h : Nat) : Nat := 5 * ps + (h / 5 - 1)

/-- Typecode of LM-OTS with w = 4. -/
def otsType4 (ps : Nat) : Nat := 4 * (ps - 1) + 3

/-- Does a pair of typecodes name the hash function of PSET, both as SP 800-208 assigns them? -/
def typesOk (ps t o : Nat) : Bool := t / 5 == ps && (o + 3) / 4 == ps && decide (1 ≤ ps) && decide (ps ≤ 4)

/-- Height of a tree, and w of its one-time keys, by typecode. -/
def height (t : Nat) : Nat := 5 * (t % 5 + 1)

def width (o : Nat) : Nat := 2 ^ ((o - 1) % 4)

/-- Digits of a message digest and of its checksum, and the shift of the checksum, for `n` and w (RFC 8554, appendix B). -/
def digitCounts (n w : Nat) : Nat × Nat :=
  let u := 8 * n / w
  (u, ceilDiv (Nat.log2 ((2 ^ w - 1) * u) + 1) w)

/-- p, the number of chains. -/
def chains (n w : Nat) : Nat := (digitCounts n w).1 + (digitCounts n w).2

/-! ### Hashing -/

/-- The hash function of PSET. -/
def hash (ps : Nat) (x : Bytes) : Bytes :=
  let n := statefulN ps
  (if ps ≤ 2 then hashOf 0x01 x [] [] 32 else hashOf 0x0C x [] [] n).take n

/-! ### One-time keys: the tree's identifier I, the leaf q -/

/-- A key of one tree: its identifier and its seed. -/
structure Key where
  id : Bytes
  seed : Bytes
  deriving DecidableEq, Repr, Inhabited

/-- Value `i` that follows from the seed of a tree at a leaf (RFC 8554, appendix A). -/
def derived (ps : Nat) (k : Key) (q i : Nat) : Bytes :=
  hash ps (k.id ++ beBytes 4 q ++ beBytes 2 i ++ [0xFF] ++ k.seed)

/-- Chain `i` from position `start`, `n` steps on. -/
def otsChain (ps : Nat) (id : Bytes) (q i start n : Nat) (x : Bytes) : Bytes :=
  HashTree.chain (fun j y => hash ps (id ++ beBytes 4 q ++ beBytes 2 i ++ beBytes 1 j ++ y)) n start x

def otsPublic (ps : Nat) (id : Bytes) (q : Nat) (ys : List Bytes) : Bytes :=
  hash ps (id ++ beBytes 4 q ++ [0x80, 0x80] ++ ys.flatten)

/-- The digits that a one-time key with w signs. -/
def otsDigits (ps : Nat) (id : Bytes) (q w : Nat) (c msg : Bytes) : List Nat :=
  let (u, v) := digitCounts (statefulN ps) w
  let ds := HashTree.digits w u (hash ps (id ++ beBytes 4 q ++ [0x81, 0x81] ++ c ++ msg))
  ds ++ HashTree.digits w v (beBytes 2 (HashTree.checksum w ds * 2 ^ (16 - v * w)))

/-! ### Trees -/

/-- A node over two others: `h` is the height of the tree, `z` and `i` the height and index of the node. -/
def join (ps : Nat) (id : Bytes) (h z i : Nat) (l r : Bytes) : Bytes :=
  hash ps (id ++ beBytes 4 (2 ^ (h - z) + i) ++ [0x83, 0x83] ++ l ++ r)

def leafOf (ps : Nat) (id : Bytes) (h q : Nat) (k : Bytes) : Bytes :=
  hash ps (id ++ beBytes 4 (2 ^ h + q) ++ [0x82, 0x82] ++ k)

/-- Leaf `q` of a key of ours, whose one-time keys have w = 4. -/
def leaf (ps : Nat) (k : Key) (h q : Nat) : Bytes :=
  leafOf ps k.id h q (otsPublic ps k.id q ((List.range (chains (statefulN ps) 4)).map fun i =>
    otsChain ps k.id q i 0 15 (derived ps k q i)))

/-- The authentication path of leaf `q`. -/
def path (ps : Nat) (k : Key) (h q : Nat) : Bytes := (HashTree.path (leaf ps k h) (join ps k.id h) h q).flatten

/-- Public key of a tree. -/
def pub (ps : Nat) (k : Key) (h : Nat) : Bytes :=
  beBytes 4 (treeType ps h) ++ beBytes 4 (otsType4 ps) ++ k.id ++ HashTree.node (leaf ps k h) (join ps k.id h) h 0

/-- Signature of one tree at leaf `q` with the given path. -/
def signWith (ps : Nat) (k : Key) (h q : Nat) (path msg : Bytes) : Bytes :=
  let c := derived ps k q 0xFFFD
  beBytes 4 q ++ beBytes 4 (otsType4 ps) ++ c
    ++ ((otsDigits ps k.id q 4 c msg).mapIdx fun i d => otsChain ps k.id q i 0 d (derived ps k q i)).flatten
    ++ beBytes 4 (treeType ps h) ++ path

/-! ### Hierarchies -/

/-- The tree below leaf `q` of a tree: its identifier and seed follow from the parent's (log entry 53). -/
def child (ps : Nat) (k : Key) (q : Nat) : Key := ⟨(derived ps k q 0xFFFF).take 16, derived ps k q 0xFFFE⟩

/-- The key of the private material: I and SEED of the top tree. -/
def topKey (ps : Nat) (sk : Bytes) : Key := ⟨sk.take 16, sub sk 16 (statefulN ps)⟩

/-- HSS public key. -/
def pubOf (ps : Nat) (sk : Bytes) (heights : List Nat) : Bytes :=
  beBytes 4 heights.length ++ pub ps (topKey ps sk) (heights.headD 5)

/-- The keys of the trees that index `q` runs through, top first. -/
def keysAt (ps : Nat) : Key → List Nat → Nat → List Key
  | _, [], _ => []
  | k, _ :: hs, q => k :: keysAt ps (child ps k (q / 2 ^ hs.sum)) hs (q % 2 ^ hs.sum)

/-- The leaf of each level that index `q` runs through, top first. -/
def leavesAt : List Nat → Nat → List Nat
  | [], _ => []
  | _ :: hs, q => q / 2 ^ hs.sum :: leavesAt hs (q % 2 ^ hs.sum)

/-- The paths of the leaves that an index runs through (R170). -/
def pathsAt (ps : Nat) (sk : Bytes) (heights : List Nat) (q : Nat) : List Bytes :=
  (List.zip heights (List.zip (keysAt ps (topKey ps sk) heights q) (leavesAt heights q))).map fun x =>
    path ps x.2.1 x.1 x.2.2

/-- The signatures of the levels from a tree down. -/
def signLevels (ps : Nat) : Key → List Nat → List Bytes → Nat → Bytes → Bytes
  | _, [], _, _, _ => []
  | k, [h], paths, q, msg => signWith ps k h q (paths.headD []) msg
  | k, h :: h2 :: hs, paths, q, msg =>
    let below := (h2 :: hs).sum
    let c := child ps k (q / 2 ^ below)
    let p := pub ps c h2
    signWith ps k h (q / 2 ^ below) (paths.headD []) p ++ p ++ signLevels ps c (h2 :: hs) (paths.drop 1) (q % 2 ^ below) msg

/-- HSS signature at index `q`. -/
def sign (ps : Nat) (sk : Bytes) (heights : List Nat) (q : Nat) (msg : Bytes) : Bytes :=
  beBytes 4 (heights.length - 1) ++ signLevels ps (topKey ps sk) heights (pathsAt ps sk heights q) q msg

/-! ### Parsing and verification -/

/-- One level of a parsed signature: the public key it verifies under, its parts, and what it signs when that is the public
key of the level below. -/
structure Level where
  pk : Bytes
  q : Nat
  c : Bytes
  y : Bytes
  path : List Bytes
  signed : Option Bytes
  deriving DecidableEq, Repr, Inhabited

/-- Typecodes of an LMS public key. -/
def treeOf (pk : Bytes) : Nat := beNat (pk.take 4)

def otsOf (pk : Bytes) : Nat := beNat (sub pk 4 4)

/-- Bytes of a tree's signature under a public key. -/
def sigLen (ps : Nat) (pk : Bytes) : Nat :=
  let n := statefulN ps
  12 + n * (chains n (width (otsOf pk)) + 1 + height (treeOf pk))

/-- The level that a public key opens, and what is left of the signature. -/
def parseLevel (ps : Nat) (pk sig : Bytes) (last : Bool) : Option (Level × Bytes) :=
  let n := statefulN ps
  let h := height (treeOf pk)
  let p := chains n (width (otsOf pk))
  let q := beNat (sig.take 4)
  if !typesOk ps (treeOf pk) (otsOf pk) || decide (sig.length < sigLen ps pk) || beNat (sub sig 4 4) != otsOf pk
      || beNat (sub sig (8 + n + n * p) 4) != treeOf pk || decide (2 ^ h ≤ q) then none
  else
    let rest := sig.drop (sigLen ps pk)
    let next := rest.take (24 + n)
    some ({ pk := pk, q := q, c := sub sig 8 n, y := sub sig (8 + n) (n * p),
            path := HashTree.pieces n h (sig.drop (12 + n + n * p)), signed := if last then none else some next },
          if last then rest else rest.drop (24 + n))

/-- The levels of a signature below a public key, `left` more after this one; `none` where it does not parse. -/
def parseLevels (ps : Nat) : Nat → Bytes → Bytes → Option (List Level)
  | 0, pk, sig => match parseLevel ps pk sig true with
    | some (l, []) => some [l]
    | _ => none
  | k + 1, pk, sig => match parseLevel ps pk sig false with
    | some (l, rest) => (parseLevels ps k (l.signed.getD []) rest).map (l :: ·)
    | none => none

/-- An HSS signature under a public key (R171). -/
def parse (ps : Nat) (pk sig : Bytes) : Option (List Level) :=
  let levels := beNat (pk.take 4)
  if levels = 0 ∨ 8 < levels ∨ beNat (sig.take 4) + 1 ≠ levels then none
  else parseLevels ps (levels - 1) (pk.drop 4) (sig.drop 4)

/-- Does the root that a level leads to equal that of its public key? -/
def Level.holds (ps : Nat) (l : Level) (msg : Bytes) : Bool :=
  let n := statefulN ps
  let h := height (treeOf l.pk)
  let w := width (otsOf l.pk)
  let id := sub l.pk 8 16
  let ys := (otsDigits ps id l.q w l.c (l.signed.getD msg)).mapIdx fun i d =>
    otsChain ps id l.q i d (2 ^ w - 1 - d) (sub l.y (n * i) n)
  HashTree.climb (join ps id h) 0 l.q (leafOf ps id h l.q (otsPublic ps id l.q ys)) l.path == sub l.pk 24 n

/-- 0 when a signature is valid, 1 when a computed root differs, 2 when it does not parse (R171). -/
def verify (ps : Nat) (pk sig msg : Bytes) : Nat :=
  match parse ps pk sig with
  | none => 2
  | some ls => if ls.all (·.holds ps msg) then 0 else 1

/-- w of each level of a signature, as far as it parses. -/
def widths (ps : Nat) : Nat → Bytes → Bytes → List Nat
  | 0, pk, _ => [width (otsOf pk)]
  | k + 1, pk, sig => width (otsOf pk) :: (match parseLevel ps pk sig false with
    | some (l, rest) => widths ps k (l.signed.getD []) rest
    | none => [])

end Lms

end Sys2Proof.Machine
end

