-- ==== Sys2Proof/Machine/MlKem.lean ====
section
/-! DEFINITION. ML-KEM as FIPS 203 gives it (PRESUMED, log entry 53): the number-theoretic transform, sampling, the encodings,
key generation, encapsulation and decapsulation with implicit rejection (R128 to R134). -/

namespace Sys2Proof.Machine

/-- Numbers of a list worked out one after the other before `f` sees them: a rule of evaluation, no more. -/
def forcedList {α : Type} : List Nat → (List Nat → α) → α
  | [], f => f []
  | x :: xs, f => forced x fun x => forcedList xs fun xs => f (x :: xs)

/-- The low `n` bits of `v`, the lowest first, as the number that has them in reverse. -/
def bitRev : Nat → Nat → Nat
  | 0, _ => 0
  | n + 1, v => v % 2 * 2 ^ n + bitRev n (v / 2)

/-- Fields of `d` bits packed with the first lowest, and `n` of them taken apart. -/
def packFields (d : Nat) : List Nat → Nat
  | [] => 0
  | x :: xs => x + packFields d xs <<< d

def fieldsOf (d : Nat) : Nat → Nat → List Nat
  | 0, _ => []
  | n + 1, v => v % 2 ^ d :: fieldsOf d n (v >>> d)

/-! ### Polynomials of 256 coefficients and their transform -/

/-- A polynomial: 256 coefficients below q. -/
abbrev Poly := List Nat

/-- What the transforms of FIPS 203 and FIPS 204 differ in: the modulus, the root of unity, the bits of an index, the
coefficients of a leaf and the last factor of the inverse. -/
structure Ring where
  q : Nat
  root : Nat
  bits : Nat
  leaf : Nat
  inv : Nat

namespace Ring

def add (r : Ring) (a b : Poly) : Poly := List.zipWith (fun x y => (x + y) % r.q) a b

def subt (r : Ring) (a b : Poly) : Poly := List.zipWith (fun x y => (x + r.q - y) % r.q) a b

/-- Every coefficient times a number. -/
def scale (r : Ring) (k : Nat) (a : Poly) : Poly := a.map fun x => x * k % r.q

/-- The root to the power of the reversed index. -/
def zeta (r : Ring) (i : Nat) : Nat := r.root ^ bitRev r.bits i % r.q

/-- The transform below node `i` of the tree of layers; `d` layers are left. -/
def nttNode (r : Ring) : Nat → Nat → Poly → Poly
  | 0, _, f => f
  | d + 1, i, f =>
    let h := 2 ^ d * r.leaf
    forced (r.zeta i) fun z => forcedList (f.take h) fun a => forcedList (r.scale z (f.drop h)) fun b =>
      r.nttNode d (2 * i) (r.add a b) ++ r.nttNode d (2 * i + 1) (r.subt a b)

def ntt (r : Ring) (f : Poly) : Poly := r.nttNode r.bits 1 f

/-- The inverse below node `i` of layer `l`, without the last factor. -/
def inttNode (r : Ring) : Nat → Nat → Nat → Poly → Poly
  | 0, _, _, f => f
  | d + 1, l, i, f =>
    let h := 2 ^ d * r.leaf
    forcedList (r.inttNode d (l + 1) (2 * i) (f.take h)) fun a =>
    forcedList (r.inttNode d (l + 1) (2 * i + 1) (f.drop h)) fun b =>
    forced (r.zeta (3 * 2 ^ l - 1 - i)) fun z => r.add a b ++ r.scale z (r.subt b a)

def intt (r : Ring) (f : Poly) : Poly := r.scale r.inv (r.inttNode r.bits 0 1 f)

end Ring

namespace MlKem

def q : Nat := 3329

def ring : Ring := ⟨q, 17, 7, 2, 3303⟩

def add (a b : Poly) : Poly := ring.add a b

def ntt (f : Poly) : Poly := ring.ntt f

def intt (f : Poly) : Poly := ring.intt f

/-- Products of pairs modulo X² − γ; `i` counts the pairs. -/
def mulPairs : Nat → Poly → Poly → Poly
  | i, a0 :: a1 :: as, b0 :: b1 :: bs =>
    let g := 17 ^ (2 * bitRev 7 i + 1) % q
    (a0 * b0 + a1 * b1 % q * g) % q :: (a0 * b1 + a1 * b0) % q :: mulPairs (i + 1) as bs
  | _, _, _ => []

def mul (a b : Poly) : Poly := mulPairs 0 a b

/-- Sum of products of two vectors. -/
def dot : List Poly → List Poly → Poly
  | a :: as, b :: bs => forcedList (mul a b) fun p => forcedList (add p (dot as bs)) id
  | _, _ => List.replicate 256 0

/-! ### Sampling -/

/-- `n` coefficients below q from three bytes at a time. -/
def reject : Nat → Bytes → Poly
  | n + 1, b0 :: b1 :: b2 :: bs =>
    let d1 := b0.toNat + 256 * (b1.toNat % 16)
    let d2 := b1.toNat / 16 + 16 * b2.toNat
    if d1 < q then (if d2 < q ∧ 0 < n then d1 :: d2 :: reject (n - 1) bs else d1 :: reject n bs)
    else if d2 < q then d2 :: reject n bs else reject (n + 1) bs
  | _, _ => []

/-- A uniform polynomial of the matrix from its seed over SHAKE128. -/
def sampleNtt (seed : Bytes) : Poly := reject 256 (Keccak.sponge 168 0x1F seed 840)

/-- Ones among the low `n` bits. -/
def ones : Nat → Nat → Nat
  | 0, _ => 0
  | n + 1, v => v % 2 + ones n (v / 2)

/-- Centred binomial coefficients; `n` of them. -/
def cbd (eta : Nat) : Nat → Nat → Poly
  | 0, _ => []
  | n + 1, v => (ones eta v + q - ones eta (v >>> eta)) % q :: cbd eta n (v >>> (2 * eta))

/-- A noise polynomial: PRF of a seed and a counter. -/
def noise (eta : Nat) (seed : Bytes) (n : Nat) : Poly :=
  forced (leNat (Keccak.sponge 136 0x1F (seed ++ [BitVec.ofNat 8 n]) (64 * eta))) fun v => cbd eta 256 v

/-! ### Encodings -/

def encode (d : Nat) (f : Poly) : Bytes := leBytes (32 * d) (packFields d f)

def decode (d : Nat) (b : Bytes) : Poly := (fieldsOf d 256 (leNat b)).map fun x => if d = 12 then x % q else x

def compress (d : Nat) (f : Poly) : Poly := f.map fun x => (2 ^ (d + 1) * x + q) / (2 * q) % 2 ^ d

def decompress (d : Nat) (f : Poly) : Poly := f.map fun y => (2 * q * y + 2 ^ d) / 2 ^ (d + 1)

/-- `n` pieces of `len` bytes. -/
def piecesOf (len : Nat) : Nat → Bytes → List Bytes
  | 0, _ => []
  | n + 1, b => b.take len :: piecesOf len n (b.drop len)

/-! ### The parameter sets (FIPS 203, Table 2), by PSET -/

/-- k, eta 1, du and dv of ML-KEM-512, -768 and -1024. -/
def rank (ps : Nat) : Nat := ps + 1

def eta1 (ps : Nat) : Nat := if ps = 1 then 3 else 2

def du (ps : Nat) : Nat := if ps = 3 then 11 else 10

def dv (ps : Nat) : Nat := if ps = 3 then 5 else 4

/-! ### K-PKE -/

/-- Entry (i, j) of the matrix. -/
def entry (rho : Bytes) (i j : Nat) : Poly := sampleNtt (rho ++ [BitVec.ofNat 8 j, BitVec.ofNat 8 i])

/-- Public and private halves from the 32-byte seed d. -/
def pkeKeygen (ps : Nat) (d : Bytes) : Bytes × Bytes :=
  let k := rank ps
  let g := Keccak.sponge 72 0x06 (d ++ [BitVec.ofNat 8 k]) 64
  let rho := g.take 32
  let s := (List.range k).map fun i => ntt (noise (eta1 ps) (g.drop 32) i)
  let e := (List.range k).map fun i => ntt (noise (eta1 ps) (g.drop 32) (k + i))
  let t := (List.range k).map fun i => add (dot ((List.range k).map (entry rho i)) s) (e.getD i [])
  (t.flatMap (encode 12) ++ rho, s.flatMap (encode 12))

/-- Encrypt a 32-byte message under a public half with 32 bytes of randomness. -/
def pkeEncrypt (ps : Nat) (ek m r : Bytes) : Bytes :=
  let k := rank ps
  let t := (piecesOf 384 k ek).map (decode 12)
  let rho := ek.drop (384 * k)
  let y := (List.range k).map fun i => ntt (noise (eta1 ps) r i)
  let u := (List.range k).map fun i =>
    add (intt (dot ((List.range k).map fun j => entry rho j i) y)) (noise 2 r (k + i))
  let v := add (add (intt (dot t y)) (noise 2 r (2 * k))) (decompress 1 (decode 1 m))
  u.flatMap (fun f => encode (du ps) (compress (du ps) f)) ++ encode (dv ps) (compress (dv ps) v)

/-- Decrypt a ciphertext. -/
def pkeDecrypt (ps : Nat) (dk c : Bytes) : Bytes :=
  let k := rank ps
  let u := (piecesOf (32 * du ps) k c).map fun b => ntt (decompress (du ps) (decode (du ps) b))
  let v := decompress (dv ps) (decode (dv ps) (c.drop (32 * du ps * k)))
  let s := (piecesOf 384 k dk).map (decode 12)
  encode 1 (compress 1 (ring.subt v (intt (dot s u))))

/-! ### ML-KEM -/

def hashH (b : Bytes) : Bytes := Keccak.sponge 136 0x06 b 32

/-- The encapsulation key and the decapsulation key of a seed d ‖ z. -/
def encapsKey (ps : Nat) (seed : Bytes) : Bytes := (pkeKeygen ps (seed.take 32)).1

def decapsKey (ps : Nat) (seed : Bytes) : Bytes :=
  let x := pkeKeygen ps (seed.take 32)
  x.2 ++ x.1 ++ hashH x.1 ++ sub seed 32 32

/-- Shared secret and randomness of an encapsulation. -/
def secretAndCoins (ek m : Bytes) : Bytes := Keccak.sponge 72 0x06 (m ++ hashH ek) 64

def encapsCt (ps : Nat) (ek m : Bytes) : Bytes := pkeEncrypt ps ek m ((secretAndCoins ek m).drop 32)

def encapsSs (ek m : Bytes) : Bytes := (secretAndCoins ek m).take 32

/-- The embedded encapsulation key, its stored hash and z. -/
def embedded (ps : Nat) (dk : Bytes) : Bytes := sub dk (384 * rank ps) (384 * rank ps + 32)

def storedHash (ps : Nat) (dk : Bytes) : Bytes := sub dk (768 * rank ps + 32) 32

/-- Decapsulation with implicit rejection. -/
def decaps (ps : Nat) (dk c : Bytes) : Bytes :=
  let m := pkeDecrypt ps (dk.take (384 * rank ps)) c
  let g := Keccak.sponge 72 0x06 (m ++ storedHash ps dk) 64
  if pkeEncrypt ps (embedded ps dk) m (g.drop 32) = c then g.take 32
  else Keccak.sponge 136 0x1F (dk.drop (768 * rank ps + 64) ++ c) 32

/-- The modulus check of an encapsulation key (R131). -/
def modulusOk (ps : Nat) (ek : Bytes) : Bool :=
  (piecesOf 384 (rank ps) ek).all fun b => (fieldsOf 12 256 (leNat b)).all fun x => decide (x < q)

end MlKem

end Sys2Proof.Machine
end

