-- ==== Sys2Proof/Machine/MlDsa.lean ====
section
/-! DEFINITION. ML-DSA as FIPS 204 gives it (PRESUMED, log entry 53): key generation, signing of a message representative
attempt by attempt, and verification with the first test that fails (R134 to R144). -/

namespace Sys2Proof.Machine

namespace MlDsa

def q : Nat := 8380417

def ring : Ring := ⟨q, 1753, 8, 1, 8347681⟩

/-! ### The parameter sets (FIPS 204, Table 1), by PSET: ML-DSA-44, -65, -87 -/

structure Par where
  k : Nat
  l : Nat
  eta : Nat
  tau : Nat
  gamma1 : Nat
  gamma2 : Nat
  omega : Nat
  cLen : Nat
  deriving DecidableEq, Repr

def par (ps : Nat) : Par :=
  if ps = 1 then ⟨4, 4, 2, 39, 2 ^ 17, 95232, 80, 32⟩
  else if ps = 2 then ⟨6, 5, 4, 49, 2 ^ 19, 261888, 55, 48⟩
  else ⟨8, 7, 2, 60, 2 ^ 19, 261888, 75, 64⟩

def Par.beta (p : Par) : Nat := p.tau * p.eta

/-- Bits of a coefficient of s1 and s2, of z, and of w1. -/
def Par.etaBits (p : Par) : Nat := if p.eta = 2 then 3 else 4

def Par.zBits (p : Par) : Nat := if p.gamma1 = 2 ^ 17 then 18 else 20

def Par.w1Bits (p : Par) : Nat := if p.gamma2 = 95232 then 6 else 4

/-! ### Fields -/

/-- SHAKE256. -/
def h (b : Bytes) (n : Nat) : Bytes := Keccak.sponge 136 0x1F b n

/-- Coefficients as fields of `d` bits, and back. -/
def pack (d : Nat) (f : Poly) : Bytes := leBytes (32 * d) (packFields d f)

def unpack (d : Nat) (b : Bytes) : List Nat := fieldsOf d 256 (leNat b)

/-- Coefficients from −a to b, packed as their distance from b. -/
def packFrom (d b : Nat) (f : Poly) : Bytes := pack d (f.map fun x => (b + q - x) % q)

def unpackFrom (d b : Nat) (s : Bytes) : Poly := (unpack d s).map fun x => (b + q - x) % q

/-- Distance of a coefficient from zero. -/
def size (x : Nat) : Nat := min x (q - x)

/-- Is every coefficient of a vector smaller than a bound? -/
def below (bound : Nat) (v : List Poly) : Bool := v.all fun f => f.all fun x => decide (size x < bound)

/-! ### Sampling -/

/-- `n` coefficients below q from three bytes at a time. -/
def rejectNtt : Nat → Bytes → Poly
  | n + 1, b0 :: b1 :: b2 :: bs =>
    let z := b0.toNat + 256 * b1.toNat + 65536 * (b2.toNat % 128)
    if z < q then z :: rejectNtt n bs else rejectNtt (n + 1) bs
  | _, _ => []

/-- Entry (r, s) of the matrix, in the transform's domain. -/
def entry (rho : Bytes) (r s : Nat) : Poly :=
  rejectNtt 256 (Keccak.sponge 168 0x1F (rho ++ [BitVec.ofNat 8 s, BitVec.ofNat 8 r]) 840)

/-- A half byte as a coefficient from −eta to eta. -/
def halfByte (eta b : Nat) : Option Nat :=
  if eta = 2 then (if b < 15 then some ((2 + q - b % 5) % q) else none)
  else if b < 9 then some ((4 + q - b) % q) else none

/-- `n` small coefficients from half bytes. -/
def rejectSmall (eta : Nat) : Nat → Bytes → Poly
  | n + 1, b :: bs =>
    match halfByte eta (b.toNat % 16), halfByte eta (b.toNat / 16) with
    | some x, some y => if n = 0 then [x] else x :: y :: rejectSmall eta (n - 1) bs
    | some x, none => x :: rejectSmall eta n bs
    | none, some y => y :: rejectSmall eta n bs
    | none, none => rejectSmall eta (n + 1) bs
  | _, _ => []

/-- A secret polynomial from its seed and number. -/
def small (eta : Nat) (seed : Bytes) (r : Nat) : Poly := rejectSmall eta 256 (h (seed ++ leBytes 2 r) 408)

/-- A masking polynomial. -/
def mask (p : Par) (seed : Bytes) (n : Nat) : Poly := unpackFrom p.zBits p.gamma1 (h (seed ++ leBytes 2 n) (32 * p.zBits))

/-- The positions and signs of the challenge: `signs` are left for positions `i` on. -/
def ballLoop : Nat → Nat → Nat → Bytes → Poly → Poly
  | n + 1, i, signs, b :: bs, c =>
    if i < b.toNat then ballLoop (n + 1) i signs bs c
    else ballLoop n (i + 1) (signs / 2) bs ((c.set i (c.getD b.toNat 0)).set b.toNat (if signs % 2 = 1 then q - 1 else 1))
  | _, _, _, _, c => c

/-- The challenge polynomial of a commitment hash. -/
def ball (p : Par) (c : Bytes) : Poly :=
  let s := h c 272
  ballLoop p.tau (256 - p.tau) (leNat (s.take 8)) (s.drop 8) (List.replicate 256 0)

/-! ### Rounding and hints -/

/-- High part, low part below zero or not: r = r1 · 2γ2 + r0, the low part modulo q. -/
def decompose (g r : Nat) : Nat × Nat :=
  let m := r % (2 * g)
  -- a low part above γ2 is negative
  let hi := if g < m then r - m + 2 * g else r - m
  let lo := if g < m then q + m - 2 * g else m
  if hi = q - 1 then (0, (lo + q - 1) % q) else (hi / (2 * g), lo % q)

def high (g : Nat) (f : Poly) : Poly := f.map fun r => (decompose g r).1

def low (g : Nat) (f : Poly) : Poly := f.map fun r => (decompose g r).2

/-- The high part that a hint corrects. -/
def useHint (g hint r : Nat) : Nat :=
  let m := (q - 1) / (2 * g)
  let x := decompose g r
  if hint = 0 then x.1 else if 0 < x.2 ∧ x.2 ≤ g then (x.1 + 1) % m else (x.1 + m - 1) % m

/-- Positions of the ones of a hint polynomial from position `i` on. -/
def positions : Nat → List Nat → List Nat
  | _, [] => []
  | i, x :: xs => if x = 0 then positions (i + 1) xs else i :: positions (i + 1) xs

/-- The packed hint: the positions, zeros, and the running counts. -/
def packHint (p : Par) (hs : List (List Nat)) : Bytes :=
  let ps := hs.map (positions 0)
  let counts := (List.range p.k).map fun i => ((ps.take (i + 1)).map List.length).sum
  fit p.omega ((ps.flatMap id).map (BitVec.ofNat 8)) ++ counts.map (BitVec.ofNat 8)

/-- Are the numbers strictly rising? -/
def rising : List Nat → Bool
  | x :: y :: r => decide (x < y) && rising (y :: r)
  | _ => true

/-- The hint polynomials of a packed hint; `none` when it does not decode. -/
def unpackHint (p : Par) (b : Bytes) : Option (List (List Nat)) :=
  let idx := (b.take p.omega).map (·.toNat)
  let ends := (b.drop p.omega).map (·.toNat)
  let starts := 0 :: ends
  let ok := (List.range p.k).all fun i =>
    decide (starts.getD i 0 ≤ ends.getD i 0) && decide (ends.getD i 0 ≤ p.omega)
      && rising ((idx.drop (starts.getD i 0)).take (ends.getD i 0 - starts.getD i 0))
  if ok && (idx.drop (ends.getD (p.k - 1) 0)).all (· == 0) then
    some ((List.range p.k).map fun i =>
      let at_ := (idx.drop (starts.getD i 0)).take (ends.getD i 0 - starts.getD i 0)
      (List.range 256).map fun x => if at_.contains x then 1 else 0)
  else none

/-! ### Vectors -/

/-- Sum of products in the transform's domain. -/
def dot : List Poly → List Poly → Poly
  | a :: as, b :: bs => forcedList (List.zipWith (fun x y => x * y % q) a b) fun p => forcedList (ring.add p (dot as bs)) id
  | _, _ => List.replicate 256 0

/-- A vector's product with the matrix, taken back from the transform's domain. -/
def timesMatrix (p : Par) (rho : Bytes) (v : List Poly) : List Poly :=
  (List.range p.k).map fun i => ring.intt (dot ((List.range p.l).map (entry rho i)) v)

/-- Each polynomial of a vector times one polynomial, both in the transform's domain; the product outside it. -/
def timesOne (c : Poly) (v : List Poly) : List Poly :=
  v.map fun f => ring.intt (List.zipWith (fun x y => x * y % q) c f)

def addV (a b : List Poly) : List Poly := List.zipWith ring.add a b

def subV (a b : List Poly) : List Poly := List.zipWith ring.subt a b

/-! ### Keys -/

/-- The fields of a private half. -/
structure Secret where
  rho : Bytes
  key : Bytes
  tr : Bytes
  s1 : List Poly
  s2 : List Poly
  t0 : List Poly

def secretOf (p : Par) (sk : Bytes) : Secret :=
  let e := 32 * p.etaBits
  let v (off n d b : Nat) : List Poly := (MlKem.piecesOf (32 * d) n (sk.drop off)).map (unpackFrom d b)
  { rho := sk.take 32, key := sub sk 32 32, tr := sub sk 64 64, s1 := v 128 p.l p.etaBits p.eta,
    s2 := v (128 + e * p.l) p.k p.etaBits p.eta, t0 := v (128 + e * (p.l + p.k)) p.k 13 4096 }

/-- Public and private halves from a 32-byte seed. -/
def keygen (ps : Nat) (seed : Bytes) : Bytes × Bytes :=
  let p := par ps
  let x := h (seed ++ [BitVec.ofNat 8 p.k, BitVec.ofNat 8 p.l]) 128
  let rho := x.take 32
  let s1 := (List.range p.l).map (small p.eta (sub x 32 64))
  let s2 := (List.range p.k).map fun r => small p.eta (sub x 32 64) (p.l + r)
  let t := addV (timesMatrix p rho (s1.map ring.ntt)) s2
  -- t1 is the rounded quotient by 2^13, t0 what is left, from −4095 to 4096
  let t1 := t.map fun f => f.map fun r => (r + 4095) / 8192
  let t0 := t.map fun f => f.map fun r => (r + q - (r + 4095) / 8192 * 8192) % q
  let pk := rho ++ t1.flatMap (pack 10)
  (pk, rho ++ sub x 96 32 ++ h pk 64 ++ s1.flatMap (packFrom p.etaBits p.eta) ++ s2.flatMap (packFrom p.etaBits p.eta)
    ++ t0.flatMap (packFrom 13 4096))

def pubKey (ps : Nat) (seed : Bytes) : Bytes := (keygen ps seed).1

def secKey (ps : Nat) (seed : Bytes) : Bytes := (keygen ps seed).2

/-- Is every coefficient of s1 and s2 within −eta to eta? -/
def etaOk (ps : Nat) (sk : Bytes) : Bool :=
  let p := par ps
  (fieldsOf p.etaBits (256 * (p.l + p.k)) (leNat (sub sk 128 (32 * p.etaBits * (p.l + p.k))))).all
    fun x => decide (x ≤ 2 * p.eta)

/-! ### The message representative (R135) -/

/-- DER of the object identifier of a pre-hash function. -/
def oid (ph : Nat) : Bytes := [0x06, 0x09, 0x60, 0x86, 0x48, 0x01, 0x65, 0x03, 0x04, 0x02, BitVec.ofNat 8 ph]

/-- μ of Table 5.7 for a mode and a pre-hash code. -/
def representative (tr : Bytes) (mode ph : Nat) (ctx msg : Bytes) : Bytes :=
  if mode = 2 then msg
  else h (tr ++ [BitVec.ofNat 8 mode, BitVec.ofNat 8 ctx.length] ++ ctx ++ (if mode = 1 then oid ph else []) ++ msg) 64

/-! ### Signing -/

/-- One attempt: the signature, unless a test rejects it. -/
def attempt (p : Par) (s : Secret) (s1 s2 t0 : List Poly) (mu seed : Bytes) (kappa : Nat) : Option Bytes :=
  let y := (List.range p.l).map fun r => mask p seed (kappa + r)
  let w := timesMatrix p s.rho (y.map ring.ntt)
  let c := h (mu ++ (w.map (high p.gamma2)).flatMap (pack p.w1Bits)) p.cLen
  let ch := ring.ntt (ball p c)
  let z := addV y (timesOne ch s1)
  let r := subV w (timesOne ch s2)
  if !below (p.gamma1 - p.beta) z || !below (p.gamma2 - p.beta) (r.map (low p.gamma2)) then none else
  let ct0 := timesOne ch t0
  let hint := List.zipWith (fun a b => List.zipWith (fun x y =>
    if (decompose p.gamma2 x).1 = (decompose p.gamma2 y).1 then 0 else 1) a b) (addV r ct0) r
  if !below p.gamma2 ct0 || decide (p.omega < (hint.map List.sum).sum) then none
  else some (c ++ z.flatMap (packFrom p.zBits p.gamma1) ++ packHint p hint)

/-- Attempts from number `a` on, `n` of them at most: the rejected ones before, and the signature. -/
def attemptsFrom (p : Par) (s : Secret) (s1 s2 t0 : List Poly) (mu seed : Bytes) : Nat → Nat → Nat × Bytes
  | 0, a => (a, [])
  | n + 1, a => match attempt p s s1 s2 t0 mu seed (a * p.l) with
    | some sig => (a, sig)
    | none => attemptsFrom p s s1 s2 t0 mu seed n (a + 1)

/-- Is attempt number `a` accepted (R140)? -/
def accepts (ps a : Nat) (sk rnd : Bytes) (mode ph : Nat) (ctx msg : Bytes) : Bool :=
  let p := par ps
  let s := secretOf p sk
  let mu := representative s.tr mode ph ctx msg
  (attempt p s (s.s1.map ring.ntt) (s.s2.map ring.ntt) (s.t0.map ring.ntt) mu (h (s.key ++ rnd ++ mu) 64) (a * p.l)).isSome

/-- How many attempts a signature is rejected in, 814 at most (R142), and the signature. -/
def sign (ps : Nat) (sk rnd : Bytes) (mode ph : Nat) (ctx msg : Bytes) : Nat × Bytes :=
  let p := par ps
  let s := secretOf p sk
  let mu := representative s.tr mode ph ctx msg
  attemptsFrom p s (s.s1.map ring.ntt) (s.s2.map ring.ntt) (s.t0.map ring.ntt) mu (h (s.key ++ rnd ++ mu) 64) 814 0

/-! ### Verification -/

/-- 0 when the signature is valid, else the DETAIL of the first test that fails (Table 5.11). -/
def verify (ps : Nat) (pk sig : Bytes) (mode ph : Nat) (ctx msg : Bytes) : Nat :=
  let p := par ps
  let z := (MlKem.piecesOf (32 * p.zBits) p.l (sig.drop p.cLen)).map (unpackFrom p.zBits p.gamma1)
  match unpackHint p (sig.drop (p.cLen + 32 * p.zBits * p.l)) with
  | none => 1
  | some hint =>
    if !below (p.gamma1 - p.beta) z then 2 else
    let rho := pk.take 32
    let t1 := (MlKem.piecesOf 320 p.k (pk.drop 32)).map fun b => ring.ntt ((unpack 10 b).map (· * 8192))
    let c := sig.take p.cLen
    let ch := ring.ntt (ball p c)
    let zh := z.map ring.ntt
    let w := (List.range p.k).map fun i => ring.intt
      (ring.subt (dot ((List.range p.l).map (entry rho i)) zh) (List.zipWith (fun x y => x * y % q) ch (t1.getD i [])))
    let w1 := List.zipWith (fun hs f => List.zipWith (useHint p.gamma2) hs f) hint w
    let mu := representative (h pk 64) mode ph ctx msg
    if h (mu ++ w1.flatMap (pack p.w1Bits)) p.cLen = c then 0 else 3

end MlDsa

end Sys2Proof.Machine
end

