-- ==== Sys2Proof/Machine/Curves.lean ====
section
/-! DEFINITION. The curves of the MXU and the schemes over them, as FIPS 186-5, SP 800-186, RFC 6979, RFC 7748 and
RFC 8032 give them (PRESUMED, log entries 11 and 53): ECDH, X25519 and X448, ECDSA and EdDSA (R200, R206 to R208). -/

namespace Sys2Proof.Machine

/-- Modular power; `n` bounds the bits of the exponent. -/
def powMod (b m : Nat) : Nat → Nat → Nat
  | 0, _ => 1 % m
  | n + 1, e => forced (powMod b m n (e / 2)) fun h =>
    if e % 2 = 1 then h * h % m * (b % m) % m else h * h % m

/-- Inverse modulo a prime. -/
def invMod (p v : Nat) : Nat := powMod v p p.log2.succ (p - 2)

/-- Difference modulo `p`. -/
def subMod (p a b : Nat) : Nat := (a + p - b % p) % p

/-! ### The P-curves -/

/-- Prime, coefficient b and order of a P-curve. -/
def pCurve (pset : Nat) : Nat × Nat × Nat :=
  match pset with
  | 1 => (2 ^ 256 - 2 ^ 224 + 2 ^ 192 + 2 ^ 96 - 1,
      0x5ac635d8aa3a93e7b3ebbd55769886bc651d06b0cc53b0f63bce3c3e27d2604b,
      0xffffffff00000000ffffffffffffffffbce6faada7179e84f3b9cac2fc632551)
  | 2 => (2 ^ 384 - 2 ^ 128 - 2 ^ 96 + 2 ^ 32 - 1,
      0xb3312fa7e23ee7e4988e056be3f82d19181d9c6efe8141120314088f5013875ac656398d8a2ed19d2a85c8edd3ec2aef,
      0xffffffffffffffffffffffffffffffffffffffffffffffffc7634d81f4372ddf581a0db248b0a77aecec196accc52973)
  | _ => (2 ^ 521 - 1,
      0x0051953eb9618e1c9a1f929a21a0b68540eea2da725b99b315f3b8b489918ef109e156193951ec7e937b1652c0bd3bb1bf073573df883d2c34f1ef451fd46b503f00,
      0x01fffffffffffffffffffffffffffffffffffffffffffffffffffffffffffffffffa51868783bf2f966b7fcc0148f709a5d03bb5c9b8899c47aebb6fb71e91386409)

namespace PCurve

/-- The base point. -/
def base (pset : Nat) : Nat × Nat :=
  match pset with
  | 1 => (0x6b17d1f2e12c4247f8bce6e563a440f277037d812deb33a0f4a13945d898c296,
      0x4fe342e2fe1a7f9b8ee7eb4a7c0f9e162bce33576b315ececbb6406837bf51f5)
  | 2 => (0xaa87ca22be8b05378eb1c71ef320ad746e1d3b628ba79b9859f741e082542a385502f25dbf55296c3a545e3872760ab7,
      0x3617de4a96262c6f5d9e98bf9292dc29f8f41dbd289a147ce9da3113b5f0b8c00a60b1ce1d7e819d7a431d7c90ea0e5f)
  | _ => (0x00c6858e06b70404e9cd9e3ecb662395b4429c648139053fb521f828af606b4d3dbaa14b5e77efe75928fe1dc127a2ffa8de3348b3c1856a429bf97e7e31c2e5bd66,
      0x011839296a789a3bc0045c8a5fb42c7d1bd998f54449579b446817afbd17273e662c97ee72995ef42640c550b9013fad0761353c7086a272c24088be94769fd16650)

/-- Bytes of a coordinate and of a scalar. -/
def width (pset : Nat) : Nat := match pset with
  | 1 => 32
  | 2 => 48
  | _ => 66

/-- Bits of the order. -/
def orderBits (pset : Nat) : Nat := match pset with
  | 1 => 256
  | 2 => 384
  | _ => 521

/-- A point as (X : Y : Z) with x = X / Z² and y = Y / Z³; Z = 0 is the neutral point. -/
structure Point where
  x : Nat
  y : Nat
  z : Nat
  deriving DecidableEq, Repr

def neutral : Point := ⟨1, 1, 0⟩

/-- Twice a point, the coefficient a being −3. -/
def dbl (p : Nat) (a : Point) : Point :=
  if a.z = 0 ∨ a.y = 0 then neutral else
  let yy := a.y * a.y % p
  let s := 4 * a.x * yy % p
  let zz := a.z * a.z % p
  let m := 3 * subMod p a.x zz * (a.x + zz) % p
  let x := subMod p (m * m) (2 * s)
  ⟨x, subMod p (m * subMod p s x) (8 * (yy * yy % p)), 2 * a.y * a.z % p⟩

/-- The sum of two points. -/
def add (p : Nat) (a b : Point) : Point :=
  if a.z = 0 then b else if b.z = 0 then a else
  let az := a.z * a.z % p
  let bz := b.z * b.z % p
  let u := a.x * bz % p
  let v := b.x * az % p
  let s := a.y * bz % p * b.z % p
  let t := b.y * az % p * a.z % p
  if u = v then (if s = t then dbl p a else neutral) else
  let h := subMod p v u
  let r := subMod p t s
  let hh := h * h % p
  let hhh := hh * h % p
  let w := u * hh % p
  let x := subMod p (r * r + p - hhh) (2 * w)
  ⟨x, subMod p (r * subMod p w x) (s * hhh), h * a.z % p * b.z % p⟩

/-- `k` times a point; `n` bounds the bits of `k`. -/
def mul (p : Nat) (a : Point) : Nat → Nat → Point
  | 0, _ => neutral
  | n + 1, k =>
    let h := dbl p (mul p a n (k / 2))
    if k % 2 = 1 then add p h a else h

/-- The coordinates x and y; (0, 0) for the neutral point. -/
def affine (p : Nat) (a : Point) : Nat × Nat :=
  let i := invMod p a.z
  (a.x * (i * i % p) % p, a.y * (i * i % p * i % p) % p)

/-- `k` times the base point. -/
def mulBase (pset k : Nat) : Point :=
  mul (pCurve pset).1 ⟨(base pset).1, (base pset).2, 1⟩ (orderBits pset) k

/-- The uncompressed encoding 0x04 ‖ X ‖ Y, and the point it spells (R200). -/
def encode (pset : Nat) (a : Point) : Bytes :=
  let c := affine (pCurve pset).1 a
  0x04 :: beBytes (width pset) c.1 ++ beBytes (width pset) c.2

def decode (pset : Nat) (b : Bytes) : Point :=
  ⟨beNat (sub b 1 (width pset)), beNat (sub b (1 + width pset) (width pset)), 1⟩

/-- The public half of a private scalar. -/
def pubKey (pset : Nat) (sk : Bytes) : Bytes := encode pset (mulBase pset (beNat sk))

/-- A private scalar from drawn bytes, 64 bits more than the order has: their number modulo n − 1, and 1. -/
def scalarOf (pset : Nat) (drawn : Bytes) : Bytes :=
  beBytes (width pset) (beNat drawn % ((pCurve pset).2.2 - 1) + 1)

/-- ECDH: the X coordinate of the product point (R200). -/
def derive (pset : Nat) (sk peer : Bytes) : Bytes :=
  let p := (pCurve pset).1
  beBytes (width pset) (affine p (mul p (decode pset peer) (orderBits pset) (beNat sk))).1

/-- The leftmost bits of a digest as a number, no more than the order has (R206). -/
def digestNat (pset : Nat) (d : Bytes) : Nat := beNat d >>> (8 * d.length - orderBits pset)

/-- r and s under one nonce; a zero makes the nonce useless. -/
def signWith (pset : Nat) (d e k : Nat) : Nat × Nat :=
  let n := (pCurve pset).2.2
  let r := (affine (pCurve pset).1 (mulBase pset k)).1 % n
  (r, invMod n k * (e + r * d) % n)

/-- The signature under the first of the nonces that gives neither r = 0 nor s = 0. -/
def signFirst (pset : Nat) (d e : Nat) : List Nat → Bytes
  | [] => []
  | k :: ks =>
    let (r, s) := signWith pset d e k
    if (r = 0 ∨ s = 0) ∧ ks ≠ [] then signFirst pset d e ks
    else beBytes (width pset) r ++ beBytes (width pset) s

/-- The nonces of RFC 6979 from K and V on, `n` of them at most; `m` bounds the candidates thrown away. -/
def nonces (pset hash : Nat) : Nat → Nat → Bytes → Bytes → List Nat
  | 0, _, _, _ => []
  | _, 0, _, _ => []
  | n + 1, m + 1, key, v =>
    let more (c : Nat) (v : Bytes) : Bytes × Bytes := ((List.range c).foldl
      (fun (x : Bytes × Bytes) _ => let v := hmacOf hash key x.1; (v, x.2 ++ v)) (v, []))
    let (v, t) := more (ceilDiv (orderBits pset) (8 * hashOut hash)) v
    let t := fit (ceilDiv (orderBits pset) 8) t
    let c := digestNat pset t
    let key' := hmacOf hash key (v ++ [0x00])
    let v' := hmacOf hash key' v
    if c = 0 ∨ (pCurve pset).2.2 ≤ c then nonces pset hash (n + 1) m key' v'
    else c :: nonces pset hash n m key' v'

/-- The nonces of a deterministic signature (RFC 6979, R206). -/
def detNonces (pset hash : Nat) (sk digest : Bytes) : List Nat :=
  let seed := sk ++ beBytes (width pset) (digestNat pset digest % (pCurve pset).2.2)
  let v := List.replicate (hashOut hash) (1 : Byte)
  let key := hmacOf hash (zeros (hashOut hash)) (v ++ [0x00] ++ seed)
  let v := hmacOf hash key v
  let key := hmacOf hash key (v ++ [0x01] ++ seed)
  nonces pset hash 4 64 key (hmacOf hash key v)

/-- Does an ECDSA signature hold over a digest? -/
def verify (pset : Nat) (pk digest sig : Bytes) : Bool :=
  let p := (pCurve pset).1
  let n := (pCurve pset).2.2
  let r := beNat (sig.take (width pset))
  let s := beNat (sub sig (width pset) (width pset))
  let w := invMod n s
  let a := add p (mulBase pset (digestNat pset digest * w % n)) (mul p (decode pset pk) (orderBits pset) (r * w % n))
  r != 0 && s != 0 && decide (r < n) && decide (s < n) && a.z != 0 && (affine p a).1 % n == r

end PCurve

/-- The digest an ECDSA or RSA signature is made over: in mode PURE the hash of the message, else the input (R206). -/
def signedDigest (mode hash : Nat) (msg : Bytes) : Bytes :=
  if mode = 1 then msg else hashOf hash msg [] [] (hashOut hash)

/-! ### Curve25519 and Curve448 -/

def p25519 : Nat := 2 ^ 255 - 19
def p448 : Nat := 2 ^ 448 - 2 ^ 224 - 1
def l25519 : Nat := 2 ^ 252 + 27742317777372353535851937790883648493
def l448 : Nat := 2 ^ 446 - 13818066809895115352007386748515426880336692474882178609894547503885

namespace XCurve

def prime (pset : Nat) : Nat := if pset = 1 then p25519 else p448

/-- Bytes of a value. -/
def width (pset : Nat) : Nat := if pset = 1 then 32 else 56

/-- The clamped scalar (RFC 7748, R208). -/
def scalar (pset : Nat) (sk : Bytes) : Nat :=
  let v := leNat (sk.take (width pset))
  if pset = 1 then v % 2 ^ 254 / 8 * 8 + 2 ^ 254 else v % 2 ^ 447 / 4 * 4 + 2 ^ 447

/-- A peer value: the top bit of Curve25519 cleared, reduced. -/
def value (pset : Nat) (b : Bytes) : Nat :=
  (if pset = 1 then leNat b % 2 ^ 255 else leNat (b.take 56)) % prime pset

/-- What a ladder step carries: the two points (x2 : z2) and (x3 : z3). -/
structure Rung where
  x2 : Nat
  z2 : Nat
  x3 : Nat
  z3 : Nat

def Rung.swap (r : Rung) (c : Bool) : Rung := if c then ⟨r.x3, r.z3, r.x2, r.z2⟩ else r

/-- One step of the ladder, with a24 and u. -/
def Rung.next (p a24 u : Nat) (r : Rung) : Rung :=
  let a := r.x2 + r.z2
  let b := subMod p r.x2 r.z2
  let aa := a * a % p
  let bb := b * b % p
  let e := subMod p aa bb
  let da := subMod p r.x3 r.z3 * a % p
  let cb := (r.x3 + r.z3) * b % p
  let d := subMod p da cb
  ⟨aa * bb % p, e * (aa + a24 * e) % p, (da + cb) * (da + cb) % p, u * (d * d % p) % p⟩

/-- The ladder over the bits of `k` above bit `n`. -/
def ladder (p a24 u k : Nat) : Nat → Nat → Rung
  | 0, _ => ⟨1, 0, u, 1⟩
  | n + 1, i =>
    let c := k.testBit i
    (((ladder p a24 u k n (i + 1)).swap c).next p a24 u).swap c

/-- The u coordinate of the product of a scalar and a point. -/
def mul (pset k u : Nat) : Bytes :=
  let p := prime pset
  let r := ladder p (if pset = 1 then 121665 else 39081) u k (if pset = 1 then 255 else 448) 0
  leBytes (width pset) (r.x2 * invMod p r.z2 % p)

def pubKey (pset : Nat) (sk : Bytes) : Bytes := mul pset (scalar pset sk) (if pset = 1 then 9 else 5)

def derive (pset : Nat) (sk peer : Bytes) : Bytes := mul pset (scalar pset sk) (value pset peer)

end XCurve

namespace Edwards

def prime (pset : Nat) : Nat := if pset = 1 then p25519 else p448

def order (pset : Nat) : Nat := if pset = 1 then l25519 else l448

/-- Coefficients a and d of a·x² + y² = 1 + d·x²·y². -/
def coefA (pset : Nat) : Nat := if pset = 1 then p25519 - 1 else 1

def coefD (pset : Nat) : Nat :=
  if pset = 1 then (p25519 - 121665) * invMod p25519 121666 % p25519 else p448 - 39081

/-- Bytes of an encoding. -/
def width (pset : Nat) : Nat := if pset = 1 then 32 else 57

/-- A point as (X : Y : Z). -/
structure Point where
  x : Nat
  y : Nat
  z : Nat
  deriving DecidableEq, Repr

def neutral : Point := ⟨0, 1, 1⟩

/-- The sum, for every pair of points; `d` is the coefficient. -/
def add (pset d : Nat) (s t : Point) : Point :=
  let p := prime pset
  let a := s.z * t.z % p
  let b := a * a % p
  let c := s.x * t.x % p
  let e := s.y * t.y % p
  let h := d * c % p * e % p
  let f := subMod p b h
  let g := (b + h) % p
  ⟨a * f % p * subMod p ((s.x + s.y) * (t.x + t.y)) (c + e) % p, a * g % p * subMod p e (coefA pset * c) % p, f * g % p⟩

/-- `k` times a point; `n` bounds the bits of `k`. -/
def mul (pset d : Nat) (a : Point) : Nat → Nat → Point
  | 0, _ => neutral
  | n + 1, k =>
    let h := mul pset d a n (k / 2)
    let h := add pset d h h
    if k % 2 = 1 then add pset d h a else h

/-- A square root of v modulo the prime, where v has one. -/
def root (pset v : Nat) : Nat :=
  let p := prime pset
  if pset = 1 then
    let r := powMod v p 255 ((p + 3) / 8)
    if r * r % p = v % p then r else r * powMod 2 p 255 ((p - 1) / 4) % p
  else powMod v p 448 ((p + 1) / 4)

/-- The point an encoding spells, if it spells one. -/
def decode (pset : Nat) (b : Bytes) : Option Point :=
  let p := prime pset
  let v := leNat b
  let top := if pset = 1 then 255 else 455
  let y := v % 2 ^ top
  let u := subMod p (y * y) 1
  let w := u * invMod p (subMod p (coefD pset * (y * y % p)) (coefA pset)) % p
  let x := root pset w
  if p ≤ y ∨ x * x % p ≠ w ∨ (x = 0 ∧ v.testBit top) then none
  else some ⟨if (x % 2 = 1) = (v.testBit top = true) then x else p - x, y, 1⟩

/-- The encoding of a point: y, and the parity of x in the top bit. -/
def encode (pset : Nat) (a : Point) : Bytes :=
  let p := prime pset
  let i := invMod p a.z
  let x := a.x * i % p
  leBytes (width pset) (a.y * i % p + (x % 2) * 2 ^ (if pset = 1 then 255 else 455))

/-- The base point: y = 4/5 with x even on edwards25519, the point of RFC 8032 on edwards448. -/
def base (pset : Nat) : Point :=
  if pset = 1 then (decode 1 (leBytes 32 (4 * invMod p25519 5 % p25519))).getD neutral
  else ⟨224580040295924300187604334099896036246789641632564134246125461686950415467406032909029192869357953282578032075146446173674602635247710,
    298819210078481492676017930443930673437544040154080242095928241372331506189835876003536878655418784733982303233503462500531545062832660, 1⟩

/-- The hash of a family: SHA-512, or 114 bytes of SHAKE256. -/
def hash (pset : Nat) (b : Bytes) : Bytes := if pset = 1 then hashOf 3 b [] [] 64 else hashOf 0x0C b [] [] 114

/-- "SigEd25519 no Ed25519 collisions" and "SigEd448". -/
def dom25519 : Bytes := [0x53, 0x69, 0x67, 0x45, 0x64, 0x32, 0x35, 0x35, 0x31, 0x39, 0x20, 0x6E, 0x6F, 0x20, 0x45, 0x64,
  0x32, 0x35, 0x35, 0x31, 0x39, 0x20, 0x63, 0x6F, 0x6C, 0x6C, 0x69, 0x73, 0x69, 0x6F, 0x6E, 0x73]
def dom448 : Bytes := [0x53, 0x69, 0x67, 0x45, 0x64, 0x34, 0x34, 0x38]

/-- What stands before the hashed strings: nothing for Ed25519 without a context (R207). -/
def domain (pset mode : Nat) (ctx : Bytes) : Bytes :=
  if pset = 1 ∧ mode = 0 ∧ ctx = [] then []
  else (if pset = 1 then dom25519 else dom448) ++ [BitVec.ofNat 8 mode, BitVec.ofNat 8 ctx.length] ++ ctx

/-- The clamped scalar and the hash prefix of a seed. -/
def secret (pset : Nat) (sk : Bytes) : Nat × Bytes :=
  let h := hash pset (sk.take (width pset))
  let v := leNat (h.take (width pset))
  (if pset = 1 then v % 2 ^ 254 / 8 * 8 + 2 ^ 254 else v % 2 ^ 447 / 4 * 4 + 2 ^ 447, h.drop (width pset))

def mulBase (pset k : Nat) : Point := mul pset (coefD pset) (base pset) 448 k

def pubKey (pset : Nat) (sk : Bytes) : Bytes := encode pset (mulBase pset (secret pset sk).1)

/-- EdDSA signing (R207). -/
def sign (pset : Nat) (sk : Bytes) (mode : Nat) (ctx msg : Bytes) : Bytes :=
  let (a, pre) := secret pset sk
  let l := order pset
  let d := domain pset mode ctx
  let r := leNat (hash pset (d ++ pre ++ msg)) % l
  let rb := encode pset (mulBase pset r)
  let k := leNat (hash pset (d ++ rb ++ pubKey pset sk ++ msg)) % l
  rb ++ leBytes (width pset) ((r + k * a) % l)

/-- EdDSA verification by the cofactored equation (R207). -/
def verify (pset : Nat) (pk sig : Bytes) (mode : Nat) (ctx msg : Bytes) : Bool :=
  let p := prime pset
  let n := width pset
  let s := leNat (sig.drop n)
  match decode pset pk, decode pset (sig.take n) with
  | some a, some r =>
    let k := leNat (hash pset (domain pset mode ctx ++ sig.take n ++ pk ++ msg)) % order pset
    let d := coefD pset
    let c := if pset = 1 then 8 else 4
    let lhs := mul pset d (mulBase pset s) 4 c
    let rhs := mul pset d (add pset d r (mul pset d a 448 k)) 4 c
    decide (s < order pset) && lhs.x * rhs.z % p == rhs.x * lhs.z % p && lhs.y * rhs.z % p == rhs.y * lhs.z % p
  | _, _ => false

end Edwards

end Sys2Proof.Machine
end

