-- ==== Sys2Proof/Machine/Rsa.lean ====
section
/-! DEFINITION. RSA as RFC 8017 and FIPS 186-5 give it (PRESUMED, log entry 53): the private operation by the CRT and its
check, the encodings of PKCS #1 v1.5, PSS and OAEP, and the search for a key (R201 to R204). -/

namespace Sys2Proof.Machine

namespace Rsa

/-! ### Keys (R200, R244) -/

/-- The fields of a private key of k bytes: n, e, d, p, q, dP, dQ, qInv, all big-endian. -/
structure Priv where
  n : Nat
  e : Nat
  p : Nat
  q : Nat
  dP : Nat
  dQ : Nat
  qInv : Nat

def privOf (k : Nat) (sk : Bytes) : Priv :=
  let half (i : Nat) : Nat := beNat (sub sk (2 * k + 4 + i * (k / 2)) (k / 2))
  ⟨beNat (sk.take k), beNat (sub sk k 4), half 0, half 1, half 2, half 3, half 4⟩

/-- The public operation; e has 32 bits at most. -/
def pubOp (n e x : Nat) : Nat := powMod x n 32 e

/-- The private operation by the CRT (R202). -/
def privOp (k : Nat) (s : Priv) (x : Nat) : Nat :=
  forced (powMod x s.p (4 * k) s.dP) fun a => forced (powMod x s.q (4 * k) s.dQ) fun b =>
    b + subMod s.p a b * s.qInv % s.p * s.q

/-- Does the recombined result, raised to e, give the input back (R202)? -/
def checked (k : Nat) (s : Priv) (x : Nat) : Bool := pubOp s.n s.e (privOp k s x) == x

/-! ### Encodings -/

/-- DigestInfo of a digest: the DER prefix of the hash of a code, then the digest. -/
def digestInfo (hash : Nat) (d : Bytes) : Bytes :=
  [0x30, BitVec.ofNat 8 (17 + d.length), 0x30, 0x0D, 0x06, 0x09, 0x60, 0x86, 0x48, 0x01, 0x65, 0x03, 0x04, 0x02,
    BitVec.ofNat 8 hash, 0x05, 0x00, 0x04, BitVec.ofNat 8 d.length] ++ d

/-- EMSA-PKCS1-v1_5 in k bytes. -/
def encodeV15 (k hash : Nat) (d : Bytes) : Bytes :=
  let t := digestInfo hash d
  [0x00, 0x01] ++ List.replicate (k - t.length - 3) 0xFF ++ [0x00] ++ t

/-- MGF1 over the hash of a code. -/
def mgf1 (hash : Nat) (seed : Bytes) (n : Nat) : Bytes :=
  fit n ((List.range (ceilDiv n (hashOut hash))).flatMap fun i => hashOf hash (seed ++ beBytes 4 i) [] [] (hashOut hash))

def xor (a b : Bytes) : Bytes := List.zipWith (· ^^^ ·) a b

/-- The hash H of a PSS encoding. -/
def pssHash (hash : Nat) (d salt : Bytes) : Bytes := hashOf hash (zeros 8 ++ d ++ salt) [] [] (hashOut hash)

/-- EMSA-PSS in k bytes; the top bit of the first is 0. -/
def encodePss (k hash : Nat) (d salt : Bytes) : Bytes :=
  let h := pssHash hash d salt
  let n := k - hashOut hash - 1
  let db := zeros (n - salt.length - 1) ++ [0x01] ++ salt
  let m := xor db (mgf1 hash h n)
  (m.take 1).map (· &&& 0x7F) ++ m.drop 1 ++ h ++ [0xBC]

/-- Does a PSS encoding decode, with a salt of `salt` bytes? -/
def verifyPss (k hash : Nat) (d : Bytes) (salt : Nat) (em : Bytes) : Bool :=
  let l := hashOut hash
  let n := k - l - 1
  let h := sub em n l
  let db := xor (em.take n) (mgf1 hash h n)
  let db := (db.take 1).map (· &&& 0x7F) ++ db.drop 1
  em.drop (k - 1) == [0xBC] && byteAt em 0 < 0x80 && db.take (n - salt) == zeros (n - salt - 1) ++ [0x01]
    && h == pssHash hash d (db.drop (n - salt))

/-- EME-PKCS1-v1_5 with a string of non-zero bytes, and EME-OAEP with a label and a seed. -/
def padV15 (k : Nat) (pad msg : Bytes) : Bytes := [0x00, 0x02] ++ pad.take (k - msg.length - 3) ++ [0x00] ++ msg

def padOaep (k hash : Nat) (label seed msg : Bytes) : Bytes :=
  let l := hashOut hash
  let n := k - l - 1
  let db := hashOf hash label [] [] l ++ zeros (n - l - msg.length - 1) ++ [0x01] ++ msg
  let db := xor db (mgf1 hash seed n)
  [0x00] ++ xor seed (mgf1 hash db l) ++ db

/-- The text behind the first byte equal to `stop`, when only bytes that `pass` stand before it. -/
def behind (stop : Byte) (pass : Byte → Bool) : Bytes → Option Bytes
  | [] => none
  | b :: bs => if b = stop then some bs else if pass b then behind stop pass bs else none

/-- The plaintext of an encoding of v1.5: 00, 02, eight non-zero bytes or more, 00. -/
def textV15 (em : Bytes) : Option Bytes :=
  if em.take 2 = [0x00, 0x02] ∧ (sub em 2 8).all (· != 0) then behind 0x00 (fun _ => true) (em.drop 10) else none

/-- The plaintext of an OAEP encoding. -/
def textOaep (hash : Nat) (label em : Bytes) : Option Bytes :=
  let l := hashOut hash
  let n := em.length - l - 1
  let seed := xor (sub em 1 l) (mgf1 hash (em.drop (l + 1)) l)
  let db := xor (em.drop (l + 1)) (mgf1 hash seed n)
  if em.take 1 = [0x00] ∧ db.take l = hashOf hash label [] [] l then behind 0x01 (· == 0) (db.drop l) else none

/-! ### The operations of the jobs -/

/-- What a signature is made of: the encoding of a digest under SCHEME. -/
def encoded (k scheme hash : Nat) (d salt : Bytes) : Bytes :=
  if scheme = 1 then encodePss k hash d salt else encodeV15 k hash d

def sign (k : Nat) (sk em : Bytes) : Bytes := beBytes k (privOp k (privOf k sk) (beNat em))

def verify (k : Nat) (pk sig : Bytes) (scheme hash salt : Nat) (d : Bytes) : Bool :=
  let em := beBytes k (pubOp (beNat (pk.take k)) (beNat (pk.drop k)) (beNat sig))
  if scheme = 1 then verifyPss k hash d salt em else em == encodeV15 k hash d

def encrypt (k : Nat) (pk em : Bytes) : Bytes :=
  beBytes k (pubOp (beNat (pk.take k)) (beNat (pk.drop k)) (beNat em))

/-- The plaintext of a ciphertext, where its padding is valid. -/
def decrypt (k : Nat) (sk : Bytes) (scheme hash : Nat) (label ct : Bytes) : Option Bytes :=
  let em := sign k sk ct
  if scheme = 1 then textOaep hash label em else textV15 em

/-! ### The search for a key (R204) -/

/-- One round of Miller–Rabin: `n − 1` is `2^s · d`. -/
def mrLoop (n : Nat) : Nat → Nat → Bool
  | 0, _ => false
  | s + 1, x => x == n - 1 || mrLoop n s (x * x % n)

def mrRound (n s d base : Nat) : Bool :=
  let x := powMod base n n.log2.succ d
  x == 1 || mrLoop n s x

/-- The power of two in a number; `f` bounds it. -/
def twos : Nat → Nat → Nat
  | 0, _ => 0
  | f + 1, v => if v % 2 = 0 ∧ v ≠ 0 then twos f (v / 2) + 1 else 0

/-- Does a number pass 64 rounds with the given bases? -/
def probablePrime (n : Nat) (bases : Nat → Nat) : Bool :=
  let s := twos n.log2 (n - 1)
  (List.range 64).all fun i => mrRound n s ((n - 1) / 2 ^ s) (bases i % (n - 3) + 2)

/-- Does a candidate serve as a prime of `h` bytes for the exponent e: the size of FIPS 186-5, e without a common divisor
with it less one, far from the prime before, probably prime? -/
def serves (h e other c : Nat) (bases : Nat → Nat) : Bool :=
  decide (2 ^ (16 * h - 1) ≤ c * c) && Nat.gcd (c - 1) e == 1
    && decide (2 ^ (8 * h - 100) < c - other + (other - c)) && probablePrime c bases

/-- The first candidate from number `i` on that serves, `n` of them at most, and the number after it. -/
def findPrime (h e other : Nat) (cand : Nat → Nat) (bases : Nat → Nat → Nat) : Nat → Nat → Option (Nat × Nat)
  | 0, _ => none
  | n + 1, i =>
    let c := cand i / 2 * 2 + 1
    if serves h e other c (bases i) then some (c, i + 1) else findPrime h e other cand bases n (i + 1)

/-- x and y of a·x + b·y = gcd, as the inverse of `a` modulo `b`; `f` bounds the steps. -/
def invLoop (b : Nat) : Nat → Nat → Nat → Nat → Nat → Nat
  | 0, _, _, _, _ => 0
  | f + 1, r0, r1, t0, t1 =>
    if r1 = 0 then t0 else invLoop b f r1 (r0 % r1) t1 (subMod b t0 (r0 / r1 * t1))

def inverse (a b : Nat) : Nat := invLoop b (2 * b.log2 + 4) b (a % b) 0 1

/-- The private key of p, q and e, in the layout of R244. -/
def keyOf (k e p q : Nat) : Bytes :=
  let d := inverse e (Nat.lcm (p - 1) (q - 1))
  beBytes k (p * q) ++ beBytes 4 e ++ beBytes k d ++ beBytes (k / 2) p ++ beBytes (k / 2) q
    ++ beBytes (k / 2) (d % (p - 1)) ++ beBytes (k / 2) (d % (q - 1)) ++ beBytes (k / 2) (inverse q p)

/-- The private key of the first two candidates that serve, if 2^20 candidates hold two. -/
def keygen (k e : Nat) (cand : Nat → Nat) (bases : Nat → Nat → Nat) : Option Bytes :=
  match findPrime (k / 2) e 0 cand bases (2 ^ 20) 0 with
  | none => none
  | some (p, i) => match findPrime (k / 2) e p cand bases (2 ^ 20 - i) i with
    | none => none
    | some (q, _) => some (keyOf k e p q)

end Rsa

end Sys2Proof.Machine
end

