-- ==== Sys2Proof/Machine/Slh.lean ====
section
/-! DEFINITION. SLH-DSA as FIPS 205 gives it (PRESUMED, log entry 53; R154 to R160): addresses, the two families of hash
functions, one-time keys, hypertree and FORS, key generation, signing and verification. -/

namespace Sys2Proof.Machine

namespace Slh

/-- A parameter set: n, the layers d, the height of a tree of the hypertree, the height and number of the FORS trees, the length
of a digest, and whether its hash is SHAKE256. -/
structure Par where
  n : Nat
  d : Nat
  th : Nat
  a : Nat
  k : Nat
  m : Nat
  shake : Bool
  deriving DecidableEq, Repr, Inhabited

/-- The parameter sets of Table 6.1 by PSET; those of even number use SHAKE256 (FIPS 205, Table 2). -/
def par (ps : Nat) : Par :=
  let row : List (Nat × Nat × Nat × Nat × Nat × Nat) :=
    [(16, 7, 9, 12, 14, 30), (16, 22, 3, 6, 33, 34), (24, 7, 9, 14, 17, 39), (24, 22, 3, 8, 33, 42), (32, 8, 8, 14, 22, 47),
     (32, 17, 4, 9, 35, 49)]
  let (n, d, th, a, k, m) := row.getD ((ps - 1) / 2) default
  ⟨n, d, th, a, k, m, ps % 2 == 0⟩

/-! ### Addresses -/

/-- An address: layer, tree, type, and the three words that follow the type. -/
structure Adrs where
  layer : Nat
  tree : Nat
  kind : Nat
  w1 : Nat
  w2 : Nat
  w3 : Nat
  deriving DecidableEq, Repr, Inhabited

/-- The types of an address. -/
def wotsHash : Nat := 0
def wotsPk : Nat := 1
def treeKind : Nat := 2
def forsTree : Nat := 3
def forsRoots : Nat := 4
def wotsPrf : Nat := 5
def forsPrf : Nat := 6

/-- An address with another type and its words. -/
def Adrs.as (x : Adrs) (kind w1 w2 w3 : Nat) : Adrs := { x with kind := kind, w1 := w1, w2 := w2, w3 := w3 }

/-- 32 bytes of an address, and the 22 bytes of its compressed form. -/
def Adrs.bytes (x : Adrs) : Bytes :=
  beBytes 4 x.layer ++ beBytes 12 x.tree ++ beBytes 4 x.kind ++ beBytes 4 x.w1 ++ beBytes 4 x.w2 ++ beBytes 4 x.w3

def Adrs.short (x : Adrs) : Bytes :=
  beBytes 1 x.layer ++ beBytes 8 x.tree ++ beBytes 1 x.kind ++ beBytes 4 x.w1 ++ beBytes 4 x.w2 ++ beBytes 4 x.w3

/-! ### Hash functions (FIPS 205, section 11) -/

def sha256 (x : Bytes) : Bytes := hashOf 0x01 x [] [] 32

def sha512 (x : Bytes) : Bytes := hashOf 0x03 x [] [] 64

def shake (x : Bytes) (n : Nat) : Bytes := hashOf 0x0C x [] [] n

/-- F, PRF: one input block under SHA-256 for every set. -/
def hashF (p : Par) (pkSeed : Bytes) (x : Adrs) (m : Bytes) : Bytes :=
  if p.shake then shake (pkSeed ++ x.bytes ++ m) p.n
  else (sha256 (pkSeed ++ zeros (64 - p.n) ++ x.short ++ m)).take p.n

/-- H and T: SHA-512 from n = 24 on. -/
def hashT (p : Par) (pkSeed : Bytes) (x : Adrs) (m : Bytes) : Bytes :=
  if p.shake || p.n == 16 then hashF p pkSeed x m
  else (sha512 (pkSeed ++ zeros (128 - p.n) ++ x.short ++ m)).take p.n

/-- PRF_msg, the randomizer of a message. -/
def prfMsg (p : Par) (skPrf optRand m : Bytes) : Bytes :=
  if p.shake then shake (skPrf ++ optRand ++ m) p.n
  else (hmacOf (if p.n = 16 then 0x01 else 0x03) skPrf (optRand ++ m)).take p.n

/-- MGF1 over a hash of `len` bytes. -/
def mgf1 (hash : Bytes → Bytes) (len : Nat) (x : Bytes) (n : Nat) : Bytes :=
  ((List.range (ceilDiv n len)).flatMap fun i => hash (x ++ beBytes 4 i)).take n

/-- H_msg, the digest of a message. -/
def digest (p : Par) (r pk m : Bytes) : Bytes :=
  let pkSeed := pk.take p.n
  if p.shake then shake (r ++ pk ++ m) p.m
  else if p.n = 16 then mgf1 sha256 32 (r ++ pkSeed ++ sha256 (r ++ pk ++ m)) p.m
  else mgf1 sha512 64 (r ++ pkSeed ++ sha512 (r ++ pk ++ m)) p.m

/-! ### WOTS+ -/

/-- The digits that a one-time key signs: those of the message and of its checksum. -/
def wotsDigits (p : Par) (m : Bytes) : List Nat :=
  let ds := HashTree.digits 4 (2 * p.n) m
  ds ++ HashTree.digits 4 3 (beBytes 2 (HashTree.checksum 4 ds * 16))

/-- Chain `i` of the key at an address, from position `start`, `n` steps on. -/
def wotsChain (p : Par) (pkSeed : Bytes) (x : Adrs) (i start n : Nat) (v : Bytes) : Bytes :=
  HashTree.chain (fun j y => hashF p pkSeed (x.as wotsHash x.w1 i j) y) n start v

/-- Secret value `i` of the key at an address. -/
def wotsSecret (p : Par) (skSeed pkSeed : Bytes) (x : Adrs) (i : Nat) : Bytes :=
  hashF p pkSeed (x.as wotsPrf x.w1 i 0) skSeed

def wotsPublic (p : Par) (skSeed pkSeed : Bytes) (x : Adrs) : Bytes :=
  hashT p pkSeed (x.as wotsPk x.w1 0 0)
    ((List.range (2 * p.n + 3)).flatMap fun i => wotsChain p pkSeed x i 0 15 (wotsSecret p skSeed pkSeed x i))

def wotsSign (p : Par) (skSeed pkSeed : Bytes) (x : Adrs) (m : Bytes) : Bytes :=
  ((wotsDigits p m).mapIdx fun i d => wotsChain p pkSeed x i 0 d (wotsSecret p skSeed pkSeed x i)).flatten

/-- The public key that a signature leads to. -/
def wotsFromSig (p : Par) (pkSeed : Bytes) (x : Adrs) (sig m : Bytes) : Bytes :=
  hashT p pkSeed (x.as wotsPk x.w1 0 0)
    ((wotsDigits p m).mapIdx fun i d => wotsChain p pkSeed x i d (15 - d) (sub sig (p.n * i) p.n)).flatten

/-! ### Trees of the hypertree -/

/-- The key pair `i` of the tree at an address. -/
def xmssLeaf (p : Par) (skSeed pkSeed : Bytes) (x : Adrs) (i : Nat) : Bytes :=
  wotsPublic p skSeed pkSeed (x.as wotsHash i 0 0)

def xmssJoin (p : Par) (pkSeed : Bytes) (x : Adrs) (h i : Nat) (l r : Bytes) : Bytes :=
  hashT p pkSeed (x.as treeKind 0 h i) (l ++ r)

def xmssSign (p : Par) (skSeed pkSeed : Bytes) (x : Adrs) (m : Bytes) (i : Nat) : Bytes :=
  wotsSign p skSeed pkSeed (x.as wotsHash i 0 0) m
    ++ (HashTree.path (xmssLeaf p skSeed pkSeed x) (xmssJoin p pkSeed x) p.th i).flatten

def xmssFromSig (p : Par) (pkSeed : Bytes) (x : Adrs) (sig m : Bytes) (i : Nat) : Bytes :=
  let w := p.n * (2 * p.n + 3)
  HashTree.climb (xmssJoin p pkSeed x) 0 i (wotsFromSig p pkSeed (x.as wotsHash i 0 0) sig m)
    (HashTree.pieces p.n p.th (sig.drop w))

/-- Bytes of one layer of a hypertree signature. -/
def layerLen (p : Par) : Nat := p.n * (2 * p.n + 3 + p.th)

/-- The layers of a hypertree signature from a layer up, `n` of them: the tree and the leaf that sign `m`. -/
def treeSign (p : Par) (skSeed pkSeed : Bytes) : Nat → Nat → Nat → Nat → Bytes → Bytes
  | 0, _, _, _, _ => []
  | n + 1, layer, tree, leaf, m =>
    let x : Adrs := { (default : Adrs) with layer := layer, tree := tree }
    let sig := xmssSign p skSeed pkSeed x m leaf
    sig ++ treeSign p skSeed pkSeed n (layer + 1) (tree / 2 ^ p.th) (tree % 2 ^ p.th) (xmssFromSig p pkSeed x sig m leaf)

/-- The root that a hypertree signature leads to. -/
def treeFromSig (p : Par) (pkSeed : Bytes) : Nat → Nat → Nat → Nat → Bytes → Bytes → Bytes
  | 0, _, _, _, _, m => m
  | n + 1, layer, tree, leaf, sig, m =>
    let x : Adrs := { (default : Adrs) with layer := layer, tree := tree }
    treeFromSig p pkSeed n (layer + 1) (tree / 2 ^ p.th) (tree % 2 ^ p.th) (sig.drop (layerLen p))
      (xmssFromSig p pkSeed x sig m leaf)

/-! ### FORS -/

def forsSecret (p : Par) (skSeed pkSeed : Bytes) (x : Adrs) (i : Nat) : Bytes :=
  hashF p pkSeed (x.as forsPrf x.w1 0 i) skSeed

def forsLeaf (p : Par) (skSeed pkSeed : Bytes) (x : Adrs) (i : Nat) : Bytes :=
  hashF p pkSeed (x.as forsTree x.w1 0 i) (forsSecret p skSeed pkSeed x i)

/-- A node of the tree that begins at leaf `base`: its indices count on over all the trees. -/
def forsJoin (p : Par) (pkSeed : Bytes) (x : Adrs) (tree : Nat) (h i : Nat) (l r : Bytes) : Bytes :=
  hashT p pkSeed (x.as forsTree x.w1 h (tree * 2 ^ (p.a - h) + i)) (l ++ r)

def forsSign (p : Par) (skSeed pkSeed : Bytes) (x : Adrs) (md : Bytes) : Bytes :=
  ((HashTree.digits p.a p.k md).mapIdx fun t i =>
    forsSecret p skSeed pkSeed x (t * 2 ^ p.a + i)
      ++ (HashTree.path (fun j => forsLeaf p skSeed pkSeed x (t * 2 ^ p.a + j)) (forsJoin p pkSeed x t) p.a i).flatten).flatten

def forsFromSig (p : Par) (pkSeed : Bytes) (x : Adrs) (sig md : Bytes) : Bytes :=
  let one := p.n * (1 + p.a)
  hashT p pkSeed (x.as forsRoots x.w1 0 0) ((HashTree.digits p.a p.k md).mapIdx fun t i =>
    let s := sub sig (one * t) one
    HashTree.climb (forsJoin p pkSeed x t) 0 i (hashF p pkSeed (x.as forsTree x.w1 0 (t * 2 ^ p.a + i)) (s.take p.n))
      (HashTree.pieces p.n p.a (s.drop p.n))).flatten

/-! ### Keys and signatures -/

/-- PK.root from SK.seed and PK.seed. -/
def root (p : Par) (skSeed pkSeed : Bytes) : Bytes :=
  let x : Adrs := { (default : Adrs) with layer := p.d - 1 }
  HashTree.node (xmssLeaf p skSeed pkSeed x) (xmssJoin p pkSeed x) p.th 0

/-- SK.seed, SK.prf, PK.seed and PK.root, from the first three (R155, R160). -/
def secKey (ps : Nat) (seeds : Bytes) : Bytes :=
  let p := par ps
  let s := seeds.take (3 * p.n)
  s ++ root p (s.take p.n) (s.drop (2 * p.n))

/-- PK.seed and PK.root of a private key. -/
def pubOf (ps : Nat) (sk : Bytes) : Bytes := sub sk (2 * (par ps).n) (2 * (par ps).n)

/-- M′ of R156. -/
def framed (mode ph : Nat) (ctx msg : Bytes) : Bytes :=
  [BitVec.ofNat 8 mode, BitVec.ofNat 8 ctx.length] ++ ctx ++ (if mode = 1 then MlDsa.oid ph else []) ++ msg

/-- What a digest selects: the FORS message, the tree and the leaf of the lowest layer. -/
def selected (p : Par) (dg : Bytes) : Bytes × Nat × Nat :=
  let mdLen := ceilDiv (p.k * p.a) 8
  let tBits := p.th * (p.d - 1)
  let tLen := ceilDiv tBits 8
  (dg.take mdLen, beNat (sub dg mdLen tLen) % 2 ^ tBits, beNat (sub dg (mdLen + tLen) (ceilDiv p.th 8)) % 2 ^ p.th)

/-- slh_sign_internal: opt_rand and M′ (R157). -/
def sign (ps : Nat) (sk optRand m : Bytes) : Bytes :=
  let p := par ps
  let skSeed := sk.take p.n
  let pkSeed := sub sk (2 * p.n) p.n
  let r := prfMsg p (sub sk p.n p.n) optRand m
  let (md, tree, leaf) := selected p (digest p r (pubOf ps sk) m)
  let x : Adrs := { (default : Adrs) with tree := tree, kind := forsTree, w1 := leaf }
  let fors := forsSign p skSeed pkSeed x md
  r ++ fors ++ treeSign p skSeed pkSeed p.d 0 tree leaf (forsFromSig p pkSeed x fors md)

/-- slh_verify_internal: does the recomputed root equal PK.root (R159)? -/
def verify (ps : Nat) (pk sig m : Bytes) : Bool :=
  let p := par ps
  let pkSeed := pk.take p.n
  let (md, tree, leaf) := selected p (digest p (sig.take p.n) pk m)
  let x : Adrs := { (default : Adrs) with tree := tree, kind := forsTree, w1 := leaf }
  let forsLen := p.n * p.k * (1 + p.a)
  treeFromSig p pkSeed p.d 0 tree leaf (sig.drop (p.n + forsLen)) (forsFromSig p pkSeed x (sub sig p.n forsLen) md)
    == sub pk p.n p.n

end Slh

end Sys2Proof.Machine
end

