-- ==== Sys2Proof/Machine/Xmss.lean ====
section
/-! DEFINITION. XMSS and XMSS^MT as RFC 8391 and SP 800-208 give them (PRESUMED, log entry 53; R161 to R171): object identifiers,
keyed hashing, one-time keys, trees, signing at an index, parsing and verification.  XMSS is the hypertree of one layer. -/

namespace Sys2Proof.Machine

namespace Xmss

/-! ### Object identifiers (SP 800-208, section 5) -/

/-- Total height and layers of the XMSS^MT sets of each hash function, in the order of their identifiers. -/
def multi : List (Nat × Nat) := [(20, 2), (20, 4), (40, 2), (40, 4), (40, 8), (60, 3), (60, 6), (60, 12)]

/-- First identifier of the XMSS and of the XMSS^MT sets of a PSET. -/
def firstOid (ps : Nat) : Nat := [0, 0x01, 0x0D, 0x10, 0x13].getD ps 0

def firstMultiOid (ps : Nat) : Nat := [0, 0x01, 0x21, 0x29, 0x31].getD ps 0

/-- The identifier of a set of `d` layers and total height `h`. -/
def oidOf (ps h d : Nat) : Nat :=
  if d = 1 then firstOid ps + (if h = 10 then 0 else if h = 16 then 1 else 2)
  else firstMultiOid ps + ((indexWhere (· == (h, d)) multi).getD 0)

/-- A set that an identifier names: total height, layers, and bytes of the index in a signature. -/
structure Shape where
  h : Nat
  d : Nat
  idx : Nat
  deriving DecidableEq, Repr, Inhabited

/-- The shape of a set: the index of XMSS takes 4 bytes. -/
def shapeOf (h d : Nat) : Shape := ⟨h, d, if d = 1 then 4 else ceilDiv h 8⟩

/-- The sets that an identifier names under a PSET: XMSS and XMSS^MT number theirs apart. -/
def shapes (ps oid : Nat) : List Shape :=
  let single := if firstOid ps ≤ oid ∧ oid < firstOid ps + 3 then [shapeOf ([10, 16, 20].getD (oid - firstOid ps) 10) 1] else []
  let many := if firstMultiOid ps ≤ oid then (match multi[oid - firstMultiOid ps]? with
    | some (h, d) => [shapeOf h d]
    | none => []) else []
  single ++ many

/-- Bytes of a signature (R164). -/
def Shape.sigLen (x : Shape) (n : Nat) : Nat := x.idx + n * (1 + x.d * (2 * n + 3) + x.h)

/-! ### Addresses and keyed hashing -/

/-- An address: layer, tree, type, and the four words that follow. -/
def adrs (layer tree kind w1 w2 w3 mask : Nat) : Bytes :=
  beBytes 4 layer ++ beBytes 8 tree ++ beBytes 4 kind ++ beBytes 4 w1 ++ beBytes 4 w2 ++ beBytes 4 w3 ++ beBytes 4 mask

/-- The hash function of PSET with the prefix of a use: 0 F, 1 H, 2 H_msg, 3 PRF, 4 PRF_keygen. -/
def hash (ps use : Nat) (x : Bytes) : Bytes :=
  let n := statefulN ps
  let m := beBytes (if n = 32 then 32 else 4) use ++ x
  (if ps ≤ 2 then hashOf 0x01 m [] [] 32 else hashOf 0x0C m [] [] n).take n

def prf (ps : Nat) (key x : Bytes) : Bytes := hash ps 3 (key ++ x)

/-- The keyed and masked hash of two nodes at an address given up to its last word. -/
def randHash (ps : Nat) (seed : Bytes) (a : Nat → Bytes) (l r : Bytes) : Bytes :=
  hash ps 1 (prf ps seed (a 0) ++ xorBytes l (prf ps seed (a 1)) ++ xorBytes r (prf ps seed (a 2)))

/-! ### WOTS+ -/

/-- The digits that a one-time key signs. -/
def wotsDigits (n : Nat) (m : Bytes) : List Nat :=
  let ds := HashTree.digits 4 (2 * n) m
  ds ++ HashTree.digits 4 3 (beBytes 2 (HashTree.checksum 4 ds * 16))

/-- Chain `i` of the key `leaf` of a tree. -/
def wotsChain (ps : Nat) (seed : Bytes) (layer tree leaf i start n : Nat) (x : Bytes) : Bytes :=
  HashTree.chain (fun j y =>
    hash ps 0 (prf ps seed (adrs layer tree 0 leaf i j 0) ++ xorBytes y (prf ps seed (adrs layer tree 0 leaf i j 1)))) n start x

/-- Secret value `i` of the key `leaf` of a tree. -/
def wotsSecret (ps : Nat) (skSeed seed : Bytes) (layer tree leaf i : Nat) : Bytes :=
  hash ps 4 (skSeed ++ seed ++ adrs layer tree 0 leaf i 0 0)

/-- One layer of an L-tree: pairs are hashed, an odd node is carried up. -/
def ltreeLayer (f : Nat → Bytes → Bytes → Bytes) : Nat → List Bytes → List Bytes
  | i, l :: r :: rest => f i l r :: ltreeLayer f (i + 1) rest
  | _, xs => xs

/-- The L-tree over the values of a one-time public key, `k` layers at most. -/
def ltree (ps : Nat) (seed : Bytes) (layer tree leaf : Nat) : Nat → Nat → List Bytes → Bytes
  | 0, _, xs => xs.headD []
  | k + 1, z, xs =>
    if xs.length ≤ 1 then xs.headD [] else
    ltree ps seed layer tree leaf k (z + 1)
      (ltreeLayer (fun i => randHash ps seed (adrs layer tree 1 leaf z i)) 0 xs)

/-- The node of a one-time public key. -/
def leafOf (ps : Nat) (seed : Bytes) (layer tree leaf : Nat) (pk : List Bytes) : Bytes :=
  ltree ps seed layer tree leaf 8 0 pk

/-! ### Trees -/

def leafAt (ps : Nat) (skSeed seed : Bytes) (layer tree leaf : Nat) : Bytes :=
  leafOf ps seed layer tree leaf ((List.range (2 * statefulN ps + 3)).map fun i =>
    wotsChain ps seed layer tree leaf i 0 15 (wotsSecret ps skSeed seed layer tree leaf i))

def join (ps : Nat) (seed : Bytes) (layer tree h i : Nat) (l r : Bytes) : Bytes :=
  randHash ps seed (adrs layer tree 2 0 (h - 1) i) l r

/-- The authentication path of a leaf of a tree of height `h`. -/
def path (ps : Nat) (skSeed seed : Bytes) (layer tree h leaf : Nat) : Bytes :=
  (HashTree.path (leafAt ps skSeed seed layer tree) (join ps seed layer tree) h leaf).flatten

def rootOf (ps : Nat) (skSeed seed : Bytes) (layer tree h : Nat) : Bytes :=
  HashTree.node (leafAt ps skSeed seed layer tree) (join ps seed layer tree) h 0

def wotsSign (ps : Nat) (skSeed seed : Bytes) (layer tree leaf : Nat) (m : Bytes) : Bytes :=
  ((wotsDigits (statefulN ps) m).mapIdx fun i d =>
    wotsChain ps seed layer tree leaf i 0 d (wotsSecret ps skSeed seed layer tree leaf i)).flatten

/-- The root that one layer of a signature leads to. -/
def rootFromSig (ps : Nat) (seed : Bytes) (layer tree h leaf : Nat) (sig m : Bytes) : Bytes :=
  let n := statefulN ps
  let w := n * (2 * n + 3)
  let pk := (wotsDigits n m).mapIdx fun i d => wotsChain ps seed layer tree leaf i d (15 - d) (sub sig (n * i) n)
  HashTree.climb (join ps seed layer tree) 0 leaf (leafOf ps seed layer tree leaf pk) (HashTree.pieces n h (sig.drop w))

/-! ### Keys and signatures: SK_SEED, SK_PRF and SEED, n bytes each -/

def skSeed (ps : Nat) (sk : Bytes) : Bytes := sk.take (statefulN ps)

def skPrf (ps : Nat) (sk : Bytes) : Bytes := sub sk (statefulN ps) (statefulN ps)

def pubSeed (ps : Nat) (sk : Bytes) : Bytes := sub sk (2 * statefulN ps) (statefulN ps)

def topRoot (ps : Nat) (sk : Bytes) (x : Shape) : Bytes := rootOf ps (skSeed ps sk) (pubSeed ps sk) (x.d - 1) 0 (x.h / x.d)

/-- Public key: identifier, root, SEED. -/
def pubOf (ps : Nat) (sk : Bytes) (x : Shape) : Bytes := beBytes 4 (oidOf ps x.h x.d) ++ topRoot ps sk x ++ pubSeed ps sk

/-- What the lowest layer signs: the message under the randomizer of its index. -/
def messageHash (ps : Nat) (r root : Bytes) (idx : Nat) (msg : Bytes) : Bytes :=
  hash ps 2 (r ++ root ++ beBytes (statefulN ps) idx ++ msg)

/-- The paths of the leaves that an index runs through, top layer first (R170). -/
def pathsAt (ps : Nat) (sk : Bytes) (x : Shape) (q : Nat) : List Bytes :=
  let t := x.h / x.d
  ((List.range x.d).map fun i =>
    path ps (skSeed ps sk) (pubSeed ps sk) i (q / 2 ^ (t * (i + 1))) t (q / 2 ^ (t * i) % 2 ^ t)).reverse

/-- The layers of a signature from a layer up, `n` of them; `idx` counts the trees of the layer below. -/
def signLayers (ps : Nat) (sk : Bytes) (t : Nat) : Nat → Nat → Nat → Bytes → Bytes
  | 0, _, _, _ => []
  | n + 1, layer, idx, m =>
    let ss := skSeed ps sk
    let seed := pubSeed ps sk
    wotsSign ps ss seed layer (idx / 2 ^ t) (idx % 2 ^ t) m ++ path ps ss seed layer (idx / 2 ^ t) t (idx % 2 ^ t)
      ++ signLayers ps sk t n (layer + 1) (idx / 2 ^ t) (rootOf ps ss seed layer (idx / 2 ^ t) t)

/-- Signature at index `q`. -/
def sign (ps : Nat) (sk : Bytes) (x : Shape) (q : Nat) (msg : Bytes) : Bytes :=
  let r := prf ps (skPrf ps sk) (beBytes 32 q)
  beBytes x.idx q ++ r ++ signLayers ps sk (x.h / x.d) x.d 0 q (messageHash ps r (topRoot ps sk x) q msg)

/-- The root that the layers of a signature lead to. -/
def climbLayers (ps : Nat) (seed : Bytes) (t : Nat) : Nat → Nat → Nat → Bytes → Bytes → Bytes
  | 0, _, _, _, m => m
  | n + 1, layer, idx, sig, m =>
    climbLayers ps seed t n (layer + 1) (idx / 2 ^ t) (sig.drop (statefulN ps * (2 * statefulN ps + 3 + t)))
      (rootFromSig ps seed layer (idx / 2 ^ t) t (idx % 2 ^ t) sig m)

/-- The set of a signature: of those the public key's identifier names, the one whose signature has this length (log
entry 53). -/
def shapeFor (ps : Nat) (pk sig : Bytes) : Option Shape :=
  (shapes ps (beNat (pk.take 4))).find? fun x => x.sigLen (statefulN ps) == sig.length

/-- 0 when a signature is valid, 1 when the computed root differs, 2 when it does not parse (R171). -/
def verify (ps : Nat) (pk sig msg : Bytes) : Nat :=
  match shapeFor ps pk sig with
  | none => 2
  | some x =>
    let n := statefulN ps
    let q := beNat (sig.take x.idx)
    let root := sub pk 4 n
    if 2 ^ x.h ≤ q then 2
    else if climbLayers ps (sub pk (4 + n) n) (x.h / x.d) x.d 0 q (sig.drop (x.idx + n))
        (messageHash ps (sub sig x.idx n) root q msg) = root then 0 else 1

end Xmss

end Sys2Proof.Machine
end

