-- ==== Sys2Proof/Machine/Standards.lean ====
section
/-! DEFINITION. The functions of other standards that the spec's algorithms call, by their definitions (log entry 53): ML-KEM,
ML-DSA, SLH-DSA, LMS and HSS, XMSS and XMSS^MT, Classic McEliece, HQC, the curves and RSA. -/

namespace Sys2Proof.Machine

/-- ALG and PSET as one number. -/
def ap (alg pset : Nat) : Nat := alg * 256 + pset

/-- Operand `i` of a standard's function. -/
def arg (args : List Bytes) (i : Nat) : Bytes := args.getD i []

/-- `n` bytes that follow from drawn ones, `i` telling them apart; no value of them is known (log entry 5). -/
def stretch (a : Nat) (drawn : Bytes) (i n : Nat) : Bytes :=
  (List.range n).map (Config.std .stretch a [drawn, leBytes 4 i])

/-- ML-KEM-512 to 1024 (R128 to R134): seeds, ek and m, dk and ct. -/
def mlkemValue (f : Config.StdFn) (ps : Nat) (x : List Bytes) : Option Bytes :=
  match f with
  | .pubOf => some (MlKem.encapsKey ps (arg x 0))
  | .privOf => some (MlKem.decapsKey ps (arg x 0))
  | .encapsCt => some (MlKem.encapsCt ps (arg x 0) (arg x 1))
  | .encapsSs => some (MlKem.encapsSs (arg x 0) (arg x 1))
  | .decaps => some (MlKem.decaps ps (arg x 0) (arg x 1))
  | _ => none

/-- ML-DSA-44 to 87 (R135 to R144): seeds, and sk, randomness, mode and hash, context string, message. -/
def mldsaSign (ps : Nat) (x : List Bytes) : Nat × Bytes :=
  MlDsa.sign ps (arg x 0) (arg x 1) (byteAt (arg x 2) 0) (byteAt (arg x 2) 1) (arg x 3) (arg x 4)

def mldsaVerify (ps : Nat) (x : List Bytes) : Nat :=
  MlDsa.verify ps (arg x 0) (arg x 1) (byteAt (arg x 2) 0) (byteAt (arg x 2) 1) (arg x 3) (arg x 4)

def mldsaValue (f : Config.StdFn) (ps : Nat) (x : List Bytes) : Option Bytes :=
  match f with
  | .pubOf => some (MlDsa.pubKey ps ((arg x 0).take 32))
  | .privOf => some (MlDsa.secKey ps ((arg x 0).take 32))
  | .sign => some (mldsaSign ps x).2
  | _ => none

/-! ### Hash-based signatures (R154 to R171) -/

/-- SLH-DSA: SK.seed, SK.prf and PK.seed; or sk, opt_rand, mode and hash, context string, message. -/
def slhValue (f : Config.StdFn) (ps : Nat) (x : List Bytes) : Option Bytes :=
  match f with
  | .pubOf => some (Slh.pubOf ps (Slh.secKey ps (arg x 0)))
  | .privOf => some (Slh.secKey ps (arg x 0))
  | .pubOfPriv => some (Slh.pubOf ps (arg x 0))
  | .sign => some (Slh.sign ps (arg x 0) (arg x 1) (Slh.framed (byteAt (arg x 2) 0) (byteAt (arg x 2) 1) (arg x 3) (arg x 4)))
  | _ => none

/-- Heights of levels, top first, as an operand. -/
def heightBytes (hs : List Nat) : Bytes := hs.map (BitVec.ofNat 8)

def heightsOf (b : Bytes) : List Nat := b.map (·.toNat)

/-- The XMSS set of the heights of its layers. -/
def xmssShape (b : Bytes) : Xmss.Shape := Xmss.shapeOf (heightsOf b).sum b.length

/-- LMS and HSS: the private material and the heights; or these with the index and the message. -/
def lmsValue (f : Config.StdFn) (ps : Nat) (x : List Bytes) : Option Bytes :=
  match f with
  | .pubOf => some (Lms.pubOf ps (arg x 0) (heightsOf (arg x 1)))
  | .privOf => some (arg x 0)
  | .sign => some (Lms.sign ps (arg x 0) (heightsOf (arg x 1)) (leNat (arg x 2)) (arg x 3))
  | _ => none

/-- XMSS and XMSS^MT, in the same way. -/
def xmssValue (f : Config.StdFn) (ps : Nat) (x : List Bytes) : Option Bytes :=
  match f with
  | .pubOf => some (Xmss.pubOf ps (arg x 0) (xmssShape (arg x 1)))
  | .privOf => some (arg x 0)
  | .sign => some (Xmss.sign ps (arg x 0) (xmssShape (arg x 1)) (leNat (arg x 2)) (arg x 3))
  | _ => none

/-- A stateful verification: 0, or 1 when a root differs, 2 when the signature does not parse (R171). -/
def statefulVerify (alg ps : Nat) (x : List Bytes) : Nat :=
  if alg = 0x04 then Lms.verify ps (arg x 0) (arg x 1) (arg x 4) else Xmss.verify ps (arg x 0) (arg x 1) (arg x 4)

/-! ### Code-based key encapsulation (R172 to R179) -/

/-- The strings that an encapsulation's error vector is drawn from: they follow from the drawn bytes (log entry 5). -/
def mcelieceDraw (ps : Nat) (drawn : Bytes) (i : Nat) : Bytes := stretch (ap 0x06 ps) drawn i (4 * (McEliece.par ps).t)

/-- Classic McEliece: seed and attempt; pk and drawn bytes; sk and ct. -/
def mcelieceValue (f : Config.StdFn) (ps : Nat) (x : List Bytes) : Option Bytes :=
  let p := McEliece.par ps
  let seed := McEliece.seedAt p (arg x 0) (leNat (arg x 1))
  let pair := (McEliece.pairOf p seed).getD default
  let e := McEliece.errorOf p (mcelieceDraw ps (arg x 1))
  match f with
  | .pubOf => some (McEliece.packRows p pair.rows)
  | .privOf => some (McEliece.secKey p seed pair)
  | .encapsCt => some (McEliece.encode p (arg x 0) e)
  | .encapsSs => some (McEliece.hashKey p 1 (leBytes (p.n / 8) e) (McEliece.encode p (arg x 0) e))
  | .decaps => some (McEliece.decaps p (arg x 0) (arg x 1))
  | _ => none

/-- HQC: the seed; ek and the drawn message and salt; dk and ct. -/
def hqcValue (f : Config.StdFn) (ps : Nat) (x : List Bytes) : Option Bytes :=
  match f with
  | .pubOf => some (Hqc.encapsKey ps (arg x 0))
  | .privOf => some (Hqc.decapsKey ps (arg x 0))
  | .encapsCt => some (Hqc.encapsCt ps (arg x 0) (arg x 1))
  | .encapsSs => some (Hqc.encapsSs ps (arg x 0) (arg x 1))
  | .decaps => some (Hqc.decaps ps (arg x 0) (arg x 1))
  | _ => none

/-! ### The curves and RSA -/

/-- The nonces of an ECDSA signature (R206): by RFC 6979 when nothing was drawn, else numbers that follow from the drawn
bytes, reduced modulo n − 1 and increased by 1. -/
def ecNonces (ps hash : Nat) (sk drawn digest : Bytes) : List Nat :=
  if drawn = [] then PCurve.detNonces ps hash sk digest
  else (List.range 4).map fun i => beNat (stretch (ap 0x11 ps) drawn i 74) % ((pCurve ps).2.2 - 1) + 1

/-- ECDSA: sk, drawn bytes, mode and hash, an unused operand, message. -/
def ecSign (ps : Nat) (x : List Bytes) : Bytes :=
  let hash := byteAt (arg x 2) 1
  let d := signedDigest (byteAt (arg x 2) 0) hash (arg x 4)
  PCurve.signFirst ps (beNat (arg x 0)) (PCurve.digestNat ps d) (ecNonces ps hash (arg x 0) (arg x 1) d)

def ecVerify (ps : Nat) (x : List Bytes) : Bool :=
  PCurve.verify ps (arg x 0) (signedDigest (byteAt (arg x 2) 0) (byteAt (arg x 2) 1) (arg x 4)) (arg x 1)

/-- ECDSA and ECDH over a P-curve (R200, R206, R208). -/
def pValue (f : Config.StdFn) (ps : Nat) (x : List Bytes) : Option Bytes :=
  let gen := PCurve.scalarOf ps ((arg x 0).take (PCurve.width ps + 8))
  match f with
  | .pubOf => some (PCurve.pubKey ps gen)
  | .privOf => some gen
  | .pubOfPriv => some (PCurve.pubKey ps (arg x 0))
  | .dhDerive => some (PCurve.derive ps (arg x 0) (arg x 1))
  | .sign => some (ecSign ps x)
  | _ => none

/-- Ed25519 and Ed448 (R207). -/
def edValue (f : Config.StdFn) (ps : Nat) (x : List Bytes) : Option Bytes :=
  match f with
  | .pubOf => some (Edwards.pubKey ps (arg x 0))
  | .privOf => some (arg x 0)
  | .pubOfPriv => some (Edwards.pubKey ps (arg x 0))
  | .sign => some (Edwards.sign ps (arg x 0) (byteAt (arg x 2) 0) (arg x 3) (arg x 4))
  | _ => none

/-- X25519 and X448 (R208). -/
def xValue (f : Config.StdFn) (ps : Nat) (x : List Bytes) : Option Bytes :=
  match f with
  | .pubOf => some (XCurve.pubKey ps (arg x 0))
  | .privOf => some (arg x 0)
  | .pubOfPriv => some (XCurve.pubKey ps (arg x 0))
  | .dhDerive => some (XCurve.derive ps (arg x 0) (arg x 1))
  | _ => none

/-- k of an RSA parameter set (Table 7.4). -/
def rsaBytes (ps : Nat) : Nat := [0, 256, 384, 512, 768, 1024].getD ps 1024

/-- The private key that a search over the drawn bytes finds: seed, e little-endian (R204). -/
def rsaFound (ps : Nat) (x : List Bytes) : Option Bytes :=
  let k := rsaBytes ps
  let number (i : Nat) : Nat := beNat (stretch (ap 0x10 ps) (arg x 0) i (k / 2))
  Rsa.keygen k (leNat (arg x 1)) (fun i => number (65 * i)) fun i j => number (65 * i + 1 + j)

/-- The encoding RSA_SIGN exponentiates: an unused operand, drawn bytes for PSS, mode, hash and scheme, the salt length
and the message (R201). -/
def rsaEncoded (ps : Nat) (x : List Bytes) : Bytes :=
  let hash := byteAt (arg x 2) 1
  Rsa.encoded (rsaBytes ps) (byteAt (arg x 2) 2) hash (signedDigest (byteAt (arg x 2) 0) hash (arg x 4))
    (stretch (ap 0x10 ps) (arg x 1) 0 (leNat (arg x 3)))

/-- The encoding RSA_ENCRYPT exponentiates: an unused operand, drawn bytes, hash and scheme, label, plaintext. -/
def rsaPadded (ps : Nat) (x : List Bytes) : Bytes :=
  let k := rsaBytes ps
  let hash := byteAt (arg x 2) 0
  if byteAt (arg x 2) 1 = 1 then
    Rsa.padOaep k hash (arg x 3) (stretch (ap 0x10 ps) (arg x 1) 0 (hashOut hash)) (arg x 4)
  else Rsa.padV15 k ((stretch (ap 0x10 ps) (arg x 1) 0 k).map fun b => BitVec.ofNat 8 (b.toNat % 255 + 1)) (arg x 4)

/-- The plaintext of RSA_DECRYPT: sk, hash and scheme, label, ciphertext (R203). -/
def rsaText (ps : Nat) (x : List Bytes) : Option Bytes :=
  Rsa.decrypt (rsaBytes ps) (arg x 0) (byteAt (arg x 1) 1) (byteAt (arg x 1) 0) (arg x 2) (arg x 3)

/-- RSA (R200 to R204). -/
def rsaValue (f : Config.StdFn) (ps : Nat) (x : List Bytes) : Option Bytes :=
  let k := rsaBytes ps
  match f with
  | .pubOf => some (((rsaFound ps x).getD []).take k)
  | .privOf => some ((rsaFound ps x).getD [])
  | .sign => some (Rsa.sign k (arg x 0) (rsaEncoded ps x))
  | .rsaEncrypt => some (Rsa.encrypt k (arg x 0) (rsaPadded ps x))
  | .rsaPlain => some ((rsaText ps x).getD [])
  | _ => none

/-- The attestation pair of P-384: 64 bytes reduced modulo n − 1 and increased by 1 (R439). -/
def attestScalar (b : Bytes) : Bytes := PCurve.scalarOf 2 b

/-- Signatures and keys of the device itself (R344, R420, R435, R437, R440): ML-DSA-87 in mode PURE with a context string,
and ECDSA P-384 with SHA-384. -/
def deviceValue (f : Config.StdFn) (a : Nat) (x : List Bytes) : Option Bytes :=
  match f, a / 256 with
  | .devicePub, 0x02 => some (MlDsa.pubKey 3 (arg x 0))
  | .devicePub, _ => some (PCurve.pubKey 2 (attestScalar (arg x 0)))
  | .deviceSign, 0x02 => some (MlDsa.sign 3 (MlDsa.secKey 3 (arg x 0)) (arg x 3) 0 0 (arg x 1) (arg x 2)).2
  | .deviceSign, _ => some (ecSign 2 [attestScalar (arg x 0), arg x 2, [0, 2], [], arg x 1])
  | _, _ => none

/-- Does the model hold the parameter set: not one that a graft adds (R354)? -/
def heldSet (a : Nat) : Bool :=
  decide (1 ≤ a % 256) && decide (a % 256 ≤ [0, 3, 3, 12, 4, 4, 5, 3, 0, 0, 0, 0, 0, 0, 0, 0, 5, 3, 2, 3, 2].getD (a / 256) 0)

/-- A standard's value, where the model holds the standard. -/
@[irreducible] def stdValue (f : Config.StdFn) (a : Nat) (x : List Bytes) : Option Bytes :=
  if f = .devicePub ∨ f = .deviceSign then deviceValue f a x else
  if !heldSet a then none else
  match a / 256 with
  | 0x03 => slhValue f (a % 256) x
  | 0x04 => lmsValue f (a % 256) x
  | 0x05 => xmssValue f (a % 256) x
  | 0x06 => mcelieceValue f (a % 256) x
  | 0x07 => hqcValue f (a % 256) x
  | 0x01 => mlkemValue f (a % 256) x
  | 0x02 => mldsaValue f (a % 256) x
  | 0x10 => rsaValue f (a % 256) x
  | 0x11 => pValue f (a % 256) x
  | 0x12 => edValue f (a % 256) x
  | 0x13 => pValue f (a % 256) x
  | 0x14 => xValue f (a % 256) x
  | _ => none

/-- `n` bytes of a standard's function. -/
def stdBytes (f : Config.StdFn) (a : Nat) (x : List Bytes) (n : Nat) : Bytes :=
  let v := stdValue f a x
  (List.range n).map fun i => match v with
    | some b => b.getD i 0
    | none => Config.std f a x i

/-! ### Predicates and numbers -/

/-- Which import check of Table 5.6 fails first: FORM and material; 0 to 2 for ML-KEM, 0 or 1 for ML-DSA. -/
def mlkemImport (ps form : Nat) (m : Bytes) : Option Nat :=
  let dk := m.take (768 * MlKem.rank ps + 96)
  let ek := if form = 0 then m else MlKem.embedded ps dk
  if !MlKem.modulusOk ps ek then some 0
  else if form = 0 then none
  else if MlKem.storedHash ps dk ≠ MlKem.hashH ek then some 1
  else if form = 2 ∧ m.drop (768 * MlKem.rank ps + 96) ≠ ek then some 2 else none

/-- Bytes of an ML-DSA secret key (Table 5.2). -/
def mldsaSkLen (ps : Nat) : Nat := [0, 2560, 4032, 4896].getD ps 4896

def mldsaImport (ps form : Nat) (m : Bytes) : Option Nat :=
  let sk := m.take (mldsaSkLen ps)
  if !MlDsa.etaOk ps sk then some 0
  else if form = 2 ∧ sub sk 64 64 ≠ MlDsa.h (m.drop (mldsaSkLen ps)) 64 then some 1 else none

/-- Does the public half belong to the private half of `n` bytes before it (Table 7.7)? -/
def pairImport (a form n : Nat) (m : Bytes) : Bool :=
  form != 2 || stdValue .pubOfPriv a [m.take n] == some (m.drop n)

/-- Does a stateful public key name the hash function of PSET (R171), by the typecodes and identifiers that SP 800-208 assigns: in
the HSS key at bytes 4 and 8, in the XMSS key at byte 0? -/
def statefulHashOk (alg ps : Nat) (pk : Bytes) : Bool :=
  if alg = 0x04 then Lms.typesOk ps (beNat (sub pk 4 4)) (beNat (sub pk 8 4))
  else !(Xmss.shapes ps (beNat (pk.take 4))).isEmpty

/-- Does a private key of SLH-DSA hold the root of its seeds (R160)? -/
def slhImport (ps : Nat) (sk : Bytes) : Bool := Slh.secKey ps sk == sk

/-- The checks of R177: FORM and material. -/
def mcelieceImport (ps form : Nat) (m : Bytes) : Bool :=
  let p := McEliece.par ps
  McEliece.importOk p (m.take (McEliece.skLen p)) (if form = 2 then some (m.drop (McEliece.skLen p)) else none)

/-- Truth value of a standard's predicate, where the model holds the standard. -/
@[irreducible] def stdVerdict (f : Config.StdFn) (a : Nat) (x : List Bytes) : Option Bool :=
  let ps := a % 256
  if f != .deviceVerify && !heldSet a then none else
  match f, a / 256 with
  | .validate, 0x01 => some (MlKem.modulusOk ps (arg x 0))
  | .importOk, 0x01 => some (mlkemImport ps (byteAt (arg x 0) 0) (arg x 1)).isNone
  | .importOk, 0x02 => some (mldsaImport ps (byteAt (arg x 0) 0) (arg x 1)).isNone
  | .importOk, 0x11 => some (pairImport a (byteAt (arg x 0) 0) (PCurve.width ps) (arg x 1))
  | .importOk, 0x12 => some (pairImport a (byteAt (arg x 0) 0) (Edwards.width ps) (arg x 1))
  | .importOk, 0x13 => some (pairImport a (byteAt (arg x 0) 0) (PCurve.width ps) (arg x 1))
  | .importOk, 0x14 => some (pairImport a (byteAt (arg x 0) 0) (XCurve.width ps) (arg x 1))
  | .importOk, 0x03 => some (slhImport ps (arg x 1))
  | .importOk, 0x04 => some (statefulHashOk 0x04 ps (arg x 1))
  | .importOk, 0x05 => some (statefulHashOk 0x05 ps (arg x 1))
  | .importOk, 0x06 => some (mcelieceImport ps (byteAt (arg x 0) 0) (arg x 1))
  | .importOk, 0x07 => some (Hqc.paddingOk ps (arg x 1))
  | .validate, 0x07 => some (Hqc.paddingOk ps (arg x 0))
  | .pkHashOk, 0x04 => some (statefulHashOk 0x04 ps (arg x 0))
  | .pkHashOk, 0x05 => some (statefulHashOk 0x05 ps (arg x 0))
  | .attemptOk, 0x06 => some ((McEliece.pairOf (McEliece.par ps)
      (McEliece.seedAt (McEliece.par ps) (arg x 1) (leNat (arg x 0)))).isSome)
  | .verify, 0x03 => some (Slh.verify ps (arg x 0) (arg x 1)
      (Slh.framed (byteAt (arg x 2) 0) (byteAt (arg x 2) 1) (arg x 3) (arg x 4)))
  | .verify, 0x04 => some (statefulVerify 0x04 ps x == 0)
  | .verify, 0x05 => some (statefulVerify 0x05 ps x == 0)
  | .attemptOk, 0x02 => some (MlDsa.accepts ps (leNat (arg x 0)) (arg x 1) (arg x 2) (byteAt (arg x 3) 0) (byteAt (arg x 3) 1)
      (arg x 4) (arg x 5))
  | .verify, 0x02 => some (mldsaVerify ps x == 0)
  | .verify, 0x11 => some (ecVerify ps x)
  | .verify, 0x12 => some (Edwards.verify ps (arg x 0) (arg x 1) (byteAt (arg x 2) 0) (arg x 3) (arg x 4))
  | .verify, 0x10 => some (Rsa.verify (rsaBytes ps) (arg x 0) (arg x 1) (byteAt (arg x 2) 2) (byteAt (arg x 2) 1)
      (leNat (arg x 3)) (signedDigest (byteAt (arg x 2) 0) (byteAt (arg x 2) 1) (arg x 4)))
  | .rsaSignOk, 0x10 => some (Rsa.checked (rsaBytes ps) (Rsa.privOf (rsaBytes ps) (arg x 0)) (beNat (rsaEncoded ps x)))
  | .rsaPlainOk, 0x10 => some (Rsa.checked (rsaBytes ps) (Rsa.privOf (rsaBytes ps) (arg x 0)) (beNat (arg x 3)))
  | .rsaPadOk, 0x10 => some (rsaText ps x).isSome
  | .deviceVerify, 0x02 => some (MlDsa.verify 3 (arg x 1) (arg x 3) 0 0 (arg x 0) (arg x 2) == 0)
  | .deviceVerify, 0x11 => some (PCurve.verify 2 (arg x 0) (signedDigest 0 2 (arg x 1)) (arg x 2))
  | _, _ => none

def stdHolds (f : Config.StdFn) (a : Nat) (x : List Bytes) : Bool := (stdVerdict f a x).getD (Config.stdOk f a x)

/-- Number of a standard's function, where the model holds the standard: rejected attempts, the first failing check, the
length of a plaintext. -/
@[irreducible] def stdCount (f : Config.StdFn) (a : Nat) (x : List Bytes) : Option Nat :=
  let ps := a % 256
  if !heldSet a then none else
  match f, a / 256 with
  | .verifyDetail, 0x04 => some (statefulVerify 0x04 ps x - 1)
  | .verifyDetail, 0x05 => some (statefulVerify 0x05 ps x - 1)
  | .attempts, 0x02 => some (mldsaSign ps x).1
  | .attempts, 0x10 => some (if (rsaFound ps x).isSome then 0 else 2 ^ 20)
  | .verifyDetail, 0x02 => some (mldsaVerify ps x - 1)
  | .importFail, 0x01 => some ((mlkemImport ps (byteAt (arg x 0) 0) (arg x 1)).getD 0)
  | .importFail, 0x02 => some ((mldsaImport ps (byteAt (arg x 0) 0) (arg x 1)).getD 0)
  | .rsaPlain, 0x10 => some ((rsaText ps x).getD []).length
  | _, _ => none

def stdNumber (f : Config.StdFn) (a : Nat) (x : List Bytes) : Nat := (stdCount f a x).getD (Config.stdNat f a x)

end Sys2Proof.Machine
end

