-- ==== Sys2Proof/Machine/State.lean ====
section
/-! DEFINITION. The state of the block as plain data: every register, ring, job, store, counter, mode
and pin the spec gives the machine, the commands that wait, and the state right after reset. -/

namespace Sys2Proof.Machine

/-! ### Rings (03_rings.md) -/

/-- STATE of a queue's status word (Tables 3.4 and 3.5). -/
inductive QState where
  | absent | active | error | held | quiesced
  deriving DecidableEq, Repr, Inhabited

/-- A copy of a submission entry read ahead of dispatch (R66): its ring position and its bytes, or
`none` when the read of a published slot failed (R75, RING_READ). -/
structure SeCopy where
  pos : Nat
  bytes : Option Bytes
  deriving DecidableEq, Repr, Inhabited

/-- A submission queue (R55, R62, Table 3.4). -/
structure Sq where
  /-- Owning instance and local number. -/
  inst : Nat
  num : Nat
  base : Nat
  log2n : Nat
  weight : Nat
  /-- Local number of the bound CQ. -/
  cq : Nat
  readAhead : Bool
  /-- Head and last accepted tail, positions 0 to 2N − 1. -/
  head : Nat
  tail : Nat
  state : QState
  reason : Nat
  errIndex : Nat
  starved : Bool
  /-- Boundaries the head job has waited only for a CQ credit (R83). -/
  waited : Nat
  copies : List SeCopy
  /-- SQ_DELETE has stopped dispatch (R101). -/
  deleting : Bool
  /-- Grants taken in the present round, and the weight that applies from the next one (R88). -/
  used : Nat
  nextWeight : Nat
  deriving DecidableEq, Repr, Inhabited

/-- A completion entry kept back by a CQ in ERROR (R85): its 16 bytes with PHASE 0, and whether its
job was dispatched in the sprint class. -/
structure HeldCe where
  /-- Number of the job: CEs are posted in order of reservation. -/
  id : Nat
  /-- Local number of the job's SQ, whose head at the writing the CE reports (R80). -/
  sq : Nat
  body : Bytes
  sprint : Bool
  deriving DecidableEq, Repr, Inhabited

/-- A completion queue (R55, R62, R90, Table 3.5). -/
structure Cq where
  inst : Nat
  num : Nat
  base : Nat
  log2n : Nat
  vector : Nat
  coalCount : Nat
  coalTicks : Nat
  /-- Next position to write and last accepted head, 0 to 2N − 1. -/
  tail : Nat
  head : Nat
  state : QState
  reason : Nat
  errIndex : Nat
  armed : Bool
  /-- Boundary from which the arming counts (R90). -/
  armAt : Nat
  /-- Boundary of posting of each unreleased CE, oldest first. -/
  posted : List Nat
  /-- Credits reserved by dispatched jobs (R82). -/
  reserved : Nat
  heldCes : List HeldCe
  /-- Boundary at which a sprint-class CE was last posted, when one was (R90). -/
  sprintAt : Option Nat
  /-- The queue-error interrupt of R78 is due, at the boundary named. -/
  errorIntr : Bool
  errorAt : Nat
  deriving DecidableEq, Repr, Inhabited

/-! ### Instances, the DATU and the admin queues (04_instances.md) -/

/-- State of an instance (Table 4.8). -/
inductive InstState where
  | absent | active | quiescing | quiesced
  deriving DecidableEq, Repr, Inhabited

/-- DATU mode of an instance (Table 4.5, MODE). -/
inductive DatuMode where
  | off | translate | bypass
  deriving DecidableEq, Repr, Inhabited

/-- A dirty log (R110 to R112). -/
structure DirtyLog where
  running : Bool
  /-- The active bitmap is B. -/
  onB : Bool
  bitmapA : Nat
  bitmapB : Nat
  base : Nat
  pages : Nat
  lost : Bool
  outOfRange : Bool
  /-- Instance in whose space the bitmaps lie (the issuing AF). -/
  owner : Nat
  /-- Boundary from which writes are logged (R110). -/
  since : Nat
  deriving DecidableEq, Repr, Inhabited

/-- A quiesce accepted and not yet completed (R114). -/
structure Quiesce where
  abort : Bool
  applied : Bool
  /-- Jobs ended ABORTED under it. -/
  ended : Nat
  deriving DecidableEq, Repr, Inhabited

/-- An instance (Tables 4.6, 4.8, 4.9). -/
structure Inst where
  id : Nat
  state : InstState
  engineWeight : Nat
  inflightLimit : Nat
  queueLimit : Nat
  sprintRate : Nat
  ctxQuota : Nat
  keyQuota : Nat
  /-- Sprint tokens (R87). -/
  tokens : Nat
  /-- Grants taken in the present round (R88), the engine weight that applies from the next one, and the SQ of the last
  sprint grant (R87). -/
  used : Nat
  nextWeight : Nat
  lastSq : Nat
  root : Nat
  width : Nat
  mode : DatuMode
  dirty : Option DirtyLog
  /-- LOST persists in RESULT until a new start (R111). -/
  dirtyLost : Bool
  quiesce : Option Quiesce
  /-- Boundary at which an INSTANCE_RESUME takes effect (R115). -/
  resumeAt : Option Nat
  /-- Tenant tag the instance is bound to (R450, R463). -/
  tenant : Option Nat
  deriving DecidableEq, Repr, Inhabited

/-- Bus addresses whose reads the host does not complete with data, and the bit of PORT_EVENTS that its answer sets
(R482, log entry 52). -/
structure Deaf where
  bus : Nat
  len : Nat
  event : Nat
  deriving DecidableEq, Repr, Inhabited

/-- A cached leaf translation (R108). -/
structure Leaf where
  inst : Nat
  /-- IOVA of the page and log2 of its size: 12, 21 or 30. -/
  page : Nat
  log2 : Nat
  bus : Nat
  r : Bool
  w : Bool
  deriving DecidableEq, Repr, Inhabited

/-- DATU fault capture of an AF (Table 18.7). -/
structure DatuFault where
  valid : Bool
  level : Nat
  cause : Nat
  access : Nat
  inst : Nat
  iova : Nat
  count : Nat
  deriving DecidableEq, Repr, Inhabited

/-- The ADMQ block of an AF (Table 4.1); the rings are queues of the AF's instance. -/
structure Admq where
  sqBase : Nat
  cqBase : Nat
  vector : Nat
  cqLog2 : Nat
  sqLog2 : Nat
  cfgBad : Bool
  running : Bool
  enable : Bool
  /-- The RWL lock ends at this boundary (R94). -/
  lockedUntil : Option Nat
  sq : Sq
  cq : Cq
  deriving DecidableEq, Repr, Inhabited

/-- What an admin command that has been executed still waits for (R97, R101, R114, R116). -/
inductive AdminWait where
  /-- Complete: its CE is due at the next boundary. -/
  | done
  /-- SQ_DELETE: the last CE of the SQ's dispatched jobs. -/
  | sqDrain (inst sq : Nat)
  /-- INSTANCE_REMOVE: the last context of the instance that another device holds (R118). -/
  | ctxs (inst : Nat)
  /-- INSTANCE_QUIESCE: the instance's last CE. -/
  | quiesce (inst : Nat)
  /-- Completed by a later step under its own rule. -/
  | later
  deriving DecidableEq, Repr, Inhabited

/-- An admin command accepted and without its CE (R96, R97). -/
structure AdminCmd where
  /-- The model's own number for the command. -/
  ref : Nat
  port : Nat
  tag : Nat
  status : Nat
  detail : Nat
  result : Nat
  /-- Boundary after the steward accepted it. -/
  accepted : Nat
  wait : AdminWait
  deriving DecidableEq, Repr, Inhabited

/-- A change that waits for step 2 of the next boundary (R51, R52, R93, R389). -/
inductive Change where
  /-- A write to an RWT register. -/
  | reg (port off val : Nat)
  | sqWeight (inst sq weight : Nat)
  | cqCoal (inst cq count ticks : Nat)
  /-- ENGINE_WEIGHT, INFLIGHT_LIMIT and SPRINT_RATE where given (Table 4.6). -/
  | sched (inst : Nat) (weight inflight sprint : Option Nat)
  | primary (port : Nat)
  | severity (sources : List Nat) (sev : Nat)
  /-- HEALTH_GET, applied at step 1: RETIRE, UNIT, EXPECT, OUT_ADDR (R392). -/
  | health (ref port : Nat) (retire : Bool) (unit expect addr : Nat)
  /-- The serving face of a pair moves at step 1: PORT_A, and whether PORT_B serves then (R121). -/
  | face (a : Nat) (toB : Bool)
  /-- DIRTY_LOG_HARVEST (R112). -/
  | harvest (ref inst : Nat)
  | specClear
  | perfClear
  /-- ENVELOPE_SET: the command and the envelope (R515). -/
  | envelope (ref env : Nat)
  deriving DecidableEq, Repr, Inhabited

/-- An action that waits for step 3 of the next boundary (R25, R114, R116, R287). -/
inductive Abort where
  | jobs (ref inst sq tag : Nat) (all : Bool)
  | quiesce (ref inst : Nat) (abort : Bool)
  /-- A disposition received from the origin of a tether job. -/
  | disposition (job : Nat) (confirm : Bool)
  deriving DecidableEq, Repr, Inhabited

/-! ### Keys, contexts, streams (06, 08, 09) -/

/-- Traversal state of one level of a stateful key: the current tree of the level, and the authentication path of the leaf of the
committed index in it (R170). -/
structure Traversal where
  tree : Nat
  path : Bytes
  deriving DecidableEq, Repr, Inhabited

/-- Bookkeeping of a stateful signature key (R163 to R170). -/
structure Stateful where
  /-- Heights of the levels, top first. -/
  heights : List Nat
  reserveBlock : Nat
  /-- Next index to hand out (volatile, R165). -/
  next : Nat
  /-- The committed index plus one; 0 for a new key (R170). -/
  committed : Nat
  /-- Traversal states of the levels, top first; none where the trees are yet to be rebuilt (R170, R265). -/
  trees : List Traversal
  deriving DecidableEq, Repr, Inhabited

/-- A key object (09_keys_contexts_vault.md). -/
structure KeyObj where
  index : Nat
  gen : Nat
  owner : Nat
  alg : Nat
  pset : Nat
  pub : Option Bytes
  /-- Private half, or the secret of a symmetric key. -/
  priv : Option Bytes
  /-- POLICY as held (Table 9.3). -/
  policy : Nat
  /-- Rejection secret of an RSA private key (R203, R209). -/
  rejection : Bytes
  shelved : Bool
  dormant : Bool
  quarantined : Bool
  /-- Destroyed, its material kept for the jobs that had passed their handle checks (R248). -/
  doomed : Bool
  stateful : Option Stateful
  deriving DecidableEq, Repr, Inhabited

/-- Contents of a context slot (Table 9.9). -/
inductive Slot where
  | empty
  | secret (b : Bytes)
  | mac (alg pset : Nat) (key : Bytes)
  | aead (alg pset : Nat) (key iv : Bytes) (seq : Nat)
  | ephemeral (pset : Nat) (kem dh : Bytes)
  deriving DecidableEq, Repr, Inhabited

/-- A copy of RESERVED_TO in a counter record: its value, sequence number and whether its CRC holds. -/
structure CounterCopy where
  reservedTo : Nat
  seq : Nat
  valid : Bool
  deriving DecidableEq, Repr, Inhabited

/-- A counter record of a stateful key in heartwood MRAM (R165): two copies written in alternation. -/
structure Counter where
  handle : Nat
  a : CounterCopy
  b : CounterCopy
  deriving DecidableEq, Repr, Inhabited

/-- A session context (R250). -/
structure Ctx where
  index : Nat
  gen : Nat
  canopy : Nat
  home : Nat
  owner : Nat
  tenant : Option Nat
  slots : List Slot
  moving : Bool
  /-- The device it is moving to, while it moves (R465). -/
  dest : Nat
  quarantined : Bool
  deriving DecidableEq, Repr, Inhabited

/-- A digest stream (R217, R218): what it has absorbed stands for its hash state. -/
structure Stream where
  index : Nat
  gen : Nat
  owner : Nat
  alg : Nat
  pset : Nat
  final : Bool
  absorbed : Bytes
  /-- cSHAKE strings N and S. -/
  n : Bytes
  s : Bytes
  /-- Output bytes already read from an XOF. -/
  squeezed : Nat
  quarantined : Bool
  deriving DecidableEq, Repr, Inhabited

/-- Whose a place in the vault or in the context cache is: a key object's or a stream's by index and generation, a context's by
its handle. -/
inductive VaultTag where
  | key (index gen : Nat)
  | ctx (handle : Nat)
  | stream (index gen : Nat)
  deriving DecidableEq, Repr, Inhabited

/-- An entry of the stewards' allocation tables (Table 9.13): the runs of lines an object has, each by its first line and their
number, and the bytes last sealed in them. -/
structure VaultObj where
  tag : VaultTag
  runs : List (Nat × Nat)
  bytes : Bytes
  deriving DecidableEq, Repr, Inhabited

/-- The vault (R259 to R262). -/
structure Vault where
  /-- The boot nonce, and the XTS and MAC keys while they are held (R261). -/
  nonce : Bytes
  keys : Option (Bytes × Bytes)
  /-- The image in each of the two channels: the 64-byte lines that have been written, by line number, rising (R259). -/
  copies : List (List (Nat × Bytes))
  /-- The 32-byte root on chip; the node cache: verified MAC and tree lines, oldest first; the untouched-page bitmap, as the
  4 KiB pages that have been touched (R260, R261). -/
  root : Bytes
  nodes : List (Nat × Bytes)
  touched : List Nat
  /-- Channel of the next read (R259). -/
  turn : Nat
  objs : List VaultObj
  /-- A line has been rewritten from the other copy; a MAC or tree line has failed in both: yet to be raised (R262). -/
  fixed : Bool
  bad : Bool
  deriving DecidableEq, Repr, Inhabited

/-- What a job holds from dispatch until its CE is posted (R220, R251). -/
inductive Hold where
  | stream (index : Nat)
  | slot (ctx slot : Nat)
  /-- A stateful key, on which sign jobs run one at a time (R168). -/
  | statefulKey (index : Nat)
  deriving DecidableEq, Repr, Inhabited

/-- A change a job makes at its final commit (R23, R279). -/
inductive Effect where
  | createKey (k : KeyObj)
  | destroyKey (index : Nat)
  | putCtx (c : Ctx)
  | setSlot (ctx slot : Nat) (v : Slot)
  | freeCtx (ctx : Nat)
  | openStream (st : Stream)
  | putStream (st : Stream)
  | freeStream (index : Nat)
  | advanceSeq (ctx slot : Nat)
  | commitIndex (key q : Nat) (trees : List Traversal)
  deriving DecidableEq, Repr, Inhabited

/-! ### Jobs (02, 03, 10) -/

/-- What a job ends with: STATUS, DETAIL, RESULT_LEN, the output bytes and the changes. -/
structure JobResult where
  status : Nat
  detail : Nat
  len : Nat
  out : Bytes
  effects : List Effect
  deriving DecidableEq, Repr, Inhabited

/-- Standing of a job towards its dependency (R272 to R275). -/
inductive Dep where
  /-- DEP_TAG 0xFFFF, or the dependency's CE posted with OK. -/
  | confirmed
  /-- No job of that TAG dispatched yet (R273). -/
  | pending
  /-- Depends on a dispatched job whose CE is not posted. -/
  | on (job : Nat)
  deriving DecidableEq, Repr, Inhabited

/-- A fragment: address and length (R72). -/
structure Frag where
  addr : Nat
  len : Nat
  deriving DecidableEq, Repr, Inhabited

/-- A part of a job that runs beside the job's own slice: a further attempt (R141, R175) or a further strand (R152), by its
number, with the engine that had it last. -/
structure Part where
  no : Nat
  engine : Nat
  /-- Tick in which it was last given a slice that has not been abandoned. -/
  sliceTick : Option Nat
  /-- Its slice has been abandoned and is to be re-executed (R344). -/
  rerun : Bool
  /-- An attempt that has ended: accepted or rejected. -/
  ended : Option Bool
  deriving DecidableEq, Repr, Inhabited

/-- A dispatched job without a posted CE. -/
structure Job where
  /-- Order of dispatch, and so of reservation (R82). -/
  id : Nat
  inst : Nat
  sq : Nat
  cq : Nat
  tag : Nat
  depTag : Nat
  opcode : Nat
  flags : Nat
  alg : Nat
  pset : Nat
  keyH : Nat
  ctxH : Nat
  /-- Key object whose handle check the job has passed, its KEK, and the context or stream it uses. -/
  keyIdx : Option Nat
  kekIdx : Option Nat
  ctxUse : Option Nat
  streamUse : Option Nat
  /-- Generation of that stream. -/
  streamGen : Nat
  inAddr : Nat
  inLen : Nat
  inFrags : Nat
  opt : Nat
  outAddr : Nat
  outLen : Nat
  outFrags : Nat
  opt2 : Nat
  /-- The fragments of each side as read from its table, where the read has succeeded (R72, R271). -/
  inTable : Option (List Frag)
  outTable : Option (List Frag)
  params : Bytes
  /-- The SEs of its chain. -/
  ses : List Bytes
  /-- Grove (R21, R22) and the engine whose slot it holds. -/
  grove : Nat
  engine : Nat
  /-- Granted in the sprint class, and runs to a sprint budget. -/
  sprint : Bool
  order2 : Bool
  dispatched : Nat
  /-- Start boundary (R43). -/
  start : Option Nat
  /-- Tick in which the job was last given a slice (R36). -/
  sliceTick : Option Nat
  /-- The present slice re-executes abandoned work (R36, class 1). -/
  rerun : Bool
  /-- Engine faults, and overruns, since the last commit point (R325, R35). -/
  strikes : Nat
  overruns : Nat
  budget : Nat
  /-- The output length it requires (R76), by which its envelope is sized (R278). -/
  need : Nat
  dep : Dep
  /-- The job whose hold it waits for (R221). -/
  waitsOn : Option Nat
  holds : List Hold
  /-- What a waiting job will hold when it resumes (R221). -/
  wants : List Hold
  result : Option JobResult
  /-- Tick of the job's own final commit, into its envelope or not. -/
  commitTick : Option Nat
  /-- The final commit has been made visible (R23, R276). -/
  committed : Bool
  /-- Ended by a boundary action: its CE is due at this boundary (R114, R116, R273, R284). -/
  endedAt : Option Nat
  /-- It ended without having been confirmed: only SPEC_ counters show it (R282). -/
  endedUnconfirmed : Bool
  /-- Ticks of work lost to fail-over, each counted once (R47). -/
  lostTicks : List Nat
  failover : Bool
  /-- Envelope units taken in the grove pool, or in the tether pool (R278, R286). -/
  envelope : Option Nat
  /-- Received a slice while unconfirmed (R289). -/
  ranAhead : Bool
  /-- Counted once as held back (R289). -/
  heldBack : Bool
  /-- Reservations of R243 and R250: objects, region bytes, shelf bytes, contexts. -/
  resKeys : Nat
  resBytes : Nat
  resShelf : Nat
  resCtx : Nat
  /-- One-time index taken, and that RESERVED_TO was advanced for it, the read-back of which is still to come (R166). -/
  index : Option Nat
  reserving : Bool
  /-- Jobs that run in attempts (R139, R140, R175): preparation is done, with the randomness drawn for the job; attempts 0 to
  `lowest` − 1 have all ended rejected; the attempt the job's own slice works on; the chosen attempt.  An RNG job with PR is
  prepared once it has asked for a block (R232), a KEY_DESTROY once it has sent KEY_DROP (R461). -/
  prepared : Bool
  rnd : Bytes
  lowest : Nat
  trying : Option Nat
  chosen : Option Nat
  /-- Further attempts, or further strands, of the job (R141, R152, R175). -/
  parts : List Part
  /-- Codes of the MXU commands whose results the job has collected (R185). -/
  mxuGot : List Nat
  /-- Tether member the job was sent to, when it runs there (R464). -/
  member : Option Nat
  /-- The RESULT of a tether job has arrived (R460). -/
  resultHere : Bool
  /-- JOB has been sent (R460, R464). -/
  sent : Bool
  /-- Origin of a tether job that runs here: member and the origin's job number. -/
  origin : Option (Nat × Nat)
  /-- The input as it lies in grove memory (R17): read from the host, or come in the message of a tether job. -/
  input : Option Bytes
  /-- Waits for a context to be moved here (R464). -/
  pulling : Bool
  /-- KEY_DROP answers still awaited by a KEY_DESTROY of a replicated object (R461). -/
  awaiting : List Nat
  deriving DecidableEq, Repr, Inhabited

/-- A job whose CE has been posted, kept for dependencies (R272). -/
structure Done where
  id : Nat
  inst : Nat
  tag : Nat
  status : Nat
  postedAt : Nat
  /-- The stream the job named or opened: its index and generation (R219). -/
  stream : Option (Nat × Nat)
  deriving DecidableEq, Repr, Inhabited

/-- Envelope units that are being zeroised (R281). -/
structure Zeroise where
  grove : Nat
  units : Nat
  freeAt : Nat
  deriving DecidableEq, Repr, Inhabited

/-! ### Tick, engines, dispatcher (01, 02) -/

/-- The TICK block and the tick generator (Tables 2.1 to 2.5). -/
structure TickBlock where
  /-- Boundaries since tick start; TICK_COUNT is its low 48 bits (R29). -/
  count : Nat
  running : Bool
  wrapped : Bool
  cfgReject : Bool
  rejValid : Bool
  rejInst : Nat
  rejOff : Nat
  insertEn : Bool
  deriving DecidableEq, Repr, Inhabited

/-- Power state of an engine's vector units, and what it does in the present tick (R37, R39). -/
structure Engine where
  svOn : Bool
  lvOn : Bool
  svIdle : Nat
  lvIdle : Nat
  /-- Cycles of the run window planned at the last boundary. -/
  planned : Nat
  /-- Planned a confirmed slice in the present tick. -/
  confirmed : Bool
  /-- Ticks in which it ran a confirmed slice (PERF_ENG_BUSY, 48 bits). -/
  busy : Nat
  /-- ID of the owner routine its overlay holds (R329). -/
  overlay : Option Nat
  deriving DecidableEq, Repr, Inhabited

/-- Per-grove state: key-cache slice in order of last use, DRBG and envelope pool. -/
structure Grove where
  /-- Key indices held, least recently used first (R257). -/
  cache : List Nat
  /-- DRBG instantiated, in its error state, boundary of its last reseed (R371). -/
  drbgUp : Bool
  drbgError : Bool
  drbgSeeded : Nat
  deriving DecidableEq, Repr, Inhabited

/-- A noise source (R368 to R370): its start-up test, the health tests over raw bits, the bits of the block it is filling. -/
structure Noise where
  /-- Raw bits taken since power-up or re-admission: the first 1,024 only pass the start-up test. -/
  started : Nat
  last : Bool
  run : Nat
  /-- Adaptive proportion: bits of the window taken, its first bit, occurrences of it. -/
  windowAt : Nat
  first : Bool
  ones : Nat
  bits : List Bool
  failures : Nat
  /-- Withdrawn, from this boundary on. -/
  out : Bool
  since : Nat
  deriving DecidableEq, Repr, Inhabited

/-- The entropy supply: sources, conditioned blocks not yet taken, and the requests that wait for one in order of arrival: the
grove whose DRBG is to be reseeded, and the RNG job the reseed is for (R232, R370, R371). -/
structure Entropy where
  sources : List Noise
  /-- Conditioned blocks with the source of each, oldest first. -/
  blocks : List (Nat × Bytes)
  /-- The source whose turn it is (R370). -/
  turn : Nat
  waiting : List (Nat × Option Nat)
  deriving DecidableEq, Repr, Inhabited

/-! ### Faults, health, recorder (14, 15) -/

/-- An event record (Table 15.5) with its sequence number; the time stamps are taken when it is
produced and CHECK is computed when it is read. -/
structure Rec where
  seq : Nat
  code : Nat
  flags : Nat
  suppressed : Nat
  unit : Nat
  htime : Nat
  tick : Nat
  p0 : Nat
  p1 : Nat
  p2 : Nat
  deriving DecidableEq, Repr, Inhabited

/-- The token bucket of a record code (R413). -/
structure Bucket where
  code : Nat
  rate : Nat
  depth : Nat
  /-- Tokens in units of 1 / 32768 of a record. -/
  level : Nat
  /-- Heartwood time of the last refill. -/
  last : Nat
  suppressed : Nat
  deriving DecidableEq, Repr, Inhabited

/-- A raise that waits for step 1 of the next boundary (R388). -/
structure Raise where
  source : Nat
  sev : Nat
  /-- Unit the raise names, or 0xFFFF. -/
  unit : Nat
  deriving DecidableEq, Repr, Inhabited

/-- STATE of a health-map entry (Table 14.5). -/
inductive UnitState where
  | serving | standby | degraded | withdrawn | failed | gone
  deriving DecidableEq, Repr, Inhabited

/-- A health-map entry (Table 14.5). -/
structure Health where
  unit : Nat
  state : UnitState
  info : Nat
  deriving DecidableEq, Repr, Inhabited

/-- A copy of the health map as published at one boundary (R391). -/
structure HealthCopy where
  epoch : Nat
  tick : Nat
  map : List Health
  deriving DecidableEq, Repr, Inhabited

/-- A record of the key shelf (R263, R264): the object without its material, standing for what Table 9.13a has no field for
(log entry 55); the lengths of the halves it has; its offset in the record area; its 64-byte header, and the material as
ciphertext, padded. -/
structure ShelfRec where
  key : KeyObj
  pubLen : Option Nat
  privLen : Option Nat
  off : Nat
  header : Bytes
  text : Bytes
  deriving DecidableEq, Repr, Inhabited

/-- The key shelf in SPI flash, and what heartwood MRAM holds for it (R263 to R266). -/
structure Shelf where
  /-- Epoch of the image and the epoch state MRAM holds. -/
  epoch : Nat
  mramEpoch : Nat
  /-- Sequence number of the standing header copy, and the two copies; empty where none has been written. -/
  seq : Nat
  hdrA : Bytes
  hdrB : Bytes
  /-- Offset in the record area at which the next record is written. -/
  tail : Nat
  /-- Records that stand, oldest first. -/
  records : List ShelfRec
  /-- The revocation list: key handle and owner, at most 4,096. -/
  revoked : List (Nat × Nat)
  deriving DecidableEq, Repr, Inhabited

/-! ### Grafts and routines (12) -/

/-- An entry of the owner routine table (Table 12.5), with its code. -/
structure Routine where
  id : Nat
  entry : Nat
  segBound : Nat
  budget : Nat
  sv : Bool
  lv : Bool
  keyAlg : Nat
  keyUsage : Nat
  inMax : Nat
  outMin : Nat
  /-- Instruction words. -/
  code : List Nat
  deriving DecidableEq, Repr, Inhabited

/-- A row of the vendor routine table that a LIBRARY section carries (Table 12.5). -/
structure VendorRow where
  op : Nat
  alg : Nat
  pset : Nat
  entry : Nat
  segBound : Nat
  budget : Nat
  sprint : Nat
  sv : Bool
  lv : Bool
  deriving DecidableEq, Repr, Inhabited

/-- A CATALOGUE entry (section type 0x08). -/
structure CatEntry where
  op : Nat
  alg : Nat
  pset : Nat
  budget : Nat
  sprint : Nat
  deriving DecidableEq, Repr, Inhabited

/-- The patch of a sequencer (R336, R347, R350): patch microwords, patch nanowords, trap entries (MATCH, TARGET). -/
structure Patch where
  micro : List (Nat × Nat)
  nano : List (Nat × Nat)
  trap : List (Nat × Nat)
  deriving DecidableEq, Repr, Inhabited

/-- STATE of the staging operation (Table 12.12). -/
inductive StageState where
  | idle | opened | checking | writing | done | failed
  deriving DecidableEq, Repr, Inhabited

/-- The staging registers and buffer of the GRAFT block (R359, R360). -/
structure Stage where
  state : StageState
  reason : Nat
  target : Nat
  len : Nat
  /-- Bytes received. -/
  buf : Bytes
  /-- The operation runs from this boundary; it ended before this one (R54, R359). -/
  since : Nat
  endedAt : Nat
  deriving DecidableEq, Repr, Inhabited

/-- Grafts and bundle: the four flash slots, what boot step 4 has loaded from them, the floor, staging (R351 to
R360). -/
structure Grafts where
  slotA : Bytes
  slotB : Bytes
  slotOwner : Bytes
  slotBundle : Bytes
  /-- Loaded GRAFT_VERSION and slot: 0 ROM, 1 GRAFT_A, 2 GRAFT_B. -/
  version : Nat
  slot : Nat
  reasonA : Nat
  reasonB : Nat
  okA : Bool
  okB : Bool
  owner : Bool
  ownerVersion : Nat
  bundle : Bool
  /-- OTP thermometer of the floor, 64 bits (R357). -/
  floorBits : Nat
  floorPending : Bool
  /-- FUSE_TO of the loaded image. -/
  fuseTo : Nat
  /-- Digests of the loaded vendor image, bundle and owner graft; empty for none. -/
  digest : Bytes
  bundleDigest : Bytes
  ownerDigest : Bytes
  /-- I-space words and routine table that replace the vendor library, when an image carries them. -/
  library : Option (List Nat)
  vendor : List VendorRow
  engine : Patch
  mxu : Patch
  catalogue : List CatEntry
  routines : List Routine
  stage : Stage
  deriving DecidableEq, Repr, Inhabited

/-! ### The engine: Alada state of a job (11) -/

/-- A 32-bit word with its secret tag (R319). -/
structure TWord where
  v : Word
  tag : Bool
  deriving DecidableEq, Repr, Inhabited

/-- A D-space word that is not an untagged zero: its word index. -/
structure DCell where
  idx : Nat
  v : Word
  tag : Bool
  deriving DecidableEq, Repr, Inhabited

/-- An SV register, 128 bits, and an LV register, 2,048 bits (Table 11.1). -/
structure SvReg where
  v : BitVec 128
  tag : Bool
  deriving DecidableEq, Repr, Inhabited

structure LvReg where
  v : BitVec 2048
  tag : Bool
  deriving DecidableEq, Repr, Inhabited

/-- A hash state (R305): the bytes absorbed since INIT stand for the Keccak or SHA-2 state, the bytes read for
the position in its output. -/
structure HashState where
  /-- RATE, FUNC and DOMAIN of HS_CTRL (Table 11.6). -/
  rate : Nat
  func : Nat
  domain : Nat
  absorbed : Bytes
  squeezed : Nat
  squeeze : Bool
  masked : Bool
  tagged : Bool
  busy : Bool
  deriving DecidableEq, Repr, Inhabited

/-- The architectural state of a job (Table 11.1), with the fault capture of Table 11.10. -/
structure Arch where
  /-- 13 bits. -/
  pc : Nat
  /-- Data stack and return stack, top first. -/
  ds : List TWord
  rs : List TWord
  /-- WORK, by word index in it, and the staged output, by word index in the job's output (R300). -/
  work : List DCell
  out : List DCell
  sv : List SvReg
  lv : List LvReg
  vcfg : Word
  vq : Word
  vbound : Word
  vtw : Word
  vstart : Word
  vtvec : Word
  vfaultElem : Word
  vfaultAddr : Word
  hash : List HashState
  inBase : Word
  outBase : Word
  jobStatus : Word
  jobResultLen : Word
  deriving DecidableEq, Repr, Inhabited

/-- A commit record in grove memory (R342): its state, its sequence number, whether it stands. -/
structure CommitRec where
  arch : Arch
  seq : Nat
  valid : Bool
  deriving DecidableEq, Repr, Inhabited

/-- A request at the key port (R304): SOURCE, DEST, and the material from OFFSET on. -/
structure KeyDelivery where
  source : Nat
  dest : Nat
  bytes : Bytes
  deriving DecidableEq, Repr, Inhabited

/-- A job on its engine: the shadow state of its slice, its two commit records, and what is not part of the
architectural state. -/
structure Run where
  job : Nat
  cur : Arch
  recA : CommitRec
  recB : CommitRec
  /-- Committed in the present tick, counted in the boundary window (R342). -/
  staged : Option Arch
  /-- The engine has been given up for the rest of the tick (YIELD, an abandoned slice). -/
  paused : Bool
  input : Bytes
  /-- KEY region by word index in it, a delivery that runs, and the bytes of the last one. -/
  key : List DCell
  delivery : Option KeyDelivery
  delivered : Nat
  hsSel : Nat
  /-- LD of the gather that a vector trap has stopped; `none` for a scatter (R318). -/
  trapLd : Option Nat
  declSrc : Word
  mbox : List Word
  mxu : List TWord
  deriving DecidableEq, Repr, Inhabited

/-- A micro-sequencer (R336): 0 to 271 are the engines', 272 to 287 the MXUs'. -/
structure Sequencer where
  id : Nat
  /-- 15-bit micro address: bank bit, then index. -/
  upc : Nat
  /-- Micro return stack, at most 8, top first. -/
  stack : List Nat
  deriving DecidableEq, Repr, Inhabited

/-- Phase of an MXU command (R185, R190, R187). -/
inductive MxuPhase where
  /-- Waits for a context to be free. -/
  | queued
  /-- In the validation stage, or waiting for it. -/
  | validating
  /-- Ready for the datapath. -/
  | ready
  | running
  /-- Ended: the result waits to be collected. -/
  | ended
  deriving DecidableEq, Repr, Inhabited

/-- An MXU command a job has issued (R185 to R197). -/
structure MxuCmd where
  job : Nat
  /-- Code of Table 7.1. -/
  code : Nat
  /-- MXU that holds it and the context it has. -/
  mxu : Nat
  ctx : Option Nat
  phase : MxuPhase
  /-- Order of issue. -/
  order : Nat
  /-- Tick in which it was issued. -/
  since : Nat
  /-- Tick in which the validation stage started on it. -/
  stageAt : Option Nat
  /-- Its context's operand RAM: the public operands, and the secret once the key port has delivered it (R183, R190). -/
  ram : Bytes
  secret : Option Bytes
  /-- Yield points passed at its last save record and in all (R187, R189).  The record stands for the operand RAM as it
  was after that many; its two copies in the save area of grove memory, and whether each passes its ECC. -/
  saved : Nat
  steps : Nat
  copyA : Bool
  copyB : Bool
  /-- It has ended and a commit point of its job, or a slice, has come since: its result is visible (R32). -/
  seen : Bool
  /-- Resumes after a fault or a fallback move (R187, class 1). -/
  resumed : Bool
  deriving DecidableEq, Repr, Inhabited

/-- A context of an MXU that is being zeroised, and the tick in which that began (R195). -/
structure MxuZero where
  mxu : Nat
  ctx : Nat
  since : Nat
  deriving DecidableEq, Repr, Inhabited

/-- What runs beneath the jobs: Alada states, sequencers, MXU commands. -/
structure Exec where
  runs : List Run
  seqs : List Sequencer
  mxu : List MxuCmd
  mxuZero : List MxuZero
  mxuOrder : Nat
  deriving DecidableEq, Repr, Inhabited

/-! ### The whole block -/

/-- The rings, jobs and dispatcher. -/
structure Work where
  sqs : List Sq
  cqs : List Cq
  jobs : List Job
  /-- Jobs that have been released and whose CE a CQ in ERROR holds (R85): in flight until it is posted. -/
  unposted : List Job
  /-- Next job number: jobs are numbered in order of dispatch. -/
  nextJob : Nat
  /-- Dependency table entries of jobs whose CE is posted (R272). -/
  done : List Done
  /-- Grants made in the present tick (R86). -/
  grants : Nat
  /-- Instance of the last sprint grant, for the rotation of R87. -/
  lastSprint : Nat
  /-- Envelope units being zeroised (R281); grove 16 is the tether pool. -/
  zeroising : List Zeroise
  /-- SPEC_ counters in the order of Table 10.7. -/
  spec : List Nat
  /-- General counters of Table 18.8, 48 bits each: CE, FAIL, EXT, FAILOVER, SPRINT, CQ_WAIT. -/
  perf : List Nat
  deriving DecidableEq, Repr, Inhabited

/-- Administration (04_instances.md). -/
structure Admin where
  primary : Nat
  cmds : List AdminCmd
  nextRef : Nat
  changes : List Change
  aborts : List Abort
  /-- Port pairs: PORT_A, PORT_B and whether PORT_B is the serving face (R120, R121). -/
  pairs : List (Nat × Nat × Bool)
  /-- Registered dump buffer: AF instance, IOVA, length (R418). -/
  dump : Option (Nat × Nat × Nat)
  deriving DecidableEq, Repr, Inhabited

/-- Keys, contexts and streams (06, 08, 09). -/
structure Store where
  keys : List KeyObj
  ctxs : List Ctx
  streams : List Stream
  /-- Generation to issue next at a freed index, where it is not 1 (R217, R238). -/
  keyGens : List (Nat × Nat)
  ctxGens : List (Nat × Nat)
  streamGens : List (Nat × Nat)
  /-- Counter records of stateful keys, at most 2,048 (R165). -/
  counters : List Counter
  /-- Free indices the stewards keep filled in the dispatcher (R384). -/
  keyPool : Nat
  ctxPool : Nat
  /-- The context cache, contexts and streams, least recently used first (R258). -/
  cache : List VaultTag
  deriving DecidableEq, Repr, Inhabited

/-- Fault collector, health map, pins (14). -/
structure Faults where
  /-- Sources whose severity in force differs from its default (R389). -/
  sev : List (Nat × Nat)
  /-- Raises waiting for the next boundary (R388). -/
  raises : List Raise
  /-- RAISED count of each source raised in this boot (Table 14.7). -/
  raised : List (Nat × Nat)
  degraded : Nat
  contained : Nat
  safe : Bool
  self : Bool
  injected : Bool
  first : Nat
  safeTick : Nat
  injSrc : Nat
  injMode : Nat
  injGo : Bool
  injDone : Bool
  injRefused : Bool
  injStatSrc : Nat
  /-- The authoritative map (R391), and entries that return or change at step 1 of the next boundary. -/
  map : List Health
  updates : List Health
  epoch : Nat
  /-- The maps published at the last three boundaries, newest first (R391). -/
  history : List HealthCopy
  /-- Boundary at which the map was last published. -/
  published : Nat
  /-- Levels of the pins: ALIVE, ERR_N, MG_ALERT_N (true: high or released). -/
  alive : Bool
  errN : Bool
  mgAlertN : Bool
  /-- Boundary of the last toggle of ALIVE (R397). -/
  aliveAt : Nat
  deriving DecidableEq, Repr, Inhabited

/-- The event recorder (R410 to R415). -/
structure Recorder where
  /-- SEQ of the next record, and HEAD as state MRAM holds it since the last flush (R412). -/
  head : Nat
  kept : Nat
  /-- Oldest SEQ held. -/
  tail : Nat
  /-- The 512-record buffer, oldest first. -/
  buf : List Rec
  /-- Ring slots that hold a record, by SEQ. -/
  ring : List Rec
  pinned : List Rec
  buckets : List Bucket
  /-- Boundary of the last flush. -/
  flushed : Nat
  deriving DecidableEq, Repr, Inhabited

/-- Life-cycle states (16). -/
inductive Lcs where
  | blank | test | provisioned | develop | deployed | returned | scrap | invalid
  deriving DecidableEq, Repr, Inhabited

/-- A MSI-X table entry that has been written (R483). -/
structure MsixEntry where
  vec : Nat
  addr : Nat
  data : Nat
  masked : Bool
  deriving DecidableEq, Repr, Inhabited

/-- MSI-X of one function (R483 to R485). -/
structure Msix where
  inst : Nat
  enable : Bool
  funcMask : Bool
  entries : List MsixEntry
  /-- Pending bits. -/
  pba : List Nat
  /-- Vectors that sent a message, with the boundary (R485). -/
  sent : List (Nat × Nat)
  deriving DecidableEq, Repr, Inhabited

/-- A write issued through a port in the last two ticks, over its bus pieces: address and length (R121). -/
structure RecentWrite where
  port : Nat
  issued : Nat
  pieces : List (Nat × Nat)
  bytes : Bytes
  deriving DecidableEq, Repr, Inhabited

/-- What each host port keeps. -/
structure Port where
  /-- Present under the split, with its split width (Table 18.1). -/
  present : Bool
  maxWidth : Nat
  /-- Data Link Layer up, in L0, negotiated speed (0 DOWN; 3, 4, 5) and width (R475, Table 18.9). -/
  dlUp : Bool
  l0 : Bool
  /-- The link went down and has not come up since (R93). -/
  fell : Bool
  speed : Nat
  linkWidth : Nat
  recoveries : Nat
  /-- PORT_EVENTS, 7 bits. -/
  events : Nat
  /-- Serving-face moves of its pair. -/
  moves : Nat
  vfEnable : Bool
  numVfs : Nat
  ari : Bool
  /-- Functions of the port in D3hot (R481). -/
  d3 : List Nat
  /-- A port reset waits for step 3 of the next boundary (R486). -/
  resetDue : Bool
  /-- Latches of R30: the upper halves of TICK_COUNT, heartwood time, TETHER_TICK_OFF and of each counter read. -/
  tickHi : Nat
  timeHi : Nat
  offHi : Nat
  specHi : List Nat
  perfHi : List Nat
  admq : Admq
  datu : DatuFault
  health : HealthCopy
  /-- Selectors and cursors of the port. -/
  healthSel : Nat
  sevSel : Nat
  perfSel : Nat
  tmpSel : Nat
  recArea : Bool
  recAuto : Bool
  recCursor : Nat
  rateSel : Nat
  listSel : Nat
  snapSlot : Nat
  snapChunk : Nat
  deriving DecidableEq, Repr, Inhabited

/-- A tamper channel: its configuration (R406), its filter window, newest sample first (R405), and HWD_TMP_STATE. -/
structure Tamper where
  enable : Bool
  rank : Nat
  n : Nat
  w : Nat
  polarity : Bool
  window : List Bool
  /-- The tick of its last sample on VDD (R404). -/
  sampledAt : Option Nat
  fired : Bool
  lastRank : Nat
  count : Nat
  deriving DecidableEq, Repr, Inhabited

/-- A channel of a decision set: its number, its detail, the second parameter of its record (R408, Table 15.6). -/
structure Firing where
  ch : Nat
  detail : Nat
  lights : Nat
  deriving DecidableEq, Repr, Inhabited

/-- Snapshots (R417). -/
structure Snap where
  /-- SNAP_SEQ of the next snapshot. -/
  next : Nat
  /-- HWD_SNAP_TRIG bits 5:1. -/
  trig : Nat
  list : List Nat
  /-- The slots that hold a snapshot. -/
  slots : List (Nat × Bytes)
  /-- Triggers of the present tick, and those dropped by the rate limit. -/
  due : Nat
  missed : Nat
  /-- Boundary of the last rate-limited snapshot. -/
  lastAt : Option Nat
  deriving DecidableEq, Repr, Inhabited

/-- A section of the dump as composed (Table 15.6b): its fixed bytes and its entries. -/
structure DumpSec where
  kind : Nat
  head : Bytes
  rows : List Bytes
  deriving DecidableEq, Repr, Inhabited

/-- The fatal-state dump (R418 to R420). -/
structure Dump where
  /-- A safe-state entry waits for its dump. -/
  due : Bool
  /-- STATE, REASON and LENGTH_KIB of HWD_DUMP_STATUS. -/
  state : Nat
  reason : Nat
  kib : Nat
  /-- Dump sequence, in state MRAM. -/
  seq : Nat
  /-- The map published at safe-state entry, and the jobs that were in flight then. -/
  health : HealthCopy
  jobs : Nat
  /-- The sections, once composed. -/
  secs : List DumpSec
  deriving DecidableEq, Repr, Inhabited

/-- Heartwood: supply, key, responses and the tamper channels (15). -/
structure Hwd where
  /-- VDD_CORE and VDD_IO within their ranges; the cell voltage in mV (R400). -/
  vdd : Bool
  vbak : Nat
  xtalStopped : Bool
  /-- The heartwood key and its state MRAM copy. -/
  key : Option Bytes
  keyCopy : Option Bytes
  /-- The time counter was lost since the last boot; this boot followed a cold start (R403). -/
  lost : Bool
  cold : Bool
  /-- Heartwood time of the last loss of VDD. -/
  lossTime : Nat
  /-- Records held in retention SRAM, and those dropped on VBAK (R414). -/
  retention : List Rec
  dropped : Nat
  channels : List Tamper
  /-- Decision sets that wait, oldest first, each with its sample instant (R408). -/
  sets : List (Nat × List Firing)
  /-- Highest rank whose response stands. -/
  applied : Nat
  /-- THROTTLE is in force (Table 15.3). -/
  throttle : Bool
  rankSeen : Nat
  erased : Bool
  /-- A GLITCH_ALARM since the last sample of channel 12. -/
  glitch : Bool
  snap : Snap
  dump : Dump
  deriving DecidableEq, Repr, Inhabited

/-- The life-cycle fuses (R423 to R430). -/
structure Otp where
  /-- Copies A and B of F1 to F6, 16 bits each. -/
  fields : List (Nat × Nat)
  /-- D_TEST, D_PROV, D_OWNER, D_SCRAP_V; empty when not programmed. -/
  vendor : List Bytes
  /-- The 160-byte data block of Table 16.4. -/
  block : Bytes
  /-- Attestation seed. -/
  seed : Bytes
  /-- OTP secrets and trims overwritten by the SCRAP wipe (Table 16.7). -/
  wiped : Bool
  deriving DecidableEq, Repr, Inhabited

/-- The life cycle in force and what LCS_STATE, LCS_XSTATUS and LCS_DEBUG show (Table 16.9). -/
structure LcsBlock where
  state : Lcs
  /-- The target of a pending transition. -/
  pending : Option Nat
  /-- A transition completed in this boot. -/
  done : Bool
  phase : Nat
  lastDetail : Nat
  mismatches : Nat
  /-- The lockout of R424 holds until this boundary. -/
  lockout : Option Nat
  challenge : Option Bytes
  debugOpen : Bool
  /-- Wipe item reached on the scrap path (R432). -/
  wipe : Nat
  fwVersion : Nat
  otp : Otp
  deriving DecidableEq, Repr, Inhabited

/-- A steward pair: its program counter, memory words that are not 0, pending events (R442 to R444), resets (R384). -/
structure Steward where
  pc : Nat
  mem : List (Nat × Word)
  events : Nat
  resetting : Bool
  /-- Boundary of the previous reset. -/
  resetAt : Option Nat
  resets : Nat
  deriving DecidableEq, Repr, Inhabited

/-- Power and temperature (R503, R511 to R515). -/
structure Power where
  /-- Envelope in force, 1 to 3, and the thermal limit L in W. -/
  envelope : Nat
  limit : Nat
  level : Nat
  /-- Level 4 forced by a supply, and by TJ_HIGH. -/
  supply : Bool
  hot : Bool
  /-- TJ_CRIT has been raised for the present excursion. -/
  crit : Bool
  /-- Averaged junction temperature in °C. -/
  tj : Int
  /-- The regulator answers over AVSBus; the VDD_CORE setpoint in steps of 2.5 mV and when it last changed. -/
  avs : Bool
  setpoint : Nat
  avsAt : Option Nat
  deriving DecidableEq, Repr, Inhabited

/-- The package: reset and power pins, straps as sampled, identity (R493, R501, R510). -/
structure Pins where
  resetN : Bool
  pwrFailN : Bool
  /-- A boot is held at step 1 by PWR_FAIL_N. -/
  held : Bool
  /-- Boot steps completed, 0 to 8. -/
  boot : Nat
  role : Nat
  split : Nat
  mgAddr : Nat
  stepping : Nat
  grade : Nat
  identity : Bytes
  /-- The last answer given by the management interface, the JTAG port or a configuration read. -/
  answer : Bytes
  deriving DecidableEq, Repr, Inhabited

/-- STATE of a tether link (Table 17.11). -/
inductive LinkState where
  | down | training | discovery | paired | lost
  deriving DecidableEq, Repr, Inhabited

/-- A message being received on a virtual channel of a link (R457). -/
structure Assembly where
  vc : Nat
  bytes : Bytes
  deriving DecidableEq, Repr, Inhabited

/-- A tether link L = 2·port + half (R447 to R457). -/
structure TLink where
  split : Bool
  state : LinkState
  peer : Nat
  width : Nat
  naks : Nat
  retrains : Nat
  /-- Next expected SEQ, NAKs in a row, the last answer: NAK and its ACKSEQ. -/
  rxSeq : Nat
  nakRow : Nat
  nak : Bool
  parts : List Assembly
  /-- A length mismatch stands through a retrain (R457). -/
  badLength : Bool
  /-- Paired before the retrain that runs; the last ACKSEQ the peer sent, and whether it asked for a replay. -/
  was : Bool
  ackSeq : Nat
  replay : Bool
  /-- Discovery was refused, last tried at this boundary; what the manager's CHARTER offered: the secret from which its keys
  derive, and the message (R451). -/
  refused : Bool
  tried : Nat
  seed : Bytes
  offer : Bytes
  deriving DecidableEq, Repr, Inhabited

/-- A member of the charter as this device knows it (Tables 17.4, 17.11; R459, R460). -/
structure Member where
  num : Nat
  role : Nat
  parent : Nat
  parentLink : Nat
  joined : Bool
  lost : Bool
  /-- Boundary of its last BEAT, and the free job slots that carried. -/
  beat : Nat
  free : Nat
  /-- Last CTR accepted from it, plus one (R452). -/
  ctr : Nat
  /-- CTR of the next message to it. -/
  ctrOut : Nat
  /-- The pair secret: two keys and a salt, 72 bytes (R451). -/
  pair : Bytes
  deriving DecidableEq, Repr, Inhabited

/-- A message handed to the tether: SRC, DST, CTR, TYPE, ENC and the body (Tables 17.7, 17.8); with ENC the body is the
ciphertext and the GCM tag (R452). -/
structure TOut where
  src : Nat
  dst : Nat
  ctr : Nat
  kind : Nat
  enc : Bool
  body : Bytes
  deriving DecidableEq, Repr, Inhabited

/-- The tether, the canopy and the device's place in it (17). -/
structure Tether where
  /-- Role now held, coded as the straps. -/
  active : Nat
  joined : Bool
  /-- 0 FUNNEL, 1 SPREAD. -/
  mode : Nat
  canopy : Nat
  member : Nat
  /-- The charter held, and the highest SERIAL accepted since boot plus one. -/
  charter : Option Bytes
  serial : Nat
  members : List Member
  /-- Peer canopies of the charter. -/
  peers : List Nat
  /-- Canopy tick minus TICK_COUNT, 48 bits. -/
  off : Nat
  syncs : Nat
  syncErr : Int
  links : List TLink
  authErr : Nat
  lengthErr : Nat
  /-- Boundary of the last BEAT of the manager; a TAKEOVER received and not yet accepted. -/
  managerBeat : Nat
  takeover : Bool
  orphan : Bool
  /-- Members whose loss waits for step 3 of the next boundary (R466). -/
  losing : List Nat
  /-- Contexts homed here and held elsewhere: context index, member and owner (R464). -/
  away : List (Nat × Nat × Nat)
  /-- Contexts that jobs sent to other members created there for an unbound instance: handle and owner (R118, R464). -/
  abroad : List (Nat × Nat)
  /-- The member that is manager, and the link that is this device's uplink (R469). -/
  manager : Nat
  uplink : Nat
  /-- Devices of other canopies paired over the ring and shadow links, by canopy and member (R471). -/
  ring : List Member
  /-- Pair keys the manager has drawn for two members (R451). -/
  pairKeys : List (Nat × Nat × Bytes)
  /-- Jobs forwarded to a holder (origin, job, holder), and contexts homed here whose move is under way: handle and
  destination (R464, R465). -/
  passed : List (Nat × Nat × Nat)
  moves : List (Nat × Nat)
  /-- JOB messages that wait for a disposition or a job slot: SRC and body (R288). -/
  held : List (Nat × Bytes)
  /-- TENANT_BINDs that wait for the next boundary (R450). -/
  binds : List (Nat × Nat)
  /-- A DISSOLVE in progress: the admin command and whether the manager leaves at the next boundary. -/
  dissolve : Option Nat
  /-- Messages handed to the links, in order. -/
  out : List TOut
  /-- Messages received whole, in order: link and bytes (R457). -/
  inbox : List (Nat × Bytes)
  deriving DecidableEq, Repr, Inhabited

structure State where
  /-- Commands that wait, first in, first out. -/
  pending : List Instr
  tick : TickBlock
  work : Work
  adm : Admin
  insts : List Inst
  tlb : List Leaf
  ports : List Port
  msix : List Msix
  /-- Functions whose Bus Master Enable is set (R481). -/
  busMaster : List Nat
  writes : List RecentWrite
  store : Store
  shelf : Shelf
  grafts : Grafts
  hwd : Hwd
  exec : Exec
  entropy : Entropy
  stw : Steward
  power : Power
  pins : Pins
  tether : Tether
  groves : List Grove
  engines : List Engine
  /-- Mask generators: the Keccak-f[1600] duplex states of engines 0 to 271, then of MXUs 0 to 15 (R372). -/
  masks : List Nat
  faults : Faults
  recd : Recorder
  htime : Nat
  life : LcsBlock
  vault : Vault
  /-- Size in bytes of the SPI flash, as its SFDP density reports (R264). -/
  flashSize : Nat
  /-- Power-fail stop (R416). -/
  stopped : Bool
  /-- The engine clock has stopped for a PLL switchover; whether a boundary waits for it (R383). -/
  pllGap : Option Bool
  /-- Host memory by bus address (R17): rising addresses, no entry equal to `Mem.blank`. -/
  hostMem : List Host.Cell
  /-- Bus addresses whose reads fail (R482). -/
  hostDeaf : List Deaf
  /-- Number of free values taken so far (the model's own field). -/
  freeCtr : Nat
  deriving DecidableEq, Repr, Inhabited

/-- Reasons a command stops the block with a fault. -/
inductive Fault where
  /-- No command of the table stops the block: nothing raises this.  Safe: the model would stop where the
  hardware goes on. -/
  | none
  deriving DecidableEq, Repr

/-- Reasons a command is refused. -/
inductive Refusal where
  /-- Raised by an arm of `exec` whose command has no meaning yet.  Safe: nothing is claimed of it. -/
  | notModelled (mnemonic : String)
  deriving DecidableEq, Repr

/-! ### Reset

Before its first POWER_UP the device is dark: nothing volatile is held, every register has its reset value.  It has left
the factory PROVISIONED (R5); what the spec gives no value for is in log entries 3 and 27. -/

/-- Table 15.2: ENABLE, RANK, N, W of the sixteen channels; POLARITY is low. -/
def tamperDefaults : List Tamper :=
  let c (e : Bool) (n w r : Nat) : Tamper :=
    { enable := e, rank := r, n := n, w := w, polarity := false, window := [], sampledAt := none, fired := false, lastRank := 0, count := 0 }
  [c true 4 16 4, c true 1 1 4, c true 2 64 2, c true 2 64 2, c true 2 4 3, c true 2 4 1, c true 1 1 0, c true 1 1 0,
   c false 2 8 0, c false 2 8 0, c false 2 8 0, c false 2 8 0, c true 4 4096 2, c false 1 1 0, c false 1 1 0, c false 1 1 0]

/-- The default snapshot list (R417). -/
def snapDefaults : List Nat :=
  [0x0C00, 0x0C04, 0x0C08, 0x0C0C, 0x0C10, 0x0808, 0x0100, 0x0108, 0x1200]

def TickBlock.reset : TickBlock :=
  { count := 0, running := false, wrapped := false, cfgReject := false, rejValid := false, rejInst := 0, rejOff := 0,
    insertEn := true }

def Engine.reset : Engine :=
  { svOn := false, lvOn := false, svIdle := 0, lvIdle := 0, planned := 0, confirmed := false, busy := 0, overlay := none }

def Grove.reset : Grove := { cache := [], drbgUp := false, drbgError := false, drbgSeeded := 0 }

def Noise.reset : Noise :=
  { started := 0, last := false, run := 0, windowAt := 0, first := false, ones := 0, bits := [], failures := 0,
    out := false, since := 0 }

/-- An admin queue that has never been enabled: ADMQ_CFG resets to 16 entries (Table 4.1). -/
def Admq.reset : Admq :=
  { (default : Admq) with cqLog2 := 4, sqLog2 := 4, sq := { (default : Sq) with state := .absent },
                          cq := { (default : Cq) with state := .absent } }

def Port.reset : Port := { (default : Port) with admq := Admq.reset }

def Faults.reset : Faults :=
  { sev := [], raises := [], raised := [], degraded := 0, contained := 0, safe := false, self := false, injected := false,
    first := 0, safeTick := 0, injSrc := 0, injMode := 0, injGo := false, injDone := false, injRefused := false,
    injStatSrc := 0, map := [], updates := [], epoch := 0, history := [], published := 0, alive := false, errN := false,
    mgAlertN := true, aliveAt := 0 }

def Hwd.reset : Hwd :=
  { vdd := false, vbak := 0, xtalStopped := false, key := none, keyCopy := none, lost := true, cold := false, lossTime := 0,
    retention := [], dropped := 0, channels := tamperDefaults, sets := [], applied := 0, throttle := false, rankSeen := 0,
    erased := false, glitch := false,
    snap := { next := 0, trig := 2, list := snapDefaults, slots := [], due := 0, missed := 0, lastAt := none },
    dump := { due := false, state := 0, reason := 0, kib := 0, seq := 0, health := default, jobs := 0, secs := [] } }

/-- No keys, nothing sealed. -/
def Vault.reset : Vault :=
  { nonce := [], keys := none, copies := [[], []], root := List.replicate 32 0, nodes := [], touched := [], turn := 0, objs := [],
    fixed := false, bad := false }

/-- F1 and F2 are programmed, the token digest slots hold digests of 32 zero bytes, and no owner data (R5, R423). -/
def Otp.reset : Otp :=
  { fields := [(0xFFFF, 0xFFFF), (0xFFFF, 0xFFFF), (0, 0), (0, 0), (0, 0), (0, 0)],
    vendor := List.replicate 4 (List.replicate 32 0), block := List.replicate 160 0, seed := List.replicate 32 0,
    wiped := false }

def LcsBlock.reset : LcsBlock :=
  { state := .provisioned, pending := none, done := false, phase := 0, lastDetail := 0, mismatches := 0,
    lockout := some 1000000, challenge := none, debugOpen := false, wipe := 0, fwVersion := 0, otp := Otp.reset }

def TLink.reset : TLink :=
  { split := false, state := .down, peer := 0, width := 0, naks := 0, retrains := 0, rxSeq := 0, nakRow := 0, nak := false,
    parts := [], badLength := false, was := false, ackSeq := 0, replay := false, refused := false, tried := 0, seed := [], offer := [] }

def Tether.reset : Tether :=
  { active := 0, joined := false, mode := 0, canopy := 0, member := 0, charter := none, serial := 0, members := [],
    peers := [], off := 0, syncs := 0, syncErr := 0, links := List.replicate 8 TLink.reset, authErr := 0, lengthErr := 0,
    managerBeat := 0, takeover := false, orphan := false, losing := [], away := [], manager := 0, uplink := 0, ring := [], pairKeys := [],
    abroad := [], passed := [], moves := [], held := [], binds := [],
    dissolve := none, out := [], inbox := [] }

/-- The block right after reset. -/
def State.reset : State :=
  { pending := [], tick := TickBlock.reset,
    work := { sqs := [], cqs := [], jobs := [], unposted := [], nextJob := 0, done := [], grants := 0, lastSprint := 0, zeroising := [],
              spec := List.replicate 7 0, perf := List.replicate 6 0 },
    adm := { primary := 0, cmds := [], nextRef := 0, changes := [], aborts := [], pairs := [], dump := none },
    insts := [], tlb := [], ports := List.replicate 4 Port.reset, msix := [], busMaster := [], writes := [],
    store := { keys := [], ctxs := [], streams := [], keyGens := [], ctxGens := [], streamGens := [], counters := [],
               keyPool := 1024, ctxPool := 4096, cache := [] },
    shelf := { epoch := 0, mramEpoch := 0, seq := 0, hdrA := [], hdrB := [], tail := 0, records := [], revoked := [] },
    grafts := default, hwd := Hwd.reset,
    exec := { runs := [], seqs := [], mxu := [], mxuZero := [], mxuOrder := 0 },
    entropy := { sources := List.replicate 4 Noise.reset, blocks := [], turn := 0, waiting := [] },
    stw := { pc := 0, mem := [], events := 0, resetting := false, resetAt := none, resets := 0 },
    power := { envelope := 1, limit := 25, level := 0, supply := false, hot := false, crit := false, tj := 0, avs := false,
               setpoint := 300, avsAt := none },
    pins := { resetN := false, pwrFailN := true, held := false, boot := 0, role := 0, split := 0, mgAddr := 0,
              stepping := 0, grade := 0, identity := List.replicate 16 0, answer := [] },
    tether := Tether.reset, groves := List.replicate 16 Grove.reset, engines := List.replicate 272 Engine.reset,
    masks := List.replicate 288 0,
    faults := Faults.reset,
    recd := { head := 0, kept := 0, tail := 0, buf := [], ring := [], pinned := [], buckets := [], flushed := 0 },
    htime := 0, life := LcsBlock.reset, vault := Vault.reset, flashSize := 67108864, stopped := false, pllGap := none,
    hostMem := [], hostDeaf := [], freeCtr := 0 }

end Sys2Proof.Machine
end

