-- ==== Sys2Proof/Machine/Ops.lean ====
section
/-! DEFINITION. The named operations over memory, records, faults, address translation and interrupts
that every meaning shares. -/

namespace Sys2Proof.Machine

/-! ### Host memory -/

/-- What a byte of host memory that nothing has written reads as (log entry 2, DESIGN CHOICE). -/
def Mem.blank : Byte := 0

/-- The byte at a bus address. -/
def Mem.read : List Host.Cell → Nat → Byte
  | [], _ => Mem.blank
  | (a, b) :: m, x => if a = x then b else Mem.read m x

/-- Write one byte, keeping the canonical form. -/
def Mem.write : List Host.Cell → Nat → Byte → List Host.Cell
  | [], x, v => if v = Mem.blank then [] else [(x, v)]
  | (a, b) :: m, x, v =>
    if x < a then (if v = Mem.blank then (a, b) :: m else (x, v) :: (a, b) :: m)
    else if x = a then (if v = Mem.blank then m else (x, v) :: m)
    else (a, b) :: Mem.write m x v

/-- The canonical form: rising addresses and no entry equal to `Mem.blank`. -/
abbrev Mem.wf (m : List Host.Cell) : Prop :=
  m.Pairwise (fun x y => x.1 < y.1) ∧ ∀ x ∈ m, x.2 ≠ Mem.blank

/-- The `n` bytes from an address. -/
def Mem.readBytes (m : List Host.Cell) (a n : Nat) : Bytes :=
  (List.range n).map fun i => Mem.read m (a + i)

/-- Write bytes from an address on. -/
def Mem.writeBytes (m : List Host.Cell) (a : Nat) : Bytes → List Host.Cell
  | [] => m
  | b :: bs => Mem.writeBytes (Mem.write m a b) (a + 1) bs

/-! ### Time -/

/-- The number of the last tick boundary since tick start. -/
def now (s : State) : Nat := s.tick.count

/-- TICK_COUNT (R29): 48 bits, zero before tick start. -/
def tickCount (s : State) : Nat := s.tick.count % 2 ^ 48

/-! ### Where the device stands -/

/-- The life-cycle state in force (R422, R428). -/
def State.lcs (s : State) : Lcs := s.life.state

/-- Is the device SOLO, by its ROLE straps (Table 17.1)? -/
def State.solo (s : State) : Bool := s.pins.role == 0

/-- Has it joined a canopy? -/
def State.joined (s : State) : Bool := s.tether.joined

/-- Canopy and member number that go into the handles of its contexts (R237). -/
def State.homeCanopy (s : State) : Nat := if s.solo then 0 else s.tether.canopy
def State.homeDevice (s : State) : Nat := if s.solo then 0 else s.tether.member

/-- Code of this device in SRC and DST: canopy and member (Table 17.7). -/
def State.selfId (s : State) : Nat := s.tether.canopy * 16 + s.tether.member

/-- The header of Table 17.7. -/
def msgHeader (kind src dst len ctr : Nat) : Bytes :=
  leBytes 1 kind ++ leBytes 1 1 ++ leBytes 1 src ++ leBytes 1 dst ++ leBytes 4 len ++ leBytes 8 ctr

/-- Key and IV of a direction of a pair secret: two keys, then two salts; the device of the lower code has the first of each
(R451, R452; which is whose is not published, log entry 56). -/
def sealKey (pair : Bytes) (up : Bool) : Bytes := if up then pair.take 32 else sub pair 32 32
def sealIv (pair : Bytes) (up : Bool) (ctr : Nat) : Bytes := (if up then sub pair 64 4 else sub pair 68 4) ++ leBytes 8 ctr

/-- A body encrypted with AES-256-GCM under a pair secret, the header as AAD, the tag after it (R452). -/
@[irreducible] def sealBody (pair : Bytes) (up : Bool) (kind src dst ctr : Nat) (b : Bytes) : Bytes :=
  let ct := Gcm.crypt (sealKey pair up) (sealIv pair up ctr) b
  ct ++ Gcm.tag (sealKey pair up) (sealIv pair up ctr) (msgHeader kind src dst b.length ctr) ct

/-- The plaintext of a sealed body, where its tag holds. -/
@[irreducible] def openBody (pair : Bytes) (up : Bool) (kind src dst ctr : Nat) (m : Bytes) : Option Bytes :=
  let n := m.length - 16
  let ct := m.take n
  if Gcm.tag (sealKey pair up) (sealIv pair up ctr) (msgHeader kind src dst n ctr) ct == m.drop n then
    some (Gcm.crypt (sealKey pair up) (sealIv pair up ctr) ct)
  else none

/-- The device whose pair key carries a message on: DST itself in the own canopy and on the ring; for another canopy the ring
manager next to this one, and from a member its manager (R452, R471). -/
def hopTo (s : State) (dst : Nat) : Nat :=
  if dst / 16 = s.tether.canopy ∨ s.tether.ring.any (·.num == dst) then dst
  else if s.tether.active = 1 then
    (((s.tether.ring.find? (·.num / 16 == dst / 16)).orElse fun _ => s.tether.ring.head?).map (·.num)).getD dst
  else s.tether.canopy * 16 + s.tether.manager

/-- What this device holds for a device it is paired with. -/
def peerEntry (s : State) (d : Nat) : Member :=
  ((s.tether.members.find? fun m => s.tether.canopy * 16 + m.num == d).orElse
    fun _ => s.tether.ring.find? (·.num == d)).getD default

/-- Hand a message to the tether: SRC, DST, TYPE and body, sealed for the device that carries it on; the CTR to that device
rises (R452, Table 17.8). -/
def sendAs (s : State) (src dst kind : Nat) (body : Bytes) : State :=
  let h := hopTo s dst
  let x := peerEntry s h
  { s with
    tether.out := s.tether.out
      ++ [⟨src, dst, x.ctrOut, kind, true, sealBody x.pair (s.selfId < h) kind src dst x.ctrOut body⟩],
    tether.members := updWhere (fun m => s.tether.canopy * 16 + m.num == h)
      (fun m => { m with ctrOut := m.ctrOut + 1 }) s.tether.members,
    tether.ring := updWhere (·.num == h) (fun m => { m with ctrOut := m.ctrOut + 1 }) s.tether.ring }

/-- A message of this device's own. -/
def sendMsg (s : State) (dst kind : Nat) (body : Bytes) : State := sendAs s s.selfId dst kind body

/-- A message of discovery or pairing, unencrypted (R451). -/
def sendClear (s : State) (src dst : Nat) (body : Bytes) : State :=
  { s with tether.out := s.tether.out ++ [⟨src, dst, 0, 6, false, body⟩] }

/-- Members of the canopy, other than this device, that have joined and are not lost. -/
def State.peersJoined (s : State) : List Nat :=
  (s.tether.members.filter fun m => m.joined && !m.lost && m.num != s.tether.member).map fun m =>
    s.tether.canopy * 16 + m.num

/-- Is this the manager of a FUNNEL canopy (R460)? -/
def State.funnels (s : State) : Bool := s.tether.joined && s.tether.mode == 0 && s.tether.active == 1

/-! ### Free values -/

/-- `n` free bytes and the state that has used them up (log entry 5). -/
def takeFree (s : State) (n : Nat) : Bytes × State :=
  ((List.range n).map fun i => Config.freeByte (s.freeCtr + i), { s with freeCtr := s.freeCtr + n })

/-- One free truth value. -/
def takeFreeBool (s : State) : Bool × State :=
  (Config.freeBool s.freeCtr, { s with freeCtr := s.freeCtr + 1 })

/-- One free number. -/
def takeFreeNat (s : State) : Nat × State :=
  (Config.freeNat s.freeCtr, { s with freeCtr := s.freeCtr + 1 })

/-! ### Lookup and update -/

def State.port (s : State) (p : Nat) : Port := s.ports.getD p default

def State.updPort (s : State) (p : Nat) (f : Port → Port) : State :=
  { s with ports := s.ports.modify p f }

def State.inst? (s : State) (i : Nat) : Option Inst := s.insts.find? (·.id == i)

def State.updInst (s : State) (i : Nat) (f : Inst → Inst) : State :=
  { s with insts := updWhere (·.id == i) f s.insts }

def State.sq? (s : State) (i q : Nat) : Option Sq :=
  s.work.sqs.find? fun x => x.inst == i && x.num == q

def State.updSq (s : State) (i q : Nat) (f : Sq → Sq) : State :=
  { s with work.sqs := updWhere (fun x => x.inst == i && x.num == q) f s.work.sqs }

def State.cq? (s : State) (i q : Nat) : Option Cq :=
  s.work.cqs.find? fun x => x.inst == i && x.num == q

def State.updCq (s : State) (i q : Nat) (f : Cq → Cq) : State :=
  { s with work.cqs := updWhere (fun x => x.inst == i && x.num == q) f s.work.cqs }

/-- Jobs in flight: dispatched, their CE not posted (Table 4.9); those whose CE a CQ in ERROR holds are among them. -/
def State.flying (s : State) : List Job := s.work.jobs ++ s.work.unposted

/-- The job in flight of a number. -/
def State.flying? (s : State) (j : Nat) : Option Job := s.flying.find? (·.id == j)

def State.job? (s : State) (j : Nat) : Option Job := s.work.jobs.find? (·.id == j)

def State.updJob (s : State) (j : Nat) (f : Job → Job) : State :=
  { s with work.jobs := updWhere (·.id == j) f s.work.jobs }

def State.run? (s : State) (j : Nat) : Option Run := s.exec.runs.find? (·.job == j)

def State.updRun (s : State) (j : Nat) (f : Run → Run) : State :=
  { s with exec.runs := updWhere (·.job == j) f s.exec.runs }

/-- Port of an instance ID (R91). -/
def portOf (inst : Nat) : Nat := inst / 256

/-! ### Event records (R410 to R413) -/

/-- Codes that bypass the token bucket: BOOT, POWER_FAIL, SAFE_STATE, tamper records (R413). -/
def recordExempt (code sev : Nat) : Bool :=
  code == 1 || code == 2 || code == 3 || sev == 4 || (0x2000 ≤ code && code < 0x3000)

/-- The bucket of a code as it stands at heartwood time `h`: full at boot, RATE 8 and DEPTH 8. -/
def bucketOf (bs : List Bucket) (code h : Nat) : Bucket :=
  match bs.find? (·.code == code) with
  | some b => { b with level := min (b.depth * 32768) (b.level + (h - b.last) * b.rate), last := h }
  | none => { code := code, rate := 8, depth := 8, level := 8 * 32768, last := h, suppressed := 0 }

/-- Put back a bucket. -/
def putBucket (bs : List Bucket) (b : Bucket) : List Bucket :=
  b :: bs.filter (·.code != b.code)

/-- Response rank that a tamper record carries; 0 for any other record. -/
def Rec.rank (r : Rec) : Nat := if 0x2000 ≤ r.code ∧ r.code < 0x3000 then r.p2 % 8 else 0

/-- Replace the first record of a rank below `k`. -/
def replaceLower (k : Nat) (r : Rec) : List Rec → Option (List Rec)
  | [] => none
  | x :: xs => if x.rank < k then some (xs ++ [r]) else (replaceLower k r xs).map (x :: ·)

/-- A record on VBAK alone: to the ring at 2.5 V or above, else to retention SRAM, where a full one gives way to tamper
records of rank 3 or 4 (R414). -/
def storeBackup (s : State) (r : Rec) : State :=
  if 2500 ≤ s.hwd.vbak then
    let ring := s.recd.ring ++ [r]
    { s with recd.ring := ring.drop (ring.length - 24576), recd.head := (s.recd.head + 1) % 2 ^ 32,
             recd.kept := (s.recd.head + 1) % 2 ^ 32 }
  else if s.hwd.retention.length < 64 then { s with hwd.retention := s.hwd.retention ++ [r] }
  else match (if 3 ≤ r.rank then replaceLower r.rank r s.hwd.retention else none) with
    | some l => { s with hwd.retention := l }
    | none => { s with hwd.dropped := s.hwd.dropped + 1 }

/-- Put a record of VDD into the 512-record buffer; a full one drops its oldest record, which the next record of that code
counts (R412). -/
def storeRec (s : State) (r : Rec) : State :=
  let full := s.recd.buf.length ≥ 512
  let bks := match (if full then s.recd.buf.head? else none) with
    | some d => let db := bucketOf s.recd.buckets d.code s.htime
                putBucket s.recd.buckets { db with suppressed := db.suppressed + 1 }
    | none => s.recd.buckets
  { s with recd.buf := (if full then s.recd.buf.drop 1 else s.recd.buf) ++ [r],
           recd.head := (s.recd.head + 1) % 2 ^ 32, recd.buckets := bks }

/-- Produce an event record, or suppress and count it (R410, R412 to R414). -/
def emitRec (s : State) (code sev unit p0 p1 p2 : Nat) (inj : Bool) : State :=
  let b := bucketOf s.recd.buckets code s.htime
  let free := recordExempt code sev
  if free || 32768 ≤ b.level then
    let r : Rec := { seq := s.recd.head, code := code, flags := sev + 8 * b2n inj + 16 * b2n (!s.hwd.vdd),
                     suppressed := sat 255 b.suppressed, unit := unit, htime := s.htime,
                     tick := if s.hwd.vdd && s.tick.running then tickCount s else 0, p0 := p0, p1 := p1, p2 := p2 }
    let b' := { b with level := if free then b.level else b.level - 32768, suppressed := 0 }
    let s := { s with recd.buckets := putBucket s.recd.buckets b' }
    if s.hwd.vdd then storeRec s r else storeBackup s r
  else
    { s with recd.buckets := putBucket s.recd.buckets { b with suppressed := b.suppressed + 1 } }

/-- An ordinary record: no severity, no unit. -/
def emit (s : State) (code p0 p1 p2 : Nat) : State := emitRec s code 0 0xFFFF p0 p1 p2 false

/-- Flush the record buffer to the ring; FATAL records also go to the pinned area while it has room
(R412). -/
def flushRecorder (s : State) : State :=
  let fatal := s.recd.buf.filter fun r => r.flags % 8 == 4
  let room := 64 - s.recd.pinned.length
  let ring := s.recd.ring ++ s.recd.buf
  { s with recd.ring := ring.drop (ring.length - 24576), recd.buf := [],
           recd.pinned := s.recd.pinned ++ ((fatal.take room).map fun r => { r with flags := r.flags + 32 }),
           recd.flushed := now s, recd.kept := s.recd.head }

/-! ### Address translation (R106 to R108) -/

/-- Outcome of a page-table walk. -/
inductive Walk where
  | page (base log2 : Nat) (r w : Bool)
  | fault (level cause : Nat)
  /-- The page-table read fails on the link: the bit of PORT_EVENTS it sets (R107, R482). -/
  | lost (level event : Nat)
  deriving DecidableEq, Repr

/-- The answer to a read of bus addresses that the host does not complete with data: a bit of PORT_EVENTS (R482). -/
def deafAt (s : State) (a n : Nat) : Option Nat :=
  (s.hostDeaf.find? fun d => decide (a < d.bus + d.len) && decide (d.bus < a + n)).map (·.event)

/-- The 8-byte page-table entry at a bus address, or the answer of a read that fails. -/
def pteAt (s : State) (a : Nat) : Except Nat Nat :=
  match deafAt s a 8 with
  | some k => .error k
  | none => .ok (leNat (Mem.readBytes s.hostMem a 8))

/-- `check` of R107: the CAUSE of Table 18.7, if the entry fails. -/
def checkPte (e level : Nat) (write : Bool) : Option Nat :=
  let leaf := bit e 3
  let low := if level = 1 then bits e 29 12 else if level = 2 then bits e 20 12 else 0
  if !bit e 0 then some 1
  else if bits e 63 52 != 0 || bits e 11 4 != 0 then some 2
  else if level = 3 && !leaf then some 3
  else if leaf && low != 0 then some 4
  else if leaf && !write && !bit e 1 then some 5
  else if leaf && write && !bit e 2 then some 6
  else none

/-- A leaf as a page of the given size. -/
def leafPage (e log2 : Nat) : Walk :=
  .page (bits e 51 0 / 2 ^ log2 * 2 ^ log2) log2 (bit e 1) (bit e 2)

/-- The walk of R107 under a root and a width. -/
def walk (s : State) (root width iova : Nat) (write : Bool) : Walk :=
  if iova / 2 ^ width != 0 then .fault 0 0 else
  match pteAt s (root + 8 * (iova / 2 ^ 30 % 2 ^ (width - 30))) with
  | .error k => .lost 1 k
  | .ok e1 => match checkPte e1 1 write with
    | some c => .fault 1 c
    | none => if bit e1 3 then leafPage e1 30 else
      match pteAt s (bits e1 51 12 * 4096 + 8 * (iova / 2 ^ 21 % 512)) with
      | .error k => .lost 2 k
      | .ok e2 => match checkPte e2 2 write with
        | some c => .fault 2 c
        | none => if bit e2 3 then leafPage e2 21 else
          match pteAt s (bits e2 51 12 * 4096 + 8 * (iova / 2 ^ 12 % 512)) with
          | .error k => .lost 3 k
          | .ok e3 => match checkPte e3 3 write with
            | some c => .fault 3 c
            | none => leafPage e3 12

/-- The cached leaf of an instance that covers an IOVA (R108). -/
def cachedLeaf (s : State) (inst iova : Nat) : Option Leaf :=
  s.tlb.find? fun l => l.inst == inst && iova / 2 ^ l.log2 * 2 ^ l.log2 == l.page

/-- Level of the leaf of a page size. -/
def levelOf (log2 : Nat) : Nat := if log2 = 30 then 1 else if log2 = 21 then 2 else 3

/-- The pair whose second face an instance has: PORT_A, PORT_B and whether PORT_B serves (R120); an AF is not paired. -/
def instPair (s : State) (inst : Nat) : Option (Nat × Nat × Bool) :=
  if inst % 256 = 0 then none else s.adm.pairs.find? fun p => p.1 == portOf inst

/-- Does the health map mark a host port down: WITHDRAWN (R121, R487)? -/
def portWithdrawn (s : State) (p : Nat) : Bool :=
  s.faults.map.any fun h => h.unit == 9 * 1024 + p && h.state == .withdrawn

/-- The port of the AF that administers an instance, whose DATU block captures its faults: that of PORT_B while PORT_A of its
pair is down (R92, R121, R494). -/
def adminPort (s : State) (inst : Nat) : Nat :=
  match instPair s inst with
  | some p => if portWithdrawn s p.1 then p.2.1 else p.1
  | none => portOf inst

/-- The port whose link carries an instance's requests: the serving face (R120, R121). -/
def servingPort (s : State) (inst : Nat) : Nat :=
  match instPair s inst with
  | some p => if p.2.2 then p.2.1 else p.1
  | none => portOf inst

/-- The function whose requester ID an instance's requests carry: the serving face's (R482). -/
def faceOf (s : State) (inst : Nat) : Nat := servingPort s inst * 256 + inst % 256

/-- Is a function in D3hot, so that its BARs do not decode (R481)? -/
def asleep (s : State) (fn : Nat) : Bool := (s.port (portOf fn)).d3.contains (fn % 256)

/-- May the instance's function make requests (R481)? -/
def busOk (s : State) (inst : Nat) : Bool := s.busMaster.contains (faceOf s inst)

/-- A read of an instance that the host does not complete with data sets its bit of PORT_EVENTS (R482). -/
def readEvent (s : State) (inst k : Nat) : State :=
  s.updPort (servingPort s inst) fun x => { x with events := x.events ||| 2 ^ k }

/-- Translate one IOVA of an instance: the bus address, or LEVEL and CAUSE of the fault (R106, R107).
A walked leaf enters the cache of at most 4,096 leaves, the oldest leaving first (log entry 8). -/
def translate (s : State) (inst iova : Nat) (write : Bool) : State × Except (Nat × Nat) Nat :=
  match s.inst? inst with
  | none => (s, .error (0, 8))
  | some i =>
    match i.mode with
    | .off => (s, .error (0, 8))
    | .bypass => (s, .ok iova)
    | .translate =>
      match cachedLeaf s inst iova with
      | some l =>
        if write && !l.w then (s, .error (levelOf l.log2, 6))
        else if !write && !l.r then (s, .error (levelOf l.log2, 5))
        else (s, .ok (l.bus + iova % 2 ^ l.log2))
      | none =>
        if !(s.port (servingPort s inst)).dlUp then
          (s, .error (if iova / 2 ^ i.width != 0 then (0, 0) else (1, 7)))
        else match walk s i.root i.width iova write with
        | .fault l c => (s, .error (l, c))
        | .lost l k => (readEvent s inst k, .error (l, 7))
        | .page b k r w =>
          let leaf : Leaf := { inst := inst, page := iova / 2 ^ k * 2 ^ k, log2 := k, bus := b, r := r, w := w }
          ({ s with tlb := (s.tlb ++ [leaf]).drop (s.tlb.length + 1 - 4096) }, .ok (b + iova % 2 ^ k))

/-- Capture, count and record a non-speculative translation fault (R107, R494). -/
def datuFault (s : State) (inst iova level cause access : Nat) : State :=
  let s := s.updPort (adminPort s inst) fun p =>
    let d := p.datu
    let d := if d.valid then d else
      { d with valid := true, level := level, cause := cause, access := access, inst := inst, iova := iova % 2 ^ 48 }
    { p with datu := { d with count := satInc (2 ^ 32 - 1) d.count } }
  emit s 0x0105 inst (iova % 2 ^ 32) level

/-- The pieces of an IOVA range that each lie in one 4 KiB page; `k` bounds their number. -/
def pieces : Nat → Nat → Nat → List (Nat × Nat)
  | 0, _, _ => []
  | k + 1, a, l =>
    if l = 0 then [] else
    let n := min l (4096 - a % 4096)
    (a, n) :: pieces k (a + n) (l - n)

/-- The page pieces of a range. -/
def rangePieces (iova len : Nat) : List (Nat × Nat) := pieces (len / 4096 + 2) iova len

/-- Translate every page of a range: the bus pieces, or the failing IOVA with LEVEL and CAUSE. -/
def transPieces (s : State) (inst : Nat) (write : Bool) :
    List (Nat × Nat) → State × Except (Nat × Nat × Nat) (List (Nat × Nat))
  | [] => (s, .ok [])
  | (a, n) :: ps =>
    match translate s inst a write with
    | (s, .error (l, c)) => (s, .error (a, l, c))
    | (s, .ok b) =>
      match transPieces s inst write ps with
      | (s, .error e) => (s, .error e)
      | (s, .ok bs) => (s, .ok ((b, n) :: bs))

/-- Translate a range; a fault of a non-speculative access is captured and recorded (R107).  Without bus mastering the access
fails as though it did not translate (R481); a read that the host does not complete with data fails without a record
(R482). -/
def transRange (s : State) (inst iova len : Nat) (write : Bool) (access : Nat) (speculative : Bool) :
    State × Option (List (Nat × Nat)) :=
  if !busOk s inst then (s, none) else
  match transPieces s inst write (rangePieces iova len) with
  | (s, .ok bs) => match (if write then none else bs.findSome? fun p => deafAt s p.1 p.2) with
    | some k => (readEvent s inst k, none)
    | none => (s, some bs)
  | (s, .error (a, l, c)) => (if speculative then s else datuFault s inst a l c access, none)

/-- Bytes of a list of bus pieces. -/
def gather (m : List Host.Cell) (ps : List (Nat × Nat)) : Bytes :=
  ps.flatMap fun p => Mem.readBytes m p.1 p.2

/-- Write bytes over a list of bus pieces. -/
def scatterBytes (m : List Host.Cell) : List (Nat × Nat) → Bytes → List Host.Cell
  | [], _ => m
  | (b, n) :: ps, bs => scatterBytes (Mem.writeBytes m b (bs.take n)) ps (bs.drop n)

/-- Read a range of an instance's space; `none` on a failed read. -/
def hostRead (s : State) (inst iova len access : Nat) (speculative : Bool) : State × Option Bytes :=
  match transRange s inst iova len false access speculative with
  | (s, some ps) => (s, some (gather s.hostMem ps))
  | (s, none) => (s, none)

/-- A bitmap access that faults or fails: LOST, logging stops, DIRTY_LOG_LOST (R111). -/
def dirtyLost (s : State) (inst a : Nat) : State :=
  emit (s.updInst inst fun i => { i with
    dirty := i.dirty.map fun d => { d with running := false, lost := true }, dirtyLost := true }) 0x0106 inst (a % 2 ^ 32) 0

/-- Log the pages of a write for an instance whose dirty log runs (R110, R111): the bit of each page is
set by a read-modify-write of its 64-bit word in the active bitmap. -/
def dirtyPage (s : State) (inst page : Nat) : State :=
  match s.inst? inst with
  | none => s
  | some i => match i.dirty with
    | none => s
    | some d =>
      if !d.running || now s < d.since then s
      else if page < d.base || d.base + d.pages * 4096 ≤ page then
        s.updInst inst fun i => { i with dirty := some { d with outOfRange := true } }
      else
        let k := (page - d.base) / 4096
        let a := (if d.onB then d.bitmapB else d.bitmapA) + 8 * (k / 64)
        match hostRead s d.owner a 8 4 false with
        | (s, none) => dirtyLost s inst a
        | (s, some b) => match transRange s d.owner a 8 true 4 false with
          | (s, none) => dirtyLost s inst a
          | (s, some ps) =>
            let w := if bit (leNat b) (k % 64) then leNat b else leNat b + 2 ^ (k % 64)
            { s with hostMem := scatterBytes s.hostMem ps (leBytes 8 w) }

/-- Dirty-log bits of every page a write touches. -/
def dirtyMark (s : State) (inst iova len : Nat) : State :=
  (rangePieces iova len).foldl (fun s p => dirtyPage s inst (p.1 / 4096 * 4096)) s

/-- Issue a write over translated pieces, with its dirty-log bits (R84), remembered for two ticks for
the instances of a port pair (R121). -/
def issueWrite (s : State) (inst iova : Nat) (ps : List (Nat × Nat)) (bs : Bytes) : State :=
  let s := { s with hostMem := scatterBytes s.hostMem ps bs }
  let s := if (instPair s inst).isSome then
      { s with writes := s.writes ++ [{ port := servingPort s inst, issued := now s, pieces := ps, bytes := bs }] }
    else s
  dirtyMark s inst iova bs.length

/-- Write bytes into an instance's space: every page is translated before any byte is written. -/
def hostWrite (s : State) (inst iova : Nat) (bs : Bytes) (access : Nat) : State × Bool :=
  match transRange s inst iova bs.length true access false with
  | (s, none) => (s, false)
  | (s, some ps) => (issueWrite s inst iova ps bs, true)

/-! ### Interrupts (R483 to R485) -/

/-- MSI-X of a function, as reset leaves it when nothing has written it. -/
def State.msixOf (s : State) (inst : Nat) : Msix :=
  (s.msix.find? (·.inst == inst)).getD
    { inst := inst, enable := false, funcMask := false, entries := [], pba := [], sent := [] }

/-- Put back the MSI-X of a function. -/
def State.putMsix (s : State) (m : Msix) : State :=
  { s with msix := m :: s.msix.filter (·.inst != m.inst) }

/-- A table entry; one that nothing has written is masked, as the base specification resets it. -/
def Msix.entry (m : Msix) (v : Nat) : MsixEntry :=
  (m.entries.find? (·.vec == v)).getD { vec := v, addr := 0, data := 0, masked := true }

/-- Send the message of a vector of a function: nothing while MSI-X is disabled, the PBA bit while it is masked, at
most one message a boundary (R484, R485); the messages of the last two ticks are kept for a move of the serving face
(R121). -/
def sendFn (s : State) (fn v : Nat) : State :=
  let m := s.msixOf fn
  let e := m.entry v
  if !m.enable then s
  else if m.funcMask || e.masked then
    s.putMsix { m with pba := if m.pba.contains v then m.pba else v :: m.pba }
  else if m.sent.contains (v, now s) then s
  else
    let s := s.putMsix { m with sent := (v, now s) :: m.sent.filter (fun x => decide (now s ≤ x.2 + 2)) }
    { s with hostMem := Mem.writeBytes s.hostMem e.addr (leBytes 4 e.data) }

/-- Send a vector of an instance through its serving face (R120, R121). -/
def sendVector (s : State) (inst v : Nat) : State := sendFn s (faceOf s inst) v

end Sys2Proof.Machine
end

