-- ==== Sys2Proof/Machine/Operands.lean ====
section
/-! DEFINITION. The operand forms of the rings: submission entries, chains, flags, fragment tables and the
parameter area (03_rings.md, Tables 3.7 to 3.11). -/

namespace Sys2Proof.Machine

/-! ### Opcodes and accepted ALG values (Table 3.9) -/

/-- Table 3.9: opcode and the ALG values it accepts. -/
def opcodeAlgs : List (Nat × List Nat) := [
  (0x01, [0x01, 0x06, 0x07]), (0x02, [0x01, 0x06, 0x07]), (0x03, [0x01, 0x06, 0x07]),
  (0x08, [0x02, 0x03, 0x04, 0x05, 0x11, 0x12]), (0x09, [0x02, 0x03, 0x04, 0x05, 0x11, 0x12]),
  (0x0A, [0x02, 0x03, 0x04, 0x05, 0x11, 0x12]),
  (0x10, [0x13, 0x14]), (0x11, [0x13, 0x14]),
  (0x14, [0x10]), (0x15, [0x10]), (0x16, [0x10]), (0x17, [0x10]), (0x18, [0x10]),
  (0x20, [0x20, 0x21]), (0x21, [0x20, 0x21]), (0x22, [0x20, 0x21]), (0x23, [0x20, 0x21])] ++ [
  (0x28, [0x28, 0x29]), (0x29, [0x2A, 0x2B]), (0x30, [0x30, 0x31]), (0x31, [0x30, 0x31]),
  (0x38, [0x00]),
  (0x40, [0x01, 0x02, 0x03, 0x04, 0x05, 0x06, 0x07, 0x10, 0x11, 0x12, 0x13, 0x14,
          0x28, 0x29, 0x2A, 0x2B, 0x30, 0x31, 0x32]),
  (0x41, [0x32]), (0x4A, [0x32]), (0x42, [0x00]), (0x43, [0x00]), (0x4B, [0x00]),
  (0x49, [0x2A, 0x2B]), (0x50, [0x01]), (0x60, [0x00])]

/-- Is ALG accepted for the opcode, `extra` being what a loaded graft adds for KEY_IMPORT (R69, R354)? -/
def opAccepts (extra : List Nat) (op alg : Nat) : Bool :=
  (opcodeAlgs.any fun p => p.1 == op && p.2.contains alg) || (op == 0x40 && extra.contains alg)

/-- Opcodes that may carry OUT_TO_CTX (Table 3.8). -/
def allowsOutToCtx (op : Nat) : Bool := op == 0x02 || op == 0x03 || op == 0x11 || op == 0x50

/-! ### FLAGS of a first SE (Table 3.8) -/

def Job.outToCtx (j : Job) : Bool := bit j.flags 6
def Job.indirect (j : Job) : Bool := bit j.flags 5
def Job.fence (j : Job) : Bool := bit j.flags 4
def Job.specOk (j : Job) : Bool := bit j.flags 3
def Job.sprintFlag (j : Job) : Bool := bit j.flags 2

/-! ### Checks on each SE as it is read (R75, R77 step 2) -/

/-- REASON codes of Table 3.10. -/
def rUnknownOp : Nat := 0x01
def rChainBroken : Nat := 0x02
def rBadFlags : Nat := 0x03
def rFragSum : Nat := 0x04
def rFragForm : Nat := 0x05
def rRingAlign : Nat := 0x06
def rDbOverrun : Nat := 0x07
def rDbRetreat : Nat := 0x08
def rRingRead : Nat := 0x09
def rCqWrite : Nat := 0x0A

/-- The REASON for which a first SE stops its queue. -/
def checkFirst (extra : List Nat) (se : Bytes) : Option Nat :=
  let op := byteAt se 0
  let fl := byteAt se 1
  let frags := leAt se 28 2 != 0 || leAt se 44 2 != 0
  if op = 0 then some rChainBroken
  else if !opAccepts extra op (byteAt se 4) then some rUnknownOp
  else if !bit fl 0 then some rChainBroken
  else if bit fl 7 || (bit fl 6 && !allowsOutToCtx op) || bit fl 5 != frags then some rBadFlags
  else none

/-- The REASON for which a continuation entry, the `k`-th SE of its job counted from 0, stops its queue. -/
def checkCont (se : Bytes) (tag k : Nat) : Option Nat :=
  let op := byteAt se 0
  let fl := byteAt se 1
  if op = 0xFF then some rUnknownOp
  else if op != 0 || bit fl 0 || leAt se 2 2 != tag || (k == 7 && !bit fl 1) then some rChainBroken
  else if fl != 0 && fl != 2 then some rBadFlags
  else none

/-- The parameter area of a chain (R70): bytes 48 to 63 of the first SE, 4 to 63 of the others. -/
def chainParams : List Bytes → Bytes
  | [] => []
  | f :: cs => sub f 48 16 ++ cs.flatMap fun c => sub c 4 60

/-! ### Fragment tables (R72, R73) -/

/-- The entries of a table of `n` fragments. -/
def parseFrags (tab : Bytes) (n : Nat) : List (Frag × Nat) :=
  (List.range n).map fun i =>
    ({ addr := leAt tab (16 * i) 8, len := leAt tab (16 * i + 8) 4 }, leAt tab (16 * i + 12) 4)

/-- Well-formedness of a table (R73): LAST on the last entry alone, no LEN of 0, no reserved flag. -/
def fragsWf (es : List (Frag × Nat)) : Bool :=
  es.zipIdx.all fun e =>
    decide (e.1.1.len ≠ 0) && e.1.2 == (if e.2 + 1 = es.length then 1 else 0)

/-- Outcome of a side's fragment check. -/
inductive FragCheck where
  | ok (fs : List Frag)
  /-- Malformed: REASON. -/
  | bad (reason : Nat)
  /-- The table could not be read (DATA_SHORT, DETAIL 0x03). -/
  | unread
  deriving DecidableEq, Repr

/-- The fragments of one side of a job, read and checked (R72, R73, R75, R77 step 3).  DESIGN CHOICE (log entry 54): a table
that is ill-formed and of the wrong sum too is FRAG_FORM. -/
def readSide (s : State) (inst addr len frags : Nat) (speculative : Bool) : State × FragCheck :=
  if frags = 0 then (s, .ok (if len = 0 then [] else [{ addr := addr, len := len }]))
  else if 256 < frags || addr % 16 != 0 then (s, .bad rFragForm)
  else match hostRead s inst addr (16 * frags) 1 speculative with
    | (s, none) => (s, .unread)
    | (s, some tab) =>
      let es := parseFrags tab frags
      if !fragsWf es then (s, .bad rFragForm)
      else if (es.map (·.1.len)).sum != len then (s, .bad rFragSum)
      else (s, .ok (es.map (·.1)))

/-- Input gathered in table order (R73); `none` when a read fails. -/
def gatherInput (s : State) (inst : Nat) (speculative : Bool) : List Frag → State × Option Bytes
  | [] => (s, some [])
  | f :: fs =>
    match hostRead s inst f.addr f.len 1 speculative with
    | (s, none) => (s, none)
    | (s, some b) =>
      match gatherInput s inst speculative fs with
      | (s, none) => (s, none)
      | (s, some bs) => (s, some (b ++ bs))

/-- The whole output range translated, fragment by fragment, before any byte is written (R74). -/
def transFrags (s : State) (inst : Nat) : List Frag → State × Option (List (Nat × List (Nat × Nat)))
  | [] => (s, some [])
  | f :: fs =>
    match transRange s inst f.addr f.len true 2 false with
    | (s, none) => (s, none)
    | (s, some ps) =>
      match transFrags s inst fs with
      | (s, none) => (s, none)
      | (s, some r) => (s, some ((f.addr, ps) :: r))

/-- Output fills each fragment before the next; bytes beyond the output are left untouched (R73). -/
def writeFrags (s : State) (inst : Nat) : List (Nat × List (Nat × Nat)) → Bytes → State
  | [], _ => s
  | (a, ps) :: fs, bs =>
    let n := (ps.map (·.2)).sum
    if bs.isEmpty then s else writeFrags (issueWrite s inst a ps (bs.take n)) inst fs (bs.drop n)

end Sys2Proof.Machine
end

