-- ==== Sys2Proof/Machine/Params.lean ====
section
/-! DEFINITION. Parameter sets, byte lengths and tick budgets of the data-path jobs: the tables of
02, 05 to 09 and 13. -/

namespace Sys2Proof.Machine

/-- A table's row of a family's lengths; for a parameter set that the table does not have, and a CATALOGUE may add, the length is
the graft's (R178, R354): 0 public key, 1 private key, 2 ciphertext, 3 signature. -/
def lenRow (kind alg : Nat) (t : List Nat) (pset : Nat) : Nat :=
  if pset = 0 ∨ t.length < pset then Config.graftLen kind alg pset else row t pset

/-! ### PSET values (Tables 5.1, 6.1, 6.2, 6.7, 6.8, 7.4, 8.1) -/

/-- Is PSET defined for ALG with this opcode? -/
def psetOk (op alg pset : Nat) : Bool :=
  let upTo (n : Nat) : Bool := decide (1 ≤ pset) && decide (pset ≤ n)
  match alg with
  | 0x00 => pset == 0
  | 0x01 => if op = 0x50 then pset == 0x10 || pset == 0x11 else upTo 3
  | 0x02 => upTo 3
  | 0x03 => upTo 12
  | 0x04 => upTo 4
  | 0x05 => upTo 4
  | 0x06 => upTo 5
  | 0x07 => upTo 3
  | 0x10 => upTo 5
  | 0x11 => upTo 3
  | 0x12 => upTo 2
  | 0x13 => upTo 3
  | 0x14 => upTo 2
  | 0x20 => upTo 6
  | 0x21 => decide (7 ≤ pset) && decide (pset ≤ 14)
  | 0x28 => upTo 10
  | 0x29 => upTo 2
  | 0x2A => upTo 3 || (decide (8 ≤ pset) && decide (pset ≤ 10))
  | 0x2B => upTo 2
  | 0x30 => upTo 2
  | 0x31 => upTo 1
  | 0x32 => upTo 2
  | _ => false

/-! ### Byte lengths -/

/-- RSA modulus bytes (Table 7.4). -/
def rsaK (pset : Nat) : Nat := row [256, 384, 512, 768, 1024] pset

/-- Public key, or encapsulation key (Tables 5.2, 6.1, 6.7, 6.8, 7.4; R164). -/
def pkLen (alg pset : Nat) : Nat :=
  match alg with
  | 0x01 => lenRow 0 0x01 [800, 1184, 1568] pset
  | 0x02 => lenRow 0 0x02 [1312, 1952, 2592] pset
  | 0x03 => lenRow 0 0x03 [32, 32, 32, 32, 48, 48, 48, 48, 64, 64, 64, 64] pset
  | 0x04 => 28 + statefulN pset
  | 0x05 => 4 + 2 * statefulN pset
  | 0x06 => lenRow 0 0x06 [261120, 524160, 1044992, 1047319, 1357824] pset
  | 0x07 => lenRow 0 0x07 [2241, 4514, 7237] pset
  | 0x10 => rsaK pset + 4
  | 0x11 => lenRow 0 0x11 [65, 97, 133] pset
  | 0x12 => lenRow 0 0x12 [32, 57] pset
  | 0x13 => lenRow 0 0x13 [65, 97, 133] pset
  | 0x14 => lenRow 0 0x14 [32, 56] pset
  | _ => 0

/-- Private key in FORM 1 (Tables 5.2, 6.1, 6.7, 7.4; R244); HQC's, which has no FORM, as its specification has it (log entry
12). -/
def skLen (alg pset : Nat) : Nat :=
  match alg with
  | 0x01 => lenRow 1 0x01 [1632, 2400, 3168] pset
  | 0x02 => lenRow 1 0x02 [2560, 4032, 4896] pset
  | 0x03 => 2 * pkLen 0x03 pset
  | 0x06 => lenRow 1 0x06 [6492, 13608, 13932, 13948, 14120] pset
  | 0x07 => lenRow 1 0x07 [2321, 4602, 7333] pset
  | 0x10 => 4 * rsaK pset + rsaK pset / 2 + 4
  | 0x11 => lenRow 1 0x11 [32, 48, 66] pset
  | 0x12 => lenRow 1 0x12 [32, 57] pset
  | 0x13 => lenRow 1 0x13 [32, 48, 66] pset
  | 0x14 => lenRow 1 0x14 [32, 56] pset
  | _ => 0

/-- Seed form (Table 5.2). -/
def seedLen (alg : Nat) : Nat := if alg = 0x01 then 64 else if alg = 0x02 then 32 else 0

/-- Ciphertext of a KEM (Tables 5.2, 6.7, 6.8). -/
def ctLen (alg pset : Nat) : Nat :=
  match alg with
  | 0x01 => lenRow 2 0x01 [768, 1088, 1568] pset
  | 0x06 => lenRow 2 0x06 [96, 156, 208, 194, 208] pset
  | 0x07 => lenRow 2 0x07 [4433, 8978, 14421] pset
  | _ => 0

/-- Signature of a family whose parameter set fixes it (Tables 5.2, 6.1, 7.4). -/
def sigLen (alg pset : Nat) : Nat :=
  match alg with
  | 0x02 => lenRow 3 0x02 [2420, 3309, 4627] pset
  | 0x03 => lenRow 3 0x03 [7856, 7856, 17088, 17088, 16224, 16224, 35664, 35664, 29792, 29792, 49856, 49856] pset
  | 0x10 => rsaK pset
  | 0x11 => lenRow 3 0x11 [64, 96, 132] pset
  | 0x12 => lenRow 3 0x12 [64, 114] pset
  | _ => 0

/-- Shared secret of a derivation (Table 7.4); every KEM's is 32 bytes. -/
def ssLen (alg pset : Nat) : Nat :=
  match alg with
  | 0x13 => row [32, 48, 66] pset
  | 0x14 => row [32, 56] pset
  | _ => 32

/-- Signature of a stateful key (R164): heights of the levels, top first. -/
def statefulSigLen (alg pset : Nat) (heights : List Nat) : Nat :=
  let n := statefulN pset
  let p := if n = 32 then 67 else 51
  if alg = 0x04 then
    4 + (heights.map fun h => 12 + n * (p + 1 + h)).sum + (heights.length - 1) * (24 + n)
  else if heights.length = 1 then 4 + n * (1 + p + heights.sum)
  else ceilDiv heights.sum 8 + n * (1 + heights.length * p + heights.sum)

/-- Bytes of a hash by its PH code (Table 5.8). -/
def hashLen (ph : Nat) : Nat := row [32, 48, 64, 28, 28, 32, 28, 32, 48, 64, 32, 64] ph

/-- HYBRID_KEX lengths (Table 5.13): client share, server share, shared secret. -/
def hybridLens (pset : Nat) : Nat × Nat × Nat :=
  if pset = 0x10 then (1216, 1120, 64) else (1624, 1624, 88)

/-- ML-KEM parameter set of a HYBRID_KEX set, and the lengths of its classical public value. -/
def hybridKem (pset : Nat) : Nat := if pset = 0x10 then 2 else 3
def hybridDh (pset : Nat) : Nat := if pset = 0x10 then 1 else 2

/-- Range of a symmetric key's length (Table 8.6b and Table 9.6). -/
def secretRange (alg pset : Nat) : Nat × Nat :=
  match alg with
  | 0x28 => (16, 128)
  | 0x29 => (16, 64)
  | 0x2A => (16, 64)
  | 0x2B => (16, 64)
  | 0x30 => if pset = 1 then (16, 16) else (32, 32)
  | 0x31 => (32, 32)
  | 0x32 => if pset = 1 then (16, 16) else (32, 32)
  | _ => (1, 0)

/-- Does a length suit a symmetric key? -/
def secretLenOk (alg pset n : Nat) : Bool :=
  decide ((secretRange alg pset).1 ≤ n) && decide (n ≤ (secretRange alg pset).2)

/-! ### Rates (Table 8.6) -/

/-- Bytes absorbed per tick by a hash code, unmasked. -/
def rateOf (ph : Nat) : Nat :=
  row [768, 1280, 1280, 768, 1280, 1280, 3600, 3400, 2600, 1800, 4200, 3400, 4200, 3400] ph

/-- Bytes absorbed per tick by a keyed function over a hash code: Keccak runs masked (R233). -/
def keyedRate (ph : Nat) : Nat :=
  row [768, 1280, 1280, 768, 1280, 1280, 2160, 2040, 1560, 1080, 2520, 2040] ph

/-- Keyed rate of an ALG and PSET: KMAC128 and KMAC256 for ALG 0x29 and 0x2B. -/
def macRate (alg pset : Nat) : Nat :=
  if alg = 0x29 || alg = 0x2B then (if pset = 1 then 2520 else 2040) else keyedRate pset

/-! ### Budgets at masking order 1 -/

/-- Leaf cost L_u at w (Table 6.3). -/
def leafCostAt (pset w : Nat) : Nat :=
  match w with
  | 1 => row [50, 40, 28, 20] pset
  | 2 => row [50, 40, 28, 22] pset
  | 8 => row [800, 610, 440, 335] pset
  | _ => row [100, 76, 55, 42] pset

/-- Leaf cost L_u at w = 4, and of WOTS+. -/
def leafCost (pset : Nat) : Nat := leafCostAt pset 4

/-- Keygen budgets that follow from ALG and PSET (Tables 2.6, 6.1, 6.7, 6.8, 7.6). -/
def keygenBudget (alg pset : Nat) : Nat :=
  match alg with
  | 0x01 => row [6, 8, 12] pset
  | 0x02 => row [20, 32, 46] pset
  | 0x03 => row [3600, 2000, 60, 40, 5200, 2900, 90, 50, 3500, 1900, 220, 130] pset
  | 0x06 => row [4000, 11000, 26000, 24000, 32000] pset
  | 0x07 => row [30, 60, 100] pset
  | 0x10 => row [60000, 200000, 500000, 2000000, 5000000] pset
  | 0x11 => row [20, 45, 95] pset
  | 0x12 => row [16, 40] pset
  | 0x13 => row [20, 45, 95] pset
  | 0x14 => row [8, 20] pset
  | _ => 0

/-- Keygen budget of a stateful key (R163). -/
def statefulKeygenBudget (pset : Nat) (heights : List Nat) : Nat :=
  10 + (heights.map fun h => ceilDiv (2 ^ h) 8 * leafCost pset).sum

/-- The tree of each level that holds index `q`, levels top first. -/
def treesOf (q : Nat) : List Nat → List Nat
  | [] => []
  | h :: hs => q / 2 ^ (h :: hs).sum :: treesOf q hs

/-- What `sign_budget` of R170 adds for the levels that are rebuilt, levels top first with the trees of the committed index:
`committed` is the committed index plus one. -/
def rebuildCost (lu q committed : Nat) : List Nat → List Traversal → Nat
  | [], _ => 0
  | h :: hs, ts =>
    (if q != committed || (ts.head?.map (·.tree)) != some (q / 2 ^ (h :: hs).sum) then (2 ^ h + 7) / 8 * lu else 0)
      + rebuildCost lu q committed hs (ts.drop 1)

/-- Budget of a stateful signature (R170); a key without standing trees rebuilds every level (R265). -/
def statefulSignBudget (pset : Nat) (heights : List Nat) (q committed : Nat) (trees : List Traversal) : Nat :=
  let lu := leafCost pset
  10 + (heights.map fun h => (h / 2 + 2) * lu).sum + rebuildCost lu q committed heights trees

/-- Encapsulation and decapsulation budgets (Tables 2.6, 6.7, 6.8). -/
def encapsBudget (alg pset : Nat) : Nat :=
  match alg with
  | 0x01 => row [6, 9, 13] pset
  | 0x06 => row [80, 150, 290, 290, 370] pset
  | 0x07 => row [45, 90, 150] pset
  | _ => 0

def decapsBudget (alg pset : Nat) : Nat :=
  match alg with
  | 0x01 => row [11, 17, 24] pset
  | 0x06 => row [60, 110, 150, 150, 170] pset
  | 0x07 => row [80, 160, 260] pset
  | _ => 0

/-- Signing budgets and sign quanta (Tables 2.6, 6.1, 7.6). -/
def signBudget (alg pset : Nat) : Nat :=
  match alg with
  | 0x02 => row [12, 16, 24] pset
  | 0x03 => row [30000, 16500, 1400, 800, 45000, 25000, 2100, 1200, 38000, 21000, 4200, 2400] pset
  | 0x10 => row [120, 360, 800, 2600, 6200] pset
  | 0x11 => row [24, 52, 110] pset
  | 0x12 => row [18, 44] pset
  | _ => 0

/-- Verify and encrypt figures, which only order work (Tables 2.6, 6.1, 7.6). -/
def verifyBudget (alg pset : Nat) : Nat :=
  match alg with
  | 0x02 => row [19, 31, 46] pset
  | 0x03 => row [220, 110, 640, 320, 310, 155, 950, 480, 460, 230, 950, 480] pset
  | 0x10 => row [12, 22, 36, 80, 150] pset
  | 0x11 => row [30, 65, 140] pset
  | 0x12 => row [26, 62] pset
  | _ => 10

/-- Derivation budgets (Table 7.6). -/
def deriveBudget (alg pset : Nat) : Nat :=
  if alg = 0x13 then row [26, 56, 118] pset else row [10, 24] pset

/-- HYBRID_KEX budgets (Table 5.14). -/
def hybridBudget (pset step : Nat) : Nat :=
  if pset = 0x10 then row [10, 12, 19] (step + 1) else row [16, 18, 27] (step + 1)

def hybridSprint (pset step : Nat) : Nat :=
  if pset = 0x10 then row [3, 3, 4] (step + 1) else row [4, 4, 5] (step + 1)

/-- The sprint budget or sprint sign quantum of an operation at order 1 (Tables 2.6, 5.14), if any. -/
def sprintBudget (op alg pset opt : Nat) : Option Nat :=
  match op, alg with
  | 0x01, 0x01 => some (row [1, 1, 2] pset)
  | 0x02, 0x01 => some (row [1, 1, 2] pset)
  | 0x03, 0x01 => some (row [2, 2, 3] pset)
  | 0x09, 0x02 => some (row [2, 3, 4] pset)
  | 0x0A, 0x02 => some (row [2, 3, 4] pset)
  | 0x50, 0x01 => some (hybridSprint pset (opt % 4))
  | _, _ => none

/-- Budget at masking order 2 (R364). -/
def order2Budget (b : Nat) : Nat := (19 * b + 9) / 10

/-- Release classes (Table 2.7). -/
inductive RelClass where
  | budget | quantum | pub
  deriving DecidableEq, Repr

/-- Release class of an opcode (Table 2.7). -/
def relClass (op alg : Nat) : RelClass :=
  if op = 0x09 && alg = 0x02 then .quantum
  else if [0x0A, 0x16, 0x18, 0x20, 0x21, 0x22, 0x23, 0x38, 0x42, 0x43, 0x4B].contains op then .pub
  else .budget

end Sys2Proof.Machine
end

