-- ==== Sys2Proof/Machine/Health.lean ====
section
/-! DEFINITION. Fault sources and their severities (Table 14.3), units and the health map (Tables 14.4, 14.5). -/

namespace Sys2Proof.Machine

/-! ### Sources (Table 14.3) -/

/-- A row of Table 14.3: GROUP, number of sources, default severity, range, locked. -/
structure FaultGroup where
  group : Nat
  count : Nat
  sev : Nat
  min : Nat
  max : Nat
  locked : Bool
  deriving DecidableEq, Repr, Inhabited

/-- Table 14.3. -/
def faultGroups : List FaultGroup := [
  ⟨0x00, 272, 2, 2, 4, false⟩, ⟨0x01, 16, 1, 0, 4, false⟩, ⟨0x02, 16, 2, 2, 4, false⟩,
  ⟨0x03, 16, 2, 2, 4, false⟩, ⟨0x04, 128, 1, 0, 4, false⟩, ⟨0x05, 1, 4, 3, 4, false⟩,
  ⟨0x06, 16, 1, 1, 4, false⟩, ⟨0x07, 16, 3, 3, 4, false⟩, ⟨0x08, 16, 1, 1, 4, false⟩,
  ⟨0x09, 16, 3, 3, 4, false⟩, ⟨0x0A, 4, 2, 2, 4, false⟩, ⟨0x0B, 1, 3, 3, 4, false⟩,
  ⟨0x0C, 1, 1, 0, 4, false⟩, ⟨0x0D, 1, 1, 1, 4, false⟩, ⟨0x0E, 2, 2, 2, 4, false⟩,
  ⟨0x0F, 1, 2, 2, 4, false⟩, ⟨0x10, 1, 4, 4, 4, false⟩, ⟨0x11, 2, 0, 0, 4, false⟩,
  ⟨0x12, 1, 1, 1, 4, false⟩, ⟨0x13, 1, 3, 3, 4, false⟩, ⟨0x14, 2, 2, 2, 4, false⟩] ++ [
  ⟨0x15, 1, 4, 4, 4, false⟩, ⟨0x16, 1, 4, 4, 4, false⟩, ⟨0x17, 16, 2, 2, 4, false⟩,
  ⟨0x18, 4, 2, 2, 4, false⟩, ⟨0x19, 16, 2, 2, 4, false⟩, ⟨0x1A, 4, 2, 2, 4, false⟩,
  ⟨0x1B, 1, 3, 3, 4, false⟩, ⟨0x1C, 1, 3, 3, 4, false⟩, ⟨0x1D, 1, 3, 3, 4, false⟩,
  ⟨0x1E, 1, 3, 3, 4, false⟩, ⟨0x1F, 1, 3, 3, 4, false⟩, ⟨0x20, 1, 2, 2, 4, false⟩,
  ⟨0x21, 1, 2, 2, 4, false⟩, ⟨0x22, 1, 4, 4, 4, false⟩, ⟨0x23, 6, 2, 2, 4, false⟩,
  ⟨0x24, 5, 4, 0, 4, true⟩, ⟨0x25, 3, 4, 4, 4, true⟩]

/-- A source ID: GROUP in bits 15:10, INDEX in bits 9:0 (R387). -/
def srcId (group index : Nat) : Nat := group * 1024 + index

/-- The row of a source ID, when the ID names a source (R387). -/
def groupOf (src : Nat) : Option FaultGroup :=
  faultGroups.find? fun g => g.group == src / 1024 && decide (src % 1024 < g.count)

/-- Default severity of a source: for TAMPER it is the response rank's (Table 14.3). -/
def sevDefault (src : Nat) : Nat :=
  match groupOf src with
  | none => 0
  | some g => if g.group == 0x24 then
      (if src % 1024 = 0 then 0 else if src % 1024 = 1 then 2 else 4) else g.sev

/-- Severity of a source in force (R389). -/
def sevOf (s : State) (src : Nat) : Nat :=
  match s.faults.sev.find? (·.1 == src) with
  | some p => p.2
  | none => sevDefault src

/-! ### Units and the health map (Tables 14.4, 14.5) -/

/-- A unit ID: CLASS in bits 15:10, INDEX in bits 9:0 (R390). -/
def unitId (cls index : Nat) : Nat := cls * 1024 + index

/-- Number of units of a class (Table 14.4). -/
def unitCount (cls : Nat) : Nat :=
  [272, 16, 16, 16, 16, 4, 2, 1, 2, 4, 4, 1, 1].getD cls 0

/-- Does an ID name a unit of Table 14.4? -/
def isUnit (u : Nat) : Bool := decide (u / 1024 < 13) && decide (u % 1024 < unitCount (u / 1024))

/-- The units in the order of Table 14.4, by INDEX within a class. -/
def allUnits : List Nat :=
  (List.range 13).flatMap fun c => (List.range (unitCount c)).map (unitId c)

/-- Code of a STATE (Table 14.5). -/
def UnitState.code : UnitState → Nat
  | .serving => 0 | .standby => 1 | .degraded => 2 | .withdrawn => 3 | .failed => 4 | .gone => 5

/-- A unit's entry in a map. -/
def healthIn (m : List Health) (u : Nat) : Health :=
  (m.find? (·.unit == u)).getD { unit := u, state := .gone, info := 0 }

/-- A unit's entry in the authoritative map. -/
def State.health (s : State) (u : Nat) : Health := healthIn s.faults.map u

/-- Does a unit serve, in full or at reduced capacity? -/
def State.serves (s : State) (u : Nat) : Bool :=
  (s.health u).state == .serving || (s.health u).state == .degraded

/-- Change the entries of a map. -/
def State.mapHealth (s : State) (p : Health → Bool) (f : Health → Health) : State :=
  { s with faults.map := updWhere p f s.faults.map }

/-- Change a unit's entry. -/
def State.setHealth (s : State) (u : Nat) (st : UnitState) (info : Nat) : State :=
  s.mapHealth (·.unit == u) fun h => { h with state := st, info := info }

/-- Change only the STATE of a unit's entry. -/
def State.setUnit (s : State) (u : Nat) (st : UnitState) : State :=
  s.mapHealth (·.unit == u) fun h => { h with state := st }

/-- A health-map entry as a word (Table 14.5). -/
def Health.word (h : Health) : Nat := h.unit * 65536 + h.state.code * 8192 + h.info % 256

/-- The serving engines of a grove, by flat index (R9: 17 to a grove). -/
def servingEngines (s : State) (g : Nat) : List Nat :=
  ((List.range 17).map (g * 17 + ·)).filter fun e => s.serves (unitId 0 e)

/-- Job slots of a grove: 16 to each serving engine (R38, R381). -/
def slotCount (s : State) (g : Nat) : Nat := 16 * (servingEngines s g).length

/-- Value of FAULT_STATUS (Table 14.7). -/
def faultStatus (s : State) : Nat :=
  b2n s.faults.safe * 2 ^ 31 + b2n s.faults.self * 2 ^ 30 + b2n s.faults.injected * 2 ^ 29
    + s.faults.first % 2 ^ 16

/-- RAISED count of a source (Table 14.7). -/
def raisedOf (s : State) (src : Nat) : Nat :=
  ((s.faults.raised.find? (·.1 == src)).map (·.2)).getD 0

end Sys2Proof.Machine
end

