-- ==== Sys2Proof/Machine/Regs.lean ====
section
/-! DEFINITION. The setup register map (R491): what a read of each BAR0 register and of each status word returns. -/

namespace Sys2Proof.Machine

/-! ### Queue status words (Tables 3.4, 3.5) -/

/-- STATE of a status word. -/
def QState.code : QState → Nat
  | .absent => 0 | .active => 1 | .error => 2 | .held => 3 | .quiesced => 4

/-- SQ status word. -/
def sqStatus (q : Sq) : Nat :=
  b2n q.starved * 2 ^ 27 + q.state.code * 2 ^ 24 + (if q.state = .error then q.reason % 64 * 2 ^ 16 + q.errIndex % 65536 else 0)

/-- CQ status word. -/
def cqStatus (c : Cq) : Nat :=
  b2n c.armed * 2 ^ 27 + c.state.code * 2 ^ 24 + (if c.state = .error then c.reason % 64 * 2 ^ 16 + c.errIndex % 65536 else 0)

/-- A read of a doorbell page at 8·q or 8·q + 4; zero where there is no queue (R58). -/
def pageRead (s : State) (inst off : Nat) : Nat :=
  if off % 8 = 0 then ((s.sq? inst (off / 8)).map sqStatus).getD 0
  else if off % 8 = 4 then ((s.cq? inst (off / 8)).map cqStatus).getD 0
  else 0

/-! ### Event records as bytes (Table 15.5) -/

/-- The 32 bytes of a record. -/
def Rec.bytes (r : Rec) : Bytes :=
  let b := leBytes 2 r.code ++ leBytes 1 r.flags ++ leBytes 1 r.suppressed ++ leBytes 2 r.unit ++ leBytes 6 r.htime
    ++ leBytes 6 r.tick ++ leBytes 4 r.p0 ++ leBytes 4 r.p1 ++ leBytes 4 r.p2
  b ++ leBytes 2 (crc16 b).toNat

/-- TAIL (R421): HEAD − 24,576 once the ring has filled, otherwise where the last CLEAR or the first record left it. -/
def recTail (s : State) : Nat :=
  if 24576 < (s.recd.head + 2 ^ 32 - s.recd.tail) % 2 ^ 32 then (s.recd.head + 2 ^ 32 - 24576) % 2 ^ 32 else s.recd.tail

/-- The record a cursor selects in the ring, unflushed records among them. -/
def ringRec (s : State) (seq : Nat) : Option Rec :=
  let t := recTail s
  if (seq + 2 ^ 32 - t) % 2 ^ 32 < (s.recd.head + 2 ^ 32 - t) % 2 ^ 32 then
    (s.recd.ring ++ s.recd.buf).find? (·.seq == seq) else none

/-! ### Values of single registers -/

/-- Consecutive bits set from bit 0 up: the floor T (R357). -/
def thermometer (v : Nat) : Nat → Nat
  | 0 => 0
  | n + 1 => if bit v 0 then 1 + thermometer (v / 2) n else 0

/-- The floor T in force. -/
def State.floorT (s : State) : Nat := thermometer s.grafts.floorBits 64

/-- State code of Table 16.1. -/
def Lcs.code : Lcs → Nat
  | .blank => 0 | .test => 1 | .provisioned => 2 | .develop => 3 | .deployed => 4 | .returned => 5 | .scrap => 6
  | .invalid => 7

/-- OWNER_ROOT, the digests and settings of the data block (Table 16.4). -/
def Otp.ownerRoot (o : Otp) : Bytes := fit 32 (sub o.block 0 32)
def Otp.dDeploy (o : Otp) : Bytes := fit 32 (sub o.block 32 32)
def Otp.dReturn (o : Otp) : Bytes := fit 32 (sub o.block 64 32)
def Otp.dScrapO (o : Otp) : Bytes := fit 32 (sub o.block 96 32)
def Otp.envelope (o : Otp) : Nat := byteAt o.block 129 % 4
def Otp.policy (o : Otp) : Nat := byteAt o.block 128 % 2
/-- The policy is set with the envelope, which is never 0 (log entry 20). -/
def Otp.policySet (o : Otp) : Bool := o.envelope != 0

/-- LCS_STATE (Table 16.9). -/
def lcsState (s : State) : Nat :=
  b2n s.life.pending.isSome * 2 ^ 31 + (s.life.pending.getD 0) % 8 * 2 ^ 28 + b2n s.life.done * 8 + s.lcs.code

/-- LCS_PROV. -/
def lcsProv (s : State) : Nat :=
  let o := s.life.otp
  let set (b : Bytes) : Nat := b2n (b.any (· != 0))
  set o.ownerRoot * 2 ^ 11 + set o.dReturn * 2 ^ 10 + set o.dDeploy * 2 ^ 9 + set o.dScrapO * 2 ^ 8 + o.envelope * 16
    + b2n o.policySet * 2 + o.policy

/-- Is the lockout of R424 in force? -/
def lockedOut (s : State) : Bool := s.life.lockout.isSome

/-- LCS_XSTATUS. -/
def lcsXstatus (s : State) : Nat :=
  s.life.phase % 8 * 2 ^ 29 + s.life.lastDetail % 256 * 2 ^ 16 + s.life.mismatches % 256 * 256 + b2n (lockedOut s)

/-- Provisioned limit in W, 25 when none is provisioned (R511). -/
def envelopeWatts (e : Nat) : Nat := if e = 3 then 45 else if e = 2 then 35 else 25

/-- A signed number as an 8-bit field. -/
def int8 (i : Int) : Nat := (i % 256).toNat

/-- The power word of Table 19.7. -/
def powerWord (s : State) : Nat :=
  int8 s.power.tj * 2 ^ 24 + s.power.limit % 256 * 2 ^ 16 + b2n s.power.supply * 2 ^ 10 + b2n s.power.hot * 2 ^ 9
    + s.power.level % 8 * 2 ^ 6 + s.life.otp.envelope * 4 + s.power.envelope % 4

/-- HWD_STATUS (Table 15.7). -/
def hwdStatus (s : State) : Nat :=
  s.hwd.rankSeen % 32 * 256 + s.life.otp.policy * 128 + b2n (decide (s.hwd.vbak < 2000)) * 64 + b2n s.hwd.throttle * 16
    + b2n s.stopped * 8 + b2n s.hwd.erased * 4 + b2n s.hwd.cold * 2 + b2n s.hwd.key.isSome

/-- Number of units of a class in a state. -/
def countUnits (m : List Health) (cls : Nat) (p : UnitState → Bool) : Nat :=
  (m.filter fun h => h.unit / 1024 == cls && p h.state).length

/-- HEALTH_SUMMARY of a map (Table 14.7). -/
def healthSummary (safe : Bool) (m : List Health) : Nat :=
  b2n safe * 2 ^ 31 + countUnits m 6 (· == .serving) % 4 * 2 ^ 29
    + countUnits m 8 (fun x => x == .serving || x == .degraded) % 4 * 2 ^ 27
    + countUnits m 1 (· == .serving) % 32 * 2 ^ 22 + countUnits m 0 (· == .serving) % 512

/-- An RWT write that waits for the boundary (R51). -/
def pendingReg (s : State) (key : Nat) : Option Nat :=
  s.adm.changes.reverse.findSome? fun c => match c with
    | .reg _ off v => if off = key then some v else none
    | _ => none

/-- Is any RWT write waiting? -/
def rwtPending (s : State) : Bool :=
  s.adm.changes.any fun c => match c with
    | .reg _ _ _ => true
    | _ => false

/-- Key of a tamper channel's configuration among the waiting RWT writes. -/
def tmpCfgKey (ch : Nat) : Nat := 0x10000 + ch

/-- HWD_TMP_CFG of a channel. -/
def tmpCfgWord (c : Tamper) : Nat :=
  b2n c.enable * 2 ^ 31 + c.rank % 8 * 2 ^ 28 + c.n % 16 * 2 ^ 24 + (c.w - 1) % 4096 * 2 ^ 12 + b2n c.polarity * 2 ^ 11

/-- Records that HWD_REC_RATE cannot limit (R413). -/
def exemptCode (code : Nat) : Bool := code == 1 || code == 2 || code == 3 || (0x2000 ≤ code && code < 0x3000)

/-- HWD_REC_RATE of a code. -/
def recRate (s : State) (code : Nat) : Nat :=
  if exemptCode code then 0
  else let b := bucketOf s.recd.buckets code s.htime
       b.depth % 256 * 256 + b.rate % 256

/-- Signed 8-bit phase error and the count of TETHER_SYNC. -/
def tetherSync (s : State) : Nat := s.tether.syncs % 65536 * 65536 + int8 s.tether.syncErr

/-- Code of a link's STATE (Table 17.11). -/
def LinkState.code : LinkState → Nat
  | .down => 0 | .training => 1 | .discovery => 2 | .paired => 3 | .lost => 4

/-- TETHER_LINKL. -/
def linkWord (k : TLink) : Nat :=
  b2n k.split * 2 ^ 31 + k.state.code * 2 ^ 28 + k.peer / 16 % 4 * 2 ^ 26 + k.peer % 16 * 2 ^ 22 + k.width % 8 * 2 ^ 19
    + sat 255 k.naks * 256 + sat 255 k.retrains

/-- A 16-bit map of members. -/
def memberMap (s : State) (p : Member → Bool) : Nat :=
  ((List.range 16).map fun d => if s.tether.members.any (fun m => m.num == d && p m) then 2 ^ d else 0).sum

/-- The port of a pair with this port: partner and whether this is PORT_A. -/
def pairOf (s : State) (p : Nat) : Option (Nat × Bool × Bool) :=
  s.adm.pairs.findSome? fun x =>
    if x.1 = p then some (x.2.1, true, !x.2.2) else if x.2.1 = p then some (x.1, false, x.2.2) else none

/-! ### The blocks -/

/-- DEV (Table 18.6). -/
def readDev (s : State) (p off : Nat) : Nat :=
  match off with
  | 0x00 => 0x8256 * 65536 + s.pins.stepping % 16 * 4096 + s.pins.grade % 16 * 256 + p
  | 0x04 => 0x1E73
  | 0x08 => s.grafts.version
  | 0x0C => 0x100 * 2 ^ 17 + 0x10 * 2 ^ 12 + 0x4 * 256 + 0x4 * 16
  | _ => if 0x10 ≤ off ∧ off < 0x20 then leAt s.pins.identity (off - 0x10) 4 else 0

/-- TICK (Tables 2.1 to 2.5); `cur` reads current values in place of latched ones (R417). -/
def readTick (s : State) (p off : Nat) (cur : Bool) : Nat :=
  let t := s.tick
  match off with
  | 0x00 => tickCount s % 2 ^ 32
  | 0x04 => if cur then tickCount s / 2 ^ 32 else (s.port p).tickHi
  | 0x08 => b2n t.cfgReject * 8 + b2n t.wrapped * 4 + b2n (rwtPending s) * 2 + b2n t.running
  | 0x0C => (pendingReg s 0x010C).getD (b2n t.insertEn) % 2
  | 0x10 => b2n t.rejValid * 2 ^ 31 + t.rejInst % 1024 * 65536 + t.rejOff % 65536
  | _ => 0

/-- ADMQ (Table 4.1). -/
def readAdmq (s : State) (p off : Nat) : Nat :=
  let a := (s.port p).admq
  match off with
  | 0x00 => a.sqBase % 2 ^ 32 / 4096 * 4096
  | 0x04 => a.sqBase / 2 ^ 32 % 65536
  | 0x08 => a.cqBase % 2 ^ 32 / 4096 * 4096
  | 0x0C => a.cqBase / 2 ^ 32 % 65536
  | 0x10 => a.vector % 2048 * 65536 + a.cqLog2 % 16 * 256 + a.sqLog2 % 16
  | 0x14 => b2n a.cfgBad * 4 + b2n a.running * 2 + b2n a.enable
  | 0x20 => sqStatus a.sq
  | 0x24 => cqStatus a.cq
  | 0x28 => b2n (pairOf s p).isSome * 2 ^ 17 + b2n (s.adm.primary == p) * 2 ^ 16 + p * 256
  | _ => 0

/-- DATU (Table 18.7). -/
def readDatu (s : State) (p off : Nat) : Nat :=
  let d := (s.port p).datu
  match off with
  | 0x00 => b2n d.valid * 2 ^ 31 + d.level % 8 * 2 ^ 28 + d.cause % 16 * 2 ^ 24 + d.access % 16 * 2 ^ 20 + d.inst % 1024
  | 0x04 => d.iova % 2 ^ 32
  | 0x08 => d.iova / 2 ^ 32 % 65536
  | 0x0C => d.count
  | 0x10 => (s.tlb.filter fun l => adminPort s l.inst == p).length % 8192
  | _ => 0

/-- HEALTH (Table 14.7). -/
def readHealth (s : State) (p off : Nat) (cur : Bool) : Nat :=
  let h := if cur then s.faults.history.headD default else (s.port p).health
  match off with
  | 0x00 => (s.faults.history.headD default).epoch % 2 ^ 32
  | 0x04 => h.tick % 2 ^ 32
  | 0x08 => healthSummary s.faults.safe h.map
  | 0x0C => (s.port p).healthSel
  | 0x10 => if isUnit (s.port p).healthSel then (healthIn h.map (s.port p).healthSel).word else 0xFFFFFFFF
  | _ => 0

/-- FAULT_SEV_VAL of a source. -/
def sevVal (s : State) (src : Nat) : Nat :=
  match groupOf src with
  | none => 0xFFFFFFFF
  | some g => raisedOf s src % 65536 * 65536 + b2n g.locked * 2 ^ 15 + g.max * 256 + g.min * 16 + sevOf s src

/-- FAULT (Table 14.7); the injection registers read zero outside TEST (R399). -/
def readFault (s : State) (p off : Nat) : Nat :=
  let f := s.faults
  let test := s.lcs == .test
  match off with
  | 0x00 => faultStatus s
  | 0x04 => f.safeTick % 2 ^ 32
  | 0x08 => f.contained % 65536 * 65536 + f.degraded % 65536
  | 0x0C => (s.port p).sevSel
  | 0x10 => sevVal s (s.port p).sevSel
  | 0x20 => if test then f.injSrc % 65536 else 0
  | 0x24 => if test then f.injMode % 4 else 0
  | 0x28 => if test then b2n f.injDone * 2 ^ 31 + b2n f.injRefused * 2 ^ 30 + f.injStatSrc % 65536 else 0
  | _ => 0

/-- Code of the staging STATE (Table 12.12). -/
def StageState.code : StageState → Nat
  | .idle => 0 | .opened => 1 | .checking => 2 | .writing => 3 | .done => 4 | .failed => 5

/-- GRAFT (Table 12.12). -/
def readGraft (s : State) (off : Nat) : Nat :=
  let g := s.grafts
  match off with
  | 0x00 => g.version % 2 ^ 32
  | 0x04 => s.floorT
  | 0x08 => g.routines.length % 256 * 2 ^ 24 + g.reasonA % 256 * 2 ^ 16 + g.reasonB % 256 * 256 + b2n g.floorPending * 16
      + b2n g.bundle * 8 + b2n g.owner * 4 + g.slot % 4
  | 0x0C => g.stage.target % 4 * 16
  | 0x10 => g.stage.len % 2 ^ 32
  | 0x18 => g.stage.state.code * 2 ^ 29 + g.stage.reason % 32 * 2 ^ 24 + sat 262144 g.stage.buf.length
  | _ => 0

/-- LCS (Table 16.9). -/
def readLcs (s : State) (off : Nat) : Nat :=
  match off with
  | 0x00 => lcsState s
  | 0x04 => lcsProv s
  | 0x08 => lcsXstatus s
  | 0x0C => b2n s.life.challenge.isSome * 2 + b2n s.life.debugOpen
  | 0x30 => s.life.fwVersion % 2 ^ 32
  | _ => if 0x10 ≤ off ∧ off < 0x30 then leAt s.life.otp.ownerRoot (off - 0x10) 4 else 0

/-- Bytes of the record a port's window shows. -/
def windowRec (s : State) (p : Nat) : Bytes :=
  let x := s.port p
  let r := if x.recArea then s.recd.pinned[x.recCursor]? else ringRec s x.recCursor
  match r with
  | some r => r.bytes
  | none => zeros 32

/-- Bytes of the snapshot chunk a port's window shows. -/
def windowSnap (s : State) (p : Nat) : Bytes :=
  let x := s.port p
  match s.hwd.snap.slots.find? (·.1 == x.snapSlot) with
  | some q => sub q.2 (32 * x.snapChunk) 32
  | none => zeros 32

/-- HWD (Table 15.7). -/
def readHwd (s : State) (p off : Nat) (cur : Bool) : Nat :=
  let x := s.port p
  let h := s.hwd
  let c := h.channels.getD x.tmpSel default
  match off with
  | 0x00 => hwdStatus s
  | 0x04 => s.htime % 2 ^ 32
  | 0x08 => if cur then s.htime / 2 ^ 32 % 65536 else x.timeHi
  | 0x0C => x.tmpSel
  | 0x10 => (pendingReg s (tmpCfgKey x.tmpSel)).getD (tmpCfgWord c)
  | 0x14 => b2n c.fired * 2 ^ 31 + c.lastRank % 8 * 2 ^ 28 + sat 65535 c.count
  | 0x18 => b2n x.recArea * 2 + b2n x.recAuto
  | 0x1C => x.recCursor
  | 0x20 => s.recd.head
  | 0x24 => recTail s
  | 0x28 => x.rateSel
  | 0x2C => recRate s x.rateSel
  | 0x50 => h.snap.trig % 64 / 2 * 2 + 1
  | 0x54 => x.listSel
  | 0x58 => h.snap.list.getD x.listSel 0xFFFF
  | 0x5C => x.snapSlot * 65536 + x.snapChunk
  | 0x60 => h.snap.next
  | 0x64 => h.dump.state * 2 ^ 29 + h.dump.reason % 256 * 65536 + h.dump.kib % 65536
  | _ => if 0x30 ≤ off ∧ off < 0x50 then leAt (windowRec s p) (off - 0x30) 4
    else if 0x70 ≤ off ∧ off < 0x90 then leAt (windowSnap s p) (off - 0x70) 4 else 0

/-- TETHER (Table 17.11). -/
def readTether (s : State) (p off : Nat) (cur : Bool) : Nat :=
  let t := s.tether
  match off with
  | 0x00 => b2n t.joined * 2 ^ 11 + t.mode % 2 * 2 ^ 10 + t.canopy % 4 * 256 + t.member % 16 * 16 + t.active % 4 * 4
      + s.pins.role % 4
  | 0x04 => memberMap s (·.lost) * 65536 + memberMap s (·.joined)
  | 0x08 => t.off % 2 ^ 32
  | 0x0C => if cur then t.off / 2 ^ 32 % 65536 else (s.port p).offHi
  | 0x10 => tetherSync s
  | 0x40 => sat 65535 t.authErr * 65536 + sat 65535 t.lengthErr
  | _ => if 0x20 ≤ off ∧ off < 0x40 then linkWord (t.links.getD ((off - 0x20) / 4) default) else 0

/-- A general counter (Table 18.8): the six of `perf`, then PERF_ENG_BUSY of the port's selected engine. -/
def perfValue (s : State) (p k : Nat) : Nat :=
  if k < 6 then s.work.perf.getD k 0
  else ((s.engines[(s.port p).perfSel]?).map (·.busy)).getD 0

/-- PERF: general and SPEC_ counters (Tables 18.8, 10.7). -/
def readPerf (s : State) (p off : Nat) (cur : Bool) : Nat :=
  let pair (v : Nat) (latch : List Nat) (k : Nat) : Nat :=
    if off % 8 = 0 then v % 2 ^ 32 else if cur then v / 2 ^ 32 % 65536 else latch.getD k 0
  if 0x08 ≤ off ∧ off < 0x38 then pair (perfValue s p (off / 8 - 1)) (s.port p).perfHi (off / 8 - 1)
  else if off = 0x40 then (s.port p).perfSel
  else if 0x48 ≤ off ∧ off < 0x50 then pair (perfValue s p 6) (s.port p).perfHi 6
  else if 0x800 ≤ off ∧ off < 0x838 then
    pair (s.work.spec.getD ((off - 0x800) / 8) 0) (s.port p).specHi ((off - 0x800) / 8)
  else 0

/-- PORT (Table 18.9). -/
def readPort (s : State) (p off : Nat) : Nat :=
  let x := s.port p
  match off with
  | 0x00 => ((List.range 4).map fun q => if (s.port q).present then 2 ^ (8 + q) else 0).sum + s.pins.split % 4 * 16 + p
  | 0x04 => b2n x.dlUp * 2 ^ 31 + x.speed % 8 * 2 ^ 28 + x.linkWidth % 32 * 2 ^ 23 + x.maxWidth % 32 * 2 ^ 16
      + sat 65535 x.recoveries
  | 0x08 => match pairOf s p with
    | none => sat 65535 x.moves
    | some (q, first, serving) => 2 ^ 31 + b2n first * 2 ^ 30 + b2n serving * 2 ^ 29
        + b2n (s.serves (unitId 9 q)) * 2 ^ 28 + q * 2 ^ 24 + sat 65535 x.moves
  | 0x0C => x.events % 128
  | 0x10 => b2n x.vfEnable * 2 ^ 31 + b2n x.ari * 2 ^ 30 + x.numVfs % 256
  | 0x14 =>
    let m := s.msixOf (p * 256)
    b2n m.enable * 2 ^ 31 + b2n m.funcMask * 2 ^ 30 + sat 2047 m.pba.length
  | _ => 0

/-- A read of a BAR0 register by the AF of a port (Table 18.5); reserved offsets read zero (R11). -/
def readReg (s : State) (p off : Nat) (cur : Bool) : Nat :=
  if off % 4 ≠ 0 then 0
  else if off < 0x0100 then readDev s p off
  else if off < 0x0200 then readTick s p (off - 0x0100) cur
  else if off < 0x0400 then readAdmq s p (off - 0x0200)
  else if off < 0x0800 then readDatu s p (off - 0x0400)
  else if off < 0x0C00 then readHealth s p (off - 0x0800) cur
  else if off < 0x1000 then readFault s p (off - 0x0C00)
  else if off < 0x1100 then readGraft s (off - 0x1000)
  else if off < 0x1200 then readLcs s (off - 0x1100)
  else if off < 0x2000 then readHwd s p (off - 0x1200) cur
  else if off < 0x3000 then readTether s p (off - 0x2000) cur
  else if off < 0x4000 then readPerf s p (off - 0x3000) cur
  else if off < 0x5000 then readPort s p (off - 0x4000)
  else 0

end Sys2Proof.Machine
end

