-- ==== Sys2Proof/Machine/Snapshot.lean ====
section
/-! DEFINITION. Snapshots (R417). -/

namespace Sys2Proof.Machine

/-- The list up to its first 0xFFFF. -/
def snapEntries (l : List Nat) : List Nat := (l.take 256).takeWhile (· != 0xFFFF)

/-- The 2 KiB slot of a snapshot; registers are read as the primary port reads them (log entry 21). -/
def snapBytes (s : State) (triggers source missed : Nat) : Bytes :=
  let l := fit 512 ((s.hwd.snap.list ++ List.replicate 256 0xFFFF).take 256 |>.flatMap (leBytes 2))
  let vals := (snapEntries s.hwd.snap.list).map fun off => readReg s s.adm.primary off true
  let head := leBytes 4 s.hwd.snap.next ++ leBytes 2 triggers ++ leBytes 2 vals.length
    ++ leBytes 8 (tickCount s) ++ leBytes 8 s.htime ++ leBytes 2 source ++ leBytes 2 missed
    ++ leBytes 4 s.grafts.version ++ zeros 30
  let body := l ++ fit 1024 (vals.flatMap (leBytes 4))
  fit 2048 (head ++ leBytes 2 (crc16 (head ++ body)).toNat ++ body)

/-- Take a snapshot into slot SNAP_SEQ mod 128, with its SNAPSHOT record. -/
def takeSnapshot (s : State) (triggers source : Nat) : State :=
  let n := s.hwd.snap.next
  let b := snapBytes s triggers source s.hwd.snap.missed
  let s := { s with hwd.snap.slots := (n % 128, b) :: s.hwd.snap.slots.filter (·.1 != n % 128),
                    hwd.snap.next := (n + 1) % 2 ^ 32, hwd.snap.missed := 0 }
  emit s 0x0403 0 0 n

/-- A trigger other than safe state and PWR_FAIL_N: it falls due with the others of its tick (R417). -/
def snapTrigger (s : State) (b : Nat) : State :=
  if bit s.hwd.snap.trig b || b == 7 then
    { s with hwd.snap.due := if bit s.hwd.snap.due b then s.hwd.snap.due else s.hwd.snap.due + 2 ^ b }
  else s

/-- The triggers of a tick take one snapshot, unless one was taken within 1,000 t: those are counted in the next header. -/
def snapBoundary (s : State) : State :=
  let d := s.hwd.snap.due
  if d = 0 then s else
  let s := { s with hwd.snap.due := 0 }
  let late := match s.hwd.snap.lastAt with
    | some t => decide (now s < t + 1000)
    | none => false
  if late then
    { s with hwd.snap.missed := s.hwd.snap.missed + ((List.range 8).filter (bit d)).length }
  else takeSnapshot { s with hwd.snap.lastAt := some (now s) } d 0xFFFF

end Sys2Proof.Machine
end

