-- ==== Sys2Proof/Machine/Faults.lean ====
section
/-! DEFINITION. The fault collector (14_fail_operational.md): raises, withdrawal and fail-over of units, safe state. -/

namespace Sys2Proof.Machine

/-! ### Commit records and abandoned slices (R342, R343) -/

/-- The commit record that counts: the standing one with the higher sequence number. -/
def Run.standing (r : Run) : CommitRec :=
  if r.recA.valid && (!r.recB.valid || decide (r.recB.seq ≤ r.recA.seq)) then r.recA else r.recB

/-- Back to the last counted commit; key deliveries are zeroised, requests at the mailbox and the MXU port withdrawn (Table
12.4). -/
def Run.restore (r : Run) : Run :=
  { r with cur := r.standing.arch, staged := none, paused := true, key := [], delivery := none, delivered := 0, trapLd := none,
           declSrc := 0, mbox := [0, 0, 0], mxu := List.replicate 8 { v := 0, tag := false } }

/-- A slice begins: the state is that of the last counted commit (R290). -/
def Run.begin (r : Run) : Run :=
  { r with cur := r.standing.arch, staged := none, paused := false, hsSel := 0 }

/-- The boundary window: what the tick committed is written into the older record (R342). -/
def Run.count (r : Run) : Run :=
  match r.staged with
  | none => r
  | some a =>
    let n : CommitRec := { arch := a, seq := max r.recA.seq r.recB.seq + 1, valid := true }
    if r.standing = r.recA then { r with recB := n, staged := none } else { r with recA := n, staged := none }

/-- MXU commands are withdrawn; the contexts of those that had not ended are zeroised (R194, R195). -/
def dropMxu (s : State) (p : MxuCmd → Bool) : State :=
  let zs := s.exec.mxu.filterMap fun c => if p c && c.phase != .ended then
    c.ctx.map fun k => ({ mxu := c.mxu, ctx := k, since := now s } : MxuZero) else none
  { s with exec.mxu := s.exec.mxu.filter (!p ·), exec.mxuZero := s.exec.mxuZero ++ zs }

/-- The slice a job had in tick `t` is abandoned: the job goes back to its last commit point and runs again, in a later tick,
in class 1 of R36, or in class 4 if it is unconfirmed; the MXU command it issued in that tick is abandoned, and the sequencer
forgets where it stood (R343, R344). -/
def abandonIn (s : State) (j t : Nat) : State :=
  (({ dropMxu s (fun c => c.job == j && c.since == t) with
      exec.seqs := s.exec.seqs.filter fun q =>
        decide (272 ≤ q.id) || some q.id != (s.job? j).map (fun x : Job => x.engine) }).updJob j fun x =>
    { x with rerun := true, sliceTick := none, trying := none }).updRun j Run.restore

/-- A slice of the present tick is abandoned. -/
def abandonSlice (s : State) (j : Nat) : State := abandonIn s j (now s)

/-- Tick `t` of a job's work is lost to fail-over: its CE carries FAILOVER_SEEN, and the tick counts once (R47, R379). -/
def Job.lose (t : Nat) (j : Job) : Job :=
  { j with failover := true, lostTicks := if j.lostTicks.contains t then j.lostTicks else t :: j.lostTicks }

/-- Did an unended part run on an engine in tick `t`? -/
def Part.ran (e t : Nat) (p : Part) : Bool := p.engine == e && p.sliceTick == some t && p.ended.isNone

/-- The slices that parts of jobs had on an engine in tick `t` are abandoned; they alone run again (R141, R153, R344). -/
def abandonParts (s : State) (e t : Nat) : State :=
  let drop (j : Job) : Job :=
    { j with parts := updWhere (Part.ran e t) (fun p => { p with sliceTick := none, rerun := true }) j.parts }
  { s with work.jobs := updWhere (fun j => j.parts.any (Part.ran e t)) (fun j => (drop j).lose t) s.work.jobs }

/-! ### Ending jobs -/

/-- What a job holds beneath it goes when it ends: its engine state is zeroised (R292), its MXU command abandoned and the
context of one that had not ended is zeroised (R194, R195). -/
def dropExec (s : State) (j : Nat) : State :=
  { dropMxu s (·.job == j) with
    exec.runs := s.exec.runs.filter (·.job != j),
    entropy.waiting := s.entropy.waiting.filter (·.2 != some j) }

/-- A job that has not passed its final commit ends with a failure found in tick `t`: nothing is written
and nothing changes (R14); it is released under its class (R45 to R48). -/
def failJob (s : State) (j status detail t : Nat) : State :=
  match s.job? j with
  | none => s
  | some x => if x.result.isSome then s else
    (dropMxu s (·.job == j)).updJob j fun x =>
      { x with result := some { status := status, detail := detail, len := 0, out := [], effects := [] },
               commitTick := some t, waitsOn := none, parts := [] }

/-! ### Safe state (R394, R26, R53) -/

/-- FENCE is sent on every paired tether (R394, Table 17.8). -/
def sendFence (s : State) (src : Nat) : State :=
  ((s.tether.links.filter (·.state == .paired)).map (·.peer)).foldl
    (fun s d => sendMsg s d 5 (leBytes 2 src ++ zeros 2)) s

/-- What a stop of the data path does, in safe state and in power-fail stop alike (Table 14.9, R26, R53): every job without a
posted CE is abandoned, waiting RWT writes are discarded, FENCE is sent, ERR_N driven low; job state, envelopes, MXU
contexts and key-cache slices are zeroised. -/
def stopCore (s : State) (src : Nat) : State :=
  sendFence { s with
    faults.errN := false, faults.raises := [],
    work.jobs := [], work.unposted := [], work.cqs := s.work.cqs.map (fun c => { c with heldCes := [], reserved := 0 }), work.done := [], work.zeroising := [],
    exec.runs := [], exec.mxu := [], exec.mxuZero := [], entropy.waiting := s.entropy.waiting.filter (·.2.isNone),
    adm.changes := s.adm.changes.filter (fun c => match c with | .reg _ _ _ => false | _ => true),
    groves := s.groves.map (fun g => { g with cache := [] }) } src

/-- Safe-state entry (Table 14.9): the stop, the SAFE_STATE record and the flush, a snapshot (R417); the dump falls due
(R418). -/
def safeCore (s : State) (src : Nat) (self inj : Bool) : State :=
  if s.faults.safe then s else
  let s := { s with
    faults.safe := true, faults.first := src, faults.self := self, faults.injected := inj,
    faults.safeTick := tickCount s, hwd.dump.due := !s.stopped,
    hwd.dump.state := if s.stopped then s.hwd.dump.state else 1,
    hwd.dump.health := s.faults.history.headD default, hwd.dump.jobs := s.flying.length, hwd.dump.secs := [] }
  let s := stopCore s src
  let s := emitRec s 0x0003 4 0xFFFF (faultStatus s) 0 0 inj
  let s := flushRecorder s
  takeSnapshot { s with hwd.snap.due := 0 } (1 + s.hwd.snap.due) src

/-! ### Raises (R386 to R388) -/

/-- The unit the INDEX of a source gives, or 0xFFFF; ENGINE_CE and MASKGEN name theirs in the raise
(Table 14.3, R528). -/
def unitOfSource (src : Nat) : Nat :=
  let i := src % 1024
  match src / 1024 with
  | 0x00 => unitId 0 i
  | 0x03 => unitId 1 i
  | 0x04 => unitId 1 (i / 8)
  | 0x06 => unitId 2 i
  | 0x08 => unitId 3 i
  | 0x09 => unitId 4 i
  | 0x0A => unitId 5 i
  | 0x0E => unitId 6 i
  | 0x0F => unitId 7 0
  | 0x11 => unitId 8 i
  | 0x14 => unitId 8 i
  | 0x17 => unitId 9 (i / 4)
  | 0x18 => unitId 9 i
  | 0x19 => unitId 10 (i / 4)
  | 0x1A => unitId 10 i
  | _ => 0xFFFF

/-- A raise: counted, recorded, and by its severity in force asserted, queued for step 1 of the next
boundary, or acted on at once (R386 to R388, Table 14.2). -/
def raiseCore (s : State) (src unit p2 : Nat) (inj : Bool) : State :=
  let sev := sevOf s src
  let n := satInc 65535 (raisedOf s src)
  let s := { s with
    faults.raised := (src, n) :: s.faults.raised.filter (·.1 != src),
    faults.degraded := if sev = 2 then satInc 65535 s.faults.degraded else s.faults.degraded,
    faults.contained := if sev = 3 then satInc 65535 s.faults.contained else s.faults.contained,
    faults.mgAlertN := if 2 ≤ sev then false else s.faults.mgAlertN }
  let s := emitRec s (0x1000 + src / 1024) sev unit src n p2 inj
  let s := if sev = 2 then snapTrigger s 2 else if sev = 3 then snapTrigger s 3 else s
  let s := { s with stw.events := s.stw.events ||| 4 }
  let s := if 2 ≤ sev then flushRecorder s else s
  if sev = 2 ∨ sev = 3 then
    { s with faults.raises := s.faults.raises ++ [{ source := src, sev := sev, unit := unit }],
             faults.updates := s.faults.updates.filter fun h => h.unit != unit }
  else s

/-- A raise with its FATAL action (Table 14.2). -/
def raise (s : State) (src unit p2 : Nat) (inj : Bool) : State :=
  let sev := sevOf s src
  let s := raiseCore s src unit p2 inj
  if sev = 4 then safeCore s src false inj else s

/-- A raise of a source that names the unit its INDEX gives. -/
def raiseSrc (s : State) (group index p2 : Nat) : State :=
  raise s (srcId group index) (unitOfSource (srcId group index)) p2 false

/-- The same, detected or injected (R399). -/
def raiseAs (s : State) (group index : Nat) (inj : Bool) : State :=
  raise s (srcId group index) (unitOfSource (srcId group index)) 0 inj

/-! ### Withdrawal at step 1 (R381, R383, R528) -/

/-- The STATE a withdrawn unit takes: ports, lanes, channels, noise sources and the stewards are
expected back, lanes serve reduced, the rest is out until the next power-up or RESET_N. -/
def withdrawnState (src : Nat) : UnitState :=
  match src / 1024 with
  | 0x09 => .withdrawn
  | 0x0A => .withdrawn
  | 0x0F => .withdrawn
  | 0x11 => .degraded
  | 0x14 => .withdrawn
  | 0x17 => .degraded
  | 0x18 => .withdrawn
  | 0x19 => .degraded
  | 0x1A => .withdrawn
  | _ => .failed

/-- Number of serving engines shown in a grove's INFO (Table 14.4). -/
def refreshGrove (s : State) (g : Nat) : State :=
  s.mapHealth (·.unit == unitId 2 g) fun h => { h with info := (servingEngines s g).length }

/-- The MXU that serves a grove's MXU work: its own, or the first serving one after it (R197). -/
def mxuFor (s : State) (g : Nat) : Option Nat :=
  ((List.range 16).map fun k => (g + k) % 16).find? fun m => s.serves (unitId 1 m)

/-- Shown in every MXU's INFO: the MXU serving that grove's work (Table 14.4). -/
def refreshMxus (s : State) : State :=
  s.mapHealth (·.unit / 1024 == 1) fun h => { h with info := (mxuFor s (h.unit % 1024)).getD 0 }

/-- Every job of a grove ends when no engine of it serves (R381); `t` is the tick that has ended. -/
def endGroveJobs (s : State) (g t : Nat) : State :=
  (s.work.jobs.filter (·.grove == g)).foldl (fun s j => failJob s j.id 0x0600 0xE0 t) s

/-- Resident jobs of an engine. -/
def residents (s : State) (e : Nat) : Nat := (s.flying.filter fun j => j.engine == e && j.member.isNone).length

/-- The serving engine of a grove with the fewest resident jobs, among those with a slot free (R38). -/
def leastLoaded (s : State) : List Nat → Option Nat
  | [] => none
  | e :: es => match leastLoaded s es with
    | some b => if residents s e ≤ residents s b then some e else some b
    | none => if residents s e < 16 then some e else none

/-- A job resident on an engine that has gone takes a slot of another; beyond the grove's slots it stays in grove memory
without one, engine 272, until one is free (R38, R381). -/
def rehome (s : State) (g j : Nat) : State :=
  s.updJob j fun x => { x with engine := (leastLoaded s (servingEngines s g)).getD 272 }

/-- Fail-over of an engine withdrawn after tick `t` (R381): the spare takes its position when it stands by, and its resident
jobs move there; else they spread over the engines left.  What ran on it in that tick is abandoned and lost; a job past its
final commit has lost nothing (R47).  With no engine left the grove's jobs end. -/
def failEngine (s : State) (e t : Nat) : State :=
  let g := e / 17
  let pos := (s.health (unitId 0 e)).info
  let s := s.setUnit (unitId 0 e) .failed
  let spare := g * 17 + 16
  let there := (s.work.jobs.filter (·.engine == e)).map (·.id)
  let hit := (s.work.jobs.filter fun j => j.engine == e && j.sliceTick == some t && j.result.isNone).map (·.id)
  let s := hit.foldl (fun s j => (abandonIn s j t).updJob j (Job.lose t)) (abandonParts s e t)
  let s := if (s.health (unitId 0 spare)).state == .standby && spare != e then
      { s.setHealth (unitId 0 spare) .serving pos with
        work.jobs := updWhere (·.engine == e) (fun j => { j with engine := spare }) s.work.jobs }
    else there.foldl (fun s j => rehome s g j) s
  let s := refreshGrove s g
  if (servingEngines s g).isEmpty then endGroveJobs (raise s (srcId 0x07 g) 0xFFFF 0 false) g t else s

/-- Does a job do its work in an MXU: every classical and HYBRID_KEX one (R197)? -/
def needsMxu (j : Job) : Bool :=
  j.opcode == 0x50 || (decide (0x10 ≤ j.alg) && decide (j.alg ≤ 0x14) && j.opcode != 0x41 && j.opcode != 0x42 && j.opcode != 0x43)

/-- MXU_NONE: when the last MXU has gone every classical and HYBRID_KEX job ends with DEVICE_FAULT, DETAIL 0x25 (R197). -/
def mxuNone (s : State) (t : Nat) : State :=
  if (mxuFor s 0).isSome then s else
  (s.work.jobs.filter fun j => needsMxu j && j.member.isNone).foldl (fun s j => failJob s j.id 0x0600 0x25 t) (raise s (srcId 0x05 0) 0xFFFF 0 false)

/-- A grove withdrawn whole (R528). -/
def failGrove (s : State) (g t : Nat) : State :=
  let s := s.setUnit (unitId 2 g) .failed
  let s := ((List.range 17).map (g * 17 + ·)).foldl (fun s e => s.setUnit (unitId 0 e) .failed) s
  let last := (mxuFor s 0).isSome
  let s := refreshMxus (refreshGrove (s.setUnit (unitId 1 g) .failed) g)
  let s := endGroveJobs s g t
  if last then mxuNone s t else s

/-- The unit of a raise is withdrawn or reduced, and its redundancy path takes over. -/
def withdraw (s : State) (src unit t : Nat) : State :=
  if !isUnit unit || (s.health unit).state == .failed then s else
  match unit / 1024 with
  | 0 => failEngine s (unit % 1024) t
  | 1 => mxuNone (refreshMxus (s.setUnit unit .failed)) t
  | 2 => failGrove s (unit % 1024) t
  | 6 =>
    let other := unitId 6 (1 - unit % 1024)
    let s := s.setUnit unit .failed
    if (s.health other).state == .standby then s.setUnit other .serving else s
  | 5 =>
    let k := (s.entropy.sources.getD (unit % 1024) default).failures
    s.setHealth unit (if 3 ≤ k then .failed else .withdrawn) (min 3 k)
  | 8 => if src / 1024 = 0x14 then s.setHealth unit .withdrawn 0 else s.setUnit unit (withdrawnState src)
  | _ => s.setUnit unit (withdrawnState src)

/-- The raises of the tick that has ended take effect (R388): one per unit, at the highest severity. -/
def applyRaises (s : State) : State :=
  let t := now s - 1
  let rs := s.faults.raises
  rs.foldl (fun s r => withdraw s r.source r.unit t) { s with faults.raises := [] }

/-- Units that return, or whose entry changes, at step 1. -/
def applyUpdates (s : State) : State :=
  s.faults.updates.foldl (fun s h => if (s.health h.unit).state == .failed then s else s.setHealth h.unit h.state h.info)
    { s with faults.updates := [] }

/-- A unit's entry as it will be from step 1 of the next boundary. -/
def State.updateUnit (s : State) (u : Nat) (st : UnitState) (info : Nat) : State :=
  { s with faults.updates := s.faults.updates ++ [{ unit := u, state := st, info := info }] }

/-! ### Reseeds of the grove DRBGs (R370, R371) -/

/-- A grove DRBG takes a conditioned block: it is reseeded, and leaves its error state (R371). -/
def reseed (s : State) (g : Nat) : State :=
  let wasDown := (s.groves.getD g default).drbgError
  let s := { s with groves := s.groves.modify g fun x => { x with drbgSeeded := now s, drbgError := false } }
  if wasDown then s.updateUnit (unitId 4 g) .serving 0 else s

/-- The healthy source whose block is taken next: the first of the rotation, from the source whose turn it is on, for which one
stands (R370). -/
def nextSource (s : State) : Option Nat :=
  ((List.range 4).map fun k => (s.entropy.turn + k) % 4).find? fun i =>
    !(s.entropy.sources.getD i default).out && s.entropy.blocks.any (·.1 == i)

/-- A reseed from the next conditioned block of the rotation, where one stands. -/
def takeBlock (s : State) (g : Nat) : Option State :=
  match nextSource s with
  | some i => some (reseed { s with
      entropy.blocks := s.entropy.blocks.eraseP (·.1 == i), entropy.turn := (i + 1) % 4 } g)
  | none => none

/-- The requests that wait are served in order of arrival, while blocks stand; `n` bounds their number (R370). -/
def serveRequests : Nat → State → State
  | 0, s => s
  | n + 1, s => match s.entropy.waiting with
    | [] => s
    | r :: rs => match takeBlock s r.1 with
      | some t => serveRequests n { t with entropy.waiting := rs }
      | none => s

/-- A request for a block joins those that wait (R370). -/
def askBlock (s : State) (g : Nat) (job : Option Nat) : State :=
  { s with entropy.waiting := s.entropy.waiting ++ [(g, job)] }

/-! ### Publication -/

/-- Publish the health map for the tick; the copies of the last three boundaries stay readable (R391). -/
def publishHealth (s : State) (before : List Health) : State :=
  let e := if s.faults.map = before then s.faults.epoch else (s.faults.epoch + 1) % 2 ^ 32
  { s with faults.epoch := e, faults.published := now s,
           faults.history := (⟨e, tickCount s, s.faults.map⟩ :: s.faults.history).take 3 }

end Sys2Proof.Machine
end

