-- ==== Sys2Proof/Machine/Rings.lean ====
section
/-! DEFINITION. Submission and completion rings (03_rings.md): doorbells, reading of entries, completion
entries, interrupts. -/

namespace Sys2Proof.Machine

/-! ### Ring arithmetic (R62) -/

/-- Entries of a ring. -/
def ringN (log2n : Nat) : Nat := 2 ^ log2n

/-- Position of an index with its lap bit. -/
def pos (n index lap : Nat) : Nat := lap * n + index

/-- How far `a` is ahead of `b`, modulo 2N. -/
def dist (n a b : Nat) : Nat := (a + (2 * n - b % (2 * n))) % (2 * n)

/-- Entries published and not consumed. -/
def Sq.published (q : Sq) : Nat := dist (ringN q.log2n) q.tail q.head

/-- Is the ring base one the device may use (R56)? -/
def aligned4k (base : Nat) : Bool := base % 4096 == 0

/-! ### Service -/

/-- Does the data path run: tick started, no safe state, no power-fail stop, no PLL gap? -/
def State.service (s : State) : Bool :=
  s.tick.running && !s.faults.safe && !s.stopped && s.pllGap.isNone

/-- The instance that a function's doorbell page acts on: the second face of a pair acts on the queues of
PORT_A's instance (R120). -/
def faceInst (s : State) (face : Nat) : Nat :=
  match s.adm.pairs.find? fun p => p.2.1 == portOf face && face % 256 != 0 with
  | some p => p.1 * 256 + face % 256
  | none => face

/-- Does an instance exist? -/
def State.instLive (s : State) (i : Nat) : Bool :=
  match s.inst? i with
  | some x => x.state != .absent
  | none => false

/-- SPEC_ counters (Table 10.7) by their order in the table. -/
def specInc (s : State) (k n : Nat) : State :=
  { s with work.spec := s.work.spec.modify k (fun c => (c + n) % 2 ^ 48) }

/-- Do the ports and queues take doorbells?  The ports' link layers go on, and buffer, while the engine clock is switched
(R383). -/
def State.ringing (s : State) : Bool := s.tick.running && !s.faults.safe && !s.stopped

/-- Held copies of all SQs. -/
def heldCopies (s : State) : Nat := (s.work.sqs.map fun q => q.copies.length).sum

/-- The copies that an action on the SQs, from `s` to `t`, discarded are counted (SPEC_READ_DROPPED, Table 10.7). -/
def noteDropped (s t : State) : State :=
  if heldCopies s ≤ heldCopies t then t else specInc t 6 (heldCopies s - heldCopies t)

/-! ### Queue errors (R63, R78, R85) -/

/-- An SQ enters ERROR: REASON and ERR_INDEX latch, held copies are discarded (R63, R78). -/
def sqFail (q : Sq) (reason index : Nat) : Sq :=
  { q with state := .error, reason := reason, errIndex := index % 65536, copies := [],
           starved := false, waited := 0 }

/-- An SQ enters ERROR on a malformed entry or a failed 0xFF write: the vector of its CQ is raised at the
next boundary and the QUEUE_ERROR record produced (R66, R78). -/
def queueError (s : State) (inst q reason index : Nat) : State :=
  match s.sq? inst q with
  | none => s
  | some x =>
    let s := noteDropped s (s.updSq inst q fun x => sqFail x reason index)
    let s := s.updCq inst x.cq fun c => { c with errorIntr := true, errorAt := now s + 1 }
    emit s 0x0102 inst q (0x0100 * 65536 + reason)

/-- A CQ enters ERROR: the SQs bound to it become HELD (R64, R85). -/
def cqFail (s : State) (inst c reason index : Nat) : State :=
  let s := s.updCq inst c fun x => { x with state := .error, reason := reason, errIndex := index % 65536 }
  { s with work.sqs := updWhere (fun q => q.inst == inst && q.cq == c &&
      (q.state == .active || q.state == .quiesced)) (fun q => { q with state := .held }) s.work.sqs }

/-! ### Doorbells (R59 to R64) -/

/-- Does a queue in this state take doorbells (R61)? -/
def QState.rings (q : QState) : Bool := q == .active || q == .held || q == .quiesced

/-- The SQ after a doorbell value (R63): accepted, or in ERROR with REASON and ERR_INDEX. -/
def sqRing (q : Sq) (v : Nat) : Sq :=
  let n := ringN q.log2n
  let t := bits v 15 0
  let p := pos n t (bits v 16 16)
  if n ≤ t then sqFail q rDbOverrun t
  else if n < dist n p q.head then sqFail q rDbOverrun t
  else if dist n p q.head < dist n q.tail q.head then sqFail q rDbRetreat t
  else { q with tail := p }

/-- Is a CQ doorbell value malformed (R64)? -/
def cqRingBad (c : Cq) (v : Nat) : Bool :=
  let n := ringN c.log2n
  let h := bits v 15 0
  decide (n ≤ h) || decide (dist n c.tail c.head < dist n (pos n h (bits v 16 16)) c.head)

/-- The CQ after a doorbell value that is not malformed: its head moves, and ARM arms it from the next
boundary (R60, R64, R90). -/
def cqRing (c : Cq) (v : Nat) (boundary : Nat) : Cq :=
  let n := ringN c.log2n
  let p := pos n (bits v 15 0) (bits v 16 16)
  let c := { c with posted := c.posted.drop (dist n p c.head), head := p }
  if bit v 31 then { c with armed := true, armAt := boundary } else c

/-- A 32-bit write to the SQ doorbell of a queue. -/
def ringSq (s : State) (inst q v : Nat) : State :=
  noteDropped s (s.updSq inst q fun x => if x.state.rings && !x.deleting then sqRing x v else x)

/-- A 32-bit write to the CQ doorbell of a queue. -/
def ringCq (s : State) (inst q v : Nat) : State :=
  match s.cq? inst q with
  | none => s
  | some c =>
    if !c.state.rings then s
    else if cqRingBad c v then cqFail s inst q rDbOverrun (bits v 15 0)
    else s.updCq inst q fun c => cqRing c v (now s + 1)

/-- A write into a doorbell page (R58, R61): 32 bits at a slot's offset, or 64 bits at 8·q as two writes;
any other is ignored with a DB_WIDTH record.  Ignored in safe state (R396) and for an inert function
(R91).  DESIGN CHOICE (log entry 54): P2 of the record, which Table 15.6 does not give for this code, is the offset of the
write in the page. -/
def doorbellWrite (s : State) (face off width value : Nat) : State :=
  let inst := faceInst s face
  if !s.ringing || !s.instLive inst || asleep s face || 4096 ≤ off then s
  else if width = 4 ∧ off % 8 = 0 then ringSq s inst (off / 8) (value % 2 ^ 32)
  else if width = 4 ∧ off % 8 = 4 then ringCq s inst (off / 8) (value % 2 ^ 32)
  else if width = 8 ∧ off % 8 = 0 then
    ringCq (ringSq s inst (off / 8) (value % 2 ^ 32)) inst (off / 8) (value / 2 ^ 32 % 2 ^ 32)
  else emit s 0x0101 inst (off / 8) off

/-- SQ_DOORBELL (R63). -/
def execSqDoorbell (face off width value : Nat) (s : State) : Host.Outcome State Fault Refusal :=
  .next (doorbellWrite s face off width value)

/-- CQ_DOORBELL (R64). -/
def execCqDoorbell (face off width value : Nat) (s : State) : Host.Outcome State Fault Refusal :=
  .next (doorbellWrite s face off width value)

/-! ### Reading entries (R65, R66) -/

/-- IOVA of the slot of a position. -/
def Sq.slotAddr (q : Sq) (p : Nat) : Nat := q.base + 64 * (p % ringN q.log2n)

/-- General performance counters (Table 18.8) by their order in the table. -/
def perfInc (s : State) (k n : Nat) : State :=
  { s with work.perf := s.work.perf.modify k (fun c => (c + n) % 2 ^ 48) }

/-- May the queue engine read entries of an SQ: no SE is read of an instance that quiesces, of a queue not
ACTIVE, or of a function without bus mastering (R114, R481)? -/
def mayFetch (s : State) (q : Sq) : Bool :=
  q.state == .active && !q.deleting && aligned4k q.base && s.service && busOk s q.inst

/-- SE_FETCH: one 64-byte read of a slot of the SQ at a position from its head on.  A published slot's copy
is kept, failed or not; an unpublished one is read only under READ_AHEAD, kept unless its OPCODE is 0xFF,
and a failed read of it is dropped (R65, R66, R271). -/
def seFetch (s : State) (inst q p : Nat) : State :=
  match s.sq? inst q with
  | none => s
  | some x =>
    let n := ringN x.log2n
    let d := dist n p x.head
    let published := decide (d < x.published)
    if !mayFetch s x || 2 * n ≤ p || n ≤ d || (!published && !x.readAhead) || x.copies.any (·.pos == p) then s
    else
      match hostRead s inst (x.slotAddr p) 64 0 (!published) with
      | (s, some b) =>
        if !published && byteAt b 0 == 0xFF then specInc s 6 1
        else s.updSq inst q fun x => { x with copies := x.copies ++ [{ pos := p, bytes := some b }] }
      | (s, none) =>
        if published then s.updSq inst q fun x => { x with copies := x.copies ++ [{ pos := p, bytes := none }] }
        else specInc s 6 1

/-- SE_FETCH (R66). -/
def execSeFetch (inst q p : Nat) (s : State) : Host.Outcome State Fault Refusal := .next (seFetch s inst q p)

/-- What stands at the head of an SQ. -/
inductive Head where
  /-- Nothing published. -/
  | empty
  /-- LAST not yet published (R71). -/
  | partly
  /-- Malformed: REASON and ERR_INDEX (R75). -/
  | bad (reason index : Nat)
  /-- A whole chain, whether every entry came from a held copy. -/
  | chain (ses : List Bytes) (prefetched : Bool)
  deriving DecidableEq, Repr

/-- An entry at a position: the held copy, or a read of the published slot (R66). -/
def entryAt (s : State) (q : Sq) (p : Nat) : State × Option Bytes × Bool :=
  match q.copies.find? (·.pos == p) with
  | some c => (s, c.bytes, true)
  | none =>
    match hostRead s q.inst (q.slotAddr p) 64 0 false with
    | (s, b) => (s, b, false)

/-- Read the chain at the head, `k` entries in, `left` published entries beyond (R70, R71, R75). -/
def readChain (s : State) (q : Sq) (extra : List Nat) (acc : List Bytes) (pre : Bool) :
    Nat → Nat → Nat → State × Head
  | 0, _, _ => (s, .partly)
  | _ + 1, _, 0 => (s, if acc.isEmpty then .empty else .partly)
  | fuel + 1, k, left + 1 =>
    let n := ringN q.log2n
    let p := (q.head + k) % (2 * n)
    match entryAt s q p with
    | (s, none, _) => (s, .bad rRingRead (p % n))
    | (s, some se, held) =>
      let tag := match acc with
        | f :: _ => leAt f 2 2
        | [] => 0
      let err := if k = 0 then checkFirst extra se else checkCont se tag k
      match err with
      | some r => (s, .bad r (p % n))
      | none =>
        if bit (byteAt se 1) 1 then (s, .chain (acc ++ [se]) (pre && held))
        else readChain s q extra (acc ++ [se]) (pre && held) fuel (k + 1) left

/-- ALG values a loaded graft's CATALOGUE adds for KEY_IMPORT (R69, R354). -/
def State.extraAlgs (s : State) : List Nat := (s.grafts.catalogue.filter (·.op == 0x40)).map (·.alg)

/-- The head of an SQ. -/
def readHead (s : State) (q : Sq) : State × Head :=
  readChain s q s.extraAlgs [] true 9 0 q.published

/-! ### READ_AHEAD 0xFF writes (R66) -/

/-- Write 0xFF to the OPCODE byte of slots; a write that does not translate stops the SQ with RING_READ
at that slot, and nothing more is written. -/
def markSlots (s : State) (inst q base n : Nat) : List Nat → State
  | [] => s
  | p :: ps =>
    match hostWrite s inst (base + 64 * (p % n)) [0xFF] 0 with
    | (s, true) => markSlots s inst q base n ps
    | (s, false) => queueError s inst q rRingRead (p % n)

/-! ### Completion entries (R80 to R85) -/

/-- The 16 bytes of a CE with PHASE 0 (Table 3.13). -/
def ceBytes (tag status result sqId sqHead ticks detail flags : Nat) : Bytes :=
  leBytes 2 tag ++ leBytes 2 status ++ leBytes 4 result ++ leBytes 2 sqId ++ leBytes 2 sqHead
    ++ leBytes 2 ticks ++ leBytes 1 detail ++ leBytes 1 flags

/-- A CE that reports another SQ_HEAD, bytes 10 and 11 (R80). -/
def withHead (body : Bytes) (head : Nat) : Bytes := body.take 10 ++ leBytes 2 head ++ body.drop 12

/-- SQ_HEAD of a CE written now (R80). -/
def sqHeadNow (s : State) (inst q : Nat) : Nat :=
  match s.sq? inst q with
  | some x => x.head % ringN x.log2n
  | none => 0

/-- The CE with its PHASE bit: 1 on even laps (Table 3.14). -/
def withPhase (body : Bytes) (even : Bool) : Bytes :=
  body.take 15 ++ [BitVec.ofNat 8 (byteAt body 15 / 2 * 2 + b2n even)]

/-- Write a CE at the tail slot of a ring of the instance's space; the new ring, or `none` when the write
does not translate (R85). -/
def writeCe (s : State) (c : Cq) (ce : HeldCe) : State × Option Cq :=
  let n := ringN c.log2n
  let even := decide (c.tail < n)
  match hostWrite s c.inst (c.base + 16 * (c.tail % n)) (withPhase ce.body even) 3 with
  | (s, false) => (s, none)
  | (s, true) =>
    (s, some { c with tail := (c.tail + 1) % (2 * n), posted := c.posted ++ [now s],
                      sprintAt := if ce.sprint then some (now s) else c.sprintAt })

/-- Keep a CE in its CQ, in order of reservation (R85). -/
def holdCe (s : State) (inst c : Nat) (ce : HeldCe) : State :=
  s.updCq inst c fun x => { x with
    heldCes := x.heldCes.filter (fun h => decide (h.id < ce.id)) ++ [ce] ++ x.heldCes.filter fun h => decide (ce.id ≤ h.id) }

/-! ### Interrupts (R78, R90) -/

/-- Does an armed CQ send its interrupt at this boundary (R90)? -/
def cqDue (c : Cq) (boundary : Nat) : Bool :=
  match c.posted with
  | [] => false
  | oldest :: _ =>
    c.armed && decide (c.armAt ≤ boundary) &&
      (decide (c.coalCount ≤ c.posted.length) || decide (max oldest c.armAt + c.coalTicks ≤ boundary)
        || c.sprintAt == some boundary)

/-- Send and disarm where R90 or R78 calls for it. -/
def cqInterrupt (s : State) (inst q : Nat) : State :=
  match s.cq? inst q with
  | none => s
  | some c =>
    if (c.errorIntr && decide (c.errorAt ≤ now s)) || cqDue c (now s) then
      (sendVector s inst c.vector).updCq inst q fun c => { c with armed := false, errorIntr := false }
    else s

/-- The admin CQ's interrupt: as COAL_COUNT 1 and COAL_TICKS 0 would give (R94). -/
def adminInterrupt (s : State) (p : Nat) : State :=
  let a := (s.port p).admq
  if a.running && ((a.cq.errorIntr && decide (a.cq.errorAt ≤ now s)) || cqDue a.cq (now s)) then
    (sendVector s (p * 256) a.vector).updPort p fun x =>
      { x with admq.cq.armed := false, admq.cq.errorIntr := false }
  else s

/-- CQ_INTERRUPT (R90): a CQ of the instance, or its admin CQ for a number above 511. -/
def execCqInterrupt (inst q : Nat) (s : State) : Host.Outcome State Fault Refusal :=
  .next (if s.stopped || !s.tick.running then s
    else if 511 < q then adminInterrupt s (portOf inst)
    else if s.faults.safe then s else cqInterrupt s inst q)

/-! ### CQ_STARVED (R83) -/

/-- CQ_STARVED (R83): an SQ whose head has waited only for a credit through 1,000 boundaries. -/
def execCqStarved (inst q : Nat) (s : State) : Host.Outcome State Fault Refusal :=
  .next (match s.sq? inst q with
    | some x => if s.service && !x.starved && decide (1000 ≤ x.waited) then
        emit (s.updSq inst q fun x => { x with starved := true }) 0x0103 inst q 0
      else s
    | none => s)

end Sys2Proof.Machine
end

