-- ==== Sys2Proof/Machine/Keys.lean ====
section
/-! DEFINITION. Handles, policies, reservations and the changes jobs make to keys, contexts and streams
(08, 09). -/

namespace Sys2Proof.Machine

/-! ### POLICY (Tables 9.3 and 9.4) -/

/-- The bit positions of Table 9.3. -/
def uEncaps : Nat := 0
def uDecaps : Nat := 1
def uSign : Nat := 2
def uSignPrehash : Nat := 3
def uVerify : Nat := 4
def uEncrypt : Nat := 5
def uDecrypt : Nat := 6
def uDerive : Nat := 7
def uSsOut : Nat := 8
def uWrap : Nat := 9
def uUnwrap : Nat := 10
def pExtractable : Nat := 16
def pDev : Nat := 17
def pOrder2 : Nat := 18
def pSmallOrder : Nat := 19
def pPersist : Nat := 20
def pStateful : Nat := 21

def KeyObj.has (k : KeyObj) (u : Nat) : Bool := bit k.policy u

/-- Usages allowed by ALG, as a mask of bits 10:0 (Table 9.4). -/
def usageMask (alg : Nat) : Nat :=
  match alg with
  | 0x01 => 0x103
  | 0x06 => 0x103
  | 0x07 => 0x103
  | 0x02 => 0x01C
  | 0x03 => 0x01C
  | 0x11 => 0x01C
  | 0x12 => 0x01C
  | 0x04 => 0x014
  | 0x05 => 0x014
  | 0x10 => 0x07C
  | 0x13 => 0x180
  | 0x14 => 0x180
  | 0x28 => 0x014
  | 0x29 => 0x014
  | 0x2A => 0x080
  | 0x2B => 0x080
  | 0x30 => 0x060
  | 0x31 => 0x060
  | 0x32 => 0x600
  | _ => 0

/-- Is a POLICY invalid for an ALG (R241)?  DEV and STATEFUL are RO and what is written to them is
ignored (R240). -/
def policyBad (alg p : Nat) : Bool :=
  bits p 63 22 != 0 || bits p 15 11 != 0 || (List.range 11).any (fun u => bit p u && !bit (usageMask alg) u)
    || (bit p pSmallOrder && !(decide (0x11 ≤ alg) && decide (alg ≤ 0x14)))

/-- Is ALG a stateful family? -/
def isStateful (alg : Nat) : Bool := alg == 0x04 || alg == 0x05

/-- POLICY as held (R240, R242): DEV from the life cycle, STATEFUL, PERSIST and EXTRACTABLE forced for
stateful keys. -/
def heldPolicy (s : State) (alg p : Nat) : Nat :=
  let set (v b : Nat) (on : Bool) : Nat := v - (b2n (bit v b)) * 2 ^ b + (b2n on) * 2 ^ b
  let p := set p pDev (s.lcs == .develop)
  let p := set p pStateful (isStateful alg)
  if isStateful alg then set (set p pPersist true) pExtractable false else p

/-! ### Handles (R237 to R239) -/

/-- The key object a handle names for an instance (R239, item 1).  Key replicas stand above index 131,071, owned by the
instance number of a job placed from the manager (R461). -/
def keyFor (s : State) (inst h : Nat) : Option KeyObj :=
  let gen := bits h 31 24
  let idx := bits h 23 0
  if gen = 0 ∨ gen = 255 ∨ (if inst < 1024 then 131071 else 262143) < idx then none else
  s.store.keys.find? fun k => k.index == idx && k.gen == gen && k.owner == inst && !k.dormant && !k.doomed

/-- A key object by index, for a job that has passed its handle check (R248). -/
def keyAt (s : State) (idx : Nat) : Option KeyObj := s.store.keys.find? (·.index == idx)

/-- The handle of a key object (Table 9.1). -/
def KeyObj.handle (k : KeyObj) : Nat := k.gen * 2 ^ 24 + k.index

/-- The handle of a context (Table 9.2). -/
def Ctx.handle (c : Ctx) : Nat := c.canopy * 2 ^ 30 + c.home * 2 ^ 26 + c.gen * 2 ^ 18 + c.index

/-- Is this device the context's home? -/
def Ctx.isHome (c : Ctx) (s : State) : Bool := c.canopy == s.homeCanopy && c.home == s.homeDevice

/-- May an instance use a context: its owner, or bound to the tenant tag that owns it (R239, R463)? -/
def ctxOpen (s : State) (inst : Nat) (c : Ctx) : Bool :=
  match c.tenant with
  | none => c.owner == inst
  | some t => match s.inst? inst with
    | some i => i.tenant == some t
    | none => false

/-- The context on this device that a handle names for an instance (R239, item 2). -/
def ctxFor (s : State) (inst h : Nat) : Option Ctx :=
  s.store.ctxs.find? fun c => c.handle == h && ctxOpen s inst c && c.gen != 0 && c.gen != 255

/-- A context by its handle. -/
def ctxAt (s : State) (h : Nat) : Option Ctx := s.store.ctxs.find? (·.handle == h)

/-- The stream a handle names for an instance (R217, R219 item 1). -/
def streamFor (s : State) (inst h : Nat) : Option Stream :=
  if bits h 23 12 != 0 then none else
  s.store.streams.find? fun x => x.index == bits h 11 0 && x.gen == bits h 31 24 && x.owner == inst

/-- The handle of a stream (R217). -/
def Stream.handle (x : Stream) : Nat := x.gen * 2 ^ 24 + x.index

/-- The generation after one: 254 is followed by 1 (R238). -/
def nextGen (g : Nat) : Nat := if 254 ≤ g then 1 else g + 1

/-- Generation an index is issued with (log entry 9: 1 for an index never issued). -/
def genOf (gs : List (Nat × Nat)) (i : Nat) : Nat := ((gs.find? (·.1 == i)).map (·.2)).getD 1

/-- Record the generation an index is issued with next. -/
def putGen (gs : List (Nat × Nat)) (i g : Nat) : List (Nat × Nat) := (i, g) :: gs.filter (·.1 != i)

/-! ### Slots (R250) -/

/-- Units of 32 bytes a slot takes (Table 9.9). -/
def Slot.units : Slot → Nat
  | .empty => 0
  | .secret b => ceilDiv b.length 32
  | .mac _ _ k => ceilDiv k.length 32
  | .aead _ _ _ _ _ => 2
  | .ephemeral p _ _ => if p = 0x10 then 3 else 4

/-- Slot `n` of a context. -/
def Ctx.slot (c : Ctx) (n : Nat) : Slot := c.slots.getD n .empty

/-- Units free when slot `dst` counts as freed (R253). -/
def Ctx.freeUnits (c : Ctx) (dst : Nat) : Nat := 7 - ((c.slots.map Slot.units).sum - (c.slot dst).units)

/-- Is slot 0 EPHEMERAL? -/
def Ctx.ephemeral (c : Ctx) : Bool :=
  match c.slot 0 with
  | .ephemeral _ _ _ => true
  | _ => false

/-- Eight empty slots. -/
def emptySlots : List Slot := List.replicate 8 .empty

/-- One slot as four bytes of description and its bytes (log entry 23). -/
def slotBytes (x : Slot) : Bytes × Bytes :=
  let d (k a p n : Nat) : Bytes := leBytes 1 k ++ leBytes 1 a ++ leBytes 1 p ++ leBytes 1 n
  match x with
  | .empty => (d 0 0 0 0, [])
  | .secret b => (d 1 0 0 b.length, b)
  | .mac a p k => (d 2 a p k.length, k)
  | .aead a p k iv q => (d 3 a p k.length, fit 32 k ++ fit 12 iv ++ leBytes 8 q)
  | .ephemeral p k x => (d 4 0 p k.length, k ++ x)

/-- The 256 bytes of a context: eight descriptions, then the slots in units of 32 bytes (log entry 23). -/
def ctxBytes (c : Ctx) : Bytes :=
  let xs := c.slots.map slotBytes
  fit 256 (fit 32 (xs.flatMap (·.1)) ++ xs.flatMap fun x => fit (32 * ceilDiv x.2.length 32) x.2)

/-! ### Sizes and reservations (R243, R250, R263) -/

/-- Vault bytes of an object of `m` bytes of material (R243). -/
def vaultSize (m : Nat) : Nat := 64 * (1 + ceilDiv m 64)

/-- Bytes of the halves of a key object. -/
def KeyObj.halves (k : KeyObj) : Nat := (k.pub.map List.length).getD 0 + (k.priv.map List.length).getD 0

/-- Bytes of the traversal states of a stateful key (R170, R243): n for each level of each tree's path.  DESIGN CHOICE (log
entry 10): the spec gives no length. -/
def traversalLen (pset : Nat) (heights : List Nat) : Nat := statefulN pset * heights.sum

/-- Material bytes of a key object, its traversal states among them (R243). -/
def KeyObj.material (k : KeyObj) : Nat :=
  k.halves + (match k.stateful with
    | some f => traversalLen k.pset f.heights
    | none => 0)

/-- Bytes of an object's shelf record (R263). -/
def shelfSize (m : Nat) : Nat := 64 + 64 * ceilDiv m 64

/-- Keys an instance owns; dormant ones count among what it owns (R265). -/
def keysOwned (s : State) (inst : Nat) : Nat := (s.store.keys.filter fun k => k.owner == inst && !k.doomed).length

/-- Contexts an instance owns. -/
def ctxsOwned (s : State) (inst : Nat) : Nat := (s.store.ctxs.filter (·.owner == inst)).length

/-- Objects reserved by an instance's jobs in flight (R243). -/
def keysReserved (s : State) (inst : Nat) : Nat :=
  ((s.work.jobs.filter (·.inst == inst)).map (·.resKeys)).sum

def ctxsReserved (s : State) (inst : Nat) : Nat :=
  ((s.work.jobs.filter (·.inst == inst)).map (·.resCtx)).sum

/-- Vault key-region bytes in use or reserved. -/
def regionUsed (s : State) : Nat :=
  (s.store.keys.map fun k => vaultSize k.material).sum + (s.work.jobs.map (·.resBytes)).sum

/-- Live PERSIST objects. -/
def shelfKeys (s : State) : List KeyObj := s.store.keys.filter fun k => k.has pPersist && !k.doomed

/-- Shelf bytes in use or reserved. -/
def shelfUsed (s : State) : Nat :=
  ((shelfKeys s).map fun k => shelfSize k.halves).sum + (s.work.jobs.map (·.resShelf)).sum

/-- A dispatch failure: STATUS, DETAIL and the required length for OUTPUT_TOO_SMALL. -/
structure Fail where
  status : Nat
  detail : Nat
  len : Nat
  deriving DecidableEq, Repr, Inhabited

/-- A failure without a length. -/
def fl (status detail : Nat) : Fail := ⟨status, detail, 0⟩

/-- The first condition that holds decides (R77). -/
def firstFail : List (Bool × Fail) → Option Fail
  | [] => none
  | (true, f) :: _ => some f
  | (false, _) :: cs => firstFail cs

/-- Record capacity of the key shelf: bytes; 0 for a flash too small (R263, R264). -/
def State.shelfCapacity (s : State) : Nat :=
  let top := min s.flashSize 0x04400000
  if s.flashSize < 0x00800000 then 0 else top - 0x00400000 - 0x10000 - 0x10000

/-- The creation checks of R242, in order: life cycle, POLICY, then the reservations of R243 for an object
of `m` bytes and `trav` bytes of traversal states, which are not shelved (R265). -/
def createChecks (s : State) (inst alg policy m trav : Nat) : List (Bool × Fail) :=
  let persist := bit policy pPersist || isStateful alg
  let quota := match s.inst? inst with
    | some i => i.keyQuota
    | none => 0
  let inFlight := (s.work.jobs.map (·.resKeys)).sum
  let shelfJobs := (s.work.jobs.filter (fun j => 0 < j.resShelf)).length
  [ (s.lcs != .develop && s.lcs != .deployed, fl 0x0701 0x50),
    (policyBad alg policy, fl 0x0303 0x50),
    (decide (quota < keysOwned s inst + keysReserved s inst + 1), fl 0x0202 0x50),
    (decide (131072 < (s.store.keys.filter fun k => decide (k.index < 131072)).length + inFlight + 1) ||
      decide (2 ^ 31 < regionUsed s + vaultSize (m + trav)), fl 0x0202 0x51),
    (persist && (decide (s.shelfCapacity < shelfUsed s + shelfSize m) ||
      decide (16384 < (shelfKeys s).length + shelfJobs + 1)), fl 0x0202 0x53) ]

/-! ### Holds (R220, R221, R251) -/

/-- The job that holds what another asks for. -/
def holderOf (s : State) (h : Hold) : Option Nat :=
  (s.work.jobs.find? fun j => j.holds.contains h).map (·.id)

/-- The first holder of any of several. -/
def anyHolder (s : State) (hs : List Hold) : Option Nat := hs.findSome? (holderOf s)

/-! ### Changes at a final commit (R279) -/

/-- Free a key object: generation advanced, removed from every key-cache slice (R238, R248, R257). -/
def dropKey (s : State) (idx : Nat) : State :=
  match keyAt s idx with
  | none => s
  | some k => { s with
      store.keys := s.store.keys.filter (·.index != idx),
      store.keyGens := putGen s.store.keyGens idx (nextGen k.gen),
      groves := s.groves.map fun g => { g with cache := g.cache.filter (· != idx) } }

/-- Does some job that passed its handle checks still use a key, as its key or as its KEK (R248)?  A KEY_DESTROY does until its
final commit. -/
def keyInUse (s : State) (idx : Nat) : Bool :=
  s.work.jobs.any fun j => (j.keyIdx == some idx || j.kekIdx == some idx) && !(j.opcode == 0x42 && j.committed)

/-- KEY_DESTROY's effect: a PERSIST object is revoked first and a stateful key's counter record freed (R248,
R263); the handle becomes invalid at once; the material stays for the jobs that had
passed their handle checks, to the release of the last of them (R248). -/
def destroyKey (s : State) (idx : Nat) : State :=
  let k := (keyAt s idx).getD default
  let s := { s with
    store.counters := s.store.counters.filter (·.handle != k.handle),
    shelf.revoked := if k.has pPersist && !k.doomed then s.shelf.revoked ++ [(k.handle, k.owner)] else s.shelf.revoked }
  if keyInUse s idx then
    { s with store.keys := updWhere (·.index == idx) (fun k => { k with doomed := true }) s.store.keys }
  else dropKey s idx

/-- Free a context: its generation advances (R256). -/
def dropCtx (s : State) (h : Nat) : State :=
  match ctxAt s h with
  | none => s
  | some c => { s with
      store.ctxs := s.store.ctxs.filter (·.handle != h),
      store.ctxGens := if c.isHome s then putGen s.store.ctxGens c.index (nextGen c.gen)
        else s.store.ctxGens }

/-- Free a stream: its generation advances (R217). -/
def dropStream (s : State) (idx : Nat) : State :=
  match s.store.streams.find? (·.index == idx) with
  | none => s
  | some x => { s with
      store.streams := s.store.streams.filter (·.index != idx),
      store.streamGens := putGen s.store.streamGens idx (nextGen x.gen) }

/-- Change a context. -/
def State.updCtx (s : State) (h : Nat) (f : Ctx → Ctx) : State :=
  { s with store.ctxs := updWhere (·.handle == h) f s.store.ctxs }

/-- Change a key object. -/
def State.updKey (s : State) (idx : Nat) (f : KeyObj → KeyObj) : State :=
  { s with store.keys := updWhere (·.index == idx) f s.store.keys }

/-- Apply one change of a final commit. -/
def applyEffect (s : State) : Effect → State
  | .createKey k =>
    let none0 : CounterCopy := { reservedTo := 0, seq := 0, valid := true }
    { s with
      store.keys := s.store.keys ++ [k],
      store.counters := if k.stateful.isSome && k.priv.isSome then
        s.store.counters ++ [{ handle := k.handle, a := none0, b := none0 }] else s.store.counters }
  | .destroyKey i => destroyKey s i
  | .putCtx c =>
    if s.store.ctxs.any (·.handle == c.handle) then s.updCtx c.handle fun _ => c
    else { s with store.ctxs := s.store.ctxs ++ [c] }
  | .setSlot h n v => s.updCtx h fun c => { c with slots := c.slots.set n v }
  | .freeCtx h => dropCtx s h
  | .openStream x => { s with store.streams := s.store.streams ++ [x] }
  | .putStream x => { s with store.streams := updWhere (·.index == x.index) (fun _ => x) s.store.streams }
  | .freeStream i => dropStream s i
  | .advanceSeq h n => s.updCtx h fun c => match c.slot n with
      | .aead a p k iv q => { c with slots := c.slots.set n (.aead a p k iv (q + 1)) }
      | _ => c
  | .commitIndex i q trees => s.updKey i fun k =>
      { k with stateful := k.stateful.map fun f => { f with committed := q + 1, trees := trees } }

/-- Apply the changes of a final commit together. -/
def applyEffects (s : State) (es : List Effect) : State := es.foldl applyEffect s

/-- Is a context index taken, by a live context of this home, held here or elsewhere, or by one a job will create? -/
def ctxIndexUsed (s : State) (i : Nat) : Bool :=
  s.store.ctxs.any (fun c => c.index == i && c.isHome s) || s.tether.away.any (·.1 == i) ||
  s.work.jobs.any fun j => match j.result with
    | some r => r.effects.any fun e => match e with
      | .putCtx c => c.index == i
      | _ => false
    | none => false

/-- May the device create contexts: SOLO, or joined to its canopy (R446)? -/
def State.mayCreateCtx (s : State) : Bool := s.solo || s.joined

/-- A new, empty context for an instance on this device (R250, R126); the index is the lowest free one
(log entry 9). -/
def newCtx (s : State) (inst : Nat) : Option Ctx :=
  (lowestFree (s.store.ctxs.length + s.tether.away.length + s.work.jobs.length + 1) (ctxIndexUsed s)).map fun i =>
    { index := i, gen := genOf s.store.ctxGens i, canopy := s.homeCanopy, home := s.homeDevice, owner := inst,
      tenant := (s.inst? inst).bind (·.tenant), slots := emptySlots, moving := false, dest := 0, quarantined := false }

/-- The index of a new key object: the lowest free one (log entry 9). -/
def newKeyIndex (s : State) : Nat :=
  (lowestFree (s.store.keys.length + 1) fun i => s.store.keys.any (·.index == i)).getD 0

/-- The index of a new stream: the lowest free one (log entry 9). -/
def newStreamIndex (s : State) : Nat :=
  (lowestFree (s.store.streams.length + 1) fun i => s.store.streams.any (·.index == i)).getD 0

end Sys2Proof.Machine
end

