-- ==== Sys2Proof/Machine/Checks.lean ====
section
/-! DEFINITION. The checks a job meets at dispatch (R77 step 4) in the order of its family's chapter, what
it will hold and reserve, and its budget. -/

namespace Sys2Proof.Machine

/-- What dispatch finds for a job. -/
structure Plan where
  /-- Checks on the entry's own values and lengths, in order. -/
  pre : List (Bool × Fail)
  /-- KEY_HANDLE is checked (R239 items 1 and 3), CTX_HANDLE is checked (item 2). -/
  useKey : Bool
  useCtx : Bool
  /-- A further handle, of the KEK of a KEY_EXPORT, that is checked in the same way. -/
  kekH : Option Nat
  /-- The family's checks on what the handles name (R239 item 4). -/
  fam : List (Bool × Fail)
  /-- Context slots, stream or whole context the job holds (R220, R251). -/
  holds : List Hold
  /-- The failure of a hold that is taken by an unchained job. -/
  busy : Fail
  /-- Checks made when the holds are taken: stream state, slot contents (R221). -/
  contents : List (Bool × Fail)
  /-- Creation checks (R242, R250). -/
  create : List (Bool × Fail)
  key : Option Nat
  kek : Option Nat
  ctx : Option Nat
  stream : Option Nat
  resKeys : Nat
  resBytes : Nat
  resShelf : Nat
  resCtx : Nat
  /-- Budget or sign quantum at order 1, and at the job's own order when the operation is scaled. -/
  budget : Nat
  order2 : Bool
  /-- The sprint budget or quantum, where the operation has one (R41). -/
  sprint : Option Nat
  deriving DecidableEq, Repr, Inhabited

/-- The required output, as the plan's OUT_LEN check has it; 0 where it has none. -/
def Plan.need (p : Plan) : Nat :=
  (((p.pre ++ p.fam ++ p.contents).find? (·.2.status == 0x0104)).map (·.2.len)).getD 0

/-- A plan with only checks and a budget. -/
def plan0 (pre : List (Bool × Fail)) (budget : Nat) : Plan :=
  { (default : Plan) with pre := pre, budget := budget, busy := fl 0x0204 0x40 }

/-! ### Shared conditions -/

/-- OUT_LEN below the required output (R76). -/
def outCheck (j : Job) (need : Nat) : Bool × Fail := (decide (j.outLen < need), ⟨0x0104, 0x00, need⟩)

/-- IN_LEN other than the required input. -/
def inCheck (j : Job) (need : Nat) : Bool × Fail := (j.inLen != need, fl 0x0101 0x01)

def psetCheck (j : Job) : Bool × Fail := (!psetOk j.opcode j.alg j.pset, fl 0x0102 0x00)

/-- A little-endian field of the parameter area; offset 0 is PARAM byte 48. -/
def Job.par (j : Job) (off len : Nat) : Nat := leAt j.params off len

/-- POLICY carried in PARAM bytes 48 to 55. -/
def Job.policy (j : Job) : Nat := j.par 0 8

/-- The parameter area is shorter than `n` bytes. -/
def Job.parShort (j : Job) (n : Nat) : Bool := decide (j.params.length < n)

/-- Key-handle checks (R239, items 1 and 3). -/
def keyLive (s : State) (inst h : Nat) : Bool × Fail := ((keyFor s inst h).isNone, fl 0x0200 0x50)
def keyDev (s : State) (inst h : Nat) : Bool × Fail :=
  ((((keyFor s inst h).map fun x => x.has pDev).getD false) && s.lcs == .deployed, fl 0x0201 0x52)

/-- The key a handle names, for the checks that follow. -/
def keyOr (s : State) (inst h : Nat) : KeyObj := (keyFor s inst h).getD default

/-- Table 5.3 rows 1 to 3 against a key: ALG and PSET, the half, the usage. -/
def tableChecks (j : Job) (k : KeyObj) (needPriv : Bool) (usage : Nat) : List (Bool × Fail) :=
  [ (k.alg != j.alg || k.pset != j.pset, fl 0x0201 0x02),
    ((if needPriv then k.priv.isNone else k.pub.isNone), fl 0x0201 0x03),
    (!k.has usage, fl 0x0201 0x01) ]

/-- Table 5.3 row 4: SS_OUT without OUT_TO_CTX. -/
def ssOutCheck (j : Job) (k : KeyObj) : Bool × Fail := (!j.outToCtx && !k.has uSsOut, fl 0x0201 0x04)

/-- Context-handle checks: R239 item 2, and the moving context of R251. -/
def ctxLive (s : State) (inst h : Nat) : Bool × Fail := ((ctxFor s inst h).isNone, fl 0x0203 0x50)
def ctxMoving (s : State) (inst h : Nat) : Bool × Fail :=
  (((ctxFor s inst h).map (·.moving)).getD false, fl 0x0204 0x50)

def ctxOr (s : State) (inst h : Nat) : Ctx := (ctxFor s inst h).getD default

/-- The whole-context holds of Table 9.10. -/
def allSlots (h : Nat) : List Hold := (List.range 8).map (Hold.slot h)

/-- Context creation: the reservation of R250, and R446 on a device that has not joined its canopy. -/
def ctxCreateChecks (s : State) (inst : Nat) : List (Bool × Fail) :=
  let quota := match s.inst? inst with
    | some i => i.ctxQuota
    | none => 0
  [ (!s.mayCreateCtx, fl 0x0701 0x83),
    (decide (quota < ctxsOwned s inst + ctxsReserved s inst + 1), fl 0x0202 0x52) ]

/-- Where an OUT_TO_CTX job puts its secret (R126): a new context, or a named one held whole. -/
def withOutCtx (s : State) (j : Job) (use isNew : Bool) (p : Plan) : Plan :=
  if !use then p
  else if isNew then { p with create := p.create ++ ctxCreateChecks s j.inst, resCtx := 1 }
  else { p with useCtx := true, holds := allSlots j.ctxH, ctx := some j.ctxH }

/-- A job that creates a key object of at most `m` bytes of material and `trav` bytes of traversal states. -/
def withNewKey (s : State) (j : Job) (alg policy m : Nat) (p : Plan) (trav : Nat := 0) : Plan :=
  { p with create := p.create ++ createChecks s j.inst alg policy m trav,
           resKeys := 1, resBytes := vaultSize (m + trav),
           resShelf := if bit policy pPersist || isStateful alg then shelfSize m else 0 }

/-- Order of a job by the key it names, and its scaled budget (R363, R364). -/
def scaled (order2 : Bool) (p : Plan) : Plan :=
  { p with order2 := order2, budget := if order2 then order2Budget p.budget else p.budget }

/-- Does no MXU serve (R197)? -/
def noMxu (s : State) : Bool := !(List.range 16).any fun m => s.serves (unitId 1 m)

def mxuCheck (s : State) : Bool × Fail := (noMxu s, fl 0x0600 0x25)

/-- Does the family ignore MASK_ORDER2 (R158)? -/
def ignoresOrder2 (alg : Nat) : Bool := alg == 0x03 || isStateful alg

/-! ### KEM jobs (R124 to R133, R172 to R179) -/

def planKemKeygen (s : State) (j : Job) : Plan :=
  let out := if j.alg = 0x06 then 4 else 4 + pkLen j.alg j.pset
  let p := plan0 [psetCheck j, inCheck j 0, outCheck j out] (keygenBudget j.alg j.pset)
  let m := pkLen j.alg j.pset + skLen j.alg j.pset
  scaled (bit j.policy pOrder2) (withNewKey s j j.alg j.policy m p)

/-- EK_INLINE; McEliece always names a key object (R173). -/
def Job.ekInline (j : Job) : Bool := bit j.opt 0 && j.alg != 0x06

def planKemEncaps (s : State) (j : Job) : Plan :=
  let out := ctLen j.alg j.pset + (if j.outToCtx then 4 else 32)
  let k := keyOr s j.inst j.keyH
  let base := [psetCheck j, inCheck j (if j.ekInline then pkLen j.alg j.pset else 0), outCheck j out]
  let p := { plan0 base (encapsBudget j.alg j.pset) with
    useKey := !j.ekInline,
    fam := if j.ekInline then [] else tableChecks j k false uEncaps ++ [ssOutCheck j k],
    key := if j.ekInline then none else (keyFor s j.inst j.keyH).map (·.index) }
  withOutCtx s j j.outToCtx (bit j.opt 1) (scaled (!j.ekInline && k.has pOrder2) p)

def planKemDecaps (s : State) (j : Job) : Plan :=
  let k := keyOr s j.inst j.keyH
  let p := { plan0 ([psetCheck j, inCheck j (ctLen j.alg j.pset), outCheck j (if j.outToCtx then 4 else 32)])
      (decapsBudget j.alg j.pset) with
      useKey := true, fam := tableChecks j k true uDecaps ++ [ssOutCheck j k], key := (keyFor s j.inst j.keyH).map (·.index) }
  withOutCtx s j j.outToCtx (bit j.opt 1) (scaled (k.has pOrder2) p)

/-- HYBRID_KEX (R145 to R148). -/
def planHybrid (s : State) (j : Job) : Plan :=
  let step := j.opt % 4
  let (cl, sv, ss) := hybridLens j.pset
  let inLen := if step = 0 then 0 else if step = 1 then cl else sv
  let outLen := if step = 0 then cl + 4 else if step = 1 then sv + (if j.outToCtx then 4 else ss)
    else if j.outToCtx then 4 else ss
  let p := plan0 [psetCheck j, (step == 3, fl 0x0303 0x10), inCheck j inLen, outCheck j outLen, mxuCheck s]
    (hybridBudget j.pset step)
  if step = 2 then
    let c := ctxOr s j.inst j.ctxH
    let eph := match c.slot 0 with
      | .ephemeral q _ _ => q == j.pset
      | _ => false
    { p with useCtx := true, holds := allSlots j.ctxH, ctx := some j.ctxH,
             contents := [(!eph, fl 0x0203 0x01)] }
  else withOutCtx s j (step = 0 || j.outToCtx) (bit j.opt 2) p

/-! ### Signature jobs (R135 to R143, R154 to R171, R205 to R207) -/

/-- MODE, bits 1:0. -/
def Job.mode (j : Job) : Nat := j.opt % 4
/-- PH or HASH, bits 7:4. -/
def Job.ph (j : Job) : Nat := bits j.opt 7 4
/-- PK_INLINE, bit 3. -/
def Job.pkInline (j : Job) : Bool := bit j.opt 3

/-- HASH codes of RSA and ECDSA jobs (R201). -/
def hashOk (h : Nat) : Bool := [1, 2, 3, 8, 9, 10].contains h

/-- Does the family carry a context string in its parameter area (R137)? -/
def hasCtxString (alg : Nat) : Bool := alg == 0x02 || alg == 0x03 || alg == 0x12

/-- An undefined MODE, PH or HASH value, by family. -/
def badMode (j : Job) : Bool :=
  match j.alg with
  | 0x02 => j.mode == 3 || (j.mode == 1 && (j.ph == 0 || decide (12 < j.ph)))
  | 0x03 => decide (2 ≤ j.mode) || (j.mode == 1 && (j.ph == 0 || decide (12 < j.ph)))
  | 0x11 => decide (2 ≤ j.mode) || !hashOk j.ph
  | 0x12 => decide (2 ≤ j.mode)
  | _ => false

/-- Length of the message part that a mode fixes: a digest or μ. -/
def fixedMsg (j : Job) : Option Nat :=
  match j.alg, j.mode with
  | 0x02, 1 => some (hashLen j.ph)
  | 0x02, 2 => some 64
  | 0x03, 1 => some (hashLen j.ph)
  | 0x11, 1 => some (hashLen j.ph)
  | 0x12, 1 => some 64
  | _, _ => none

/-- The length checks of a message of `n` bytes that follows `pre0` other input bytes (R138). -/
def msgChecks (j : Job) (pre0 : Nat) : List (Bool × Fail) :=
  match fixedMsg j with
  | some m => [(j.inLen != pre0 + m, fl 0x0101 0x01)]
  | none => [(decide (pre0 + 65536 < j.inLen), fl 0x0101 0x02), (decide (j.inLen < pre0), fl 0x0101 0x01)]

/-- Usage a signing mode needs: SIGN, or SIGN_PREHASH in mode HASH. -/
def signUsage (j : Job) : Nat := if j.mode = 1 && !isStateful j.alg then uSignPrehash else uSign

/-- Option and parameter checks shared by signing and verifying. -/
def sigOptChecks (j : Job) : List (Bool × Fail) :=
  [ (badMode j, fl 0x0303 0x10),
    (j.alg == 0x02 && j.mode == 2 && j.par 0 1 != 0, fl 0x0303 0x11),
    (hasCtxString j.alg && j.parShort (1 + j.par 0 1), fl 0x0101 0x03) ]

/-- Heights of the levels that generation parameters ask for, top first (Table 6.4); `none` outside Table 6.2 (R163); reserved
bytes are ignored (R67).  DESIGN CHOICE (log entry 54): a RESERVE_BLOCK above 1,024, for which the spec gives no answer, is
refused like a combination outside Table 6.2. -/
def genHeights (j : Job) : Option (List Nat) :=
  let b (i : Nat) : Nat := j.par (8 + i) 1
  let reserve := j.par 12 2
  if 1024 < reserve then none
  else if j.alg = 0x04 then
    let ok (h : Nat) : Bool := h == 5 || h == 10 || h == 15
    if b 0 = 1 ∧ ok (b 1) ∧ b 2 = 0 ∧ b 3 = 0 then some [b 1]
    else if b 0 = 2 ∧ ok (b 1) ∧ ok (b 2) ∧ b 3 = 0 then some [b 1, b 2]
    else if b 0 = 3 ∧ ok (b 1) ∧ ok (b 2) ∧ ok (b 3) then some [b 1, b 2, b 3]
    else none
  else if b 0 = 0 then (if (b 1 = 10 ∨ b 1 = 16) ∧ b 2 = 1 then some [b 1] else none)
  else if b 0 = 1 then
    (if (b 1 = 20 ∨ b 1 = 40 ∨ b 1 = 60) ∧ b 2 ≠ 0 ∧ b 1 % b 2 = 0 ∧ (b 1 / b 2 = 5 ∨ b 1 / b 2 = 10)
     then some (List.replicate (b 2) (b 1 / b 2)) else none)
  else none

/-- Counter records in use or about to be: one for each stateful private key (R165). -/
def recordsUsed (s : State) : Nat :=
  s.store.counters.length + (s.work.jobs.filter fun j => j.opcode == 0x08 && isStateful j.alg && 0 < j.resKeys).length

/-- Bytes of the private half of a stateful key (log entry 10): I and SEED of the top LMS tree; SK_SEED, SK_PRF and SEED of
XMSS. -/
def statefulMaterial (alg pset : Nat) : Nat := if alg = 0x04 then 16 + statefulN pset else 3 * statefulN pset

def planSigKeygen (s : State) (j : Job) : Plan :=
  let pk := pkLen j.alg j.pset
  if isStateful j.alg then
    let hs := genHeights j
    let p := plan0 [psetCheck j, (hs.isNone, fl 0x0303 0x12), inCheck j 0, outCheck j (4 + pk)]
      (statefulKeygenBudget j.pset (hs.getD []))
    let p := withNewKey s j j.alg j.policy (pk + statefulMaterial j.alg j.pset) p (traversalLen j.pset (hs.getD []))
    { p with create := p.create ++ [(decide (2048 ≤ recordsUsed s), fl 0x0202 0x02)] }
  else
    let mx := if j.alg = 0x11 || j.alg = 0x12 then [mxuCheck s] else []
    let p := plan0 ([psetCheck j, inCheck j 0, outCheck j (4 + pk)] ++ mx) (keygenBudget j.alg j.pset)
    scaled (bit j.policy pOrder2 && !ignoresOrder2 j.alg)
      (withNewKey s j j.alg j.policy (pk + skLen j.alg j.pset) p)

def planSigSign (s : State) (j : Job) : Plan :=
  let k := keyOr s j.inst j.keyH
  let idx := (keyFor s j.inst j.keyH).map (·.index)
  if isStateful j.alg then
    let st := k.stateful.getD default
    { plan0 [psetCheck j, (decide (65536 < j.inLen), fl 0x0101 0x02)] 0 with
        useKey := true, key := idx,
        fam := tableChecks j k true uSign ++ [outCheck j (statefulSigLen j.alg j.pset st.heights),
            (decide (2 ^ st.heights.sum ≤ st.next), fl 0x0202 0x01)] }
  else
    let mx := if j.alg = 0x11 || j.alg = 0x12 then [mxuCheck s] else []
    scaled (k.has pOrder2 && !ignoresOrder2 j.alg)
      { plan0 ([psetCheck j] ++ sigOptChecks j ++ msgChecks j 0 ++ [outCheck j (sigLen j.alg j.pset)] ++ mx
          ) (signBudget j.alg j.pset) with
          useKey := true, fam := tableChecks j k true (signUsage j), key := idx }

/-- The input of a job as dispatch reads it ahead of the job, where that succeeds (R271). -/
def peekInput (s : State) (j : Job) : Option Bytes :=
  match readSide s j.inst j.inAddr j.inLen j.inFrags true with
  | (s, .ok fs) => (gatherInput s j.inst true fs).2
  | _ => none

/-- The inline public key names a hash function other than PSET's (R171, found at dispatch). -/
def inlineHashBad (s : State) (j : Job) (pl : Nat) : Bool :=
  match peekInput s j with
  | some b => !stdHolds .pkHashOk (ap j.alg j.pset) [b.take pl]
  | none => false

/-- Winternitz parameter of each level of a stateful signature, as far as public key and signature tell (R171). -/
def levelWidths (alg ps : Nat) (pk sig : Bytes) : List Nat :=
  if alg = 0x04 then Lms.widths ps (min 8 (beNat (pk.take 4)) - 1) (pk.drop 4) (sig.drop 4)
  else match Xmss.shapeFor ps pk sig with
    | some x => List.replicate x.d 4
    | none => []

/-- Verify budget of a stateful signature: 10 t and L_u of each level at its own w (R171). -/
def statefulVerifyBudget (s : State) (j : Job) (pk : Bytes) (pl sl : Nat) : Nat :=
  let inp := (peekInput s j).getD []
  10 + ((levelWidths j.alg j.pset (if j.pkInline then inp.take pl else pk) (sub inp pl sl)).map (leafCostAt j.pset)).sum

/-- SIG_VERIFY (R138, R143, R159, R164, R171, R192).  DESIGN CHOICE (log entry 54) for a stateful scheme: a PK_LEN that is not 0
without PK_INLINE, for which the spec gives no status, and a message over 65,536 bytes, for which R164 gives DETAIL 0x02 and
R171 DETAIL 0x01, are BAD_LENGTH with DETAIL 0x01. -/
def planSigVerify (s : State) (j : Job) : Plan :=
  let k := keyOr s j.inst j.keyH
  let keyed := if j.pkInline then [] else tableChecks j k false uVerify
  let idx := if j.pkInline then none else (keyFor s j.inst j.keyH).map (·.index)
  if isStateful j.alg then
    let sl := j.par 0 4
    let pl := j.par 4 4
    let pre0 := sl + pl
    { plan0 ([psetCheck j,
        (decide (j.inLen < pre0) || decide (pre0 + 65536 < j.inLen) || (!j.pkInline && pl != 0), fl 0x0101 0x01),
        (j.pkInline && inlineHashBad s j pl, fl 0x0303 0x13)])
        (statefulVerifyBudget s j (k.pub.getD []) pl sl) with useKey := !j.pkInline, fam := keyed, key := idx }
  else
    let pre0 := sigLen j.alg j.pset + (if j.pkInline then pkLen j.alg j.pset else 0)
    let mx := if j.alg = 0x11 || j.alg = 0x12 then [mxuCheck s] else []
    { plan0 ([psetCheck j] ++ sigOptChecks j ++ msgChecks j pre0 ++ mx)
        (verifyBudget j.alg j.pset) with useKey := !j.pkInline, fam := keyed, key := idx }

/-! ### Diffie-Hellman and RSA (R201 to R208) -/

def planDhKeygen (s : State) (j : Job) : Plan :=
  let pk := pkLen j.alg j.pset
  let p := plan0 [psetCheck j, inCheck j 0, outCheck j (4 + pk), mxuCheck s] (keygenBudget j.alg j.pset)
  scaled (bit j.policy pOrder2) (withNewKey s j j.alg j.policy (pk + skLen j.alg j.pset) p)

def planDhDerive (s : State) (j : Job) : Plan :=
  let k := keyOr s j.inst j.keyH
  let p := { plan0 ([psetCheck j, inCheck j (pkLen j.alg j.pset),
      outCheck j (if j.outToCtx then 4 else ssLen j.alg j.pset), mxuCheck s])
      (deriveBudget j.alg j.pset) with
      useKey := true, fam := tableChecks j k true uDerive ++ [ssOutCheck j k], key := (keyFor s j.inst j.keyH).map (·.index) }
  withOutCtx s j j.outToCtx (bit j.opt 1) (scaled (k.has pOrder2) p)

/-- SCHEME, bits 9:8. -/
def Job.scheme (j : Job) : Nat := bits j.opt 9 8

/-- PSS salt length: OPT2, or the hash length for 0xFFFF (Table 7.5). -/
def Job.salt (j : Job) : Nat := if j.opt2 = 0xFFFF then hashLen j.ph else j.opt2

/-- Largest plaintext of an RSA encryption (R201). -/
def rsaMax (j : Job) : Nat := if j.scheme = 0 then rsaK j.pset - 11 else rsaK j.pset - 2 * hashLen j.ph - 2

/-- e of an RSA_KEYGEN: 0 means 65,537. -/
def Job.rsaE (j : Job) : Nat := if j.par 8 4 = 0 then 65537 else j.par 8 4

def planRsaKeygen (s : State) (j : Job) : Plan :=
  let p := plan0 [psetCheck j, (j.rsaE % 2 == 0 || decide (j.rsaE < 65537), fl 0x0303 0x33),
    inCheck j 0, outCheck j (4 + pkLen 0x10 j.pset), mxuCheck s] (keygenBudget 0x10 j.pset)
  scaled (bit j.policy pOrder2) (withNewKey s j 0x10 j.policy (pkLen 0x10 j.pset + skLen 0x10 j.pset) p)

/-- OPT and OPT2 checks of RSA signing and verifying. -/
def rsaSigOpt (j : Job) : List (Bool × Fail) :=
  [ (decide (2 ≤ j.mode) || !hashOk j.ph || decide (2 ≤ j.scheme), fl 0x0303 0x10),
    (j.scheme == 1 && decide (rsaK j.pset - hashLen j.ph - 2 < j.salt), fl 0x0303 0x10) ]

/-- Message of an RSA signature after `pre0` other input bytes. -/
def rsaMsg (j : Job) (pre0 : Nat) : List (Bool × Fail) :=
  if j.mode = 1 then [(j.inLen != pre0 + hashLen j.ph, fl 0x0101 0x01)]
  else [(decide (pre0 + 65536 < j.inLen), fl 0x0101 0x02), (decide (j.inLen < pre0), fl 0x0101 0x01)]

def planRsaSign (s : State) (j : Job) : Plan :=
  let k := keyOr s j.inst j.keyH
  scaled (k.has pOrder2)
    { plan0 ([psetCheck j] ++ rsaSigOpt j ++ rsaMsg j 0 ++ [outCheck j (rsaK j.pset), mxuCheck s])
        (signBudget 0x10 j.pset) with
      useKey := true, fam := tableChecks j k true (signUsage j), key := (keyFor s j.inst j.keyH).map (·.index) }

def planRsaVerify (s : State) (j : Job) : Plan :=
  let k := keyOr s j.inst j.keyH
  let pre0 := rsaK j.pset + (if j.pkInline then pkLen 0x10 j.pset else 0)
  let keyed := if j.pkInline then [] else tableChecks j k false uVerify
  { plan0 ([psetCheck j] ++ rsaSigOpt j ++ rsaMsg j pre0 ++ [mxuCheck s]) (verifyBudget 0x10 j.pset)
    with useKey := !j.pkInline, fam := keyed, key := if j.pkInline then none else (keyFor s j.inst j.keyH).map (·.index) }

/-- OPT and label checks of RSA encryption and decryption. -/
def rsaEncOpt (j : Job) : List (Bool × Fail) :=
  [ (!hashOk j.ph || decide (2 ≤ j.scheme), fl 0x0303 0x10),
    (j.scheme == 1 && j.parShort (1 + j.par 0 1), fl 0x0101 0x03) ]

def planRsaDecrypt (s : State) (j : Job) : Plan :=
  let k := keyOr s j.inst j.keyH
  scaled (k.has pOrder2)
    { plan0 ([psetCheck j] ++ rsaEncOpt j ++ [inCheck j (rsaK j.pset), outCheck j (rsaMax j), mxuCheck s])
        (signBudget 0x10 j.pset) with
      useKey := true, fam := tableChecks j k true uDecrypt, key := (keyFor s j.inst j.keyH).map (·.index) }

def planRsaEncrypt (s : State) (j : Job) : Plan :=
  let k := keyOr s j.inst j.keyH
  let pre0 := if j.pkInline then pkLen 0x10 j.pset else 0
  let keyed := if j.pkInline then [] else tableChecks j k false uEncrypt
  { plan0 ([psetCheck j] ++ rsaEncOpt j
      ++ [(decide (j.inLen < pre0), fl 0x0101 0x01), (decide (pre0 + rsaMax j < j.inLen), fl 0x0101 0x04),
          outCheck j (rsaK j.pset), mxuCheck s]) (verifyBudget 0x10 j.pset)
    with useKey := !j.pkInline, fam := keyed, key := if j.pkInline then none else (keyFor s j.inst j.keyH).map (·.index) }

/-! ### Digests and streams (R215 to R222) -/

/-- Is the function an XOF? -/
def isXof (pset : Nat) : Bool := decide (0x0B ≤ pset)
def isCshake (pset : Nat) : Bool := pset == 0x0D || pset == 0x0E

def Job.xofLen (j : Job) : Nat := j.par 0 4

/-- Output of a digest: its own length, or XOF_LEN. -/
def digestOut (j : Job) : Nat := if isXof j.pset then j.xofLen else hashLen j.pset

def xofCheck (j : Job) (zeroOk : Bool) : Bool × Fail :=
  (isXof j.pset && ((j.xofLen == 0 && !zeroOk) || decide (65536 < j.xofLen)), fl 0x0101 0x42)

/-- The cSHAKE strings N and S (R216). -/
def Job.nLen (j : Job) : Nat := j.par 4 1
def Job.sLen (j : Job) : Nat := j.par (5 + j.nLen) 1
def Job.nStr (j : Job) : Bytes := sub j.params 5 j.nLen
def Job.sStr (j : Job) : Bytes := sub j.params (6 + j.nLen) j.sLen

def cshakeCheck (j : Job) : Bool × Fail :=
  (isCshake j.pset && (j.parShort (6 + j.nLen) || j.parShort (6 + j.nLen + j.sLen) ||
    decide (430 < j.nLen + j.sLen)), fl 0x0101 0x43)

def bigInput (j : Job) : Bool × Fail := (decide (16777216 < j.inLen), fl 0x0101 0x40)

/-- Budget of a digest or stream job (Table 8.7); it only orders work. -/
def digestBudget (j : Job) : Nat :=
  2 + ceilDiv j.inLen (rateOf j.pset) + (if isXof j.pset then ceilDiv j.xofLen (rateOf j.pset) else 0)

def planDigest (_s : State) (j : Job) : Plan :=
  plan0 [psetCheck j, xofCheck j false, cshakeCheck j, bigInput j, outCheck j (digestOut j)] (digestBudget j)

/-- DIGEST_START: no free stream (R217). -/
def planDigestStart (s : State) (j : Job) : Plan :=
  let jobsOpening (p : Job → Bool) := (s.work.jobs.filter fun x => x.opcode == 0x21 && !x.committed && x.result.all (·.status == 0) && p x).length
  { plan0 [psetCheck j, cshakeCheck j, bigInput j, outCheck j 4] (digestBudget { j with params := [] }) with
    create := [ (decide (4096 ≤ s.store.streams.length + jobsOpening fun _ => true), fl 0x0205 0x40),
                (decide (512 ≤ (s.store.streams.filter (·.owner == j.inst)).length
                  + jobsOpening fun x => x.inst == j.inst), fl 0x0205 0x41) ] }

/-- The handle of the stream a job uses: its own, or that of the job it follows (R219). -/
def streamOf (s : State) (j : Job) (dep : Option Nat) : Option Stream :=
  if j.ctxH = 0xFFFFFFFF then (dep.bind fun i => s.store.streams.find? (·.index == i)).filter (·.owner == j.inst)
  else streamFor s j.inst j.ctxH

/-- A job on an existing stream; `dep` is the stream index of the job it follows, and `late` says that the
followed job has not opened its stream yet. -/
def planStream (s : State) (j : Job) (dep : Option Nat) (late : Bool) : Plan :=
  let read := j.opcode == 0x22 && bit j.opt 0
  let release := j.opcode == 0x22 && bit j.opt 1
  let keep := j.opcode == 0x23 && bit j.opt 0
  let discard := j.opcode == 0x23 && bit j.opt 1
  let x := streamOf s j dep
  let st := x.getD default
  let own := if late then [] else
    [ (x.isNone, fl 0x0203 0x40), (st.alg != j.alg || st.pset != j.pset, fl 0x0203 0x43) ]
  let usesXof := read || (j.opcode == 0x23 && !discard)
  let need := if read then digestOut j
    else if j.opcode == 0x23 && !discard then
      (if keep && isXof j.pset && j.xofLen == 0 then 0 else digestOut j) else 0
  { plan0 ([psetCheck j, ((release && !read) || (keep && discard), fl 0x0303 0x10),
      (if usesXof then xofCheck j keep else (false, default)), bigInput j,
      ((read || discard) && j.inLen != 0, fl 0x0101 0x01), outCheck j need] ++ own) (digestBudget j) with
    busy := fl 0x0205 0x00,
    holds := if late then [] else [Hold.stream st.index],
    stream := if late then none else x.map (·.index),
    contents := [
      (!read && !discard && st.final, fl 0x0203 0x44),
      (read && !st.final, fl 0x0206 0x00),
      (!read && decide (2 ^ 48 < st.absorbed.length + j.inLen), fl 0x0101 0x40) ] }

/-! ### MAC, KDF, AEAD, RNG (R223 to R232) -/

/-- KEY_FROM_CTX and SLOT of MAC and AEAD jobs (Table 8.5). -/
def Job.fromCtx (j : Job) : Bool := bit j.opt 1
def Job.slotNo (j : Job) : Nat := bits j.opt 4 2

/-- TAG_LEN, with its default (R223). -/
def Job.tagLen (j : Job) : Nat :=
  let full := if j.alg = 0x28 then hashLen j.pset else if j.pset = 1 then 32 else 64
  if j.par 0 2 = 0 then full else j.par 0 2

def Job.macSLen (j : Job) : Nat := j.par 2 1

def planMac (s : State) (j : Job) : Plan :=
  let verify := bit j.opt 0
  let lo := if j.alg = 0x28 then 10 else 4
  let hi := if j.alg = 0x28 then hashLen j.pset else 64
  let k := keyOr s j.inst j.keyH
  let base := [psetCheck j,
    (decide (j.tagLen < lo) || decide (hi < j.tagLen), fl 0x0101 0x42),
    ((j.alg == 0x28 && j.macSLen != 0) || j.parShort (3 + j.macSLen), fl 0x0101 0x43),
    (verify && decide (j.inLen < j.tagLen), fl 0x0101 0x01),
    (decide (65536 + (if verify then j.tagLen else 0) < j.inLen), fl 0x0101 0x02),
    (if verify then (false, default) else outCheck j j.tagLen)]
  let p := plan0 base (4 + ceilDiv (j.inLen + j.macSLen) (macRate j.alg j.pset))
  if j.fromCtx then
    let c := ctxOr s j.inst j.ctxH
    { p with useCtx := true, ctx := some j.ctxH,
             holds := [Hold.slot j.ctxH j.slotNo],
             contents := match c.slot j.slotNo with
               | .mac a q _ => [(a != j.alg || q != j.pset, fl 0x0203 0x42)]
               | .aead _ _ _ _ _ => [(true, fl 0x0203 0x42)]
               | _ => [(true, fl 0x0203 0x41)] }
  else { p with useKey := true, fam := tableChecks j k true (if verify then uVerify else uSign),
                key := (keyFor s j.inst j.keyH).map (·.index) }

/-- KDF fields (R226). -/
def Job.kdfInline (j : Job) : Bool := bit j.opt 2
def Job.kdfFromCtx (j : Job) : Bool := bit j.opt 3
def Job.kdfSlot (j : Job) : Nat := bits j.opt 6 4
def Job.saltLen (j : Job) : Nat := j.par 8 2
def Job.infoLen (j : Job) : Nat := j.par 10 2
def Job.kdfL (j : Job) : Nat := j.par 12 4
def Job.tAlg (j : Job) : Nat := j.opt2 % 256
def Job.tPset (j : Job) : Nat := bits j.opt2 15 8

/-- Is the target one of Table 8.6b? -/
def kdfTarget (alg pset : Nat) : Bool :=
  [0x28, 0x29, 0x2A, 0x2B, 0x30, 0x31, 0x32].contains alg && psetOk 0x40 alg pset

/-- L in range (R226). -/
def kdfLOk (j : Job) : Bool :=
  let h := hashLen j.pset
  if j.kdfInline then
    decide (1 ≤ j.kdfL) && decide (j.kdfL ≤ if j.alg = 0x2A then 255 * h else 4096)
  else secretLenOk j.tAlg j.tPset j.kdfL

/-- Length of the IKM: inline, of the key object, or of the slot. -/
def kdfIkmLen (s : State) (j : Job) : Nat :=
  if j.kdfInline then j.inLen - j.saltLen - j.infoLen
  else if j.kdfFromCtx then match (ctxOr s j.inst j.ctxH).slot j.kdfSlot with
    | .secret b => b.length
    | _ => 0
  else ((keyOr s j.inst j.keyH).priv.map List.length).getD 0

def kdfBudget (s : State) (j : Job) : Nat :=
  let r := macRate j.alg j.pset
  if j.alg = 0x2A then
    6 + ceilDiv (j.saltLen + kdfIkmLen s j) r + ceilDiv j.kdfL (hashLen j.pset) * (1 + ceilDiv j.infoLen r)
  else 6 + ceilDiv (j.saltLen + j.infoLen + j.kdfL) r

def planKdf (s : State) (j : Job) : Plan :=
  let mode := j.mode
  let hkdf := j.alg == 0x2A
  let pre0 := j.saltLen + j.infoLen
  let prkShort := hkdf && mode == 1 && decide (kdfIkmLen s j < hashLen j.pset)
  let k := keyOr s j.inst j.keyH
  let base := [psetCheck j,
    (mode == 3 || (!hkdf && mode != 0) || (j.kdfInline && (j.opt2 != 0 || j.kdfFromCtx))
      || (!j.kdfInline && !kdfTarget j.tAlg j.tPset), fl 0x0303 0x10),
    ((hkdf && mode == 1 && j.saltLen != 0) || (hkdf && mode == 2 && j.infoLen != 0), fl 0x0101 0x43),
    (!kdfLOk j || (hkdf && mode == 2 && j.kdfL != hashLen j.pset), fl 0x0101 0x42),
    ((if j.kdfInline then decide (j.inLen < pre0 + 1) else j.inLen != pre0), fl 0x0101 0x01),
    outCheck j (if j.kdfInline then j.kdfL else 4)]
  let p := plan0 base (kdfBudget s j)
  if j.kdfInline then { p with pre := p.pre ++ [(prkShort, fl 0x0303 0x40)] }
  else if j.kdfFromCtx then
    let c := ctxOr s j.inst j.ctxH
    withNewKey s j j.tAlg j.policy j.kdfL
      { p with useCtx := true, ctx := some j.ctxH,
               holds := [Hold.slot j.ctxH j.kdfSlot],
               contents := [(c.ephemeral, fl 0x0203 0x52)] ++ (match c.slot j.kdfSlot with
                 | .secret _ => [(prkShort, fl 0x0303 0x40)]
                 | .empty => [(true, fl 0x0203 0x41)]
                 | _ => [(true, fl 0x0203 0x42)]) }
  else withNewKey s j j.tAlg j.policy j.kdfL
    { p with useKey := true, fam := tableChecks j k true uDerive
               ++ [(prkShort, fl 0x0303 0x40),
                   (bit j.policy pExtractable && !k.has pExtractable, fl 0x0201 0x40)],
             key := (keyFor s j.inst j.keyH).map (·.index) }

/-- AAD_LEN (R229). -/
def Job.aadLen (j : Job) : Nat := j.par 0 2

def planAead (s : State) (j : Job) (isSeal : Bool) : Plan :=
  let k := keyOr s j.inst j.keyH
  let tag := if isSeal then 0 else 16
  let text := j.inLen - j.aadLen - tag
  let base := [psetCheck j,
    (decide (256 < j.aadLen), fl 0x0101 0x41),
    (decide (j.inLen < j.aadLen + tag), fl 0x0101 0x01),
    (decide (16640 < text), fl 0x0101 0x41),
    outCheck j (if isSeal then text + 16 else text)]
  let rate := if j.alg = 0x31 then 1024 else if j.pset = 1 then 512 else 384
  let p := plan0 base ((if j.alg = 0x31 then 4 else 5) + ceilDiv (j.aadLen + text) rate)
  if j.fromCtx then
    let c := ctxOr s j.inst j.ctxH
    { p with useCtx := true, ctx := some j.ctxH,
             holds := [Hold.slot j.ctxH j.slotNo],
             contents := match c.slot j.slotNo with
               | .aead a q _ _ n => [(a != j.alg || q != j.pset, fl 0x0203 0x42),
                   (decide (2 ^ 64 - 1 ≤ n), fl 0x0202 0x40)]
               | .mac _ _ _ => [(true, fl 0x0203 0x42)]
               | _ => [(true, fl 0x0203 0x41)] }
  else scaled (k.has pOrder2)
    { p with useKey := true, fam :=
               tableChecks j k true (if isSeal then uEncrypt else uDecrypt),
             key := (keyFor s j.inst j.keyH).map (·.index) }

/-- COUNT of an RNG job (R232). -/
def Job.rngCount (j : Job) : Nat := j.par 0 4

def planRng (_s : State) (j : Job) : Plan :=
  plan0 [psetCheck j, (j.rngCount == 0 || decide (65536 < j.rngCount), fl 0x0101 0x42),
    (decide (64 < j.inLen), fl 0x0101 0x01), outCheck j j.rngCount]
    (2 + ceilDiv j.rngCount 4096 + b2n (bit j.opt 0))

end Sys2Proof.Machine
end

