-- ==== Sys2Proof/Machine/KeyChecks.lean ====
section
/-! DEFINITION. Dispatch checks of the key, context and routine jobs (R244 to R256, R333), and the plan of a
job by its opcode. -/

namespace Sys2Proof.Machine

/-! ### KEY_IMPORT (R244 to R246) -/

def Job.form (j : Job) : Nat := j.opt % 16
def Job.wrapped (j : Job) : Bool := bit j.opt 4
def Job.generate (j : Job) : Bool := bit j.opt 5
/-- KEY_LEN, PARAM bytes 56 and 57. -/
def Job.keyLen (j : Job) : Nat := j.par 8 2

/-- Is ALG a symmetric one? -/
def isSymmetric (alg : Nat) : Bool :=
  (decide (0x28 ≤ alg) && decide (alg ≤ 0x2B)) || (decide (0x30 ≤ alg) && decide (alg ≤ 0x32))

/-- Table 9.6: is FORM accepted for ALG? -/
def formOk (form alg : Nat) : Bool :=
  match form with
  | 0 => (decide (1 ≤ alg) && decide (alg ≤ 7)) || (decide (0x10 ≤ alg) && decide (alg ≤ 0x14))
  | 1 => [0x01, 0x02, 0x03, 0x06, 0x10, 0x11, 0x12, 0x13, 0x14].contains alg
  | 2 => [0x01, 0x02, 0x06, 0x11, 0x12, 0x13, 0x14].contains alg
  | 3 => alg == 0x01 || alg == 0x02
  | 4 => isSymmetric alg
  | _ => false

/-- Material length of a FORM that fixes it (Table 9.6). -/
def formLen (form alg pset : Nat) : Nat :=
  match form with
  | 0 => pkLen alg pset
  | 1 => skLen alg pset
  | 2 => skLen alg pset + pkLen alg pset
  | _ => seedLen alg

/-- Does a material length suit FORM, ALG and PSET? -/
def formLenOk (form alg pset n : Nat) : Bool :=
  if form = 4 then secretLenOk alg pset n else n == formLen form alg pset

/-- Bytes of the RFC 5649 blob of `m` bytes of material with the header of Table 9.7 (R245). -/
def blobLen (m : Nat) : Nat := 8 * ceilDiv (16 + m) 8 + 8

/-- The largest material length whose blob has the given length (R243), if any. -/
def blobMaterial (form alg pset len : Nat) : Option Nat :=
  if form = 4 then
    let r := secretRange alg pset
    ((List.range (r.2 + 1)).reverse.find? fun m => decide (r.1 ≤ m) && blobLen m == len)
  else if blobLen (formLen form alg pset) = len then some (formLen form alg pset) else none

/-- PSET defined for ALG, by the tables or by a loaded CATALOGUE (R354). -/
def importPset (s : State) (j : Job) : Bool :=
  psetOk 0x40 j.alg j.pset || s.grafts.catalogue.any fun c => c.op == 0x40 && c.alg == j.alg && c.pset == j.pset

/-- Does the private form of ALG hold the public key, so that the object has both halves (R160, R244)?  DEDUCED (log entry 43):
SLH-DSA and RSA, which have no form with a public key beside it. -/
def privHoldsPub (alg : Nat) : Bool := alg == 0x03 || alg == 0x10

/-- Bytes an imported object will occupy: both halves when a seed expands to a pair (R134). -/
def importMaterial (j : Job) : Nat :=
  if j.form = 4 then (blobMaterial 4 j.alg j.pset j.inLen).getD 0
  else if j.form = 3 ∨ (j.form = 1 ∧ privHoldsPub j.alg) then skLen j.alg j.pset + pkLen j.alg j.pset
  else formLen j.form j.alg j.pset

def importBudget (j : Job) : Nat :=
  let base := 4 + ceilDiv j.inLen 512
  if j.form = 0 ∨ j.form = 4 then base
  else if j.alg = 0x03 then keygenBudget 0x03 j.pset
  else if j.alg = 0x10 then base + verifyBudget 0x10 j.pset
  else if 0x11 ≤ j.alg ∧ j.alg ≤ 0x14 then base
  else base + keygenBudget j.alg j.pset

def planKeyImport (s : State) (j : Job) : Plan :=
  let noPriv := (j.alg == 0x04 || j.alg == 0x05 || j.alg == 0x07) && decide (1 ≤ j.form) && decide (j.form ≤ 3)
  let lenBad :=
    if j.generate then
      (if [0x28, 0x29, 0x2A, 0x2B].contains j.alg then !secretLenOk j.alg j.pset j.keyLen else j.keyLen != 0)
    else false
  let m := if j.generate then (if j.keyLen = 0 then (secretRange j.alg j.pset).1 else j.keyLen)
    else importMaterial j
  let inBad :=
    if j.generate then j.inLen != 0
    else if j.wrapped then (blobMaterial j.form j.alg j.pset j.inLen).isNone
    else !formLenOk j.form j.alg j.pset j.inLen
  let kek := keyOr s j.inst j.keyH
  let mx := if decide (0x10 ≤ j.alg) && decide (j.alg ≤ 0x14) then [mxuCheck s] else []
  let p := { plan0 ([ (!importPset s j, fl 0x0102 0x00),
        (noPriv, fl 0x0300 0x06),
        (!formOk j.form j.alg || (j.generate && (j.form != 4 || j.wrapped)), fl 0x0303 0x51),
        (decide (1 ≤ j.form) && !j.wrapped && !j.generate, fl 0x0300 0x53),
        (lenBad, fl 0x0101 0x42), (inBad, fl 0x0101 0x01), outCheck j 4] ++ mx)
      (if j.generate then 4 else importBudget j) with
    useKey := j.wrapped,
    fam := if j.wrapped then [(kek.alg != 0x32 || !kek.has uUnwrap, fl 0x0201 0x53)] else [],
    kek := if j.wrapped then (keyFor s j.inst j.keyH).map (·.index) else none }
  scaled (j.form != 0 && ((bit j.policy pOrder2 && !ignoresOrder2 j.alg) || (j.wrapped && kek.has pOrder2)))
    (withNewKey s j j.alg j.policy m p)

/-- The usages and EXTRACTABLE of a POLICY (R245, step 3). -/
def carried (p : Nat) : Nat := p % 2048 + b2n (bit p pExtractable) * 2 ^ pExtractable

/-- Is every bit of `p` set in `h`? -/
def within (p h : Nat) : Bool := (List.range 17).all fun i => !bit p i || bit h i

/-- Does a blob header match VERSION, KIND 0, ALG, PSET, FORM and the zero bytes (Table 9.7)? -/
def headerOk (j : Job) (h : Bytes) : Bool :=
  byteAt h 0 == 1 && byteAt h 1 == 0 && byteAt h 2 == j.alg && byteAt h 3 == j.pset && byteAt h 4 == j.form
    && allZero h 5 3

/-- The material a KEY_IMPORT brings: its input, or what its KEK unwraps from it; else STATUS and DETAIL (R245). -/
def importText (s : State) (j : Job) (inp : Bytes) : Except (Nat × Nat) Bytes :=
  if !j.wrapped then .ok inp
  else
    let kek := (j.kekIdx.bind (keyAt s)).getD default
    match unwrapOf (kek.priv.getD []) inp with
    | none => .error (0x0300, 0x52)
    | some plain =>
      let m := plain.drop 16
      if !headerOk j plain || !formLenOk j.form j.alg j.pset m.length then .error (0x0300, 0x52)
      else if !within (carried j.policy) (leAt plain 8 8) then .error (0x0201, 0x54)
      else .ok m

/-- The public half in the material of a classical FORM. -/
def formPublic (form alg pset : Nat) (m : Bytes) : Option Bytes :=
  match form with
  | 0 => some m
  | 2 => some (m.drop (skLen alg pset))
  | _ => none

/-! ### KEY_EXPORT, KEY_DESTROY, KEY_GET_PUBLIC (R247 to R249) -/

/-- The FORM an object is exported in: its private half alone when it holds no public half. -/
def exportForm (k : KeyObj) : Nat :=
  if isSymmetric k.alg then 4 else if k.alg = 0x10 ∨ k.alg = 0x03 ∨ k.pub.isNone then 1 else 2

/-- Material of an export. -/
def exportMaterial (k : KeyObj) : Bytes :=
  let sk := k.priv.getD []
  if exportForm k = 2 then sk ++ k.pub.getD [] else sk

/-- Handle of the KEK of a KEY_EXPORT. -/
def Job.kekHandle (j : Job) : Nat := j.par 0 4

def planKeyExport (s : State) (j : Job) : Plan :=
  let k := keyOr s j.inst j.keyH
  let kek := keyOr s j.inst j.kekHandle
  let blob := blobLen (exportMaterial k).length
  scaled ((k.has pOrder2 && !ignoresOrder2 k.alg) || kek.has pOrder2)
    { plan0 [psetCheck j, inCheck j 0] (4 + ceilDiv blob 512) with
      useKey := true, kekH := some j.kekHandle,
      fam := [ (isStateful k.alg && k.priv.isSome, fl 0x0201 0x05), (!k.has pExtractable, fl 0x0201 0x51),
        (k.priv.isNone, fl 0x0201 0x03),
        (kek.alg != 0x32 || !kek.has uWrap || kek.pset != j.pset, fl 0x0201 0x53), outCheck j blob],
      key := (keyFor s j.inst j.keyH).map (·.index),
      kek := (keyFor s j.inst j.kekHandle).map (·.index) }

def planKeyDestroy (s : State) (j : Job) : Plan :=
  { plan0 [psetCheck j, keyLive s j.inst j.keyH] 2 with key := (keyFor s j.inst j.keyH).map (·.index) }

/-- Bytes KEY_GET_PUBLIC writes for an object. -/
def publicLen (k : KeyObj) : Nat := ((k.pub.map List.length).getD 0) + (if isStateful k.alg then 8 else 0)

def planKeyGetPublic (s : State) (j : Job) : Plan :=
  let info := bit j.opt 0
  let k := keyOr s j.inst j.keyH
  { plan0 ([psetCheck j] ++ (if info then [outCheck j 32] else []) ++ [keyLive s j.inst j.keyH]
      ++ (if info then [] else [(k.pub.isNone, fl 0x0201 0x03), outCheck j (publicLen k)])) 2 with
    key := (keyFor s j.inst j.keyH).map (·.index) }

/-! ### CTX_DERIVE, CTX_EXPORT, CTX_DESTROY (R252 to R256) -/

def Job.cSrc (j : Job) : Nat := bits j.opt 4 2
def Job.cDst (j : Job) : Nat := bits j.opt 7 5
def Job.cSaltSlot (j : Job) : Nat := bits j.opt 10 8
def Job.extract (j : Job) : Bool := j.alg == 0x2A && j.mode == 1
def Job.cSaltFrom (j : Job) : Bool := j.extract && bit j.opt 11
def Job.cSrcZero (j : Job) : Bool := j.extract && bit j.opt 12
def Job.cRaw (j : Job) : Bool := bit j.opt 13
def Job.cL (j : Job) : Nat := j.par 0 2
def Job.labelLen (j : Job) : Nat := j.par 2 1
def Job.label (j : Job) : Bytes := sub j.params 3 j.labelLen

/-- Targets of CTX_DERIVE (R252). -/
def ctxTargetOk (alg pset : Nat) : Bool :=
  if alg = 0 then pset == 0
  else (alg == 0x28 || alg == 0x29 || alg == 0x30 || alg == 0x31) && psetOk 0x40 alg pset

def isAeadAlg (alg : Nat) : Bool := alg == 0x30 || alg == 0x31

/-- L out of range for the target or the mode (R253, R254). -/
def ctxLBad (j : Job) : Bool :=
  (if isAeadAlg j.tAlg then j.cL != 0
   else if j.tAlg = 0 then decide (j.cL < 16) || decide (96 < j.cL)
   else !secretLenOk j.tAlg j.tPset j.cL)
  || (j.extract && j.cL != hashLen j.pset)

/-- Is the label used (R254)? -/
def Job.labelUsed (j : Job) : Bool := (j.alg == 0x2A && j.mode == 0 && !isAeadAlg j.tAlg) || j.alg == 0x2B

/-- Length of the label prefix. -/
def Job.prefixLen (j : Job) : Nat := if j.alg = 0x2B ∨ j.cRaw then 0 else 6

/-- Input limit of the mode (Table 9.11). -/
def ctxInMax (j : Job) : Nat :=
  if j.alg = 0x2B then 1024 else if j.mode = 0 then 255 else if j.mode = 1 then (if j.cSaltFrom then 0 else 128) else 1024

/-- Units the new contents of DST take (Table 9.9). -/
def ctxNewUnits (j : Job) : Nat := if isAeadAlg j.tAlg then 2 else ceilDiv j.cL 32

/-- Refusals of a source slot. -/
def sourceChecks (c : Ctx) (n : Nat) : List (Bool × Fail) :=
  match c.slot n with
  | .secret _ => []
  | .empty => [(true, fl 0x0203 0x41)]
  | _ => [(true, fl 0x0203 0x42)]

/-- The slots a CTX_DERIVE names as sources. -/
def deriveSources (j : Job) : List Nat :=
  (if j.cSrcZero then [] else [j.cSrc]) ++ (if j.cSaltFrom then [j.cSaltSlot] else [])

def planCtxDerive (s : State) (j : Job) : Plan :=
  let c := ctxOr s j.inst j.ctxH
  { plan0 [psetCheck j,
      (j.mode == 3 || (j.alg == 0x2B && j.mode != 0) || !ctxTargetOk j.tAlg j.tPset
        || (j.extract && isAeadAlg j.tAlg), fl 0x0303 0x10),
      (ctxLBad j, fl 0x0101 0x42),
      (j.labelUsed && (decide (255 < j.labelLen + j.prefixLen) || j.parShort (3 + j.labelLen)), fl 0x0101 0x43),
      (decide (ctxInMax j < j.inLen), fl 0x0101 0x43)] (if isAeadAlg j.tAlg then 10 else 8) with
    useCtx := true, ctx := some j.ctxH,
    holds := ([j.cSrc, j.cDst] ++ (if j.cSaltFrom then [j.cSaltSlot] else [])).map (Hold.slot j.ctxH),
    contents := [(c.ephemeral, fl 0x0203 0x52)] ++ (deriveSources j).flatMap (sourceChecks c)
      ++ [(decide (c.freeUnits j.cDst < ctxNewUnits j), fl 0x0203 0x53)] }

/-- Material of an exported slot (R255). -/
def slotMaterial : Slot → Bytes
  | .secret b => b
  | .mac _ _ k => k
  | .aead _ _ k iv _ => k ++ iv
  | _ => []

def planCtxExport (s : State) (j : Job) : Plan :=
  let c := ctxOr s j.inst j.ctxH
  let slot := j.opt % 8
  let kek := keyOr s j.inst j.keyH
  scaled (kek.has pOrder2) { plan0 [psetCheck j, inCheck j 0] 6 with
    useKey := true, useCtx := true, ctx := some j.ctxH,
    kek := (keyFor s j.inst j.keyH).map (·.index),
    fam := [(kek.alg != 0x32 || !kek.has uWrap || kek.pset != j.pset, fl 0x0201 0x53)],
    holds := [Hold.slot j.ctxH slot],
    contents := [(c.ephemeral, fl 0x0203 0x52), (c.slot slot == .empty, fl 0x0203 0x41),
      outCheck j (blobLen (slotMaterial (c.slot slot)).length)] }

def planCtxDestroy (_s : State) (j : Job) : Plan :=
  { plan0 [psetCheck j] 2 with
    useCtx := true, ctx := some j.ctxH,
    holds := if bit j.opt 3 then [Hold.slot j.ctxH (j.opt % 8)] else allSlots j.ctxH }

/-! ### ROUTINE_CALL (R332, R333) -/

/-- The loaded routine of an ID. -/
def State.routine? (s : State) (id : Nat) : Option Routine :=
  if id = 0 then none else s.grafts.routines.find? (·.id == id)

def planRoutine (s : State) (j : Job) : Plan :=
  let r := s.routine? (j.opt % 256)
  let d := r.getD default
  let k := keyOr s j.inst j.keyH
  let keyed := d.keyAlg != 0
  { plan0 [psetCheck j, (r.isNone, fl 0x0303 0x60)] d.budget with
    useKey := keyed,
    fam := (if keyed then [(k.alg != d.keyAlg, fl 0x0201 0x02), (!k.has d.keyUsage, fl 0x0201 0x01)] else [])
      ++ [(decide (d.inMax < j.inLen), fl 0x0101 0x01), outCheck j d.outMin],
    key := if keyed then (keyFor s j.inst j.keyH).map (·.index) else none }

/-! ### By opcode -/

/-- The plan of a job by the manual's own tables; `dep` and `late` tell a follow handle which stream it means (R219). -/
def basePlan (s : State) (j : Job) (dep : Option Nat) (late : Bool) : Plan :=
  match j.opcode with
  | 0x01 => planKemKeygen s j
  | 0x02 => planKemEncaps s j
  | 0x03 => planKemDecaps s j
  | 0x08 => planSigKeygen s j
  | 0x09 => planSigSign s j
  | 0x0A => planSigVerify s j
  | 0x10 => planDhKeygen s j
  | 0x11 => planDhDerive s j
  | 0x14 => planRsaKeygen s j
  | 0x15 => planRsaSign s j
  | 0x16 => planRsaVerify s j
  | 0x17 => planRsaDecrypt s j
  | 0x18 => planRsaEncrypt s j
  | 0x20 => planDigest s j
  | 0x21 => planDigestStart s j
  | 0x22 => planStream s j dep late
  | 0x23 => planStream s j dep late
  | 0x28 => planMac s j
  | 0x29 => planKdf s j
  | 0x30 => planAead s j true
  | 0x31 => planAead s j false
  | 0x38 => planRng s j
  | 0x40 => planKeyImport s j
  | 0x41 => planKeyExport s j
  | 0x42 => planKeyDestroy s j
  | 0x43 => planKeyGetPublic s j
  | 0x49 => planCtxDerive s j
  | 0x4A => planCtxExport s j
  | 0x4B => planCtxDestroy s j
  | 0x50 => planHybrid s j
  | 0x60 => planRoutine s j
  | _ => plan0 [psetCheck j] 0

/-- The row of a loaded CATALOGUE that adds a job's operation (R178, R354): a parameter set that the manual does not define. -/
def catalogueRow (s : State) (j : Job) : Option CatEntry :=
  if psetOk j.opcode j.alg j.pset then none
  else s.grafts.catalogue.find? fun c => c.op == j.opcode && c.alg == j.alg && c.pset == j.pset

/-- The sprint figure of an operation: its table's, or that of the graft that adds it (R41, R354). -/
def sprintFigure (s : State) (j : Job) : Option Nat :=
  match catalogueRow s j with
  | some c => if c.sprint = 0 then none else some c.sprint
  | none => sprintBudget j.opcode j.alg j.pset j.opt

/-- The plan of a job; one of an added operation has no PSET to refuse, and the graft's budget (R354). -/
def planOf (s : State) (j : Job) (dep : Option Nat) (late : Bool) : Plan :=
  let p := { basePlan s j dep late with sprint := sprintFigure s j }
  match catalogueRow s j with
  | some c => { p with pre := p.pre.drop 1, budget := c.budget }
  | none => p

/-- Every check of a dispatch up to the holds, in the order of R77 step 4 and R239. -/
def Plan.checks (s : State) (j : Job) (p : Plan) : List (Bool × Fail) :=
  p.pre
    ++ (if p.useKey then [keyLive s j.inst j.keyH] else []) ++ p.kekH.toList.map (keyLive s j.inst)
    ++ (if p.useCtx then [ctxLive s j.inst j.ctxH] else [])
    ++ (if p.useKey then [keyDev s j.inst j.keyH] else []) ++ p.kekH.toList.map (keyDev s j.inst)
    ++ p.fam
    ++ (if p.useCtx then [ctxMoving s j.inst j.ctxH] else [])

/-- Does the job's family honour SPEC_OK (Tables 5.15, 6.9, 7.8, 8.8, 9.17; R334)? -/
def honoursSpec (j : Job) : Bool :=
  match j.opcode with
  | 0x01 => false
  | 0x08 => false
  | 0x09 => !isStateful j.alg
  | 0x10 => false
  | 0x14 => false
  | 0x21 => false
  | 0x22 => false
  | 0x23 => false
  | 0x29 => j.kdfInline
  | 0x40 => false
  | 0x42 => false
  | 0x4B => false
  | _ => true

/-- Does the job handle no secret, so that it runs at no masking order (R363)? -/
def isPublicOp (op : Nat) : Bool := relClass op 0 == .pub

/-- The budget or quantum the job is held to, and whether it runs to the sprint figure (R40, R41, R149). -/
def jobBudget (p : Plan) (sprintClass : Bool) : Nat × Bool :=
  match p.sprint with
  | some b => if sprintClass && !p.order2 then (b, true) else (p.budget, false)
  | none => (p.budget, false)

end Sys2Proof.Machine
end

