-- ==== Sys2Proof/Machine/Seal.lean ====
section
/-! DEFINITION. AES-CMAC and AES-XTS, and the sealing of vault lines with the integrity tree over them (R260). -/

namespace Sys2Proof.Machine

/-! ### AES-XTS (SP 800-38E) and AES-CMAC (SP 800-38B) -/

/-- The next tweak: a product by x in GF(2^128), the first byte of a block lowest. -/
def xtsNext (t : Nat) : Nat := if 2 ^ 127 ≤ t then (2 * t) % 2 ^ 128 ^^^ 0x87 else 2 * t

/-- The blocks of a string under a tweak each, `f` being the cipher; `n` bounds their number. -/
def xtsBlocks (f : Nat → Nat) : Nat → Nat → Bytes → Bytes
  | 0, _, _ => []
  | n + 1, t, m => if m.isEmpty then [] else
    forced (xtsNext t) fun u => leBytes 16 (f (leNat (m.take 16) ^^^ t) ^^^ t) ++ xtsBlocks f n u (m.drop 16)

/-- AES-256-XTS over whole blocks: the key's first half for the data, its second for the tweak. -/
def xtsSeal (key : Bytes) (unit : Nat) (m : Bytes) : Bytes :=
  let ks := Aes.keys (key.take 32)
  forced (Aes.encrypt (Aes.keys (key.drop 32)) unit) fun t => xtsBlocks (Aes.encrypt ks) (ceilDiv m.length 16) t m

def xtsOpen (key : Bytes) (unit : Nat) (m : Bytes) : Bytes :=
  let ks := Aes.keys (key.take 32)
  forced (Aes.encrypt (Aes.keys (key.drop 32)) unit) fun t => xtsBlocks (Aes.decrypt ks) (ceilDiv m.length 16) t m

/-- A subkey from the one before it. -/
def cmacDouble (x : Nat) : Nat := if 2 ^ 127 ≤ x then (2 * x) % 2 ^ 128 ^^^ 0x87 else 2 * x

/-- The chain over a string that is not empty; `k1` and `k2` are the subkeys, `n` bounds the blocks. -/
def cmacChain (ks : List Nat) (k1 k2 : Nat) : Nat → Nat → Bytes → Nat
  | 0, y, _ => y
  | n + 1, y, m =>
    let e (x : Nat) : Nat := beNat (leBytes 16 (Aes.encrypt ks (leNat (beBytes 16 x))))
    if m.length ≤ 16 then
      e (y ^^^ (if m.length = 16 then beNat m ^^^ k1 else beNat (m ++ 0x80#8 :: zeros (15 - m.length)) ^^^ k2))
    else forced (e (y ^^^ beNat (m.take 16))) fun y => cmacChain ks k1 k2 n y (m.drop 16)

/-- AES-CMAC, 16 bytes. -/
def cmac (key m : Bytes) : Bytes :=
  let ks := Aes.keys key
  forced (beNat (leBytes 16 (Aes.encrypt ks 0))) fun l =>
    forced (cmacDouble l) fun k1 => beBytes 16 (cmacChain ks k1 (cmacDouble k1) (max 1 (ceilDiv m.length 16)) 0 m)

/-! ### Lines and the tree (Table 9.13, R260) -/

/-- First lines of the key, context, stream, metadata and scratch regions, and their lengths in lines.  DEDUCED (log entry 55): the
regions lie in the order of Table 9.13. -/
def keyRegion : Nat × Nat := (0, 33554432)
def ctxRegion : Nat × Nat := (33554432, 1048576)
def streamRegion : Nat × Nat := (34603008, 32768)
def metaRegion : Nat × Nat := (34635776, 1015808)
def scratchRegion : Nat × Nat := (35651584, 23068672)

/-- First line of a level: 0 the 58,720,256 lines sealed, 1 the MAC lines, 2 to 8 the seven levels of node lines. -/
def levelBase (k : Nat) : Nat :=
  [0, 58720256, 66060288, 66977792, 67092480, 67106816, 67108608, 67108832, 67108860].getD k 0

/-- The line of level `k` that stands over a sealed line. -/
def levelLine (k line : Nat) : Nat := levelBase k + line / 8 ^ k

/-- The place of the level-`k` line in the line above it, or in the root. -/
def levelSlot (k line : Nat) : Nat := line / 8 ^ k % 8

/-- Lines of a node cache of 512 KiB. -/
def nodeCacheLines : Nat := 8192

/-- Put a line into an image, lines rising. -/
def putLine : List (Nat × Bytes) → Nat → Bytes → List (Nat × Bytes)
  | [], a, b => [(a, b)]
  | x :: xs, a, b => if a < x.1 then (a, b) :: x :: xs else if a = x.1 then (a, b) :: xs else x :: putLine xs a b

/-- A line of an image; zeros where none has been written. -/
def lineOf (img : List (Nat × Bytes)) (a : Nat) : Bytes := ((img.find? (·.1 == a)).map (·.2)).getD (zeros 64)

end Sys2Proof.Machine
end

