-- ==== Sys2Proof/Machine/Vault.lean ====
section
/-! DEFINITION. The vault (R259 to R262): sealed lines in two copies under an integrity tree, the objects in them, the context
cache over it (R258). -/

namespace Sys2Proof.Machine

/-! ### Lines (R260) -/

/-- The 8-byte MAC of a line as stored; the mode of AES-256 and the order of its input are not published (log entry 55). -/
def Vault.macOf (v : Vault) (line : Nat) (b : Bytes) : Bytes :=
  (cmac (v.keys.getD ([], [])).2 (b ++ leBytes 8 line)).take 8

/-- Write a line as stored to the channels that serve. -/
def Vault.put (v : Vault) (chans : List Nat) (line : Nat) (b : Bytes) : Vault :=
  { v with copies := v.copies.mapIdx fun c img => if chans.contains c then putLine img line b else img }

/-- Read a line as stored whose MAC is to be `want`: from the channel whose turn it is, else from the other, from which the bad
copy is then rewritten; `none` when neither copy serves (R259, R262). -/
def Vault.fetch (v : Vault) (chans : List Nat) (line : Nat) (want : Bytes) : Vault × Option Bytes :=
  let at_ (c : Nat) : Bytes := lineOf (v.copies.getD c []) line
  let good (c : Nat) : Bool := v.macOf line (at_ c) == want
  match (if v.turn = 1 then chans.reverse else chans) with
  | [] => (v, none)
  | c :: cs =>
    let v := { v with turn := 1 - v.turn }
    if good c then (v, some (at_ c))
    else match cs.find? good with
      | some d => ({ v.put [c] line (at_ d) with fixed := true }, some (at_ d))
      | none => (v, none)

/-- A verified node joins the cache; the oldest leave it (log entry 55). -/
def Vault.remember (v : Vault) (line : Nat) (b : Bytes) : Vault :=
  let ns := v.nodes.filter (·.1 != line) ++ [(line, b)]
  { v with nodes := ns.drop (ns.length - nodeCacheLines) }

/-- Does a level-`k` line above the sealed lines stand for any page that has been touched? -/
def Vault.live (v : Vault) (k line : Nat) : Bool :=
  v.touched.any fun p => 64 * p / 8 ^ k == line / 8 ^ k

/-- The contents of the line at level 9 − `d` over a sealed line, verified from the nearest cached node above it or from the root
(`d` = 0); one above untouched pages only is zero.  `none`: it has failed in both copies. -/
def Vault.node (chans : List Nat) (line : Nat) : Nat → Vault → Vault × Option Bytes
  | 0, v => (v, some v.root)
  | d + 1, v =>
    let k := 8 - d
    match v.nodes.find? (·.1 == levelLine k line) with
    | some n => (v, some n.2)
    | none =>
      if !v.live k line then (v, some (zeros 64))
      else match Vault.node chans line d v with
        | (v, none) => (v, none)
        | (v, some p) => match v.fetch chans (levelLine k line) (sub p (8 * levelSlot k line) 8) with
          | (v, some b) => (v.remember (levelLine k line) b, some b)
          | (v, none) => ({ v with bad := true }, none)

/-- Set the line at level 9 − `d` over a sealed line, and with it its MAC in every line above and in the root. -/
def Vault.setNode (chans : List Nat) (line : Nat) : Nat → Bytes → Vault → Vault
  | 0, b, v => { v with root := b }
  | d + 1, b, v =>
    let k := 8 - d
    match Vault.node chans line d v with
    | (v, none) => v
    | (v, some p) =>
      Vault.setNode chans line d (patch p (8 * levelSlot k line) (v.macOf (levelLine k line) b))
        ((v.put chans (levelLine k line) b).remember (levelLine k line) b)

/-- A line of an accepted path in plaintext; a line of an untouched page is zero (R261).  `none`: it is not accepted. -/
def Vault.readLine (v : Vault) (chans : List Nat) (line : Nat) : Vault × Option Bytes :=
  if !v.touched.contains (line / 64) then (v, some (zeros 64))
  else match Vault.node chans line 8 v with
    | (v, none) => (v, none)
    | (v, some p) => match v.fetch chans line (sub p (8 * levelSlot 0 line) 8) with
      | (v, some b) => (v, some (xtsOpen (v.keys.getD ([], [])).1 line b))
      | (v, none) => (v, none)

/-- The first write to a page: its 64 lines are sealed as zeros, their MACs fill eight MAC lines and one node (R261). -/
def Vault.touch (v : Vault) (chans : List Nat) (page : Nat) : Vault :=
  let lines := List.range' (64 * page) 64
  let ct (l : Nat) : Bytes := xtsSeal (v.keys.getD ([], [])).1 l (zeros 64)
  let macLine (i : Nat) : Nat := levelLine 1 (64 * page + 8 * i)
  let macs (i : Nat) : Bytes := (List.range' (64 * page + 8 * i) 8).flatMap fun l => v.macOf l (ct l)
  let v := lines.foldl (fun v l => v.put chans l (ct l)) v
  let v := (List.range 8).foldl (fun v i => (v.put chans (macLine i) (macs i)).remember (macLine i) (macs i)) v
  let v := Vault.setNode chans (64 * page) 7 ((List.range 8).flatMap fun i => v.macOf (macLine i) (macs i)) v
  { v with touched := page :: v.touched }

/-- Write a line: sealed, and its MAC set along its path. -/
def Vault.writeLine (v : Vault) (chans : List Nat) (line : Nat) (b : Bytes) : Vault :=
  let v := if v.touched.contains (line / 64) then v else v.touch chans (line / 64)
  match Vault.node chans line 8 v with
  | (v, none) => v
  | (v, some p) =>
    let ct := xtsSeal (v.keys.getD ([], [])).1 line (fit 64 b)
    Vault.setNode chans line 8 (patch p (8 * levelSlot 0 line) (v.macOf line ct)) (v.put chans line ct)

/-! ### Objects and their places (Table 9.13) -/

/-- The lines of runs, in order. -/
def runLines (rs : List (Nat × Nat)) : List Nat := rs.flatMap fun r => List.range' r.1 r.2

/-- The lowest `n` free lines from `at_` on, as runs, when `used` holds the runs in use in ascending order. -/
def freeRuns : List (Nat × Nat) → Nat → Nat → List (Nat × Nat)
  | [], at_, n => if n = 0 then [] else [(at_, n)]
  | r :: rs, at_, n =>
    if n = 0 then [] else
    let m := min n (r.1 - at_)
    (if m = 0 then [] else [(at_, m)]) ++ freeRuns rs (r.1 + r.2) (n - m)

/-- A run in its place among ascending ones. -/
def insertRun (r : Nat × Nat) : List (Nat × Nat) → List (Nat × Nat)
  | [] => [r]
  | x :: xs => if r.1 < x.1 then r :: x :: xs else x :: insertRun r xs

/-- Runs in use in a region, ascending. -/
def Vault.usedRuns (v : Vault) (region : Nat × Nat) : List (Nat × Nat) :=
  ((v.objs.flatMap (·.runs)).filter fun r => decide (region.1 ≤ r.1) && decide (r.1 < region.1 + region.2)).foldl
    (fun rs r => insertRun r rs) []

/-- Where a new object of `n` lines goes: the lowest free lines of its region (log entry 55); a stream by its index. -/
def Vault.place (v : Vault) (n : Nat) : VaultTag → List (Nat × Nat)
  | .key _ _ => freeRuns (v.usedRuns keyRegion) keyRegion.1 n
  | .ctx _ => freeRuns (v.usedRuns ctxRegion) ctxRegion.1 n
  | .stream i _ => [(streamRegion.1 + 8 * i, n)]

/-- Write bytes over lines. -/
def Vault.writeBytes (chans : List Nat) : List Nat → Bytes → Vault → Vault
  | [], _, v => v
  | l :: ls, b, v => Vault.writeBytes chans ls (b.drop 64) (v.writeLine chans l (b.take 64))

/-- An object that is gone: its lines are zeroised and free (R248, R256). -/
def Vault.erase (v : Vault) (chans : List Nat) (o : VaultObj) : Vault :=
  let v := Vault.writeBytes chans (runLines o.runs) [] v
  { v with objs := v.objs.filter (·.tag != o.tag) }

/-- Seal an object's bytes, in its own lines or in new ones. -/
def Vault.seal (v : Vault) (chans : List Nat) (tag : VaultTag) (b : Bytes) : Vault :=
  let n := ceilDiv b.length 64
  match v.objs.find? (·.tag == tag) with
  | some o =>
    if o.bytes == b then v
    else { Vault.writeBytes chans (runLines o.runs) b v with objs := updWhere (·.tag == tag) (fun o => { o with bytes := b }) v.objs }
  | none =>
    let rs := v.place n tag
    { Vault.writeBytes chans (runLines rs) b v with objs := v.objs ++ [⟨tag, rs, b⟩] }

/-- Read every line of an object: is each accepted? -/
def Vault.readObj (chans : List Nat) : List Nat → Vault → Vault × Bool
  | [], v => (v, true)
  | l :: ls, v => match v.readLine chans l with
    | (v, some _) => Vault.readObj chans ls v
    | (v, none) => (v, false)

/-- A key object as its lines hold it: 64 bytes of description, the halves, the traversal states (R243; the layout is not
published, log entry 55). -/
def KeyObj.image (k : KeyObj) : Bytes :=
  fit 64 (leBytes 4 k.handle ++ leBytes 2 k.owner ++ leBytes 1 k.alg ++ leBytes 1 k.pset ++ leBytes 8 k.policy
    ++ leBytes 4 (k.pub.getD []).length ++ leBytes 4 (k.priv.getD []).length ++ k.rejection)
  ++ fit k.material (k.pub.getD [] ++ k.priv.getD [] ++ (match k.stateful with
    | some f => f.trees.flatMap (·.path)
    | none => []))

/-- A stream's 512 bytes: its description and what stands for the state it has come to (log entry 55). -/
def Stream.image (x : Stream) : Bytes :=
  fit 512 (leBytes 4 x.handle ++ leBytes 2 x.owner ++ leBytes 1 x.alg ++ leBytes 1 x.pset ++ leBytes 1 (b2n x.final)
    ++ leBytes 8 x.absorbed.length ++ leBytes 8 x.squeezed ++ leBytes 1 x.n.length ++ x.n ++ leBytes 1 x.s.length ++ x.s
    ++ hashOf 10 x.absorbed [] [] 64)

def KeyObj.tag (k : KeyObj) : VaultTag := .key k.index k.gen
def Ctx.tag (c : Ctx) : VaultTag := .ctx c.handle
def Stream.tag (x : Stream) : VaultTag := .stream x.index x.gen

/-- What the vault is to hold. -/
def vaultWant (s : State) : List (VaultTag × Bytes) :=
  s.store.keys.map (fun k => (k.tag, k.image)) ++ s.store.ctxs.map (fun c => (c.tag, ctxBytes c))
    ++ s.store.streams.map fun x => (x.tag, x.image)

/-- The channels that serve: in the map, or copied back since, and not lost. -/
def vaultChans (s : State) : List Nat :=
  (List.range 2).filter fun c =>
    (s.serves (unitId 8 c) || s.faults.updates.any fun h => h.unit == unitId 8 c && h.state == .serving)
    && !s.faults.raises.any fun r => r.source / 1024 == 0x14 && r.unit == unitId 8 c

/-- What reads and writes have found is raised: VAULT_LINE, VAULT_META (Table 9.14). -/
def vaultReport (s : State) : State :=
  let s := if s.vault.fixed then raiseSrc { s with vault.fixed := false } 0x12 0 0 else s
  if s.vault.bad then raiseSrc { s with vault.bad := false } 0x15 0 0 else s

/-- Read an object's lines; false when one of its own is not accepted in either copy (safe state, where it was one of the tree's).
One that has not been sealed yet has none. -/
def vaultLoad (s : State) (tag : VaultTag) : State × Bool :=
  match s.vault.objs.find? (·.tag == tag) with
  | none => (s, true)
  | some o =>
    if s.vault.keys.isNone then (s, true)
    else match Vault.readObj (vaultChans s) (runLines o.runs) s.vault with
      | (v, ok) => (vaultReport { s with vault := v }, ok || v.bad)

/-- A line of an object's that both copies fail: the object is quarantined, VAULT_INTEGRITY raised (R262). -/
def quarantine (s : State) (tag : VaultTag) : State :=
  let s := match tag with
    | .key i _ => s.updKey i fun k => { k with quarantined := true }
    | .ctx h => s.updCtx h fun c => { c with quarantined := true }
    | .stream i _ => { s with store.streams := updWhere (·.index == i) (fun x => { x with quarantined := true }) s.store.streams }
  raiseSrc s 0x13 0 0

/-! ### The context cache (R258) -/

/-- Entries of 256 bytes. -/
def VaultTag.entries : VaultTag → Nat
  | .key _ _ => 0
  | .ctx _ => 1
  | .stream _ _ => 2

/-- Does a job in flight use it? -/
def ctxPinned (s : State) (tag : VaultTag) : Bool :=
  s.work.jobs.any fun j => match tag with
    | .key _ _ => false
    | .ctx h => j.ctxUse == some h
    | .stream i g => j.streamUse == some i && j.streamGen == g

/-- Entries that no job uses leave, least recently used first, until `room` are free of 16,384 (log entry 55); `n` bounds the
loop. -/
def evictCtx (s : State) (room : Nat) : Nat → List VaultTag → List VaultTag
  | 0, c => c
  | n + 1, c =>
    if (c.map VaultTag.entries).sum + room ≤ 16384 then c
    else match c.find? fun t => !ctxPinned s t with
      | some t => evictCtx s room n (c.erase t)
      | none => c

/-- An entry becomes the most recently used. -/
def cacheCtx (s : State) (tag : VaultTag) : State :=
  { s with store.cache := evictCtx s tag.entries s.store.cache.length (s.store.cache.erase tag) ++ [tag] }

/-- A job loads the entry of what it names: from the vault where the cache does not hold it (R258). -/
def loadCtx (s : State) (tag : VaultTag) : State :=
  if s.store.cache.contains tag then cacheCtx s tag
  else match vaultLoad s tag with
    | (s, true) => cacheCtx s tag
    | (s, false) => quarantine s tag

/-! ### Writing back -/

/-- The vault takes what commits have changed; new contexts and streams have their entries.  DESIGN CHOICE (log entry 55): it does
so at the boundary after the commit. -/
def syncVault (s : State) : State :=
  if s.vault.keys.isNone || s.faults.safe then s else
  let chans := vaultChans s
  let want := vaultWant s
  let fresh := (want.map (·.1)).filter fun t => t.entries != 0 && !s.vault.objs.any (·.tag == t) && !s.store.cache.contains t
  let gone := s.vault.objs.filter fun o => !want.any (·.1 == o.tag)
  let v := gone.foldl (fun v o => v.erase chans o) s.vault
  let v := want.foldl (fun v w => v.seal chans w.1 w.2) v
  let s := { s with vault := v, store.cache := s.store.cache.filter fun t => want.any (·.1 == t) }
  vaultReport (fresh.foldl cacheCtx s)

end Sys2Proof.Machine
end

