-- ==== Sys2Proof/Machine/Jobs.lean ====
section
/-! DEFINITION. Admission, arbitration and dispatch of jobs (R82, R86 to R89, R40), dependencies (R272 to R274),
placement (R21) and holds (R220, R221, R251). -/

namespace Sys2Proof.Machine

/-! ### A job from its chain -/

/-- The job a chain of entries describes, before it is dispatched (Table 3.7). -/
def jobOfChain (inst q cq : Nat) (ses : List Bytes) : Job :=
  let f := ses.headD []
  { (default : Job) with
    inst := inst, sq := q, cq := cq,
    opcode := byteAt f 0, flags := byteAt f 1, tag := leAt f 2 2, alg := byteAt f 4, pset := byteAt f 5,
    depTag := leAt f 6 2, keyH := leAt f 8 4, ctxH := leAt f 12 4,
    inAddr := leAt f 16 8, inLen := leAt f 24 4, inFrags := leAt f 28 2, opt := leAt f 30 2,
    outAddr := leAt f 32 8, outLen := leAt f 40 4, outFrags := leAt f 44 2, opt2 := leAt f 46 2,
    params := chainParams ses, ses := ses }

/-! ### Eligibility (R82, R86, R89) -/

/-- Credits in use of a CQ: reserved ones and CEs not released (R82). -/
def Cq.inUse (c : Cq) : Nat := c.reserved + c.posted.length + c.heldCes.length

/-- Does the CQ of an SQ allow a credit (R82)? -/
def creditFree (s : State) (q : Sq) : Bool :=
  match s.cq? q.inst q.cq with
  | some c => decide (c.inUse < ringN c.log2n)
  | none => false

/-- Jobs of an instance in flight: dispatched without a posted CE (Table 4.9). -/
def inFlight (s : State) (inst : Nat) : Nat := (s.flying.filter (·.inst == inst)).length

/-- Resident jobs of a grove: each holds its slot until its CE is posted. -/
def groveJobs (s : State) (g : Nat) : Nat := (s.flying.filter fun j => j.grove == g && j.member.isNone).length

/-- Free job slots of a grove (R38). -/
def freeSlots (s : State) (g : Nat) : Nat := slotCount s g - groveJobs s g

/-- FENCE is satisfied: no earlier job of the SQ is without a CE (R89). -/
def fenceOk (s : State) (q : Sq) (j : Job) : Bool :=
  !j.fence || !(s.flying.any fun x => x.inst == q.inst && x.sq == q.num)

/-- Grants allowed in a tick: 64, or 8 under the tamper THROTTLE (R86, Table 15.3). -/
def grantLimit (s : State) : Nat := if s.hwd.throttle then 8 else 64

/-! ### Placement on other members (R460, R464, R471) -/

/-- The member that holds, or is home to, a context that is not held here. -/
def remoteHolder (s : State) (h : Nat) : Option Nat :=
  let c := h / 2 ^ 30 % 4
  let m := h / 2 ^ 26 % 16
  if !s.tether.joined || (ctxAt s h).isSome then none
  else if c = s.tether.canopy then
    (if m = s.tether.member then
      (s.tether.away.find? (·.1 == h % 2 ^ 18)).map fun p => c * 16 + p.2.1
    else if s.tether.members.any (fun x => x.num == m && x.joined && !x.lost) then some (c * 16 + m) else none)
  else if s.tether.peers.contains c then some (c * 16 + m) else none

/-- Has a key object replicas on the members (R461)? -/
def KeyObj.replicated (k : KeyObj) : Bool := !isStateful k.alg && decide (k.material ≤ 65536)

/-- Opcodes that work on streams. -/
def isStreamOp (op : Nat) : Bool := op == 0x21 || op == 0x22 || op == 0x23

/-- The member a FUNNEL manager places a job on: the one with the most free slots in its last BEAT, the lowest number at a
tie (R460). -/
def funnelMember (s : State) (j : Job) : Option Nat :=
  let p := planOf s j none false
  let onMember (k : Option Nat) : Bool := match k with
    | some i => ((keyAt s i).map (·.replicated)).getD false
    | none => true
  let keyOk := onMember p.key && onMember p.kek
  let ok := s.funnels && !((List.range 16).any fun g => decide (0 < freeSlots s g))
    && (relClass j.opcode j.alg == .pub || relClass j.opcode j.alg == .budget) && decide (8 ≤ (jobBudget p false).1)
    && !j.sprintFlag && !isStreamOp j.opcode && !p.useCtx && p.resKeys == 0 && p.resCtx == 0 && j.opcode != 0x42 && decide (j.inLen ≤ 65536) && decide (p.need ≤ 65536) && keyOk
  if !ok then none
  else
    let ms := s.tether.members.filter fun m => m.joined && !m.lost && m.num != s.tether.member && decide (0 < m.free)
    ((ms.map (·.free)).max?).bind fun f => ((ms.filter (·.free == f)).map (·.num)).min?.map (s.tether.canopy * 16 + ·)

/-- Does a head name a context on which a job of another member waits for its disposition (R288)? -/
def dispositionDue (s : State) (h : Nat) : Bool :=
  s.work.jobs.any fun j => j.origin.isSome && j.ctxUse == some h && j.dep != .confirmed

/-- Does a head create a key object or a context whose pool of free indices is empty (R384)? -/
def poolEmpty (s : State) (j : Job) : Bool :=
  let p := planOf s j none false
  decide (s.store.keyPool < p.resKeys) || decide (s.store.ctxPool < p.resCtx)

/-- Everything of R86 but the credit, for a head whose chain stands. -/
def admissible (s : State) (q : Sq) (j : Job) : Bool :=
  match s.inst? q.inst with
  | none => false
  | some i =>
    mayFetch s q && i.state == .active && decide (inFlight s q.inst < i.inflightLimit)
      && decide (s.flying.length < 4096) && decide (s.work.grants < grantLimit s) && fenceOk s q j
      && !((planOf s j none false).useCtx && dispositionDue s j.ctxH) && !poolEmpty s j
      && ((List.range 16).any (fun g => decide (0 < freeSlots s g)) || (funnelMember s j).isSome)

/-- The head job of an SQ, when its chain is whole and well formed. -/
def headJob (s : State) (q : Sq) : Option Job :=
  match readHead s q with
  | (_, .chain ses _) => some (jobOfChain q.inst q.num q.cq ses)
  | _ => none

/-- Does a head compete in the sprint class, judged from its SE alone (R87)? -/
def wantsSprint (s : State) (j : Job) : Bool :=
  match s.inst? j.inst with
  | some i => j.sprintFlag && decide (0 < i.sprintRate) && (sprintFigure s j).isSome
  | none => false

/-- Has an instance a sprint token? -/
def hasToken (s : State) (inst : Nat) : Bool :=
  match s.inst? inst with
  | some i => decide (0 < i.tokens)
  | none => false

/-- Is the head of an SQ eligible, and in which class (true: sprint)? -/
def eligible (s : State) (q : Sq) : Option Bool :=
  match headJob s q with
  | none => none
  | some j =>
    if !admissible s q j || !creditFree s q then none
    else if wantsSprint s j then (if hasToken s q.inst then some true else none)
    else some false

/-- Does the head wait only for a credit (R83)? -/
def waitsForCredit (s : State) (q : Sq) : Bool :=
  match headJob s q with
  | none => false
  | some j => admissible s q j && !creditFree s q && (!wantsSprint s j || hasToken s q.inst)

/-! ### Arbitration (R87, R88) -/

/-- SQs with an eligible head of a class. -/
def eligibleSqs (s : State) (sprint : Bool) : List Sq := s.work.sqs.filter fun q => eligible s q == some sprint

/-- The next number after `last`, going round. -/
def nextAfter (last : Nat) (xs : List Nat) : Option Nat :=
  let above := xs.filter (last < ·)
  if above.isEmpty then xs.min? else above.min?

/-- The SQ whose sprint head is granted next: rotation among instances, then among their SQs (R87). -/
def sprintPick (s : State) : Option (Nat × Nat) :=
  let es := eligibleSqs s true
  (nextAfter s.work.lastSprint (es.map (·.inst))).bind fun i =>
    let last := ((s.inst? i).map (·.lastSq)).getD 0
    (nextAfter last ((es.filter (·.inst == i)).map (·.num))).map fun q => (i, q)

/-- Has an instance grants left in its round? -/
def instLeft (s : State) (i : Nat) : Bool :=
  match s.inst? i with
  | some x => decide (x.used < x.engineWeight)
  | none => false

/-- A round among instances begins: the weights that have changed apply (R88). -/
def Inst.newRound (i : Inst) : Inst := { i with used := 0, engineWeight := i.nextWeight }

/-- A round among the SQs of an instance begins. -/
def Sq.newRound (q : Sq) : Sq := { q with used := 0, weight := q.nextWeight }

/-- Start a new round among instances, and among the SQs of an instance, where the present one has ended
(R88). -/
def newRounds (s : State) (inst : Nat) : State :=
  let es := eligibleSqs s false
  let s := if es.any fun q => instLeft s q.inst then s
    else { s with insts := s.insts.map Inst.newRound }
  if (es.filter (·.inst == inst)).any fun q => decide (q.used < q.weight) then s
  else { s with work.sqs := updWhere (·.inst == inst) Sq.newRound s.work.sqs }

/-- Rounds that have no eligible head left have ended when a boundary applies changed weights (R88); the grants of the tick
that ends are no bar. -/
def closeRounds (s : State) : State :=
  let es := eligibleSqs { s with work.grants := 0 } false
  let s := if es.any fun q => instLeft s q.inst then s else { s with insts := s.insts.map Inst.newRound }
  let ended (q : Sq) : Bool := !((es.filter (·.inst == q.inst)).any fun x => decide (x.used < x.weight))
  { s with work.sqs := updWhere ended Sq.newRound s.work.sqs }

/-- May the normal class grant this SQ now (R88)? -/
def normalTurn (s : State) (inst q : Nat) : Bool :=
  instLeft s inst && (match s.sq? inst q with
    | some x => decide (x.used < x.weight)
    | none => false)

/-! ### Dependencies (R272 to R274) -/

/-- The job of a number, dispatched and unposted, or posted and kept. -/
inductive Found where
  | none
  | live (j : Job)
  | posted (d : Done)
  deriving DecidableEq, Repr

/-- The most recently dispatched job of an instance with a TAG (R272). -/
def findTag (s : State) (inst tag : Nat) : Found :=
  let js := (s.flying.filter fun j => j.inst == inst && j.tag == tag).map (·.id)
  let ds := (s.work.done.filter fun d => d.inst == inst && d.tag == tag).map (·.id)
  match js.max?, ds.max? with
  | none, none => .none
  | some a, none => (s.flying? a).elim .none .live
  | none, some b => ((s.work.done.find? (·.id == b)).elim .none .posted)
  | some a, some b =>
    if b < a then (s.flying? a).elim .none .live else ((s.work.done.find? (·.id == b)).elim .none .posted)

/-- STATUS and DETAIL of a dependant by its dependency's STATUS (Table 10.4). -/
def dependantEnd (status : Nat) : Nat × Nat :=
  if status = 0x0001 then (0x0401, 0x01)
  else if status = 0x0500 ∨ status = 0x0400 then (0x0400, 0x00)
  else (0x0401, 0x00)

/-- The open ancestors of a job: its dependency, that job's, and so on (R274); `n` bounds the chain. -/
def ancestors (s : State) : Nat → Dep → List Nat
  | 0, _ => []
  | n + 1, .on d =>
    match s.flying? d with
    | some j => d :: ancestors s n j.dep
    | none => []
  | _, _ => []

/-- Depth of a job (R274). -/
def depth (s : State) (j : Job) : Nat := (ancestors s s.work.jobs.length j.dep).length

/-- Is a job confirmed (R275)? -/
def Job.confirmed (j : Job) : Bool := j.dep == .confirmed

def Job.follows (j : Job) : Bool := (j.opcode == 0x22 || j.opcode == 0x23) && j.ctxH == 0xFFFFFFFF

/-! ### Holds and waiting (R220, R221, R251) -/

/-- Does a job hold, or wait to hold, a resource? -/
def Job.claims (j : Job) (h : Hold) : Bool := j.holds.contains h || (j.waitsOn.isSome && j.wants.contains h)

/-- The job whose hold stands in the way, if any: another job that holds it. -/
def blocker (s : State) (me : Nat) (hs : List Hold) : Option Nat :=
  (s.flying.find? fun j => j.id != me && hs.any fun h => j.holds.contains h).map (·.id)

/-- Is the job it depends on a holder of, or itself a waiter for, what it needs? -/
def depClaims (s : State) (d : Dep) (hs : List Hold) : Option Nat :=
  match d with
  | .on i => match s.flying? i with
    | some j => if hs.any j.claims then some i else none
    | none => none
  | _ => none

/-- Holds at dispatch: wait on the dependency, be refused, or take them (R220, R221, R251). -/
inductive HoldOutcome where
  | take
  | wait (job : Nat)
  | refuse
  deriving DecidableEq, Repr

def holdOutcome (s : State) (me : Nat) (d : Dep) (hs : List Hold) : HoldOutcome :=
  match depClaims s d hs with
  | some i => .wait i
  | none => if (blocker s me hs).isSome then .refuse else .take

/-! ### Placement (R21, R38) -/

/-- Does a grove's key-cache slice hold a key? -/
def groveHolds (s : State) (g : Nat) (k : Option Nat) : Bool :=
  match k with
  | some i => (s.groves.getD g default).cache.contains i
  | none => false

/-- Groves in the order of the rotating pointer, which advances by one each tick. -/
def groveOrder (s : State) : List Nat := (List.range 16).map fun k => (now s + k) % 16

/-- The first grove of a list with the most free slots. -/
def mostFree (s : State) : List Nat → Option Nat
  | [] => none
  | g :: gs => match mostFree s gs with
    | some b => if freeSlots s g < freeSlots s b then some b else some g
    | none => if 0 < freeSlots s g then some g else none

/-- The key object that KEY_HANDLE names: the job's key, or where it has none the key it wraps under. -/
def Job.namedKey (j : Job) : Option Nat := match j.keyIdx with
  | some i => some i
  | none => j.kekIdx

/-- The grove a job is placed in (R21). -/
def placeGrove (s : State) (k : Option Nat) : Nat :=
  let gs := (groveOrder s).filter fun g => decide (0 < freeSlots s g)
  let held := gs.filter fun g => groveHolds s g k
  ((mostFree s (if held.isEmpty then gs else held)).getD 0)

def placeEngine (s : State) (g : Nat) : Nat := (leastLoaded s (servingEngines s g)).getD (g * 17)

/-! ### The key-cache slice (R257) -/

/-- Material bytes of a key in the vault. -/
def keyBytes (s : State) (i : Nat) : Nat := ((keyAt s i).map KeyObj.material).getD 0

/-- Is a key in use by a job of the grove, and so pinned? -/
def pinned (s : State) (g i : Nat) : Bool :=
  s.work.jobs.any fun j => j.grove == g && (j.keyIdx == some i || j.kekIdx == some i)

/-- Bytes an entry takes in the slice: of an object above 64 KiB, which streams through it in pieces of 64 KiB, the start stays
(R174, R257). -/
def cacheBytes (s : State) (i : Nat) : Nat := min 65536 (keyBytes s i)

/-- Evict unpinned entries, least recently used first, until `room` bytes are left; `none` when every entry that stands in the
way is pinned.  `n` bounds the loop. -/
def evict (s : State) (g room : Nat) : Nat → List Nat → Option (List Nat)
  | 0, c => some c
  | n + 1, c =>
    if (c.map (cacheBytes s)).sum + room ≤ 262144 then some c
    else match c.find? fun i => !pinned s g i with
      | some i => evict s g room n (c.erase i)
      | none => none

/-- An entry of a slice becomes the most recently used (R257).  DESIGN CHOICE (log entry 54): a delivery that finds no room, every
entry in the way being pinned, passes through the slice and leaves no entry. -/
def cacheKey (s : State) (g i : Nat) : State :=
  { s with groves := s.groves.modify g fun x =>
    match evict s g (cacheBytes s i) x.cache.length (x.cache.erase i) with
    | some c => { x with cache := c ++ [i] }
    | none => x }

/-- KEY_CACHE_FILL: a key that the slice does not hold whole is read from the vault (R174, R257, R262). -/
def cacheFill (s : State) (g i : Nat) : State :=
  if groveHolds s g (some i) && decide (keyBytes s i ≤ 65536) then cacheKey s g i
  else match keyAt s i with
    | none => cacheKey s g i
    | some k => match vaultLoad s k.tag with
      | (s, true) => cacheKey s g i
      | (s, false) => quarantine s k.tag

/-- A job placed in its grove fills the grove's slice with the keys whose material it uses (R257, log entry 51): an owner
routine's key is fetched by KEY_REQ, and KEY_DESTROY uses no material. -/
def fetchMaterial (s : State) (j : Job) : State :=
  if j.opcode == 0x60 || j.opcode == 0x42 then s
  else (j.keyIdx.toList ++ j.kekIdx.toList).foldl (fun s i => cacheFill s j.grove i) s

/-- The context and the stream of a job, as the context cache has them; CTX_DESTROY uses no contents. -/
def Job.ctxTags (j : Job) : List VaultTag :=
  (if j.opcode = 0x4B then [] else j.ctxUse.toList.map VaultTag.ctx)
    ++ j.streamUse.toList.map fun i => VaultTag.stream i j.streamGen

/-- What a job that runs here names comes into the caches at its dispatch: keys into its grove's slice, the context's and the
stream's entries into the context cache (R257, R258). -/
def fetchKeys (s : State) (j : Job) : State :=
  if j.result.isSome || j.member.isSome then s else j.ctxTags.foldl loadCtx (fetchMaterial s j)

/-! ### Vector wake (R39) and the segment bound (R33, R329) -/

/-- The row of a loaded vendor routine table that serves an operation (R352). -/
def State.vendorRow? (s : State) (op alg pset : Nat) : Option VendorRow :=
  s.grafts.vendor.find? fun v => v.op == op && v.alg == alg && v.pset == pset

/-- Whether a job's segments need the SV and the LV unit, and its segment bound. -/
def jobUnits (s : State) (j : Job) : Bool × Bool × Nat :=
  if j.opcode = 0x60 then
    let r := (s.routine? (j.opt % 256)).getD default
    (r.sv, r.lv, r.segBound)
  else match s.vendorRow? j.opcode j.alg j.pset with
    | some v => (v.sv, v.lv, v.segBound)
    | none => (Config.needsSv j.opcode j.alg j.pset, Config.needsLv j.opcode j.alg j.pset,
        min 900 (Config.segmentBound j.opcode j.alg j.pset))

/-- Wake cycles a slice needs on an engine (R39): both units wake in parallel. -/
def wakeCycles (e : Engine) (sv lv : Bool) : Nat :=
  max (if lv && !e.lvOn then 400 else 0) (if sv && !e.svOn then 64 else 0)

/-- Does a job run an owner routine that an engine's overlay does not hold (R329)? -/
def needsLoad (j : Job) (e : Engine) : Bool := j.opcode == 0x60 && e.overlay != some (j.opt % 256)

/-- Cycles that a slice of a job takes on an engine to the end of its first segment: the vector wake, the load of the overlay,
the segment bound (R37, R39, R329). -/
def firstSegment (s : State) (j : Job) (e : Engine) : Nat :=
  let (sv, lv, bound) := jobUnits s j
  wakeCycles e sv lv + (if needsLoad j e then 128 else 0) + bound

/-- Of engines a slice fits on, the lowest whose units are awake, else the lowest (R39). -/
def pickWarm (s : State) (sv lv : Bool) (fits : List Nat) : Option Nat :=
  match fits.find? fun e => wakeCycles (s.engines.getD e default) sv lv == 0 with
  | some e => some e
  | none => fits.head?

/-- The engine a slice is given to, of those it fits on: a job's slot moves to another only while that one holds fewer
than 16 (R38); one whose units are awake is preferred (R39), then the job's own, then the lowest (log entry 51). -/
def pickEngine (s : State) (own : Nat) (sv lv : Bool) (fits : List Nat) : Option Nat :=
  let roomy := fits.filter fun e => e == own || decide (residents s e < 16)
  let warm := roomy.filter fun e => wakeCycles (s.engines.getD e default) sv lv == 0
  let best := if warm.isEmpty then roomy else warm
  if best.contains own then some own else best.head?

/-- Sprint insertion (R40): the engine of the grove on which the job starts within the tick, when cycle `cy`
leaves room for its wake and first segment. -/
def insertionEngine (s : State) (j : Job) (cy : Nat) : Option Nat :=
  let (sv, lv, _) := jobUnits s j
  pickEngine s j.engine sv lv <| (servingEngines s j.grove).filter fun e =>
    let x := s.engines.getD e default
    decide (x.planned ≤ cy) && decide (cy + firstSegment s j x ≤ 900)

/-- Plan a slice of a job on an engine from cycle `startCy` on: its units wake, its overlay holds the job's routine (R39,
R329). -/
def planSlice (s : State) (j : Job) (e startCy : Nat) (confirmed : Bool) : State :=
  let (sv, lv, _) := jobUnits s j
  { s with engines := s.engines.modify e fun x =>
    { x with planned := startCy + firstSegment s j x, svOn := x.svOn || sv, lvOn := x.lvOn || lv,
             svIdle := if sv then 0 else x.svIdle, lvIdle := if lv then 0 else x.lvIdle,
             confirmed := x.confirmed || confirmed,
             overlay := if needsLoad j x then some (j.opt % 256) else x.overlay } }

/-! ### Dispatch -/

/-- A job that ends at dispatch (R48): its status stands, nothing is held or reserved. -/
def Job.endAt (j : Job) (f : Fail) (t : Nat) (out : Bytes) : Job :=
  { j with
    result := some { status := f.status, detail := f.detail, len := f.len, out := out, effects := [] },
    commitTick := some t, holds := [], wants := [], waitsOn := none,
    resKeys := 0, resBytes := 0, resShelf := 0, resCtx := 0 }

/-- The bytes a STREAM_NOT_FINAL writes (R222). -/
def notFinalBytes (j : Job) (f : Fail) : Bytes := if f.status = 0x0206 then zeros (digestOut j) else []

/-- Does a stream still stand in the generation given (R217, R219)? -/
def streamStands (s : State) (i g : Nat) : Bool := s.store.streams.any fun x => x.index == i && x.gen == g

/-- Generation of the stream at an index. -/
def streamGenAt (s : State) (i : Option Nat) : Nat :=
  ((i.bind fun i => s.store.streams.find? (·.index == i)).map (·.gen)).getD 0

/-- What a plan reserves and uses, put into the job. -/
def Job.withPlan (j : Job) (s : State) (p : Plan) (sprintClass : Bool) : Job :=
  let (b, sp) := jobBudget p sprintClass
  { j with budget := b, need := p.need, sprint := sp, order2 := p.order2, keyIdx := p.key, kekIdx := p.kek, ctxUse := p.ctx,
           streamUse := p.stream, streamGen := streamGenAt s p.stream, resKeys := p.resKeys, resBytes := p.resBytes, resShelf := p.resShelf,
           resCtx := p.resCtx }

/-- The stream a follow handle means, or that it cannot be known yet (R219): `none` refuses the job. -/
def followed (s : State) (j : Job) (f : Found) : Option (Option Nat × Bool) :=
  if !j.follows then some (none, false) else
  match f with
  | .none => if j.depTag = 0xFFFF then none else some (none, true)
  | .posted d => match d.stream with
    | some (i, g) => if streamStands s i g then some (some i, false) else none
    | none => none
  | .live d =>
    if !isStreamOp d.opcode then none
    else if d.opcode = 0x21 ∧ d.streamUse.isNone then
      (if d.alg == j.alg && d.pset == j.pset then some (none, true) else none)
    else match d.streamUse with
      | some i => if streamStands s i d.streamGen then some (some i, false) else none
      | none => some (none, true)

/-- A follow handle on a DIGEST_START of another ALG or PSET (R219, step 2). -/
def followWrongAlg (j : Job) (f : Found) : Bool :=
  match f with
  | .live d => j.follows && d.opcode == 0x21 && d.streamUse.isNone && (d.alg != j.alg || d.pset != j.pset)
  | _ => false

/-- The dependency's job, when a job must wait for a stream that is not open yet. -/
def lateWait (f : Found) : Option Nat :=
  match f with
  | .live d => some d.id
  | _ => none

/-- The dispatch checks of R77 step 4 on a job that has been granted: the job as it enters the device. -/
def checkJob (s : State) (j : Job) (f : Found) (sprintClass : Bool) : Job :=
  let t := now s
  match followed s j f with
  | none =>
    -- the entry's own checks come first (R77 step 4), then the stream handle's
    let e := (firstFail ((planOf s j none true).checks s j)).getD
      (fl 0x0203 (if followWrongAlg j f then 0x43 else 0x40))
    j.endAt e t (notFinalBytes j e)
  | some (dep, late) =>
    let p := planOf s j dep late
    match (if p.useCtx then remoteHolder s j.ctxH else none) with
    | some d =>
      -- the entry's own checks are made here, those of R239 by the holder; a job that uses a key object has the context
      -- moved here (R464) and makes its reservations when it has come
      match firstFail p.pre with
      | some e => j.endAt e t (notFinalBytes j e)
      | none => if p.useKey then
          { j.withPlan s p sprintClass with pulling := true, resKeys := 0, resBytes := 0, resShelf := 0, resCtx := 0 }
        else { j.withPlan s p sprintClass with member := some d }
    | none =>
    match firstFail (p.checks s j) with
    | some e => j.endAt e t (notFinalBytes j e)
    | none =>
      let j' := j.withPlan s p sprintClass
      if late then
        { j' with waitsOn := lateWait f, wants := [] }
      else match holdOutcome s j.id j.dep p.holds with
        | .refuse => j.endAt p.busy t []
        | .wait i => match firstFail p.create with
          | some e => j.endAt e t []
          | none => { j' with waitsOn := some i, wants := p.holds }
        | .take => match firstFail (p.contents ++ p.create) with
          | some e => j.endAt e t (notFinalBytes j e)
          | none => { j' with holds := p.holds }

/-- PENDING_BIND (R273): pending jobs whose DEP_TAG is the new job's TAG bind to it, or end when the binding
would close a cycle. -/
def bindPending (s : State) (new : Job) : State :=
  let bindOne (s : State) (j : Job) : State :=
    if (ancestors s (s.work.jobs.length + 1) new.dep).contains j.id then
      s.updJob j.id fun x =>
        { x.endAt (fl 0x0401 0x03) (now s) [] with
          endedAt := some (now s + 1), dep := .confirmed, endedUnconfirmed := true }
    else
      let j' := { j with dep := .on new.id }
      if j.follows && j.result.isNone then
        let c := checkJob s j' (.live new) j.sprint
        s.updJob j.id fun _ => { c with
          endedAt := if c.result.isSome then some (now s + 1) else none, endedUnconfirmed := c.result.isSome }
      else s.updJob j.id fun _ => j'
  (s.work.jobs.filter fun j => j.inst == new.inst && j.dep == .pending && j.depTag == new.tag
    && j.id != new.id).foldl bindOne s

/-- A job that waits for a context to be moved here asks for it: of its home, or where this is the home, of the holder
(R464, R465); the request is a CTX_MOVE without the context (log entry 23). -/
def askContext (s : State) (j : Job) : State :=
  match (if j.pulling then remoteHolder s j.ctxH else none) with
  | some d => sendMsg s d 3 (zeros 4 ++ leBytes 4 j.ctxH ++ leBytes 4 j.inst)
  | none => s

/-- The job enters the device: its grove, its dependency, its checks, sprint insertion at cycle `cy`. -/
def admitJob (s : State) (j0 : Job) (sprintClass : Bool) (short : Bool) (cy : Nat) : State :=
  let t := now s
  let f := if j0.depTag = 0xFFFF then Found.none else findTag s j0.inst j0.depTag
  let dep := match f with
    | .none => if j0.depTag = 0xFFFF then Dep.confirmed else Dep.pending
    | .live d => Dep.on d.id
    | .posted _ => Dep.confirmed
  let j1 := { j0 with dep := dep, id := s.work.nextJob, dispatched := t }
  let j2 := match f with
    | .posted d =>
      if d.status = 0 then (if short then j1.endAt (fl 0x0103 0x03) t [] else checkJob s j1 f sprintClass)
      else { j1.endAt (fl (dependantEnd d.status).1 (dependantEnd d.status).2) t [] with endedUnconfirmed := true }
    | _ => if short then j1.endAt (fl 0x0103 0x03) t [] else checkJob s j1 f sprintClass
  let g := placeGrove s j2.namedKey
  let away := if j2.result.isNone && j2.waitsOn.isNone && !j2.pulling then funnelMember s j2 else none
  -- a job that ends here is not placed; dispatched in the sprint class, its CE interrupts at once (R90)
  let j3 := if j2.result.isSome then { j2 with grove := 16, engine := 272, sprint := sprintClass } else
    { j2 with grove := g, engine := placeEngine s g, member := if away.isSome then away else j2.member }
  -- a sprint token spent on a job found to have no sprint budget is returned (R87)
  let s := if sprintClass && !j3.sprint && j3.result.isNone then
      s.updInst j3.inst fun i => { i with tokens := min (4 * i.sprintRate) (i.tokens + 1) } else s
  let s := { s with work.jobs := s.work.jobs ++ [j3], work.nextJob := s.work.nextJob + 1,
                    store.keyPool := s.store.keyPool - j3.resKeys, store.ctxPool := s.store.ctxPool - j3.resCtx }
  let s := fetchKeys (askContext (bindPending s j3) j3) j3
  if j3.sprint && j3.result.isNone && j3.waitsOn.isNone && j3.confirmed && j3.member.isNone && !j3.pulling && s.tick.insertEn && !s.hwd.throttle
      && decide (s.power.level < 4) then
    match insertionEngine s j3 cy with
    | some e =>
      planSlice (s.updJob j3.id fun x => { x with engine := e, start := some t, sliceTick := some t }) j3 e cy true
    | none => s
  else s

/-- Grant the head chain of an SQ: the credit is reserved, H advances, READ_AHEAD slots are marked, and the
job enters the device with its fragments, or with none where a table could not be read. -/
def grant (s : State) (q : Sq) (ses : List Bytes) (pre : Bool) (sides : Option (Option (List Frag) × Option (List Frag)))
    (sprintClass : Bool) (cy : Nat) : State :=
  let n := ringN q.log2n
  let ps := (List.range ses.length).map fun k => (q.head + k) % (2 * n)
  let j := { jobOfChain q.inst q.num q.cq ses with inTable := sides.bind (·.1), outTable := sides.bind (·.2) }
  let s := if sprintClass then
      { (s.updInst q.inst fun i => { i with tokens := i.tokens - 1, lastSq := q.num }) with
        work.lastSprint := q.inst } |> (perfInc · 4 1)
    else s.updInst q.inst fun i => { i with used := i.used + 1 }
  let s := s.updSq q.inst q.num fun x => { x with
    head := (q.head + ses.length) % (2 * n), copies := x.copies.filter fun c => !ps.contains c.pos,
    waited := 0, starved := false, used := if sprintClass then x.used else x.used + 1 }
  let s := s.updCq q.inst q.cq fun c => { c with reserved := c.reserved + 1 }
  let s := { s with work.grants := s.work.grants + 1 }
  let s := if pre then specInc s 5 1 else s
  let s := admitJob s j sprintClass sides.isNone cy
  if q.readAhead then markSlots s q.inst q.num q.base n ps else s

/-- Will the head job be unconfirmed when it is dispatched (R272, R275)?  The reads made for it are speculative (R271). -/
def unconfirmedHead (s : State) (j : Job) : Bool :=
  j.depTag != 0xFFFF && (match findTag s j.inst j.depTag with
    | .posted _ => false
    | _ => true)

/-- Outcome of the fragment checks of a head job. -/
inductive FragOutcome where
  /-- Malformed: REASON. -/
  | stop (reason : Nat)
  /-- A table could not be read (DATA_SHORT, DETAIL 0x03). -/
  | short
  /-- The two sides; `none` for a table whose speculative read was dropped. -/
  | sides (ins outs : Option (List Frag))
  deriving DecidableEq, Repr

/-- One side of the head job (R77 step 3); a speculative read that fails is dropped, and made again later (R271). -/
def sideCheck (s : State) (inst addr len frags : Nat) (spec : Bool) : State × FragCheck × Option (List Frag) :=
  match readSide s inst addr len frags spec with
  | (s, .ok fs) => (s, .ok fs, some fs)
  | (s, .unread) => if spec then (specInc s 6 1, .ok [], none) else (s, .unread, none)
  | (s, .bad r) => (s, .bad r, none)

/-- Both fragment tables of the head job (R77 step 3).  DESIGN CHOICE (log entry 54): the spec gives no order between the two
tables; the input's is checked first. -/
def fragCheck (s : State) (j : Job) : State × FragOutcome :=
  let spec := unconfirmedHead s j
  match sideCheck s j.inst j.inAddr j.inLen j.inFrags spec with
  | (s, .bad r, _) => (s, .stop r)
  | (s, .unread, _) => (s, .short)
  | (s, .ok _, ins) => match sideCheck s j.inst j.outAddr j.outLen j.outFrags spec with
    | (s, .bad r, _) => (s, .stop r)
    | (s, .unread, _) => (s, .short)
    | (s, .ok _, outs) => (s, .sides ins outs)

/-- JOB_DISPATCH: the head of an SQ is granted when it is eligible and its turn has come; a malformed head
stops the queue (R78, R86 to R88). -/
def dispatch (s : State) (inst q cy : Nat) : State :=
  match s.sq? inst q with
  | none => s
  | some x =>
    if !mayFetch s x then s else
    match readHead s x with
    | (s, .empty) => s
    | (s, .partly) => s
    | (s, .bad r i) => queueError s inst q r i
    | (s, .chain ses pre) =>
      let take (s : State) (sprint : Bool) : State :=
        match fragCheck s (jobOfChain inst q x.cq ses) with
        | (s, .stop r) => queueError s inst q r (x.head % ringN x.log2n)
        | (s, .short) => grant s x ses pre none sprint cy
        | (s, .sides ins outs) => grant s x ses pre (some (ins, outs)) sprint cy
      match eligible s x with
      | none => s
      | some true => if sprintPick s = some (inst, q) then take s true else s
      | some false =>
        if (eligibleSqs s true).isEmpty then
          let s := newRounds s inst
          if normalTurn s inst q then take s false else s
        else s

/-- JOB_DISPATCH (R86). -/
def execJobDispatch (inst q cy : Nat) (s : State) : Host.Outcome State Fault Refusal :=
  .next (dispatch s inst q cy)

end Sys2Proof.Machine
end

