-- ==== Sys2Proof/Machine/MxuCore.lean ====
section
/-! DEFINITION. Beneath the job rows: the order of R36, and the modular exponent units (R183 to R197): which commands a job
needs, their contexts and operand RAMs, the validation stage and the datapath. -/

namespace Sys2Proof.Machine

/-! ### Class and order of work (R36) -/

/-- The smallest multiple of `q` after `start` that is at or after `c`, counted from 1. -/
def quanta (start q c : Nat) : Nat := max 1 (ceilDiv (c - start) q)

/-- Class of R36 of a slice that re-executes abandoned work, or does not. -/
def classOf (j : Job) (rerun : Bool) : Nat :=
  if !j.confirmed then 4 else if rerun then 1 else if j.sprint then 2 else 3

/-- Class of the job's own slice. -/
def sliceClass (j : Job) : Nat := classOf j j.rerun

/-- The release boundary a job would have if it committed in the tick that begins at `n` (R36). -/
def expectedRelease (j : Job) (n : Nat) : Nat :=
  let st := j.start.getD n
  if j.budget = 0 then n + 1 else st + j.budget * quanta st j.budget (n + 1)

/-! ### Commands (Table 7.1) -/

/-- Which jobs issue a command. -/
def mxuUsedBy (code : Nat) (j : Job) : Bool :=
  let classical := decide (0x10 ≤ j.alg) && decide (j.alg ≤ 0x14)
  let ec := j.alg == 0x11 || j.alg == 0x12
  match code with
  | 1 => (j.opcode == 0x40 && classical)
      || (j.pkInline && ((j.opcode == 0x0A && ec) || j.opcode == 0x16 || j.opcode == 0x18))
  | 2 => j.opcode == 0x15 || j.opcode == 0x17
  | 3 => j.opcode == 0x16 || j.opcode == 0x18
  | 4 => j.opcode == 0x14
  | 5 => (j.opcode == 0x08 && ec) || j.opcode == 0x10 || j.opcode == 0x50
  | 6 => j.opcode == 0x09 && ec
  | 7 => j.opcode == 0x0A && ec
  | 8 => j.opcode == 0x11 || j.opcode == 0x50
  | _ => false

/-- Does a command validate peer input? -/
def mxuValidates (code : Nat) (j : Job) : Bool :=
  match code with
  | 1 => true
  | 2 => j.opcode == 0x17
  | 3 => j.opcode == 0x16 || j.pkInline
  | 7 => true
  | 8 => true
  | _ => false

/-- Does an encapsulation key pass its check: the modulus check of R131, the padding check of R179? -/
def ekBad (alg pset : Nat) (ek : Bytes) : Option (Nat × Nat) :=
  if alg = 0x06 ∨ stdHolds .validate (ap alg pset) [ek] then none
  else some (0x0303, if alg = 0x07 then 0x05 else 0x01)

/-- Does the client's encapsulation key in a SERVER_RESPOND fail its check (R131, R147)? -/
def serverEkBad (j : Job) (inp : Bytes) : Option (Nat × Nat) :=
  ekBad 0x01 (hybridKem j.pset) (inp.take (pkLen 0x01 (hybridKem j.pset)))

/-- The commands a job with input `inp` needs the results of before its final commit (Table 7.1): none when what the engine
checks before it issues one has failed (R147, R245).  DESIGN CHOICE (log entry 54): the key of a PK_INLINE job is validated by
its RSA_PUB or EC_VERIFY; a VALIDATE of its own may come before. -/
def mxuNeeds (s : State) (j : Job) (inp : Bytes) : List Nat :=
  let ec := j.alg == 0x11 || j.alg == 0x12
  match j.opcode with
  | 0x08 => if ec then [5] else []
  | 0x09 => if ec then [6] else []
  | 0x0A => if ec then [7] else []
  | 0x10 => [5]
  | 0x11 => [8]
  | 0x14 => [4]
  | 0x15 => [2]
  | 0x16 => [3]
  | 0x17 => [2]
  | 0x18 => [3]
  | 0x40 => match importText s j inp with
    | .ok m => if mxuUsedBy 1 j && (formPublic j.form j.alg j.pset m).isSome then [1] else []
    | .error _ => []
  | 0x50 => if j.opt % 4 = 1 ∧ (serverEkBad j inp).isSome then [] else [[5], [5, 8], [8]].getD (j.opt % 4) []
  | _ => []

/-! ### Contexts (R185, R195) -/

def State.mxuCmd? (s : State) (j : Nat) : Option MxuCmd := s.exec.mxu.find? (·.job == j)

/-- Replace the list of MXU commands. -/
def State.setMxus (s : State) (l : List MxuCmd) : State := { s with exec.mxu := l }

def State.updMxu (s : State) (j : Nat) (f : MxuCmd → MxuCmd) : State :=
  { s with exec.mxu := updWhere (·.job == j) f s.exec.mxu }

/-- The secret a command loads through the key port (Table 7.1, R190): the private key, or the ephemeral scalar of a HYBRID_KEX
context; what a command generates itself is none. -/
def mxuSecret (s : State) (j : Job) (code : Nat) : Option Bytes :=
  if code = 2 ∨ code = 6 ∨ (code = 8 ∧ j.opcode = 0x11) then j.keyIdx.bind fun i => (keyAt s i).bind (·.priv)
  else if code = 8 ∧ j.opcode = 0x50 then match (ctxAt s j.ctxH).map fun (c : Ctx) => c.slots.getD 0 Slot.empty with
    | some (.ephemeral _ _ dh) => some dh
    | _ => none
  else none

/-- The command of a job is ready for the datapath: the key port has delivered its secret (R190, R196). -/
def MxuCmd.load (s : State) (c : MxuCmd) : MxuCmd :=
  { c with phase := .ready, stageAt := none, secret := (s.job? c.job).bind fun j => mxuSecret s j c.code }

/-- A free context of an MXU: the 128 mcy of a zeroisation fall within a tick. -/
def freeMxuCtx (s : State) (m : Nat) : Option Nat :=
  lowestFree 8 fun k => (s.exec.mxu.any fun c => c.mxu == m && c.ctx == some k)
    || (s.exec.mxuZero.any fun z => z.mxu == m && z.ctx == k && decide (now s ≤ z.since))

/-- The validation stage of an MXU takes the next command in order of issue (R191).  An input takes it 2,048 mcy, just over a
tick: one that it began in an earlier tick finishes in this one, and the next follows at once. -/
def startStage (s : State) (m : Nat) : State :=
  if s.exec.mxu.any fun c => c.mxu == m && c.phase == .validating && c.stageAt == some (now s) then s
  else match ((s.exec.mxu.filter fun c => c.mxu == m && c.phase == .validating && c.stageAt.isNone).map (·.order)).min? with
    | none => s
    | some o => s.setMxus (updWhere (fun c => c.mxu == m && c.order == o)
        (fun c => { c with stageAt := some (now s) }) s.exec.mxu)

/-- Commands that wait for a context take one, in order of issue: its operand RAM holds the operands, and of a command that
validates nothing, or resumes, the secret too (R190, R196). -/
def fillContexts (s : State) (m : Nat) : State :=
  (s.exec.mxu.filter fun c => c.mxu == m && c.phase == .queued).foldl (fun s c =>
    match freeMxuCtx s m with
    | none => s
    | some k =>
      let v := match s.job? c.job with
        | some j => mxuValidates c.code j && !c.resumed
        | none => false
      let ram := ((s.job? c.job).bind (·.input)).getD []
      s.updMxu c.job fun c => if v then { c with ctx := some k, ram := ram, phase := .validating }
        else { c with ctx := some k, ram := ram }.load s) s

/-! ### The datapath (R184, R187, R188) -/

/-- Class of R187. -/
def mxuClass (s : State) (c : MxuCmd) : Nat :=
  match s.job? c.job with
  | none => 5
  | some j => if !j.confirmed then 4 else if c.resumed then 1 else if j.sprint then 2 else 3

/-- Order among waiting commands: class, release boundary, placement. -/
def mxuRank (s : State) (c : MxuCmd) : List Nat :=
  match s.job? c.job with
  | none => [5, 0, c.job]
  | some j => [mxuClass s c, expectedRelease j (now s), c.job]

/-- The first of a list of commands. -/
def mxuFirst (s : State) : List MxuCmd → Option MxuCmd
  | [] => none
  | c :: cs => match mxuFirst s cs with
    | some d => if mxuRank s d < mxuRank s c then some d else some c
    | none => some c

/-- May a command take the datapath from the one that runs: of a higher class, or of an earlier release in its class? -/
def outranks (s : State) (w c : MxuCmd) : Bool := decide ((mxuRank s w).take 2 < (mxuRank s c).take 2)

/-- The datapath of an MXU chooses the next context to run, of class 4 only while the device is not throttled (Table 19.6); the
running command keeps it unless another may take it. -/
def mxuChoose (s : State) (m : Nat) : State :=
  let may (c : MxuCmd) : Bool := c.mxu == m && (s.power.level == 0 || mxuClass s c != 4)
  let runs := s.exec.mxu.find? fun c => may c && c.phase == .running
  match mxuFirst s (s.exec.mxu.filter fun c => may c && c.phase == .ready) with
  | none => s
  | some w =>
    if runs.any fun c => !outranks s w c then s
    else
      let s := s.setMxus (updWhere (fun c => c.mxu == m && c.phase == .running)
          (fun c => { c with phase := .ready }) s.exec.mxu)
      s.updMxu w.job fun c => { c with phase := .running }

/-- The datapath starts on a waiting command when it is idle. -/
def mxuStart (s : State) (m : Nat) : State :=
  if s.exec.mxu.any fun c => c.mxu == m && c.phase == .running then s else mxuChoose s m

/-! ### Results (R32, R185) -/

/-- Has a job with input `inp` the results of all the commands it needs: collected, or waiting for the present commit
point (R184, R185)? -/
def mxuReady (s : State) (j : Job) (inp : Bytes) : Bool :=
  let now := match s.mxuCmd? j.id with
    | some c => if c.phase == MxuPhase.ended then [c.code] else []
    | none => []
  (mxuNeeds s j inp).all fun k => j.mxuGot.contains k || now.contains k

/-- A commit point of a job, or the beginning of a slice, makes the result of its ended command visible (R32). -/
def showMxu (s : State) (j : Nat) : State := s.updMxu j fun c => { c with seen := c.seen || c.phase == MxuPhase.ended }

/-- A job that reaches its final commit has collected its result or needs none: its context is free, and those that wait for
one go on (R185). -/
def leaveMxu (s : State) (j : Nat) : State :=
  match s.mxuCmd? j with
  | none => s
  | some c =>
    let s := dropMxu s (·.job == j)
    mxuStart (startStage (fillContexts s c.mxu) c.mxu) c.mxu

end Sys2Proof.Machine
end

