-- ==== Sys2Proof/Machine/Std.lean ====
section
/-! DEFINITION. The label of TLS 1.3 key schedules. -/

namespace Sys2Proof.Machine

/-- "tls13 ", the label prefix of RFC 8446. -/
def tls13 : Bytes := [0x74, 0x6C, 0x73, 0x31, 0x33, 0x20]

/-- HKDF-Expand-Label of RFC 8446: HKDF-Expand over L, the length-prefixed label and context (R253). -/
def expandLabel (code : Nat) (secret labelPrefix label context : Bytes) (n : Nat) : Bytes :=
  let l := labelPrefix ++ label
  hkdfExpand code secret (beBytes 2 n ++ beBytes 1 l.length ++ l ++ beBytes 1 context.length ++ context) n

end Sys2Proof.Machine
end

