-- ==== Sys2Proof/Machine/JobRun.lean ====
section
/-! DEFINITION. What every job row shares: reading the input, the final commit (R23, R74, R276, R279), decisions
taken twice (R373 to R375), vault integrity (R262) and the DRBG's error state (R371). -/

namespace Sys2Proof.Machine

/-! ### Results -/

/-- OK, with output and changes. -/
def okR (out : Bytes) (es : List Effect) : JobResult :=
  { status := 0, detail := 0, len := out.length, out := out, effects := es }

/-- Any other status: nothing is written and nothing changes (R14). -/
def errR (status detail : Nat) : JobResult :=
  { status := status, detail := detail, len := 0, out := [], effects := [] }

/-! ### The final commit -/

/-- The body of HEALTH/KEY_ADD: SUB and the object's handle, owner, ALG, PSET and POLICY, then its halves; the
layout beyond SUB is not published (log entry 22). -/
def keyBody (subKind : Nat) (k : KeyObj) : Bytes :=
  leBytes 1 subKind ++ leBytes 4 k.handle ++ leBytes 2 k.owner ++ leBytes 1 k.alg ++ leBytes 1 k.pset ++ leBytes 8 k.policy
    ++ leBytes 4 (k.pub.getD []).length ++ k.pub.getD [] ++ leBytes 4 (k.priv.getD []).length ++ k.priv.getD []
    ++ k.rejection

/-- A FUNNEL manager sends every replicable object it creates to every member, after the final commit (R461). -/
def announceKeys (s : State) (es : List Effect) : State :=
  if !s.funnels then s else es.foldl (fun s e => match e with
    | .createKey k => if k.replicated then s.peersJoined.foldl (fun s d => sendMsg s d 6 (keyBody 6 k)) s else s
    | _ => s) s

/-- The fragments of a job's output: those its table gave at dispatch; a table whose speculative read was dropped is read now
(R271).  `none`: it cannot be read, or DESIGN CHOICE (log entry 54) is malformed. -/
def outputFrags (s : State) (x : Job) : State × Option (List Frag) :=
  match x.outTable with
  | some fs => (s, some fs)
  | none => match readSide s x.inst x.outAddr x.outLen x.outFrags false with
    | (s, .ok fs) => (s, some fs)
    | (s, _) => (s, none)

/-- Make a committed result visible: the output range is translated whole, then written, then every change is
applied together; a range that does not translate writes nothing (R74, R280).  DATA_SHORT: 0x03 for the table, 0x04 for the
range (Table 3.12). -/
def commitNow (s : State) (j : Nat) : State :=
  match s.job? j with
  | none => s
  | some x =>
    match x.result with
    | none => s
    | some r =>
      let fin (s : State) : State := applyEffects (s.updJob j fun y => if r.status = 0 then
        { y with committed := true, resKeys := 0, resBytes := 0, resShelf := 0, resCtx := 0 }
        else { y with committed := true }) r.effects
      let short (s : State) (d : Nat) : State := s.updJob j fun y =>
        { y with committed := true, result := some (errR 0x0103 d) }
      if r.out.isEmpty || x.origin.isSome then announceKeys (fin s) r.effects
      else match outputFrags s x with
        | (s, some fs) => match transFrags s x.inst fs with
          | (s, some ts) => announceKeys (fin (writeFrags s x.inst ts r.out)) r.effects
          | (s, none) => short s 0x04
        | (s, none) => short s 0x03

/-- The stream a commit opens, when it does: index and generation. -/
def openedStream (es : List Effect) : Option (Nat × Nat) :=
  es.findSome? fun e => match e with
    | .openStream x => some (x.index, x.gen)
    | _ => none

/-- A job with its result, from tick `t` on: nothing of it runs on, and a DIGEST_START holds the stream it opens (R220). -/
def Job.reach (x : Job) (r : JobResult) (t : Nat) : Job :=
  let x := { x with result := some r, commitTick := some t, trying := none, parts := [] }
  match openedStream r.effects with
  | some g => { x with streamUse := some g.1, streamGen := g.2, holds := [Hold.stream g.1] }
  | none => x

/-- A job reaches its final commit in the present tick: visible at once for a confirmed job, held in its envelope
for another (R276, R279).  It has collected what its MXU command gave (R185). -/
def finalCommit (s : State) (j : Nat) (r : JobResult) : State :=
  let s := (leaveMxu s j).updJob j fun x => x.reach r (now s)
  match s.job? j with
  | some x => if x.confirmed then commitNow s j else s
  | none => s

/-! ### Faults that end a job -/

/-- Does the job name a quarantined object? -/
def usesQuarantined (s : State) (j : Job) : Bool :=
  let badKey (i : Option Nat) : Bool := match i with
    | some i => ((keyAt s i).map (·.quarantined)).getD false
    | none => false
  let badCtx : Bool := match j.ctxUse with
    | some h => ((ctxAt s h).map (·.quarantined)).getD false
    | none => false
  let badStream : Bool := match j.streamUse with
    | some i => s.store.streams.any fun x => x.index == i && x.gen == j.streamGen && x.quarantined
    | none => false
  badKey j.keyIdx || badKey j.kekIdx || badCtx || badStream

/-- A glitch alarm (R375): source, record with the decision kind and the evaluating unit, tamper event. -/
def glitchAlarm (s : State) (inst kind unit : Nat) : State :=
  let s := emit (raiseSrc s 0x1D 0 kind) 0x0204 inst kind unit
  { s with hwd.glitch := true }

/-- Is the DRBG of a job's grove in its error state (R371)? -/
def drbgDown (s : State) (j : Job) : Bool :=
  let g := s.groves.getD j.grove default
  g.drbgError || !g.drbgUp

/-- Hash codes that run on Keccak. -/
def isKeccak (code : Nat) : Bool := decide (7 ≤ code)

/-- Does the job run SECRET microwords (R362, R372)?  SHA-2 under a key runs unmasked (R158, R214). -/
def runsMasked (j : Job) : Bool :=
  match j.opcode with
  | 0x08 => if isStateful j.alg then decide (3 ≤ j.pset) else if j.alg = 0x03 then j.pset % 2 == 0 else true
  | 0x09 => if isStateful j.alg then decide (3 ≤ j.pset) else if j.alg = 0x03 then j.pset % 2 == 0 else true
  | 0x28 => j.alg == 0x29 || isKeccak j.pset
  | 0x29 => j.alg == 0x2B || isKeccak j.pset
  | 0x49 => j.alg == 0x2B || isKeccak j.pset
  | 0x40 => j.wrapped
  | 0x60 => false
  | op => !isPublicOp op

/-! ### The shape of a job row -/

/-- How a job's work divides beyond its own slice. -/
inductive Fan where
  | none
  /-- Attempts at a signature or a key, the lowest accepted one standing (R140, R175). -/
  | attempts
  /-- Strands (R152). -/
  | strands
  deriving DecidableEq, Repr

/-- Which jobs divide (R140, R152, R175); a stateful signature does while it rebuilds a tree (R170). -/
def fanOf (s : State) (j : Job) : Fan :=
  match j.opcode with
  | 0x01 => if j.alg = 0x06 then .attempts else .none
  | 0x08 => if j.alg = 0x03 ∨ isStateful j.alg then .strands else .none
  | 0x09 =>
    if j.alg = 0x02 then .attempts
    else if j.alg = 0x03 then .strands
    else match j.keyIdx.bind fun i => (keyAt s i).bind (·.stateful) with
      | some f => if 10 + (f.heights.map fun h => (h / 2 + 2) * leafCost j.pset).sum < j.budget then .strands else .none
      | none => .none
  | 0x40 => if j.alg = 0x03 ∧ j.form ≠ 0 then .strands else .none
  | _ => .none

/-- Does a job run here, with nothing to wait for and no result yet? -/
def live (s : State) (j : Job) : Bool :=
  s.service && j.start.isSome && j.result.isNone && j.waitsOn.isNone && j.dep != .pending && j.member.isNone
    && !j.pulling && j.awaiting.isEmpty

/-- Does a strand whose slice was abandoned still have to run again (R153)? -/
def strandBehind (s : State) (j : Job) : Bool := fanOf s j == .strands && j.parts.any (·.rerun)

/-- May the job's own work be carried on now: a slice of the present tick stands, not abandoned (R23, R33 to R35)? -/
def runnable (s : State) (j : Job) : Bool :=
  live s j && j.sliceTick == some (now s) && !strandBehind s j

/-- Does a job's slice run on its engine now? -/
def inSlice (s : State) (j : Job) : Bool := runnable s j

/-- The next segment of a job in its present slice: a sprint job's, where it still ends in the run window (R37); it is
planned. -/
def nextSegment (s : State) (j : Job) : Option State :=
  let bound := (jobUnits s j).2.2
  if j.sprint && decide ((s.engines.getD j.engine default).planned + bound ≤ 900) then
    some { s with engines := s.engines.modify j.engine fun e => { e with planned := e.planned + bound } }
  else none

/-- The input of a job (R73), which from then on lies in grove memory (R17); `none` when a read failed.  The input table is
the one read at dispatch; one whose speculative read was dropped is read again (R271). -/
def jobInput (s : State) (j : Job) : State × Option Bytes :=
  match j.input with
  | some b => (s, some b)
  | none =>
    let spec := !j.confirmed
    match (match j.inTable with
      | some fs => (s, FragCheck.ok fs)
      | none => readSide s j.inst j.inAddr j.inLen j.inFrags spec) with
    | (s, .ok fs) => match gatherInput s j.inst spec fs with
      | (s, some b) => (s.updJob j.id fun x => { x with input := some b, inTable := some fs }, some b)
      | (s, none) => (s, none)
    | (s, _) => (s, none)

/-- DETAIL of DATA_SHORT when the input could not be read: the table's, or the input's (Table 3.12).  DESIGN CHOICE (log entry
54): a table read late that is malformed counts as one that could not be read. -/
def inputDetail (s : State) (j : Job) : Nat :=
  match j.inTable with
  | some _ => 0x01
  | none => match (readSide s j.inst j.inAddr j.inLen j.inFrags false).2 with
    | .ok _ => 0x01
    | _ => 0x03

/-- The input could not be read, `t` being the state after: DATA_SHORT for a confirmed job; for another the read is dropped,
counted, and made again (R107, R271). -/
def noInput (s t : State) (j : Job) : State :=
  if j.confirmed then finalCommit t j.id (errR 0x0103 (inputDetail s j)) else specInc t 6 1

/-- Does a job use no material of what its handles name, so that no line of it is read (R248, R256)? -/
def destroys (j : Job) : Bool := j.opcode == 0x42 || j.opcode == 0x4B

/-- Does a job keep working state in the vault's scratch region: Classic McEliece key generation, and strands (Table 9.13)? -/
def usesScratch (s : State) (j : Job) : Bool := fanOf s j == .strands || (j.opcode == 0x01 && j.alg == 0x06)

/-- The object of a job that a mismatch in both copies of a line falls on. -/
def struckTag (s : State) (j : Job) : VaultHit → Option VaultTag
  | .key => (j.keyIdx.bind (keyAt s)).map (·.tag)
  | .kek => (j.kekIdx.bind (keyAt s)).map (·.tag)
  | .ctx => j.ctxUse.map .ctx
  | .stream => j.streamUse.map fun i => .stream i j.streamGen
  | _ => none

/-- A mismatch that a job's row meets in the vault (Table 9.14), and whether the job ends with it: an object is quarantined, a
scratch line costs the job alone, one copy is mended from the other, a line of the tree means safe state.  KEY_DESTROY and
CTX_DESTROY read no line of an object. -/
def strikeVault (s : State) (j : Job) (u : Upset) : State × Bool :=
  match u with
  | .vault .scratch => if usesScratch s j then (raiseSrc s 0x13 0 0, true) else (s, false)
  | .vault .one => (raiseSrc s 0x12 0 0, false)
  | .vault .tree => (raiseSrc s 0x15 0 0, true)
  | .vault h => match struckTag s j h with
    | some t => if destroys j then (s, false) else (quarantine s t, true)
    | none => (s, false)
  | _ => (s, false)

/-- Carry a job's work on in its slice, to its final commit when `f` gives a result.  `sel` says which jobs the row is for,
`draws` whether the job draws from the grove DRBG, `f` computes the result from the input.  A job that needs results of the MXU
waits for them (R184).  DESIGN CHOICE (log entry 54): a DRBG in its error state is met before the checks on the input's
values (R131, R371). -/
def runPart (s : State) (j : Nat) (u : Upset) (sel draws : Job → Bool)
    (f : State → Job → Bytes → State × Option JobResult) : State :=
  match s.job? j with
  | none => s
  | some x =>
    if !runnable s x || !sel x then s
    else match strikeVault s x u with
    | (s, true) => finalCommit s j (errR 0x0600 0x50)
    | (s, false) =>
      if usesQuarantined s x && !destroys x then finalCommit s j (errR 0x0600 0x50)
      else match jobInput s x with
        | (t, none) => noInput s t x
        | (s, some inp) =>
          if drbgDown s x && draws x then finalCommit s j (errR 0x0600 0x40)
          else if drbgDown s x && runsMasked x then finalCommit s j (errR 0x0600 0x70)
          else if !mxuReady s x inp then s
          else match f s x inp with
            | (s, some r) => finalCommit s j r
            | (s, none) => s

/-- Run a job to its final commit. -/
def runJob (s : State) (j : Nat) (u : Upset) (sel draws : Job → Bool)
    (f : State → Job → Bytes → State × JobResult) : State :=
  runPart s j u sel draws fun s x inp => ((f s x inp).1, some (f s x inp).2)

/-- The result of a decision taken twice (R373): on disagreement the glitch alarm ends the job. -/
def decided (s : State) (j : Job) (u : Upset) (r : JobResult) : State × JobResult :=
  if u == .glitch then (glitchAlarm s j.inst j.opcode (unitId 0 j.engine), errR 0x0600 0x71) else (s, r)

/-! ### Attempts (R140 to R142, R175) -/

/-- Attempts after which a job gives up (R142, R175), and its DETAIL. -/
def tryLimit (j : Job) : Nat := if j.opcode = 0x09 then 814 else 256
def tryDetail (j : Job) : Nat := if j.opcode = 0x09 then 0x20 else 0x21

/-- Preparation is done: attempts begin, in a sprint job whose slice has room at once. -/
def prepare (s : State) (j : Job) (rnd : Bytes) : State :=
  let s := s.updJob j.id fun x => { x with prepared := true, rnd := rnd }
  match nextSegment s j with
  | some s => s.updJob j.id fun x => { x with trying := some 0 }
  | none => s

/-- The attempts that work in tick `t`: the one of the job's own slice, and those of further ones. -/
def Job.triesIn (j : Job) (t : Nat) : List Nat :=
  (if j.sliceTick = some t then j.trying.toList else [])
    ++ (j.parts.filter fun p => p.sliceTick == some t && p.ended.isNone).map (·.no)

/-- The job and the lowest attempt at work in the present tick, of those that have not ended. -/
def tryDue (s : State) (j : Nat) : Option (Job × Nat) :=
  match s.job? j with
  | some x =>
    if live s x && fanOf s x == .attempts && x.prepared && x.chosen.isNone then (x.triesIn (now s)).min?.map fun k => (x, k)
    else none
  | none => none

/-- Attempts ended rejected from `lowest` on are left behind; `n` bounds them. -/
def Job.settleTries : Nat → Job → Job
  | 0, j => j
  | n + 1, j =>
    if j.parts.any fun p => p.no == j.lowest && p.ended == some false then
      Job.settleTries n { j with lowest := j.lowest + 1, parts := j.parts.filter (·.no != j.lowest) }
    else j

/-- An attempt ends at its commit point, accepted or rejected (R140). -/
def Job.endTry (j : Job) (k : Nat) (ok : Bool) : Job :=
  let old := j.parts.find? (·.no == k)
  let p : Part := { no := k, engine := (old.map (·.engine)).getD j.engine, sliceTick := j.sliceTick, rerun := false,
                    ended := some ok }
  let j := { j with trying := if j.trying = some k then none else j.trying, parts := p :: j.parts.filter (·.no != k) }
  Job.settleTries j.parts.length j

/-- The end of an attempt: with as many rejected in a row as the limit the job stops (R142, R175); after a rejected one of its
own a sprint job's slice goes on to the next where it has room (R37). -/
def endTry (s : State) (x : Job) (k : Nat) (ok : Bool) : State :=
  let s := s.updJob x.id fun y => y.endTry k ok
  match s.job? x.id with
  | none => s
  | some y =>
    if tryLimit y ≤ y.lowest then finalCommit s y.id (errR 0x0600 (tryDetail y))
    else if x.trying = some k ∧ !ok ∧ !(y.parts.any (·.no == y.lowest)) then match nextSegment s y with
      | some s => s.updJob y.id fun z => { z with trying := some z.lowest }
      | none => s
    else s

/-- The row of an opcode whose jobs run in attempts: the lowest attempt at work ends with the outcome `accept` gives it; where
none is at work, `rest`. -/
def tryRow (s : State) (j op : Nat) (accept : State → Job → Nat → Bool) (rest : State) : State :=
  match tryDue s j with
  | some (x, k) =>
    if x.opcode != op then rest
    else if drbgDown s x && runsMasked x then finalCommit s j (errR 0x0600 0x70) else endTry s x k (accept s x k)
  | none => rest

/-! ### Where secrets go (R125, R126) -/

/-- The context an OUT_TO_CTX job fills: a new one, or the named one emptied, with `v` in slot 0. -/
def fillCtx (s : State) (j : Job) (isNew : Bool) (v : Slot) : Option Ctx :=
  let base := if isNew then newCtx s j.inst else ctxAt s j.ctxH
  base.map fun c => { c with slots := emptySlots.set 0 v }

/-- Output and changes of a job that yields a shared secret after `pre0` other output bytes. -/
def secretOut (s : State) (j : Job) (useCtx isNew : Bool) (pre0 ss : Bytes) : JobResult :=
  if useCtx then match fillCtx s j isNew (.secret ss) with
    | some c => okR (pre0 ++ leBytes 4 c.handle) [.putCtx c]
    | none => errR 0x0202 0x52
  else okR (pre0 ++ ss) []

/-! ### New key objects (R240 to R243) -/

/-- A key object a job creates, with an index not yet taken. -/
def newKey (s : State) (inst alg pset policy : Nat) (pub priv : Option Bytes) : KeyObj :=
  let i := newKeyIndex s
  { index := i, gen := genOf s.store.keyGens i, owner := inst, alg := alg, pset := pset, pub := pub, priv := priv,
    policy := heldPolicy s alg policy, rejection := [], shelved := false, dormant := false, quarantined := false,
    doomed := false, stateful := none }

/-- The key a job names. -/
def jobKey (s : State) (j : Job) : KeyObj := (j.keyIdx.bind (keyAt s)).getD default

/-- Its halves. -/
def KeyObj.sk (k : KeyObj) : Bytes := k.priv.getD []
def KeyObj.pk (k : KeyObj) : Bytes := k.pub.getD []

/-- PCT_FAIL (R129): the record, and DEVICE_FAULT 0x22. -/
def pctFail (s : State) (j : Job) : State × JobResult := (emit s 0x0201 j.inst j.alg j.pset, errR 0x0600 0x22)

end Sys2Proof.Machine
end

