-- ==== Sys2Proof/Machine/Release.lean ====
section
/-! DEFINITION. Release of jobs (R45 to R50), posting of their CEs in reservation order (R80 to R85), what a posted CE
does to the jobs that depend on it (R280, R284) or wait for what it held (R221), and pending time-out (R273). -/

namespace Sys2Proof.Machine

/-! ### Release boundary (R45 to R48, R50) -/

/-- Release boundary and EXT_QUANTA of a budget or quantum job whose final commit is followed by boundary `c`, `r` ticks of
its work having been lost to fail-over (R45 to R47). -/
def quantised (start q c r : Nat) : Nat × Nat :=
  let m := quanta start q (c - r)
  let t := start + q * m
  if c ≤ t then (t, m - 1)
  else if c ≤ t + 2 then (c, m - 1)
  else (start + q * quanta start q c, quanta start q c - 1)

/-- Release boundary, EXT_QUANTA and start boundary of a job that has its result. -/
def releaseInfo (j : Job) : Nat × Nat × Nat :=
  match j.endedAt with
  | some b => (b, 0, j.start.getD b)
  | none =>
    let c := (j.commitTick.getD 0) + 1
    match j.start with
    | none => (c, 0, c)
    | some st =>
      match relClass j.opcode j.alg with
      | .pub => (c, 0, st)
      | _ => if j.budget = 0 then (c, 0, st)
        else ((quantised st j.budget c j.lostTicks.length).1, (quantised st j.budget c j.lostTicks.length).2, st)

/-- Is a job's CE due at boundary `n`?  A job that depends on another is never due before that one's CE (R49). -/
def due (j : Job) (n : Nat) : Bool :=
  j.result.isSome && j.origin.isNone && (j.endedAt.isSome || j.confirmed) && decide ((releaseInfo j).1 ≤ n)

/-! ### The CE of a job (R80) -/

/-- The CE a job posts at boundary `n`, with PHASE 0 (Tables 3.13 and 3.14). -/
def jobCe (s : State) (j : Job) (n : Nat) : HeldCe :=
  let r := j.result.getD default
  let info := releaseInfo j
  let head := sqHeadNow s j.inst j.sq
  let ticks := if j.start.isSome then sat 0xFFFF (n - info.2.2) else 0
  { id := j.id, sq := j.sq, body := ceBytes j.tag r.status r.len j.sq head ticks r.detail
      (2 * sat 7 info.2.1 + 16 * b2n j.failover),
    sprint := j.sprint }

/-! ### After the CE -/

/-- A key doomed by KEY_DESTROY goes with the last job that uses it (R248). -/
def reapKeys (s : State) : State :=
  (s.store.keys.filter fun k => k.doomed && !keyInUse s k.index).foldl (fun s k => dropKey s k.index) s

/-- The envelope of a job that ends unconfirmed is zeroised within two boundaries (R281). -/
def zeroiseEnvelope (s : State) (j : Job) (n : Nat) : State :=
  match j.envelope with
  | none => s
  | some u =>
    let g := if j.member.isSome then 16 else j.grove
    { s with work.zeroising := s.work.zeroising ++ [{ grove := g, units := u, freeAt := n + 2 }] }

/-- CANCEL_SEND: the disposition of a job that was sent to another member; 0 CONFIRM, 1 WITHDRAW (R287, Table 17.8). -/
def cancelSend (s : State) (j : Job) (disposition : Nat) : State :=
  match j.member with
  | some d => if j.sent then
      sendMsg s d 7 (leBytes 2 1 ++ zeros 2 ++ leBytes 4 j.id ++ leBytes 1 disposition ++ zeros 3) else s
  | none => s

/-- A job ends unconfirmed with a status of its own at boundary `n` (R273, R284, R114, R116); SPEC_FAILED counts
DEPENDENCY_FAILED and SPEC_WITHDRAWN the others, of jobs that ran ahead (Table 10.7). -/
def endUnconfirmed (s : State) (j : Job) (status detail n : Nat) : State :=
  let s := cancelSend (zeroiseEnvelope s j n) j 1
  let s := if j.ranAhead && !j.confirmed then specInc s (if status = 0x0401 then 2 else 3) 1 else s
  s.updJob j.id fun x =>
    { x.endAt (fl status detail) n [] with
        endedAt := some n, dep := .confirmed, envelope := none, committed := true, endedUnconfirmed := !j.confirmed }

/-- A dependant is decided when its dependency's CE is posted (R280, R284, Table 10.4). -/
def decideDependant (s : State) (j : Job) (status : Nat) : State :=
  let n := now s
  if j.endedAt.isSome then s.updJob j.id fun x => { x with dep := .confirmed }
  else if status = 0 then
    let s := s.updJob j.id fun x => { x with dep := .confirmed, envelope := none }
    let s := cancelSend (if j.ranAhead then specInc s 1 1 else s) j 0
    if j.result.isSome && !j.committed && j.member.isNone then commitNow s j.id else s
  else
    let e := dependantEnd status
    (endUnconfirmed s j e.1 e.2 n).updJob j.id fun x => { x with failover := false }

/-- General performance counters at a CE (Table 18.8): of a job that ended unconfirmed they show nothing (R282, R495). -/
def countCe (s : State) (j : Job) : State :=
  if j.endedUnconfirmed then s else
  let st := (j.result.getD default).status
  let s := perfInc s 0 1
  let s := if st = 0 ∨ st = 0x0001 then s else perfInc s 1 1
  let s := perfInc s 2 (sat 7 (releaseInfo j).2.1)
  if j.failover then perfInc s 3 1 else s

/-- What the posting of a job's CE does: it is counted, the job leaves its slot and its holds, and its dependants are decided
(R220, R272, R280, R284). -/
def afterCe (s : State) (id : Nat) : State :=
  match s.work.unposted.find? (·.id == id) with
  | none => s
  | some j =>
    let status := (j.result.getD default).status
    let d : Done := { id := j.id, inst := j.inst, tag := j.tag, status := status, postedAt := now s,
                      stream := j.streamUse.map (·, j.streamGen) }
    let s := countCe { s with
      work.unposted := s.work.unposted.filter (·.id != id), work.done := s.work.done ++ [d] } j
    (s.work.jobs.filter fun x => x.dep == .on id).foldl (fun s x => decideDependant s x status) s

/-- Post a CE on a data-path CQ: held while a CE write has put the CQ in ERROR, or when this one does
(R85). -/
def postOne (s : State) (inst c : Nat) (ce : HeldCe) : State :=
  match s.cq? inst c with
  | none => afterCe s ce.id
  | some x =>
    if x.state == .error && x.reason == rCqWrite then holdCe s inst c ce
    else match writeCe s x ce with
      | (s, some x') => afterCe (s.updCq inst c fun _ => x') ce.id
      | (s, none) => holdCe (cqFail s inst c rCqWrite (x.tail % ringN x.log2n)) inst c ce

/-- Post the CEs kept back in a CQ that has left ERROR, those of jobs below `bound`, in order of reservation (R79); each
reports the head of its SQ as it is then (R80). -/
def releaseHeld (s : State) (inst c : Nat) (bound : Option Nat) : State :=
  match s.cq? inst c with
  | none => s
  | some x =>
    if x.state == .error && x.reason == rCqWrite then s else
    let go (h : HeldCe) : Bool := match bound with
      | some b => decide (h.id < b)
      | none => true
    (x.heldCes.filter go).foldl (fun s h => postOne s inst c { h with body := withHead h.body (sqHeadNow s inst h.sq) })
      (s.updCq inst c fun x => { x with heldCes := x.heldCes.filter fun h => !go h })

/-- Post a CE after those kept back whose jobs reserved earlier. -/
def postCe (s : State) (inst c : Nat) (ce : HeldCe) : State := postOne (releaseHeld s inst c (some ce.id)) inst c ce

/-- Release a job: its held result is committed first if that has not happened, its engine state goes, its credit becomes an
unreleased CE or, in a CQ in ERROR, a CE that is held (R85). -/
def postJob (s : State) (id : Nat) : State :=
  let s := match s.job? id with
    | some j => if !j.committed && j.confirmed then commitNow s id else s
    | none => s
  match s.job? id with
  | none => s
  | some j =>
    let s := s.updCq j.inst j.cq fun c => { c with reserved := c.reserved - 1 }
    let s := { s with work.jobs := s.work.jobs.filter (·.id != id), work.unposted := s.work.unposted ++ [j] }
    postCe (reapKeys (dropExec s id)) j.inst j.cq (jobCe s j (now s))

/-- The job whose CE is posted next at the boundary: the earliest reserved of those that are due. -/
def nextDue (s : State) : Option Nat := ((s.work.jobs.filter fun j => due j (now s)).map (·.id)).min?

/-- Post the CEs that are due, in order of reservation, until none is left; `k` bounds their number. -/
def postDue : Nat → State → State
  | 0, s => s
  | k + 1, s => match nextDue s with
    | none => s
    | some id => postDue k (postJob s id)

/-! ### Waiters take what a posted job held (R221) -/

/-- The checks that a waiter meets again when it resumes: a stream job's in full, of any other whether the context it names
still stands (R219, R221, R239; log entry 34). -/
def resumeChecks (s : State) (j : Job) (p : Plan) : List (Bool × Fail) :=
  if isStreamOp j.opcode then p.checks s j else if p.useCtx then [ctxLive s j.inst j.ctxH] else []

/-- A job that waits for a holder whose CE has been posted resumes: refused when another job holds what it needs, ended
when its contents checks fail, else it takes its holds. -/
def resumeOne (s : State) (id : Nat) : State :=
  match s.job? id with
  | none => s
  | some j => match j.waitsOn.bind fun d => s.work.done.find? (·.id == d) with
    | none => s
    | some d =>
      let t := now s
      match (if j.follows then followed s j (.posted d) else some (none, false)) with
      | none => s.updJob id fun x => x.endAt (fl 0x0203 0x40) t []
      | some (dep, _) =>
        let p := planOf s j dep false
        match firstFail (resumeChecks s j p) with
        | some e => s.updJob id fun x => x.endAt e t (notFinalBytes j e)
        | none =>
          if (blocker s id p.holds).isSome then s.updJob id fun x => x.endAt p.busy t []
          else match firstFail p.contents with
            | some e => s.updJob id fun x => x.endAt e t (notFinalBytes j e)
            | none => s.updJob id fun x => { x with
                holds := p.holds, wants := [], waitsOn := none, budget := (jobBudget p j.sprint).1, need := p.need,
                streamUse := p.stream, streamGen := streamGenAt s p.stream }

/-- The waiters on holders that have gone, in dispatch order. -/
def resumeWaiters (s : State) : State :=
  (s.work.jobs.filter fun j => j.waitsOn.isSome && j.result.isNone).foldl (fun s j => resumeOne s j.id) s

/-! ### Rows -/

/-- JOB_RELEASE (R45): a job whose release boundary has been reached posts its CE, its dependants follow, and the jobs
that wait for what it held resume. -/
def execJobRelease (j : Nat) (s : State) : Host.Outcome State Fault Refusal :=
  .next (match s.job? j with
    | none => s
    | some x => if s.service && due x (now s) then
        resumeWaiters (postDue s.work.jobs.length (postJob s j))
      else s)

/-- PENDING_TIMEOUT (R273): a job pending 4,096 t after its dispatch ends DEPENDENCY_FAILED, DETAIL 0x02. -/
def pendingTimeout (s : State) (x : Job) : State :=
  if x.dep == .pending && x.endedAt.isNone && decide (x.dispatched + 4096 ≤ now s) then
    endUnconfirmed s x 0x0401 0x02 (now s)
  else s

/-- PENDING_TIMEOUT (R273). -/
def execPendingTimeout (j : Nat) (s : State) : Host.Outcome State Fault Refusal :=
  .next (match s.job? j with
    | none => s
    | some x => if s.service then pendingTimeout s x else s)

end Sys2Proof.Machine
end

