-- ==== Sys2Proof/Machine/Validate.lean ====
section
/-! DEFINITION. The checks of the MXU's validation stage (R190 to R193, Table 7.2).  The moduli, orders and
small-order values of the named curves are those of FIPS 186-5, SP 800-186, RFC 7748 and RFC 8032 (log entry 11). -/

namespace Sys2Proof.Machine

/-- The u coordinates of order 8 on Curve25519. -/
def order8u : List Nat := [
  325606250916557431795983626356110631294008115727848805560023387167927233504,
  39382357235489614581723060781553021112529911719440698176882885853963445705823]

/-- The y coordinates of order 8 on edwards25519. -/
def order8y : List Nat := [
  2707385501144840649318225287225658788936804267575313519463743609750303402022,
  55188659117513257062467267217118295137698188065244968500265048394206261417927]

/-- The first failing check, by column: STATUS, with the DETAIL of the row. -/
def firstStatus (detail : Nat) : List (Bool × Nat) → Option (Nat × Nat)
  | [] => none
  | (true, st) :: _ => some (st, detail)
  | (false, _) :: cs => firstStatus detail cs

/-- P-curve public point (Table 7.2): 0x04, X, Y. -/
def checkPPoint (pset : Nat) (b : Bytes) : Option (Nat × Nat) :=
  let (p, cb, _) := pCurve pset
  let n := (b.length - 1) / 2
  let x := beNat (sub b 1 n)
  let y := beNat (sub b (1 + n) n)
  firstStatus 0x30 [
    (x == 0 && y == 0, 0x0301),
    (byteAt b 0 != 4 || decide (p ≤ x) || decide (p ≤ y), 0x0303),
    (y * y % p != (x * x % p * x + (p - 3) * x + cb) % p, 0x0304)]

/-- X25519 or X448 peer value (Table 7.2). -/
def checkXPoint (pset : Nat) (b : Bytes) : Option (Nat × Nat) :=
  let u := if pset = 1 then leNat b % 2 ^ 255 % p25519 else leNat b % p448
  let small := if pset = 1 then u == p25519 - 1 || order8u.contains u else u == p448 - 1
  firstStatus 0x30 [(u == 0, 0x0301), (u == 1, 0x0302), (small, 0x0305)]

/-- Sign bit and y of an EdDSA encoding. -/
def edDecode (pset : Nat) (b : Bytes) : Bool × Nat :=
  let v := leNat b
  if pset = 1 then (v.testBit 255, v % 2 ^ 255) else (v.testBit 455, v % 2 ^ 455)

/-- Does some x belong to y, and is it zero only with sign bit 0? -/
def edOnCurve (pset : Nat) (sign : Bool) (y : Nat) : Bool :=
  if pset = 1 then
    let p := p25519
    let d := (p - 121665) * powMod 121666 p 255 (p - 2) % p
    let u := (y * y + p - 1) % p
    let v := (d * (y * y % p) + 1) % p
    if u = 0 then !sign else powMod (u * v) p 255 ((p - 1) / 2) == 1
  else
    let p := p448
    let u := (y * y + p - 1) % p
    let v := ((p - 39081) * (y * y % p) + p - 1) % p
    if u = 0 then !sign else powMod (u * v) p 448 ((p - 1) / 2) == 1

/-- Is y the y of a point of small order? -/
def edSmall (pset y : Nat) : Bool :=
  if pset = 1 then y == 1 || y == 0 || y == p25519 - 1 || order8y.contains y
  else y == 1 || y == 0 || y == p448 - 1

/-- Ed25519 or Ed448 public key (Table 7.2, R193). -/
def checkEdKey (pset : Nat) (small : Bool) (b : Bytes) : Option (Nat × Nat) :=
  let (sign, y) := edDecode pset b
  let p := if pset = 1 then p25519 else p448
  firstStatus 0x30 [
    (y == 1 && !sign, 0x0302), (decide (p ≤ y), 0x0303), (!edOnCurve pset sign y, 0x0304),
    (small && edSmall pset y, 0x0305)]

/-- RSA public key, n then e big-endian (Table 7.2). -/
def checkRsaKey (pset : Nat) (b : Bytes) : Option (Nat × Nat) :=
  let k := rsaK pset
  let n := beNat (b.take k)
  let e := beNat (sub b k 4)
  let rows : List (Bool × (Nat × Nat)) := [
    (n == 0, (0x0301, 0x32)), (e == 1, (0x0302, 0x33)),
    (n % 2 == 0 || decide (n < 2 ^ (8 * k - 1)), (0x0303, 0x32)),
    (e % 2 == 0 || decide (e < 65537), (0x0303, 0x33))]
  (rows.find? (·.1)).map (·.2)

/-- RSA ciphertext under a modulus (Table 7.2). -/
def checkRsaCt (n : Nat) (b : Bytes) : Option (Nat × Nat) :=
  let c := beNat b
  firstStatus 0x31 [(c == 0, 0x0301), (c == 1, 0x0302), (decide (n ≤ c), 0x0303)]

/-- Is a signature refused by the stage (Table 7.2): VERIFY_FALSE 0x06? -/
def sigRefused (alg pset n : Nat) (sig : Bytes) : Bool :=
  match alg with
  | 0x10 => let s := beNat sig
    s == 0 || s == 1 || decide (n ≤ s)
  | 0x11 =>
    let (_, _, q) := pCurve pset
    let r := beNat (sig.take (sig.length / 2))
    let s := beNat (sig.drop (sig.length / 2))
    r == 0 || s == 0 || decide (q ≤ r) || decide (q ≤ s)
  | _ =>
    let h := sig.length / 2
    let (sign, y) := edDecode pset (sig.take h)
    let p := if pset = 1 then p25519 else p448
    let l := if pset = 1 then l25519 else l448
    decide (l ≤ leNat (sig.drop h)) || decide (p ≤ y) || !edOnCurve pset sign y

/-- A public value of ALG, validated (Table 7.2). -/
def checkPublic (alg pset : Nat) (small : Bool) (b : Bytes) : Option (Nat × Nat) :=
  match alg with
  | 0x10 => checkRsaKey pset b
  | 0x11 => checkPPoint pset b
  | 0x13 => checkPPoint pset b
  | 0x12 => checkEdKey pset small b
  | 0x14 => checkXPoint pset b
  | _ => none

end Sys2Proof.Machine
end

