-- ==== Sys2Proof/Machine/Sign.lean ====
section
/-! DEFINITION. Signature jobs: ML-DSA, SLH-DSA, LMS/HSS, XMSS, ECDSA and EdDSA (05, 06, 07). -/

namespace Sys2Proof.Machine

/-! ### Counter records of stateful keys (R165, R166) -/

/-- Is a sequence number the same as, or later than, another?  DEDUCED (log entry 10): 16-bit numbers wrap, so the higher is the
one less than 2^15 ahead. -/
def seqAfter (a b : Nat) : Bool := decide ((a + 65536 - b) % 65536 < 32768)

/-- The copy that stands: valid, with the higher sequence number. -/
def Counter.standing (c : Counter) : CounterCopy :=
  if c.a.valid && (!c.b.valid || seqAfter c.a.seq c.b.seq) then c.a else c.b

/-- RESERVED_TO of a key. -/
def reservedTo (s : State) (handle : Nat) : Nat :=
  ((s.store.counters.find? (·.handle == handle)).map fun c => c.standing.reservedTo).getD 0

/-- Write RESERVED_TO into the older copy (R166). -/
def Counter.advance (c : Counter) (v : Nat) (ok : Bool) : Counter :=
  let n : CounterCopy := { reservedTo := v, seq := (c.standing.seq + 1) % 65536, valid := ok }
  if c.standing = c.a then { c with b := n } else { c with a := n }

/-- Change the counter record of a key. -/
def updCounter (s : State) (handle : Nat) (f : Counter → Counter) : State :=
  { s with store.counters := updWhere (·.handle == handle) f s.store.counters }

/-- The copy written last has failed its read-back, or was torn: the older one stands (R166). -/
def Counter.spoil (c : Counter) : Counter :=
  if c.standing = c.a then { c with a := { c.a with valid := false } } else { c with b := { c.b with valid := false } }

/-- Total height of a stateful key. -/
def Stateful.height (f : Stateful) : Nat := f.heights.sum

/-- Take an index at the start boundary (R166): q = NEXT, RESERVED_TO advanced first when NEXT has reached it.  DEDUCED (log entry
10): a job that finds no index left, the jobs before it having taken the last, ends as it would have at dispatch (R167). -/
def takeIndex (s : State) (j : Job) : State :=
  match j.keyIdx.bind (keyAt s) with
  | none => s
  | some k => match k.stateful with
    | none => s
    | some f =>
      if 2 ^ f.height ≤ f.next then
        s.updJob j.id fun x => { x.endAt (fl 0x0202 0x01) (now s) [] with start := none, sliceTick := none }
      else
      let h := k.handle
      let write := decide (reservedTo s h ≤ f.next)
      let s := if write then updCounter s h fun c => c.advance (f.next + f.reserveBlock) true else s
      let s := s.updKey k.index fun k => { k with stateful := some { f with next := f.next + 1 } }
      let b := statefulSignBudget k.pset f.heights f.next f.committed f.trees
      s.updJob j.id fun x => { x with index := some f.next, reserving := write, budget := b }

/-- Power goes while reservation writes, which take at most 2 t, may be under way: each may be torn (R166); whether it is, is
free (log entry 5). -/
def tearWrites (s : State) : State :=
  (s.work.jobs.filter fun j => j.reserving && decide (now s < (j.start.getD 0) + 2)).foldl (fun s j =>
    match takeFreeBool s, j.keyIdx.bind (keyAt s) with
    | (true, s), some k => updCounter s k.handle Counter.spoil
    | (_, s), _ => s) s

/-! ### Key generation (R129, R155, R163, R205) -/

/-- The traversal states of a stateful key at an index (R170). -/
@[irreducible] def traversalsAt (alg ps : Nat) (sk : Bytes) (hs : List Nat) (q : Nat) : List Traversal :=
  List.zipWith Traversal.mk (treesOf q hs)
    (if alg = 0x04 then Lms.pathsAt ps sk hs q else Xmss.pathsAt ps sk (xmssShape (heightBytes hs)) q)

/-- Bookkeeping of a newly generated stateful key with private half `sk`: the first trees are built (R163, R170). -/
def newStateful (j : Job) (sk : Bytes) : Stateful :=
  let rb := j.par 12 2
  let hs := (genHeights j).getD []
  { heights := hs, reserveBlock := if rb = 0 then 16 else rb, next := 0, committed := 0,
    trees := traversalsAt j.alg j.pset sk hs 0 }

/-- Bytes that a SIG_KEYGEN draws: ξ of ML-DSA; SK.seed, SK.prf and PK.seed of SLH-DSA (R155); the private material of a stateful
key; for the curves 96 bytes, more than any takes. -/
def sigSeedLen (alg pset : Nat) : Nat :=
  if alg = 0x02 then 32 else if alg = 0x03 then 3 * (Slh.par pset).n
  else if isStateful alg then statefulMaterial alg pset else 96

def runSigKeygen (u : Upset) (s : State) (j : Job) (_inp : Bytes) : State × JobResult :=
  match takeFree s (sigSeedLen j.alg j.pset) with
  | (seed, s) =>
    let a := ap j.alg j.pset
    let hash := j.alg == 0x03 || isStateful j.alg
    if u == .pairwise && !hash then pctFail s j else
    let gen := if isStateful j.alg then [seed, heightBytes ((genHeights j).getD [])] else [seed]
    let pub := stdBytes .pubOf a gen (pkLen j.alg j.pset)
    let sk := stdBytes .privOf a gen (if isStateful j.alg then statefulMaterial j.alg j.pset else skLen j.alg j.pset)
    let k := newKey s j.inst j.alg j.pset j.policy (some pub) (some sk)
    let k := if isStateful j.alg then { k with stateful := some (newStateful j sk) } else k
    (s, okR (leBytes 4 k.handle ++ pub) [.createKey k])

/-- SIG_KEYGEN (R129, R155, R163, R205); a stateful key takes a counter record (R165). -/
def execSigKeygen (j : Nat) (u : Upset) (s : State) : Host.Outcome State Fault Refusal :=
  .next (runJob s j u (fun x => x.opcode == 0x08) (fun _ => true) (runSigKeygen u))

/-! ### Signing (R139 to R142, R157, R166 to R170, R206, R207) -/

/-- The context string of a job (R137). -/
def Job.ctxString (j : Job) : Bytes := sub j.params 1 (j.par 0 1)

/-- What is signed besides the key: mode and hash code, the context string where the family has one, and the
input (Table 5.7, R156, R206, R207). -/
def sigArgs (j : Job) (msg : Bytes) : List Bytes :=
  [[BitVec.ofNat 8 j.mode, BitVec.ofNat 8 j.ph], if hasCtxString j.alg then j.ctxString else [], msg]

/-- DETERMINISTIC, bit 2; EdDSA and the stateful schemes are always so. -/
def Job.deterministic (j : Job) : Bool := bit j.opt 2 || j.alg == 0x12 || isStateful j.alg

/-- Operands of an ML-DSA, SLH-DSA, ECDSA or EdDSA signature: the private key, the randomness, what is signed. -/
def signArgs (s : State) (j : Job) (rnd inp : Bytes) : List Bytes := (jobKey s j).sk :: rnd :: sigArgs j inp

/-- Preparation of an ML-DSA signature (R139): the randomness is drawn once, before any attempt. -/
def mldsaPrepare (s : State) (j : Job) : State :=
  match (if j.deterministic then (zeros 32, s) else takeFree s 32) with
  | (rnd, s) => prepare s j rnd

/-- Is an attempt at an ML-DSA signature accepted (R140)? -/
def mldsaAccept (s : State) (j : Job) (k : Nat) : Bool :=
  stdHolds .attemptOk (ap j.alg j.pset) (leBytes 4 k :: signArgs s j j.rnd (j.input.getD []))

/-- opt_rand of a deterministic signature: PK.seed for SLH-DSA (R157). -/
def fixedRandom (s : State) (j : Job) : Bytes :=
  if j.alg = 0x03 then sub (jobKey s j).sk (2 * (Slh.par j.pset).n) (Slh.par j.pset).n else []

/-- Bytes that a hedged signature draws: n for SLH-DSA (R157). -/
def signDrawLen (alg pset : Nat) : Nat := if alg = 0x03 then (Slh.par pset).n else 32

def runSigSign (u : Upset) (s : State) (j : Job) (inp : Bytes) : State × Option JobResult :=
  let k := jobKey s j
  let a := ap j.alg j.pset
  let args (rnd : Bytes) : List Bytes := signArgs s j rnd inp
  if isStateful j.alg then
    match j.index with
    | none => (s, some (errR 0x0202 0x01))
    | some q =>
      if u == .readBack && j.reserving then
        -- the copy just written fails its read-back: no index is used and NEXT does not move (R166)
        let s := updCounter s k.handle Counter.spoil
        let s := s.updKey k.index fun k => { k with stateful := k.stateful.map fun f => { f with next := q } }
        (raiseSrc s 0x1F 0 0, some (errR 0x0600 0x23))
      else
        let hs := (k.stateful.map (·.heights)).getD []
        (s.updJob j.id fun x => { x with reserving := false },
          some (okR (stdBytes .sign a [k.sk, heightBytes hs, leBytes 8 q, inp] (statefulSigLen j.alg j.pset hs))
            [.commitIndex k.index q (traversalsAt j.alg j.pset k.sk hs q)]))
  else if j.alg = 0x02 then
    match j.chosen with
    | some _ => (s, some (okR (stdBytes .sign a (args j.rnd) (sigLen j.alg j.pset)) []))
    | none => (if j.prepared then s else mldsaPrepare s j, none)
  else
    match (if j.deterministic then (fixedRandom s j, s) else takeFree s (signDrawLen j.alg j.pset)) with
    | (rnd, s) => (s, some (okR (stdBytes .sign a (args rnd) (sigLen j.alg j.pset)) []))

/-- SIG_SIGN (R139 to R142, R157, R166, R206, R207): for ML-DSA preparation, the end of an attempt, or once a boundary has
chosen an attempt the packing of the signature from it. -/
def execSigSign (j : Nat) (u : Upset) (s : State) : Host.Outcome State Fault Refusal :=
  .next (tryRow s j 0x09 mldsaAccept
    (runPart s j u (fun x => x.opcode == 0x09) (fun x => !x.deterministic && !x.prepared) (runSigSign u)))

/-! ### Verification (R143, R144, R159, R171, R192) -/

/-- Outcome of a verification: OK, or VERIFY_FALSE with the DETAIL of the first failed test. -/
def verdict (ok : Bool) (detail : Nat) : JobResult := if ok then okR [] [] else errR 0x0001 detail

/-- DETAIL of a failed verification by family (Table 5.11, R159, R171, R206, R207). -/
def verifyDetail (j : Job) (args : List Bytes) : Nat :=
  match j.alg with
  | 0x02 => 1 + stdNumber .verifyDetail (ap j.alg j.pset) args % 3
  | 0x03 => 0x04
  | 0x04 => if stdNumber .verifyDetail (ap j.alg j.pset) args % 2 = 0 then 0x04 else 0x05
  | 0x05 => if stdNumber .verifyDetail (ap j.alg j.pset) args % 2 = 0 then 0x04 else 0x05
  | _ => 0x07

def runSigVerify (u : Upset) (s : State) (j : Job) (inp : Bytes) : State × JobResult :=
  let pl := if !j.pkInline then 0 else if isStateful j.alg then j.par 4 4 else pkLen j.alg j.pset
  let sl := if isStateful j.alg then j.par 0 4 else sigLen j.alg j.pset
  let pk := if j.pkInline then inp.take pl else (jobKey s j).pk
  let sig := sub inp pl sl
  let args := pk :: sig :: sigArgs j (inp.drop (pl + sl))
  let classical := j.alg == 0x11 || j.alg == 0x12
  let small := if j.pkInline then bit j.opt 10 else (jobKey s j).has pSmallOrder
  match (if classical then checkPublic j.alg j.pset small pk else none) with
  | some (st, d) => (s, errR st d)
  | none =>
    if classical && sigRefused j.alg j.pset 0 sig then (s, errR 0x0001 0x06)
    else decided s j u (verdict (stdHolds .verify (ap j.alg j.pset) args) (verifyDetail j args))

/-- SIG_VERIFY (R143, R159, R171, R206, R207). -/
def execSigVerify (j : Nat) (u : Upset) (s : State) : Host.Outcome State Fault Refusal :=
  .next (runJob s j u (fun x => x.opcode == 0x0A) (fun _ => false) (runSigVerify u))

end Sys2Proof.Machine
end

