-- ==== Sys2Proof/Machine/Schedule.lean ====
section
/-! DEFINITION. Step 5 of the tick boundary: which jobs receive slices, in which order, on which engines (R36 to R39),
run-ahead of unconfirmed jobs and their envelopes (R274, R275, R278), the choice of an ML-DSA attempt (R140), slice
overrun (R35) and the power of the vector units (R39). -/

namespace Sys2Proof.Machine

/-! ### Envelopes (R278, R281) -/

/-- Envelopes and units in use in a grove pool, or in the tether pool 16, those being zeroised among them. -/
def poolUse (s : State) (g : Nat) : Nat × Nat :=
  let js := s.work.jobs.filterMap fun j => if (if j.member.isSome then 16 else j.grove) == g then j.envelope else none
  let zs := (s.work.zeroising.filter (·.grove == g)).map (·.units)
  ((js ++ zs).length, (js ++ zs).sum)

/-- Does an operation change a context, a slot, a stream or an AEAD sequence: the jobs on streams and CTX_DERIVE; CTX_EXPORT with
DESTROY_AFTER; the steps of HYBRID_KEX that create a context or erase its ephemeral keys; and a SEAL or OPEN from a slot? -/
def changesState (j : Job) : Bool :=
  j.outToCtx || [0x21, 0x22, 0x23, 0x49, 0x4B].contains j.opcode
    || (j.opcode == 0x4A && bit j.opt 3)
    || (j.opcode == 0x50 && j.opt % 4 != 1)
    || ((j.opcode == 0x30 || j.opcode == 0x31) && j.fromCtx)

/-- Envelope size in units of 1 KiB (R278). -/
def envelopeUnits (j : Job) : Nat := ceilDiv j.need 1024 + b2n (changesState j)

/-- Has the grove pool room for a job's envelope? -/
def envelopeFits (s : State) (j : Job) : Bool :=
  let u := poolUse s j.grove
  decide (u.1 < 64) && decide (u.2 + envelopeUnits j ≤ 768)

/-- Would an unconfirmed job run ahead but for the limits of R274 and R278?  From throttle level 1 on it waits as though
SPEC_OK were clear (Table 19.6). -/
def wouldRunAhead (s : State) (j : Job) : Bool :=
  !j.confirmed && j.specOk && honoursSpec j && j.dep != .pending && s.power.level == 0

/-- May it run ahead at this boundary: at most 7 open ancestors, and an envelope (R274, R278)? -/
def mayRunAhead (s : State) (j : Job) : Bool :=
  wouldRunAhead s j && decide (depth s j ≤ 7) && (j.envelope.isSome || envelopeFits s j)

/-! ### Candidates and their order (R36) -/

/-- Jobs that name the same stateful key run one at a time, in dispatch order (R168). -/
def statefulTurn (s : State) (j : Job) : Bool :=
  !((j.keyIdx.bind (keyAt s)).any (·.stateful.isSome)) ||
    !(s.work.jobs.any fun x => decide (x.id < j.id) && x.keyIdx == j.keyIdx && x.result.isNone)

/-- Does a job take slices: it is placed here, has no result, waits for nothing and is not ended? -/
def takesSlices (s : State) (j : Job) : Bool :=
  j.result.isNone && j.endedAt.isNone && j.waitsOn.isNone && j.member.isNone && !j.pulling
    && j.awaiting.isEmpty && j.dep != .pending && statefulTurn s j

/-- What may receive a slice: a job's own work, or a part of it, by its number (R141, R152). -/
structure Piece where
  job : Job
  part : Option Nat
  deriving DecidableEq, Repr, Inhabited

/-- Was the slice of a part of a job abandoned? -/
def Job.partRerun (j : Job) (k : Nat) : Bool := j.parts.any fun p => p.no == k && p.rerun

/-- Class of a piece: further attempts are speculative work, strands are in their job's class (R141, R152). -/
def Piece.cls (s : State) (p : Piece) : Nat :=
  match p.part with
  | none => sliceClass p.job
  | some k => if fanOf s p.job == .attempts then 4 else classOf p.job (p.job.partRerun k)

/-- Is it re-executed after an abandonment? -/
def Piece.again (p : Piece) : Bool :=
  match p.part with
  | none => p.job.rerun
  | some k => p.job.partRerun k

/-- The key of the order of R36: class, release boundary in classes 3 and 4, re-executed work first in class 4, order of
dispatch, then the job's own slice before its parts.  DESIGN CHOICE (log entry 54): the spec gives no order within classes 1 and
2; the model takes the order of dispatch. -/
def Piece.key (s : State) (n : Nat) (p : Piece) : List Nat :=
  let c := p.cls s
  [c, if c = 1 ∨ c = 2 then 0 else expectedRelease p.job n, if c = 4 then 1 - b2n p.again else 0, p.job.id,
    (p.part.map (· + 1)).getD 0]

/-- Does piece `a` go before piece `b`? -/
def goesBefore (s : State) (n : Nat) (a b : Piece) : Bool := decide (a.key s n < b.key s n)

/-- Insert a piece in order. -/
def insertPiece (s : State) (n : Nat) (p : Piece) : List Piece → List Piece
  | [] => [p]
  | x :: xs => if goesBefore s n p x then p :: x :: xs else x :: insertPiece s n p xs

/-- The first `n` attempt numbers from `k` on that have not ended. -/
def nextTries (j : Job) : Nat → Nat → List Nat
  | 0, _ => []
  | n + 1, k => if j.parts.any (fun p => p.no == k && p.ended.isSome) then nextTries j n (k + 1)
    else k :: nextTries j n (k + 1)

/-- The parts of a job that may receive slices: at most 7 attempts beyond the lowest, none while the device is throttled (R141,
R175, Table 19.6), or the strands beyond its first, 7 of them.  DESIGN CHOICE (log entry 54): a job that divides has 8 strands. -/
def partsOf (s : State) (j : Job) : List Nat :=
  match fanOf s j with
  | .none => []
  | .attempts => if j.prepared && j.chosen.isNone && s.power.level == 0 then
      ((nextTries j (8 + j.parts.length) (j.lowest + 1)).take 7).filter fun k => decide (k < tryLimit j) else []
  | .strands => [1, 2, 3, 4, 5, 6, 7]

/-- What may take a slice, in the order of R36. -/
def candidates (s : State) : List Piece :=
  let js := s.work.jobs.filter fun j => takesSlices s j && (j.confirmed || mayRunAhead s j)
  (js.flatMap fun j => { job := j, part := none } :: (partsOf s j).map fun k => { job := j, part := some k }).foldl
    (fun acc p => insertPiece s (now s) p acc) []

/-! ### Assignment (R37, R43, R166, R278) -/

/-- A job receives a slice: its start boundary if it is the first, its envelope if it is unconfirmed, its index if it signs
with a stateful key.  Its own slice works on the lowest attempt not ended (R141); an MXU result that has come is seen (R32). -/
def startSlice (s : State) (j : Job) : State :=
  let t := now s
  let first := j.start.isNone
  let s := if !j.confirmed && !j.ranAhead then specInc s 0 1 else s
  let s := s.updJob j.id fun x => { x with
    start := if first then some t else x.start, sliceTick := some t, rerun := false,
    trying := if x.prepared && x.chosen.isNone then some x.lowest else none,
    parts := x.parts.filter fun p => p.ended.isSome || fanOf s x != .attempts || p.no != x.lowest,
    ranAhead := x.ranAhead || !x.confirmed,
    envelope := if x.confirmed then x.envelope else some (x.envelope.getD (envelopeUnits x)) }
  let s := showMxu (s.updRun j.id Run.begin) j.id
  if first && j.opcode == 0x09 && isStateful j.alg then takeIndex s j else s

/-- The engines of a grove that receive slices at the throttle level in force (Table 19.6). -/
def slicedEngines (s : State) (g : Nat) : List Nat :=
  (servingEngines s g).take (if s.power.level < 2 then 17 else if s.power.level = 2 then 12
    else if s.power.level = 3 then 8 else 4)

/-- The engine on which a job takes its slice, of those that receive slices and whose run window has room for its wake and
its segment (R37 to R39). -/
def sliceEngine (s : State) (j : Job) : Option Nat :=
  let (sv, lv, _) := jobUnits s j
  pickEngine s j.engine sv lv <| (slicedEngines s j.grove).filter fun e =>
    let x := s.engines.getD e default
    decide (x.planned + firstSegment s j x ≤ 900)

/-- Give a job its slice of the tick where some engine of its grove has room (R37). -/
def assignOne (s : State) (id : Nat) : State :=
  match s.job? id with
  | none => s
  | some j => match sliceEngine s j with
    | none => s
    | some k =>
      let e := s.engines.getD k default
      if j.confirmed || mayRunAhead s j then
        planSlice (startSlice (s.updJob id fun x => { x with engine := k }) { j with engine := k })
          j k e.planned j.confirmed
      else s

/-- The engine for a part: one whose run window has room; for a further attempt one that carries no confirmed slice in the
tick (R141, R152); one whose units are awake is preferred (R39). -/
def partEngine (s : State) (j : Job) (attempt : Bool) : Option Nat :=
  let (sv, lv, _) := jobUnits s j
  pickWarm s sv lv <| (slicedEngines s j.grove).filter fun e =>
    let x := s.engines.getD e default
    !(attempt && x.confirmed) && decide (x.planned + firstSegment s j x ≤ 900)

/-- Give a part of a job a slice, beside the slice the job itself has in the tick: a strand always runs beside it. -/
def assignPart (s : State) (id k : Nat) : State :=
  match s.job? id with
  | none => s
  | some j =>
    let attempt := fanOf s j == .attempts
    if !attempt && j.sliceTick != some (now s) then s else
    match partEngine s j attempt with
    | none => s
    | some e =>
      let p : Part := { no := k, engine := e, sliceTick := some (now s), rerun := false, ended := none }
      planSlice (s.updJob id fun x => { x with parts := x.parts.filter (·.no != k) ++ [p] })
        j e (s.engines.getD e default).planned (!attempt && j.confirmed)

/-- Give a piece its slice. -/
def assignPiece (s : State) (p : Piece) : State :=
  match p.part with
  | none => assignOne s p.job.id
  | some k => assignPart s p.job.id k

/-- A job with SPEC_OK that R274 or R278 holds back is counted once (Table 10.7). -/
def countHeldBack (s : State) : State :=
  (s.work.jobs.filter fun j => wouldRunAhead s j && takesSlices s j && !j.heldBack && !mayRunAhead s j).foldl
    (fun s j => specInc (s.updJob j.id fun x => { x with heldBack := true }) 4 1) s

/-- The attempt that is chosen: the lowest accepted one, every lower one having ended rejected; the others are stopped and
their state zeroised at this boundary (R140). -/
def attemptSelect (s : State) : State :=
  { s with
    work.jobs := updWhere (fun j => j.chosen.isNone && j.parts.any fun p => p.no == j.lowest && p.ended == some true)
      (fun j => { j with chosen := some j.lowest, trying := none, parts := [] }) s.work.jobs }

/-! ### Vector units (R39) -/

/-- An SV or LV unit that did no work in two ticks is off. -/
def Engine.powerDown (e : Engine) : Engine :=
  { e with svOn := e.svOn && decide (e.svIdle < 3), lvOn := e.lvOn && decide (e.lvIdle < 3) }

/-- One tick goes by on an engine: idle counts, busy count, a fresh run window that begins `late` cycles into the tick. -/
def Engine.tickOver (late : Nat) (e : Engine) : Engine :=
  ({ e with svIdle := e.svIdle + 1, lvIdle := e.lvIdle + 1, busy := (e.busy + b2n e.confirmed) % 2 ^ 48,
            planned := late, confirmed := false } : Engine).powerDown

/-- VECTOR_POWER_DOWN (R39). -/
def execVectorPowerDown (engine : Nat) (s : State) : Host.Outcome State Fault Refusal :=
  .next { s with engines := s.engines.modify engine Engine.powerDown }

/-! ### The boundary window (R32, R342) -/

/-- COMMIT_RECORD_WRITE: the commits of the tick that ends count, and the fault counts of their jobs start again
(R325). -/
def countCommits (s : State) : State :=
  let done := (s.exec.runs.filter fun r => r.staged.isSome).map (·.job)
  { s with exec.runs := s.exec.runs.map Run.count,
           work.jobs := updWhere (fun j => done.contains j.id) (fun j => { j with strikes := 0, overruns := 0 }) s.work.jobs }

/-! ### Step 5 -/

/-- Grove schedulers assign the slices of the tick that begins, whose run window is `late` cycles short (R383). -/
def assignSlices (s : State) (late : Nat) : State :=
  let s := { s with engines := s.engines.map (Engine.tickOver late) }
  let s := attemptSelect s
  let s := countHeldBack s
  (candidates s).foldl assignPiece s

/-! ### Slice overrun (R35) -/

/-- SLICE_OVERRUN (R35): the source is raised; a second overrun from the same commit point ends the job. -/
def execSliceOverrun (j : Nat) (s : State) : Host.Outcome State Fault Refusal :=
  .next (match s.job? j with
    | none => s
    | some x =>
      if !runnable s x || x.sliceTick != some (now s) then s
      else
        let s := raiseSrc s 0x1B 0 0
        if 0 < x.overruns then finalCommit s j (errR 0x0600 0xF0)
        else (abandonSlice s j).updJob j fun x => { x with overruns := x.overruns + 1 })

end Sys2Proof.Machine
end

