-- ==== Sys2Proof/Machine/Alada.lean ====
section
/-! DEFINITION. The engine as a routine sees it (11_engine_isa.md): a job's architectural state, the instruction at its
PC, D-space, secret tags, engine faults, and the scalar instructions of Tables 11.2 and 11.3. -/

namespace Sys2Proof.Machine

/-! ### D-space words (R299, R319) -/

/-- The word at an index of a region. -/
def cellAt : List DCell → Nat → TWord
  | [], _ => { v := 0, tag := false }
  | c :: cs, i => if c.idx = i then { v := c.v, tag := c.tag } else cellAt cs i

/-- Set the word at an index, keeping rising indices and no untagged zero. -/
def setCell : List DCell → Nat → TWord → List DCell
  | [], i, w => if w.v = 0 ∧ w.tag = false then [] else [{ idx := i, v := w.v, tag := w.tag }]
  | c :: cs, i, w =>
    if i < c.idx then
      (if w.v = 0 ∧ w.tag = false then c :: cs else { idx := i, v := w.v, tag := w.tag } :: c :: cs)
    else if i = c.idx then (if w.v = 0 ∧ w.tag = false then cs else { idx := i, v := w.v, tag := w.tag } :: cs)
    else c :: setCell cs i w

/-- Bytes of a region and the OR of the tags of the words read. -/
def cellBytes (m : List DCell) (off n : Nat) : Bytes × Bool :=
  ((List.range n).map fun k => BitVec.ofNat 8 ((cellAt m ((off + k) / 4)).v.toNat / 256 ^ ((off + k) % 4)),
   (List.range n).any fun k => (cellAt m ((off + k) / 4)).tag)

/-- Write one byte of a word: the word takes the tag of the source (R320). -/
def setByte (m : List DCell) (off : Nat) (b : Byte) (tag : Bool) : List DCell :=
  let w := (cellAt m (off / 4)).v.toNat
  let p := 256 ^ (off % 4)
  setCell m (off / 4) { v := BitVec.ofNat 32 (w - w / p % 256 * p + b.toNat * p), tag := tag }

/-- Write bytes from an offset on. -/
def setBytes (m : List DCell) (off : Nat) (tag : Bool) : Bytes → List DCell
  | [] => m
  | b :: bs => setBytes (setByte m off b tag) (off + 1) tag bs

/-! ### The state at routine entry (R290, R301) -/

/-- Bytes 0 to 47 of a job's first SE (Table 3.7). -/
def seHead (j : Job) : Bytes :=
  leBytes 1 j.opcode ++ leBytes 1 j.flags ++ leBytes 2 j.tag ++ leBytes 1 j.alg ++ leBytes 1 j.pset
    ++ leBytes 2 j.depTag ++ leBytes 4 j.keyH ++ leBytes 4 j.ctxH ++ leBytes 8 j.inAddr ++ leBytes 4 j.inLen
    ++ leBytes 2 j.inFrags ++ leBytes 2 j.opt ++ leBytes 8 j.outAddr ++ leBytes 4 j.outLen ++ leBytes 2 j.outFrags
    ++ leBytes 2 j.opt2

/-- The job block (R301). -/
def jobBlock (j : Job) : Bytes := seHead j ++ fit 436 j.params

def idleHash : HashState :=
  { rate := 0, func := 0, domain := 0, absorbed := [], squeezed := 0, squeeze := false, masked := false,
    tagged := false, busy := false }

/-- The architectural state at routine entry (Table 11.1). -/
def entryArch (j : Job) (pc : Nat) : Arch :=
  { pc := pc, ds := [], rs := [], work := setBytes [] 0 false (jobBlock j), out := [],
    sv := List.replicate 16 { v := 0, tag := false }, lv := List.replicate 8 { v := 0, tag := false },
    vcfg := 0, vq := 0, vbound := 0, vtw := 0, vstart := 0, vtvec := 0, vfaultElem := 0, vfaultAddr := 0,
    hash := List.replicate 4 idleHash, inBase := 0, outBase := 0, jobStatus := 0, jobResultLen := 0 }

/-- The owner routine a job runs, when it runs one. -/
def jobRoutine (s : State) (j : Job) : Option Routine := if j.opcode = 0x60 then s.routine? (j.opt % 256) else none

/-- Instruction index at which a job's routine starts (R298, R345). -/
def entryPc (s : State) (j : Job) : Nat :=
  match jobRoutine s j with
  | some r => 0x1800 + r.entry
  | none => match s.vendorRow? j.opcode j.alg j.pset with
    | some v => v.entry
    | none => Config.vendorEntry j.opcode j.alg j.pset % 0x1800

/-- A job as it enters its routine. -/
def newRun (s : State) (j : Job) (input : Bytes) : Run :=
  let a := entryArch j (entryPc s j)
  { job := j.id, cur := a, recA := { arch := a, seq := 0, valid := true }, recB := { arch := a, seq := 0, valid := false },
    staged := none, paused := false, input := input, key := [], delivery := none, delivered := 0, hsSel := 0, trapLd := none,
    declSrc := 0, mbox := [0, 0, 0], mxu := List.replicate 8 { v := 0, tag := false } }

/-- The job's run: the one that stands, or routine entry with its input read. -/
def enterRun (s : State) (j : Job) : State × Option Run :=
  match s.run? j.id with
  | some r => (s, some r)
  | none => match jobInput s j with
    | (s, some inp) => (s, some (newRun s j inp))
    | (s, none) => (s, none)

/-- Put back a run. -/
def State.putRun (s : State) (r : Run) : State :=
  { s with exec.runs := r :: s.exec.runs.filter (·.job != r.job) }

/-! ### Executing one instruction -/

/-- Why an instruction does not complete: an engine fault of Table 11.14, or a stall. -/
inductive Halt where
  | illegal | stack | taint | access
  | stall
  deriving DecidableEq, Repr

/-- What an instruction works on. -/
structure Eng where
  s : State
  j : Job
  r : Run

/-- Outcome of an instruction: it completes, the job ends, or it halts. -/
inductive Ev where
  | next (e : Eng)
  | finish (e : Eng) (r : JobResult)
  | halt (h : Halt)

/-- Is the job's routine an owner routine? -/
def Eng.owner (e : Eng) : Bool := (jobRoutine e.s e.j).isSome

/-- The routine. -/
def Eng.routine (e : Eng) : Routine := (jobRoutine e.s e.j).getD default

/-- Change the architectural state. -/
def Eng.arch (e : Eng) (f : Arch → Arch) : Eng := { e with r.cur := f e.r.cur }

/-- The next instruction index. -/
def nextPc (a : Arch) : Arch := { a with pc := (a.pc + 1) % 8192 }

/-- Complete: the PC moves on. -/
def Eng.go (e : Eng) : Ev := .next (e.arch nextPc)

/-- The instruction word of an index of the running routine's overlay: none beyond its code. -/
def overlayWord (r : Routine) (pc : Nat) : Option Nat := if pc < 0x1800 then none else r.code[pc - 0x1800]?

/-- Does Table 11.2 or 11.3 assign a word? -/
def assignedWord (w : Nat) : Bool :=
  let f := w % 256
  let z := w / 256 % 16 == 0
  match w / 4096 % 16 with
  | 0x0 => z && (decide (f ≤ 0x09) || (decide (0x10 ≤ f) && decide (f ≤ 0x1E)) || (decide (0x20 ≤ f) && decide (f ≤ 0x26))
      || (decide (0x30 ≤ f) && decide (f ≤ 0x34)))
  | 0x1 => true
  | 0x2 => true
  | 0x3 => true
  | 0x4 => true
  | 0x5 => z
  | 0x6 => z
  | 0x8 => decide (w / 256 % 32 ≤ 0x13)
  | 0x9 => decide (w / 256 % 32 ≤ 0x13)
  | 0xA => decide (w / 256 % 32 ≤ 0x14)
  | 0xB => decide (w / 256 % 32 ≤ 0x14)
  | _ => false

/-- Does the instruction at the PC spell this word?  The vendor library in ROM is not published: any instruction may stand in
it (log entry 6); a library that an image has brought is read (R352).  Beyond an owner routine's code the overlay spells
nothing assigned (log entry 16). -/
def fetches (s : State) (j : Job) (r : Run) (word : Nat) : Bool :=
  match jobRoutine s j with
  | some rt => match overlayWord rt r.cur.pc with
    | some w => w == word
    | none => !assignedWord word
  | none => match s.grafts.library with
    | some ws => ws.getD r.cur.pc 0 == word
    | none => true

/-- Code of a fault in DETAIL (R325). -/
def Halt.detail : Halt → Nat
  | .stack => 0x60
  | .taint => 0x61
  | .illegal => 0x62
  | .access => 0x63
  | .stall => 0

/-- An engine fault abandons the slice; the second from the same commit point ends the job (R325). -/
def engineFault (s : State) (j : Job) (r : Run) (h : Halt) : State :=
  let s := s.putRun r.restore
  if j.strikes = 0 then (abandonSlice s j.id).updJob j.id fun x => { x with strikes := 1 }
  else match jobRoutine s j with
    | none => finalCommit (raiseSrc s 0x1C 0 0) j.id (errR 0x0600 0xF1)
    | some _ => finalCommit (emit s 0x0202 (j.opt % 256) r.cur.pc h.detail) j.id (errR 0x0600 h.detail)

/-- What an outcome leaves. -/
def settle (s : State) (j : Job) (r : Run) : Ev → State
  | .next e => e.s.putRun e.r
  | .finish e res => finalCommit (e.s.putRun e.r) e.j.id res
  | .halt .stall => s
  | .halt h => engineFault s j r h

/-- One instruction of a job's slice: the one whose encoding is `word`, when it stands at the PC. -/
def engineStep (s : State) (id word : Nat) (f : Eng → Ev) : State :=
  match s.job? id with
  | none => s
  | some j =>
    if !inSlice s j then s else
    match enterRun s j with
    | (t, none) => noInput s t j
    | (s, some r) =>
      if r.paused || !fetches s j r word then s else settle s j r (f { s := s, j := j, r := r })

/-! ### Stacks (R294, R295) -/

/-- An instruction on the data stack: `f` gives the new stack or the fault. -/
def onStack (e : Eng) (f : List TWord → Except Halt (List TWord)) : Ev :=
  match f e.r.cur.ds with
  | .error h => .halt h
  | .ok st => if 32 < st.length then .halt .stack else (e.arch fun a => { a with ds := st }).go

/-- A binary operation: the tag is the OR of the operands' tags (R320). -/
def alu2 (e : Eng) (g : Word → Word → Word) : Ev :=
  onStack e fun st => match st with
    | b :: a :: rest => .ok ({ v := g a.v b.v, tag := a.tag || b.tag } :: rest)
    | _ => .error .stack

/-- A shift: a tagged count raises TAINT (R321). -/
def shift (e : Eng) (g : Word → Nat → Word) : Ev :=
  onStack e fun st => match st with
    | n :: a :: rest => if n.tag then .error .taint else .ok ({ v := g a.v (n.v.toNat % 32), tag := a.tag } :: rest)
    | _ => .error .stack

/-- A comparison flag (R294). -/
def flagW (b : Bool) : Word := if b then 0xFFFFFFFF#32 else 0#32

/-- An untagged word. -/
def plain (n : Nat) : TWord := { v := BitVec.ofNat 32 n, tag := false }

/-! ### D-space access (R299, R300, R321) -/

/-- Regions of D-space (Table 11.4). -/
inductive Region where
  | work | input | out | key | const
  deriving DecidableEq, Repr

/-- The region of an address. -/
def regionOf (a : Nat) : Option Region :=
  if a < 0x8000 then some .work
  else if a < 0xB000 then some .input
  else if a < 0xD000 then some .out
  else if a < 0xF000 then some .key
  else if a < 0x10000 then some .const
  else none

/-- The region a whole access lies in. -/
def accessRegion (a n : Nat) : Option Region :=
  if regionOf a = regionOf (a + (n - 1)) then regionOf a else none

/-- Does a KEY range meet a delivery that has not completed? -/
def keyStalls (e : Eng) (a n : Nat) : Bool :=
  match e.r.delivery with
  | some d => decide (a < d.dest + d.bytes.length) && decide (d.dest < a + n)
  | none => false

/-- Read `n` bytes at an address: bytes and tag. -/
def dRead (e : Eng) (a n : Nat) : Except Halt (Bytes × Bool) :=
  match accessRegion a n with
  | none => .error .access
  | some .work => .ok (cellBytes e.r.cur.work a n)
  | some .input =>
    let o := e.r.cur.inBase.toNat + (a - 0x8000)
    .ok (fit n (sub e.r.input o n), false)
  | some .out =>
    let o := e.r.cur.outBase.toNat + (a - 0xB000)
    if e.j.outLen < o + n then .error .access else .ok (cellBytes e.r.cur.out o n)
  | some .key => if keyStalls e a n then .error .stall else .ok (cellBytes e.r.key (a - 0xD000) n)
  | some .const => .ok ((List.range n).map fun k => Config.constByte (a - 0xF000 + k), false)

/-- Write bytes at an address. -/
def dWrite (e : Eng) (a : Nat) (bs : Bytes) (tag : Bool) : Except Halt Eng :=
  match accessRegion a bs.length with
  | some .work => .ok (e.arch fun x => { x with work := setBytes x.work a tag bs })
  | some .out =>
    let o := e.r.cur.outBase.toNat + (a - 0xB000)
    if tag then .error .taint
    else if e.j.outLen < o + bs.length then .error .access
    else .ok (e.arch fun x => { x with out := setBytes x.out o false bs })
  | _ => .error .access

/-- A fetch of `n` bytes, zero-extended. -/
def fetchN (e : Eng) (n : Nat) : Ev :=
  onStack e fun st => match st with
    | a :: rest =>
      if a.tag then .error .taint
      else if a.v.toNat % n != 0 then .error .access
      else match dRead e a.v.toNat n with
        | .error h => .error h
        | .ok (b, t) => .ok ({ v := BitVec.ofNat 32 (leNat b), tag := t } :: rest)
    | _ => .error .stack

/-- A store of the low `n` bytes. -/
def storeN (e : Eng) (n : Nat) : Ev :=
  match e.r.cur.ds with
  | a :: x :: rest =>
    if a.tag then .halt .taint
    else if x.tag && regionOf a.v.toNat == some .out then .halt .taint
    else if a.v.toNat % n != 0 then .halt .access
    else match dWrite e a.v.toNat (leBytes n x.v.toNat) x.tag with
      | .error h => .halt h
      | .ok e => (e.arch fun y => { y with ds := rest }).go
  | _ => .halt .stack

/-! ### Scalar instructions (Table 11.3) -/

/-- NOP. -/
def execAlNop (j : Nat) (s : State) : Host.Outcome State Fault Refusal := .next (engineStep s j 0x0000 Eng.go)

/-- DUP. -/
def execAlDup (j : Nat) (s : State) : Host.Outcome State Fault Refusal :=
  .next (engineStep s j 0x0001 fun e => onStack e fun st => match st with
    | a :: r => .ok (a :: a :: r)
    | _ => .error .stack)

/-- DROP. -/
def execAlDrop (j : Nat) (s : State) : Host.Outcome State Fault Refusal :=
  .next (engineStep s j 0x0002 fun e => onStack e fun st => match st with
    | _ :: r => .ok r
    | _ => .error .stack)

/-- SWAP. -/
def execAlSwap (j : Nat) (s : State) : Host.Outcome State Fault Refusal :=
  .next (engineStep s j 0x0003 fun e => onStack e fun st => match st with
    | b :: a :: r => .ok (a :: b :: r)
    | _ => .error .stack)

/-- OVER. -/
def execAlOver (j : Nat) (s : State) : Host.Outcome State Fault Refusal :=
  .next (engineStep s j 0x0004 fun e => onStack e fun st => match st with
    | b :: a :: r => .ok (a :: b :: a :: r)
    | _ => .error .stack)

/-- ROT: ( a b c -- b c a ). -/
def execAlRot (j : Nat) (s : State) : Host.Outcome State Fault Refusal :=
  .next (engineStep s j 0x0005 fun e => onStack e fun st => match st with
    | c :: b :: a :: r => .ok (a :: c :: b :: r)
    | _ => .error .stack)

/-- TOR. -/
def execAlTor (j : Nat) (s : State) : Host.Outcome State Fault Refusal :=
  .next (engineStep s j 0x0006 fun e => match e.r.cur.ds with
    | a :: r => if 16 ≤ e.r.cur.rs.length then .halt .stack
      else (e.arch fun x => { x with ds := r, rs := a :: x.rs }).go
    | _ => .halt .stack)

/-- FROMR. -/
def execAlFromr (j : Nat) (s : State) : Host.Outcome State Fault Refusal :=
  .next (engineStep s j 0x0007 fun e => match e.r.cur.rs with
    | a :: r => if 32 ≤ e.r.cur.ds.length then .halt .stack
      else (e.arch fun x => { x with ds := a :: x.ds, rs := r }).go
    | _ => .halt .stack)

/-- RCOPY. -/
def execAlRcopy (j : Nat) (s : State) : Host.Outcome State Fault Refusal :=
  .next (engineStep s j 0x0008 fun e => match e.r.cur.rs with
    | a :: _ => onStack e fun st => .ok (a :: st)
    | _ => .halt .stack)

/-- DEPTH. -/
def execAlDepth (j : Nat) (s : State) : Host.Outcome State Fault Refusal :=
  .next (engineStep s j 0x0009 fun e => onStack e fun st => .ok (plain st.length :: st))

/-- ADD. -/
def execAlAdd (j : Nat) (s : State) : Host.Outcome State Fault Refusal :=
  .next (engineStep s j 0x0010 fun e => alu2 e (· + ·))

/-- SUB. -/
def execAlSub (j : Nat) (s : State) : Host.Outcome State Fault Refusal :=
  .next (engineStep s j 0x0011 fun e => alu2 e (· - ·))

/-- AND. -/
def execAlAnd (j : Nat) (s : State) : Host.Outcome State Fault Refusal :=
  .next (engineStep s j 0x0012 fun e => alu2 e (· &&& ·))

/-- OR. -/
def execAlOr (j : Nat) (s : State) : Host.Outcome State Fault Refusal :=
  .next (engineStep s j 0x0013 fun e => alu2 e (· ||| ·))

/-- XOR. -/
def execAlXor (j : Nat) (s : State) : Host.Outcome State Fault Refusal :=
  .next (engineStep s j 0x0014 fun e => alu2 e (· ^^^ ·))

/-- INV. -/
def execAlInv (j : Nat) (s : State) : Host.Outcome State Fault Refusal :=
  .next (engineStep s j 0x0015 fun e => onStack e fun st => match st with
    | a :: r => .ok ({ v := ~~~ a.v, tag := a.tag } :: r)
    | _ => .error .stack)

/-- SHL. -/
def execAlShl (j : Nat) (s : State) : Host.Outcome State Fault Refusal :=
  .next (engineStep s j 0x0016 fun e => shift e fun a n => a <<< n)

/-- SHR. -/
def execAlShr (j : Nat) (s : State) : Host.Outcome State Fault Refusal :=
  .next (engineStep s j 0x0017 fun e => shift e fun a n => a >>> n)

/-- SAR. -/
def execAlSar (j : Nat) (s : State) : Host.Outcome State Fault Refusal :=
  .next (engineStep s j 0x0018 fun e => shift e fun a n => a.sshiftRight n)

/-- MUL. -/
def execAlMul (j : Nat) (s : State) : Host.Outcome State Fault Refusal :=
  .next (engineStep s j 0x0019 fun e => alu2 e (· * ·))

/-- MULHU. -/
def execAlMulhu (j : Nat) (s : State) : Host.Outcome State Fault Refusal :=
  .next (engineStep s j 0x001A fun e => alu2 e fun a b => BitVec.ofNat 32 (a.toNat * b.toNat / 2 ^ 32))

/-- EQ. -/
def execAlEq (j : Nat) (s : State) : Host.Outcome State Fault Refusal :=
  .next (engineStep s j 0x001B fun e => alu2 e fun a b => flagW (a == b))

/-- ULT. -/
def execAlUlt (j : Nat) (s : State) : Host.Outcome State Fault Refusal :=
  .next (engineStep s j 0x001C fun e => alu2 e fun a b => flagW (a.ult b))

/-- LT. -/
def execAlLt (j : Nat) (s : State) : Host.Outcome State Fault Refusal :=
  .next (engineStep s j 0x001D fun e => alu2 e fun a b => flagW (a.slt b))

/-- CSEL: ( a b c -- c ≠ 0 ? a : b ). -/
def execAlCsel (j : Nat) (s : State) : Host.Outcome State Fault Refusal :=
  .next (engineStep s j 0x001E fun e => onStack e fun st => match st with
    | c :: b :: a :: r => .ok ({ v := if c.v = 0 then b.v else a.v, tag := a.tag || b.tag || c.tag } :: r)
    | _ => .error .stack)

/-- FETCH. -/
def execAlFetch (j : Nat) (s : State) : Host.Outcome State Fault Refusal := .next (engineStep s j 0x0020 (fetchN · 4))

/-- STORE. -/
def execAlStore (j : Nat) (s : State) : Host.Outcome State Fault Refusal := .next (engineStep s j 0x0021 (storeN · 4))

/-- FETCHH. -/
def execAlFetchh (j : Nat) (s : State) : Host.Outcome State Fault Refusal := .next (engineStep s j 0x0022 (fetchN · 2))

/-- STOREH. -/
def execAlStoreh (j : Nat) (s : State) : Host.Outcome State Fault Refusal := .next (engineStep s j 0x0023 (storeN · 2))

/-- FETCHB. -/
def execAlFetchb (j : Nat) (s : State) : Host.Outcome State Fault Refusal := .next (engineStep s j 0x0024 (fetchN · 1))

/-- STOREB. -/
def execAlStoreb (j : Nat) (s : State) : Host.Outcome State Fault Refusal := .next (engineStep s j 0x0025 (storeN · 1))

/-- A word of the vendor library: the ROM's, or that of the image that has replaced it (R352). -/
def vendorCode (s : State) (i : Nat) : Nat :=
  match s.grafts.library with
  | some ws => ws.getD i 0
  | none => Config.vendorWord i

/-- The word IFETCH reads: an owner routine reads its own overlay code alone (R298). -/
def iSpace (e : Eng) (i : Nat) : Except Halt Nat :=
  match jobRoutine e.s e.j with
  | some r => match overlayWord r i with
    | some w => .ok w
    | none => .error .access
  | none => if i < 0x1800 then .ok (vendorCode e.s i) else if i < 0x2000 then .ok 0 else .error .access

/-- IFETCH. -/
def execAlIfetch (j : Nat) (s : State) : Host.Outcome State Fault Refusal :=
  .next (engineStep s j 0x0026 fun e => onStack e fun st => match st with
    | a :: r => if a.tag then .error .taint else match iSpace e a.v.toNat with
      | .error h => .error h
      | .ok w => .ok (plain w :: r)
    | _ => .error .stack)

/-! ### Control flow (R294, R297, R330) -/

/-- May control go to an index: an owner routine stays in its own code (R330)? -/
def mayGo (e : Eng) (t : Nat) : Bool :=
  match jobRoutine e.s e.j with
  | some r => decide (0x1800 ≤ t) && decide (t < 0x1800 + r.code.length)
  | none => true

/-- Go to an index. -/
def goTo (e : Eng) (t : Nat) : Ev :=
  if mayGo e t then .next (e.arch fun a => { a with pc := t % 8192 }) else .halt .illegal

/-- Target of a relative branch with a 10-bit offset field (R297). -/
def relTarget (pc off : Nat) : Nat := (pc + 1 + (if off % 1024 < 512 then off % 1024 else off % 1024 + 8192 - 1024)) % 8192

/-- RET: the address comes from the return stack. -/
def execAlRet (j : Nat) (s : State) : Host.Outcome State Fault Refusal :=
  .next (engineStep s j 0x0030 fun e => match e.r.cur.rs with
    | a :: r =>
      if a.tag then .halt .taint
      else goTo (e.arch fun x => { x with rs := r }) a.v.toNat
    | _ => .halt .stack)

/-- CALLT. -/
def execAlCallt (j : Nat) (s : State) : Host.Outcome State Fault Refusal :=
  .next (engineStep s j 0x0031 fun e => match e.r.cur.ds with
    | a :: r =>
      if 16 ≤ e.r.cur.rs.length then .halt .stack
      else if a.tag then .halt .taint
      else goTo (e.arch fun x => { x with ds := r, rs := plain ((x.pc + 1) % 8192) :: x.rs }) a.v.toNat
    | _ => .halt .stack)

/-- BR. -/
def execAlBr (j off : Nat) (s : State) : Host.Outcome State Fault Refusal :=
  .next (engineStep s j (0x3000 + off % 1024) fun e => goTo e (relTarget e.r.cur.pc off))

/-- A conditional branch on the popped T. -/
def condBranch (e : Eng) (off : Nat) (taken : Word → Bool) : Ev :=
  match e.r.cur.ds with
  | a :: r =>
    if a.tag then .halt .taint
    else
      let e := e.arch fun x => { x with ds := r }
      if taken a.v then goTo e (relTarget e.r.cur.pc off) else e.go
  | _ => .halt .stack

/-- BZ. -/
def execAlBz (j off : Nat) (s : State) : Host.Outcome State Fault Refusal :=
  .next (engineStep s j (0x3400 + off % 1024) fun e => condBranch e off (· == 0))

/-- BNZ. -/
def execAlBnz (j off : Nat) (s : State) : Host.Outcome State Fault Refusal :=
  .next (engineStep s j (0x3C00 + off % 1024) fun e => condBranch e off (· != 0))

/-- DBNZ. -/
def execAlDbnz (j off : Nat) (s : State) : Host.Outcome State Fault Refusal :=
  .next (engineStep s j (0x3800 + off % 1024) fun e => match e.r.cur.rs with
    | a :: r =>
      if a.tag then .halt .taint
      else if a.v - 1 = 0 then (e.arch fun x => { x with rs := r }).go
      else goTo (e.arch fun x => { x with rs := { a with v := a.v - 1 } :: r }) (relTarget e.r.cur.pc off)
    | _ => .halt .stack)

/-! ### Immediates (R293, R296) -/

/-- LIT: the immediate sign-extended to 32 bits. -/
def execAlLit (j imm : Nat) (s : State) : Host.Outcome State Fault Refusal :=
  .next (engineStep s j (0x1000 + imm % 4096) fun e =>
    onStack e fun st => .ok ({ v := (BitVec.ofNat 12 imm).signExtend 32, tag := false } :: st))

/-- LITX: T ← (T << 12) OR imm. -/
def execAlLitx (j imm : Nat) (s : State) : Host.Outcome State Fault Refusal :=
  .next (engineStep s j (0x2000 + imm % 4096) fun e => onStack e fun st => match st with
    | a :: r => .ok ({ v := (a.v <<< 12) ||| BitVec.ofNat 32 (imm % 4096), tag := a.tag } :: r)
    | _ => .error .stack)

/-! ### Commit points (R291, R303, R333) -/

/-- VALID of VFAULT_ELEM (Table 11.10). -/
def Arch.vfaultValid (a : Arch) : Bool := a.vfaultElem.getLsbD 31

/-- Is a vector instruction part-way through (R291)? -/
def Arch.midVector (a : Arch) : Bool := a.vstart != 0 || a.vfaultValid

/-- A commit point: the state is staged, and an MXU result that has come is seen (R32). -/
def stageCommit (e : Eng) : Eng := { e with r.staged := some e.r.cur, s := showMxu e.s e.j.id }

/-- A commit point ends a segment: the slice goes on only where its job may start another segment in it (R37). -/
def commitPoint (e : Eng) : Eng :=
  let e := stageCommit e
  match nextSegment e.s e.j with
  | some s => { e with s := s }
  | none => { e with r.paused := true }

/-- COMMIT: what stands is staged for the boundary window. -/
def execAlCommit (j : Nat) (s : State) : Host.Outcome State Fault Refusal :=
  .next (engineStep s j 0x0032 fun e =>
    if e.r.cur.midVector then .halt .illegal
    else .next (commitPoint { e with r.cur := nextPc e.r.cur }))

/-- YIELD: a commit, and the engine is given up for the rest of the tick. -/
def execAlYield (j : Nat) (s : State) : Host.Outcome State Fault Refusal :=
  .next (engineStep s j 0x0033 fun e =>
    if e.r.cur.midVector then .halt .illegal
    else .next { stageCommit { e with r.cur := nextPc e.r.cur } with r.paused := true })

/-- The result JOB_STATUS and JOB_RESULT_LEN give (R303, R333). -/
def archResult (e : Eng) : JobResult :=
  let a := e.r.cur
  let st := a.jobStatus.toNat % 65536
  let n := a.jobResultLen.toNat
  if e.j.outLen < n then { errR 0x0104 0x60 with len := n }
  else
    let out := if st = 0 ∨ st = 1 then (cellBytes a.out 0 n).1 else []
    { status := st, detail := bits a.jobStatus.toNat 23 16, len := out.length, out := out, effects := [] }

/-- END: the final commit of the job. -/
def execAlEnd (j : Nat) (s : State) : Host.Outcome State Fault Refusal :=
  .next (engineStep s j 0x0034 fun e =>
    if e.r.cur.midVector then .halt .illegal
    else .finish { e with r.staged := some e.r.cur, r.paused := true } (archResult e))

/-! ### Unassigned encodings (R293) -/

/-- UNASSIGNED_ENCODING: ILLEGAL (R293, R324). -/
def execUnassignedEncoding (j w : Nat) (s : State) : Host.Outcome State Fault Refusal :=
  .next (if assignedWord w then s else engineStep s j w fun _ => .halt .illegal)

end Sys2Proof.Machine
end

