-- ==== Sys2Proof/Machine/AladaIo.lean ====
section
/-! DEFINITION. The IO ports of an engine (Table 11.5): hash states, key port, DRBG, vector control, mailbox, MXU port,
declassification, and the gates of Table 11.16. -/

namespace Sys2Proof.Machine

/-! ### Hash states (R305, Table 11.6) -/

/-- FUNC as a hash code of Table 8.1; 0 for Keccak. -/
def hashCode (func : Nat) : Nat := [0, 4, 1, 2, 3, 5, 6].getD func 0

/-- Block of a hash state in bytes. -/
def HashState.block (h : HashState) : Nat := if h.func = 8 then 8 * h.rate else if h.func ≤ 2 then 64 else 128

/-- Padding byte of DOMAIN. -/
def domainByte (d : Nat) : Nat := [0x06, 0x1F, 0x04, 0x01].getD d 0

/-- One Keccak-f[1600] permutation on a 200-byte state. -/
@[irreducible] def keccakF (st : Bytes) : Bytes := leBytes 200 (Keccak.f (leNat st))

/-- Absorb whole blocks of `rate` bytes; `n` bounds their number. -/
def spongeIn (rate : Nat) : Nat → Bytes → Bytes → Bytes
  | 0, st, _ => st
  | n + 1, st, m => if m.isEmpty then st else spongeIn rate n (keccakF (xorBytes st (m.take rate))) (m.drop rate)

/-- A message padded to whole blocks with a domain byte. -/
def spongePad (rate dom : Nat) (m : Bytes) : Bytes :=
  let q := rate - m.length % rate
  let tail := fit (q - 1) [BitVec.ofNat 8 dom] ++ [0x80]
  if q = 1 then m ++ [BitVec.ofNat 8 (dom + 0x80)] else m ++ tail

/-- The first `n` blocks of output of a state. -/
def spongeOut (rate : Nat) : Nat → Bytes → Bytes
  | 0, _ => []
  | n + 1, st => st.take rate ++ spongeOut rate n (keccakF st)

/-- `n` bytes of the output of a hash state from position `p` on. -/
def HashState.outAt (h : HashState) (p n : Nat) : Bytes :=
  if h.func = 8 then
    let r := 8 * h.rate
    let m := spongePad r (domainByte h.domain) h.absorbed
    fit n (sub (spongeOut r ((p + n) / r + 1) (spongeIn r (m.length / r) (zeros 200) m)) p n)
  else
    let c := hashCode h.func
    fit n (sub (hashOf c h.absorbed [] [] (hashLen c)) p n)

/-- Has a Keccak state a usable rate, a SHA-2 state a function? -/
def HashState.defined (h : HashState) : Bool :=
  if h.func = 8 then decide (0 < h.rate) && decide (h.rate ≤ 25) else decide (1 ≤ h.func) && decide (h.func ≤ 6)

/-- Output bytes are taken: a permutation starts when squeezing crosses a rate boundary (R305). -/
def HashState.squeezeBy (h : HashState) (n : Nat) : HashState :=
  let p := h.squeezed + n
  { h with squeezed := p, busy := h.func == 8 && p / (8 * h.rate) != h.squeezed / (8 * h.rate) }

/-- The selected hash state. -/
def Eng.hash (e : Eng) : HashState := e.r.cur.hash.getD e.r.hsSel idleHash

/-- Change the selected hash state. -/
def Eng.setHash (e : Eng) (h : HashState) : Eng := e.arch fun a => { a with hash := a.hash.set e.r.hsSel h }

/-- Absorb bytes (R305): a compression starts when a block fills. -/
def HashState.absorb (h : HashState) (bs : Bytes) (tag : Bool) : HashState :=
  let n := h.absorbed.length
  { h with absorbed := h.absorbed ++ bs, tagged := h.tagged || tag, masked := h.masked || (tag && h.func == 8),
           busy := h.busy || n / h.block != (n + bs.length) / h.block }

/-- HS_CTRL as read. -/
def HashState.ctrl (h : HashState) : Nat := h.rate * 256 + h.func * 16 + h.domain * 4

/-- HS_STATUS. -/
def HashState.status (h : HashState) : Nat := b2n h.busy + 2 * b2n h.masked + 4 * b2n h.tagged + 8 * b2n h.squeeze

/-- A write to HS_CTRL: the fields, then INIT, then PAD. -/
def HashState.write (h : HashState) (v : Nat) : HashState :=
  let h := { h with rate := bits v 15 8, func := bits v 7 4, domain := bits v 3 2 }
  let h := if bit v 0 then
    { idleHash with rate := h.rate, func := h.func, domain := h.domain } else h
  if bit v 1 && !h.squeeze then { h with squeeze := true, busy := true } else h

/-- Is FUNC one that INIT accepts? -/
def funcOk (f : Nat) : Bool := decide (f ≤ 6) || f == 8

/-! ### The key port (R304) -/

/-- Material KEY_REQ delivers: the private half or secret, the public half, or the named context slot. -/
def keyMaterial (e : Eng) (source : Nat) : Option Bytes :=
  let k := e.j.keyIdx.bind (keyAt e.s)
  match source with
  | 0 => k.bind (·.priv)
  | 1 => k.bind (·.pub)
  | _ => match (e.j.ctxUse.bind (ctxAt e.s)).map fun (c : Ctx) => c.slots.getD e.j.slotNo Slot.empty with
    | some (.secret b) => some b
    | some (.mac _ _ b) => some b
    | some (.aead _ _ b iv _) => some (b ++ iv)
    | some (.ephemeral _ a b) => some (a ++ b)
    | _ => none

/-- A KEY_REQ with value `v`: OFFSET within the material, DEST in KEY (R304, R257). -/
def keyReq (e : Eng) (v : Nat) : Except Halt Eng :=
  let source := bits v 31 30
  let dest := v % 65536
  if source = 3 ∨ (source = 2 ∧ e.owner) then .error .illegal
  else if dest % 64 != 0 || regionOf dest != some .key then .error .access
  else if e.r.delivery.isSome then .error .stall
  else
    let big := match e.j.keyIdx.bind (keyAt e.s) with
      | some k => decide (65536 < k.material) && source != 2
      | none => false
    let bytes := if big then [] else ((keyMaterial e source).getD []).drop (64 * bits v 29 16)
    let bytes := bytes.take (0xF000 - dest)
    let s := match e.j.keyIdx with
      | some i => if source ≤ 1 then cacheFill e.s e.j.grove i else e.s
      | none => e.s
    if bytes.isEmpty then .ok { e with s := s, r.delivered := 0 }
    else .ok { e with s := s, r.delivery := some { source := source, dest := dest, bytes := bytes } }

/-- A delivery ends: the material stands in KEY, tagged unless it is a public half. -/
def Run.deliver (r : Run) : Run :=
  match r.delivery with
  | none => r
  | some d => { r with key := setBytes r.key (d.dest - 0xD000) (d.source != 1) d.bytes, delivery := none,
                       delivered := d.bytes.length }

/-- KEY_DELIVERY_DONE (R304). -/
def execKeyDeliveryDone (j : Nat) (s : State) : Host.Outcome State Fault Refusal := .next (s.updRun j Run.deliver)

/-! ### Declassification (R323) -/

/-- Is a KIND allowed for an opcode (Table 11.13)? -/
def declAllowed (j : Job) (kind : Nat) : Bool :=
  let op := j.opcode
  match kind with
  | 0 => [0x02, 0x50, 0x30, 0x18].contains op
  | 1 => op == 0x09 || op == 0x15
  | 2 => [0x01, 0x08, 0x10, 0x14, 0x43, 0x50].contains op
  | 3 => [0x02, 0x03, 0x11, 0x50].contains op && !j.outToCtx
  | 4 => op == 0x28 || op == 0x30
  | 5 => op == 0x31 || op == 0x17
  | 6 => op == 0x41 || op == 0x4A
  | 7 => op == 0x38
  | 8 => op == 0x0A || op == 0x16 || (op == 0x28 && bit j.opt 0) || op == 0x31
  | _ => false

/-- A write to DECL_GO. -/
def declGo (e : Eng) (v : Nat) : Except Halt Eng :=
  let len := bits v 31 16
  let kind := v % 16
  let src := e.r.declSrc.toNat % 65536
  let dst := e.r.declSrc.toNat / 65536
  let wanted := if kind = 8 then Region.work else Region.out
  if e.owner || !declAllowed e.j kind then .error .illegal
  else if len = 0 ∨ 8192 < len ∨ (kind = 8 ∧ len ≠ 4) then .error .illegal
  else if accessRegion dst len ≠ some wanted then .error .access
  else match dRead e src len with
    | .error h => .error h
    | .ok (b, _) => dWrite e dst b false

/-! ### Element faults under the vector trap (R318) -/

/-- Element width of the LV unit in bits (Table 11.9). -/
def Arch.lvWidth (a : Arch) : Nat := [16, 32, 64].getD (bits a.vcfg.toNat 11 10) 0

/-- Registers of an LV group. -/
def Arch.group (a : Arch) : Nat := 2 ^ bits a.vcfg.toNat 5 4

/-- Elements of a group of LV registers from `l` on. -/
def lvElems (a : Arch) (l : Nat) : List Nat :=
  let w := a.lvWidth
  let per := 2048 / w
  (List.range a.group).flatMap fun k =>
    let r := (a.lv.getD (l + k) { v := 0, tag := false }).v.toNat
    (List.range per).map fun i => r / 2 ^ (w * i) % 2 ^ w

/-- Number that a list of `w`-bit elements packs into. -/
def packElems (w : Nat) : List Nat → Nat
  | [] => 0
  | x :: xs => x % 2 ^ w + 2 ^ w * packElems w xs

/-- Write the elements of a group, every register taking the tag. -/
def putElems (a : Arch) (l : Nat) (es : List Nat) (tag : Bool) : Arch :=
  let w := a.lvWidth
  let per := 2048 / w
  { a with lv := (List.range a.group).foldl (fun rs k =>
      rs.set (l + k) { v := BitVec.ofNat 2048 (packElems w ((es.drop (per * k)).take per)), tag := tag }) a.lv }

/-- OR of the tags of a group. -/
def groupTag (a : Arch) (l : Nat) : Bool :=
  (List.range a.group).any fun k => (a.lv.getD (l + k) { v := 0, tag := false }).tag

/-- A write to VFAULT_FILL (R318): element VSTART takes `x` for a gather, whose LD is `ld`; VSTART advances and VALID
clears. -/
def vfaultFill (a : Arch) (ld : Option Nat) (x : TWord) : Arch :=
  let k := a.vstart.toNat
  let a := match ld with
    | some l => putElems a l ((lvElems a l).set k (x.v.toNat % 2 ^ a.lvWidth)) (groupTag a l || x.tag)
    | none => a
  { a with vstart := BitVec.ofNat 32 (k + 1), vfaultElem := a.vfaultElem &&& 0x7FFFFFFF#32 }

/-! ### IN and OUT (R302, Table 11.5) -/

/-- Ports of Table 11.5 that owner routines may use, and those of vendor routines alone. -/
def ownerPorts : List Nat :=
  [0x00, 0x01, 0x0C, 0x0D, 0x0E, 0x0F, 0x10, 0x11, 0x18, 0x20, 0x21, 0x22, 0x23, 0x24, 0x25, 0x30, 0x31, 0x32, 0x33,
   0x34, 0x35, 0x36, 0x37, 0x38, 0xF0]
def vendorPorts : List Nat := [0x08, 0x09, 0x0A, 0x0B, 0x40, 0x41, 0x42, 0x43, 0x44, 0x45, 0x46, 0x47, 0x50, 0x51]

/-- May the routine touch a port? -/
def portOk (e : Eng) (p : Nat) : Bool := ownerPorts.contains p || (!e.owner && vendorPorts.contains p)

/-- Ports that take tagged values (R322): HS_IN, HS_INB, VFAULT_FILL, MXU_DATA. -/
def tagSink (p : Nat) : Bool := [0x22, 0x23, 0x37, 0x42, 0x43].contains p

/-- A free word that a port returns. -/
def freeWord (e : Eng) (tag : Bool) : TWord × Eng :=
  match takeFree e.s 4 with
  | (b, s) => ({ v := BitVec.ofNat 32 (leNat b), tag := tag }, { e with s := s })

/-- A read of MXU_STATUS or MXU_RESULT: their layout is not published (log entry 6); the words of a result that is visible are
free, tagged when it derives from a secret (R32, R320), and until then 0. -/
def mxuWord (e : Eng) (result : Bool) : TWord × Eng :=
  match e.s.mxuCmd? e.j.id with
  | some c => if c.seen then freeWord e (result && [2, 4, 5, 6, 8].contains c.code) else (plain 0, e)
  | none => (plain 0, e)

/-- The outcome of reading a port. -/
inductive PortRead where
  | val (x : TWord) (e : Eng)
  | halt (h : Halt)
  /-- The DRBG is in its error state (R306). -/
  | drbgError

/-- A register read. -/
def rd (e : Eng) (w : Word) : PortRead := .val { v := w, tag := false } e

/-- Read a port.  A port that is only written reads 0. -/
def inPort (e : Eng) (p : Nat) : PortRead :=
  let a := e.r.cur
  if !portOk e p then .halt .illegal else
  match p with
  | 0x00 => rd e (BitVec.ofNat 32 (tickCount e.s))
  | 0x01 =>
    match takeFreeNat e.s with
    | (n, s) => .val (plain (n % 900)) { e with s := s }
  | 0x08 => rd e (e.r.mbox.getD 0 0)
  | 0x09 => rd e (e.r.mbox.getD 1 0)
  | 0x0A => rd e (e.r.mbox.getD 2 0)
  | 0x0B => .val (freeWord e false).1 (freeWord e false).2
  | 0x0C => rd e a.inBase
  | 0x0D => rd e a.outBase
  | 0x0E => rd e a.jobStatus
  | 0x0F => rd e a.jobResultLen
  | 0x11 => rd e (BitVec.ofNat 32 (b2n e.r.delivery.isSome * 2 ^ 31 + e.r.delivered % 65536))
  | 0x18 => if drbgDown e.s e.j then .drbgError else .val (freeWord e true).1 (freeWord e true).2
  | 0x20 => rd e (BitVec.ofNat 32 e.r.hsSel)
  | 0x21 => if e.hash.busy then .halt .stall else rd e (BitVec.ofNat 32 e.hash.ctrl)
  | 0x24 =>
    let h := e.hash
    if h.busy then .halt .stall
    else
      if h.squeeze && h.defined then
        .val { v := BitVec.ofNat 32 (leNat (h.outAt h.squeezed 4)), tag := h.tagged } (e.setHash (h.squeezeBy 4))
      else .val (freeWord e h.tagged).1 (freeWord e h.tagged).2
  | 0x25 => rd e (BitVec.ofNat 32 e.hash.status)
  | 0x30 => rd e a.vcfg
  | 0x31 => rd e a.vq
  | 0x32 => rd e a.vbound
  | 0x33 => rd e a.vtw
  | 0x34 => rd e a.vstart
  | 0x35 => rd e a.vfaultElem
  | 0x36 => rd e a.vfaultAddr
  | 0x38 => rd e a.vtvec
  | 0x44 => .val (mxuWord e false).1 (mxuWord e false).2
  | 0x45 => .val (mxuWord e false).1 (mxuWord e false).2
  | 0x46 => .val (mxuWord e true).1 (mxuWord e true).2
  | 0x47 => .val (mxuWord e true).1 (mxuWord e true).2
  | 0xF0 => rd e (BitVec.ofNat 32 (if e.owner then e.j.opt % 256 else 0))
  | _ => rd e 0

/-- The ILLEGAL cases of a write, which rank before TAINT (R315). -/
def outIllegal (e : Eng) (p v : Nat) : Bool :=
  !portOk e p || p == 0x34
    || ((p == 0x0C || p == 0x0D) && v % 4096 != 0)
    || (p == 0x0E && e.owner && decide (1 < v % 65536))
    || (p == 0x21 && bit v 0 && !funcOk (bits v 7 4))
    || ((p == 0x22 || p == 0x23) && e.hash.squeeze)

/-- Write a value to a port, the value having left the stack. -/
def outPort (e : Eng) (p : Nat) (x : TWord) : Except Halt Eng :=
  let v := x.v.toNat
  if outIllegal e p v then .error .illegal
  else if x.tag && !tagSink p then .error .taint
  else match p with
  | 0x08 => .ok { e with r.mbox := e.r.mbox.set 0 x.v }
  | 0x09 => .ok { e with r.mbox := e.r.mbox.set 1 x.v }
  | 0x0A => .ok { e with r.mbox := e.r.mbox.set 2 x.v }
  | 0x0C => .ok (e.arch fun a => { a with inBase := x.v })
  | 0x0D => .ok (e.arch fun a => { a with outBase := x.v })
  | 0x0E => .ok (e.arch fun a => { a with jobStatus := x.v })
  | 0x0F => .ok (e.arch fun a => { a with jobResultLen := x.v })
  | 0x10 => keyReq e v
  | 0x20 => .ok { e with r.hsSel := v % 4 }
  | 0x21 => if e.hash.busy then .error .stall else .ok (e.setHash (e.hash.write v))
  | 0x22 => if e.hash.busy then .error .stall else .ok (e.setHash (e.hash.absorb (leBytes 4 v) x.tag))
  | 0x23 => if e.hash.busy then .error .stall else .ok (e.setHash (e.hash.absorb (leBytes 1 v) x.tag))
  | 0x30 => .ok (e.arch fun a => { a with vcfg := x.v &&& 0xFFFF0F31#32 })
  | 0x31 => .ok (e.arch fun a => { a with vq := x.v })
  | 0x32 => .ok (e.arch fun a => { a with vbound := x.v })
  | 0x33 => .ok (e.arch fun a => { a with vtw := x.v })
  | 0x37 => if e.r.cur.vfaultValid then .ok (e.arch (vfaultFill · e.r.trapLd x)) else .ok e
  | 0x38 => .ok (e.arch fun a => { a with vtvec := x.v })
  | 0x50 => .ok { e with r.declSrc := x.v }
  | 0x51 => declGo e v
  | p => if 0x40 ≤ p ∧ p ≤ 0x43 then .ok { e with r.mxu := e.r.mxu.set (p - 0x40) x } else .ok e

/-- IN: the value is pushed. -/
def doIn (e : Eng) (p : Nat) : Ev :=
  match inPort e p with
  | .halt h => .halt h
  | .drbgError => .finish { e with r := e.r.restore } (errR 0x0600 0x40)
  | .val x e => onStack e fun st => .ok (x :: st)

/-- OUT: T is popped and written. -/
def doOut (e : Eng) (p : Nat) : Ev :=
  if !portOk e p then .halt .illegal else
  match e.r.cur.ds with
  | [] => .halt .stack
  | x :: rest => match outPort (e.arch fun a => { a with ds := rest }) p x with
    | .error h => .halt h
    | .ok e => e.go

/-- OUT whose value satisfies `want`; another value is another step. -/
def doOutIf (e : Eng) (p : Nat) (want : Nat → Bool) : Ev :=
  match e.r.cur.ds with
  | x :: _ => if want x.v.toNat then doOut e p else .halt .stall
  | [] => doOut e p

/-- Encodings of IN and OUT. -/
def inW (p : Nat) : Nat := 0x5000 + p % 256
def outW (p : Nat) : Nat := 0x6000 + p % 256

/-- IN. -/
def execAlIn (j p : Nat) (s : State) : Host.Outcome State Fault Refusal :=
  .next (engineStep s j (inW p) fun e => doIn e (p % 256))

/-- KEY_REQ: a line of the material that both copies fail quarantines the object and ends the job (R262); the fill of the slice may
find that too. -/
def keyReqStep (u : Upset) (e : Eng) : Ev :=
  match strikeVault e.s e.j u with
  | (s, true) => .finish { e with s := s } (errR 0x0600 0x50)
  | (s, false) =>
    let e := { e with s := s }
    if u == .glitch then .finish { e with s := glitchAlarm e.s e.j.inst e.j.opcode (unitId 0 e.j.engine) } (errR 0x0600 0x71)
    else match doOut e 0x10 with
      | .next t => if usesQuarantined t.s t.j then .finish t (errR 0x0600 0x50) else .next t
      | ev => ev

/-- No engine state outlives the entry into safe state (Table 14.9). -/
def State.clearIfSafe (s : State) : State := if s.faults.safe then { s with exec.runs := [] } else s

/-- KEY_REQ (R304). -/
def execKeyReq (j : Nat) (u : Upset) (s : State) : Host.Outcome State Fault Refusal :=
  .next (engineStep s j (outW 0x10) (keyReqStep u)).clearIfSafe

/-- OUT; of KEY_REQ it is that row. -/
def execAlOut (j p : Nat) (s : State) : Host.Outcome State Fault Refusal :=
  if p % 256 = 0x10 then execKeyReq j .none s else .next (engineStep s j (outW p) fun e => doOut e (p % 256))

/-- HS_INIT. -/
def execHsInit (j : Nat) (s : State) : Host.Outcome State Fault Refusal :=
  .next (engineStep s j (outW 0x21) fun e => doOutIf e 0x21 (bit · 0))

/-- HS_PAD. -/
def execHsPad (j : Nat) (s : State) : Host.Outcome State Fault Refusal :=
  .next (engineStep s j (outW 0x21) fun e => doOutIf e 0x21 (bit · 1))

/-- HS_IN. -/
def execHsIn (j : Nat) (s : State) : Host.Outcome State Fault Refusal :=
  .next (engineStep s j (outW 0x22) fun e => doOut e 0x22)

/-- HS_INB. -/
def execHsInb (j : Nat) (s : State) : Host.Outcome State Fault Refusal :=
  .next (engineStep s j (outW 0x23) fun e => doOut e 0x23)

/-- HS_OUT. -/
def execHsOut (j : Nat) (s : State) : Host.Outcome State Fault Refusal :=
  .next (engineStep s j (inW 0x24) fun e => doIn e 0x24)

/-- HASH_PERMUTATION_DONE: BUSY of hash state `k` clears (R305). -/
def execHashPermutationDone (j k : Nat) (s : State) : Host.Outcome State Fault Refusal :=
  .next (s.updRun j fun r => { r with
    cur := { r.cur with hash := r.cur.hash.modify k fun h => { h with busy := false } } })

/-- DRBG_READ (R306). -/
def execDrbgRead (j : Nat) (s : State) : Host.Outcome State Fault Refusal :=
  .next (engineStep s j (inW 0x18) fun e => doIn e 0x18)

/-- VQ_WRITE (R309). -/
def execVqWrite (j : Nat) (s : State) : Host.Outcome State Fault Refusal :=
  .next (engineStep s j (outW 0x31) fun e => doOut e 0x31)

/-- VCFG_WRITE (R307). -/
def execVcfgWrite (j : Nat) (s : State) : Host.Outcome State Fault Refusal :=
  .next (engineStep s j (outW 0x30) fun e => doOut e 0x30)

/-- VFAULT_FILL (R318). -/
def execVfaultFill (j : Nat) (s : State) : Host.Outcome State Fault Refusal :=
  .next (engineStep s j (outW 0x37) fun e => doOut e 0x37)

/-- MBOX_CMD (R302): the request stands in the mailbox; its encoding is not published. -/
def execMboxCmd (j : Nat) (s : State) : Host.Outcome State Fault Refusal :=
  .next (engineStep s j (outW 0x08) fun e => doOut e 0x08)

/-- DECL_GO (R323). -/
def execDeclGo (j : Nat) (s : State) : Host.Outcome State Fault Refusal :=
  .next (engineStep s j (outW 0x51) fun e => doOut e 0x51)

/-! ### Gates (R331, Table 11.16) -/

/-- The job's key object, when the routine declares one of these ALG values. -/
def gateKey (e : Eng) (algs : List Nat) : Option KeyObj :=
  if algs.contains e.routine.keyAlg then e.j.keyIdx.bind (keyAt e.s) else none

/-- A gate fetches the job's key through the key port (R331): the slice comes to hold it (R257). -/
def gateFetch (e : Eng) : Eng :=
  match e.j.keyIdx with
  | some i => { e with s := cacheFill e.s e.j.grove i }
  | none => e

/-- The range a gate writes: wholly in one of the regions and within OUT_LEN (R299). -/
def gateDst (e : Eng) (rs : List Region) (dst len : Nat) : Bool :=
  match accessRegion dst len with
  | some r => rs.contains r && (r != .out || decide (e.r.cur.outBase.toNat + (dst - 0xB000) + len ≤ e.j.outLen))
  | none => false

/-- The range a gate reads lies in one region. -/
def gateSrc (src len : Nat) : Bool := len == 0 || (accessRegion src len).isSome

/-- Write a gate's result and return. -/
def gateWrite (e : Eng) (rest : List TWord) (dst : Nat) (b : Bytes) : Ev :=
  match dWrite (e.arch fun a => { a with ds := rest }) dst b false with
  | .error h => .halt h
  | .ok e => e.go

/-- Bytes a gate reads. -/
def gateBytes (e : Eng) (src len : Nat) : Except Halt (Bytes × Bool) :=
  if len = 0 then .ok ([], false) else dRead e src len

/-- SEAL: ( nonce src len dst -- ). -/
def gateSeal (e : Eng) : Ev :=
  match e.r.cur.ds with
  | dst :: len :: src :: nonce :: rest =>
    let n := len.v.toNat
    match gateKey e [0x30, 0x31] with
    | none => .halt .illegal
    | some k =>
      if 256 < n || !gateSrc src.v.toNat n || !gateSrc nonce.v.toNat 12 || !gateDst e [.out] dst.v.toNat (n + 16) then
        .halt .illegal
      else if dst.tag || len.tag || src.tag || nonce.tag then .halt .taint
      else match gateBytes e nonce.v.toNat 12, gateBytes e src.v.toNat n with
        | .ok (nb, nt), .ok (pb, _) =>
          if nt then .halt .taint
          else gateWrite (gateFetch e) rest dst.v.toNat (aeadSealOf (ap k.alg k.pset) k.sk nb [] pb)
        | .error h, _ => .halt h
        | _, .error h => .halt h
  | _ => if e.owner then .halt .stack else .halt .illegal

/-- TAG: ( src len dst -- ). -/
def gateTag (e : Eng) : Ev :=
  match e.r.cur.ds with
  | dst :: len :: src :: rest =>
    let n := len.v.toNat
    match gateKey e [0x28, 0x29] with
    | none => .halt .illegal
    | some k =>
      let m := if k.alg = 0x28 then hashLen k.pset else if k.pset = 0x01 then 32 else 64
      if 512 < n || !gateSrc src.v.toNat n || !gateDst e [.out] dst.v.toNat m then .halt .illegal
      else if dst.tag || len.tag || src.tag then .halt .taint
      else match gateBytes e src.v.toNat n with
        | .error h => .halt h
        | .ok (b, _) =>
          gateWrite (gateFetch e) rest dst.v.toNat (if k.alg = 0x28 then hmacOf k.pset k.sk b else kmacOf k.pset k.sk b [] m)
  | _ => if e.owner then .halt .stack else .halt .illegal

/-- RANDOM: ( dst len -- ). -/
def gateRandom (e : Eng) : Ev :=
  match e.r.cur.ds with
  | len :: dst :: rest =>
    let n := len.v.toNat
    if n = 0 || 256 < n || !gateDst e [.work, .out] dst.v.toNat n then .halt .illegal
    else if dst.tag || len.tag then .halt .taint
    else if drbgDown e.s e.j then .finish { e with r := e.r.restore } (errR 0x0600 0x40)
    else match takeFree e.s n with
      | (b, s) => gateWrite { e with s := s } rest dst.v.toNat b
  | _ => .halt .stack

/-- A gate is called by an owner routine; the call takes an entry of the return stack while it runs. -/
def asGate (e : Eng) (g : Eng → Ev) : Ev :=
  if !e.owner then .halt .stall else if 16 ≤ e.r.cur.rs.length then .halt .stack else g e

/-- GATE_SEAL (CALL 0x0010). -/
def execGateSeal (j : Nat) (s : State) : Host.Outcome State Fault Refusal :=
  .next (engineStep s j 0x4008 fun e => asGate e gateSeal)

/-- GATE_TAG (CALL 0x0012). -/
def execGateTag (j : Nat) (s : State) : Host.Outcome State Fault Refusal :=
  .next (engineStep s j 0x4009 fun e => asGate e gateTag)

/-- GATE_RANDOM (CALL 0x0014). -/
def execGateRandom (j : Nat) (s : State) : Host.Outcome State Fault Refusal :=
  .next (engineStep s j 0x400A fun e => asGate e gateRandom)

/-! ### CALL (R297, R330) -/

/-- CALL 2·k: an owner routine's call of a gate runs the gate. -/
def doCall (e : Eng) (k : Nat) : Ev :=
  if e.owner && k == 8 then asGate e gateSeal
  else if e.owner && k == 9 then asGate e gateTag
  else if e.owner && k == 10 then asGate e gateRandom
  else if !mayGo e (2 * k) then .halt .illegal
  else if 16 ≤ e.r.cur.rs.length then .halt .stack
  else goTo (e.arch fun x => { x with rs := plain ((x.pc + 1) % 8192) :: x.rs }) (2 * k)

/-- CALL. -/
def execAlCall (j k : Nat) (s : State) : Host.Outcome State Fault Refusal :=
  .next (engineStep s j (0x4000 + k % 4096) fun e => doCall e (k % 4096))

end Sys2Proof.Machine
end

