-- ==== Sys2Proof/Machine/AladaSv.lean ====
section
/-! DEFINITION. The short-vector unit (R313, Table 11.8). -/

namespace Sys2Proof.Machine

/-- Element width of the SV unit (Table 11.9). -/
def Arch.svWidth (a : Arch) : Nat := 8 * 2 ^ bits a.vcfg.toNat 9 8

/-- An SV register. -/
def Arch.svReg (a : Arch) (i : Nat) : SvReg := a.sv.getD i { v := 0, tag := false }

/-- Write an SV register. -/
def Eng.setSv (e : Eng) (i : Nat) (r : SvReg) : Eng := e.arch fun a => { a with sv := a.sv.set i r }

/-- A unit that runs is awake and was not idle (R39, R314). -/
def Eng.wakeSv (e : Eng) : Eng :=
  { e with s := { e.s with engines := e.s.engines.modify e.j.engine fun x => { x with svOn := true, svIdle := 0 } } }

/-- An SV instruction: ILLEGAL while a vector fault is captured (R318). -/
def doSv (e : Eng) (f : Eng → Ev) : Ev := if e.r.cur.vfaultValid then .halt .illegal else f e.wakeSv

/-- Encoding of an SV instruction. -/
def svW (op sd ss : Nat) : Nat := 0x8000 + op * 256 + sd % 16 * 16 + ss % 16

/-- Elements of a 128-bit value. -/
def svElems (w : Nat) (v : BitVec 128) : List Nat := (List.range (128 / w)).map fun i => v.toNat / 2 ^ (w * i) % 2 ^ w

/-- Pack elements. -/
def svPack (w : Nat) (es : List Nat) : BitVec 128 := BitVec.ofNat 128 (packElems w es)

/-- Element-wise operation of SD and SS into SD. -/
def svMap2 (e : Eng) (sd ss : Nat) (g : Nat → Nat → Nat → Nat) : Ev :=
  let a := e.r.cur
  let w := a.svWidth
  let x := a.svReg sd
  let y := a.svReg ss
  (e.setSv sd { v := svPack w (List.zipWith (g w) (svElems w x.v) (svElems w y.v)), tag := x.tag || y.tag }).go

/-- Whole-register operation of SD and SS into SD. -/
def svWhole (e : Eng) (sd ss : Nat) (g : BitVec 128 → BitVec 128 → BitVec 128) : Ev :=
  let x := e.r.cur.svReg sd
  let y := e.r.cur.svReg ss
  (e.setSv sd { v := g x.v y.v, tag := x.tag || y.tag }).go

/-- Shift or rotate every element of SD by the popped count. -/
def svShift (e : Eng) (sd : Nat) (g : Nat → Nat → Nat → Nat) : Ev :=
  match e.r.cur.ds with
  | n :: rest =>
    if n.tag then .halt .taint
    else
      let w := e.r.cur.svWidth
      let x := e.r.cur.svReg sd
      ((e.setSv sd { x with v := svPack w ((svElems w x.v).map fun v => g w v (n.v.toNat % w)) }).arch fun a =>
        { a with ds := rest }).go
  | [] => .halt .stack

/-- SV.LD. -/
def execSvLd (j sd ss : Nat) (s : State) : Host.Outcome State Fault Refusal :=
  .next (engineStep s j (svW 0x00 sd ss) fun e => doSv e fun e => match e.r.cur.ds with
    | a :: rest =>
      if a.tag then .halt .taint
      else if a.v.toNat % 16 != 0 then .halt .access
      else match dRead e a.v.toNat 16 with
        | .error h => .halt h
        | .ok (b, t) => ((e.setSv (sd % 16) { v := BitVec.ofNat 128 (leNat b), tag := t }).arch fun x => { x with ds := rest }).go
    | [] => .halt .stack)

/-- SV.ST: SD must be 0. -/
def execSvSt (j sd ss : Nat) (s : State) : Host.Outcome State Fault Refusal :=
  .next (engineStep s j (svW 0x01 sd ss) fun e => doSv e fun e =>
    if sd % 16 != 0 then .halt .illegal else match e.r.cur.ds with
    | a :: rest =>
      let x := e.r.cur.svReg (ss % 16)
      if a.tag || (x.tag && regionOf a.v.toNat == some .out) then .halt .taint
      else if a.v.toNat % 16 != 0 then .halt .access
      else match dWrite e a.v.toNat (leBytes 16 x.v.toNat) x.tag with
        | .error h => .halt h
        | .ok e => (e.arch fun x => { x with ds := rest }).go
    | [] => .halt .stack)

/-- SV.ADD. -/
def execSvAdd (j sd ss : Nat) (s : State) : Host.Outcome State Fault Refusal :=
  .next (engineStep s j (svW 0x02 sd ss) fun e => doSv e fun e => svMap2 e (sd % 16) (ss % 16) fun _ a b => a + b)

/-- SV.SUB. -/
def execSvSub (j sd ss : Nat) (s : State) : Host.Outcome State Fault Refusal :=
  .next (engineStep s j (svW 0x03 sd ss) fun e => doSv e fun e => svMap2 e (sd % 16) (ss % 16) fun w a b => a + 2 ^ w - b)

/-- SV.MUL: the low half. -/
def execSvMul (j sd ss : Nat) (s : State) : Host.Outcome State Fault Refusal :=
  .next (engineStep s j (svW 0x04 sd ss) fun e => doSv e fun e => svMap2 e (sd % 16) (ss % 16) fun _ a b => a * b)

/-- SV.AND. -/
def execSvAnd (j sd ss : Nat) (s : State) : Host.Outcome State Fault Refusal :=
  .next (engineStep s j (svW 0x05 sd ss) fun e => doSv e fun e => svWhole e (sd % 16) (ss % 16) (· &&& ·))

/-- SV.OR. -/
def execSvOr (j sd ss : Nat) (s : State) : Host.Outcome State Fault Refusal :=
  .next (engineStep s j (svW 0x06 sd ss) fun e => doSv e fun e => svWhole e (sd % 16) (ss % 16) (· ||| ·))

/-- SV.XOR. -/
def execSvXor (j sd ss : Nat) (s : State) : Host.Outcome State Fault Refusal :=
  .next (engineStep s j (svW 0x07 sd ss) fun e => doSv e fun e => svWhole e (sd % 16) (ss % 16) (· ^^^ ·))

/-- SV.SHL. -/
def execSvShl (j sd ss : Nat) (s : State) : Host.Outcome State Fault Refusal :=
  .next (engineStep s j (svW 0x08 sd ss) fun e => doSv e fun e => svShift e (sd % 16) fun _ v n => v * 2 ^ n)

/-- SV.SHR. -/
def execSvShr (j sd ss : Nat) (s : State) : Host.Outcome State Fault Refusal :=
  .next (engineStep s j (svW 0x09 sd ss) fun e => doSv e fun e => svShift e (sd % 16) fun _ v n => v / 2 ^ n)

/-- SV.ROTL. -/
def execSvRotl (j sd ss : Nat) (s : State) : Host.Outcome State Fault Refusal :=
  .next (engineStep s j (svW 0x0A sd ss) fun e => doSv e fun e =>
    svShift e (sd % 16) fun w v n => v * 2 ^ n % 2 ^ w + v / 2 ^ (w - n))

/-- SV.CMOV: ( c -- ). -/
def execSvCmov (j sd ss : Nat) (s : State) : Host.Outcome State Fault Refusal :=
  .next (engineStep s j (svW 0x0B sd ss) fun e => doSv e fun e => match e.r.cur.ds with
    | c :: rest =>
      let x := e.r.cur.svReg (sd % 16)
      let y := e.r.cur.svReg (ss % 16)
      ((e.setSv (sd % 16) { v := if c.v = 0 then x.v else y.v, tag := x.tag || y.tag || c.tag }).arch fun a =>
        { a with ds := rest }).go
    | [] => .halt .stack)

/-- SV.MOV. -/
def execSvMov (j sd ss : Nat) (s : State) : Host.Outcome State Fault Refusal :=
  .next (engineStep s j (svW 0x0C sd ss) fun e => doSv e fun e => (e.setSv (sd % 16) (e.r.cur.svReg (ss % 16))).go)

/-- SV.ZERO: SS must be 0. -/
def execSvZero (j sd ss : Nat) (s : State) : Host.Outcome State Fault Refusal :=
  .next (engineStep s j (svW 0x0D sd ss) fun e => doSv e fun e =>
    if ss % 16 != 0 then .halt .illegal else (e.setSv (sd % 16) { v := 0, tag := false }).go)

/-- Byte `i` of a 128-bit value. -/
def svByte (v : BitVec 128) (i : Nat) : Nat := v.toNat / 256 ^ i % 256

/-- SV.SHUF. -/
def execSvShuf (j sd ss : Nat) (s : State) : Host.Outcome State Fault Refusal :=
  .next (engineStep s j (svW 0x0E sd ss) fun e => doSv e fun e => svWhole e (sd % 16) (ss % 16) fun x y =>
    svPack 8 ((List.range 16).map fun i => svByte x (svByte y i % 16)))

/-! ### AES rounds and carry-less product -/

/-- Product in GF(2^8) modulo x^8 + x^4 + x^3 + x + 1 (FIPS 197); `n` bits of `b` are left. -/
def gfMul : Nat → Nat → Nat → Nat
  | 0, _, _ => 0
  | n + 1, a, b =>
    let a2 := if 128 ≤ a then (2 * a) ^^^ 0x11B else 2 * a
    (if b % 2 = 1 then a else 0) ^^^ gfMul n a2 (b / 2)

/-- Power in GF(2^8). -/
def gfPow (a : Nat) : Nat → Nat
  | 0 => 1
  | n + 1 => gfMul 8 a (gfPow a n)

/-- The S-box of FIPS 197: the inverse, then the affine map. -/
def aesSbox (x : Nat) : Nat :=
  let b := gfPow x 254
  let rot (k : Nat) : Nat := b * 2 ^ k % 256 + b / 2 ^ (8 - k)
  b ^^^ rot 1 ^^^ rot 2 ^^^ rot 3 ^^^ rot 4 ^^^ 0x63

/-- SubBytes and ShiftRows: byte `i` of the state is row `i % 4` of column `i / 4`. -/
def aesSubShift (v : BitVec 128) : List Nat :=
  (List.range 16).map fun i => aesSbox (svByte v ((i + 4 * (i % 4)) % 16))

/-- MixColumns. -/
def aesMix (b : List Nat) : List Nat :=
  (List.range 16).map fun i =>
    let c := i / 4 * 4
    let at' (k : Nat) : Nat := b.getD (c + (i + k) % 4) 0
    gfMul 8 (at' 0) 2 ^^^ gfMul 8 (at' 1) 3 ^^^ at' 2 ^^^ at' 3

/-- SV.AESR: one AES round on state SD with round key SS. -/
def execSvAesr (j sd ss : Nat) (s : State) : Host.Outcome State Fault Refusal :=
  .next (engineStep s j (svW 0x0F sd ss) fun e => doSv e fun e => svWhole e (sd % 16) (ss % 16) fun x k =>
    svPack 8 (aesMix (aesSubShift x)) ^^^ k)

/-- SV.AESLR: the last round. -/
def execSvAeslr (j sd ss : Nat) (s : State) : Host.Outcome State Fault Refusal :=
  .next (engineStep s j (svW 0x10 sd ss) fun e => doSv e fun e => svWhole e (sd % 16) (ss % 16) fun x k =>
    svPack 8 (aesSubShift x) ^^^ k)

/-- Carry-less product of the low 64-bit halves. -/
def clMul (a b : BitVec 128) : BitVec 128 :=
  (List.range 64).foldl (fun acc i => if b.getLsbD i then acc ^^^ ((a &&& 0xFFFFFFFFFFFFFFFF#128) <<< i) else acc) 0#128

/-- SV.CLMUL. -/
def execSvClmul (j sd ss : Nat) (s : State) : Host.Outcome State Fault Refusal :=
  .next (engineStep s j (svW 0x11 sd ss) fun e => doSv e fun e => svWhole e (sd % 16) (ss % 16) clMul)

/-- SV.TOS: push an element of SS; a 64-bit one low word first. -/
def execSvTos (j sd ss : Nat) (s : State) : Host.Outcome State Fault Refusal :=
  .next (engineStep s j (svW 0x12 sd ss) fun e => doSv e fun e =>
    let w := e.r.cur.svWidth
    let x := e.r.cur.svReg (ss % 16)
    match e.r.cur.ds with
    | [] => .halt .stack
    | i :: _ =>
      if 128 / w ≤ i.v.toNat then .halt .illegal else onStack e fun st => match st with
      | i :: rest =>
        if i.tag then .error .taint
        else
          let v := (svElems w x.v).getD i.v.toNat 0
          if w = 64 then
            .ok ({ v := BitVec.ofNat 32 (v / 2 ^ 32), tag := x.tag } :: { v := BitVec.ofNat 32 v, tag := x.tag } :: rest)
          else .ok ({ v := BitVec.ofNat 32 v, tag := x.tag } :: rest)
      | [] => .error .stack)

/-- SV.FROMS: an element of SD takes the popped value. -/
def execSvFroms (j sd ss : Nat) (s : State) : Host.Outcome State Fault Refusal :=
  .next (engineStep s j (svW 0x13 sd ss) fun e => doSv e fun e =>
    let w := e.r.cur.svWidth
    let d := e.r.cur.svReg (sd % 16)
    let put (i v : Nat) (tag : Bool) (rest : List TWord) : Ev :=
      ((e.setSv (sd % 16) { v := svPack w ((svElems w d.v).set i (v % 2 ^ w)), tag := d.tag || tag }).arch fun a =>
        { a with ds := rest }).go
    match e.r.cur.ds with
    | [] => .halt .stack
    | i :: st =>
      if 128 / w ≤ i.v.toNat then .halt .illegal
      else if w = 64 then match st with
        | hi :: lo :: rest =>
          if i.tag then .halt .taint else put i.v.toNat (hi.v.toNat * 2 ^ 32 + lo.v.toNat) (hi.tag || lo.tag) rest
        | _ => .halt .stack
      else match st with
        | x :: rest => if i.tag then .halt .taint else put i.v.toNat x.v.toNat x.tag rest
        | [] => .halt .stack)

end Sys2Proof.Machine
end

