-- ==== Sys2Proof/Machine/AladaLv.lean ====
section
/-! DEFINITION. The long-vector unit (R308 to R318, Tables 11.7 to 11.10). -/

namespace Sys2Proof.Machine

/-! ### What every LV instruction checks (R308, R309, R316, R318) -/

/-- Encoding of an LV instruction. -/
def lvW (op m ld ls : Nat) : Nat := 0xA000 + op * 256 + m % 4 * 64 + ld % 8 * 8 + ls % 8

/-- Index of the faulting instruction (VFAULT_ELEM.PC). -/
def Arch.faultPc (a : Arch) : Nat := bits a.vfaultElem.toNat 25 13

/-- Elements of a group. -/
def Arch.lvCount (a : Arch) : Nat := 2048 * a.group / a.lvWidth

/-- Elements that take part. -/
def Arch.lvN (a : Arch) : Nat := if bits a.vcfg.toNat 31 16 = 0 then a.lvCount else bits a.vcfg.toNat 31 16

/-- Does VQ suit LV_WIDTH (R309)? -/
def Arch.vqOk (a : Arch) : Bool :=
  let q := a.vq.toNat
  q % 2 == 1 && decide (3 ≤ q)
    && ((a.lvWidth == 16 && decide (q < 2 ^ 15)) || (a.lvWidth == 32 && decide (q < 2 ^ 31)))

/-- The ILLEGAL cases of an LV instruction that names the groups of a list. -/
def lvIllegal (a : Arch) (modular : Bool) (groups : List Nat) : Bool :=
  a.vfaultValid || a.lvWidth == 0 || (a.vstart != 0 && a.pc != a.faultPc)
    || groups.any (fun l => l % a.group != 0) || decide (a.lvCount < bits a.vcfg.toNat 31 16) || (modular && !a.vqOk)

/-- The unit runs: it is awake and was not idle (R39, R314). -/
def Eng.wakeLv (e : Eng) : Eng :=
  { e with s := { e.s with engines := e.s.engines.modify e.j.engine fun x => { x with lvOn := true, lvIdle := 0 } } }

/-- An LV instruction. -/
def doLv (e : Eng) (modular : Bool) (groups : List Nat) (f : Eng → Ev) : Ev :=
  if lvIllegal e.r.cur modular groups then .halt .illegal else f e.wakeLv

/-- New elements of LD: those at and above ELEMS stay, and with them their tag (R308, R320). -/
def lvPut (a : Arch) (ld : Nat) (es : List Nat) (tag : Bool) : Arch :=
  let n := a.lvN
  putElems a ld (es.take n ++ (lvElems a ld).drop n) (tag || (decide (n < a.lvCount) && groupTag a ld))

/-- Write LD and complete. -/
def lvDone (e : Eng) (ld : Nat) (es : List Nat) (tag : Bool) : Ev := (e.arch fun a => lvPut a ld es tag).go

/-- Pop an untagged operand. -/
def popPlain (e : Eng) (f : Eng → Nat → Ev) : Ev :=
  match e.r.cur.ds with
  | x :: rest => if x.tag then .halt .taint else f (e.arch fun a => { a with ds := rest }) x.v.toNat
  | [] => .halt .stack

/-- An element-wise operation of LD and LS. -/
def lvMap2 (e : Eng) (ld ls : Nat) (g : Nat → Nat → Nat) : Ev :=
  let a := e.r.cur
  lvDone e ld (List.zipWith g (lvElems a ld) (lvElems a ls)) (groupTag a ld || groupTag a ls)

/-- A modular operation: operands are reduced first (R309). -/
def lvMod2 (e : Eng) (ld ls : Nat) (g : Nat → Nat → Nat → Nat) : Ev :=
  doLv e true [ld, ls] fun e =>
    let q := e.r.cur.vq.toNat
    lvMap2 e ld ls fun x y => g q (x % q) (y % q) % q

/-! ### Loads and stores -/

/-- Elements a byte string spells. -/
def elemsOfBytes (w : Nat) (b : Bytes) (n : Nat) : List Nat :=
  (List.range n).map fun i => leNat (sub b (w / 8 * i) (w / 8))

/-- Bytes of elements. -/
def bytesOfElems (w : Nat) (es : List Nat) : Bytes := es.flatMap (leBytes (w / 8))

/-- LV.LD. -/
def execLvLd (j m ld ls : Nat) (s : State) : Host.Outcome State Fault Refusal :=
  .next (engineStep s j (lvW 0x00 m ld ls) fun e => doLv e false [ld % 8] fun e => popPlain e fun e a =>
    let w := e.r.cur.lvWidth
    let n := e.r.cur.lvN
    if a % 64 != 0 then .halt .access
    else match dRead e a (n * (w / 8)) with
      | .error h => .halt h
      | .ok (b, t) => lvDone e (ld % 8) (elemsOfBytes w b n) t)

/-- Store elements of `sz` bytes one after another, each with its register's tag. -/
def storeElems (sz : Nat) : Eng → Nat → List (Nat × Bool) → Except Halt Eng
  | e, _, [] => .ok e
  | e, a, x :: xs => match dWrite e a (leBytes sz x.1) x.2 with
    | .error h => .error h
    | .ok e => storeElems sz e (a + sz) xs

/-- The elements of a group that take part, with the tags of their registers. -/
def taggedElems (a : Arch) (l : Nat) : List (Nat × Bool) :=
  ((lvElems a l).zipIdx.map fun x =>
    (x.1, (a.lv.getD (l + x.2 / (2048 / a.lvWidth)) { v := 0, tag := false }).tag)).take a.lvN

/-- LV.ST: LD must be 0. -/
def execLvSt (j m ld ls : Nat) (s : State) : Host.Outcome State Fault Refusal :=
  .next (engineStep s j (lvW 0x01 m ld ls) fun e =>
    if ld % 8 != 0 then .halt .illegal else doLv e false [ls % 8] fun e => popPlain e fun e a =>
      let es := taggedElems e.r.cur (ls % 8)
      if es.any (·.2) && regionOf a == some .out then .halt .taint
      else if a % 64 != 0 || (accessRegion a (es.length * (e.r.cur.lvWidth / 8))).isNone then .halt .access
      else match storeElems (e.r.cur.lvWidth / 8) e a es with
        | .error h => .halt h
        | .ok e => e.go)

/-! ### Gather and scatter (R311, R315 to R318) -/

/-- Address of element `i`: 32-bit arithmetic. -/
def elemAddr (base sz idx : Nat) : Nat := (base + sz * idx) % 2 ^ 32

/-- CAUSE of a fault at an element's address, if any (R315). -/
def elemCause (e : Eng) (scatter : Bool) (base sz addr : Nat) : Option Nat :=
  let r := regionOf base
  let beyond := r == some .out && decide (e.j.outLen < e.r.cur.outBase.toNat + (addr - 0xB000) + sz)
  if r.isNone || accessRegion addr sz != r || beyond then some 1
  else if scatter && (r != some .work && r != some .out) then some 2
  else if base % sz != 0 then some 3
  else none

/-- The first faulting element from VSTART on: its number, CAUSE and address. -/
def firstElemFault (e : Eng) (scatter : Bool) (base : Nat) (idx : List Nat) : Option (Nat × Nat × Nat) :=
  let sz := e.r.cur.lvWidth / 8
  let lo := e.r.cur.vstart.toNat
  (((List.range (e.r.cur.lvN - lo)).map (lo + ·)).find? fun i =>
      (elemCause e scatter base sz (elemAddr base sz (idx.getD i 0))).isSome).map fun i =>
    let a := elemAddr base sz (idx.getD i 0)
    (i, (elemCause e scatter base sz a).getD 0, a)

/-- Enter the vector trap at element `k`, or raise ACCESS (R316 to R318). -/
def vectorTrap (e : Eng) (ld : Option Nat) (k cause addr : Nat) : Ev :=
  let a := e.r.cur
  let t := a.vtvec.toNat
  let inside := if e.owner then mayGo e t else decide (t < 0x1800)
  if !a.vcfg.getLsbD 0 || !inside || 16 ≤ a.rs.length then .halt .access
  else .next { e.arch (fun a => { a with
      vstart := BitVec.ofNat 32 k,
      vfaultElem := BitVec.ofNat 32 (2 ^ 31 + cause * 2 ^ 28 + a.pc * 2 ^ 13 + k % 1024),
      vfaultAddr := BitVec.ofNat 32 (addr % 65536 + b2n (decide (65536 ≤ addr)) * 65536),
      rs := plain a.pc :: a.rs, pc := t }) with r.trapLd := ld }

/-- Read elements `lo` to `hi − 1` of a gather. -/
def gatherElems (e : Eng) (base sz : Nat) (idx : List Nat) (lo hi : Nat) : Except Halt (List (Nat × Bool)) :=
  ((List.range (hi - lo)).map (lo + ·)).mapM fun i =>
    match dRead e (elemAddr base sz (idx.getD i 0)) sz with
    | .error h => .error h
    | .ok (b, t) => .ok (leNat b, t)

/-- LV.GATHER, from VSTART. -/
def doGather (e : Eng) (ld ls : Nat) : Ev :=
  match e.r.cur.ds with
  | [] => .halt .stack
  | b :: rest =>
    let a := e.r.cur
    if b.tag || groupTag a ls then .halt .taint
    else
      let idx := lvElems a ls
      let lo := a.vstart.toNat
      let flt := firstElemFault e false b.v.toNat idx
      let hi := match flt with
        | some (k, _, _) => k
        | none => a.lvN
      match gatherElems e b.v.toNat (a.lvWidth / 8) idx lo hi with
      | .error h => .halt h
      | .ok xs =>
        let old := lvElems a ld
        let es := old.take lo ++ xs.map (·.1) ++ old.drop hi
        let keep := decide (0 < lo) || decide (hi < a.lvCount)
        let tag := xs.any (·.2) || (keep && groupTag a ld)
        let e := e.arch fun a => putElems a ld es tag
        match flt with
        | some (k, c, addr) => vectorTrap e (some ld) k c addr
        | none => (e.arch fun a => { a with ds := rest, vstart := 0 }).go

/-- Write elements of a scatter in increasing order. -/
def scatterElems (e : Eng) (base sz : Nat) (idx : List Nat) (es : List (Nat × Bool)) (lo hi : Nat) : Except Halt Eng :=
  ((List.range (hi - lo)).map (lo + ·)).foldlM (fun e i =>
    let x := es.getD i (0, false)
    dWrite e (elemAddr base sz (idx.getD i 0)) (leBytes sz x.1) x.2) e

/-- LV.SCATTER, from VSTART. -/
def doScatter (e : Eng) (ld ls : Nat) : Ev :=
  match e.r.cur.ds with
  | [] => .halt .stack
  | b :: rest =>
    let a := e.r.cur
    let es := taggedElems a ld
    if b.tag || groupTag a ls || (groupTag a ld && regionOf b.v.toNat == some .out) then .halt .taint
    else
      let idx := lvElems a ls
      let flt := firstElemFault e true b.v.toNat idx
      let hi := match flt with
        | some (k, _, _) => k
        | none => a.lvN
      match scatterElems e b.v.toNat (a.lvWidth / 8) idx es a.vstart.toNat hi with
      | .error h => .halt h
      | .ok e => match flt with
        | some (k, c, addr) => vectorTrap e none k c addr
        | none => (e.arch fun a => { a with ds := rest, vstart := 0 }).go

/-- LV.GATHER. -/
def execLvGather (j m ld ls : Nat) (s : State) : Host.Outcome State Fault Refusal :=
  .next (engineStep s j (lvW 0x02 m ld ls) fun e => doLv e false [ld % 8, ls % 8] fun e => doGather e (ld % 8) (ls % 8))

/-- LV.SCATTER. -/
def execLvScatter (j m ld ls : Nat) (s : State) : Host.Outcome State Fault Refusal :=
  .next (engineStep s j (lvW 0x03 m ld ls) fun e => doLv e false [ld % 8, ls % 8] fun e => doScatter e (ld % 8) (ls % 8))

/-! ### Modular arithmetic -/

/-- LV.ADDM. -/
def execLvAddm (j m ld ls : Nat) (s : State) : Host.Outcome State Fault Refusal :=
  .next (engineStep s j (lvW 0x04 m ld ls) fun e => lvMod2 e (ld % 8) (ls % 8) fun _ x y => x + y)

/-- LV.SUBM. -/
def execLvSubm (j m ld ls : Nat) (s : State) : Host.Outcome State Fault Refusal :=
  .next (engineStep s j (lvW 0x05 m ld ls) fun e => lvMod2 e (ld % 8) (ls % 8) fun q x y => x + q - y)

/-- LV.MULM. -/
def execLvMulm (j m ld ls : Nat) (s : State) : Host.Outcome State Fault Refusal :=
  .next (engineStep s j (lvW 0x06 m ld ls) fun e => lvMod2 e (ld % 8) (ls % 8) fun _ x y => x * y)

/-- Reversal of the low 7 bits. -/
def bitRev7 (i : Nat) : Nat := (List.range 7).foldl (fun r k => r + (i / 2 ^ k % 2) * 2 ^ (6 - k)) 0

/-- The constant of a degree-1 pair: that of FIPS 203 for its modulus and its 128 pairs, else left open (log entry 15). -/
def gammaOf (q i : Nat) : Nat :=
  if q = 3329 ∧ i < 128 then 17 ^ (2 * bitRev7 i + 1) % 3329 else Config.pairGamma q i

/-- Base-case products of degree-1 pairs modulo X² − γ. -/
def pairProducts (q : Nat) (xs ys : List Nat) (n : Nat) : List Nat :=
  (List.range n).map fun k =>
    let i := k / 2
    let x0 := xs.getD (2 * i) 0 % q
    let x1 := xs.getD (2 * i + 1) 0 % q
    let y0 := ys.getD (2 * i) 0 % q
    let y1 := ys.getD (2 * i + 1) 0 % q
    if k % 2 = 0 then (x0 * y0 + x1 * y1 % q * gammaOf q i) % q else (x0 * y1 + x1 * y0) % q

/-- LV.PMUL: MOD 0 pointwise, MOD 1 degree-1 pairs. -/
def execLvPmul (j m ld ls : Nat) (s : State) : Host.Outcome State Fault Refusal :=
  .next (engineStep s j (lvW 0x07 m ld ls) fun e =>
    match m % 4 with
    | 0 => lvMod2 e (ld % 8) (ls % 8) fun _ x y => x * y
    | 1 => doLv e true [ld % 8, ls % 8] fun e =>
        let a := e.r.cur
        lvDone e (ld % 8) (pairProducts a.vq.toNat (lvElems a (ld % 8)) (lvElems a (ls % 8)) a.lvN)
          (groupTag a (ld % 8) || groupTag a (ls % 8))
    | _ => .halt .illegal)

/-- Bytes from an address to the end of its region, at most `n`. -/
def tableBytes (e : Eng) (a n : Nat) : Except Halt (Bytes × Bool) :=
  let last := match regionOf a with
    | some .work => 0x8000
    | some .input => 0xB000
    | some .out => 0xD000
    | some .key => 0xF000
    | some .const => 0x10000
    | none => 0
  if (regionOf a).isNone then .error .access else dRead e a (min n (last - a))

/-- LV.BFLY: one layer of butterflies with the twiddles at VTW.  The table leaves the pairing of a layer and the order of
its twiddles open: each element is a free function of the operands below q (log entry 15). -/
def execLvBfly (j m ld ls : Nat) (s : State) : Host.Outcome State Fault Refusal :=
  .next (engineStep s j (lvW 0x08 m ld ls) fun e =>
    if 2 ≤ m % 4 then .halt .illegal else doLv e true [ld % 8] fun e => popPlain e fun e n =>
      let a := e.r.cur
      let q := a.vq.toNat
      match tableBytes e a.vtw.toNat (a.lvN * (a.lvWidth / 8)) with
      | .error h => .halt h
      | .ok (b, t) =>
        let tw := elemsOfBytes a.lvWidth b a.lvN
        let es := ((lvElems a (ld % 8)).take a.lvN).map (· % q)
        lvDone e (ld % 8) ((List.range a.lvN).map fun i => Config.bflyElem (m % 4) n q es tw i % q)
          (groupTag a (ld % 8) || t))

/-- Compress to `d` bits, rounding as FIPS 203 does. -/
def compress (q d x : Nat) : Nat := (2 * (x * 2 ^ d) + q) / (2 * q) % 2 ^ d

/-- Decompress from `d` bits. -/
def decompress (q d y : Nat) : Nat := (2 * q * y + 2 ^ d) / 2 ^ (d + 1)

/-- One element of LV.COMP; a `d` outside 1 to the element width has no stated result (log entry 15). -/
def compElem (m w q d x : Nat) : Nat :=
  if d = 0 ∨ w < d then Config.compElem m q d x % q
  else if m = 0 then compress q d x % q else decompress q d x % q

/-- LV.COMP. -/
def execLvComp (j m ld ls : Nat) (s : State) : Host.Outcome State Fault Refusal :=
  .next (engineStep s j (lvW 0x09 m ld ls) fun e =>
    if 2 ≤ m % 4 then .halt .illegal else doLv e true [ld % 8] fun e => popPlain e fun e d =>
      let a := e.r.cur
      let q := a.vq.toNat
      lvDone e (ld % 8) ((lvElems a (ld % 8)).map fun x => compElem (m % 4) a.lvWidth q d (x % q)) (groupTag a (ld % 8)))

/-! ### Samplers (R312) -/

/-- Free numbers. -/
def freeNats : Nat → State → List Nat × State
  | 0, s => ([], s)
  | n + 1, s =>
    match takeFreeNat s with
    | (x, s) => match freeNats n s with
      | (xs, s) => (x :: xs, s)

/-- LV.SAMU: elements below q by rejection; what is drawn for one is not stated (log entry 15). -/
def execLvSamu (j m ld ls : Nat) (s : State) : Host.Outcome State Fault Refusal :=
  .next (engineStep s j (lvW 0x0A m ld ls) fun e => doLv e true [ld % 8] fun e =>
    let h := e.hash
    if h.tagged then .halt .taint
    else if h.busy then .halt .stall
    else match freeNats (e.r.cur.lvN + 1) e.s with
      | (xs, s) =>
        let e := { e with s := s }.setHash (h.squeezeBy (xs.headD 0))
        lvDone e (ld % 8) ((xs.drop 1).map (· % e.r.cur.vq.toNat)) false)

/-- Bit `i` of a byte string. -/
def streamBit (b : Bytes) (i : Nat) : Nat := byteAt b (i / 8) / 2 ^ (i % 8) % 2

/-- Number of ones in bits `i` to `i + n − 1`. -/
def onesIn (b : Bytes) (i n : Nat) : Nat := ((List.range n).map fun k => streamBit b (i + k)).sum

/-- A centred-binomial element from bits `i` on; the form of a negative one is not stated (log entry 15). -/
def cbdElem (w q eta : Nat) (b : Bytes) (i : Nat) : Nat :=
  let x := onesIn b i eta
  let y := onesIn b (i + eta) eta
  if y ≤ x then x - y else Config.negSample w q (y - x)

/-- LV.SAMCBD: exactly 2·η bits of the selected hash state for each element. -/
def execLvSamcbd (j m ld ls : Nat) (s : State) : Host.Outcome State Fault Refusal :=
  .next (engineStep s j (lvW 0x0B m ld ls) fun e => doLv e false [ld % 8] fun e => popPlain e fun e eta =>
    let h := e.hash
    let a := e.r.cur
    let n := a.lvN
    let len := (2 * eta * n + 7) / 8
    if h.busy then .halt .stall
    else if (eta = 2 ∨ eta = 3) && h.squeeze && h.defined then
      let b := h.outAt h.squeezed len
      lvDone (e.setHash (h.squeezeBy len)) (ld % 8)
        ((List.range n).map fun i => cbdElem a.lvWidth a.vq.toNat eta b (2 * eta * i)) h.tagged
    else match freeNats n e.s with
      | (xs, s) => lvDone { e with s := s } (ld % 8) xs h.tagged)

/-! ### Moves, logic, comparison -/

/-- LV.CMOV: ( c -- ). -/
def execLvCmov (j m ld ls : Nat) (s : State) : Host.Outcome State Fault Refusal :=
  .next (engineStep s j (lvW 0x0C m ld ls) fun e => doLv e false [ld % 8, ls % 8] fun e =>
    match e.r.cur.ds with
    | c :: rest =>
      let a := e.r.cur
      lvDone (e.arch fun a => { a with ds := rest }) (ld % 8)
        (if c.v = 0 then lvElems a (ld % 8) else lvElems a (ls % 8))
        (groupTag a (ld % 8) || groupTag a (ls % 8) || c.tag)
    | [] => .halt .stack)

/-- LV.PERM: bit reversal, interleave, de-interleave, rotate; where each element goes is not stated (log entry 15). -/
def lvPerm (e : Eng) (m r ld ls : Nat) : Ev :=
  let a := e.r.cur
  let xs := (lvElems a ld).take a.lvN
  let ys := (lvElems a ls).take a.lvN
  lvDone e ld ((List.range a.lvN).map fun i => Config.permElem m r xs ys i) (groupTag a ld || groupTag a ls)

/-- LV.PERM; MOD 3 pops the count, which must be untagged. -/
def execLvPerm (j m ld ls : Nat) (s : State) : Host.Outcome State Fault Refusal :=
  .next (engineStep s j (lvW 0x0D m ld ls) fun e => doLv e false [ld % 8, ls % 8] fun e =>
    if m % 4 = 3 then popPlain e fun e r => lvPerm e 3 r (ld % 8) (ls % 8)
    else lvPerm e (m % 4) 0 (ld % 8) (ls % 8))

/-- An element as an integer, signed when asked. -/
def elemInt (w : Nat) (signed : Bool) (x : Nat) : Int := if signed && 2 ^ (w - 1) ≤ x then (x : Int) - 2 ^ w else x

/-- Push a 64-bit sum, low word first. -/
def pushSum (e : Eng) (v : Nat) (tag : Bool) : Ev :=
  onStack e fun st => .ok ({ v := BitVec.ofNat 32 (v / 2 ^ 32), tag := tag } :: { v := BitVec.ofNat 32 v, tag := tag } :: st)

/-- A sum of a function of the differences over the elements that take part (R310). -/
def lvSum (e : Eng) (m ld ls : Nat) (g : Nat → Nat) : Ev :=
  doLv e false [ld, ls] fun e =>
    let a := e.r.cur
    let d (x y : Nat) : Nat := (elemInt a.lvWidth (m % 2 == 1) x - elemInt a.lvWidth (m % 2 == 1) y).natAbs
    pushSum e (((List.zipWith d (lvElems a ld) (lvElems a ls)).take a.lvN).map g).sum (groupTag a ld || groupTag a ls)

/-- LV.SAD.  A comparison is evaluated twice; a disagreement raises the glitch alarm and ends the job (R373, R375). -/
def execLvSad (j m ld ls : Nat) (u : Upset) (s : State) : Host.Outcome State Fault Refusal :=
  .next (engineStep s j (lvW 0x0E m ld ls) fun e =>
    if u == .glitch then
      .finish { e with s := glitchAlarm e.s e.j.inst e.j.opcode (unitId 0 e.j.engine) } (errR 0x0600 0x71)
    else lvSum e m (ld % 8) (ls % 8) id)

/-- LV.SSD. -/
def execLvSsd (j m ld ls : Nat) (s : State) : Host.Outcome State Fault Refusal :=
  .next (engineStep s j (lvW 0x0F m ld ls) fun e => lvSum e m (ld % 8) (ls % 8) fun d => d * d)

/-- LV.OVB. -/
def execLvOvb (j m ld ls : Nat) (s : State) : Host.Outcome State Fault Refusal :=
  .next (engineStep s j (lvW 0x10 m ld ls) fun e => doLv e true [ld % 8, ls % 8] fun e =>
    let a := e.r.cur
    let q := a.vq.toNat
    let over' (x : Nat) : Nat := b2n (decide (a.vbound.toNat ≤ min (x % q) (q - x % q)))
    lvDone e (ld % 8) ((lvElems a (ls % 8)).map over') (groupTag a (ls % 8)))

/-- LV.MOV. -/
def execLvMov (j m ld ls : Nat) (s : State) : Host.Outcome State Fault Refusal :=
  .next (engineStep s j (lvW 0x11 m ld ls) fun e => doLv e false [ld % 8, ls % 8] fun e =>
    lvDone e (ld % 8) (lvElems e.r.cur (ls % 8)) (groupTag e.r.cur (ls % 8)))

/-- LV.ZERO: LS must be 0. -/
def execLvZero (j m ld ls : Nat) (s : State) : Host.Outcome State Fault Refusal :=
  .next (engineStep s j (lvW 0x12 m ld ls) fun e =>
    if ls % 8 != 0 then .halt .illegal else doLv e false [ld % 8] fun e =>
      lvDone e (ld % 8) (List.replicate e.r.cur.lvN 0) false)

/-- LV.LOGIC. -/
def execLvLogic (j m ld ls : Nat) (s : State) : Host.Outcome State Fault Refusal :=
  .next (engineStep s j (lvW 0x13 m ld ls) fun e => doLv e false [ld % 8, ls % 8] fun e =>
    lvMap2 e (ld % 8) (ls % 8) fun x y =>
      match m % 4 with
      | 0 => x &&& y
      | 1 => x ||| y
      | 2 => x ^^^ y
      | _ => x - (x &&& y))

/-- LV.ADD: MOD 0 add, 1 subtract. -/
def execLvAdd (j m ld ls : Nat) (s : State) : Host.Outcome State Fault Refusal :=
  .next (engineStep s j (lvW 0x14 m ld ls) fun e =>
    if 2 ≤ m % 4 then .halt .illegal else doLv e false [ld % 8, ls % 8] fun e =>
      let w := e.r.cur.lvWidth
      lvMap2 e (ld % 8) (ls % 8) fun x y => if m % 4 = 0 then x + y else x + 2 ^ w - y)

end Sys2Proof.Machine
end

