-- ==== Sys2Proof/Machine/Admin.lean ====
section
/-! DEFINITION. The admin queues (R94 to R99): taking a command from the ring, the refusals every command shares, and its
completion entry. -/

namespace Sys2Proof.Machine

/-! ### Replies -/

/-- How an admin command ends: STATUS, DETAIL, RESULT, and what its CE waits for. -/
structure Reply where
  status : Nat
  detail : Nat
  result : Nat
  wait : AdminWait
  deriving DecidableEq, Repr, Inhabited

def aOk (result : Nat) : Reply := ⟨0, 0, result, .done⟩
/-- INPUT_RANGE, with the byte offset of the offending field (R97). -/
def aRange (off : Nat) : Reply := ⟨0x0303, off, 0, .done⟩
/-- STATE_REJECTED (Table 4.3). -/
def aState (detail : Nat) : Reply := ⟨0x0701, detail, 0, .done⟩
/-- The CE comes under the command's own rule. -/
def aLater : Reply := ⟨0, 0, 0, .later⟩

/-- The first refusal that holds (R97). -/
def firstReply : List (Bool × Reply) → Option Reply
  | [] => none
  | (true, r) :: _ => some r
  | (false, _) :: rs => firstReply rs

/-- Parameter fields of a command: byte offset, length, and whether the value is out of range.  The offset of the first
offending byte of 8 to 63, named or reserved (R97). -/
def scanParams (se : Bytes) (fields : List (Nat × Nat × Bool)) : Option Nat :=
  (List.range' 8 56).find? fun o =>
    fields.any (fun f => f.1 == o && f.2.2) ||
      (fields.all (fun f => decide (o < f.1) || decide (f.1 + f.2.1 ≤ o)) && byteAt se o != 0)

/-- Parameter ranges and reserved parameter bytes as a refusal. -/
def scanReply (se : Bytes) (fields : List (Nat × Nat × Bool)) : List (Bool × Reply) :=
  match scanParams se fields with
  | some o => [(true, aRange o)]
  | none => []

/-! ### The admin rings (R94, R57) -/

/-- Admin opcodes (Table 4.4). -/
def adminOps : List Nat :=
  [0x80, 0x81, 0x82, 0x83, 0x84, 0x85, 0x86, 0x87, 0x88, 0x89, 0x8A, 0x8B, 0x8C, 0x8D, 0x8E, 0x90, 0x91, 0x94, 0x95, 0x96,
   0x98, 0x99] ++ [0xA0, 0xA1, 0xA2, 0xA3, 0xA4, 0xA5, 0xA6, 0xA7, 0xA8]

/-- Commands of a port that have no CE. -/
def cmdsOf (s : State) (p : Nat) : List AdminCmd := s.adm.cmds.filter (·.port == p)

/-- May the steward take a command from an admin ring: booted, in use, a command published, a credit of the admin CQ free,
the steward pair not in a lockstep reset (R94, R97, R82), the AF allowed to master its bus (R481)? -/
def adminReady (s : State) (p : Nat) : Bool :=
  let a := (s.port p).admq
  decide (p < 4) && s.pins.boot == 8 && a.running && a.enable && a.sq.state == .active && decide (0 < a.sq.published)
    && decide ((cmdsOf s p).length + a.cq.posted.length + a.cq.heldCes.length < ringN a.cq.log2n)
    && !s.stw.resetting && s.busMaster.contains (p * 256)

/-- A malformed admin entry stops the admin SQ (R78, R95). -/
def adminFail (s : State) (p reason index : Nat) : State :=
  let s := s.updPort p fun x => { x with admq.sq := sqFail x.admq.sq reason index, admq.cq.errorIntr := true,
                                                admq.cq.errorAt := now s + 1 }
  emit s 0x0102 (p * 256) 0 (0x0100 * 65536 + reason)

/-- The REASON for which an admin entry stops the queue (R95). -/
def adminMalformed (se : Bytes) : Option Nat :=
  if !adminOps.contains (byteAt se 0) then some rUnknownOp
  else if !(bit (byteAt se 1) 0 && bit (byteAt se 1) 1) then some rChainBroken
  else if bits (byteAt se 1) 7 2 != 0 then some rBadFlags
  else none

/-- Take the command at the head of an admin ring, whose 64 bytes are `se`; `sel` says whether it is the row's. -/
def adminTake (s : State) (p : Nat) (se : Bytes) (sel : Bytes → Bool) : State × Bool :=
  if !adminReady s p then (s, false) else
  let q := (s.port p).admq.sq
  let n := ringN q.log2n
  match transRange s (p * 256) (q.slotAddr q.head) 64 false 0 false with
  | (s, none) => (adminFail s p rRingRead (q.head % n), false)
  | (s, some _) =>
    match adminMalformed se with
    | some r => (adminFail s p r (q.head % n), false)
    | none =>
      if sel se then (s.updPort p fun x => { x with admq.sq.head := (q.head + 1) % (2 * n) }, true) else (s, false)

/-- Run a command: taken, executed, journalled until its CE (R97).  The command's number is `s.adm.nextRef`. -/
def adminRow (p : Nat) (se : Bytes) (sel : Bytes → Bool) (body : State → State × Reply) (s : State) : State :=
  match adminTake s p se sel with
  | (s, false) => s
  | (s, true) =>
    let ref := s.adm.nextRef
    let (t, r) := body s
    let c : AdminCmd := ⟨ref, p, leAt se 2 2, r.status, r.detail, r.result, now s + 1, r.wait⟩
    { t with adm.nextRef := ref + 1, adm.cmds := t.adm.cmds ++ [c] }

/-- Selects a row by its opcode. -/
def opIs (op : Nat) (se : Bytes) : Bool := byteAt se 0 == op

/-! ### Shared refusals (R97) -/

/-- TARGET. -/
def targetOf (se : Bytes) : Nat := leAt se 4 2

/-- Items 1 to 5 of R97: safe state or power-fail stop, primacy, header bytes, TARGET. -/
def baseChecks (s : State) (p : Nat) (se : Bytes) (primary usesTarget safeOk : Bool) : List (Bool × Reply) :=
  [ ((s.faults.safe || s.stopped) && !safeOk, aState 0x30),
    (primary && s.adm.primary != p, aState 0x02),
    (byteAt se 6 != 0 || byteAt se 7 != 0, aRange 0x06),
    (usesTarget && bits (targetOf se) 15 10 != 0, aRange 0x04),
    (usesTarget && adminPort s (targetOf se % 1024) != p, aState 0x01) ]

/-- The refusals after a completed transition (R428) and in transition recovery (R431). -/
def lifeChecks (s : State) (doneOk recoveryOk : Bool) : List (Bool × Reply) :=
  [ (s.life.done && !doneOk, aState 0x43), (s.life.pending.isSome && !recoveryOk, aState 0x40) ]

/-- A command on no instance: its refusals in order, then its effect. -/
def adminCmd (p : Nat) (se : Bytes) (sel : Bytes → Bool) (primary : Bool) (own : State → List (Bool × Reply))
    (run : State → State × Reply) (s : State) : State :=
  adminRow p se sel (fun s =>
    match firstReply (baseChecks s p se primary false false ++ lifeChecks s false false ++ own s) with
    | some r => (s, r)
    | none => run s) s

/-! ### Output and input (R99) -/

/-- OUT_ADDR and OUT_LEN. -/
def outAddrOf (se : Bytes) : Nat := leAt se 8 8
def outLenOf (se : Bytes) : Nat := leAt se 16 4

/-- OUTPUT_TOO_SMALL with the required length. -/
def aSmall (need : Nat) : Reply := ⟨0x0104, 0, need, .done⟩

/-- Write a command's output into the issuing AF's space. -/
def adminOutput (s : State) (p : Nat) (se out : Bytes) : State × Reply :=
  if outLenOf se < out.length then (s, aSmall out.length)
  else match hostWrite s (p * 256) (outAddrOf se) out 6 with
    | (s, true) => (s, aOk out.length)
    | (s, false) => (s, ⟨0x0103, 0x04, 0, .done⟩)

/-! ### Completion (R96, R97) -/

/-- The CE of a command, with PHASE 0. -/
def adminCe (s : State) (c : AdminCmd) : HeldCe :=
  let q := (s.port c.port).admq.sq
  { id := c.ref, sq := 0, sprint := false,
    body := ceBytes c.tag c.status c.result 0 (q.head % ringN q.log2n) (sat 0xFFFF (now s - c.accepted)) c.detail 0 }

/-- Post a command's CE in its admin CQ; one whose write fails is held, and the admin SQ with it.  DESIGN CHOICE (log entry
54): R57 does not list R85 among the rules that admin queues obey, R94 has the usual rules apply to their CEs. -/
def postAdmin (s : State) (c : AdminCmd) : State :=
  let s := { s with adm.cmds := s.adm.cmds.filter (·.ref != c.ref) }
  let q := (s.port c.port).admq.cq
  let ce := adminCe s c
  let hold (s : State) : State := s.updPort c.port fun x => { x with admq.cq.heldCes := x.admq.cq.heldCes ++ [ce] }
  if !(s.port c.port).admq.running then s
  else if q.state == .error && q.reason == rCqWrite then hold s
  else match writeCe s q ce with
    | (s, some q') => s.updPort c.port fun x => { x with admq.cq := q' }
    | (s, none) => hold (s.updPort c.port fun x => { x with
        admq.cq.state := .error, admq.cq.reason := rCqWrite, admq.cq.errIndex := q.tail % ringN q.log2n,
        admq.sq.state := if x.admq.sq.state == .active then .held else x.admq.sq.state })

/-- The commands of every port whose CE is due at the boundary, in the order in which they were accepted. -/
def dueCmds (s : State) : List AdminCmd := s.adm.cmds.filter fun c => c.wait == .done && decide (c.accepted ≤ now s)

/-- A queue that is being disabled stops once its last command has its CE; its registers stay locked to the next boundary
(R94). -/
def stopAdmq (s : State) (p : Nat) : State :=
  let a := (s.port p).admq
  if a.running && !a.enable && (cmdsOf s p).isEmpty then
    s.updPort p fun x => { x with admq.running := false, admq.lockedUntil := some (now s + 1) }
  else s

/-- Step 4 for the admin queues. -/
def postAdmins (s : State) : State :=
  let s := (dueCmds s).foldl postAdmin s
  (List.range 4).foldl stopAdmq s

/-- Complete a command that waits under its own rule. -/
def finishCmd (s : State) (ref : Nat) (r : Reply) : State :=
  let fin (c : AdminCmd) : AdminCmd := ⟨c.ref, c.port, c.tag, r.status, r.detail, r.result, c.accepted, r.wait⟩
  { s with adm.cmds := updWhere (·.ref == ref) fin s.adm.cmds }

end Sys2Proof.Machine
end

