-- ==== Sys2Proof/Machine/Instances.lean ====
section
/-! DEFINITION. Queues, instances, address translation and dirty logs under admin commands (R100 to R119). -/

namespace Sys2Proof.Machine

/-! ### Authority over an instance (R97 item 6, R113) -/

/-- Is a function enabled under SR-IOV (R480)?  An AF always is. -/
def vfEnabled (s : State) (inst : Nat) : Bool :=
  inst % 256 == 0 || ((s.port (portOf inst)).vfEnable && decide (inst % 256 ≤ (s.port (portOf inst)).numVfs))

/-- Is a function the second face of a port pair (R120)? -/
def secondFace (s : State) (inst : Nat) : Bool := inst % 256 != 0 && s.adm.pairs.any fun p => p.2.1 == portOf inst

/-- State of an instance; one that was never created is NONE. -/
def instState (s : State) (inst : Nat) : InstState := ((s.inst? inst).map (·.state)).getD .absent

/-- The states of Table 4.8 in which most instance commands are accepted. -/
def liveState (x : InstState) : Bool := x != .absent

/-- An instance command: the refusals of R97 in order, its own state refusals `own` and parameter fields, then its effect on
the instance that TARGET names. -/
def instCmd (p : Nat) (se : Bytes) (sel : Bytes → Bool) (create ownAf : Bool) (okState : InstState → Bool)
    (own : State → Nat → List (Bool × Reply)) (fields : State → Nat → List (Nat × Nat × Bool))
    (run : State → Nat → State × Reply) (s : State) : State :=
  adminRow p se sel (fun s =>
    let i := targetOf se % 1024
    let off := !vfEnabled s i && (create || instState s i == .absent)
    match firstReply (baseChecks s p se false true false ++
        [ (ownAf && i % 256 == 0, aState 0x12), (off, aState 0x11), (secondFace s i, aState 0x26),
          (!okState (instState s i), aState 0x10) ] ++ lifeChecks s false false ++ own s i) with
    | some r => (s, r)
    | none => match scanParams se (fields s i) with
      | some o => (s, aRange o)
      | none => run s i) s

/-- A command that any existing instance accepts. -/
def liveCmd (p : Nat) (se : Bytes) (op : Nat) (own : State → Nat → List (Bool × Reply))
    (fields : State → Nat → List (Nat × Nat × Bool)) (run : State → Nat → State × Reply) (s : State) : State :=
  instCmd p se (opIs op) false false liveState own fields run s

/-! ### Queues (R100, R101) -/

def sqsOf (s : State) (i : Nat) : List Sq := s.work.sqs.filter (·.inst == i)
def cqsOf (s : State) (i : Nat) : List Cq := s.work.cqs.filter (·.inst == i)

/-- QUEUE_LIMIT, then the device total (R104, R55). -/
def roomChecks (s : State) (i mine total : Nat) : List (Bool × Reply) :=
  [ (decide (((s.inst? i).map (·.queueLimit)).getD 0 ≤ mine), aState 0x20), (decide (4096 ≤ total), aState 0x21) ]

/-- The state a working queue of an instance takes: QUIESCED while the instance stops or stands (R114). -/
def restState (s : State) (i : Nat) : QState := if instState s i == .active then .active else .quiesced

/-- The state of an SQ that is not in ERROR: HELD while its CQ is in ERROR (R79, R85). -/
def heldOrRest (s : State) (i cq : Nat) : QState :=
  match s.cq? i cq with
  | some c => if c.state == .error then .held else restState s i
  | none => restState s i

/-- The 0xFF pre-fill of every OPCODE byte under READ_AHEAD: the first slot that fails puts the SQ in ERROR (R66). -/
def prefill (s : State) (i q : Nat) : State :=
  match s.sq? i q with
  | none => s
  | some x => if x.readAhead && x.state != .error then
      markSlots s i q x.base (ringN x.log2n) (List.range (ringN x.log2n)) else s

def sqCreate (s : State) (se : Bytes) (i : Nat) : State × Reply :=
  let q := (lowestFree 512 fun n => (s.sq? i n).isSome).getD 0
  let cq := leAt se 18 2
  let base := leAt se 8 8
  let x : Sq := { (default : Sq) with
    inst := i, num := q, base := base, log2n := byteAt se 16, weight := max 1 (byteAt se 17),
    nextWeight := max 1 (byteAt se 17), cq := cq,
    readAhead := bit (byteAt se 20) 0, state := heldOrRest s i cq }
  let x := if aligned4k base then x else sqFail x rRingAlign 0
  (prefill { s with work.sqs := s.work.sqs ++ [x] } i q, aOk q)

/-- SQ_CREATE (R100, R101, R56, R66). -/
def execSqCreate (p : Nat) (se : Bytes) (s : State) : Host.Outcome State Fault Refusal :=
  .next (liveCmd p se 0x80 (fun s i => roomChecks s i (sqsOf s i).length s.work.sqs.length)
    (fun s i => [(8, 8, false), (16, 1, decide (byteAt se 16 < 4) || decide (16 < byteAt se 16)), (17, 1, decide (16 < byteAt se 17)),
      (18, 2, (s.cq? i (leAt se 18 2)).isNone), (20, 1, decide (1 < byteAt se 20))])
    (fun s i => sqCreate s se i) s)

def cqCreate (s : State) (se : Bytes) (i : Nat) : State × Reply :=
  let q := (lowestFree 512 fun n => (s.cq? i n).isSome).getD 0
  let base := leAt se 8 8
  let x : Cq := { (default : Cq) with
    inst := i, num := q, base := base, log2n := byteAt se 16, vector := leAt se 20 2, coalCount := byteAt se 17,
    coalTicks := byteAt se 18, state := restState s i }
  let x : Cq := if aligned4k base then x else { x with state := .error, reason := rRingAlign }
  ({ s with work.cqs := s.work.cqs ++ [x] }, aOk q)

/-- CQ_CREATE (R100, R101, R56). -/
def execCqCreate (p : Nat) (se : Bytes) (s : State) : Host.Outcome State Fault Refusal :=
  .next (liveCmd p se 0x82 (fun s i => roomChecks s i (cqsOf s i).length s.work.cqs.length)
    (fun _ i => [(8, 8, false), (16, 1, decide (byteAt se 16 < 4) || decide (16 < byteAt se 16)), (17, 1, byteAt se 17 == 0),
      (18, 1, false), (20, 2, decide ((if i % 256 = 0 then 2047 else 63) < leAt se 20 2))])
    (fun s i => cqCreate s se i) s)

/-- QUEUE names no queue of the instance. -/
def noSq (s : State) (se : Bytes) (i : Nat) : Bool := (s.sq? i (leAt se 16 2)).isNone
def noCq (s : State) (se : Bytes) (i : Nat) : Bool := (s.cq? i (leAt se 16 2)).isNone

/-- SQ_DELETE: dispatch stops at once; undispatched entries are discarded; the SQ goes, and the command completes, with the
last CE of its jobs (R101). -/
def sqDelete (s : State) (i q : Nat) : State × Reply :=
  (noteDropped s (s.updSq i q fun x => { x with deleting := true, tail := x.head, copies := [] }), ⟨0, 0, 0, .sqDrain i q⟩)

/-- SQ_DELETE (R101). -/
def execSqDelete (p : Nat) (se : Bytes) (s : State) : Host.Outcome State Fault Refusal :=
  .next (liveCmd p se 0x81 (fun _ _ => []) (fun s i => [(16, 2, noSq s se i)]) (fun s i => sqDelete s i (leAt se 16 2)) s)

/-- An SQ being deleted goes once none of its jobs is without a CE; its commands are complete. -/
def sqDrained (s : State) (i q : Nat) : State :=
  match s.sq? i q with
  | none => s
  | some x =>
    let waits := s.adm.cmds.filter fun c => c.wait == .sqDrain i q && decide (c.accepted ≤ now s)
    if x.deleting && !waits.isEmpty && !(s.flying.any fun j => j.inst == i && j.sq == q) then
      waits.foldl (fun s c => finishCmd s c.ref (aOk 0))
        { s with work.sqs := s.work.sqs.filter fun y => !(y.inst == i && y.num == q) }
    else s

/-- SQ_DELETE_DRAINED (R101). -/
def execSqDeleteDrained (i q : Nat) (s : State) : Host.Outcome State Fault Refusal :=
  .next (if s.tick.running then postAdmins (sqDrained s i q) else s)

/-- CQ_DELETE (R101). -/
def execCqDelete (p : Nat) (se : Bytes) (s : State) : Host.Outcome State Fault Refusal :=
  .next (liveCmd p se 0x83
    (fun s i => [(!noCq s se i && (sqsOf s i).any (fun q => q.cq == leAt se 16 2), aState 0x24)])
    (fun s i => [(16, 2, noCq s se i)])
    (fun s i => ({ s with work.cqs := s.work.cqs.filter fun c => !(c.inst == i && c.num == leAt se 16 2) }, aOk 0)) s)

/-- Position that INDEX and LAP name. -/
def restartPos (se : Bytes) (n : Nat) : Nat := pos n (leAt se 18 2) (byteAt se 20 % 2)

/-- SQ_RESTART on an SQ: empty at the new position, its error cleared; nothing but deletion clears RING_ALIGN (R56, R79). -/
def sqRestart (s : State) (se : Bytes) (i q : Nat) : State :=
  match s.sq? i q with
  | none => s
  | some x =>
    if !aligned4k x.base then s else
    let np := restartPos se (ringN x.log2n)
    prefill (noteDropped s (s.updSq i q fun y => { y with
      head := np, tail := np, copies := [], reason := 0, errIndex := 0, waited := 0, state := heldOrRest s i y.cq })) i q

/-- SQ_RESTART (R79, R101). -/
def execSqRestart (p : Nat) (se : Bytes) (s : State) : Host.Outcome State Fault Refusal :=
  .next (liveCmd p se 0x84
    (fun s i => [(((s.sq? i (leAt se 16 2)).map fun q => q.state != .error).getD false, aState 0x25)])
    (fun s i => [(16, 2, noSq s se i),
      (18, 2, ((s.sq? i (leAt se 16 2)).map fun q => decide (ringN q.log2n ≤ leAt se 18 2)).getD false),
      (20, 1, decide (1 < byteAt se 20))])
    (fun s i => (sqRestart s se i (leAt se 16 2), aOk 0)) s)

/-- Is the named head outside the range from the last accepted head to the tail (R79)? -/
def badHead (se : Bytes) (c : Cq) : Bool :=
  let n := ringN c.log2n
  decide (n ≤ leAt se 18 2) || decide (dist n c.tail c.head < dist n (restartPos se n) c.head)

/-- CQ_RESTART on a CQ: its head, its SQs out of HELD; the CEs it held are posted at the next boundary (R79). -/
def cqRestart (s : State) (se : Bytes) (i c : Nat) : State :=
  match s.cq? i c with
  | none => s
  | some x =>
    if !aligned4k x.base then s else
    let n := ringN x.log2n
    let np := restartPos se n
    let s := s.updCq i c fun y => { y with
      posted := y.posted.drop (dist n np y.head), head := np, reason := 0, errIndex := 0, state := restState s i }
    { s with
      work.sqs := updWhere (fun q => q.inst == i && q.cq == c && q.state == .held)
        (fun q => { q with state := restState s i }) s.work.sqs }

/-- CQ_RESTART (R79, R101). -/
def execCqRestart (p : Nat) (se : Bytes) (s : State) : Host.Outcome State Fault Refusal :=
  .next (liveCmd p se 0x85
    (fun s i => [(((s.cq? i (leAt se 16 2)).map fun c => c.state != .error).getD false, aState 0x25)])
    (fun s i => [(16, 2, noCq s se i), (18, 2, ((s.cq? i (leAt se 16 2)).map (badHead se)).getD false),
      (20, 1, decide (1 < byteAt se 20))])
    (fun s i => (cqRestart s se i (leAt se 16 2), aOk 0)) s)

/-- A change that waits for step 2 of the next boundary. -/
def addChange (s : State) (c : Change) : State := { s with adm.changes := s.adm.changes ++ [c] }

/-- CQ_MODIFY (R52, R101). -/
def execCqModify (p : Nat) (se : Bytes) (s : State) : Host.Outcome State Fault Refusal :=
  .next (liveCmd p se 0x86 (fun _ _ => [])
    (fun s i => [(16, 2, noCq s se i), (18, 1, byteAt se 18 == 0), (19, 1, false)])
    (fun s i => (addChange s (.cqCoal i (leAt se 16 2) (byteAt se 18) (byteAt se 19)), aOk 0)) s)

/-- SQ_MODIFY (R52, R101). -/
def execSqModify (p : Nat) (se : Bytes) (s : State) : Host.Outcome State Fault Refusal :=
  .next (liveCmd p se 0x87 (fun _ _ => [])
    (fun s i => [(16, 2, noSq s se i), (18, 1, byteAt se 18 == 0 || decide (16 < byteAt se 18))])
    (fun s i => (addChange s (.sqWeight i (leAt se 16 2) (byteAt se 18)), aOk 0)) s)

/-! ### Instances (R102 to R105) -/

/-- Is the field of a mask bit given? -/
def maskOn (se : Bytes) (create : Bool) (b : Nat) : Bool := create || bit (byteAt se 8) b

/-- The fields of Table 4.6; those whose MASK bit is clear are not checked. -/
def resourceFields (se : Bytes) (create : Bool) : List (Nat × Nat × Bool) :=
  let f (off len b : Nat) (bad : Bool) : Nat × Nat × Bool := (off, len, maskOn se create b && bad)
  let w (off : Nat) : Nat := leAt se off 2
  [ (8, 1, !create && decide (63 < byteAt se 8)), f 16 2 0 (w 16 == 0 || decide (1024 < w 16)),
    f 18 2 1 (w 18 == 0 || decide (4096 < w 18)), f 20 2 2 (w 20 == 0 || decide (512 < w 20)),
    f 22 1 3 (decide (63 < byteAt se 22)), f 24 4 4 (decide (262144 < leAt se 24 4)),
    f 28 4 5 (decide (131072 < leAt se 28 4)) ]

/-- CTX_QUOTA and KEY_QUOTA of every other instance. -/
def otherQuotas (s : State) (i : Nat) (f : Inst → Nat) : Nat := ((s.insts.filter (·.id != i)).map f).sum

/-- Quotas below current use, to which the reservations of jobs in flight count (R243), then the device sums (R103, R104). -/
def quotaChecks (s : State) (se : Bytes) (i : Nat) (create : Bool) : List (Bool × Reply) :=
  let ctx := leAt se 24 4
  let key := leAt se 28 4
  let onC := maskOn se create 4
  let onK := maskOn se create 5
  [ (!create && ((onC && decide (ctx < ctxsOwned s i + ctxsReserved s i))
      || (onK && decide (key < keysOwned s i + keysReserved s i))), aState 0x23),
    ((onC && decide (262144 < otherQuotas s i (·.ctxQuota) + ctx))
      || (onK && decide (131072 < otherQuotas s i (·.keyQuota) + key)), aState 0x22) ]

/-- A new instance with the resources of the command: DATU OFF, a full token bucket (R87, R106). -/
def newInst (se : Bytes) (i : Nat) : Inst :=
  { (default : Inst) with
    id := i, state := .active, engineWeight := leAt se 16 2, nextWeight := leAt se 16 2, inflightLimit := leAt se 18 2, queueLimit := leAt se 20 2,
    sprintRate := byteAt se 22, ctxQuota := leAt se 24 4, keyQuota := leAt se 28 4, tokens := 4 * byteAt se 22, width := 39,
    mode := .off }

/-- INSTANCE_CREATE (R102, R103). -/
def execInstanceCreate (p : Nat) (se : Bytes) (s : State) : Host.Outcome State Fault Refusal :=
  .next (instCmd p se (opIs 0x88) true false (· == .absent) (fun s i => quotaChecks s se i true)
    (fun _ _ => resourceFields se true)
    (fun s i => ({ s with insts := s.insts.filter (·.id != i) ++ [newInst se i] }, aOk 0)) s)

/-- A masked field's value. -/
def maskedVal (se : Bytes) (b off len : Nat) : Option Nat := if maskOn se false b then some (leAt se off len) else none

def setResources (s : State) (se : Bytes) (i : Nat) : State × Reply :=
  let s := s.updInst i fun x => { x with
    queueLimit := (maskedVal se 2 20 2).getD x.queueLimit, ctxQuota := (maskedVal se 4 24 4).getD x.ctxQuota,
    keyQuota := (maskedVal se 5 28 4).getD x.keyQuota }
  (addChange s (.sched i (maskedVal se 0 16 2) (maskedVal se 1 18 2) (maskedVal se 3 22 1)), aOk 0)

/-- INSTANCE_SET_RESOURCES (R102 to R104, R52). -/
def execInstanceSetResources (p : Nat) (se : Bytes) (s : State) : Host.Outcome State Fault Refusal :=
  .next (liveCmd p se 0x8D (fun s i => quotaChecks s se i false) (fun _ _ => resourceFields se false)
    (fun s i => setResources s se i) s)

def InstState.code : InstState → Nat
  | .absent => 0 | .active => 1 | .quiescing => 2 | .quiesced => 3

def DatuMode.code : DatuMode → Nat
  | .off => 0 | .translate => 1 | .bypass => 2

/-- Is dirty logging running for an instance? -/
def Inst.logging (x : Inst) : Bool := (x.dirty.map (·.running)).getD false

/-- The 48 bytes of Table 4.9. -/
def instBytes (s : State) (x : Inst) : Bytes :=
  let paired := x.id % 256 != 0 && s.adm.pairs.any fun q => q.1 == portOf x.id
  leBytes 1 x.state.code ++ leBytes 1 (b2n paired + 2 * b2n x.logging) ++ leBytes 2 x.nextWeight
    ++ leBytes 2 x.inflightLimit ++ leBytes 2 (inFlight s x.id) ++ leBytes 2 x.queueLimit
    ++ leBytes 2 (sqsOf s x.id).length ++ leBytes 2 (cqsOf s x.id).length ++ leBytes 1 x.sprintRate ++ zeros 1
    ++ leBytes 4 x.ctxQuota ++ leBytes 4 (ctxsOwned s x.id) ++ leBytes 4 x.keyQuota ++ leBytes 4 (keysOwned s x.id)
    ++ leBytes 8 x.root ++ leBytes 1 x.width ++ leBytes 1 x.mode.code ++ zeros 6

/-- INSTANCE_GET (R105). -/
def execInstanceGet (p : Nat) (se : Bytes) (s : State) : Host.Outcome State Fault Refusal :=
  .next (liveCmd p se 0x8E (fun _ _ => []) (fun _ _ => [(8, 12, false)])
    (fun s i => adminOutput s p se (instBytes s ((s.inst? i).getD default))) s)

/-! ### Address translation (R106 to R109) -/

/-- DATU_SET_ROOT: the cached translations of the instance go (R109). -/
def setRoot (s : State) (se : Bytes) (i : Nat) : State :=
  let m := byteAt se 17
  { (s.updInst i fun x => { x with
      root := leAt se 8 8, width := byteAt se 16,
      mode := if m = 0 then .off else if m = 1 then .translate else .bypass }) with
    tlb := s.tlb.filter (·.inst != i) }

/-- DATU_SET_ROOT (R106, R109). -/
def execDatuSetRoot (p : Nat) (se : Bytes) (s : State) : Host.Outcome State Fault Refusal :=
  .next (liveCmd p se 0x90 (fun s i => [(!(sqsOf s i).isEmpty || !(cqsOf s i).isEmpty, aState 0x27)])
    (fun _ i => [(8, 8, false), (16, 1, decide (byteAt se 16 < 39) || decide (48 < byteAt se 16)),
      (17, 1, decide (2 < byteAt se 17) || (byteAt se 17 == 2 && i % 256 != 0))])
    (fun s i => (setRoot s se i, aOk 0)) s)

/-- DATU_INVALIDATE: every cached page that overlaps the range, and every held SE copy read from it, goes (R108). -/
def invalidate (s : State) (i iova pages : Nat) : State :=
  let hit (a n : Nat) : Bool := pages == 0 || (decide (a < iova + pages * 4096) && decide (iova < a + n))
  noteDropped s { s with
    tlb := s.tlb.filter fun l => !(l.inst == i && hit l.page (2 ^ l.log2)),
    work.sqs := updWhere (·.inst == i)
      (fun q => { q with copies := q.copies.filter fun c => !hit (q.slotAddr c.pos) 64 }) s.work.sqs }

/-- DATU_INVALIDATE (R108). -/
def execDatuInvalidate (p : Nat) (se : Bytes) (s : State) : Host.Outcome State Fault Refusal :=
  .next (liveCmd p se 0x91 (fun _ _ => []) (fun _ _ => [(8, 8, leAt se 8 8 % 4096 != 0), (16, 4, false)])
    (fun s i => (invalidate s i (leAt se 8 8) (leAt se 16 4), aOk 0)) s)

/-! ### Dirty logging (R110 to R112) -/

/-- Has the instance an open log: started and not stopped? -/
def logOpen (s : State) (i : Nat) : Bool := ((s.inst? i).map (·.dirty.isSome)).getD false

/-- RESULT of a harvest or a stop: CLOSED, LOST, OUT_OF_RANGE (R112). -/
def logResult (x : Inst) : Nat :=
  match x.dirty with
  | some d => b2n d.onB + 2 * b2n (d.lost || x.dirtyLost) + 4 * b2n d.outOfRange
  | none => 0

/-- DIRTY_LOG_START (R110): logging into A from the next boundary. -/
def execDirtyLogStart (p : Nat) (se : Bytes) (s : State) : Host.Outcome State Fault Refusal :=
  .next (liveCmd p se 0x94 (fun s i => [(((s.inst? i).map Inst.logging).getD false, aState 0x28)])
    (fun _ _ => [(8, 8, leAt se 8 8 % 8 != 0), (16, 8, leAt se 16 8 % 8 != 0), (24, 8, leAt se 24 8 % 4096 != 0),
      (32, 4, decide (leAt se 32 4 < 64) || decide (268435456 < leAt se 32 4) || leAt se 32 4 % 64 != 0)])
    (fun s i =>
      let d : DirtyLog := ⟨true, false, leAt se 8 8, leAt se 16 8, leAt se 24 8, leAt se 32 4, false, false, p * 256, now s + 1⟩
      (s.updInst i fun x => { x with dirty := some d, dirtyLost := false }, aOk 0)) s)

/-- The change-over of a harvest, at step 2 of the boundary. -/
def harvest (s : State) (ref i : Nat) : State :=
  let r := ((s.inst? i).map logResult).getD 0
  finishCmd (s.updInst i fun x => { x with
    dirty := x.dirty.map fun d => { d with onB := !d.onB, outOfRange := false } }) ref (aOk r)

/-- The harvests of an instance that wait for the boundary, carried out now: a stop ends the writes they would still have
seen (log entry 54). -/
def harvestNow (s : State) (i : Nat) : State :=
  let mine (c : Change) : Option Nat := match c with
    | .harvest ref k => if k = i then some ref else none
    | _ => none
  (s.adm.changes.filterMap mine).foldl (fun s ref => harvest s ref i)
    { s with adm.changes := s.adm.changes.filter fun c => (mine c).isNone }

/-- DIRTY_LOG_STOP (R112): the log closes; RESULT reports its active bitmap, after the harvests accepted before it. -/
def execDirtyLogStop (p : Nat) (se : Bytes) (s : State) : Host.Outcome State Fault Refusal :=
  .next (liveCmd p se 0x95 (fun s i => [(!logOpen s i, aState 0x28)]) (fun _ _ => [])
    (fun s i =>
      let s := harvestNow s i
      (s.updInst i fun x => { x with dirty := none }, aOk (((s.inst? i).map logResult).getD 0))) s)

/-- DIRTY_LOG_HARVEST (R112): the bitmaps change over at the next boundary. -/
def execDirtyLogHarvest (p : Nat) (se : Bytes) (s : State) : Host.Outcome State Fault Refusal :=
  .next (liveCmd p se 0x96 (fun s i => [(!logOpen s i, aState 0x28)]) (fun _ _ => [])
    (fun s i => (addChange s (.harvest s.adm.nextRef i), aLater)) s)

/-! ### Stopping an instance (R113 to R116) -/

/-- An action that waits for step 3 of the next boundary. -/
def addAbort (s : State) (a : Abort) : State := { s with adm.aborts := s.adm.aborts ++ [a] }

/-- INSTANCE_QUIESCE (R114): applied at step 3 of the next boundary; complete at once while QUIESCED. -/
def execInstanceQuiesce (p : Nat) (se : Bytes) (s : State) : Host.Outcome State Fault Refusal :=
  .next (liveCmd p se 0x89 (fun _ _ => []) (fun _ _ => [(8, 1, decide (1 < byteAt se 8))])
    (fun s i => if instState s i == .quiesced then (s, ⟨0x0501, 0, 0, .done⟩)
      else (addAbort s (.quiesce s.adm.nextRef i (byteAt se 8 == 1)), ⟨0x0501, 0, 0, .quiesce i⟩)) s)

/-- JOB_ABORT (R116). -/
def execJobAbort (p : Nat) (se : Bytes) (s : State) : Host.Outcome State Fault Refusal :=
  .next (liveCmd p se 0x98 (fun _ _ => [])
    (fun s i => [(8, 2, (s.sq? i (leAt se 8 2)).isNone), (10, 2, false), (12, 1, decide (1 < byteAt se 12))])
    (fun s i => (addAbort s (.jobs s.adm.nextRef i (leAt se 8 2) (leAt se 10 2) (byteAt se 12 == 1)), aLater)) s)

/-- May a dispatched job still be ended: it has not passed its final commit, which for an unconfirmed job is that of its
envelope (R25, R276, R285)? -/
def abortable (j : Job) : Bool := j.endedAt.isNone && !(j.result.isSome && j.confirmed)

/-- End a job at step 3 with ABORTED. -/
def abortJob (s : State) (detail : Nat) (j : Job) : State := dropExec (endUnconfirmed s j 0x0500 detail (now s)) j.id

/-- JOB_ABORT at step 3. -/
def applyJobAbort (s : State) (ref i q tag : Nat) (all : Bool) : State :=
  let js := s.work.jobs.filter fun j => j.inst == i && j.sq == q && (all || j.tag == tag) && j.origin.isNone && abortable j
  finishCmd (js.foldl (fun s j => abortJob s 0x00 j) s) ref (aOk js.length)

/-- A quiesce at step 3 (R114): the instance is QUIESCING, its queues QUIESCED, copies of unpublished slots discarded, and the
jobs that its mode ends are ended. -/
def applyQuiesce (s : State) (i : Nat) (abort : Bool) : State :=
  if instState s i == .quiesced || instState s i == .absent then s else
  let old := (((s.inst? i).bind (·.quiesce)).map (·.ended)).getD 0
  let js := s.work.jobs.filter fun j => j.inst == i && j.origin.isNone && abortable j && (abort || j.dep == .pending)
  let s := js.foldl (fun s j => abortJob s (if abort then 0x01 else 0x02) j) s
  let s := s.updInst i fun x => { x with state := .quiescing, quiesce := some ⟨abort, true, old + js.length⟩ }
  noteDropped s { s with
    work.sqs := updWhere (·.inst == i) (fun q => { q with
      state := if q.state == .active then .quiesced else q.state,
      copies := q.copies.filter fun c => decide (dist (ringN q.log2n) c.pos q.head < q.published) }) s.work.sqs,
    work.cqs := updWhere (fun c => c.inst == i && c.state == .active) (fun c => { c with state := .quiesced }) s.work.cqs }

/-- Complete the INSTANCE_QUIESCE commands of an instance with QUIESCED. -/
def finishQuiesce (s : State) (i result : Nat) : State :=
  (s.adm.cmds.filter fun c => c.wait == .quiesce i).foldl (fun s c => finishCmd s c.ref ⟨0x0501, 0, result, .done⟩) s

/-- An instance that is QUIESCING is QUIESCED with its last CE (R114). -/
def quiesceDrained (s : State) (i : Nat) : State :=
  match s.inst? i with
  | none => s
  | some x =>
    if x.state == .quiescing && !(s.work.jobs.any fun j => j.inst == i && j.origin.isNone) then
      finishQuiesce (s.updInst i fun x => { x with state := .quiesced, quiesce := none }) i ((x.quiesce.map (·.ended)).getD 0)
    else s

/-- QUIESCE_DRAINED (R114). -/
def execQuiesceDrained (i : Nat) (s : State) : Host.Outcome State Fault Refusal :=
  .next (if s.service then postAdmins (quiesceDrained s i) else s)

/-- INSTANCE_RESUME (R115): ACTIVE at the next boundary. -/
def execInstanceResume (p : Nat) (se : Bytes) (s : State) : Host.Outcome State Fault Refusal :=
  .next (instCmd p se (opIs 0x8A) false false (· == .quiesced) (fun _ _ => []) (fun _ _ => [])
    (fun s i => (s.updInst i fun x => { x with resumeAt := some (now s + 1) }, aOk 0)) s)

/-- A resume at its boundary. -/
def applyResume (s : State) (x : Inst) : State :=
  if x.resumeAt.isSome && x.state == .quiesced then
    { (s.updInst x.id fun x => { x with state := .active, resumeAt := none }) with
      work.sqs := updWhere (fun q => q.inst == x.id && q.state == .quiesced) (fun q => { q with state := .active }) s.work.sqs,
      work.cqs := updWhere (fun c => c.inst == x.id && c.state == .quiesced) (fun c => { c with state := .active }) s.work.cqs }
  else s

/-! ### Reset and removal (R117 to R119) -/

/-- Complete the SQ_DELETE commands of an instance whose SQs go by another way (R101, R119; log entry 54). -/
def finishDeletes (s : State) (i : Nat) : State :=
  (s.adm.cmds.filter fun c => match c.wait with
    | .sqDrain k _ => k == i
    | _ => false).foldl (fun s c => finishCmd s c.ref (aOk 0)) s

/-- What INSTANCE_RESET clears: queues and the CEs they held, streams, dirty log, cached translations (R117). -/
def clearInst (s : State) (i : Nat) : State :=
  let s := finishDeletes { s with work.unposted := s.work.unposted.filter (·.inst != i) } i
  let s := (s.store.streams.filter (·.owner == i)).foldl (fun s x => dropStream s x.index) s
  { (s.updInst i fun x => { x with state := .active, dirty := none, quiesce := none, resumeAt := none }) with
    work.sqs := s.work.sqs.filter (·.inst != i),
    work.cqs := s.work.cqs.filter (·.inst != i),
    tlb := s.tlb.filter (·.inst != i) }

/-- INSTANCE_RESET (R117). -/
def execInstanceReset (p : Nat) (se : Bytes) (s : State) : Host.Outcome State Fault Refusal :=
  .next (instCmd p se (opIs 0x8B) false true (· == .quiesced) (fun _ _ => []) (fun _ _ => [])
    (fun s i => (clearInst s i, aOk 0)) s)

/-- The contexts of an instance that other devices hold: homed here and moved away, or created there (R118): handles and the
device to ask. -/
def farContexts (s : State) (i : Nat) : List (Nat × Nat) :=
  let home (a : Nat × Nat × Nat) : Nat × Nat :=
    (({ (default : Ctx) with index := a.1, gen := genOf s.store.ctxGens a.1, canopy := s.homeCanopy, home := s.homeDevice } :
        Ctx).handle, s.homeCanopy * 16 + a.2.1)
  (s.tether.away.filter (·.2.2 == i)).map home ++ (s.tether.abroad.filter (·.2 == i)).map fun a => (a.1, bits a.1 31 26)

/-- INSTANCE_REMOVE's effect (R118): its keys and contexts destroyed, its quotas freed, its DATU OFF.  DESIGN CHOICE (log entry
54): a context that another device holds is asked for with CTX_MOVE and destroyed when it comes; the command completes then. -/
def removeInst (s : State) (i : Nat) : State :=
  let s := clearInst s i
  let s := (s.store.keys.filter (·.owner == i)).foldl (fun s k => destroyKey s k.index) s
  let s := (s.store.ctxs.filter fun c => c.owner == i && c.tenant.isNone).foldl (fun s c => dropCtx s c.handle) s
  let s := (farContexts s i).foldl (fun s x => sendMsg s x.2 3 (zeros 4 ++ leBytes 4 x.1 ++ leBytes 4 i)) s
  s.updInst i fun x => { x with state := .absent, ctxQuota := 0, keyQuota := 0, mode := .off, tenant := none }

/-- A removed instance's last context has gone: its INSTANCE_REMOVE is complete. -/
def removeDrained (s : State) (i : Nat) : State :=
  if (farContexts s i).isEmpty then
    (s.adm.cmds.filter fun c => c.wait == .ctxs i && decide (c.accepted ≤ now s)).foldl (fun s c => finishCmd s c.ref (aOk 0)) s
  else s

/-- INSTANCE_REMOVE (R118). -/
def execInstanceRemove (p : Nat) (se : Bytes) (s : State) : Host.Outcome State Fault Refusal :=
  .next (instCmd p se (opIs 0x8C) false true (· == .quiesced) (fun _ _ => []) (fun _ _ => [])
    (fun s i => (removeInst s i, if (farContexts s i).isEmpty then aOk 0 else ⟨0, 0, 0, .ctxs i⟩)) s)

/-- A job goes without a CE: its envelope and its engine state are zeroised, and its work elsewhere withdrawn (R119). -/
def discardJob (s : State) (j : Job) : State :=
  let s := dropExec (cancelSend (zeroiseEnvelope s j (now s)) j 1) j.id
  { s with work.jobs := s.work.jobs.filter (·.id != j.id) }

/-- What a reset does to the jobs and queues of an instance: no CE, no output (R119). -/
def dropWork (s : State) (i : Nat) : State :=
  let ended := (((s.inst? i).bind (·.quiesce)).map (·.ended)).getD 0
  let s := (s.work.jobs.filter fun j => j.inst == i && j.origin.isNone).foldl discardJob s
  let s := finishQuiesce s i ended
  let s := { s with adm.aborts := s.adm.aborts.filter fun a => match a with
    | .quiesce _ k _ => k != i
    | _ => true }
  reapKeys (clearInst s i)

/-- The Function Level Reset action on a TF instance (R119), with its record. -/
def flrAction (s : State) (i : Nat) : State :=
  if instState s i == .absent then s else emit (dropWork s i) 0x0107 i 0 0

/-! ### Devices and ports (R93, R120, R121, R418) -/

/-- DUMP_BUFFER_SET (R418): admitted in safe state, where the dump then runs again into the new buffer. -/
def execDumpBufferSet (p : Nat) (se : Bytes) (s : State) : Host.Outcome State Fault Refusal :=
  .next (adminRow p se (opIs 0x99) (fun s =>
    let len := leAt se 16 4
    match firstReply (baseChecks s p se true false true ++ lifeChecks s false false ++ scanReply se
        [(8, 8, leAt se 8 8 % 4096 != 0),
         (16, 4, len != 0 && (decide (len < 65536) || decide (2097152 < len) || len % 4096 != 0))]) with
    | some r => (s, r)
    | none => if len = 0 then ({ s with adm.dump := none }, aOk 0)
      else ({ s with adm.dump := some (p * 256, leAt se 8 8, len), hwd.dump.due := s.hwd.dump.due || s.faults.safe }, aOk 0)) s)

/-- PRIMARY_DELEGATE (R93): primacy moves at step 2 of the next boundary. -/
def execPrimaryDelegate (p : Nat) (se : Bytes) (s : State) : Host.Outcome State Fault Refusal :=
  .next (adminCmd p se (opIs 0xA7) true
    (fun s => [(decide (byteAt se 8 < 4) && !(s.port (byteAt se 8)).dlUp, aState 0x03)]
      ++ scanReply se [(8, 1, decide (3 < byteAt se 8))])
    (fun s => (addChange s (.primary (byteAt se 8)), aOk 0)) s)

/-- TF instances of a port. -/
def hasTfs (s : State) (p : Nat) : Bool := s.insts.any fun x => portOf x.id == p && x.id % 256 != 0 && x.state != .absent

/-- PORT_PAIR fields. -/
def pairFields (se : Bytes) : List (Nat × Nat × Bool) :=
  [(8, 1, decide (2 < byteAt se 8)), (9, 1, decide (byteAt se 9 ≤ byteAt se 8) || decide (3 < byteAt se 9)),
   (10, 1, decide (2 < byteAt se 10))]

/-- The pair a command names stands. -/
def pairStands (s : State) (se : Bytes) : Bool := s.adm.pairs.any fun x => x.1 == byteAt se 8 && x.2.1 == byteAt se 9

/-- Are PORT_A and PORT_B ports that a pair can have? -/
def pairPorts (se : Bytes) : Bool := decide (byteAt se 8 ≤ 2) && decide (byteAt se 8 < byteAt se 9) && decide (byteAt se 9 ≤ 3)

/-- A PORT_PAIR command: its state refusals, its parameter ranges, then its effect on a pair (R97 items 6 and 7).  A pair that
is not there, one that overlaps another and TF instances in the way are refused with a DETAIL that no rule gives: a free value
(log entry 24). -/
def pairCmd (p : Nat) (se : Bytes) (sel : Bytes → Bool) (down : State → Bool) (face : State → Bool) (misfit : State → Bool)
    (run : State → State) (s : State) : State :=
  adminCmd p se sel true
    (fun s => [(face s, aState 0x26), (down s, aState 0x03)] ++ (if misfit s then [] else scanReply se (pairFields se)))
    (fun s => if misfit s then ((takeFreeNat s).2, aState ((takeFreeNat s).1 % 256)) else (run s, aOk 0)) s

/-- PORT_PAIR with ACTION 0 (R120). -/
def execPortPairUnpair (p : Nat) (se : Bytes) (s : State) : Host.Outcome State Fault Refusal :=
  .next (pairCmd p se (fun se => opIs 0xA8 se && byteAt se 10 == 0) (fun _ => false) (fun _ => false)
    (fun s => pairPorts se && (!pairStands s se || hasTfs s (byteAt se 8)))
    (fun s => { s with adm.pairs := s.adm.pairs.filter (·.1 != byteAt se 8) }) s)

/-- PORT_PAIR with ACTION 1 (R120); an ACTION above 2 is out of range (Table 4.5). -/
def execPortPairPair (p : Nat) (se : Bytes) (s : State) : Host.Outcome State Fault Refusal :=
  .next (pairCmd p se (fun se => opIs 0xA8 se && byteAt se 10 != 0 && byteAt se 10 != 2) (fun _ => false)
    (fun s => byteAt se 10 == 1 && decide (byteAt se 9 < 4) && hasTfs s (byteAt se 9))
    (fun s => byteAt se 10 == 1 && s.adm.pairs.any fun x => [x.1, x.2.1].contains (byteAt se 8) || [x.1, x.2.1].contains (byteAt se 9))
    (fun s => { s with adm.pairs := s.adm.pairs ++ [(byteAt se 8, byteAt se 9, false)] }) s)

/-- PORT_PAIR with ACTION 2 (R121, R490): the serving face moves back to PORT_A at the next boundary, while PORT_A serves. -/
def execPortPairReturn (p : Nat) (se : Bytes) (s : State) : Host.Outcome State Fault Refusal :=
  .next (pairCmd p se (fun se => opIs 0xA8 se && byteAt se 10 == 2)
    (fun s => decide (byteAt se 8 < 4) && !s.serves (unitId 9 (byteAt se 8))) (fun _ => false) (fun s => pairPorts se && !pairStands s se)
    (fun s => addChange s (.face (byteAt se 8) false)) s)

/-- A CE that is held carries FAILOVER_SEEN (Table 3.14). -/
def HeldCe.seen (h : HeldCe) : HeldCe :=
  { h with body := h.body.take 15 ++ [BitVec.ofNat 8 (byteAt h.body 15 ||| 16)] }

/-- Issue again through the new serving face what went through the old one in ticks n − 2 and n − 1: writes with identical
bytes, messages on the vectors of the new face; every job in flight carries FAILOVER_SEEN (R121, R488).  DESIGN CHOICE (log
entry 54): at a move back (ACTION 2), of which the spec says only that writes are issued again in the same way, too. -/
def moveFace (s : State) (a : Nat) (toB : Bool) : State :=
  match s.adm.pairs.find? (·.1 == a) with
  | none => s
  | some (_, b, onB) =>
    if onB == toB then s else
    let old := if onB then b else a
    let new := if toB then b else a
    let s := { s with adm.pairs := updWhere (fun x => x.1 == a) (fun _ => (a, b, toB)) s.adm.pairs }
    let again := s.writes.filter fun w => w.port == old && decide (now s ≤ w.issued + 2)
    let mine (i : Nat) : Bool := portOf i == a && i % 256 != 0
    let s := { s with
      hostMem := again.foldl (fun m (w : RecentWrite) => scatterBytes m w.pieces w.bytes) s.hostMem,
      work.jobs := updWhere (fun j => mine j.inst) (fun j => { j with failover := true }) s.work.jobs,
      work.unposted := updWhere (fun j => mine j.inst) (fun j => { j with failover := true }) s.work.unposted,
      work.cqs := updWhere (fun c => mine c.inst) (fun c => { c with heldCes := c.heldCes.map HeldCe.seen }) s.work.cqs }
    let msgs := (s.msix.filter fun (m : Msix) => portOf m.inst == old && m.inst % 256 != 0).flatMap fun m =>
      (m.sent.filter fun x => decide (now s ≤ x.2 + 2) && decide (x.2 < now s)).map fun x => (m.inst % 256, x.1)
    let s := msgs.foldl (fun s m => sendFn s (new * 256 + m.1) m.2) s
    (s.updPort a fun x => { x with moves := satInc 65535 x.moves }).updPort b fun x => { x with moves := satInc 65535 x.moves }

/-! ### Health and severities (R389, R392) -/

/-- The parameter checks of HEALTH_GET, in their order (R392). -/
def healthChecks (se : Bytes) (retire : Bool) : List (Bool × Reply) :=
  let u := leAt se 22 2
  [ (decide (1 < byteAt se 20), aRange 0x14),
    ((u == 0xFFFF && retire) || (u != 0xFFFF && !isUnit u) || (retire && !([0, 1, 5].contains (u / 1024))), aRange 0x16),
    (u != 0xFFFF && decide (5 < byteAt se 24), aRange 0x18) ]
    ++ scanReply se [(8, 12, false), (20, 1, false), (22, 2, false), (24, 1, false)]
    ++ [(decide (outLenOf se < 1452), aSmall 1452)]

/-- HEALTH_GET's acceptance: it is applied at step 1 of the next boundary. -/
def healthGet (p : Nat) (se : Bytes) (retire : Bool) (s : State) : State :=
  adminRow p se (fun se => opIs 0xA0 se && (byteAt se 20 == 1) == retire) (fun s =>
    let read := byteAt se 20 == 0
    match firstReply (baseChecks s p se retire false read ++ lifeChecks s read read ++ healthChecks se retire) with
    | some r => (s, r)
    | none => (addChange s (.health s.adm.nextRef p retire (leAt se 22 2) (byteAt se 24) (outAddrOf se)), aLater)) s

/-- HEALTH_GET (R392). -/
def execHealthGet (p : Nat) (se : Bytes) (s : State) : Host.Outcome State Fault Refusal := .next (healthGet p se false s)

/-- HEALTH_GET with RETIRE (R392). -/
def execHealthGetRetire (p : Nat) (se : Bytes) (s : State) : Host.Outcome State Fault Refusal := .next (healthGet p se true s)

/-- The output of Table 14.6 of a map. -/
def healthBytes (s : State) (h : HealthCopy) : Bytes :=
  leBytes 4 h.epoch ++ leBytes 8 h.tick ++ leBytes 2 355 ++ leBytes 2 (countUnits h.map 0 (· == .serving))
    ++ leBytes 1 (countUnits h.map 1 (· == .serving)) ++ leBytes 1 (b2n s.faults.safe) ++ zeros 14
    ++ allUnits.flatMap fun u => leBytes 4 (healthIn h.map u).word

/-- A retired source stays out until the next power-up or RESET_N (R392), as one that has failed three times. -/
def noiseRetire (s : State) (i : Nat) : State :=
  let s := { s with entropy.sources := s.entropy.sources.modify i fun n => { n with out := true, failures := 3, bits := [] } }
  if s.entropy.sources.all (·.out) then raiseSrc s 0x0B 0 0 else s

/-- Retire a unit: FAILED, with its fail-over (R392). -/
def retireUnit (s : State) (u : Nat) : State :=
  match u / 1024 with
  | 0 => failEngine s (u % 1024) (now s - 1)
  | 1 => withdraw s (srcId 0x03 (u % 1024)) u (now s - 1)
  | _ => noiseRetire (s.setUnit u .failed) (u % 1024)

/-- HEALTH_GET at step 1: refused, or to be written out of the map that the boundary publishes (true). -/
def applyHealth (s : State) (ref p : Nat) (retire : Bool) (u expect addr : Nat) : State × Bool :=
  let st := (s.health u).state
  if u != 0xFFFF && st.code != expect then (finishCmd s ref ⟨0x0700, 0, (s.health u).word, .done⟩, false)
  else if !retire then (s, true)
  else if st != .serving then (finishCmd s ref (aRange 0x16), false)
  else if u / 1024 = 0 ∧ (s.health (unitId 0 (u % 1024 / 17 * 17 + 16))).state ≠ .standby then
    (finishCmd s ref (aState 0x32), false)
  else match transRange s (p * 256) addr 1452 true 6 false with
    | (s, none) => (finishCmd s ref ⟨0x0103, 0x04, 0, .done⟩, false)
    | (s, some _) => (retireUnit s u, true)

/-- The HEALTH_GETs that wait, against the map of the boundary; those whose output is still to be written. -/
def healthGets (s : State) : State × List (Nat × Nat × Nat) :=
  let hs := s.adm.changes.filterMap fun c => match c with
    | .health ref p retire u e a => some (ref, p, retire, u, e, a)
    | _ => none
  let rest := s.adm.changes.filter fun c => match c with
    | .health _ _ _ _ _ _ => false
    | _ => true
  hs.foldl (fun (x : State × List (Nat × Nat × Nat)) h =>
    let r := applyHealth x.1 h.1 h.2.1 h.2.2.1 h.2.2.2.1 h.2.2.2.2.1 h.2.2.2.2.2
    (r.1, if r.2 then x.2 ++ [(h.1, h.2.1, h.2.2.2.2.2)] else x.2)) ({ s with adm.changes := rest }, [])

/-- Write the outputs of the HEALTH_GETs from the map just published. -/
def writeHealth (s : State) (outs : List (Nat × Nat × Nat)) : State :=
  outs.foldl (fun s o => match hostWrite s (o.2.1 * 256) o.2.2 (healthBytes s (s.faults.history.headD default)) 6 with
    | (s, true) => finishCmd s o.1 (aOk 1452)
    | (s, false) => finishCmd s o.1 ⟨0x0103, 0x04, 0, .done⟩) s

/-- The sources a FAULT_SEVERITY_SET addresses. -/
def sevSources (se : Bytes) : List Nat :=
  let src := leAt se 8 2
  if byteAt se 11 = 1 then match faultGroups.find? (·.group == src / 1024) with
    | some g => (List.range g.count).map (srcId g.group)
    | none => []
  else [src]

/-- The row of Table 14.3 a FAULT_SEVERITY_SET looks at. -/
def sevGroup (se : Bytes) : Option FaultGroup :=
  if byteAt se 11 = 1 then faultGroups.find? (·.group == leAt se 8 2 / 1024) else groupOf (leAt se 8 2)

/-- FAULT_SEVERITY_SET (R389): applied at step 2 of the next boundary. -/
def execFaultSeveritySet (p : Nat) (se : Bytes) (s : State) : Host.Outcome State Fault Refusal :=
  .next (adminCmd p se (opIs 0xA1) true
    (fun _ =>
      let g := (sevGroup se).getD default
      [ ((sevGroup se).isNone, aRange 0x08), (g.locked, aState 0x31),
        (decide (byteAt se 10 < g.min) || decide (g.max < byteAt se 10), aRange 0x0A),
        (decide (1 < byteAt se 11), aRange 0x0B) ]
        ++ scanReply se [(8, 2, false), (10, 1, false), (11, 1, false)])
    (fun s =>
      let ss := (sevSources se).filter fun x => sevOf s x != byteAt se 10
      (addChange s (.severity ss (byteAt se 10)), aOk ss.length)) s)

end Sys2Proof.Machine
end

