-- ==== Sys2Proof/Machine/AladaRun.lean ====
section
/-! DEFINITION. An owner routine run from its code (R327 to R334): the decoding of a 16-bit word (Tables 11.2, 11.3, 11.7,
11.8) to its instruction, and ROUTINE_CALL. -/

namespace Sys2Proof.Machine

/-- The scalar instruction of a function code (Table 11.3). -/
def scalarWord (j f : Nat) (s : State) : Host.Outcome State Fault Refusal :=
  match f with
  | 0x00 => execAlNop j s
  | 0x01 => execAlDup j s
  | 0x02 => execAlDrop j s
  | 0x03 => execAlSwap j s
  | 0x04 => execAlOver j s
  | 0x05 => execAlRot j s
  | 0x06 => execAlTor j s
  | 0x07 => execAlFromr j s
  | 0x08 => execAlRcopy j s
  | 0x09 => execAlDepth j s
  | 0x10 => execAlAdd j s
  | 0x11 => execAlSub j s
  | 0x12 => execAlAnd j s
  | 0x13 => execAlOr j s
  | 0x14 => execAlXor j s
  | 0x15 => execAlInv j s
  | 0x16 => execAlShl j s
  | 0x17 => execAlShr j s
  | 0x18 => execAlSar j s
  | 0x19 => execAlMul j s
  | 0x1A => execAlMulhu j s
  | 0x1B => execAlEq j s
  | 0x1C => execAlUlt j s
  | 0x1D => execAlLt j s
  | 0x1E => execAlCsel j s
  | 0x20 => execAlFetch j s
  | 0x21 => execAlStore j s
  | 0x22 => execAlFetchh j s
  | 0x23 => execAlStoreh j s
  | 0x24 => execAlFetchb j s
  | 0x25 => execAlStoreb j s
  | 0x26 => execAlIfetch j s
  | 0x30 => execAlRet j s
  | 0x31 => execAlCallt j s
  | 0x32 => execAlCommit j s
  | 0x33 => execAlYield j s
  | 0x34 => execAlEnd j s
  | f => execUnassignedEncoding j f s

/-- The SV instruction of an OP (Table 11.8). -/
def svWord (j w : Nat) (s : State) : Host.Outcome State Fault Refusal :=
  let d := w / 16 % 16
  let x := w % 16
  match w / 256 % 32 with
  | 0x00 => execSvLd j d x s
  | 0x01 => execSvSt j d x s
  | 0x02 => execSvAdd j d x s
  | 0x03 => execSvSub j d x s
  | 0x04 => execSvMul j d x s
  | 0x05 => execSvAnd j d x s
  | 0x06 => execSvOr j d x s
  | 0x07 => execSvXor j d x s
  | 0x08 => execSvShl j d x s
  | 0x09 => execSvShr j d x s
  | 0x0A => execSvRotl j d x s
  | 0x0B => execSvCmov j d x s
  | 0x0C => execSvMov j d x s
  | 0x0D => execSvZero j d x s
  | 0x0E => execSvShuf j d x s
  | 0x0F => execSvAesr j d x s
  | 0x10 => execSvAeslr j d x s
  | 0x11 => execSvClmul j d x s
  | 0x12 => execSvTos j d x s
  | 0x13 => execSvFroms j d x s
  | _ => execUnassignedEncoding j w s

/-- The LV instruction of an OP (Table 11.7). -/
def lvWord (j w : Nat) (s : State) : Host.Outcome State Fault Refusal :=
  let m := w / 64 % 4
  let d := w / 8 % 8
  let x := w % 8
  match w / 256 % 32 with
  | 0x00 => execLvLd j m d x s
  | 0x01 => execLvSt j m d x s
  | 0x02 => execLvGather j m d x s
  | 0x03 => execLvScatter j m d x s
  | 0x04 => execLvAddm j m d x s
  | 0x05 => execLvSubm j m d x s
  | 0x06 => execLvMulm j m d x s
  | 0x07 => execLvPmul j m d x s
  | 0x08 => execLvBfly j m d x s
  | 0x09 => execLvComp j m d x s
  | 0x0A => execLvSamu j m d x s
  | 0x0B => execLvSamcbd j m d x s
  | 0x0C => execLvCmov j m d x s
  | 0x0D => execLvPerm j m d x s
  | 0x0E => execLvSad j m d x .none s
  | 0x0F => execLvSsd j m d x s
  | 0x10 => execLvOvb j m d x s
  | 0x11 => execLvMov j m d x s
  | 0x12 => execLvZero j m d x s
  | 0x13 => execLvLogic j m d x s
  | 0x14 => execLvAdd j m d x s
  | _ => execUnassignedEncoding j w s

/-- The instruction a word spells (Table 11.2). -/
def aladaWord (j w : Nat) (s : State) : Host.Outcome State Fault Refusal :=
  if !assignedWord w then execUnassignedEncoding j w s else
  match w / 4096 % 16 with
  | 0x0 => scalarWord j (w % 256) s
  | 0x1 => execAlLit j w s
  | 0x2 => execAlLitx j w s
  | 0x3 => match w / 1024 % 4 with
    | 0 => execAlBr j w s
    | 1 => execAlBz j w s
    | 2 => execAlDbnz j w s
    | _ => execAlBnz j w s
  | 0x4 => execAlCall j w s
  | 0x5 => execAlIn j w s
  | 0x6 => execAlOut j w s
  | 0x8 => svWord j w s
  | 0x9 => svWord j w s
  | _ => lvWord j w s

/-- The state an outcome goes on to. -/
def goesOn (o : Host.Outcome State Fault Refusal) (s : State) : State :=
  match o with
  | .next t => t
  | _ => s

/-- Does an owner routine run for the job now, and with which word at its PC? -/
def ownerWord (s : State) (j : Nat) : Option Nat :=
  match s.job? j with
  | none => none
  | some x => match s.run? j, jobRoutine s x with
    | some r, some rt => if inSlice s x && !r.paused then some ((overlayWord rt r.cur.pc).getD 0x7000) else none
    | _, _ => none

/-- Run at most `n` instructions of an owner routine, to its END, YIELD or fault. -/
def runOwner (j : Nat) : Nat → State → State
  | 0, s => s
  | n + 1, s => match ownerWord s j with
    | none => s
    | some w => runOwner j n (goesOn (aladaWord j w s) s)

/-- ROUTINE_CALL (R329, R332): the routine is entered, its overlay loaded, and at most `n` of its instructions run in the
present slice. -/
def execRoutineCall (j n : Nat) (s : State) : Host.Outcome State Fault Refusal :=
  .next (match s.job? j with
    | none => s
    | some x =>
      if x.opcode != 0x60 || !inSlice s x then s else
      match enterRun s x with
      | (t, none) => noInput s t x
      | (s, some r) =>
        let s := { s with engines := s.engines.modify x.engine fun e => { e with overlay := some (x.opt % 256) } }
        runOwner j n (s.putRun r))

end Sys2Proof.Machine
end

