-- ==== Sys2Proof/Machine/Classical.lean ====
section
/-! DEFINITION. Diffie-Hellman and RSA jobs (07_mxu_classical.md). -/

namespace Sys2Proof.Machine

/-! ### Diffie-Hellman (R208) -/

def runDhKeygen (u : Upset) (s : State) (j : Job) (_inp : Bytes) : State × JobResult :=
  match takeFree s 96 with
  | (seed, s) =>
    if u == .pairwise then pctFail s j else
    let a := ap j.alg j.pset
    let pub := stdBytes .pubOf a [seed] (pkLen j.alg j.pset)
    let k := newKey s j.inst j.alg j.pset j.policy (some pub)
      (some (stdBytes .privOf a [seed] (skLen j.alg j.pset)))
    (s, okR (leBytes 4 k.handle ++ pub) [.createKey k])

/-- DH_KEYGEN (R208). -/
def execDhKeygen (j : Nat) (u : Upset) (s : State) : Host.Outcome State Fault Refusal :=
  .next (runJob s j u (fun x => x.opcode == 0x10) (fun _ => true) (runDhKeygen u))

/-- Derive after the peer value has passed the stage (R190, R208). -/
def runDhDerive (s : State) (j : Job) (inp : Bytes) : State × JobResult :=
  match checkPublic j.alg j.pset false inp with
  | some (st, d) => (s, errR st d)
  | none => (s, secretOut s j j.outToCtx (bit j.opt 1) []
      (stdBytes .dhDerive (ap j.alg j.pset) [(jobKey s j).sk, inp] (ssLen j.alg j.pset)))

/-- DH_DERIVE (R208). -/
def execDhDerive (j : Nat) (u : Upset) (s : State) : Host.Outcome State Fault Refusal :=
  .next (runJob s j u (fun x => x.opcode == 0x11) (fun _ => false) runDhDerive)

/-! ### RSA (R201 to R204) -/

def runRsaKeygen (u : Upset) (s : State) (j : Job) (_inp : Bytes) : State × JobResult :=
  match takeFree s 96 with
  | (seed, s) => match takeFree s 32 with
    | (rej, s) =>
      let a := ap 0x10 j.pset
      let gen := [seed, leBytes 4 j.rsaE]
      if 2 ^ 20 ≤ stdNumber .attempts a gen then (s, errR 0x0600 0x26)
      else if u == .pairwise then pctFail s j else
      let pub := stdBytes .pubOf a gen (rsaK j.pset) ++ beBytes 4 j.rsaE
      let k := newKey s j.inst 0x10 j.pset j.policy (some pub) (some (stdBytes .privOf a gen (skLen 0x10 j.pset)))
      let k := { k with rejection := rej }
      (s, okR (leBytes 4 k.handle ++ pub) [.createKey k])

/-- RSA_KEYGEN (R204). -/
def execRsaKeygen (j : Nat) (u : Upset) (s : State) : Host.Outcome State Fault Refusal :=
  .next (runJob s j u (fun x => x.opcode == 0x14) (fun _ => true) (runRsaKeygen u))

/-- The private result's check against the input failed (R202). -/
def rsaCheckFail (s : State) : State × JobResult := (raiseSrc s 0x1E 0 0, errR 0x0600 0x24)

/-- OPT, salt length and message of an RSA signature. -/
def rsaArgs (j : Job) (msg : Bytes) : List Bytes :=
  [[BitVec.ofNat 8 j.mode, BitVec.ofNat 8 j.ph, BitVec.ofNat 8 j.scheme], leBytes 2 j.salt, msg]

def runRsaSign (u : Upset) (s : State) (j : Job) (inp : Bytes) : State × JobResult :=
  match takeFree s 64 with
  | (blind, s) =>
    let args := (jobKey s j).sk :: (if j.scheme = 1 then blind else []) :: rsaArgs j inp
    if u == .rsaCheck || !stdHolds .rsaSignOk (ap 0x10 j.pset) args then rsaCheckFail s
    else decided s j u (okR (stdBytes .sign (ap 0x10 j.pset) args (rsaK j.pset)) [])

/-- RSA_SIGN (R202). -/
def execRsaSign (j : Nat) (u : Upset) (s : State) : Host.Outcome State Fault Refusal :=
  .next (runJob s j u (fun x => x.opcode == 0x15) (fun _ => true) (runRsaSign u))

def runRsaVerify (u : Upset) (s : State) (j : Job) (inp : Bytes) : State × JobResult :=
  let k := rsaK j.pset
  let pl := if j.pkInline then k + 4 else 0
  let pk := if j.pkInline then inp.take pl else (jobKey s j).pk
  let sig := sub inp pl k
  match (if j.pkInline then checkRsaKey j.pset pk else none) with
  | some (st, d) => (s, errR st d)
  | none =>
    if sigRefused 0x10 j.pset (beNat (pk.take k)) sig then (s, errR 0x0001 0x06)
    else
      let ok := stdHolds .verify (ap 0x10 j.pset) (pk :: sig :: rsaArgs j (inp.drop (pl + k)))
      decided s j u (if ok then okR [] [] else errR 0x0001 0x08)

/-- RSA_VERIFY (R201). -/
def execRsaVerify (j : Nat) (u : Upset) (s : State) : Host.Outcome State Fault Refusal :=
  .next (runJob s j u (fun x => x.opcode == 0x16) (fun _ => false) (runRsaVerify u))

/-- The label of OAEP. -/
def Job.oaepLabel (j : Job) : Bytes := sub j.params 1 (j.par 0 1)

/-- The synthetic plaintext of R203.  The spec fixes K, the range of the length and that the bytes come from an
HMAC stream keyed by K; the reading of K as a number and the counter's form are open (log entry 13). -/
def synthetic (k : Nat) (rejection ct : Bytes) : Bytes :=
  let key := hmacOf 1 rejection ct
  stdBytes .rsaSynth 1 [key] (stdNumber .rsaSynth 1 [key] % (k - 10))

def runRsaDecrypt (u : Upset) (s : State) (j : Job) (inp : Bytes) : State × JobResult :=
  let key := jobKey s j
  let a := ap 0x10 j.pset
  let args := [key.sk, [BitVec.ofNat 8 j.ph, BitVec.ofNat 8 j.scheme], if j.scheme = 1 then j.oaepLabel else [], inp]
  match checkRsaCt (beNat (key.sk.take (rsaK j.pset))) inp with
  | some (st, d) => (s, errR st d)
  | none =>
    if u == .rsaCheck || !stdHolds .rsaPlainOk a args then rsaCheckFail s
    else if stdHolds .rsaPadOk a args then
      decided s j u (okR (stdBytes .rsaPlain a args (min (rsaMax j) (stdNumber .rsaPlain a args))) [])
    else if j.scheme = 0 then decided s j u (okR (synthetic (rsaK j.pset) key.rejection inp) [])
    else decided s j u (errR 0x0300 0x08)

/-- RSA_DECRYPT (R203). -/
def execRsaDecrypt (j : Nat) (u : Upset) (s : State) : Host.Outcome State Fault Refusal :=
  .next (runJob s j u (fun x => x.opcode == 0x17) (fun _ => true) (runRsaDecrypt u))

def runRsaEncrypt (s : State) (j : Job) (inp : Bytes) : State × JobResult :=
  let pl := if j.pkInline then rsaK j.pset + 4 else 0
  let pk := if j.pkInline then inp.take pl else (jobKey s j).pk
  match (if j.pkInline then checkRsaKey j.pset pk else none) with
  | some (st, d) => (s, errR st d)
  | none => match takeFree s 64 with
    | (pad, s) => (s, okR (stdBytes .rsaEncrypt (ap 0x10 j.pset)
        [pk, pad, [BitVec.ofNat 8 j.ph, BitVec.ofNat 8 j.scheme], if j.scheme = 1 then j.oaepLabel else [],
         inp.drop pl] (rsaK j.pset)) [])

/-- RSA_ENCRYPT (R201). -/
def execRsaEncrypt (j : Nat) (u : Upset) (s : State) : Host.Outcome State Fault Refusal :=
  .next (runJob s j u (fun x => x.opcode == 0x18) (fun _ => true) runRsaEncrypt)

end Sys2Proof.Machine
end

