-- ==== Sys2Proof/Machine/Kem.lean ====
section
/-! DEFINITION. KEM jobs of ML-KEM, Classic McEliece and HQC (05, 06) and the steps of HYBRID_KEX. -/

namespace Sys2Proof.Machine

/-- Bytes that a key generation draws: d and z of ML-KEM, the seed of the others. -/
def kemSeedLen (alg : Nat) : Nat := if alg = 0x01 then 64 else 32

/-- Bytes that an encapsulation draws: m; of HQC the message and the salt (log entry 53). -/
def kemDrawLen (alg pset : Nat) : Nat := if alg = 0x07 then (Hqc.par pset).k + 16 else 32

/-- Generate a pair from its seed, for Classic McEliece by the chosen attempt (R129, R175): the key object, or the failure of the
pairwise test. -/
def kemPair (u : Upset) (s : State) (j : Job) (seed : Bytes) : State × JobResult :=
  if u == .pairwise then pctFail s j
  else
    let a := ap j.alg j.pset
    let gen := if j.alg = 0x06 then [seed, leBytes 4 (j.chosen.getD 0)] else [seed]
    let pub := stdBytes .pubOf a gen (pkLen j.alg j.pset)
    let k := newKey s j.inst j.alg j.pset j.policy (some pub) (some (stdBytes .privOf a gen (skLen j.alg j.pset)))
    (s, okR (leBytes 4 k.handle ++ (if j.alg = 0x06 then [] else pub)) [.createKey k])

/-- KEM_KEYGEN: Classic McEliece draws its seed, runs attempts, and once one is chosen makes the pair (R175); the others draw
and make it. -/
def runKemKeygen (u : Upset) (s : State) (j : Job) (_inp : Bytes) : State × Option JobResult :=
  if j.alg = 0x06 then
    if j.chosen.isSome then ((kemPair u s j j.rnd).1, some (kemPair u s j j.rnd).2)
    else if j.prepared then (s, none)
    else match takeFree s 32 with
      | (seed, s) => (prepare s j seed, none)
  else match takeFree s (kemSeedLen j.alg) with
    | (seed, s) => ((kemPair u s j seed).1, some (kemPair u s j seed).2)

/-- KEM_KEYGEN (R129, R173, R175, R179). -/
def execKemKeygen (j : Nat) (u : Upset) (s : State) : Host.Outcome State Fault Refusal :=
  .next (tryRow s j 0x01 (fun _ x k => stdHolds .attemptOk (ap x.alg x.pset) [leBytes 4 k, x.rnd])
    (runPart s j u (fun x => x.opcode == 0x01) (fun x => !x.prepared) (runKemKeygen u)))

/-- Encapsulate (R130, R131): the inline key is checked before any secret is drawn. -/
def runKemEncaps (s : State) (j : Job) (inp : Bytes) : State × JobResult :=
  let ek := if j.ekInline then inp else (jobKey s j).pk
  match if j.ekInline then ekBad j.alg j.pset ek else none with
  | some (st, d) => (s, errR st d)
  | none => match takeFree s (kemDrawLen j.alg j.pset) with
    | (m, s) =>
      let a := ap j.alg j.pset
      (s, secretOut s j j.outToCtx (bit j.opt 1) (stdBytes .encapsCt a [ek, m] (ctLen j.alg j.pset))
        (stdBytes .encapsSs a [ek, m] 32))

/-- KEM_ENCAPS (R130). -/
def execKemEncaps (j : Nat) (u : Upset) (s : State) : Host.Outcome State Fault Refusal :=
  .next (runJob s j u (fun x => x.opcode == 0x02) (fun _ => true) runKemEncaps)

/-- Decapsulate with implicit rejection (R132, R133, R176): OK whatever the ciphertext. -/
def runKemDecaps (u : Upset) (s : State) (j : Job) (inp : Bytes) : State × JobResult :=
  decided s j u (secretOut s j j.outToCtx (bit j.opt 1) []
    (stdBytes .decaps (ap j.alg j.pset) [(jobKey s j).sk, inp] 32))

/-- KEM_DECAPS (R133). -/
def execKemDecaps (j : Nat) (u : Upset) (s : State) : Host.Outcome State Fault Refusal :=
  .next (runJob s j u (fun x => x.opcode == 0x03) (fun _ => false) (runKemDecaps u))

/-! ### HYBRID_KEX (R145 to R147) -/

/-- ML-KEM and X25519 or X448 sets of a HYBRID_KEX PSET as ALG and PSET numbers. -/
def hybridA (pset : Nat) : Nat × Nat := (ap 0x01 (hybridKem pset), ap 0x14 (hybridDh pset))

def hybridDhLen (pset : Nat) : Nat := pkLen 0x14 (hybridDh pset)

/-- CLIENT_INIT: both ephemeral pairs go into slot 0 of the context; the share is written. -/
def runClientInit (s : State) (j : Job) (_inp : Bytes) : State × JobResult :=
  match takeFree s 64 with
  | (dz, s) => match takeFree s (hybridDhLen j.pset) with
    | (sk, s) =>
      let (ka, da) := hybridA j.pset
      let ek := stdBytes .pubOf ka [dz] (pkLen 0x01 (hybridKem j.pset))
      let pk := stdBytes .pubOfPriv da [sk] (hybridDhLen j.pset)
      match fillCtx s j (bit j.opt 2) (.ephemeral j.pset dz sk) with
      | some c => (s, okR (ek ++ pk ++ leBytes 4 c.handle) [.putCtx c])
      | none => (s, errR 0x0202 0x52)

/-- CLIENT_INIT (R146). -/
def execClientInit (j : Nat) (u : Upset) (s : State) : Host.Outcome State Fault Refusal :=
  .next (runJob s j u (fun x => x.opcode == 0x50 && x.opt % 4 == 0) (fun _ => true) runClientInit)

/-- SERVER_RESPOND: the client's ek, then its public value, are validated before any secret is drawn (R147). -/
def runServerRespond (s : State) (j : Job) (inp : Bytes) : State × JobResult :=
  let n := pkLen 0x01 (hybridKem j.pset)
  let (ka, da) := hybridA j.pset
  match ekBad 0x01 (hybridKem j.pset) (inp.take n) with
  | some (st, d) => (s, errR st d)
  | none => match checkXPoint (hybridDh j.pset) (inp.drop n) with
    | some (st, d) => (s, errR st d)
    | none => match takeFree s 32 with
      | (m, s) => match takeFree s (hybridDhLen j.pset) with
        | (sk, s) =>
          let share := stdBytes .encapsCt ka [inp.take n, m] (ctLen 0x01 (hybridKem j.pset))
            ++ stdBytes .pubOfPriv da [sk] (hybridDhLen j.pset)
          let ss := stdBytes .encapsSs ka [inp.take n, m] 32
            ++ stdBytes .dhDerive da [sk, inp.drop n] (hybridDhLen j.pset)
          (s, secretOut s j j.outToCtx (bit j.opt 2) share ss)

/-- SERVER_RESPOND (R145). -/
def execServerRespond (j : Nat) (u : Upset) (s : State) : Host.Outcome State Fault Refusal :=
  .next (runJob s j u (fun x => x.opcode == 0x50 && x.opt % 4 == 1) (fun _ => true) runServerRespond)

/-- CLIENT_FINISH: the ephemeral keys are erased with an OK, and the secret replaces them under OUT_TO_CTX
(R146, R147). -/
def runClientFinish (u : Upset) (s : State) (j : Job) (inp : Bytes) : State × JobResult :=
  let n := ctLen 0x01 (hybridKem j.pset)
  let (ka, da) := hybridA j.pset
  match checkXPoint (hybridDh j.pset) (inp.drop n) with
  | some (st, d) => (s, errR st d)
  | none =>
    match ((ctxAt s j.ctxH).getD default).slot 0 with
    | .ephemeral _ dz sk =>
      let dk := stdBytes .privOf ka [dz] (skLen 0x01 (hybridKem j.pset))
      let ss := stdBytes .decaps ka [dk, inp.take n] 32
        ++ stdBytes .dhDerive da [sk, inp.drop n] (hybridDhLen j.pset)
      let r := secretOut s j j.outToCtx false [] ss
      decided s j u (if j.outToCtx then r else { r with effects := [.setSlot j.ctxH 0 .empty] })
    | _ => (s, errR 0x0203 0x01)

/-- CLIENT_FINISH (R146). -/
def execClientFinish (j : Nat) (u : Upset) (s : State) : Host.Outcome State Fault Refusal :=
  .next (runJob s j u (fun x => x.opcode == 0x50 && x.opt % 4 == 2) (fun _ => false) (runClientFinish u))

end Sys2Proof.Machine
end

