-- ==== Sys2Proof/Machine/KeyJobs.lean ====
section
/-! DEFINITION. Key and context jobs (09_keys_contexts_vault.md). -/

namespace Sys2Proof.Machine

/-! ### KEY_IMPORT (R244, R245, Tables 5.6 and 7.7, R160, R177, R179) -/

/-- The halves a material string carries in a FORM. -/
def formHalves (form alg pset : Nat) (m : Bytes) : Option Bytes × Option Bytes :=
  match form with
  | 0 => (some m, none)
  | 1 => (if privHoldsPub alg then some (if alg = 0x03 then m.drop (m.length / 2) else m.take (pkLen alg pset)) else none, some m)
  | 2 => (some (m.drop (skLen alg pset)), some (m.take (skLen alg pset)))
  | 3 => (some (stdBytes .pubOf (ap alg pset) [m] (pkLen alg pset)),
          some (stdBytes .privOf (ap alg pset) [m] (skLen alg pset)))
  | _ => (none, some m)

/-- RSA private form (Table 7.7): p·q = n, widths, and the CRT relations. -/
def rsaPrivOk (k : Nat) (m : Bytes) : Bool :=
  let h := k / 2
  let n := beNat (m.take k)
  let e := beNat (sub m k 4)
  let at_ (i : Nat) : Nat := beNat (sub m (2 * k + 4 + i * h) h)
  let p := at_ 0
  let q := at_ 1
  p * q == n && decide (2 ^ (8 * h - 1) ≤ p) && decide (2 ^ (8 * h - 1) ≤ q)
    && e * at_ 2 % (p - 1) == 1 && e * at_ 3 % (q - 1) == 1 && at_ 4 * q % p == 1

/-- The family's import checks on material that suits FORM, ALG and PSET; the first failure decides. -/
def importChecks (form alg pset : Nat) (small : Bool) (m : Bytes) : Option (Nat × Nat) :=
  let (pub, priv) := formHalves form alg pset m
  let a := ap alg pset
  let pk := pub.getD []
  let sk := priv.getD []
  let lib : Option (Nat × Nat) :=
    if stdHolds .importOk a [[BitVec.ofNat 8 form], m] then none
    else some (match alg with
      | 0x01 => let c := stdNumber .importFail a [[BitVec.ofNat 8 form], m] % 3
        if form = 0 ∨ c = 0 then (0x0303, 0x01) else if c = 1 ∨ form = 1 then (0x0300, 0x02) else (0x0300, 0x04)
      | 0x02 => if form = 1 ∨ stdNumber .importFail a [[BitVec.ofNat 8 form], m] % 2 = 0 then (0x0303, 0x03)
        else (0x0300, 0x04)
      | 0x03 => (0x0300, 0x04)
      | 0x04 => (0x0303, 0x13)
      | 0x05 => (0x0303, 0x13)
      | 0x06 => (0x0300, 0x07)
      | 0x07 => (0x0303, 0x05)
      | _ => (0x0300, 0x04))
  let pubOk : Option (Nat × Nat) := if pub.isSome then checkPublic alg pset small pk else none
  match alg with
  | 0x01 => if form = 3 then none else lib
  | 0x02 => if form = 0 ∨ form = 3 then none else lib
  | 0x03 => if form = 0 then none else lib
  | 0x06 => if form = 0 then none else lib
  | 0x10 => if form = 1 then (if rsaPrivOk (rsaK pset) m then none else some (0x0300, 0x09)) else pubOk
  | 0x11 => if priv.isSome && (beNat sk == 0 || decide ((pCurve pset).2.2 ≤ beNat sk)) then some (0x0303, 0x34)
      else match pubOk with
        | some e => some e
        | none => if form = 2 then lib else none
  | 0x13 => if priv.isSome && (beNat sk == 0 || decide ((pCurve pset).2.2 ≤ beNat sk)) then some (0x0303, 0x34)
      else match pubOk with
        | some e => some e
        | none => if form = 2 then lib else none
  | 0x12 => match pubOk with
      | some e => some e
      | none => if form = 2 then lib else none
  | 0x14 => match pubOk with
      | some e => some e
      | none => if form = 2 then lib else none
  | 0x04 => lib
  | 0x05 => lib
  | 0x07 => lib
  | _ => none

/-- The object a KEY_IMPORT creates, after every check (R245). -/
def importObject (s : State) (j : Job) (m : Bytes) : State × JobResult :=
  match importChecks j.form j.alg j.pset (bit j.policy pSmallOrder) m with
  | some (st, d) => (s, errR st d)
  | none =>
    let (pub, priv) := formHalves j.form j.alg j.pset m
    let k := newKey s j.inst j.alg j.pset j.policy pub priv
    if j.alg = 0x10 ∧ j.form = 1 then match takeFree s 32 with
      | (rej, s) => (s, okR (leBytes 4 k.handle) [.createKey { k with rejection := rej }])
    else (s, okR (leBytes 4 k.handle) [.createKey k])

def runKeyImport (s : State) (j : Job) (inp : Bytes) : State × JobResult :=
  match importText s j inp with
  | .error e => (s, errR e.1 e.2)
  | .ok m => importObject s j m

/-- KEY_IMPORT (R244). -/
def execKeyImport (j : Nat) (u : Upset) (s : State) : Host.Outcome State Fault Refusal :=
  .next (runJob s j u (fun x => x.opcode == 0x40 && !x.generate)
    (fun x => x.alg == 0x10 && x.form == 1) runKeyImport)

def runKeyGenerate (s : State) (j : Job) (_inp : Bytes) : State × JobResult :=
  let n := if j.keyLen = 0 then (secretRange j.alg j.pset).1 else j.keyLen
  match takeFree s n with
  | (key, s) =>
    let k := newKey s j.inst j.alg j.pset j.policy none (some key)
    (s, okR (leBytes 4 k.handle) [.createKey k])

/-- KEY_IMPORT with GENERATE (R246). -/
def execKeyGenerate (j : Nat) (u : Upset) (s : State) : Host.Outcome State Fault Refusal :=
  .next (runJob s j u (fun x => x.opcode == 0x40 && x.generate) (fun _ => true) runKeyGenerate)

/-! ### KEY_EXPORT, KEY_DESTROY, KEY_GET_PUBLIC (R247 to R249) -/

/-- The header of Table 9.7. -/
def blobHeader (kind alg pset form tail : Nat) : Bytes :=
  [1, BitVec.ofNat 8 kind, BitVec.ofNat 8 alg, BitVec.ofNat 8 pset, BitVec.ofNat 8 form, 0, 0, 0] ++ leBytes 8 tail

/-- Key bytes of the KEK a job names. -/
def kekBytes (s : State) (j : Job) : Bytes := ((j.kekIdx.bind (keyAt s)).getD default).sk

def runKeyExport (s : State) (j : Job) (_inp : Bytes) : State × JobResult :=
  let k := jobKey s j
  (s, okR (wrapOf (kekBytes s j) (blobHeader 0 k.alg k.pset (exportForm k) k.policy ++ exportMaterial k)) [])

/-- KEY_EXPORT (R247). -/
def execKeyExport (j : Nat) (u : Upset) (s : State) : Host.Outcome State Fault Refusal :=
  .next (runJob s j u (fun x => x.opcode == 0x41) (fun _ => false) runKeyExport)

def runKeyDestroy (s : State) (j : Job) (_inp : Bytes) : State × JobResult :=
  (s, okR [] [.destroyKey (j.keyIdx.getD 0)])

/-- The body of HEALTH/KEY_DROP: SUB, handle and owner (log entry 22). -/
def dropBody (k : KeyObj) : Bytes := leBytes 1 7 ++ leBytes 4 k.handle ++ leBytes 2 k.owner

/-- A KEY_DESTROY of a replicated object first sends KEY_DROP and waits for every member's answer (R461). -/
def dropReplicas (s : State) (j : Nat) : Option State :=
  match s.job? j with
  | none => none
  | some x =>
    if x.opcode = 0x42 ∧ runnable s x ∧ !x.prepared ∧ s.funnels ∧ (jobKey s x).replicated ∧ s.peersJoined ≠ [] then
      some (s.peersJoined.foldl (fun s d => sendMsg s d 6 (dropBody (jobKey s x)))
        (s.updJob j fun y => { y with awaiting := s.peersJoined, prepared := true }))
    else none

/-- Does a KEY_DESTROY wait for a free entry of the revocation list (R263)? -/
def revocationFull (s : State) (j : Job) : Bool := (jobKey s j).has pPersist && decide (4096 ≤ s.shelf.revoked.length)

/-- KEY_DESTROY (R248, R263, R461): a PERSIST object's destroy waits for room in the revocation list, a replicated one's for
the members. -/
def execKeyDestroy (j : Nat) (u : Upset) (s : State) : Host.Outcome State Fault Refusal :=
  .next (match dropReplicas s j with
    | some s => s
    | none => runJob s j u (fun x => x.opcode == 0x42 && !revocationFull s x) (fun _ => false) runKeyDestroy)

/-- Indices left of a stateful key; 0 for any other. -/
def indicesLeft (k : KeyObj) : Nat :=
  match k.stateful with
  | some f => 2 ^ f.heights.sum - f.next
  | none => 0

/-- The key information block (Table 9.8). -/
def infoBlock (k : KeyObj) : Bytes :=
  let holds := b2n k.pub.isSome + (if isSymmetric k.alg then 4 * b2n k.priv.isSome else 2 * b2n k.priv.isSome)
  [BitVec.ofNat 8 k.alg, BitVec.ofNat 8 k.pset, BitVec.ofNat 8 holds, BitVec.ofNat 8 (b2n k.shelved)]
    ++ leBytes 4 (vaultSize k.material) ++ leBytes 8 k.policy ++ leBytes 8 (indicesLeft k) ++ zeros 8

def runKeyGetPublic (s : State) (j : Job) (_inp : Bytes) : State × JobResult :=
  let k := jobKey s j
  if bit j.opt 0 then (s, okR (infoBlock k) [])
  else (s, okR (k.pk ++ (if isStateful k.alg then leBytes 8 (indicesLeft k) else [])) [])

/-- KEY_GET_PUBLIC (R249). -/
def execKeyGetPublic (j : Nat) (u : Upset) (s : State) : Host.Outcome State Fault Refusal :=
  .next (runJob s j u (fun x => x.opcode == 0x43) (fun _ => false) runKeyGetPublic)

/-! ### CTX_DERIVE (R252, R253) -/

/-- Secret bytes of a slot. -/
def slotSecret (c : Ctx) (n : Nat) : Bytes :=
  match c.slot n with
  | .secret b => b
  | _ => []

/-- Key length of an AEAD target. -/
def aeadKeyLen (alg pset : Nat) : Nat := (secretRange alg pset).1

/-- The derived bytes for `n` bytes of output. -/
def deriveBytes (c : Ctx) (j : Job) (inp : Bytes) (n : Nat) : Bytes :=
  let src := slotSecret c j.cSrc
  if j.alg = 0x2B then kmacKdf j.pset src inp j.label n
  else match j.mode with
    | 0 => expandLabel j.pset src (if j.cRaw then [] else tls13) j.label inp n
    | 1 => hkdfExtract j.pset (if j.cSaltFrom then slotSecret c j.cSaltSlot else inp)
        (if j.cSrcZero then zeros (hashLen j.pset) else src)
    | _ => hkdfExpand j.pset src inp n

/-- "key" and "iv", the labels of RFC 8446 section 7.3. -/
def labelKey : Bytes := [0x6B, 0x65, 0x79]
def labelIv : Bytes := [0x69, 0x76]

/-- The new contents of DST (R253). -/
def derivedSlot (c : Ctx) (j : Job) (inp : Bytes) : Slot :=
  if isAeadAlg j.tAlg then
    let n := aeadKeyLen j.tAlg j.tPset
    if j.alg = 0x2A ∧ j.mode = 0 then
      let src := slotSecret c j.cSrc
      let p := if j.cRaw then [] else tls13
      .aead j.tAlg j.tPset (expandLabel j.pset src p labelKey [] n) (expandLabel j.pset src p labelIv [] 12) 0
    else
      let b := deriveBytes c j inp (n + 12)
      .aead j.tAlg j.tPset (b.take n) (b.drop n) 0
  else if j.tAlg = 0 then .secret (deriveBytes c j inp j.cL)
  else .mac j.tAlg j.tPset (deriveBytes c j inp j.cL)

def runCtxDerive (s : State) (j : Job) (inp : Bytes) : State × JobResult :=
  (s, okR [] [.setSlot j.ctxH j.cDst (derivedSlot ((ctxAt s j.ctxH).getD default) j inp)])

/-- CTX_DERIVE (R253). -/
def execCtxDerive (j : Nat) (u : Upset) (s : State) : Host.Outcome State Fault Refusal :=
  .next (runJob s j u (fun x => x.opcode == 0x49) (fun _ => false) runCtxDerive)

/-! ### CTX_EXPORT, CTX_DESTROY (R255, R256) -/

/-- ALG, PSET and SEQUENCE of a KIND 1 header. -/
def slotHeader : Slot → Nat × Nat × Nat
  | .mac a p _ => (a, p, 0)
  | .aead a p _ _ q => (a, p, q)
  | _ => (0, 0, 0)

def runCtxExport (s : State) (j : Job) (_inp : Bytes) : State × JobResult :=
  let v := ((ctxAt s j.ctxH).getD default).slot (j.opt % 8)
  let (a, p, q) := slotHeader v
  (s, okR (wrapOf (kekBytes s j) (blobHeader 1 a p 4 q ++ slotMaterial v))
    (if bit j.opt 3 then [.setSlot j.ctxH (j.opt % 8) .empty] else []))

/-- CTX_EXPORT (R255). -/
def execCtxExport (j : Nat) (u : Upset) (s : State) : Host.Outcome State Fault Refusal :=
  .next (runJob s j u (fun x => x.opcode == 0x4A) (fun _ => false) runCtxExport)

def runCtxDestroy (s : State) (j : Job) (_inp : Bytes) : State × JobResult :=
  (s, okR [] [if bit j.opt 3 then .setSlot j.ctxH (j.opt % 8) .empty else .freeCtx j.ctxH])

/-- CTX_DESTROY (R256). -/
def execCtxDestroy (j : Nat) (u : Upset) (s : State) : Host.Outcome State Fault Refusal :=
  .next (runJob s j u (fun x => x.opcode == 0x4B) (fun _ => false) runCtxDestroy)

end Sys2Proof.Machine
end

