-- ==== Sys2Proof/Machine/Mxu.lean ====
section
/-! DEFINITION. The modular exponent units (R183 to R198): commands and their contexts, the validation stage, yield points,
faults and fallback. -/

namespace Sys2Proof.Machine

/-- What the stage finds wrong with a job's peer input: STATUS and DETAIL (R192); of an import it judges the unwrapped key
(R209).  Where the engine's own checks, which come first, fail too, the job ends as they say (R147, Table 7.7). -/
def mxuRefusal (s : State) (j : Job) (inp : Bytes) : Option (Nat × Nat) :=
  let k := rsaK j.pset
  let inl (n : Nat) : Bytes := if j.pkInline then inp.take n else (jobKey s j).pk
  let sigFail (b : Bool) : Option (Nat × Nat) := if b then some (0x0001, 0x06) else none
  match j.opcode with
  | 0x11 => checkPublic j.alg j.pset false inp
  | 0x50 => (checkXPoint (hybridDh j.pset) (inp.drop (inp.length - pkLen 0x14 (hybridDh j.pset)))).map fun e =>
    if j.opt % 4 = 1 then (serverEkBad j inp).getD e else e
  | 0x17 => checkRsaCt (beNat ((jobKey s j).sk.take k)) inp
  | 0x18 => if j.pkInline then checkRsaKey j.pset (inp.take (k + 4)) else none
  | 0x16 =>
    let pl := if j.pkInline then k + 4 else 0
    match (if j.pkInline then checkRsaKey j.pset (inp.take pl) else none) with
    | some e => some e
    | none => sigFail (sigRefused 0x10 j.pset (beNat ((inl pl).take k)) (sub inp pl k))
  | 0x0A =>
    let pl := if j.pkInline then pkLen j.alg j.pset else 0
    let small := if j.pkInline then bit j.opt 10 else (jobKey s j).has pSmallOrder
    match checkPublic j.alg j.pset small (inl pl) with
    | some e => some e
    | none => sigFail (sigRefused j.alg j.pset 0 (sub inp pl (sigLen j.alg j.pset)))
  | 0x40 => match importText s j inp with
    | .error _ => none
    | .ok m => match formPublic j.form j.alg j.pset m with
      | none => none
      | some pk => (checkPublic j.alg j.pset (bit j.policy pSmallOrder) pk).map fun e =>
        (importChecks j.form j.alg j.pset (bit j.policy pSmallOrder) m).getD e
  | _ => none

/-- Zeroisations that have ended are forgotten, contexts are filled and stages started on every MXU. -/
def mxuAdvance (s : State) : State :=
  let s := { s with exec.mxuZero := s.exec.mxuZero.filter fun z => decide (now s ≤ z.since) }
  (List.range 16).foldl (fun s m => startStage (fillContexts s m) m) s

/-! ### Events -/

/-- A job issues a command, having collected the result of the one before: it takes a context of the MXU that serves its
grove, or waits (R185, R197). -/
def mxuIssue (s : State) (j : Job) (code : Nat) : State :=
  let busy := match s.mxuCmd? j.id with
    | some c => c.phase != .ended
    | none => false
  if !runnable s j || !mxuUsedBy code j || busy then s else
  match mxuFor s j.grove with
  | none => finalCommit s j.id (errR 0x0600 0x25)
  | some m =>
    let c : MxuCmd := { job := j.id, code := code, mxu := m, ctx := none, phase := .queued, order := s.exec.mxuOrder,
                        since := now s, stageAt := none, ram := [], secret := none, saved := 0, steps := 0, copyA := false,
                        copyB := false, seen := false, resumed := false }
    let got := ((s.mxuCmd? j.id).map (·.code)).toList
    let s := s.updJob j.id fun x => { x with mxuGot := x.mxuGot ++ got }
    let s := { s with exec.mxu := s.exec.mxu.filter (·.job != j.id) ++ [c], exec.mxuOrder := s.exec.mxuOrder + 1 }
    mxuStart (startStage (fillContexts s m) m) m

/-- A save record: both copies, of the operand RAM as it stands (R189). -/
def MxuCmd.save (c : MxuCmd) : MxuCmd := { c with saved := c.steps, copyA := true, copyB := true }

/-- Back to the last save record: where the first copy fails its ECC, from the other (R196).  DESIGN CHOICE (log entry 54):
with neither the command starts again. -/
def MxuCmd.back (c : MxuCmd) : MxuCmd := { c with steps := if c.copyA || c.copyB then c.saved else 0 }

/-- A yield point of the running command: a save record, then the choice of the next context (R187, R189). -/
def mxuYield (s : State) (c : MxuCmd) : State :=
  if c.phase != .running then s
  else mxuChoose (s.updMxu c.job fun c => { c with steps := c.steps + 1 }.save) c.mxu

/-- The running command ends and has overwritten its operand RAM (R195): its result waits to be collected. -/
def mxuDone (s : State) (c : MxuCmd) : State :=
  if c.phase != .running then s
  else mxuStart (s.updMxu c.job fun c => { c with phase := .ended, ram := [], secret := none }) c.mxu

/-- A command loses its context, and waits for a fresh one (R195, R196). -/
def MxuCmd.requeue (c : MxuCmd) : MxuCmd :=
  { c.back with ctx := none, phase := .queued, stageAt := none, ram := [], secret := none }

/-- A fault of the MXU under the running command: its context is zeroised and it resumes from its save record in a fresh
one, in class 1, or in class 4 if its job is unconfirmed (R194 to R196); the job's CE carries FAILOVER_SEEN.  An injected fault is raised apart, not `detected` (R399). -/
def mxuFault (s : State) (c : MxuCmd) (detected : Bool := true) : State :=
  if c.phase != .running then s
  else
    let zs : List MxuZero := match c.ctx with
      | some k => [{ mxu := c.mxu, ctx := k, since := now s }]
      | none => []
    let s := { s with exec.mxuZero := s.exec.mxuZero ++ zs }
    let s := s.updMxu c.job fun c => { c.requeue with resumed := true }
    let s := s.updJob c.job (Job.lose (now s))
    mxuStart (fillContexts (if detected then raiseSrc s 0x03 c.mxu 0 else s) c.mxu) c.mxu

/-- An event of a command of the given code. -/
def mxuEvent (s : State) (j code : Nat) (ev : MxuEvent) : State :=
  if !s.service then s else
  match ev with
  | .issue => match s.job? j with
    | some x => mxuIssue s x code
    | none => s
  | .yield => match s.mxuCmd? j with
    | some c => if c.code = code then mxuYield s c else s
    | none => s
  | .done => match s.mxuCmd? j with
    | some c => if c.code = code then mxuDone s c else s
    | none => s
  | .fault => match s.mxuCmd? j with
    | some c => if c.code = code then mxuFault s c else s
    | none => s

/-- VALIDATE (R186, R190). -/
def execValidate (j : Nat) (ev : MxuEvent) (s : State) : Host.Outcome State Fault Refusal := .next (mxuEvent s j 1 ev)

/-- RSA_PRIV (R202). -/
def execRsaPriv (j : Nat) (ev : MxuEvent) (s : State) : Host.Outcome State Fault Refusal := .next (mxuEvent s j 2 ev)

/-- RSA_PUB (R201). -/
def execRsaPub (j : Nat) (ev : MxuEvent) (s : State) : Host.Outcome State Fault Refusal := .next (mxuEvent s j 3 ev)

/-- RSA_GEN (R204). -/
def execRsaGen (j : Nat) (ev : MxuEvent) (s : State) : Host.Outcome State Fault Refusal := .next (mxuEvent s j 4 ev)

/-- EC_GEN (R205). -/
def execEcGen (j : Nat) (ev : MxuEvent) (s : State) : Host.Outcome State Fault Refusal := .next (mxuEvent s j 5 ev)

/-- EC_SIGN (R206, R207). -/
def execEcSign (j : Nat) (ev : MxuEvent) (s : State) : Host.Outcome State Fault Refusal := .next (mxuEvent s j 6 ev)

/-- EC_VERIFY (R206, R207). -/
def execEcVerify (j : Nat) (ev : MxuEvent) (s : State) : Host.Outcome State Fault Refusal := .next (mxuEvent s j 7 ev)

/-- EC_DERIVE (R208). -/
def execEcDerive (j : Nat) (ev : MxuEvent) (s : State) : Host.Outcome State Fault Refusal := .next (mxuEvent s j 8 ev)

/-! ### The stage's result (R190, R191) -/

/-- The stage delivers its verdict on a job's input at the first boundary after its 2,048 mcy: on a pass the command is
ready, its secret delivered, and a VALIDATE has ended; on a failure the command ends and the job with it. -/
def deliverVerdict (s : State) (j : Nat) : State :=
  match s.mxuCmd? j, s.job? j with
  | some c, some x =>
    match c.stageAt with
    | none => s
    | some t =>
      if c.phase != .validating || now s < t + 2 then s else
      match jobInput s x with
      | (t, none) => noInput s t x
      | (s, some inp) =>
        match mxuRefusal s x inp with
          | some (st, d) => finalCommit (s.updMxu j fun c => { c with phase := .ended }) j (errR st d)
          | none =>
            let s := s.updMxu j fun c => if c.code = 1 then { c with phase := .ended, stageAt := none, ram := [] } else c.load s
            mxuStart (startStage (fillContexts s c.mxu) c.mxu) c.mxu
  | _, _ => s

/-- VALIDATION_RESULT (R190). -/
def execValidationResult (j : Nat) (s : State) : Host.Outcome State Fault Refusal :=
  .next (if s.service then deliverVerdict s j else s)

/-! ### At the tick boundary (R188, R197) -/

/-- MXU_FALLBACK: commands on an MXU that no longer serves go to the next serving one; those in validation start the stage
again, the others resume from their save records (R197). -/
def mxuFallback (s : State) : State :=
  { s with exec.mxu := s.exec.mxu.map fun c =>
      if s.serves (unitId 1 c.mxu) || c.phase == .ended then c
      else match s.job? c.job with
        | none => c
        | some j => match mxuFor s j.grove with
          | none => c
          | some m => { c.requeue with mxu := m, resumed := c.phase == .ready || c.phase == .running || c.resumed } }

/-- Jobs whose commands lost their contexts carry FAILOVER_SEEN, the tick they lost counted once (R47, R196); a command that
still waited for a context has lost nothing. -/
def markFallback (s before : State) : State :=
  let moved := s.exec.mxu.filter fun c => c.phase == .queued
    && before.exec.mxu.any fun d => d.job == c.job && d.mxu != c.mxu && d.ctx.isSome
  { s with work.jobs := updWhere (fun j => moved.any (·.job == j.id)) (Job.lose (now s - 1)) s.work.jobs }

/-- MXU_PREEMPT: a running speculative command yields, or stops at once when a confirmed one waits (R188); it gets no datapath
time while the device is throttled (Table 19.6). -/
def mxuPreempt (s : State) (m : Nat) : State :=
  let waits := s.exec.mxu.any fun c => c.mxu == m && c.phase == .ready && decide (mxuClass s c < 4)
  match s.exec.mxu.find? fun c => c.mxu == m && c.phase == .running with
  | none => mxuStart s m
  | some c =>
    if mxuClass s c != 4 then s
    else if waits then mxuChoose (s.updMxu c.job fun c => { c.back with phase := .ready }) m
    else if s.power.level != 0 then mxuChoose (s.updMxu c.job fun c => { c.save with phase := .ready }) m
    else mxuYield s c

/-- The MXUs at step 5 of a boundary. -/
def mxuBoundary (s : State) : State :=
  let s := mxuAdvance (markFallback (mxuFallback s) s)
  (List.range 16).foldl mxuPreempt s

end Sys2Proof.Machine
end

