-- ==== Sys2Proof/Machine/Micro.lean ====
section
/-! DEFINITION. The micro-sequencers (R336 to R342, R350): next addresses, trap-match redirection, commit points.  The
datapath controls of a nanoword are not published: a microword's effect here is its sequencing (log entry 6). -/

namespace Sys2Proof.Machine

/-- A sequencer; one that has not run yet stands at address 0 with an empty stack (log entry 17). -/
def State.seq (s : State) (q : Nat) : Sequencer :=
  (s.exec.seqs.find? (·.id == q)).getD { id := q, upc := 0, stack := [] }

/-- Put back a sequencer. -/
def State.putSeq (s : State) (x : Sequencer) : State :=
  { s with exec.seqs := x :: s.exec.seqs.filter (·.id != x.id) }

/-- Is it an engine's sequencer? -/
def isEngineSeq (q : Nat) : Bool := decide (q < 272)

/-- The patch RAMs and trap entries of a sequencer: all engines alike, all MXUs alike (R336). -/
def State.patchOf (s : State) (q : Nat) : Patch := if isEngineSeq q then s.grafts.engine else s.grafts.mxu

/-- Bank and index of a micro address. -/
def bankOf (a : Nat) : Nat := a / 16384 % 2
def indexOf (a : Nat) : Nat := a % 16384

/-- A word as the microword of Table 12.2 without its parity bit. -/
def microBits (w : MicroWord) (sq : Nat) : Nat :=
  w.nano % 4096 * 4096 + sq * 256 + w.cond % 16 * 16 + w.stretch % 4 * 4 + 2 * b2n w.isSecret

/-- TARGET and MBW of the nanoword a microword of a bank selects; `none` for a patch NANO with no patch word (R338,
R341). -/
def nanoOf (s : State) (q bank nano : Nat) : Option (Nat × Nat) :=
  if bank = 1 ∧ 0xF00 ≤ nano then
    ((s.patchOf q).nano.find? (·.1 == nano - 0xF00)).map fun p => (p.2 / 2 ^ 178 % 16384, p.2 / 2 ^ 176 % 4)
  else
    let v := Config.nanoRom (if isEngineSeq q then nano % 4096 else 4096 + nano % 4096)
    some (v / 4 % 16384, v % 4)

/-- May this word stand at the address?  A patch microword is the one the image loaded; the ROM is not published. -/
def stands (s : State) (q a : Nat) (w : MicroWord) (sq : Nat) : Bool :=
  if bankOf a = 0 then true
  else match (s.patchOf q).micro.find? (·.1 == indexOf a) with
    | some p => p.2 / 2 * 2 == microBits w sq
    | none => true

/-- Why a microword does not complete. -/
inductive MicroHalt where
  | form | taint
  deriving DecidableEq, Repr

/-- An address in a bank: one in bank 1 above 1,023 is MCODE_FORM (R341). -/
def inBank (bank i : Nat) : Except MicroHalt Nat :=
  if bank = 0 then .ok (i % 16384) else if 1023 < i then .error .form else .ok (16384 + i)

/-- Redirection by a trap-match entry: bank-0 addresses alone are matched (R350). -/
def trapMatch (s : State) (q a : Nat) : Nat :=
  if bankOf a = 0 then
    match (s.patchOf q).trap.find? (·.1 == a) with
    | some p => 16384 + p.2
    | none => a
  else a

/-- What stands on a sequencer: the job whose slice runs on the engine, or whose command runs on the MXU. -/
def seqJob (s : State) (q : Nat) : Option Job :=
  if isEngineSeq q then
    s.work.jobs.find? fun j => j.engine == q && inSlice s j && !((s.run? j.id).any (·.paused))
  else match s.exec.mxu.find? fun c => c.mxu == q - 272 && c.phase == .running with
    | some c => s.job? c.job
    | none => none

/-- MCODE_FORM is handled as ILLEGAL, a tagged condition as TAINT (R339, R341). -/
def microFault (s : State) (j : Job) (h : MicroHalt) : State :=
  match enterRun s j with
  | (s, some r) => engineFault s j r (match h with
    | .form => .illegal
    | .taint => .taint)
  | (s, none) => s

/-- One microword on a sequencer: `f` gives the next address and stack from the present ones and the nanoword's TARGET and
MBW, `g` what the word does beside. -/
def microStep (s : State) (q : Nat) (w : MicroWord) (sq : Nat)
    (f : Nat → List Nat → Nat × Nat → Except MicroHalt (Nat × List Nat)) (g : Job → State → State) : State :=
  let x := s.seq q
  match seqJob s q with
  | none => s
  | some j =>
    if !s.service || 288 ≤ q || !stands s q x.upc w sq then s
    -- no SECRET word runs while the grove DRBG is in its error state (R372)
    else if w.isSecret && drbgDown s j then finalCommit s j.id (errR 0x0600 0x70) else
    match nanoOf s q (bankOf x.upc) w.nano with
    | none => microFault s j .form
    | some n => match f x.upc x.stack n with
      | .error h => microFault s j h
      | .ok (a, st) => g j (s.putSeq { x with upc := trapMatch s q a, stack := st })

/-- Nothing beside the sequencing. -/
def seqOnly (_ : Job) (s : State) : State := s

/-- Current + 1, same bank. -/
def succAddr (a : Nat) : Except MicroHalt Nat := inBank (bankOf a) (indexOf a + 1)

/-- With the next address, the stack unchanged. -/
def withStack (st : List Nat) (r : Except MicroHalt Nat) : Except MicroHalt (Nat × List Nat) :=
  match r with
  | .error h => .error h
  | .ok a => .ok (a, st)

/-- A call: the return address on the 8-entry stack (Table 12.3). -/
def pushCall (a : Nat) (st : List Nat) (r : Except MicroHalt Nat) : Except MicroHalt (Nat × List Nat) :=
  if 8 ≤ st.length then .error .form
  else match r, succAddr a with
    | .ok t, .ok b => .ok (t, b :: st)
    | _, _ => .error .form

/-- MICRO_NEXT (R337). -/
def execMicroNext (q : Nat) (w : MicroWord) (s : State) : Host.Outcome State Fault Refusal :=
  .next (microStep s q w 0x0 (fun a st _ => withStack st (succAddr a)) seqOnly)

/-- MICRO_JUMP (R337). -/
def execMicroJump (q : Nat) (w : MicroWord) (s : State) : Host.Outcome State Fault Refusal :=
  .next (microStep s q w 0x1 (fun a st n => withStack st (inBank (bankOf a) n.1)) seqOnly)

/-- MICRO_MBRANCH (R339): `c` is the condition group, `tagged` whether its source state is. -/
def execMicroMbranch (q : Nat) (w : MicroWord) (c : Nat) (tagged : Bool) (s : State) : Host.Outcome State Fault Refusal :=
  .next (microStep s q w 0x2 (fun a st n =>
    let k := 2 ^ (n.2 + 1)
    if tagged then .error .taint
    else if n.1 % k ≠ 0 then .error .form
    else withStack st (inBank (bankOf a) (n.1 + c % 16 % k))) seqOnly)

/-- MICRO_CALL (R337). -/
def execMicroCall (q : Nat) (w : MicroWord) (s : State) : Host.Outcome State Fault Refusal :=
  .next (microStep s q w 0x3 (fun a st n => pushCall a st (inBank (bankOf a) n.1)) seqOnly)

/-- MICRO_RETURN (R337). -/
def execMicroReturn (q : Nat) (w : MicroWord) (s : State) : Host.Outcome State Fault Refusal :=
  .next (microStep s q w 0x4 (fun _ st _ => match st with
    | b :: r => .ok (b, r)
    | [] => .error .form) seqOnly)

/-- A commit point of the job on an engine, or the end of an MXU command (R337, R342). -/
def microCommit (q : Nat) (j : Job) (s : State) : State :=
  if isEngineSeq q then
    match enterRun s j with
    | (s, some r) =>
      let e := commitPoint { s := s, j := j, r := r }
      e.s.putRun e.r
    | (s, none) => s
  else match s.mxuCmd? j.id with
    | some c => mxuDone s c
    | none => s

/-- YIELD: the engine gives up the rest of the tick; on an MXU a save record and the choice of the next context. -/
def microYield (q : Nat) (j : Job) (s : State) : State :=
  if isEngineSeq q then
    match enterRun s j with
    | (s, some r) =>
      let e := stageCommit { s := s, j := j, r := r }
      e.s.putRun { e.r with paused := true }
    | (s, none) => s
  else match s.mxuCmd? j.id with
    | some c => mxuYield s c
    | none => s

/-- END: the final commit of the job, or the end of an MXU command. -/
def microEnd (q : Nat) (j : Job) (s : State) : State :=
  if isEngineSeq q then
    match enterRun s j with
    | (s, some r) => finalCommit (s.putRun { r with staged := some r.cur, paused := true }) j.id
        (archResult { s := s, j := j, r := r })
    | (s, none) => s
  else match s.mxuCmd? j.id with
    | some c => mxuDone s c
    | none => s

/-- MICRO_COMMIT (R337, R342). -/
def execMicroCommit (q : Nat) (w : MicroWord) (s : State) : Host.Outcome State Fault Refusal :=
  .next (microStep s q w 0x5 (fun a st _ => withStack st (succAddr a)) (microCommit q))

/-- MICRO_YIELD (R337, R342): it goes on at current + 1 when the job has its next slice. -/
def execMicroYield (q : Nat) (w : MicroWord) (s : State) : Host.Outcome State Fault Refusal :=
  .next (microStep s q w 0x6 (fun a st _ => withStack st (succAddr a)) (microYield q))

/-- MICRO_END (R337): nothing follows it; the address stays. -/
def execMicroEnd (q : Nat) (w : MicroWord) (s : State) : Host.Outcome State Fault Refusal :=
  .next (microStep s q w 0x7 (fun a st _ => .ok (a, st)) (microEnd q))

/-- MICRO_XJUMP (R337). -/
def execMicroXjump (q : Nat) (w : MicroWord) (s : State) : Host.Outcome State Fault Refusal :=
  .next (microStep s q w 0x8 (fun a st n => withStack st (inBank (1 - bankOf a) n.1)) seqOnly)

/-- MICRO_XCALL (R337). -/
def execMicroXcall (q : Nat) (w : MicroWord) (s : State) : Host.Outcome State Fault Refusal :=
  .next (microStep s q w 0x9 (fun a st n => pushCall a st (inBank (1 - bankOf a) n.1)) seqOnly)

/-- MICRO_WAIT (R337, R339): `c` is the selected condition. -/
def execMicroWait (q : Nat) (w : MicroWord) (c : Nat) (tagged : Bool) (s : State) : Host.Outcome State Fault Refusal :=
  .next (microStep s q w 0xA (fun a st _ =>
    if tagged then .error .taint
    else if c % 2 = 1 then .ok (a, st)
    else withStack st (succAddr a)) seqOnly)

/-- The word at a job's PC. -/
def wordAtPc (s : State) (j : Job) : Nat :=
  match s.run? j.id with
  | none => vendorCode s (entryPc s j)
  | some r => match jobRoutine s j with
    | some rt => (overlayWord rt r.cur.pc).getD 0x7000
    | none => vendorCode s r.cur.pc

/-- MICRO_DISPATCH (R337): the decode ROM gives the entry of the next instruction (R336). -/
def execMicroDispatch (q : Nat) (w : MicroWord) (s : State) : Host.Outcome State Fault Refusal :=
  .next (microStep s q w 0xB (fun _ st _ =>
    match seqJob s q with
    | some j => .ok (Config.decodeRom (wordAtPc s j) % 16384, st)
    | none => .error .form) seqOnly)

end Sys2Proof.Machine
end

