-- ==== Sys2Proof/Machine/Grafts.lean ====
section
/-! DEFINITION. Images, their checks, loading at boot step 4 and staging (R327, R328, R345 to R361). -/

namespace Sys2Proof.Machine

/-! ### The image format (R347) -/

/-- A section of an image. -/
structure Section where
  kind : Nat
  off : Nat
  len : Nat
  count : Nat
  deriving DecidableEq, Repr, Inhabited

/-- Header fields (Table 12.6). -/
def imgKind (b : Bytes) : Nat := byteAt b 5
def imgEncrypted (b : Bytes) : Bool := bit (byteAt b 6) 0
def imgSigned (b : Bytes) : Bool := bit (byteAt b 6) 1
def imgVersion (b : Bytes) : Nat := leAt b 8 4
def imgFuseTo (b : Bytes) : Nat := byteAt b 12
def imgLength (b : Bytes) : Nat := leAt b 16 4
def imgSigner (b : Bytes) : Bytes := sub b 64 32

/-- The image a flash slot holds: LENGTH bytes of it, erased flash reading 0xFF. -/
def slotImage (slot : Bytes) : Bytes :=
  let n := min 262144 (imgLength slot)
  (slot ++ List.replicate (n - slot.length) 0xFF).take n

/-- The bytes before the signature block. -/
def imgBody (b : Bytes) : Bytes := b.take (b.length - leAt b 20 4)

/-- The section table of a plain image. -/
def imgSections (b : Bytes) : List Section :=
  (List.range (leAt b 52 2)).map fun i =>
    let o := 128 + 16 * i
    { kind := byteAt b o, off := leAt b (o + 4) 4, len := leAt b (o + 8) 4, count := leAt b (o + 12) 4 }

/-- Header form, zero fields, flags consistent with Table 12.8, LENGTH and SIG_LEN (check 1). -/
def imgHeaderOk (b : Bytes) : Bool :=
  let k := imgKind b
  leAt b 0 4 == 0x46475A44 && byteAt b 4 == 1 && decide (k ≤ 3) && decide (byteAt b 6 < 4) && byteAt b 7 == 0
    && decide (imgFuseTo b ≤ 64) && decide (imgFuseTo b ≤ imgVersion b / 2 ^ 24) && (decide (k < 2) || imgFuseTo b == 0)
    && byteAt b 13 == 0 && decide (imgLength b ≤ 262144) && b.length == imgLength b
    && leAt b 20 4 == (if imgSigned b then 7412 else 0)
    && (imgEncrypted b || (allZero b 24 12 && allZero b 36 16)) && decide (1 ≤ leAt b 52 2) && decide (leAt b 52 2 ≤ 16)
    && allZero b 54 10 && allZero b 96 32 && decide (128 + 16 * leAt b 52 2 + leAt b 20 4 ≤ imgLength b)
    && (match k with
      | 0 => imgSigned b && imgEncrypted b
      | 1 => !imgSigned b
      | _ => !imgEncrypted b)

/-- Section bounds inside the image and not overlapping (check 1). -/
def boundsOk (b : Bytes) : Bool :=
  let ss := imgSections b
  let top := (imgBody b).length
  ss.all (fun x => decide (128 + 16 * ss.length ≤ x.off) && decide (x.off + x.len ≤ top)) &&
    ss.zipIdx.all (fun x => ss.zipIdx.all fun y =>
      x.2 == y.2 || decide (x.1.off + x.1.len ≤ y.1.off) || decide (y.1.off + y.1.len ≤ x.1.off)) &&
    (List.range ss.length).all fun i => allZero b (128 + 16 * i + 1) 3

/-- KIND accepted in the current state (Table 12.8). -/
def kindOk (s : State) (b : Bytes) : Bool :=
  match imgKind b with
  | 0 => [Lcs.test, .provisioned, .develop, .deployed, .returned].contains s.lcs
  | 1 => s.lcs == .test
  | 2 => s.lcs == .develop
  | _ => s.lcs == .test || s.lcs == .develop || (s.lcs == .deployed && imgSigned b)

/-! ### Signatures and encryption (R347, R348) -/

/-- Keys of a signature block: ML-DSA-87 then P-384. -/
def sigKeys (b : Bytes) : Bytes := sub b (b.length - 7412) 2689

/-- SHA3-256 of a string. -/
def sha3 (b : Bytes) : Bytes := hashOf 8 b [] [] 32

/-- The root that signs a kind: the vendor's in boot ROM, or the owner code root. -/
def rootOf (s : State) (kind : Nat) : Bytes :=
  if kind = 0 then (List.range 32).map Config.vendorRoot else s.life.otp.ownerRoot

/-- Both signatures of a block over `msg`, under the given context string. -/
def sigsOk (ctx : Bytes) (keys msg sigs : Bytes) : Bool :=
  stdHolds .deviceVerify 0x0203 [ctx, keys.take 2592, msg, sigs.take 4627]
    && stdHolds .deviceVerify 0x1102 [keys.drop 2592, msg, sigs.drop 4627]

/-- "dzgraft". -/
def dzgraft : Bytes := [0x64, 0x7A, 0x67, 0x72, 0x61, 0x66, 0x74]

/-- The graft key: KMAC256 under the graft root, all zero for a test image, over VERSION with customisation "graft". -/
def graftKey (s : State) (b : Bytes) : Bytes :=
  let root := if imgKind b = 1 then zeros 32 else if s.life.otp.wiped then List.replicate 32 0xFF
    else (List.range 32).map Config.graftRoot
  kmacOf 2 root (sub b 8 4) [0x67, 0x72, 0x61, 0x66, 0x74] 32

/-- The image with its encrypted part decrypted; `none` when the tag fails. -/
def decrypted (s : State) (b : Bytes) : Option Bytes :=
  if !imgEncrypted b then some b else
  let body := imgBody b
  let aad := body.take 24 ++ sub body 52 76
  let ct := body.drop 128 ++ sub body 36 16
  if aeadTagOk (ap 0x30 2) (graftKey s b) (sub b 24 12) aad ct then
    some (body.take 128 ++ aeadTextOf (ap 0x30 2) (graftKey s b) (sub b 24 12) aad ct ++ b.drop body.length)
  else none

/-! ### Sections (check 8) -/

/-- The `i`-th element of `n` bytes of a section. -/
def elem (b : Bytes) (x : Section) (n i : Nat) : Bytes := sub b (x.off + n * i) n

/-- The section of a type. -/
def sectionOf (b : Bytes) (k : Nat) : Option Section := (imgSections b).find? (·.kind == k)

/-- The elements of a section, each read by `f`. -/
def elems {α : Type} (b : Bytes) (k n : Nat) (f : Bytes → α) : List α :=
  match sectionOf b k with
  | some x => (List.range x.count).map fun i => f (elem b x n i)
  | none => []

/-- The patch that the sections from `k` on carry: micro, nano and trap. -/
def patchFrom (b : Bytes) (k : Nat) : Patch :=
  { micro := elems b k 8 fun e => (leAt e 0 2 % 1024, leAt e 4 4 % 2 ^ 24),
    nano := elems b (k + 1) 26 fun e => (leAt e 0 2, leNat (e.drop 2)),
    trap := (elems b (k + 2) 4 fun e => leNat e).filterMap fun v =>
      if bit v 31 then some (v / 1024 % 16384, v % 1024) else none }

/-- Number of bits set. -/
def popcount (v n : Nat) : Nat := ((List.range n).filter (bit v)).length

/-- Sections that may stand in a kind, with their COUNT limit and element size (Table 12.7). -/
def sectionRow (k : Nat) : Option (Nat × Nat × List Nat) :=
  match k with
  | 0x01 => some (1024, 8, [0, 1])
  | 0x04 => some (1024, 8, [0, 1])
  | 0x02 => some (256, 26, [0, 1])
  | 0x05 => some (256, 26, [0, 1])
  | 0x03 => some (32, 4, [0, 1])
  | 0x06 => some (32, 4, [0, 1])
  | 0x07 => some (6144, 2, [0, 1, 2])
  | 0x08 => some (64, 8, [0, 1])
  | 0x09 => some (255, 32, [3])
  | 0x0A => some (65536, 1, [3])
  | _ => none

/-- Type allowed for the kind, COUNT within its limit, LENGTH as COUNT says; a LIBRARY goes on with its routine table. -/
def sectionOk (b : Bytes) (x : Section) : Bool :=
  match sectionRow x.kind with
  | some (limit, size, kinds) => kinds.contains (imgKind b) && decide (x.count ≤ limit) &&
      (if x.kind = 7 then decide (2 * x.count ≤ x.len) && (x.len - 2 * x.count) % 32 == 0 else x.len == size * x.count)
  | none => false

/-- Does a patch microword obey R337 to R340, in a sequencer with the image's nanowords? -/
def microOk (s : State) (q : Nat) (e : Bytes) : Bool :=
  let w := leAt e 4 4
  let sq := bits w 11 8
  let target := nanoOf s q 1 (bits w 23 12)
  decide (leAt e 0 2 < 1024) && leAt e 2 2 == 0 && decide (w < 2 ^ 24) && popcount w 24 % 2 == 1 && decide (sq < 0xC)
    && (!bit w 1 || [0x0, 0x1, 0x3, 0x4, 0x5, 0x6, 0xB].contains sq)
    && (match target with
      | none => false
      | some (t, m) => (!([0x1, 0x2, 0x3].contains sq) || decide (t < 1024)) && (sq != 0x2 || t % 2 ^ (m + 1) == 0))

/-- The budget this manual fixes for an operation, where it is one number. -/
def fixedBudget (op alg pset : Nat) : Option Nat :=
  match op with
  | 0x01 => some (keygenBudget alg pset)
  | 0x02 => some (encapsBudget alg pset)
  | 0x03 => some (decapsBudget alg pset)
  | 0x08 => if isStateful alg then none else some (keygenBudget alg pset)
  | 0x09 => if isStateful alg then none else some (signBudget alg pset)
  | 0x10 => some (keygenBudget alg pset)
  | 0x11 => some (deriveBudget alg pset)
  | 0x14 => some (keygenBudget alg pset)
  | 0x15 => some (signBudget alg pset)
  | 0x17 => some (signBudget alg pset)
  | _ => none

/-- Has the manual an operation of this OPCODE, ALG and PSET? -/
def manualOp (op alg pset : Nat) : Bool := opAccepts [] op alg && psetOk op alg pset

/-- Does a vendor routine entry obey R345 and R346? -/
def vendorOk (e : Bytes) : Bool :=
  let op := byteAt e 1
  let limit := if bit (byteAt e 14) 1 then 500 else if bit (byteAt e 14) 0 then 836 else 900
  byteAt e 0 == 0 && decide (leAt e 4 2 < 0x1800) && decide (1 ≤ leAt e 6 2) && decide (leAt e 6 2 ≤ 6144)
    && decide (leAt e 8 2 ≤ limit) && decide (byteAt e 14 < 4) && byteAt e 15 == 0 && allZero e 16 16
    && (!manualOp op (byteAt e 2) (byteAt e 3) || ((fixedBudget op (byteAt e 2) (byteAt e 3)).all (· == leAt e 10 2)
      && (op == 0x50 || (sprintBudget op (byteAt e 2) (byteAt e 3) 0).getD 0 == leAt e 12 2)))

/-- The rows of a LIBRARY's routine table. -/
def vendorRows (b : Bytes) : List Bytes :=
  match sectionOf b 7 with
  | some x => (List.range ((x.len - 2 * x.count) / 32)).map fun i => sub b (x.off + 2 * x.count + 32 * i) 32
  | none => []

/-- Check 8 on a plain image. -/
def sectionsOk (s : State) (b : Bytes) : Bool :=
  let s' := { s with grafts.engine := patchFrom b 1, grafts.mxu := patchFrom b 4 }
  let microOf (q k : Nat) : Bool := (elems b k 8 id).all (microOk s' q)
  let nanoSet (k : Nat) : Bool := (elems b k 26 id).all fun e => decide (leAt e 0 2 < 256)
  let traps (k : Nat) : Bool :=
    let vs := elems b k 4 leNat
    let ms := (vs.filter (bit · 31)).map (bits · 23 10)
    vs.all (fun v => bits v 30 24 == 0) && ms.length == ms.eraseDups.length
  (imgSections b).all (sectionOk b) && microOf 0 1 && microOf 272 4 && nanoSet 2 && nanoSet 5 && traps 3 && traps 6
    && (vendorRows b).all vendorOk
    && (elems b 8 8 id).all fun e => byteAt e 3 == 0 && !manualOp (byteAt e 0) (byteAt e 1) (byteAt e 2)

/-! ### The checks of Table 12.10 -/

/-- The refusal reason of an image, or its plain form.  `split`: its signature decision disagrees with itself (R375). -/
def checkImage (s : State) (b : Bytes) (kinds : List Nat) (split : Bool) : Except Nat Bytes :=
  let signed := imgSigned b
  if !imgHeaderOk b || (!imgEncrypted b && !boundsOk b) then .error 0x01
  else if !kinds.contains (imgKind b) || !kindOk s b then .error 0x02
  else if !bit (leAt b 14 2) s.pins.stepping then .error 0x03
  else if imgKind b < 2 ∧ imgVersion b / 2 ^ 24 < s.floorT then .error 0x04
  else if signed && (imgSigner b != rootOf s (imgKind b) || sha3 (sigKeys b) != imgSigner b) then .error 0x05
  else if signed && (split || !sigsOk dzgraft (sigKeys b) (imgBody b) (b.drop (b.length - 4723))) then .error 0x06
  else match decrypted s b with
    | none => .error 0x07
    | some p => if imgEncrypted b && !boundsOk p then .error 0x01 else if sectionsOk s p then .ok p else .error 0x08

/-! ### Loading (R352, R353) -/

/-- Glitch alarm of a signature decision: the image alone is refused (R375). -/
def imageAlarm (s : State) (split : Bool) (r : Except Nat Bytes) : State :=
  match r with
  | .error 0x06 => if split then glitchAlarm s 0xFFFF 0 0xFFFF else s
  | _ => s

/-- The library and vendor table of an image, when it has a LIBRARY section. -/
def loadLibrary (s : State) (b : Bytes) : State :=
  match sectionOf b 7 with
  | none => s
  | some x => { s with
      grafts.library := some ((List.range x.count).map fun i => leAt b (x.off + 2 * i) 2),
      grafts.vendor := (vendorRows b).map fun e =>
        ⟨byteAt e 1, byteAt e 2, byteAt e 3, leAt e 4 2, leAt e 8 2, leAt e 10 2, leAt e 12 2, bit (byteAt e 14) 0,
          bit (byteAt e 14) 1⟩ }

/-- Load an accepted vendor or test image from a slot. -/
def loadVendor (s : State) (slot : Nat) (raw b : Bytes) : State :=
  loadLibrary { s with
    grafts.version := imgVersion b, grafts.slot := slot, grafts.digest := sha3 raw,
    grafts.fuseTo := if imgKind b = 0 then imgFuseTo b else 0,
    grafts.engine := patchFrom b 1, grafts.mxu := patchFrom b 4,
    grafts.catalogue := elems b 8 8 fun e => ⟨byteAt e 0, byteAt e 1, byteAt e 2, leAt e 4 2, leAt e 6 2⟩ } b

/-- Check a graft slot (1 GRAFT_A, 2 GRAFT_B) and load it, or refuse it with its record. -/
def trySlot (s : State) (slot : Nat) (glitch : Option Nat) : State × Bool :=
  let raw := slotImage (if slot = 1 then s.grafts.slotA else s.grafts.slotB)
  let split := glitch == some (slot + 1)
  let r := checkImage s raw [0, 1] split
  let s := imageAlarm s split r
  match r with
  | .ok b => (loadVendor { s with grafts.okA := s.grafts.okA || slot == 1, grafts.okB := s.grafts.okB || slot == 2 } slot raw b, true)
  | .error why =>
    let s := { s with
      grafts.reasonA := if slot = 1 then why else s.grafts.reasonA,
      grafts.reasonB := if slot = 2 then why else s.grafts.reasonB }
    (emit s 0x0301 slot why s.floorT, false)

/-- Does a routine entry keep the limits of Table 11.15 (R328)? -/
def routineOk (e : Bytes) (codeLen : Nat) (before : List Nat) : Bool :=
  let limit := if bit (byteAt e 14) 1 then 372 else if bit (byteAt e 14) 0 then 708 else 772
  let key := byteAt e 15
  byteAt e 0 != 0 && !before.contains (byteAt e 0) && byteAt e 1 == 0x60 && byteAt e 2 == 0 && byteAt e 3 == 0
    && decide (1 ≤ leAt e 6 2) && decide (leAt e 6 2 ≤ 2048) && decide (leAt e 4 2 < leAt e 6 2)
    && decide (leAt e 8 2 ≤ limit) && decide (1 ≤ leAt e 10 2) && leAt e 12 2 == 0 && decide (byteAt e 14 < 4)
    && (if key = 0 then byteAt e 16 == 0 else if key = 0x28 ∨ key = 0x29 then byteAt e 16 == 2
        else (key == 0x30 || key == 0x31) && byteAt e 16 == 5)
    && allZero e 17 3 && decide (leAt e 20 4 ≤ 65536) && decide (leAt e 24 4 ≤ 65536)
    && decide (leAt e 28 4 + 2 * leAt e 6 2 ≤ codeLen)

/-- A routine of a bundle. -/
def routineFrom (e code : Bytes) : Routine :=
  { id := byteAt e 0, entry := leAt e 4 2, segBound := leAt e 8 2, budget := leAt e 10 2, sv := bit (byteAt e 14) 0,
    lv := bit (byteAt e 14) 1, keyAlg := byteAt e 15, keyUsage := byteAt e 16, inMax := leAt e 20 4, outMin := leAt e 24 4,
    code := (List.range (leAt e 6 2)).map fun i => leAt code (leAt e 28 4 + 2 * i) 2 }

/-- Load a routine, or refuse it alone with a ROUTINE_REFUSED record, whose reason no rule gives (log entry 25). -/
def loadRoutine (code : Bytes) (s : State) (e : Bytes) : State :=
  if routineOk e code.length (s.grafts.routines.map (·.id)) then
    { s with grafts.routines := s.grafts.routines ++ [routineFrom e code] }
  else
    let (r, s) := takeFreeNat s
    emit s 0x0205 (byteAt e 0) 0 (r % 2 ^ 32)

/-- Step 6 of R352: the bundle slot. -/
def loadBundle (s : State) (glitch : Option Nat) : State :=
  if !(s.lcs == .test || s.lcs == .develop || s.lcs == .deployed) || s.grafts.slotBundle.isEmpty then s else
  let raw := slotImage s.grafts.slotBundle
  let split := glitch == some 5
  let r := checkImage s raw [3] split
  let s := imageAlarm s split r
  match r with
  | .error why => emit s 0x0205 0 0 why
  | .ok b =>
    let code := match sectionOf b 0x0A with
      | some x => sub b x.off x.len
      | none => []
    (elems b 9 32 id).foldl (loadRoutine code) { s with grafts.bundle := true, grafts.bundleDigest := sha3 raw }

/-- Step 5 of R352: an owner graft in DEVELOP. -/
def loadOwner (s : State) (glitch : Option Nat) : State :=
  if s.lcs != .develop || s.grafts.slotOwner.isEmpty then s else
  let raw := slotImage s.grafts.slotOwner
  let split := glitch == some 4
  let r := checkImage s raw [2] split
  let s := imageAlarm s split r
  match r with
  | .error _ => s
  | .ok b => { loadLibrary s b with
      grafts.owner := true, grafts.ownerVersion := imgVersion b, grafts.ownerDigest := sha3 raw }

/-- What every boot clears: nothing is loaded, nothing is staged (R353, R360). -/
def unloadGrafts (g : Grafts) : Grafts :=
  { (default : Grafts) with
    slotA := g.slotA, slotB := g.slotB, slotOwner := g.slotOwner, slotBundle := g.slotBundle, floorBits := g.floorBits }

/-- Boot step 4 (R352). -/
def loadGrafts (s : State) (glitch : Option Nat) : State :=
  let s := { s with grafts := unloadGrafts s.grafts }
  let va := imgVersion (fit 128 s.grafts.slotA)
  let vb := imgVersion (fit 128 s.grafts.slotB)
  let first := if va < vb then 2 else 1
  let r := trySlot s first glitch
  let r := if r.2 then r else trySlot r.1 (3 - first) glitch
  let s := r.1
  let s := if r.2 then s else if 0 < s.floorT then raiseSrc s 0x20 0 0 else emit s 0x0302 0 0 0
  let s := loadBundle (loadOwner s glitch) glitch
  { s with grafts.floorPending := decide (s.floorT < s.grafts.fuseTo) && s.lcs != .test }

/-! ### The floor (R358) -/

/-- FLOOR_RAISE (R358): after 60,000,000 t of service without a FATAL event the next thermometer bit is programmed; `torn`: power
is lost while it is. -/
def floorRaise (s : State) (torn : Bool) : State :=
  let g := s.grafts
  if !g.floorPending || !s.tick.running || s.faults.safe || s.stopped || now s < 60000000 then s else
  let t := s.floorT
  if torn then
    let (b, s) := takeFreeBool s
    { s with grafts.floorBits := if b then s.grafts.floorBits ||| 2 ^ t else s.grafts.floorBits }
  else
    let s := { s with grafts.floorBits := g.floorBits ||| 2 ^ t }
    if s.floorT < g.fuseTo then s
    else emit { s with grafts.floorPending := false } 0x0303 0 0 s.floorT

/-- FLOOR_RAISE (R358). -/
def execFloorRaise (torn : Bool) (s : State) : Host.Outcome State Fault Refusal := .next (floorRaise s torn)

/-! ### Staging (R359, R360) -/

/-- Does the staging operation run? -/
def Stage.runs (g : Stage) : Bool := g.state == .opened || g.state == .checking || g.state == .writing

/-- Is GRAFT_STAGE_LEN locked (R54, R359)? -/
def stageLocked (s : State) : Bool :=
  (s.grafts.stage.runs && decide (s.grafts.stage.since ≤ now s)) || decide (now s < s.grafts.stage.endedAt)

/-- May a port write the GRAFT block: the primary AF, outside safe state (R359, R492)? -/
def mayStage (s : State) (p : Nat) : Bool :=
  s.adm.primary == p && s.pins.boot == 8 && !s.faults.safe && !s.stopped

/-- Staging ends in a state with a reason. -/
def endStage (s : State) (st : StageState) (reason : Nat) : State :=
  { s with grafts.stage := { s.grafts.stage with state := st, reason := reason, endedAt := now s + 1 } }

/-- TARGET as a write of GRAFT_STAGE_CTRL leaves it. -/
def setStageTarget (s : State) (v : Nat) : State := { s with grafts.stage.target := bits v 5 4 }

/-- GRAFT_STAGE_OPEN (R360). -/
def execGraftStageOpen (p value : Nat) (s : State) : Host.Outcome State Fault Refusal :=
  .next (if !mayStage s p || !bit value 0 || s.grafts.stage.runs then s else
    let s := setStageTarget s value
    let g := s.grafts.stage
    if g.target = 3 ∨ g.len < 128 ∨ 262144 < g.len then endStage { s with grafts.stage.buf := [] } .failed 0x09
    else { s with grafts.stage := { g with state := .opened, reason := 0, buf := [], since := now s + 1 } })

/-- GRAFT_STAGE_DATA (R360): the next four bytes; a word too many fails. -/
def execGraftStageData (p value : Nat) (s : State) : Host.Outcome State Fault Refusal :=
  .next (if !mayStage s p || s.grafts.stage.state != .opened then s else
    let g := s.grafts.stage
    if g.len ≤ g.buf.length then endStage s .failed 0x09
    else { s with grafts.stage.buf := (g.buf ++ leBytes 4 value).take g.len })

/-- The slot a TARGET means: the inactive graft slot, OWNER_GRAFT or BUNDLE (R360). -/
def stageSlot (s : State) : Nat :=
  match s.grafts.stage.target with
  | 0 => if s.grafts.slot = 1 then 2 else 1
  | 1 => 3
  | _ => 4

/-- Kinds that a slot holds. -/
def slotKinds (slot : Nat) : List Nat := if slot ≤ 2 then [0, 1] else if slot = 3 then [2] else [3]

/-- GRAFT_STAGE_COMMIT (R360): the checks of Table 12.10; on a pass the stewards write the slot. -/
def execGraftStageCommit (p : Nat) (x : Nat × Bool) (s : State) : Host.Outcome State Fault Refusal :=
  let (value, split) := x
  .next (if !mayStage s p || !bit value 1 || s.grafts.stage.state != .opened then s else
    let s := setStageTarget s value
    let g := s.grafts.stage
    if g.buf.length < g.len then endStage s .failed 0x09
    else if g.target = 3 then endStage s .failed 0x09
    else
      let r := checkImage s (slotImage g.buf) (slotKinds (stageSlot s)) split
      let s := imageAlarm s split r
      match r with
      | .error r => endStage s .failed r
      | .ok _ => { s with grafts.stage.state := .writing })

/-- GRAFT_STAGE_ABANDON (R360). -/
def execGraftStageAbandon (p value : Nat) (s : State) : Host.Outcome State Fault Refusal :=
  .next (if !mayStage s p || !bit value 2 then s
    else endStage { setStageTarget s value with grafts.stage.buf := [] } .idle 0)

/-- Put bytes into a flash slot. -/
def putSlot (s : State) (slot : Nat) (b : Bytes) : State :=
  match slot with
  | 1 => { s with grafts.slotA := b }
  | 2 => { s with grafts.slotB := b }
  | 3 => { s with grafts.slotOwner := b }
  | _ => { s with grafts.slotBundle := b }

/-- GRAFT_STAGE_DONE (R360): the slot is written and read back; what a failed read-back leaves there is free. -/
def execGraftStageDone (ok : Bool) (s : State) : Host.Outcome State Fault Refusal :=
  .next (if s.grafts.stage.state != .writing then s
    else if ok then endStage (putSlot s (stageSlot s) s.grafts.stage.buf) .done 0
    else
      let (b, s) := takeFree s s.grafts.stage.buf.length
      endStage (putSlot s (stageSlot s) b) .failed 0x0A)

/-- Power loss or RESET_N while a slot is being written leaves it refused at the next boot (R360). -/
def dropStage (s : State) : State := if s.grafts.stage.state == .writing then putSlot s (stageSlot s) [] else s

/-! ### GRAFT_INFO (R361) -/

/-- VERSION in a slot's header, or 0 if unreadable. -/
def slotVersion (b : Bytes) : Nat := if imgHeaderOk (slotImage b) then imgVersion b else 0

/-- The output of Table 12.13. -/
def graftBytes (s : State) : Bytes :=
  let g := s.grafts
  leBytes 4 g.version ++ leBytes 4 (slotVersion g.slotA) ++ leBytes 4 (slotVersion g.slotB) ++ leBytes 1 s.floorT
    ++ leBytes 1 (g.slot % 4 + 4 * b2n g.okA + 8 * b2n g.okB + 16 * b2n g.owner + 32 * b2n g.bundle + 64 * b2n g.floorPending)
    ++ leBytes 1 g.engine.trap.length ++ leBytes 1 g.mxu.trap.length ++ leBytes 2 g.engine.micro.length
    ++ leBytes 2 g.mxu.micro.length ++ leBytes 4 g.ownerVersion ++ leBytes 2 g.routines.length
    ++ leBytes 2 g.catalogue.length ++ zeros 4 ++ fit 32 g.digest
    ++ g.catalogue.flatMap fun c => leBytes 1 c.op ++ leBytes 1 c.alg ++ leBytes 1 c.pset ++ zeros 1 ++ leBytes 2 c.budget
      ++ leBytes 2 c.sprint

/-- GRAFT_INFO (R361). -/
def execGraftInfo (p : Nat) (se : Bytes) (s : State) : Host.Outcome State Fault Refusal :=
  .next (adminCmd p se (opIs 0xA4) false (fun _ => scanReply se [(8, 12, false)])
    (fun s => adminOutput s p se (graftBytes s)) s)

end Sys2Proof.Machine
end

