-- ==== Sys2Proof/Machine/Registers.lean ====
section
/-! DEFINITION. Writes to BAR0 registers and the reads that change something (R10, R11, R30, R54, R94, R491, R492). -/

namespace Sys2Proof.Machine

/-- Is BAR0 reachable (R438, R492)? -/
def bar0 (s : State) (p : Nat) : Bool := decide (p < 4) && s.pins.boot == 8 && !asleep s (p * 256)

/-- May a port write its registers: reachable, and outside safe state (R492)? -/
def bar0Write (s : State) (p : Nat) : Bool := bar0 s p && !s.faults.safe

/-- May it write what only the primary AF writes? -/
def primaryWrite (s : State) (p : Nat) : Bool := bar0Write s p && s.adm.primary == p

/-- A write to a locked RWL register: ignored, CFG_REJECT set, the first one captured, a record (R54). -/
def cfgReject (s : State) (p off : Nat) : State :=
  let s := { s with tick.cfgReject := true,
                    tick.rejInst := if s.tick.rejValid then s.tick.rejInst else p * 256,
                    tick.rejOff := if s.tick.rejValid then s.tick.rejOff else off,
                    tick.rejValid := true }
  emit s 0x0005 (readTick s p 0x10 true) 0 0

/-! ### Registers without behaviour of their own -/

/-- Is the ADMQ block of a port locked (R94)? -/
def admqLocked (s : State) (p : Nat) : Bool :=
  let a := (s.port p).admq
  a.enable || a.running || (match a.lockedUntil with
    | some t => decide (now s < t)
    | none => false)

/-- Write an RWL register of the ADMQ block. -/
def writeAdmq (s : State) (p off v : Nat) : State :=
  if !(off == 0 || off == 4 || off == 8 || off == 0xC || off == 0x10) then s
  else if admqLocked s p then cfgReject s p (0x0200 + off)
  else s.updPort p fun x => { x with admq :=
    let a := x.admq
    let low (b : Nat) : Nat := b / 2 ^ 32 * 2 ^ 32 + v / 4096 * 4096
    let high (b : Nat) : Nat := v % 65536 * 2 ^ 32 + b % 2 ^ 32
    match off with
    | 0x00 => { a with sqBase := low a.sqBase }
    | 0x04 => { a with sqBase := high a.sqBase }
    | 0x08 => { a with cqBase := low a.cqBase }
    | 0x0C => { a with cqBase := high a.cqBase }
    | _ => { a with vector := bits v 26 16, cqLog2 := bits v 11 8, sqLog2 := bits v 3 0 } }

/-- Registers that take effect in safe state too: the selectors and cursors (R492). -/
def writeSelector (s : State) (p off v : Nat) : State :=
  s.updPort p fun x => match off with
    | 0x080C => { x with healthSel := v % 65536 }
    | 0x0C0C => { x with sevSel := v % 65536 }
    | 0x120C => { x with tmpSel := v % 16 }
    | 0x1218 => { x with recArea := bit v 1, recAuto := bit v 0 }
    | 0x121C => { x with recCursor := v % 2 ^ 32 }
    | 0x1228 => { x with rateSel := v % 65536 }
    | 0x1254 => { x with listSel := v % 256 }
    | 0x125C => { x with snapSlot := bits v 22 16, snapChunk := bits v 5 0 }
    | 0x3040 => { x with perfSel := v % 512 }
    | _ => x

/-- FAULT_INJ_SRC and FAULT_INJ_CTRL.MODE, in TEST (R399). -/
def writeInject (s : State) (p off v : Nat) : State :=
  if !primaryWrite s p || s.lcs != .test then s
  else if off = 0x0C20 then { s with faults.injSrc := v % 65536 }
  else { s with faults.injMode := v % 4 }

/-- HWD_STATUS bits 12:8 and 2, and HWD_TMP_STATE.FIRED: W1C. -/
def writeHwdStatus (s : State) (v : Nat) : State :=
  { s with hwd.rankSeen := s.hwd.rankSeen % 32 - (s.hwd.rankSeen % 32 &&& bits v 12 8),
           hwd.erased := s.hwd.erased && !bit v 2 }

/-- HWD_REC_RATE of the selected code (R413). -/
def writeRate (s : State) (p v : Nat) : State :=
  let code := (s.port p).rateSel
  if !primaryWrite s p || exemptCode code then s else
  let b := bucketOf s.recd.buckets code s.htime
  { s with
          recd.buckets := putBucket s.recd.buckets
            { b with
              rate := if v % 256 = 0 then b.rate else v % 256
              depth := if bits v 15 8 = 0 then b.depth else bits v 15 8 } }

/-- HWD_SNAP_LIST of the selected entry. -/
def writeSnapList (s : State) (p v : Nat) : State :=
  let w := v % 65536
  if w % 4 ≠ 0 ∧ w ≠ 0xFFFF then s
  else { s with hwd.snap.list := ((s.hwd.snap.list ++ List.replicate 256 0xFFFF).take 256).set (s.port p).listSel w }

/-- One aligned 4-byte write (Table 18.5). -/
def writeReg (s : State) (p off v : Nat) : State :=
  let s := writeSelector s p off v
  if s.faults.safe then s
  else if 0x0200 ≤ off ∧ off < 0x0214 then writeAdmq s p (off - 0x0200) v
  else match off with
  | 0x0108 => if bit v 2 then { s with tick.wrapped := false } else s
  | 0x010C => if s.adm.primary == p then addChange s (.reg p 0x010C (v % 2)) else s
  | 0x0C20 => writeInject s p off v
  | 0x0C24 => writeInject s p off v
  | 0x100C => if mayStage s p then setStageTarget s v else s
  | 0x1010 => if !mayStage s p then s
      else if stageLocked s then cfgReject s p off else { s with grafts.stage.len := v % 2 ^ 32 }
  | 0x1200 => writeHwdStatus s v
  | 0x1214 => if bit v 31 then
      { s with hwd.channels := s.hwd.channels.modify (s.port p).tmpSel fun c => { c with fired := false } } else s
  | 0x122C => writeRate s p v
  | 0x1250 => { s with hwd.snap.trig := v % 64 / 2 * 2 }
  | 0x1258 => writeSnapList s p v
  | 0x400C => s.updPort p fun x => { x with events := x.events % 128 - (x.events % 128 &&& v % 128) }
  | _ => s

/-- REGISTER_WRITE (R10): 4 bytes, or 8 as two writes, lower address first; any other access is not accepted. -/
def execRegisterWrite (p off width value : Nat) (s : State) : Host.Outcome State Fault Refusal :=
  .next (if !bar0 s p then s
    else if width = 4 ∧ off % 4 = 0 then writeReg s p off (value % 2 ^ 32)
    else if width = 8 ∧ off % 8 = 0 then
      writeReg (writeReg s p off (value % 2 ^ 32)) p (off + 4) (value / 2 ^ 32 % 2 ^ 32)
    else s)

/-! ### Latching reads (R30) -/

/-- A read of a register, kept as the last answer of the port. -/
def answerReg (s : State) (p off : Nat) : State := { s with pins.answer := leBytes 4 (readReg s p off false) }

/-- TICK_COUNT_LO_READ (R30). -/
def execTickCountLoRead (p : Nat) (s : State) : Host.Outcome State Fault Refusal :=
  .next (if bar0 s p then answerReg (s.updPort p fun x => { x with tickHi := tickCount s / 2 ^ 32 }) p 0x0100 else s)

/-- HWD_TIME_LO_READ (R401). -/
def execHwdTimeLoRead (p : Nat) (s : State) : Host.Outcome State Fault Refusal :=
  .next (if bar0 s p then answerReg (s.updPort p fun x => { x with timeHi := s.htime / 2 ^ 32 % 65536 }) p 0x1204 else s)

/-- TETHER_TICK_OFF_LO_READ (R472). -/
def execTetherTickOffLoRead (p : Nat) (s : State) : Host.Outcome State Fault Refusal :=
  .next (if bar0 s p then answerReg (s.updPort p fun x => { x with offHi := s.tether.off / 2 ^ 32 % 65536 }) p 0x2008 else s)

/-- A list with entry `k` set, of `n` entries. -/
def setLatch (l : List Nat) (n k v : Nat) : List Nat := ((l ++ List.replicate n 0).take n).set k v

/-- SPEC_COUNTER_LO_READ (R289). -/
def execSpecCounterLoRead (p k : Nat) (s : State) : Host.Outcome State Fault Refusal :=
  .next (if bar0 s p && decide (k < 7) then
    answerReg (s.updPort p fun x => { x with specHi := setLatch x.specHi 7 k (s.work.spec.getD k 0 / 2 ^ 32) }) p (0x3800 + 8 * k)
    else s)

/-- PERF_COUNTER_LO_READ (R495). -/
def execPerfCounterLoRead (p k : Nat) (s : State) : Host.Outcome State Fault Refusal :=
  .next (if bar0 s p && decide (k < 7) then
    answerReg (s.updPort p fun x => { x with perfHi := setLatch x.perfHi 7 k (perfValue s p k / 2 ^ 32) }) p
      (if k = 6 then 0x3048 else 0x3008 + 8 * k)
    else s)

/-- HEALTH_EPOCH_READ (R391): the port latches the copy published `lag` boundaries ago, 0 to 2. -/
def execHealthEpochRead (p lag : Nat) (s : State) : Host.Outcome State Fault Refusal :=
  .next (if !bar0 s p then s else
    match s.faults.history[min lag 2]? with
    | some h => { (s.updPort p fun x => { x with health := h }) with pins.answer := leBytes 4 h.epoch }
    | none => s)

/-- HWD_REC_WINDOW7_READ: AUTO advances the cursor. -/
def execHwdRecWindow7Read (p : Nat) (s : State) : Host.Outcome State Fault Refusal :=
  .next (if !bar0 s p then s else
    (answerReg s p 0x124C).updPort p fun x => { x with recCursor := if x.recAuto then (x.recCursor + 1) % 2 ^ 32 else x.recCursor })

/-- HWD_SNAP_WINDOW7_READ: CHUNK advances. -/
def execHwdSnapWindow7Read (p : Nat) (s : State) : Host.Outcome State Fault Refusal :=
  .next (if !bar0 s p then s else
    (answerReg s p 0x128C).updPort p fun x => { x with snapChunk := (x.snapChunk + 1) % 64 })

/-! ### Writes with behaviour of their own -/

/-- CFG_REJECT_CLEAR: W1C of TICK_STATUS.CFG_REJECT also clears VALID. -/
def execCfgRejectClear (p value : Nat) (s : State) : Host.Outcome State Fault Refusal :=
  .next (if bar0Write s p && bit value 3 then
    { s with tick.cfgReject := false, tick.rejValid := false, tick.wrapped := s.tick.wrapped && !bit value 2 } else s)

/-- A fresh ring of the admin queue. -/
def freshSq (p base log2n : Nat) : Sq :=
  { (default : Sq) with inst := p * 256, base := base, log2n := log2n, weight := 1, state := .active }
def freshCq (p base log2n vector : Nat) : Cq :=
  { (default : Cq) with inst := p * 256, base := base, log2n := log2n, vector := vector, coalCount := 1, state := .active }

/-- ADMQ_ENABLE (R94): all four positions go to 0 and fetching starts, or CFG_BAD is set.  DESIGN CHOICE (log entry 54): a
command that is still in execution when the queue is enabled again posts its CE in the fresh admin CQ. -/
def execAdmqEnable (p : Nat) (s : State) : Host.Outcome State Fault Refusal :=
  .next (if !bar0Write s p || (s.port p).admq.enable then s else
    s.updPort p fun x =>
      let a := x.admq
      let ok (n : Nat) : Bool := decide (4 ≤ n) && decide (n ≤ 12)
      if ok a.sqLog2 && ok a.cqLog2 && aligned4k a.sqBase && aligned4k a.cqBase then
        { x with admq := { a with
            enable := true, running := true, cfgBad := false, lockedUntil := none,
            sq := freshSq p a.sqBase a.sqLog2, cq := freshCq p a.cqBase a.cqLog2 a.vector } }
      else { x with admq.cfgBad := true })

/-- ADMQ_DISABLE (R94): fetching stops; what was published and not accepted is discarded. -/
def execAdmqDisable (p : Nat) (s : State) : Host.Outcome State Fault Refusal :=
  .next (if !bar0Write s p || !(s.port p).admq.enable then s else
    stopAdmq (s.updPort p fun x => { x with admq.enable := false, admq.sq.tail := x.admq.sq.head }) p)

/-- ADMQ_SQ_DB (R57, R63): taken in safe state too, where the admin queues still accept commands (R396). -/
def execAdmqSqDb (p value : Nat) (s : State) : Host.Outcome State Fault Refusal :=
  .next (if !bar0 s p then s else
    let a := (s.port p).admq
    if a.enable && a.sq.state.rings then
      let q := sqRing a.sq (value % 2 ^ 32)
      { (s.updPort p fun x => { x with admq.sq := q }) with stw.events := s.stw.events ||| 1 }
    else s)

/-- ADMQ_CQ_DB (R57, R64). -/
def execAdmqCqDb (p value : Nat) (s : State) : Host.Outcome State Fault Refusal :=
  .next (if !bar0 s p then s else
    s.updPort p fun x =>
      let c := x.admq.cq
      if !x.admq.running || !c.state.rings then x
      else if cqRingBad c (value % 2 ^ 32) then
        { x with admq.cq := { c with state := .error, reason := rDbOverrun, errIndex := value % 65536 },
                 admq.sq.state := if x.admq.sq.state == .active then .held else x.admq.sq.state }
      else { x with admq.cq := cqRing c (value % 2 ^ 32) (now s + 1) })

/-- FAULT_INJ_GO (R399): carried out at the next boundary. -/
def execFaultInjGo (p value : Nat) (s : State) : Host.Outcome State Fault Refusal :=
  .next (if primaryWrite s p && s.lcs == .test && bit value 4 then
    { s with faults.injGo := true, faults.injMode := value % 4 } else s)

/-- SPEC_CLEAR (R289). -/
def execSpecClear (p : Nat) (s : State) : Host.Outcome State Fault Refusal :=
  .next (if primaryWrite s p then addChange s .specClear else s)

/-- PERF_CLEAR (R495). -/
def execPerfClear (p : Nat) (s : State) : Host.Outcome State Fault Refusal :=
  .next (if primaryWrite s p then addChange s .perfClear else s)

/-- DATU_FAULT_CLEAR (R494): the fields are kept, capture opens again. -/
def execDatuFaultClear (p : Nat) (s : State) : Host.Outcome State Fault Refusal :=
  .next (if bar0Write s p then s.updPort p fun x => { x with datu.valid := false } else s)

/-- Is a tamper configuration at least as sensitive as another in every field (R406)? -/
def moreSensitive (old new : Tamper) : Bool :=
  (new.enable || !old.enable) && decide (old.rank ≤ new.rank) && decide (new.n ≤ old.n) && decide (old.w ≤ new.w)
    && old.polarity == new.polarity

/-- The configuration a written word asks for: RANK 5 to 7 and N 0 are ignored. -/
def tmpConfig (c : Tamper) (v : Nat) : Tamper :=
  { c with enable := bit v 31, rank := if bits v 30 28 < 5 then bits v 30 28 else c.rank,
           n := if bits v 27 24 = 0 then c.n else bits v 27 24, w := bits v 23 12 + 1, polarity := bit v 11 }

/-- HWD_TMP_CFG_WRITE (R406): RWT; in DEPLOYED a less sensitive one is rejected as a locked RWL write. -/
def execHwdTmpCfgWrite (p value : Nat) (s : State) : Host.Outcome State Fault Refusal :=
  .next (if !primaryWrite s p then s else
    let ch := (s.port p).tmpSel
    match s.hwd.channels[ch]? with
    | none => s
    | some c =>
      if 13 ≤ ch then s
      else if s.lcs == .deployed && !moreSensitive c (tmpConfig c value) then cfgReject s p 0x1210
      else addChange s (.reg p (tmpCfgKey ch) (tmpCfgWord (tmpConfig c value))))

/-- HWD_REC_CTRL.CLEAR (R415). -/
def clearRecorder (s : State) (p : Nat) : State :=
  if !primaryWrite s p then s
  else if s.lcs == .deployed then cfgReject s p 0x1218
  else { s with
    recd.tail := s.recd.head, recd.kept := s.recd.head, recd.ring := [], recd.buf := [], recd.pinned := if s.lcs == .returned then [] else s.recd.pinned }

/-- A write of HWD_REC_CTRL: AREA and AUTO in every state (R492), FLUSH (R412) and CLEAR (R415) outside safe state.  DESIGN
CHOICE (log entry 54): a write that sets both flushes, then clears. -/
def writeRecCtrl (s : State) (p value : Nat) : State :=
  let s := writeSelector s p 0x1218 value
  let s := if bit value 9 && !s.faults.safe then flushRecorder s else s
  if bit value 8 then clearRecorder s p else s

/-- HWD_REC_FLUSH (R412): a write of HWD_REC_CTRL with FLUSH set. -/
def execHwdRecFlush (p value : Nat) (s : State) : Host.Outcome State Fault Refusal :=
  .next (if bar0 s p && bit value 9 then writeRecCtrl s p value else s)

/-- HWD_REC_CLEAR (R415): a write of HWD_REC_CTRL with CLEAR set. -/
def execHwdRecClear (p value : Nat) (s : State) : Host.Outcome State Fault Refusal :=
  .next (if bar0 s p && bit value 8 then writeRecCtrl s p value else s)

/-- HWD_SNAP_MANUAL (R417): a write of HWD_SNAP_TRIG with MANUAL set; bits 5:1 are written with it. -/
def execHwdSnapManual (p value : Nat) (s : State) : Host.Outcome State Fault Refusal :=
  .next (if bar0Write s p && bit value 7 then snapTrigger (writeReg s p 0x1250 value) 7 else s)

/-- THROTTLE_CLEAR (R407): a write of HWD_STATUS with THROTTLE set; the primary AF ends THROTTLE, and a rank-1 response no
longer stands; RANK_SEEN and ERASED are cleared where the word has them set. -/
def execThrottleClear (p value : Nat) (s : State) : Host.Outcome State Fault Refusal :=
  .next (if bar0Write s p && bit value 4 then
    let s := writeHwdStatus s value
    if s.adm.primary == p then
      { s with hwd.throttle := false, hwd.applied := if s.hwd.applied = 1 then 0 else s.hwd.applied } else s
    else s)

end Sys2Proof.Machine
end

