-- ==== Sys2Proof/Machine/Heartwood.lean ====
section
/-! DEFINITION. Heartwood (15_heartwood.md): the recorder's flush, the tamper channels and responses, the crystal, the loss
of heartwood state, power-fail stop, and the fatal-state dump. -/

namespace Sys2Proof.Machine

/-! ### Recorder (R412) -/

/-- RECORDER_FLUSH: 256 unflushed records, or 1,048,576 t since the last flush with any. -/
def recorderDue (s : State) : State :=
  if s.hwd.vdd && (decide (256 ≤ s.recd.buf.length)
      || (!s.recd.buf.isEmpty && decide (s.recd.flushed + 1048576 ≤ now s))) then flushRecorder s else s

/-- RECORDER_FLUSH (R412). -/
def execRecorderFlush (s : State) : Host.Outcome State Fault Refusal := .next (recorderDue s)

/-! ### Time on VBAK alone (R400, R401) -/

/-- On VBAK alone the time counter moves on by an amount that nothing else in the model measures (log entry 5). -/
def backupTime (s : State) : State :=
  if s.hwd.vdd then s else
  let (k, t) := takeFreeNat s
  { t with htime := (s.htime + k) % 2 ^ 48 }

/-- XTAL32_STOP (R401): the RC fallback keeps the counter running, the XTAL32 channel sees an event at each sample. -/
def execXtal32Stop (s : State) : Host.Outcome State Fault Refusal := .next { s with hwd.xtalStopped := true }

/-- XTAL32_RESTART (R401). -/
def execXtal32Restart (s : State) : Host.Outcome State Fault Refusal := .next { s with hwd.xtalStopped := false }

/-! ### Tamper channels (R404, R405) -/

/-- Does a channel take samples under the present supply (Table 15.2)? -/
def samples (s : State) (ch : Nat) : Bool :=
  decide (ch < 13) && (s.hwd.vdd || (decide (1700 ≤ s.hwd.vbak) && ch != 2 && ch != 3 && ch != 12))

/-- Is a sample an event?  The cell voltage, the crystal and the glitch alarm are the device's own; a TAMPER_IN pin is
compared with its active level; elsewhere the sensor says. -/
def isEvent (s : State) (ch : Nat) (c : Tamper) (ev : Bool) : Bool :=
  if ch = 6 then decide (s.hwd.vbak < 2000) else if ch = 7 then s.hwd.xtalStopped else if ch = 12 then s.hwd.glitch
  else if 8 ≤ ch then ev == c.polarity else ev

/-- The filter after a sample (R405): whether it fires, the events in the window, and the channel. -/
def Tamper.sample (c : Tamper) (ev : Bool) : Bool × Nat × Tamper :=
  let w := (ev :: c.window).take c.w
  let k := (w.filter id).length
  if ev && decide (c.n ≤ k) then (true, k, { c with window := [], fired := true, count := satInc 65535 c.count })
  else (false, k, { c with window := w })

/-- Ticks of the grid of a channel's sample instants on VDD: 1 µs, or 1 ms (Table 15.2). -/
def grid (ch : Nat) : Nat := if 4 ≤ ch ∧ ch ≤ 7 then 1000 else 1

/-- Has a channel taken its sample of the present instant of its grid already (R404)? -/
def sampled (s : State) (ch : Nat) (c : Tamper) : Bool :=
  s.hwd.vdd && s.tick.running && c.sampledAt.any fun t => t / grid ch == now s / grid ch

/-- The sample instant: a tick on VDD, a heartwood cycle on VBAK (R404). -/
def instant (s : State) : Nat := if s.hwd.vdd then now s else s.htime

/-- A firing joins the decision set of its instant, or forms a new one (R408). -/
def addFiring (t : Nat) (f : Firing) : List (Nat × List Firing) → List (Nat × List Firing)
  | [] => [(t, [f])]
  | [x] => if x.1 = t ∧ !(x.2.any (·.ch == f.ch)) then [(t, x.2 ++ [f])] else [x, (t, [f])]
  | x :: xs => x :: addFiring t f xs

/-- TAMPER_SAMPLE (R404, R405): the window moves on, once at each instant of the grid; a filter that fires enters a decision set and wakes the stewards. -/
def execTamperSample (ch : Nat) (ev : Bool) (detail lights : Nat) (s : State) : Host.Outcome State Fault Refusal :=
  .next (
    let s := backupTime s
    match s.hwd.channels[ch]? with
    | none => s
    | some c => if !samples s ch || !c.enable || sampled s ch c then s else
      let (fires, k, c') := { c with sampledAt := if s.hwd.vdd then some (now s) else none : Tamper }.sample (isEvent s ch c ev)
      let s := { s with hwd.channels := s.hwd.channels.set ch c', hwd.glitch := s.hwd.glitch && ch != 12 }
      if fires then
        { s with hwd.sets := addFiring (instant s) ⟨ch, detail, if ch = 0 then lights else k⟩ s.hwd.sets,
                 stw.events := s.stw.events ||| 8 }
      else s)

/-! ### Responses (R407, R408) -/

/-- ERASE_SESSIONS: context cache, streams, key-cache slices and the vault's keys go; the vault is unreadable. -/
def eraseSessions (s : State) : State :=
  { s with store.ctxs := [], store.streams := [], store.cache := [],
           vault.keys := none, vault.root := [], vault.nodes := [],
           groves := s.groves.map fun g => { g with cache := [] } }

/-- ERASE_ALL: the heartwood key and its state MRAM copy too. -/
def eraseKeys (s : State) : State := { s with hwd.key := none, hwd.keyCopy := none, hwd.erased := true }

/-- RANK_SEEN bit `r` (R407). -/
def rankSeen (s : State) (r : Nat) : State :=
  if r = 0 then s else { s with hwd.rankSeen := s.hwd.rankSeen ||| 2 ^ r, hwd.applied := r }

/-- The response of rank `r` (Table 15.3).  On VBAK alone only ERASE_ALL acts; on VDD each rank includes the lower ones,
raises its TAMPER source and takes a snapshot. -/
def respond (s : State) (r : Nat) : State :=
  let s := rankSeen s r
  if !s.hwd.vdd then (if r = 4 then eraseKeys s else s) else
  let s := if 3 ≤ r then eraseSessions s else s
  let s := if r = 4 then eraseKeys s else s
  let s := if 1 ≤ r then { s with hwd.throttle := true } else s
  raiseSrc (if 1 ≤ r then snapTrigger s 4 else s) 0x24 r 0

/-- The records of a decision set, each with the rank applied and whether the two logics disagreed (R408). -/
def tamperRecords (s : State) (fs : List Firing) (r : Nat) (disagree : Bool) : State :=
  fs.foldl (fun s f =>
    let s := emit s (0x2000 + f.ch) f.detail f.lights (r + 8 * b2n disagree)
    { s with hwd.channels := s.hwd.channels.modify f.ch fun c => { c with lastRank := r } }) s

/-- The rank the first logic gives a set. -/
def rankOf (s : State) (fs : List Firing) : Nat :=
  (fs.map fun f => (s.hwd.channels.getD f.ch default).rank).foldl max 0

/-- TAMPER_DECISION (R408): the oldest set is ranked twice, the higher rank applies; a decision of equal or lower rank
than a response that stands is recorded only. -/
def execTamperDecision (second : Option Nat) (s : State) : Host.Outcome State Fault Refusal :=
  .next (match s.hwd.sets with
    | [] => s
    | (_, fs) :: rest =>
      let a := rankOf s fs
      let b := min 4 (second.getD a)
      let r := max a b
      let s := { s with hwd.sets := rest }
      let acts := s.hwd.applied == 0 || decide (s.hwd.applied < r)
      let s := tamperRecords s fs r (a != b)
      let s := if acts then respond s r else s
      if acts && decide (1 ≤ r) && s.hwd.vdd then flushRecorder s else s)

/-! ### Supply (R400) -/

/-- HEARTWOOD_STATE_LOSS (R400, Table 15.0): below 1.7 V on the cell alone. -/
def execHeartwoodStateLoss (s : State) : Host.Outcome State Fault Refusal :=
  .next (if s.hwd.vdd || decide (1700 ≤ s.hwd.vbak) then s else
    { s with htime := 0, hwd.key := none, hwd.retention := [], hwd.dropped := 0, hwd.rankSeen := 0, hwd.erased := false,
             hwd.applied := 0, hwd.sets := [], hwd.lost := true, hwd.lossTime := 0,
             hwd.channels := s.hwd.channels.map fun c => { c with window := [] } })

/-- SUPPLY_SOURCE_CHANGE (R400, R405): no heartwood state is lost; every window clears; power lost without a power-fail stop may
tear reservation writes (R166, R416). -/
def execSupplySourceChange (vdd : Bool) (vbak : Nat) (s : State) : Host.Outcome State Fault Refusal :=
  .next (
    let s := if vdd then backupTime s else s
    let s := { s with hwd.vbak := vbak }
    if s.hwd.vdd == vdd then s else
    let s := if !vdd && !s.stopped then tearWrites s else s
    { s with hwd.vdd := vdd, hwd.lossTime := if vdd then s.hwd.lossTime else s.htime,
             hwd.channels := s.hwd.channels.map fun c => { c with window := [] } })

/-! ### Power-fail stop (R416) -/

/-- Power-fail stop: the stop of the data path with no source raised, the POWER_FAIL record, the flush, and the
snapshot when its trigger is set; once (R505, R510). -/
def powerStop (s : State) : State :=
  if s.stopped || s.pins.boot == 0 then s else
  let n := s.recd.buf.length
  let s := stopCore { s with stopped := true, hwd.dump.due := false } 0xFFFF
  let s := flushRecorder (emit s 0x0002 n 0 0)
  if bit s.hwd.snap.trig 1 then takeSnapshot { s with hwd.snap.due := 0 } (2 + s.hwd.snap.due) 0xFFFF else s

/-- PWR_FAIL_N (R416). -/
def execPwrFailN (s : State) : Host.Outcome State Fault Refusal := .next (powerStop { s with pins.pwrFailN := false })

/-- BROWN_OUT (R505): as though PWR_FAIL_N had fallen. -/
def execBrownOut (s : State) : Host.Outcome State Fault Refusal := .next (powerStop s)

/-- EXTEST (R434): after tick start an instruction that takes the pins enters power-fail stop. -/
def execExtest (s : State) : Host.Outcome State Fault Refusal := .next (if s.tick.running then powerStop s else s)

/-! ### The fatal-state dump (R418 to R420) -/

/-- Every source of Table 14.3. -/
def allSources : List Nat := faultGroups.flatMap fun g => (List.range g.count).map (srcId g.group)

/-- The slot of the snapshot that safe-state entry took: the newest with bit 0 in TRIGGERS. -/
def safeSnapshot (s : State) : Bytes :=
  ((s.hwd.snap.slots.map (·.2)).filter fun b => bit (leAt b 4 2) 0).foldl
    (fun a b => if a.isEmpty || decide (leAt a 0 4 < leAt b 0 4) then b else a) []

/-- A queue of the QUEUES section; the number shown for an admin queue is not published (log entry 5). -/
def sqRow (num : Nat) (q : Sq) : Bytes :=
  leBytes 2 q.inst ++ leBytes 2 num ++ leBytes 4 (sqStatus q) ++ leBytes 2 q.head ++ leBytes 2 q.tail ++ zeros 4
def cqRow (num : Nat) (q : Cq) : Bytes :=
  leBytes 2 q.inst ++ leBytes 2 (0x8000 + num) ++ leBytes 4 (cqStatus q) ++ leBytes 2 q.head ++ leBytes 2 q.tail
    ++ leBytes 2 (ringN q.log2n - q.posted.length - q.reserved) ++ zeros 2

/-- The sections of Table 15.6b; the field widths of a job's 32 bytes are not published (log entry 5). -/
def composeDump (s : State) : State :=
  if !s.hwd.dump.secs.isEmpty then s else
  let (jb, t) := takeFree s (32 * s.hwd.dump.jobs)
  let (k, t) := takeFreeNat t
  let adm := (List.range 4).filterMap fun p => if (s.port p).admq.running then some (s.port p).admq else none
  let recs := s.recd.ring ++ s.recd.buf
  let recs := recs.drop (recs.length - 24576)
  { t with hwd.dump.secs := [
    ⟨1, healthBytes s s.hwd.dump.health, []⟩,
    ⟨2, [], allSources.map fun x => leBytes 2 x ++ leBytes 1 (sevOf s x) ++ leBytes 1 (b2n ((groupOf x).getD default).locked)
      ++ leBytes 2 (raisedOf s x) ++ zeros 2⟩,
    ⟨3, safeSnapshot s, []⟩,
    ⟨4, [], s.work.sqs.map (fun q => sqRow q.num q) ++ s.work.cqs.map (fun q => cqRow q.num q)
      ++ adm.map (fun a => sqRow (k % 2048) a.sq) ++ adm.map (fun a => cqRow (k % 2048) a.cq)⟩,
    ⟨5, [], (List.range s.hwd.dump.jobs).map fun i => sub jb (32 * i) 32⟩,
    ⟨6, [], (s.insts.filter fun x => x.state != .absent).map fun x => leBytes 2 x.id ++ zeros 14 ++ instBytes s x⟩,
    ⟨7, leBytes 4 ((recs.head?.map (·.seq)).getD s.recd.head) ++ zeros 4, recs.map Rec.bytes⟩ ] }

/-- Cut a section to `room` bytes: whole entries, RECORDS keeping its newest. -/
def DumpSec.cut (d : DumpSec) (room : Nat) : DumpSec :=
  if room < d.head.length then { d with head := [], rows := [] } else
  let e := (d.rows.headD [0]).length
  let n := min d.rows.length ((room - d.head.length) / e)
  if d.kind = 7 then
    let rs := d.rows.drop (d.rows.length - n)
    { d with head := leBytes 4 (leAt d.head 0 4 + (d.rows.length - n)) ++ zeros 4, rows := rs }
  else { d with rows := d.rows.take n }

/-- The bytes of a section. -/
def DumpSec.bytes (d : DumpSec) : Bytes := d.head ++ d.rows.flatten

/-- Sections cut in their order to the room left. -/
def cutDump : Nat → List DumpSec → List DumpSec
  | _, [] => []
  | room, d :: ds => d.cut room :: cutDump (room - (d.cut room).bytes.length) ds

/-- Section table entries, from an offset on. -/
def dumpTable : Nat → List DumpSec → Bytes
  | _, [] => []
  | off, d :: ds => leBytes 1 d.kind ++ zeros 3 ++ leBytes 4 off ++ leBytes 4 d.bytes.length ++ leBytes 4 d.rows.length
      ++ dumpTable (off + d.bytes.length) ds

/-- The seed of the attestation keys: all zero in TEST (R439). -/
def attestSeed (s : State) : Bytes :=
  if s.lcs == .test then zeros 32 else if s.life.otp.wiped then List.replicate 32 0xFF else s.life.otp.seed

/-- The 96 bytes the attestation keys derive from: KMAC256 of seed and fingerprint over "attest" (R439). -/
def attestKeys (s : State) : Bytes :=
  kmacOf 2 (attestSeed s ++ (List.range 32).map Config.fingerprint) [0x61, 0x74, 0x74, 0x65, 0x73, 0x74] [] 96

/-- Signature block of 4,723 bytes under the attestation keys: ML-DSA-87 with a context string, ECDSA P-384, their
randomness free (R420, R440). -/
def attestSign (s : State) (ctx body : Bytes) : State × Bytes :=
  let (r, t) := takeFree s 64
  (t, stdBytes .deviceSign 0x0203 [(attestKeys s).take 32, ctx, body, r.take 32] 4627
    ++ stdBytes .deviceSign 0x1102 [(attestKeys s).drop 32, body, r.drop 32] 96)

/-- "dzdump". -/
def dzdump : Bytes := [0x64, 0x7A, 0x64, 0x75, 0x6D, 0x70]

/-- The dump for a buffer of `len` bytes (R420): header and signature block always, the sections as far as they fit. -/
def dumpImage (s : State) (len : Nat) : State × Bytes :=
  let ds := s.hwd.dump.secs
  let cs := cutDump (len - 128 - 16 * ds.length - 4723) ds
  let body := dumpTable (128 + 16 * ds.length) cs ++ cs.flatMap DumpSec.bytes
  let total := 128 + body.length + 4723
  let head := leBytes 4 0x504D5544 ++ leBytes 1 1 ++ leBytes 1 (b2n (cs != ds) + 2 + 4 * b2n s.faults.self)
    ++ leBytes 2 ds.length ++ leBytes 4 total ++ leBytes 4 s.hwd.dump.seq ++ leBytes 2 s.faults.first ++ zeros 6
    ++ leBytes 8 s.faults.safeTick ++ leBytes 8 s.htime ++ leBytes 4 s.grafts.version ++ leBytes 1 s.lcs.code ++ zeros 3
    ++ fit 16 s.pins.identity
  let body := fit 128 head ++ body
  let (t, sig) := attestSign s dzdump body
  (t, body ++ sig)

/-- Write pages in ascending order until one does not translate. -/
def writePages (s : State) (inst : Nat) : List (Nat × Nat) → Bytes → State × Bool
  | [], _ => (s, true)
  | (a, n) :: ps, bs => match hostWrite s inst a (bs.take n) 5 with
    | (s, true) => writePages s inst ps (bs.drop n)
    | (s, false) => (s, false)

/-- The dump could not be written (R419). -/
def dumpFailed (s : State) (reason iova : Nat) : State :=
  emit { s with hwd.dump.state := 4, hwd.dump.reason := reason } 0x0402 reason (iova % 2 ^ 32) 0

/-- FATAL_STATE_DUMP (R418, R419): after zeroisation, once for each entry and each buffer registered later. -/
def execFatalStateDump (s : State) : Host.Outcome State Fault Refusal :=
  .next (if !s.faults.safe || s.stopped || !s.hwd.dump.due then s else
    let s := { s with hwd.dump.due := false }
    if (s.health (unitId 7 0)).state != .serving || s.stw.resetting then
      dumpFailed s 3 ((s.adm.dump.map (·.2.1)).getD 0)
    else
    let s := composeDump s
    match s.adm.dump with
    | none => dumpFailed s 1 0
    | some (inst, a, len) =>
      if !(s.port (portOf inst)).dlUp then dumpFailed s 4 a else
      let (s, img) := dumpImage s len
      match writePages s inst (rangePieces (a + 128) (img.length - 128)) (img.drop 128) with
      | (s, false) => dumpFailed s 2 a
      | (s, true) => match hostWrite s inst a (img.take 128) 5 with
        | (s, false) => dumpFailed s 2 a
        | (s, true) =>
          emit { s with hwd.dump.state := 3, hwd.dump.reason := 0, hwd.dump.kib := ceilDiv img.length 1024,
                        hwd.dump.seq := (s.hwd.dump.seq + 1) % 2 ^ 32 } 0x0401 img.length (a % 2 ^ 32) 0)

end Sys2Proof.Machine
end

