-- ==== Sys2Proof/Machine/Devices.lean ====
section
/-! DEFINITION. Faults below the jobs (R382 to R385), the noise sources and DRBGs (R368 to R371), vault channels (R262), power
and temperature (R503, R511 to R515), the management interface and the status pins (R397, R519, R520). -/

namespace Sys2Proof.Machine

/-- Is the device powered and past boot step 2, so that stewards and collector work? -/
def State.up (s : State) : Bool := s.pins.boot == 8

/-! ### Slices abandoned by a fault (R379, R382) -/

/-- A slice of the present tick is abandoned by a fault that sets FAILOVER_SEEN: the tick counts as lost (R47, R379). -/
def faultSlice (s : State) (j : Nat) : State := (abandonSlice s j).updJob j (Job.lose (now s))

/-- The jobs that run in the present tick and have not passed their final commit, of those `p` selects. -/
def runningNow (s : State) (p : Job → Bool) : List Nat :=
  (s.work.jobs.filter fun j => j.sliceTick == some (now s) && j.result.isNone && p j).map (·.id)

/-- The slices of an engine in the present tick are abandoned, those of further attempts and strands on it among them. -/
def faultEngine (s : State) (e : Nat) : State :=
  (runningNow s fun j => j.engine == e).foldl faultSlice (abandonParts s e (now s))

/-- A fault under the command an MXU runs (R194, R196). -/
def faultMxu (s : State) (m : Nat) : State :=
  match s.exec.mxu.find? fun c => c.mxu == m && c.phase == .running with
  | some c => mxuFault s c
  | none => raiseSrc s 0x03 m 0

/-- A double-bit error in a job's latest commit record: the other record stands in for it; without one the job ends (R382). -/
def faultRecord (s : State) (j : Nat) : State :=
  match s.run? j, s.job? j with
  | some r, some x =>
    let r' := if r.standing = r.recA then { r with recA := { r.recA with valid := false } }
      else { r with recB := { r.recB with valid := false } }
    let s := raiseSrc (s.updRun j fun _ => r') 0x06 x.grove 0
    if r'.recA.valid || r'.recB.valid then faultSlice s j
    else failJob (raiseSrc s 0x07 x.grove 0) j 0x0600 0xE1 (now s)
  | _, _ => s

/-- ECC_ERROR (R382): corrected and counted, or the slice abandoned and the source raised. -/
def execEccError (e : EccError) (s : State) : Host.Outcome State Fault Refusal :=
  .next (if !s.up then s else match e with
    | .engineCe e full =>
      let s := raise s (srcId 0x01 (e / 17)) (unitId 0 e) 0 false
      if full then raiseSrc s 0x00 e 0 else s
    | .engineUe e => raiseSrc (faultEngine s e) 0x00 e 0
    | .micro q => if q < 272 then raiseSrc (faultEngine s q) 0x00 q 0 else faultMxu s (q - 272)
    | .groveWork j => match s.job? j with
      | some x => if x.grove < 16 then raiseSrc (faultSlice s j) 0x06 x.grove 0 else s
      | none => s
    | .groveRecord j => faultRecord s j
    | .groveSched g => raiseSrc s 0x07 g 0
    | .mxuCe m c => raiseSrc s 0x04 (8 * m + c) 0
    | .mxuSave j b => match s.mxuCmd? j, s.job? j with
      | some _, some x => raiseSrc (s.updMxu j fun c => if b then { c with copyB := false } else { c with copyA := false })
          0x06 x.grove 0
      | _, _ => s
    | .keyCache g i =>
      raiseSrc { s with groves := s.groves.modify g fun x => { x with cache := x.cache.filter (· != i) } } 0x08 g 0
    | .deviceCe => raiseSrc s 0x0C 0 0
    | .deviceUe => raiseSrc s 0x0D 0 0
    | .mask g u =>
      let s := if u / 1024 = 0 then faultEngine s (u % 1024)
        else match s.exec.mxu.find? fun c => c.mxu == u % 1024 && c.phase == .running with
          | some c => { s with exec.mxu := updWhere (·.job == c.job) MxuCmd.back s.exec.mxu }
          | none => s
      raise s (srcId 0x02 g) u 0 false
    | .vaultCe c => if c < 2 then raiseSrc s 0x11 c 0 else s
    | .vaultBits c l x => { s with vault.copies := s.vault.copies.modify c fun img => putLine img l (fit 64 (xorBytes (lineOf img l) x)) }
    | .collector i => safeCore (raiseCore s (srcId 0x25 i) 0xFFFF 0 false) (srcId 0x25 i) true false)

/-! ### PLLs (R383, R385) -/

/-- Has a unit been lost: not serving in the map, or a raise against it waits for step 1? -/
def lostUnit (s : State) (u : Nat) : Bool :=
  !s.serves u || s.faults.raises.any (·.unit == u)

/-- The PLL that serves: the one the map shows, or its standby once that one has been lost. -/
def servingPll (s : State) : Option Nat :=
  let alive (i : Nat) : Bool := !s.faults.raises.any (·.unit == unitId 6 i)
  let st (i : Nat) : UnitState := (s.health (unitId 6 i)).state
  ((List.range 2).find? fun i => st i == .serving && alive i).orElse
    fun _ => (List.range 2).find? fun i => st i == .standby && alive i

/-- Did a job reach its final commit in the slice it had in tick `t`, so that the commit can be taken back: one held in its
envelope, or one that changed no object?  DESIGN CHOICE (log entry 54): a final commit that has created, changed or destroyed an
object before the PLL is lost stands. -/
def Job.committedIn (t : Nat) (j : Job) : Bool :=
  j.sliceTick == some t && j.commitTick == some t && (!j.committed || j.result.all (·.effects.isEmpty))

/-- A final commit of the tick does not count: the job runs on from its last commit point. -/
def Job.uncommit (j : Job) : Job := { j with result := none, commitTick := none, committed := false }

/-- Every slice and every MXU command of the tick falls back (R383); no commit of the tick counts. -/
def pllAbandon (s : State) : State :=
  let t := now s
  let s := { s with work.jobs := updWhere (Job.committedIn t) Job.uncommit s.work.jobs }
  let s := (runningNow s fun _ => true).foldl faultSlice ((List.range 272).foldl (fun s e => abandonParts s e t) s)
  let hit := (s.exec.mxu.filter (·.phase == .running)).map (·.job)
  { s with
    exec.mxu := s.exec.mxu.map MxuCmd.back,
    work.jobs := updWhere (fun j => hit.contains j.id) (Job.lose t) s.work.jobs }

/-- The loss of a PLL, detected or injected: the clock stops where it served. -/
def pllLoss (s : State) (i : Nat) (inj : Bool) : State :=
  let serving := servingPll s == some i
  let s := if serving then pllAbandon s else s
  let s := raiseAs s 0x0E i inj
  if !serving then s
  else if (servingPll s).isSome then { s with pllGap := some (s.pllGap.getD false) }
  else safeCore s (srcId 0x0E i) false inj

/-- PLL_LOCK_LOSS (R383, R385): the clock stops and the standby is switched in, or with none the device enters safe
state. -/
def execPllLockLoss (i : Nat) (s : State) : Host.Outcome State Fault Refusal :=
  .next (if !s.up || decide (2 ≤ i) || (s.health (unitId 6 i)).state == .failed
        || s.faults.raises.any (·.unit == unitId 6 i) then s else pllLoss s i false)

/-! ### The steward pair (R384) -/

/-- The stewards differ, as detected or injected (R384): the pair resets; a second within 10,000,000 t raises
STEWARD_REPEAT. -/
def stewardDiffer (s : State) (inj : Bool) : State :=
  let again := match s.stw.resetAt with
    | some t => decide (now s < t + 10000000)
    | none => false
  let s := { s with stw.resetting := true, stw.resetAt := some (now s), stw.resets := satInc 255 s.stw.resets,
                    stw.events := 0 }
  let s := raiseAs (snapTrigger s 5) 0x0F 0 inj
  if again then raiseAs s 0x10 0 inj else s

/-- LOCKSTEP_MISMATCH (R384), while a pair runs. -/
def stewardMismatch (s : State) : State :=
  if s.pins.boot == 0 || s.stw.resetting then s else stewardDiffer s false

/-- LOCKSTEP_MISMATCH (R384). -/
def execLockstepMismatch (s : State) : Host.Outcome State Fault Refusal := .next (stewardMismatch s)

/-- Address at which the pair starts after a reset: the boot ROM's first word (log entry 6). -/
def stewardStart : Nat := 0x00010000

/-- STEWARD_RESET_DONE (R384): the pair returns and admin processing resumes. -/
def execStewardResetDone (s : State) : Host.Outcome State Fault Refusal :=
  .next (if !s.stw.resetting || raisedOf s (srcId 0x10 0) != 0 then s else
    { s with stw.resetting := false, stw.pc := stewardStart }.updateUnit (unitId 7 0) .serving s.stw.resets)

/-! ### Vault channels (R262, Table 9.14) -/

/-- The loss of a vault channel, detected or injected: with the other gone too, VAULT_LOST and safe state (Table 9.14). -/
def vaultLoss (s : State) (c : Nat) (inj : Bool) : State :=
  let s := raiseAs { s with faults.updates := s.faults.updates.filter (·.unit != unitId 8 c) } 0x14 c inj
  if lostUnit s (unitId 8 (1 - c)) then safeCore (raiseAs s 0x16 0 inj) (srcId 0x16 0) false inj else s

/-- VAULT_CHANNEL_LOSS (R262, R385): service goes on with the survivor; without one, safe state. -/
def execVaultChannelLoss (c : Nat) (s : State) : Host.Outcome State Fault Refusal :=
  .next (if !s.up || decide (2 ≤ c) || lostUnit s (unitId 8 c) then s else vaultLoss s c false)

/-- VAULT_CHANNEL_RETURN (R262): the copy-back starts; its progress is free between 1 and 99 (log entry 5). -/
def execVaultChannelReturn (c : Nat) (s : State) : Host.Outcome State Fault Refusal :=
  .next (if !s.up || decide (2 ≤ c) || (s.health (unitId 8 c)).state != .withdrawn then s else
    let (k, t) := takeFreeNat s
    t.updateUnit (unitId 8 c) .withdrawn (1 + k % 99))

/-- VAULT_COPY_BACK_DONE (R262): the returned channel holds what the survivor holds. -/
def execVaultCopyBackDone (c : Nat) (s : State) : Host.Outcome State Fault Refusal :=
  .next (let h := s.health (unitId 8 c)
    if !s.up || decide (2 ≤ c) || h.state != .withdrawn || h.info == 0 then s
    else { s with vault.copies := s.vault.copies.set c (s.vault.copies.getD (1 - c) []) }.updateUnit (unitId 8 c) .serving 100)

/-! ### Noise sources (R368 to R370) -/

/-- A source as it starts: at power-up, RESET_N or re-admission. -/
def Noise.start (n : Noise) : Noise :=
  { n with started := 0, last := false, run := 0, windowAt := 0, first := false, ones := 0, bits := [], out := false }

/-- The two continuous tests after one more bit: the new counters, and whether a test fails (R369). -/
def Noise.test (n : Noise) (b : Bool) : Noise × Bool :=
  let run := if 0 < n.started && n.last == b then n.run + 1 else 1
  let fresh := n.windowAt = 0
  let first := if fresh then b else n.first
  let ones := (if fresh then 0 else n.ones) + b2n (b == first)
  ({ n with started := n.started + 1, last := b, run := run, windowAt := (n.windowAt + 1) % 1024, first := first,
            ones := ones }, decide (41 ≤ run) || decide (800 ≤ ones))

/-- 1,024 bits as bytes, the first bit taken as the lowest of the first byte; the order is not published (log entry 26). -/
def packBits : Nat → List Bool → Bytes
  | 0, _ => []
  | k + 1, l => BitVec.ofNat 8 (((List.range 8).map fun i => b2n (l.getD i false) * 2 ^ i).sum) :: packBits k (l.drop 8)

/-- The requests that wait take the blocks that stand. -/
def serveWaiting (s : State) : State := serveRequests s.entropy.waiting.length s

/-- A conditioned block of a source: to the first request that waits, else kept (R370). -/
def giveBlock (s : State) (i : Nat) (b : Bytes) : State :=
  serveWaiting { s with entropy.blocks := s.entropy.blocks ++ [(i, b)] }

/-- A source that fails, as detected or injected, is withdrawn at once (R369); with none left healthy ENTROPY_LOST is
raised (R370). -/
def noiseFail (s : State) (i : Nat) (n : Noise) (inj : Bool) : State :=
  let m := { n.start with out := true, failures := n.failures + 1, since := now s }
  let s := raiseAs { s with entropy.sources := s.entropy.sources.set i m } 0x0A i inj
  if !n.out && s.entropy.sources.all (·.out) then raiseAs s 0x0B 0 inj else s

/-- NOISE_SAMPLE (R368, R369, R370): health tests on the raw bit; after the start-up test 1,024 bits of one healthy source
make a block.  A withdrawn source is tested again from 1,024 t after its withdrawal. -/
def execNoiseSample (i : Nat) (b : Bool) (s : State) : Host.Outcome State Fault Refusal :=
  .next (match s.entropy.sources[i]? with
    | none => s
    | some n =>
      if s.pins.boot == 0 || decide (3 ≤ n.failures) || (n.out && decide (now s < n.since + 1024)) then s else
      match n.test b with
      | (n', true) => noiseFail s i n' false
      | (n', false) =>
        if n.out || decide (n.started < 1024) then { s with entropy.sources := s.entropy.sources.set i n' } else
        let l := n.bits ++ [b]
        if l.length < 1024 then { s with entropy.sources := s.entropy.sources.set i { n' with bits := l } }
        else giveBlock { s with entropy.sources := s.entropy.sources.set i { n' with bits := [] } } i
          (hashOf 8 (packBits 128 l) [] [] 32))

/-- NOISE_READMIT (R369): after 1,024 t, once the new start-up test has passed. -/
def execNoiseReadmit (i : Nat) (s : State) : Host.Outcome State Fault Refusal :=
  .next (match s.entropy.sources[i]? with
    | none => s
    | some n =>
      if !n.out || decide (3 ≤ n.failures) || decide (now s < n.since + 1024) || decide (n.started < 1024) then s else
      (serveWaiting { s with entropy.sources := s.entropy.sources.set i { n with out := false, bits := [] } }).updateUnit
        (unitId 5 i) .serving (min 3 n.failures))

/-! ### Grove DRBGs (R371) -/

/-- DRBG_RESEED: every 1,024 t from a block; without one the request waits, the DRBG serving on. -/
def drbgReseed (s : State) (g : Nat) : State :=
  match s.groves[g]? with
  | none => s
  | some x =>
    if !s.tick.running || !x.drbgUp || decide (now s < x.drbgSeeded + 1024) then s else
    match takeBlock s g with
    | some s => s
    | none => if s.entropy.waiting.contains (g, none) then s else askBlock s g none

/-- DRBG_RESEED (R371). -/
def execDrbgReseed (g : Nat) (s : State) : Host.Outcome State Fault Refusal := .next (drbgReseed s g)

/-- DRBG_ERROR_STATE, as detected or injected: the grove DRBG is in its error state and DRBG is raised. -/
def drbgFail (s : State) (g : Nat) (inj : Bool) : State :=
  raiseAs { s with groves := s.groves.modify g fun x => { x with drbgError := true } } 0x09 g inj

/-- 65,536 t have gone by without a successful reseed. -/
def drbgErrorDue (s : State) (g : Nat) : State :=
  match s.groves[g]? with
  | none => s
  | some x =>
    if !s.tick.running || x.drbgError || decide (now s < x.drbgSeeded + 65536) then s else
    drbgFail s g false

/-- DRBG_ERROR_STATE (R371). -/
def execDrbgErrorState (g : Nat) (s : State) : Host.Outcome State Fault Refusal := .next (drbgErrorDue s g)

/-! ### Supplies, power, temperature (R503, R505, R511 to R515) -/

/-- SUPPLY_OUT_OF_RANGE (R505, R513): SUPPLY is raised; VDD_CORE or VDD_SRAM low forces level 4. -/
def execSupplyOutOfRange (i : Nat) (below : Bool) (s : State) : Host.Outcome State Fault Refusal :=
  .next (if decide (6 ≤ i) || s.pins.boot == 0 then s else
    raiseSrc { s with power.supply := s.power.supply || (below && decide (i < 2)) } 0x23 i 0)

/-- The limit E in W (R513). -/
def powerLimit (s : State) : Nat := min (envelopeWatts s.power.envelope) s.power.limit

/-- The level that the forces of R513 and R514 leave. -/
def forcedLevel (s : State) : Nat := if s.power.supply || s.power.hot then 4 else s.power.level

/-- THROTTLE_UPDATE (R513), at a boundary that is a multiple of 16: P in mW, whether it has stayed below 0.9·E for 1,024
ticks, whether the supplies have been back for 1,024 t. -/
def execThrottleUpdate (mw : Nat) (quiet back : Bool) (s : State) : Host.Outcome State Fault Refusal :=
  .next (if !s.tick.running || now s % 16 != 0 then s else
    let s := { s with power.supply := s.power.supply && !back }
    let l := s.power.level
    let l := if 1000 * powerLimit s < mw then min 4 (l + 1) else if quiet then l - 1 else l
    let s := { s with power.level := l }
    { s with power.level := forcedLevel s })

/-- The grade maximum Tmax in °C (R514). -/
def gradeMax (s : State) : Int := if s.pins.grade = 0 then 110 else 100

/-- THERMAL_LIMIT_UPDATE (R514), every 1,048,576 t. -/
def execThermalLimitUpdate (s : State) : Host.Outcome State Fault Refusal :=
  .next (if !s.tick.running || now s = 0 || now s % 1048576 != 0 then s
    else if gradeMax s - 5 ≤ s.power.tj then { s with power.limit := max 12 (s.power.limit - 1) }
    else if s.power.tj ≤ gradeMax s - 10 then
      { s with power.limit := min (max (envelopeWatts s.power.envelope) s.power.limit) (s.power.limit + 1) }
    else s)

/-- Tj at a boundary (R514): TJ_HIGH once an excursion above Tmax, level 4 until Tmax − 5 °C; TJ_CRIT from Tmax + 10 °C. -/
def takeTj (s : State) (tj : Int) : State :=
  let m := gradeMax s
  let s := { s with power.tj := tj }
  let s := if tj ≤ m - 5 then { s with power.hot := false } else s
  let s := if tj < m + 10 then { s with power.crit := false } else s
  let s := if m < tj ∧ !s.power.hot then raiseSrc { s with power.hot := true } 0x21 0 0 else s
  if m + 10 ≤ tj ∧ !s.power.crit then raiseSrc { s with power.crit := true } 0x22 0 0 else s

/-- AVS_UPDATE (R503): a setpoint of 0.72 to 0.80 V in steps of 2.5 mV, at most one change per 1,024 t. -/
def execAvsUpdate (setpoint : Nat) (s : State) : Host.Outcome State Fault Refusal :=
  .next (
    let late := match s.power.avsAt with
      | some t => decide (t + 1024 ≤ now s)
      | none => true
    if !s.power.avs || s.pins.boot < 5 || setpoint < 288 || 320 < setpoint || setpoint = s.power.setpoint || !late then s
    else { s with power.setpoint := setpoint, power.avsAt := some (now s) })

/-- ENVELOPE_SET QUERY (R515). -/
def execEnvelopeSetQuery (p : Nat) (se : Bytes) (s : State) : Host.Outcome State Fault Refusal :=
  .next (adminCmd p se (fun b => opIs 0xA6 b && byteAt b 8 == 0) true
    (fun _ => scanReply se [(8, 1, false), (9, 1, false)]) (fun s => (s, aOk (powerWord s))) s)

/-- ENVELOPE_SET SET (R515): applies at step 2 of the next boundary; an ACTION that is neither is refused here. -/
def execEnvelopeSet (p : Nat) (se : Bytes) (s : State) : Host.Outcome State Fault Refusal :=
  .next (adminCmd p se (fun b => opIs 0xA6 b && byteAt b 8 != 0) true
    (fun s =>
      let e := byteAt se 9
      let okEnv := decide (1 ≤ e) && decide (e ≤ 3)
      [(byteAt se 8 == 1 && okEnv && decide (envelopeWatts s.life.otp.envelope < envelopeWatts e), aState 0x90)]
        ++ scanReply se [(8, 1, byteAt se 8 != 1), (9, 1, !okEnv)])
    (fun s => (addChange s (.envelope s.adm.nextRef (byteAt se 9)), aLater)) s)

/-- The envelope changes at step 2, and its command completes with the RESULT as it then stands. -/
def applyEnvelope (s : State) (ref e : Nat) : State :=
  let s := { s with power.envelope := e }
  finishCmd s ref (aOk (powerWord s))

/-! ### Status pins and the management interface (R397, R519, R520) -/

/-- ALIVE_TOGGLE (R397): at multiples of 1,024, while the map has been published at every boundary. -/
def aliveToggle (s : State) : State :=
  if s.tick.running && !s.faults.safe && !s.stopped && decide (1024 ≤ now s) && now s % 1024 == 0
      && s.faults.published == now s && s.faults.aliveAt != now s then
    { s with faults.alive := !s.faults.alive, faults.aliveAt := now s }
  else s

/-- ALIVE_TOGGLE (R397). -/
def execAliveToggle (s : State) : Host.Outcome State Fault Refusal := .next (aliveToggle s)

/-- Is the device on the scrap path? -/
def onScrap (s : State) : Bool := s.lcs == .scrap

/-- Does the management interface answer: from boot step 2 on? -/
def mgUp (s : State) : Bool := decide (2 ≤ s.pins.boot)

/-- A management read: the bytes, or zeros before step 8 (`late`) and on the scrap path. -/
def mgRead (s : State) (late : Bool) (n v : Nat) : State :=
  if !mgUp s then s else
  { s with pins.answer := leBytes n (if onScrap s || (late && s.pins.boot != 8) then 0 else v) }

/-- MG_STATE_REPORT (R520): state code, wipe item reached, whether copy B of F6 is programmed. -/
def execMgStateReport (s : State) : Host.Outcome State Fault Refusal :=
  .next (if !mgUp s then s else
    { s with pins.answer := leBytes 1 s.lcs.code ++ leBytes 1 s.life.wipe
        ++ leBytes 1 (b2n (decide (12 ≤ popcount (s.life.otp.fields.getD 5 (0, 0)).2 16))) ++ zeros 1 })

/-- MG_HEALTH_SUMMARY (R520). -/
def execMgHealthSummary (s : State) : Host.Outcome State Fault Refusal :=
  .next (mgRead s true 4 (healthSummary s.faults.safe (s.faults.history.headD default).map))

/-- MG_TJ (R520). -/
def execMgTj (s : State) : Host.Outcome State Fault Refusal := .next (mgRead s false 1 (int8 s.power.tj))

/-- MG_POWER (R520). -/
def execMgPower (s : State) : Host.Outcome State Fault Refusal := .next (mgRead s true 4 (powerWord s))

/-- ALERT_RESPONSE (R519): the device answers with its own address and releases MG_ALERT_N. -/
def execAlertResponse (s : State) : Host.Outcome State Fault Refusal :=
  .next (if mgUp s && !s.faults.mgAlertN then
    { s with faults.mgAlertN := true, pins.answer := leBytes 1 (2 * (0x58 + s.pins.mgAddr % 8)) } else s)

/-- I3C_IBI_ACK (R519): the acknowledged in-band interrupt releases MG_ALERT_N. -/
def execI3cIbiAck (s : State) : Host.Outcome State Fault Refusal := .next { s with faults.mgAlertN := true }

end Sys2Proof.Machine
end

