-- ==== Sys2Proof/Machine/Shelf.lean ====
section
/-! DEFINITION. The key shelf in SPI flash (R263 to R265): its sealed records, its header copies, the stewards' appending and
reclaiming, its load. -/

namespace Sys2Proof.Machine

/-- The on-die fingerprint. -/
def fingerprint : Bytes := (List.range 32).map Config.fingerprint

/-- "vault" and "shelf". -/
def vaultWord : Bytes := [0x76, 0x61, 0x75, 0x6C, 0x74]
def shelfWord : Bytes := [0x73, 0x68, 0x65, 0x6C, 0x66]

/-- KMAC256 keyed by the heartwood key and the fingerprint (R261); no key is held without a heartwood key. -/
def hwdDerived (s : State) (msg : Bytes) (n : Nat) : Option Bytes :=
  s.hwd.key.map fun k => kmacOf 2 (k ++ fingerprint) msg [] n

/-- The vault's XTS and MAC keys under a boot nonce: the first 64 bytes and the last 32 of 96 (R261; the order is not published,
log entry 55). -/
def vaultKeysOf (s : State) (nonce : Bytes) : Option (Bytes × Bytes) :=
  (hwdDerived s (vaultWord ++ nonce) 96).map fun b => (b.take 64, b.drop 64)

/-- The shelf key: derived like the vault keys but without a boot nonce (R263; its string is not published, log entry 55). -/
def shelfKey (s : State) : Bytes := (hwdDerived s shelfWord 32).getD []

/-! ### Headers (R264) -/

/-- Bytes of the record area. -/
def State.shelfArea (s : State) : Nat := s.shelfCapacity + 0x10000

/-- A string with the CRC-16 of R410 after it. -/
def withCrc (b : Bytes) : Bytes := b ++ leBytes 2 (crc16 b).toNat

/-- Does a string end in its CRC? -/
def crcHolds (b : Bytes) : Bool := b.length == 64 && leAt b 62 2 == (crc16 (b.take 62)).toNat

/-- Size of a record. -/
def ShelfRec.size (r : ShelfRec) : Nat := 64 + r.text.length

/-- A shelf header: epoch, sequence number, first and last sector in use. -/
def shelfHeader (x : Shelf) : Bytes :=
  withCrc (leBytes 4 0x4C454853 ++ leBytes 1 1 ++ zeros 3 ++ leBytes 8 x.epoch ++ leBytes 4 x.seq
    ++ leBytes 4 (((x.records.head?.map (·.off)).getD x.tail) / 4096) ++ leBytes 4 ((x.tail - 1) / 4096) ++ zeros 34)

/-- The directory is written anew: the next sequence number, in the copy that does not stand. -/
def Shelf.putHeader (x : Shelf) : Shelf :=
  let x := { x with seq := (x.seq + 1) % 2 ^ 32 }
  if x.seq % 2 = 0 then { x with hdrA := shelfHeader x } else { x with hdrB := shelfHeader x }

/-- An erased shelf of an epoch. -/
def Shelf.erased (x : Shelf) (epoch : Nat) : Shelf :=
  Shelf.putHeader { x with records := [], tail := 0, epoch := epoch, hdrA := [], hdrB := [] }

/-- The header copy that stands: valid, with the higher sequence number. -/
def Shelf.standing (x : Shelf) : Option Bytes :=
  let ok (b : Bytes) : Bool := crcHolds b && leAt b 0 4 == 0x4C454853 && byteAt b 4 == 1
  match ok x.hdrA, ok x.hdrB with
  | true, true => some (if leAt x.hdrA 16 4 < leAt x.hdrB 16 4 then x.hdrB else x.hdrA)
  | true, false => some x.hdrA
  | false, true => some x.hdrB
  | false, false => none

/-! ### Records (R264) -/

/-- The first 20 bytes of a record header, which the GCM tag covers. -/
def recordAad (handle owner alg pset len epoch : Nat) : Bytes :=
  leBytes 4 handle ++ leBytes 2 owner ++ leBytes 1 alg ++ leBytes 1 pset ++ leBytes 4 len ++ leBytes 8 epoch

/-- Zeros up to a multiple of 64 bytes. -/
def pad64 (b : Bytes) : Bytes := b ++ zeros ((64 - b.length % 64) % 64)

/-- An object's record, sealed with AES-256-GCM under the shelf key and an IV, bound to handle and owner (R263, R264). -/
def shelfRecord (s : State) (k : KeyObj) (iv : Bytes) : ShelfRec :=
  let m := k.pub.getD [] ++ k.priv.getD []
  let aad := recordAad k.handle k.owner k.alg k.pset m.length s.shelf.epoch
  let ct := Gcm.crypt (shelfKey s) iv m
  { key := { k with pub := none, priv := none, shelved := true }, pubLen := k.pub.map List.length, privLen := k.priv.map List.length,
    off := s.shelf.tail, header := withCrc (aad ++ iv ++ Gcm.tag (shelfKey s) iv aad ct ++ zeros 14), text := pad64 ct }

/-- Does a record authenticate under a shelf key and an epoch? -/
def ShelfRec.authentic (r : ShelfRec) (key : Bytes) (epoch : Nat) : Bool :=
  crcHolds r.header && leAt r.header 12 8 == epoch
    && Gcm.tag key (sub r.header 20 12) (r.header.take 20) (r.text.take (leAt r.header 8 4)) == sub r.header 32 16

/-- The object of a record: what its header names, and its material in plaintext. -/
def ShelfRec.object (r : ShelfRec) (key : Bytes) : KeyObj :=
  let m := Gcm.crypt key (sub r.header 20 12) (r.text.take (leAt r.header 8 4))
  { r.key with
    index := leAt r.header 0 3, gen := byteAt r.header 3, owner := leAt r.header 4 2, alg := byteAt r.header 6, pset := byteAt r.header 7,
    pub := r.pubLen.map fun n => m.take n, priv := r.privLen.map fun n => (m.drop (r.pubLen.getD 0)).take n }

/-! ### Appending and reclaiming (R263, R264) -/

/-- Bytes between the first sector in use and the place of the next record, the area being used round and round (log entry
55). -/
def shelfSpan (area : Nat) (x : Shelf) : Nat :=
  match x.records.head? with
  | some r => (x.tail + area - r.off / 4096 * 4096) % area
  | none => x.tail % 4096

/-- Append a record at the end. -/
def Shelf.append (x : Shelf) (area : Nat) (r : ShelfRec) : Shelf :=
  { x with records := x.records ++ [{ r with off := x.tail }], tail := (x.tail + r.size) % area }

/-- Reclaim: while a record of `size` would leave less than 64 KiB erased, the oldest record is copied to the end and the
directory updated; `n` bounds the moves. -/
def Shelf.reclaim (area size : Nat) : Nat → Shelf → Shelf
  | 0, x => x
  | n + 1, x =>
    if shelfSpan area x + size + 0x10000 ≤ area then x
    else match x.records with
      | [] => x
      | r :: rs => Shelf.reclaim area size n (({ x with records := rs }.append area r).putHeader)

/-- SHELF_WRITE: the stewards take revoked copies from flash, reclaim where room is wanting, append the object's copy and report
it SHELVED. -/
def shelfWrite (s : State) (idx : Nat) : State :=
  match keyAt s idx with
  | none => s
  | some k =>
    if !s.service || !k.has pPersist || k.doomed || k.shelved || s.shelfCapacity = 0 then s
    else
      let dead (r : ShelfRec) : Bool := s.shelf.revoked.any fun x => x.1 == r.key.handle && x.2 == r.key.owner
      let x := { s.shelf with records := s.shelf.records.filter fun r => !dead r && r.key.handle != k.handle, revoked := [] }
      let (iv, s) := takeFree s 12
      let r := shelfRecord s k iv
      let x := Shelf.reclaim s.shelfArea r.size x.records.length x
      { s.updKey idx fun k => { k with shelved := true } with shelf := (x.append s.shelfArea r).putHeader }

/-- SHELF_WRITE (R263). -/
def execShelfWrite (idx : Nat) (s : State) : Host.Outcome State Fault Refusal := .next (shelfWrite s idx)

/-! ### Boot (R265) -/

/-- A byte of the shelf as it stands in flash after an alteration: a header copy's or a record's. -/
def alterShelf (x : Shelf) (e : Nat × Nat × Byte) : Shelf :=
  let put (b : Bytes) : Bytes := b.set e.2.1 e.2.2
  match e.1 with
  | 0 => { x with hdrA := put x.hdrA }
  | 1 => { x with hdrB := put x.hdrB }
  | n => { x with records := x.records.modify (n - 2) fun r =>
      { r with header := put r.header, text := if e.2.1 < 64 then r.text else r.text.set (e.2.1 - 64) e.2.2 } }

/-- Is the shelf accepted: empty and unwritten, or with a header that stands, an epoch not below the one heartwood holds, and
records that all authenticate (R263, R265)? -/
def shelfAccepted (s : State) (live : List ShelfRec) : Bool :=
  match s.shelf.standing with
  | none => s.shelf.hdrA.isEmpty && s.shelf.hdrB.isEmpty && s.shelf.records.isEmpty
  | some h => decide (s.shelf.mramEpoch ≤ leAt h 8 8) && live.all fun r => r.authentic (shelfKey s) (leAt h 8 8)

/-- A shelf copy as it is loaded: dormant until its owner's quota covers it, NEXT at RESERVED_TO, its trees to be built. -/
def loadedKey (s : State) (r : ShelfRec) : KeyObj :=
  let k := r.object (shelfKey s)
  { k with
    dormant := true, quarantined := false, doomed := false,
    stateful := k.stateful.map fun f => { f with next := reservedTo s k.handle, trees := [] } }

/-- Boot step 6 (R261, R265): a boot nonce is drawn and the vault's keys derived under it, every page is untouched; every
unrevoked copy of a shelf that is accepted is loaded and sealed; one that is not is erased, with its record. -/
def bootVault (s : State) (flash : List (Nat × Nat × Byte)) : State :=
  let (nonce, s) := takeFree s 32
  let s := { s with vault := { Vault.reset with nonce := nonce, keys := vaultKeysOf s nonce },
                    shelf := flash.foldl alterShelf s.shelf }
  let live := s.shelf.records.filter fun r => !(s.shelf.revoked.any fun x => x.1 == r.key.handle && x.2 == r.key.owner)
  if shelfAccepted s live then syncVault { s with store.keys := live.map (loadedKey s) }
  else emit { s with shelf := s.shelf.erased s.shelf.mramEpoch } 0x0203 0 0 0

end Sys2Proof.Machine
end

