-- ==== Sys2Proof/Machine/Boot.lean ====
section
/-! DEFINITION. Boot (Table 16.6), reset pins (R510), decoding of the life-cycle fuses (R430), the scrap path (R432). -/

namespace Sys2Proof.Machine

/-! ### OTP (R430) -/

/-- How far a copy of a field is programmed. -/
inductive FuseLevel where
  | clear | torn | set
  deriving DecidableEq, Repr

/-- The level of a 16-bit copy. -/
def fuseLevel (v : Nat) : FuseLevel :=
  let n := popcount v 16
  if 12 ≤ n then .set else if n ≤ 4 then .clear else .torn

/-- State codes as states. -/
def lcsOf (n : Nat) : Lcs :=
  match n with
  | 0 => .blank | 1 => .test | 2 => .provisioned | 3 => .develop | 4 => .deployed | 5 => .returned | 6 => .scrap
  | _ => .invalid

/-- Table 16.2: may a state be left for a target? -/
def reachable (s : Lcs) (target : Nat) : Bool :=
  target == 6 || match s with
    | .blank => target == 1
    | .test => target == 2
    | .provisioned => target == 3 || target == 4
    | .develop => target == 4
    | .deployed => target == 5
    | _ => false

/-- The highest field both of whose copies are set. -/
def lastSet : List (Nat × Nat) → Nat → Nat → Nat
  | [], _, best => best
  | (a, b) :: fs, i, best => lastSet fs (i + 1) (if fuseLevel a = .set ∧ fuseLevel b = .set then i else best)

/-- The fields above the state that are touched. -/
def touched (fs : List (Nat × Nat)) (state : Nat) : List Nat :=
  (List.range' (state + 1) (5 - state)).filter fun i =>
    let f := fs.getD (i - 1) (0, 0)
    fuseLevel f.1 != .clear || fuseLevel f.2 != .clear

/-- The decode of R430: the state and a pending transition. -/
def decodeLcs (o : Otp) : Lcs × Option Nat :=
  let f6 := o.fields.getD 5 (0, 0)
  if popcount f6.1 16 ≠ 0 ∨ popcount f6.2 16 ≠ 0 then (.scrap, none) else
  let n := lastSet (o.fields.take 5) 1 0
  match touched o.fields n with
  | [] => (lcsOf n, none)
  | [t] => if reachable (lcsOf n) t then (lcsOf n, some t) else (.invalid, none)
  | _ => (.invalid, none)

/-! ### What a boot keeps -/

/-- Everything volatile at its reset value, records not flushed among it (R412): the OTP, heartwood, the recorder's MRAM, the flash, host memory and what stands
outside the device keep theirs (R402). -/
def coldStart (s : State) : State :=
  let r := State.reset
  { r with
    pending := s.pending, hostMem := s.hostMem, hostDeaf := s.hostDeaf, freeCtr := s.freeCtr, htime := s.htime, flashSize := s.flashSize,
    shelf := s.shelf, grafts := unloadGrafts s.grafts, store.counters := s.store.counters,
    store.streamGens := s.store.streams.foldl (fun g x => putGen g x.index (nextGen x.gen)) s.store.streamGens,
    hwd := { r.hwd with
      vdd := true, vbak := s.hwd.vbak, xtalStopped := s.hwd.xtalStopped, key := s.hwd.key, keyCopy := s.hwd.keyCopy,
      lost := s.hwd.lost, lossTime := s.hwd.lossTime, retention := s.hwd.retention, dropped := s.hwd.dropped,
      rankSeen := s.hwd.rankSeen, erased := s.hwd.erased,
      channels := s.hwd.channels.map fun c => { c with window := [], sampledAt := none, fired := false, lastRank := 0, count := 0 },
      snap := { r.hwd.snap with next := s.hwd.snap.next, slots := s.hwd.snap.slots },
      dump := { r.hwd.dump with seq := s.hwd.dump.seq } },
    recd := { r.recd with head := s.recd.kept, kept := s.recd.kept, tail := s.recd.tail, ring := s.recd.ring, pinned := s.recd.pinned },
    life := { r.life with otp := s.life.otp, wipe := s.life.wipe },
    pins := { r.pins with resetN := true, pwrFailN := s.pins.pwrFailN, stepping := s.pins.stepping, grade := s.pins.grade,
                          identity := s.pins.identity } }

/-! ### Step 1: heartwood (R403) -/

/-- Records of retention SRAM go to the ring, with the next sequence numbers (R403, R414). -/
def flushRetention (s : State) : State :=
  let put (s : State) (r : Rec) : State :=
    let ring := s.recd.ring ++ [{ r with seq := s.recd.head }]
    { s with recd.ring := ring.drop (ring.length - 24576), recd.head := (s.recd.head + 1) % 2 ^ 32,
             recd.kept := (s.recd.head + 1) % 2 ^ 32 }
  s.hwd.retention.foldl put { s with hwd.retention := [] }

/-- The heartwood key: kept, recovered from its copy under PERSISTENT, or drawn afresh, which erases the shelf, with its
record, empties the revocation list and frees every counter record. -/
def heartwoodKey (s : State) : State :=
  if s.hwd.key.isSome then s
  else if s.life.otp.policy = 1 ∧ s.hwd.keyCopy.isSome then { s with hwd.key := s.hwd.keyCopy }
  else
    let (k, s) := takeFree s 32
    emit { s with
      hwd.key := some k, hwd.keyCopy := if s.life.otp.policy = 1 then some k else none,
      shelf := { s.shelf.erased (s.shelf.mramEpoch + 1) with revoked := [], mramEpoch := s.shelf.mramEpoch + 1 },
      store.counters := [] } 0x0203 0 0 0

/-- Boot step 1; `byReset` tells RESET_N from power-up. -/
def bootHeartwood (s : State) (byReset : Bool) : State :=
  let s := flushRetention s
  let s := { s with hwd.cold := s.hwd.lost, hwd.lost := false }
  let s := if s.hwd.cold then emit s 0x0006 0 0 0 else s
  let s := heartwoodKey s
  let cause := (if byReset then 2 else 1) + 4 * b2n s.hwd.cold + 8 * b2n s.hwd.erased
  let s := emit s 0x0001 cause (s.hwd.lossTime % 2 ^ 32) s.hwd.dropped
  { s with hwd.dropped := 0, faults.errN := true, pins.boot := 1 }

/-! ### The scrap path (R432, Table 16.7) -/

/-- The wipe, from its first item to copy B. -/
def wipeAll (s : State) : State :=
  { s with
    hwd := { Hwd.reset with vdd := s.hwd.vdd, vbak := s.hwd.vbak, xtalStopped := s.hwd.xtalStopped, lost := false },
    recd := State.reset.recd, store := State.reset.store, shelf := State.reset.shelf, vault := Vault.reset,
    grafts := default,
    life.wipe := 4, life.otp.wiped := true, life.otp.seed := List.replicate 32 0xFF,
    life.otp.fields := s.life.otp.fields.set 5 ((s.life.otp.fields.getD 5 (0, 0)).1, 0xFFFF) }

/-! ### Step 3: firmware (R437) -/

/-- A firmware slot as step 3 checks it; a glitch on its decision raises the alarm (R375). -/
def tryFirmware (s : State) (slot : Option FwSlot) (split : Bool) : State × Option Nat :=
  match slot with
  | none => (s, none)
  | some f =>
    let s := if split then glitchAlarm s 0xFFFF 0 (unitId 7 0) else s
    if (f.signed && !split || s.lcs == .test) && decide (s.floorT ≤ f.version / 2 ^ 24) then (s, some f.version)
    else (s, none)

/-- The accepted firmware version: the higher version is tried first, FW_A on a tie. -/
def bootFirmware (s : State) (env : BootEnv) : State × Option Nat :=
  let va := (env.fwA.map (·.version)).getD 0
  let vb := (env.fwB.map (·.version)).getD 0
  let a : Option FwSlot × Bool := (env.fwA, env.glitch == some 0)
  let b : Option FwSlot × Bool := (env.fwB, env.glitch == some 1)
  let first := if va < vb then b else a
  let other := if va < vb then a else b
  match tryFirmware s first.1 first.2 with
  | (s, some v) => (s, some v)
  | (s, none) => tryFirmware s other.1 other.2

/-! ### Step 5: BIST, spares, DRBGs -/

/-- State of an engine after BIST: its own position, the standing spare, or the spare in the place of the first failed
engine (R381, R390). -/
def bistEngine (failed : List Nat) (e : Nat) : Health :=
  let g := e / 17
  let bad (k : Nat) : Bool := failed.contains (unitId 0 (g * 17 + k)) || failed.contains (unitId 2 g)
  let k := e % 17
  if bad k then ⟨unitId 0 e, .failed, k⟩
  else if k < 16 then ⟨unitId 0 e, .serving, k⟩
  else match (List.range 16).find? bad with
    | some p => ⟨unitId 0 e, .serving, p⟩
    | none => ⟨unitId 0 e, .standby, 16⟩

/-- Entry of a unit at ports ready (R390); in recovery engines and MXUs have not been started (log entry 28). -/
def bistUnit (failed : List Nat) (recovery : Bool) (u : Nat) : Health :=
  let bad := failed.contains u
  match u / 1024 with
  | 0 => if recovery then ⟨u, .gone, u % 1024 % 17⟩ else bistEngine failed (u % 1024)
  | 1 => ⟨u, if recovery then .gone else if bad || failed.contains (unitId 2 (u % 1024)) then .failed else .serving, 0⟩
  | 6 => ⟨u, if bad then .failed
      else if u % 1024 = 0 || failed.contains (unitId 6 0) then .serving else .standby, 0⟩
  | 8 => ⟨u, if bad then .withdrawn else .serving, if bad then 0 else 100⟩
  | 9 => ⟨u, .gone, 0⟩
  | 10 => ⟨u, .gone, 0⟩
  | _ => ⟨u, if bad then .failed else .serving, 0⟩

/-- Boot step 5. -/
def bootBist (s : State) (failed : List Nat) (recovery : Bool) : State :=
  let s := { s with
    faults.map := allUnits.map (bistUnit failed recovery),
    groves := (List.range 16).map fun g => { Grove.reset with drbgUp := !recovery && !failed.contains (unitId 4 g) },
    entropy.sources := (List.range 4).map fun i =>
      if failed.contains (unitId 5 i) then { Noise.reset with out := true, failures := 3 } else Noise.reset }
  refreshMxus ((List.range 16).foldl refreshGrove s)

/-! ### Steps 7 and 8 -/

/-- Split width of a port (Table 18.1). -/
def splitWidth (split p : Nat) : Nat :=
  match split % 4, p with
  | 0, 0 => 16
  | 1, 0 => 8
  | 1, 2 => 8
  | 2, 0 => 8
  | 2, 2 => 4
  | 2, 3 => 4
  | 3, _ => 4
  | _, _ => 0

/-- The instance p.0 of a port at ports ready (R103). -/
def afInst (p : Nat) : Inst :=
  { (default : Inst) with id := p * 256, state := .active, engineWeight := 64, nextWeight := 64, inflightLimit := 256, queueLimit := 64,
                          width := 39, mode := .bypass }

/-- Ticks start, the ports are ready: TICK_COUNT 0, EPOCH 0, every port's latch holds the first map (R29, R103, R391). -/
def bootReady (s : State) : State :=
  let h : HealthCopy := ⟨0, 0, s.faults.map⟩
  let w (p : Nat) : Nat := splitWidth s.pins.split p
  { s with
    tick.running := true, pins.boot := 8,
    ports := (List.range 4).map fun p => { Port.reset with present := w p != 0, maxWidth := w p, health := h },
    insts := ((List.range 4).filter fun p => w p != 0).map afInst,
    faults.history := [h],
    tether.active := s.pins.role,
    tether.links := s.tether.links.map fun k => { k with state := if s.pins.role = 0 then .down else .training },
    stw.pc := stewardStart }

/-! ### The boot as a whole (R436) -/

/-- Steps 2 to 8. -/
def bootRest (s : State) (env : BootEnv) : State :=
  if !env.selfTest then { s with faults.errN := false } else
  let (st, pend) := decodeLcs s.life.otp
  let env0 := if s.life.otp.envelope = 0 then 1 else s.life.otp.envelope
  let s := { s with
    life.state := st, life.pending := pend, life.debugOpen := st == .test, pins.boot := 2,
    power.envelope := env0, power.limit := envelopeWatts env0,
    power.avs := env.avs, power.setpoint := if env.avs then 300 else 320 }
  if st = .scrap then { s with faults.errN := false }
  else if st = .blank ∨ st = .invalid then s
  else match bootFirmware s env with
    | (s, none) => { s with faults.errN := false }
    | (s, some v) =>
      let s := { s with life.fwVersion := v, pins.boot := 3 }
      let rec? := pend.isSome
      let s := if rec? then s else loadGrafts s env.glitch
      let s := bootBist s env.failed rec?
      let s := if rec? then s else bootVault s env.flash
      bootReady s

/-- From step 1 on: on the scrap path the wipe comes first; PWR_FAIL_N low holds the boot after step 1 (R510). -/
def boot (s : State) (env : BootEnv) (byReset : Bool) : State :=
  let s := coldStart s
  let s := { s with pins.role := env.role % 4, pins.split := env.split % 4, pins.mgAddr := env.mgAddr % 8 }
  let s := if (decodeLcs s.life.otp).1 = .scrap then wipeAll s else s
  let s := bootHeartwood s byReset
  if !s.pins.pwrFailN then { s with pins.held := true } else bootRest s env

/-! ### Rows -/

/-- POWER_UP (R436): the supplies come up with RESET_N released; not of a device that already runs. -/
def execPowerUp (env : BootEnv) (s : State) : Host.Outcome State Fault Refusal :=
  .next (if s.hwd.vdd && s.pins.boot != 0 then s else boot (backupTime s) env false)

/-- RESET_N_FALL (R510): power-fail stop. -/
def execResetNFall (s : State) : Host.Outcome State Fault Refusal := .next (powerStop { s with pins.resetN := false })

/-- RESET_N_RISE (R501, R510): straps are sampled and the boot starts at step 1. -/
def execResetNRise (env : BootEnv) (s : State) : Host.Outcome State Fault Refusal :=
  .next (if s.pins.resetN || !s.hwd.vdd then s else boot s env true)

/-- PWR_FAIL_N_RELEASE (R510): once high for 1 ms it lets a held boot go on; a power-fail stop does not end (R416). -/
def execPwrFailNRelease (env : BootEnv) (s : State) : Host.Outcome State Fault Refusal :=
  .next (
    let s := { s with pins.pwrFailN := true }
    if s.pins.held then bootRest { s with pins.held := false } env else s)

/-- LOCKOUT_EXPIRY (R424). -/
def lockoutExpiry (s : State) : State :=
  match s.life.lockout with
  | some t => if decide (t ≤ now s) || !s.tick.running then { s with life.lockout := none } else s
  | none => s

/-- LOCKOUT_EXPIRY (R424): by the tick count, or, where no tick runs, when the time has passed. -/
def execLockoutExpiry (s : State) : Host.Outcome State Fault Refusal := .next (lockoutExpiry s)

end Sys2Proof.Machine
end

