-- ==== Sys2Proof/Machine/Lifecycle.lean ====
section
/-! DEFINITION. Life-cycle transitions (R423 to R433), attestation (R439, R440) and the debug challenge (R435). -/

namespace Sys2Proof.Machine

/-! ### LCS_TRANSITION (R425, R426) -/

/-- Fields of Table 16.3. -/
def lcsTarget (se : Bytes) : Nat := byteAt se 8
def lcsDataLen (se : Bytes) : Nat := leAt se 12 4
def lcsDataAddr (se : Bytes) : Nat := leAt se 16 8
def lcsToken (se : Bytes) : Bytes := fit 32 (sub se 24 32)

/-- Is the transition a PROVISIONED exit, which carries a data block? -/
def provExit (s : State) (target : Nat) : Bool := s.lcs == .provisioned && target != 6

/-- An owner's digest slot: unprogrammed while zero. -/
def ownerSlot (b : Bytes) : List Bytes := if b.all (· == 0) then [] else [b]

/-- A vendor's digest slot: unprogrammed while empty. -/
def vendorSlot (o : Otp) (i : Nat) : List Bytes := (o.vendor.getD i []) |> fun b => if b.isEmpty then [] else [b]

/-- The digests that a token may match (Table 16.2); from BLANK, and from INVALID, only the vendor's SCRAP token. -/
def tokenSlots (s : State) (target : Nat) : List Bytes :=
  let o := s.life.otp
  match target with
  | 1 => vendorSlot o 0
  | 2 => vendorSlot o 1
  | 3 => vendorSlot o 2
  | 4 => if s.lcs == .develop then ownerSlot o.dDeploy else vendorSlot o 2
  | 5 => ownerSlot o.dReturn
  | _ => vendorSlot o 3 ++ (if s.lcs == .blank || s.lcs == .invalid then [] else ownerSlot o.dScrapO)

/-- Does any TF instance exist, or any AF have a data queue? -/
def hasTenants (s : State) : Bool :=
  (s.insts.any fun x => x.id % 256 != 0 && x.state != .absent)
    || (s.work.sqs.any fun q => q.inst % 256 == 0) || (s.work.cqs.any fun q => q.inst % 256 == 0)

/-- Checks 2 to 7 of R426. -/
def lcsChecks (s : State) (se : Bytes) : List (Bool × Reply) :=
  let t := lcsTarget se
  let want := if provExit s t then 160 else 0
  [ (s.life.done, aState 0x43),
    (lockedOut s, aState 0x44),
    (s.life.pending.isSome && s.life.pending != some t, aState 0x45),
    (s.life.pending.isNone && !(reachable s.lcs t && decide (t < 7)), aState 0x40),
    (hasTenants s, aState 0x42) ]
  ++ scanReply se
    [(8, 1, false), (12, 4, lcsDataLen se != want),
     (16, 8, lcsDataAddr se % 8 != 0 || (want == 0 && lcsDataAddr se != 0)), (24, 32, false)]

/-- Checks 9 and 10 of R426 on the data block. -/
def blockChecks (s : State) (target : Nat) (b : Bytes) : List (Bool × Reply) :=
  [ (decide (1 < byteAt b 128) || byteAt b 129 == 0 || decide (3 < byteAt b 129) || !allZero b 130 30
      || (target == 4 && !allZero b 32 32), ⟨0x0300, 0x40, 0, .done⟩),
    (s.life.pending.isSome && (List.range 160).any (fun i =>
      (s.life.otp.block.getD i 0 &&& ~~~(b.getD i 0)) != 0), ⟨0x0300, 0x41, 0, .done⟩) ]

/-- A token mismatch (R424): counted, and every LCS_TRANSITION is locked out for 1,000,000 t. -/
def lcsMismatch (s : State) : State :=
  { s with life.mismatches := satInc 255 s.life.mismatches, life.lockout := some (now s + 1000000) }

/-! ### Programming and actions (R427, R429) -/

/-- The lowest `n` bits of a 16-bit copy set over what is set already: bits are programmed in ascending order. -/
def progCopy (v n : Nat) : Nat := v ||| (2 ^ min n 16 - 1)

/-- Change a field's copies. -/
def setField (s : State) (target : Nat) (f : Nat × Nat → Nat × Nat) : State :=
  { s with life.otp.fields := s.life.otp.fields.modify (target - 1) f }

/-- The first `n` bits of the data block programmed: only bits that are 1 (R427). -/
def progBlock (old new : Bytes) (n : Nat) : Bytes :=
  (List.range 160).map fun i =>
    let m : Nat := 2 ^ min 8 (n - 8 * i) - 1
    old.getD i 0 ||| (new.getD i 0 &&& BitVec.ofNat 8 m)

/-- Under PERSISTENT state MRAM holds a copy of the heartwood key (R266).  DEDUCED (log entry 55): it is made once the policy
has been programmed. -/
def copyKey (s : State) : State :=
  if s.life.otp.policy = 1 ∧ s.hwd.keyCopy.isNone then { s with hwd.keyCopy := s.hwd.key } else s

/-- The actions of Table 16.2 between copy A and copy B. -/
def lcsActions (s : State) (target : Nat) : State :=
  match target with
  | 3 => copyKey s
  | 4 => copyKey s
  | 2 =>
    let (fresh, s) := takeFree s 32
    -- DEDUCED (log entry 54): a seed that stands programmed is completed, not drawn again (R427)
    let seed := if s.life.otp.seed.all (· == 0) then fresh else s.life.otp.seed
    let (key, s) := takeFree s 32
    { s with
      life.otp.seed := seed, hwd.key := some key, hwd.keyCopy := none, hwd.channels := tamperDefaults,
      hwd.snap.next := 0, hwd.snap.slots := [], hwd.dump.seq := 0, store.counters := [],
      shelf := { s.shelf with mramEpoch := 0, revoked := [] },
      recd := { State.reset.recd with buckets := s.recd.buckets, flushed := s.recd.flushed } }
  | 5 =>
    let s := eraseKeys (eraseSessions s)
    { s with
      store.keys := [], store.counters := [],
      shelf := { s.shelf.erased s.shelf.epoch with revoked := [] },
      grafts.slotOwner := [], grafts.slotBundle := [] }
  | _ => s

/-- Where an upset strikes a stage: how many of its bits are done, and what the command then ends in. -/
def strikes (u : LcsUpset) (stage : Nat) : Option Nat :=
  match u with
  | .readBack k n => if k = stage then some n else none
  | .powerFail k n => if k = stage then some n else none
  | _ => none

/-- The transition stops where it stands: with DEVICE_FAULT after a failed read-back, the transition pending; without a CE,
in power-fail stop, once PWR_FAIL_N has fallen. -/
def lcsTorn (s : State) (target : Nat) (u : LcsUpset) : State × Reply :=
  let s := { s with life.pending := some target }
  match u with
  | .powerFail _ _ => (powerStop { s with pins.pwrFailN := false }, aLater)
  | _ => (s, ⟨0x0600, 0x40, 0, .done⟩)

/-- R427 from copy A to copy B; a SCRAP transition completes after copy A and goes on under R432. -/
def lcsProgram (s : State) (target : Nat) (block : Bytes) (u : LcsUpset) : State × Reply :=
  match strikes u 0 with
  | some n => lcsTorn (setField { s with life.phase := 2 } target fun f => (progCopy f.1 n, f.2)) target u
  | none =>
    let s := setField { s with life.phase := 2 } target fun f => (0xFFFF, f.2)
    if target = 6 then ({ s with life.done := true }, aOk 6) else
    match (if provExit s target then strikes u 1 else none) with
    | some n => lcsTorn { s with life.phase := 3, life.otp.block := progBlock s.life.otp.block block n } target u
    | none =>
      let s := if provExit s target then
        { s with life.phase := 3, life.otp.block := progBlock s.life.otp.block block 1280 } else s
      match strikes u 2 with
      | some n =>
        let s := { s with life.phase := 4 }
        lcsTorn (if n = 0 then s else lcsActions s target) target u
      | none =>
        let s := lcsActions { s with life.phase := 4 } target
        match strikes u 3 with
        | some n => lcsTorn (setField { s with life.phase := 5 } target fun f => (f.1, progCopy f.2 n)) target u
        | none =>
          let s := setField s target fun f => (f.1, 0xFFFF)
          ({ s with life.phase := 6, life.done := true, life.pending := none }, aOk target)

/-- The token check and what follows (R424, R427). -/
def lcsToken2 (s : State) (se block : Bytes) (u : LcsUpset) : State × Reply :=
  let t := lcsTarget se
  if u == .glitch then (lcsMismatch (glitchAlarm s 0xFFFF 0xA3 (unitId 7 0)), aState 0x41)
  else if !(tokenSlots s t).contains (sha3 (lcsToken se)) then (lcsMismatch s, aState 0x41)
  else lcsProgram s t block u

/-- A refusal shows in LCS_XSTATUS (Table 16.9). -/
def lcsNote (r : State × Reply) : State × Reply :=
  if r.2.status = 0 || r.2.wait == .later || r.2.status = 0x0600 then r
  else ({ r.1 with life.phase := 0, life.lastDetail := r.2.detail }, r.2)

/-- LCS_TRANSITION after its common checks. -/
def lcsRun (s : State) (p : Nat) (se : Bytes) (u : LcsUpset) : State × Reply :=
  if provExit s (lcsTarget se) then
    match hostRead s (p * 256) (lcsDataAddr se) 160 7 false with
    | (s, none) => (s, ⟨0x0103, 0x01, 0, .done⟩)
    | (s, some b) => match firstReply (blockChecks s (lcsTarget se) b) with
      | some r => (s, r)
      | none => lcsToken2 s se b u
  else lcsToken2 s se [] u

/-- LCS_TRANSITION (R425 to R428). -/
def execLcsTransition (p : Nat) (se : Bytes) (u : LcsUpset) (s : State) : Host.Outcome State Fault Refusal :=
  .next (adminRow p se (opIs 0xA3) (fun s => lcsNote (
    match firstReply (baseChecks s p se true false false ++ lcsChecks s se) with
    | some r => (s, r)
    | none => lcsRun s p se u)) s)

/-! ### The scrap path in the boot of the transition (R432) -/

/-- Every link stops and the device is on the scrap path. -/
def enterScrap (s : State) : State :=
  let s := stopCore s 0xFFFF
  { s with
    life.state := .scrap, pins.boot := 2, tick.running := false, faults.alive := false, adm.cmds := [], adm.changes := [],
    adm.aborts := [],
    ports := s.ports.map fun x => { x with dlUp := false, l0 := false, speed := 0, linkWidth := 0 },
    tether.links := s.tether.links.map fun k => { k with state := .down, width := 0 } }

/-- Has a SCRAP transition been accepted and its CE posted? -/
def scrapDue (s : State) : Bool :=
  s.life.done && s.lcs != .scrap && (s.life.otp.fields.getD 5 (0, 0)).1 != 0 && s.adm.cmds.isEmpty

/-- JTAG_LCS_CMD (R425, R433): in BLANK, and for SCRAP in INVALID; 56 parameter bytes, no data block, no AF and no CE. -/
def execJtagLcsCmd (params : Bytes) (u : LcsUpset) (s : State) : Host.Outcome State Fault Refusal :=
  .next (
    let se := zeros 8 ++ fit 56 params
    if s.pins.boot != 2 || !(s.lcs == .blank || (s.lcs == .invalid && lcsTarget se == 6)) then s else
    let (t, r) := lcsNote (match firstReply (lcsChecks s se) with
      | some r => (s, r)
      | none => lcsToken2 s se [] u)
    if r.status = 0 && lcsTarget se == 6 && r.wait == .done then enterScrap t else t)

/-! ### Attestation (R440) -/

/-- The report of Table 16.8. -/
def attestReport (s : State) (nonce : Bytes) (keys : Bool) (len : Nat) : Bytes :=
  let o := s.life.otp
  fit 256 (leBytes 4 0x54415A44 ++ leBytes 1 1 ++ leBytes 1 (b2n keys + 2 * b2n (s.lcs == .test)) ++ zeros 2
    ++ leBytes 4 len ++ leBytes 4 (lcsState s) ++ fit 16 s.pins.identity ++ fit 32 nonce ++ leBytes 8 (tickCount s)
    ++ leBytes 8 s.htime ++ leBytes 4 s.grafts.version ++ leBytes 4 s.life.fwVersion ++ leBytes 1 s.floorT
    ++ leBytes 1 o.envelope ++ leBytes 1 (if o.policySet then o.policy else 0xFF) ++ zeros 1 ++ leBytes 4 (hwdStatus s)
    ++ o.ownerRoot ++ fit 32 s.grafts.digest ++ fit 32 s.grafts.bundleDigest ++ fit 32 s.grafts.ownerDigest)

/-- The attestation public keys: ML-DSA-87, then P-384 (R439, R440). -/
def attestPublic (s : State) : Bytes :=
  stdBytes .devicePub 0x0203 [(attestKeys s).take 32] 2592 ++ stdBytes .devicePub 0x1102 [(attestKeys s).drop 32] 97

/-- "dzattest". -/
def dzattest : Bytes := [0x64, 0x7A, 0x61, 0x74, 0x74, 0x65, 0x73, 0x74]

/-- The whole output of ATTEST. -/
def attestOut (s : State) (nonce : Bytes) (keys : Bool) : State × Bytes :=
  let body := attestReport s nonce keys (if keys then 7668 else 4979) ++ (if keys then attestPublic s else [])
  let (s, sig) := attestSign s dzattest body
  (s, body ++ sig)

/-- ATTEST (R440): also in recovery and after a completed transition. -/
def execAttest (p : Nat) (se : Bytes) (s : State) : Host.Outcome State Fault Refusal :=
  .next (adminRow p se (opIs 0xA2) (fun s =>
    match firstReply (baseChecks s p se false false false ++ lifeChecks s true true ++ scanReply se
        [(8, 12, false), (20, 32, false), (52, 1, decide (1 < byteAt se 52))]) with
    | some r => (s, r)
    | none =>
      let (s, out) := attestOut s (sub se 20 32) (bit (byteAt se 52) 0)
      adminOutput s p se out) s)

/-! ### Debug (R435) -/

/-- DBG_CHALLENGE (R435): in RETURNED, a fresh nonce and the identity; elsewhere the TAP reads as bypass. -/
def execDbgChallenge (s : State) : Host.Outcome State Fault Refusal :=
  .next (if s.lcs != .returned || s.pins.boot < 2 then s else
    let (n, s) := takeFree s 32
    { s with life.challenge := some n, pins.answer := n ++ fit 16 s.pins.identity })

/-- "dzdebug". -/
def dzdebug : Bytes := [0x64, 0x7A, 0x64, 0x65, 0x62, 0x75, 0x67]

/-- DBG_RESPONSE (R435): both signatures under the vendor debug root, a decision taken twice; a failed one closes the
challenge. -/
def execDbgResponse (r : Bytes) (glitch : Bool) (s : State) : Host.Outcome State Fault Refusal :=
  .next (match s.life.challenge with
    | none => s
    | some n =>
      if s.lcs != .returned then s else
      let msg := n ++ fit 16 s.pins.identity
      let root := (List.range 2689).map Config.debugRoot
      let ok := r.length == 4723 && stdHolds .deviceVerify 0x0203 [dzdebug, root.take 2592, msg, r.take 4627]
        && stdHolds .deviceVerify 0x1102 [root.drop 2592, msg, r.drop 4627]
      let s := { s with life.challenge := none }
      if glitch then glitchAlarm s 0xFFFF 0 (unitId 7 0)
      else if ok then { s with life.debugOpen := true } else s)

end Sys2Proof.Machine
end

