-- ==== Sys2Proof/Machine/AladaM.lean ====
section
/-! DEFINITION. Alada-M, the instruction set of the steward pair (R442 to R444). -/

namespace Sys2Proof.Machine

/-! ### Memory (Table 16.10) -/

/-- Regions of the steward address map. -/
inductive MRegion where
  | pointer | rom | sram | control
  deriving DecidableEq, Repr

/-- The region of an address. -/
def mRegion (a : Nat) : Option MRegion :=
  if a < 0x400 then some .pointer
  else if 0x10000 ≤ a ∧ a < 0x20000 then some .rom
  else if 0x100000 ≤ a ∧ a < 0x200000 then some .sram
  else if 0x1000000 ≤ a ∧ a < 0x2000000 then some .control
  else none

/-- Is an address one at which an operand may stand? -/
def mOk (a : Nat) : Bool := a % 4 == 0 && (mRegion a).isSome

/-- The stored word at an address: zero where nothing has been written. -/
def mWord (s : State) (a : Nat) : Word := ((s.stw.mem.find? (·.1 == a)).map (·.2)).getD 0

/-- Read a word; the device control space is vendor-internal and its reads are free (log entry 5). -/
def mRead (s : State) (a : Nat) : State × Word :=
  match mRegion a with
  | some .rom => (s, BitVec.ofNat 32 (Config.bootRom a))
  | some .control => ((takeFreeNat s).2, BitVec.ofNat 32 (takeFreeNat s).1)
  | _ => (s, mWord s a)

/-- Write a word: the boot ROM is read-only, and what a write to the control space does is vendor-internal (log entry 29). -/
def mWrite (s : State) (a : Nat) (v : Word) : State :=
  match mRegion a with
  | some .pointer => { s with stw.mem := (a, v) :: s.stw.mem.filter (·.1 != a) }
  | some .sram => { s with stw.mem := (a, v) :: s.stw.mem.filter (·.1 != a) }
  | _ => s

/-! ### Operands (R443, Table 16.11) -/

/-- What a specifier stands for: a value, or the word at an effective address. -/
inductive MLoc where
  | imm (v : Word)
  | word (a : Nat)
  deriving DecidableEq, Repr

/-- Pointer cell `p`. -/
def pCell (s : State) (p : Nat) : Nat := (mWord s (4 * p)).toNat

/-- A signed displacement of `n` bits added to an address. -/
def mDisp (a d n : Nat) : Nat := (a + d + (if d < 2 ^ (n - 1) then 0 else 2 ^ 32 - 2 ^ n)) % 2 ^ 32

/-- The word at an address as a location; `none` for a misaligned or unmapped one. -/
def mAt (s : State) (a : Nat) : Option (State × MLoc) := if mOk a then some (s, .word a) else none

/-- Form the effective address of a specifier with its extension word; auto-increment and auto-decrement take effect
(R443, R444). -/
def mForm (s : State) (sp ext : Nat) : Option (State × MLoc) :=
  let mode := sp % 256 / 32
  let ext := ext % 2 ^ 32
  let p := bits ext 31 24
  if mode != 0 && sp % 32 != 0 then none else
  match mode with
  | 0 => some (s, .imm (BitVec.ofNat 32 (sp % 32)))
  | 1 => some (s, .imm (BitVec.ofNat 32 ext))
  | 2 => mAt s ext
  | 3 => if mOk ext then mAt (mRead s ext).1 (mRead s ext).2.toNat else none
  | 4 => mAt s (mDisp (pCell s p) (bits ext 23 0) 24)
  | 5 => mAt s (mDisp (pCell s p + 4 * pCell s (bits ext 23 16)) (bits ext 15 0) 16)
  | 6 => if bits ext 31 8 != 0 then none
    else mAt (mWrite s (4 * ext) (BitVec.ofNat 32 (pCell s ext + 4))) (pCell s ext)
  | _ => if bits ext 31 8 != 0 then none
    else
      let a := (pCell s ext + 2 ^ 32 - 4) % 2 ^ 32
      mAt (mWrite s (4 * ext) (BitVec.ofNat 32 a)) a

/-- Extension words a specifier takes. -/
def mExt (sp : Nat) : Nat := if sp % 256 / 32 = 0 then 0 else 1

/-- The value of an operand. -/
def mVal (s : State) : MLoc → State × Word
  | .imm v => (s, v)
  | .word a => mRead s a

/-! ### Execution (R444) -/

/-- An instruction of `k` specifiers: unused specifier bytes must be zero; addresses are formed in order, then `body` reads,
computes and writes.  A fault leaves every word unchanged and is a lockstep mismatch (R384, R442). -/
def mRun (k : Nat) (o : MOps) (body : State → MLoc → MLoc → MLoc → Option State) (s : State) : State :=
  if s.pins.boot < 2 || s.stw.resetting then s else
  let zero (i sp : Nat) : Bool := decide (i < k) || sp % 256 == 0
  let form (i : Nat) (s : State) (sp ext : Nat) : Option (State × MLoc) :=
    if i < k then mForm s sp ext else some (s, .imm 0)
  let words (i sp : Nat) : Nat := if i < k then mExt sp else 0
  let r : Option State :=
    if !(zero 0 o.s1 && zero 1 o.s2 && zero 2 o.s3) then none else do
      let (s, a) ← form 0 s o.s1 o.e1
      let (s, b) ← form 1 s o.s2 o.e2
      let (s, c) ← form 2 s o.s3 o.e3
      body { s with stw.pc := (s.stw.pc + 4 * (1 + words 0 o.s1 + words 1 o.s2 + words 2 o.s3)) % 2 ^ 32 } a b c
  match r with
  | some t => t
  | none => stewardMismatch s

/-- Write the result to the destination; an immediate as a destination is a fault. -/
def mStore (s : State) (d : MLoc) (v : Word) : Option State :=
  match d with
  | .imm _ => none
  | .word a => some (mWrite s a v)

/-- d ← f(a, b). -/
def mAlu (f : Word → Word → Word) (o : MOps) (s : State) : State :=
  mRun 3 o (fun s d a b =>
    let (s, x) := mVal s a
    let (s, y) := mVal s b
    mStore s d (f x y)) s

/-- If f(a, b), the next instruction is at t. -/
def mBranch (f : Word → Word → Bool) (o : MOps) (s : State) : State :=
  mRun 3 o (fun s a b t =>
    let (s, x) := mVal s a
    let (s, y) := mVal s b
    let (s, z) := mVal s t
    some (if f x y then { s with stw.pc := z.toNat } else s)) s

/-- Shift amounts are taken modulo 32. -/
def sh (b : Word) : Nat := b.toNat % 32

/-- The unsigned high half of a product. -/
def mulhu (a b : Word) : Word := BitVec.ofNat 32 (a.toNat * b.toNat / 2 ^ 32)

/-- Unsigned quotient and remainder; with b = 0, all ones, and a. -/
def divu (a b : Word) : Word := if b = 0 then 0xFFFFFFFF else BitVec.ofNat 32 (a.toNat / b.toNat)
def remu (a b : Word) : Word := if b = 0 then a else BitVec.ofNat 32 (a.toNat % b.toNat)

/-- Are `n` words from an address mapped and aligned, in one region? -/
def mRange (a n : Nat) : Bool :=
  n == 0 || (mOk a && mRegion (a + 4 * (n - 1)) == mRegion a)

/-- Copy `n` words in ascending order. -/
def mCopy : Nat → Nat → Nat → State → State
  | 0, _, _, s => s
  | n + 1, d, a, s => mCopy n (d + 4) (a + 4) (mWrite (mRead s a).1 d (mRead s a).2)

/-- Write a word to `n` words. -/
def mFill : Nat → Nat → Word → State → State
  | 0, _, _, s => s
  | n + 1, d, v, s => mFill n (d + 4) v (mWrite s d v)

/-- MOV. -/
def execAladaMMov (o : MOps) (s : State) : Host.Outcome State Fault Refusal :=
  .next (mRun 2 o (fun s d a _ => mStore (mVal s a).1 d (mVal s a).2) s)

/-- ADD. -/
def execAladaMAdd (o : MOps) (s : State) : Host.Outcome State Fault Refusal := .next (mAlu (· + ·) o s)

/-- SUB. -/
def execAladaMSub (o : MOps) (s : State) : Host.Outcome State Fault Refusal := .next (mAlu (· - ·) o s)

/-- AND. -/
def execAladaMAnd (o : MOps) (s : State) : Host.Outcome State Fault Refusal := .next (mAlu (· &&& ·) o s)

/-- OR. -/
def execAladaMOr (o : MOps) (s : State) : Host.Outcome State Fault Refusal := .next (mAlu (· ||| ·) o s)

/-- XOR. -/
def execAladaMXor (o : MOps) (s : State) : Host.Outcome State Fault Refusal := .next (mAlu (· ^^^ ·) o s)

/-- SHL. -/
def execAladaMShl (o : MOps) (s : State) : Host.Outcome State Fault Refusal := .next (mAlu (fun a b => a <<< sh b) o s)

/-- SHR. -/
def execAladaMShr (o : MOps) (s : State) : Host.Outcome State Fault Refusal := .next (mAlu (fun a b => a >>> sh b) o s)

/-- SAR. -/
def execAladaMSar (o : MOps) (s : State) : Host.Outcome State Fault Refusal :=
  .next (mAlu (fun a b => a.sshiftRight (sh b)) o s)

/-- MUL. -/
def execAladaMMul (o : MOps) (s : State) : Host.Outcome State Fault Refusal := .next (mAlu (· * ·) o s)

/-- MULHU. -/
def execAladaMMulhu (o : MOps) (s : State) : Host.Outcome State Fault Refusal := .next (mAlu mulhu o s)

/-- DIVU. -/
def execAladaMDivu (o : MOps) (s : State) : Host.Outcome State Fault Refusal := .next (mAlu divu o s)

/-- REMU. -/
def execAladaMRemu (o : MOps) (s : State) : Host.Outcome State Fault Refusal := .next (mAlu remu o s)

/-- BEQ. -/
def execAladaMBeq (o : MOps) (s : State) : Host.Outcome State Fault Refusal := .next (mBranch (fun a b => a == b) o s)

/-- BNE. -/
def execAladaMBne (o : MOps) (s : State) : Host.Outcome State Fault Refusal := .next (mBranch (fun a b => a != b) o s)

/-- BLTU. -/
def execAladaMBltu (o : MOps) (s : State) : Host.Outcome State Fault Refusal := .next (mBranch (fun a b => a.ult b) o s)

/-- BLT. -/
def execAladaMBlt (o : MOps) (s : State) : Host.Outcome State Fault Refusal := .next (mBranch (fun a b => a.slt b) o s)

/-- JMP. -/
def execAladaMJmp (o : MOps) (s : State) : Host.Outcome State Fault Refusal :=
  .next (mRun 1 o (fun s t _ _ => some { (mVal s t).1 with stw.pc := (mVal s t).2.toNat }) s)

/-- CALL: the link word takes the address of the next instruction. -/
def execAladaMCall (o : MOps) (s : State) : Host.Outcome State Fault Refusal :=
  .next (mRun 2 o (fun s t l _ =>
    let next := s.stw.pc
    let (s, z) := mVal s t
    mStore { s with stw.pc := z.toNat } l (BitVec.ofNat 32 next)) s)

/-- COPY. -/
def execAladaMCopy (o : MOps) (s : State) : Host.Outcome State Fault Refusal :=
  .next (mRun 3 o (fun s d a n => match d, a with
    | .word d, .word a =>
      let (s, k) := mVal s n
      if mRange d k.toNat && mRange a k.toNat then some (mCopy k.toNat d a s) else none
    | _, _ => none) s)

/-- FILL. -/
def execAladaMFill (o : MOps) (s : State) : Host.Outcome State Fault Refusal :=
  .next (mRun 3 o (fun s d v n => match d with
    | .word d =>
      let (s, x) := mVal s v
      let (s, k) := mVal s n
      if mRange d k.toNat then some (mFill k.toNat d x s) else none
    | .imm _ => none) s)

/-- WAIT: goes on once an event of the mask is pending; until then the instruction stands. -/
def execAladaMWait (o : MOps) (s : State) : Host.Outcome State Fault Refusal :=
  .next (mRun 1 o (fun t m _ _ => if (mVal t m).2.toNat &&& s.stw.events != 0 then some (mVal t m).1 else some s) s)

/-- LEA: the effective address of s. -/
def execAladaMLea (o : MOps) (s : State) : Host.Outcome State Fault Refusal :=
  .next (mRun 2 o (fun s d a _ => match a with
    | .word x => mStore s d (BitVec.ofNat 32 x)
    | .imm _ => none) s)

end Sys2Proof.Machine
end

