-- ==== Sys2Proof/Machine/Ports.lean ====
section
/-! DEFINITION. Host ports (18_host_ports_registers.md): configuration requests, VF Enable, Function Level Reset, bus mastering,
vectors, completions, links and port resets. -/

namespace Sys2Proof.Machine

/-! ### Functions (R477, R480, R481) -/

/-- Does a function of a port exist: the PF of a port that is present, or an enabled VF? -/
def fnExists (s : State) (fn : Nat) : Bool := decide (fn < 1024) && (s.port (portOf fn)).present && vfEnabled s fn

/-- The identifiers of R477; any other register is the base specification's, its value free here (log entry 5). -/
def configRead (s : State) (fn off : Nat) : State × Nat :=
  match off with
  | 0x00 => (s, (if fn % 256 = 0 then 0x8256 else 0x8257) * 65536 + 0x1E73)
  | 0x08 => (s, 0x108000 * 256 + s.pins.stepping % 256)
  | 0x2C => (s, (if s.pins.grade = 0 then 0x000A else 0x000C) * 65536 + 0x1E73)
  | _ => ((takeFreeNat s).2, (takeFreeNat s).1 % 2 ^ 32)

/-- CONFIG_REQUEST (R438): Configuration Request Retry Status, an empty answer, before step 8; then answered. -/
def execConfigRequest (p fn : Nat) (a : CfgAccess) (s : State) : Host.Outcome State Fault Refusal :=
  .next (
    let f := p * 256 + fn
    if !s.up then { s with pins.answer := [] }
    else if 256 ≤ fn || !fnExists s f then s
    else match a with
      | .read off =>
        let (t, v) := configRead s f off
        { t with pins.answer := leBytes 4 v }
      | .msix enable mask => s.putMsix { s.msixOf f with enable := enable, funcMask := mask }
      | .ari on => if fn = 0 then s.updPort p fun x => { x with ari := on } else s)

/-- VF_ENABLE_SET (R480). -/
def execVfEnableSet (p n : Nat) (s : State) : Host.Outcome State Fault Refusal :=
  .next (if !s.up || !(s.port p).present || (s.port p).vfEnable || n = 0 || 255 < n then s
    else s.updPort p fun x => { x with vfEnable := true, numVfs := n })

/-- A function's configuration space returns to its reset values: bus mastering and MSI-X go off, and it is in D0. -/
def resetFn (s : State) (sel : Nat → Bool) : State :=
  { s with busMaster := s.busMaster.filter fun f => !sel f, msix := s.msix.filter fun m => !sel m.inst,
           ports := s.ports.mapIdx fun p x => { x with d3 := x.d3.filter fun f => !sel (p * 256 + f) } }

/-- VF_ENABLE_CLEAR (R480): the FLR action on every TF instance of the port. -/
def execVfEnableClear (p : Nat) (s : State) : Host.Outcome State Fault Refusal :=
  .next (if !s.up || !(s.port p).vfEnable then s else
    let tfs := (s.insts.filter fun x => portOf x.id == p && x.id % 256 != 0).map (·.id)
    let s := tfs.foldl flrAction s
    (resetFn s fun f => portOf f == p && f % 256 != 0).updPort p fun x => { x with vfEnable := false, numVfs := 0 })

/-- FUNCTION_LEVEL_RESET (R119): of a TF, through either face of a pair. -/
def execFunctionLevelReset (inst : Nat) (s : State) : Host.Outcome State Fault Refusal :=
  .next (if !s.up || inst % 256 = 0 || !fnExists s inst then s
    else resetFn (flrAction s (faceInst s inst)) (· == inst))

/-- BUS_MASTER_DISABLE (R481): Bus Master Enable clears, or the function goes to D3hot. -/
def execBusMasterDisable (fn : Nat × Bool) (s : State) : Host.Outcome State Fault Refusal :=
  .next (
    let s : State := { s with busMaster := s.busMaster.filter (· != fn.1) }
    if fn.2 && !asleep s fn.1 then s.updPort (portOf fn.1) fun x => { x with d3 := x.d3 ++ [fn.1 % 256] } else s)

/-- BUS_MASTER_ENABLE (R481): bus mastering returns, in D0. -/
def execBusMasterEnable (fn : Nat) (s : State) : Host.Outcome State Fault Refusal :=
  .next (if !s.up || !fnExists s fn || s.busMaster.contains fn then s else
    { s with busMaster := s.busMaster ++ [fn] }.updPort (portOf fn) fun x => { x with d3 := x.d3.filter (· != fn % 256) })

/-- VECTOR_UNMASK (R481, R483, R484): the table entry is written and its mask clears; a pending vector is sent at the next
boundary. -/
def execVectorUnmask (inst v addr data : Nat) (s : State) : Host.Outcome State Fault Refusal :=
  .next (if !s.up || !fnExists s inst || asleep s inst || decide ((if inst % 256 = 0 then 2048 else 64) ≤ v) then s else
    let m := s.msixOf inst
    s.putMsix { m with
      entries := { vec := v, addr := addr % 2 ^ 64, data := data % 2 ^ 32, masked := false } :: m.entries.filter (·.vec != v) })

/-- Step 4: pending vectors that are no longer masked send their message (R484). -/
def sendPending (s : State) : State :=
  s.msix.foldl (fun s m =>
    if !m.enable || m.funcMask then s else
    (m.pba.filter fun v => !(m.entry v).masked).foldl (fun s v =>
      let s := sendFn s m.inst v
      s.putMsix { s.msixOf m.inst with pba := (s.msixOf m.inst).pba.filter (· != v) }) s) s

/-! ### Completions (R482) -/

/-- The consequence of a failed read, as that of a translation fault of the same access (R66, R75, R107, R271). -/
def readFailed (s : State) (f : ReadFor) : State :=
  match f with
  | .se inst q p => match s.sq? inst q with
    | none => s
    | some x =>
      let n := ringN x.log2n
      let d := dist n p x.head
      if !mayFetch s x || 2 * n ≤ p || n ≤ d || x.copies.any (·.pos == p) then s
      else if d < x.published then
        s.updSq inst q fun x => { x with copies := x.copies ++ [{ pos := p, bytes := none }] }
      else if x.readAhead then specInc s 6 1 else s
  | .input j => match s.job? j with
    | none => s
    | some x => if !runnable s x || x.input.isSome then s
      else if x.confirmed then finalCommit s j (errR 0x0103 0x01) else specInc s 6 1
  | .span _ _ => s
  | .other => s

/-- A bit of PORT_EVENTS. -/
def portEvent (s : State) (p b : Nat) : State := s.updPort p fun x => { x with events := x.events ||| 2 ^ b }

/-- What is left of the addresses whose reads fail when a completion with data covers some of them. -/
def Deaf.minus (bus len : Nat) (d : Deaf) : List Deaf :=
  let r := max d.bus (bus + len)
  [{ d with len := min d.len (bus - d.bus) }, { d with bus := r, len := d.bus + d.len - r }].filter fun x => decide (0 < x.len)

/-- A failed read sets a bit of PORT_EVENTS and has its consequence; one told by its addresses fails when it is made. -/
def noData (s : State) (p k : Nat) (f : ReadFor) : State :=
  match f with
  | .span bus len => { s with hostDeaf := s.hostDeaf.flatMap (Deaf.minus bus len) ++ [{ bus := bus, len := len, event := k }] }
  | _ => readFailed (portEvent s p k) f

/-- HOST_READ_COMPLETION (R482): host memory as the completion shows it, or a failed read. -/
def execHostReadCompletion (p : Nat) (f : ReadFor) (c : Cpl) (s : State) : Host.Outcome State Fault Refusal :=
  .next (if !s.up || !(s.port p).dlUp then s else match c with
    | .ok bus data => { s with
      hostMem := Mem.writeBytes s.hostMem bus data, hostDeaf := s.hostDeaf.flatMap (Deaf.minus bus data.length) }
    | .ur => noData s p 5 f
    | .ca => noData s p 5 f
    | .poisoned => noData s p 3 f)

/-- COMPLETION_TIMEOUT (R482). -/
def execCompletionTimeout (p : Nat) (f : ReadFor) (s : State) : Host.Outcome State Fault Refusal :=
  .next (if !s.up || !(s.port p).present then s else noData s p 4 f)

/-! ### Links (R475, R487) -/

/-- First lane of a port under a split (Table 18.1). -/
def firstLane (split p : Nat) : Nat := if split % 4 = 3 then 4 * p else if p = 2 then 8 else if p = 3 then 12 else 0

/-- Is a port in a pair? -/
def isPaired (s : State) (p : Nat) : Bool := s.adm.pairs.any fun x => x.1 == p || x.2.1 == p

/-- A port is down: HOST_PORT, WITHDRAWN from the next boundary, DOWN_SEEN (R487). -/
def portDown (s : State) (p : Nat) : State :=
  let s := portEvent (raiseSrc s 0x18 p 0) p 0
  s.updateUnit (unitId 9 p) .withdrawn 0

/-- A link that is up at a speed and width: SERVING when both are full, else DEGRADED with HOST_LANE for the lowest lane
lost (R487). -/
def portUp (s : State) (p speed width lane : Nat) : State :=
  let full := decide (5 ≤ speed) && decide ((s.port p).maxWidth ≤ width)
  let s := if full then s else raise s (srcId 0x17 (lane % 16)) (unitId 9 p) 0 false
  let s := s.updPort p fun x => { x with dlUp := true, l0 := true, fell := false, speed := speed, linkWidth := width }
  s.updateUnit (unitId 9 p) (if full then .serving else .degraded) width

/-- Does a link width fit a port? -/
def widthOk (s : State) (p width : Nat) : Bool := [1, 2, 4, 8, 16].contains width && decide (width ≤ (s.port p).maxWidth)

/-- HOST_LINK_TRAINED (R475). -/
def execHostLinkTrained (p speed width : Nat) (s : State) : Host.Outcome State Fault Refusal :=
  .next (if !s.up || !(s.port p).present || (s.port p).l0 || !widthOk s p width || speed < 3 || 5 < speed then s
    else portUp s p speed width (firstLane s.pins.split p + (if width < (s.port p).maxWidth then width else 0)))

/-- HOST_LINK_RETRY (R475): a port that cannot reach 8 GT/s retrains; it is DOWN, and WITHDRAWN. -/
def execHostLinkRetry (p : Nat) (s : State) : Host.Outcome State Fault Refusal :=
  .next (if !s.up || !(s.port p).present || (s.port p).dlUp then s else
    let s := s.updPort p fun x => { x with recoveries := satInc 65535 x.recoveries }
    if (s.health (unitId 9 p)).state == .withdrawn || s.faults.raises.any (·.unit == unitId 9 p) then s else portDown s p)

/-- HOST_LINK_DOWN (R486, R487): out of L0, or DL_Down, which resets the port; unpaired, a loss of L0 alone only stalls. -/
def execHostLinkDown (p : Nat) (dl : Bool) (s : State) : Host.Outcome State Fault Refusal :=
  .next (if !s.up || !(s.port p).l0 then s else
    let s := s.updPort p fun x => { x with l0 := false, recoveries := satInc 65535 x.recoveries }
    if dl then
      portDown (s.updPort p fun x => { x with dlUp := false, fell := true, speed := 0, linkWidth := 0, resetDue := true }) p
    else if isPaired s p then portDown s p else s)

/-- HOST_LANE_DEGRADE (R487). -/
def execHostLaneDegrade (p speed width lane : Nat) (s : State) : Host.Outcome State Fault Refusal :=
  .next (
    let x := s.port p
    if !s.up || !x.l0 || !widthOk s p width || speed < 3 || x.speed < speed || x.linkWidth < width
        || (speed = x.speed ∧ width = x.linkWidth) then s else
    let s := if width < x.linkWidth then portEvent s p 1 else s
    let s := if speed < x.speed then portEvent s p 2 else s
    portUp (s.updPort p fun x => { x with recoveries := satInc 65535 x.recoveries }) p speed width lane)

/-! ### Port reset (R486) -/

/-- PORT_RESET: it takes effect at step 3 of the next boundary. -/
def execPortReset (p : Nat) (s : State) : Host.Outcome State Fault Refusal :=
  .next (if !s.up || !(s.port p).present then s else s.updPort p fun x => { x with resetDue := true })

/-- Step 3: a port reset. -/
def portReset (s : State) (p : Nat) : State :=
  let keep := s.adm.pairs.any fun x => x.1 == p && x.2.2 && (s.port x.2.1).l0
  let tfs := if keep then [] else (s.insts.filter fun x => portOf x.id == p && x.id % 256 != 0).map (·.id)
  let s := tfs.foldl (fun s i => (flrAction s i).updInst i fun x => { x with mode := .off }) s
  let s := (dropWork s (p * 256)).updInst (p * 256) fun x => { x with mode := .bypass }
  let s := { s with adm.dump := match s.adm.dump with
    | some d => if d.1 = p * 256 then none else some d
    | none => none }
  portEvent ((resetFn s fun f => portOf f == p).updPort p fun x => { x with
    resetDue := false, vfEnable := false, numVfs := 0, ari := false, admq.enable := false,
    admq.sq.tail := x.admq.sq.head }) p 6

/-- Step 3: every port reset that is due. -/
def portResets (s : State) : State :=
  ((List.range 4).filter fun p => (s.port p).resetDue).foldl portReset s

end Sys2Proof.Machine
end

