-- ==== Sys2Proof/Machine/Charter.lean ====
section
/-! DEFINITION. The charter (R447 to R450): its form, its topology, its acceptance, and the CANOPY_CONFIG commands. -/

namespace Sys2Proof.Machine

/-! ### Header, member and peer entries (Tables 17.3 to 17.5) -/

/-- A member entry. -/
structure ChMember where
  identity : Bytes
  digest : Bytes
  num : Nat
  role : Nat
  parent : Nat
  link : Nat
  /-- Layouts of ports 0 to 3. -/
  ports : List Nat
  deriving DecidableEq, Repr, Inhabited

/-- A peer entry. -/
structure ChPeer where
  canopy : Nat
  manager : Bytes
  standby : Bytes
  deriving DecidableEq, Repr, Inhabited

def chSigned (b : Bytes) : Bool := bit (byteAt b 5) 0
def chCanopy (b : Bytes) : Nat := byteAt b 6
def chMode (b : Bytes) : Nat := byteAt b 7
def chSerial (b : Bytes) : Nat := leAt b 12 4

/-- The member entries. -/
def chMembers (b : Bytes) : List ChMember :=
  (List.range (byteAt b 8)).map fun i =>
    let o := 64 + 64 * i
    { identity := sub b o 16, digest := sub b (o + 16) 32, num := byteAt b (o + 48), role := byteAt b (o + 49),
      parent := byteAt b (o + 50), link := byteAt b (o + 51), ports := (List.range 4).map fun p => byteAt b (o + 52 + p) }

/-- The peer entries. -/
def chPeers (b : Bytes) : List ChPeer :=
  (List.range (byteAt b 9)).map fun i =>
    let o := 64 + 64 * byteAt b 8 + 80 * i
    { canopy := byteAt b o, manager := sub b (o + 16) 32, standby := sub b (o + 48) 32 }

/-- Bytes of a charter before its signature block. -/
def chBody (b : Bytes) : Nat := 64 + 64 * byteAt b 8 + 80 * byteAt b 9

/-- Is a charter well formed under Tables 17.3 to 17.5? -/
def charterForm (b : Bytes) : Bool :=
  decide (64 ≤ b.length) && leAt b 0 4 == 0x52435A44 && byteAt b 4 == 1 && decide (byteAt b 5 < 2) && decide (chCanopy b < 4)
    && decide (chMode b < 2) && decide (2 ≤ byteAt b 8) && decide (byteAt b 8 ≤ 16) && decide (byteAt b 9 ≤ 3)
    && [1, 3, 4].contains (byteAt b 10) && byteAt b 11 == 0 && allZero b 20 44
    && leAt b 16 4 == chBody b + (if chSigned b then 7412 else 0) && b.length == leAt b 16 4
    && (List.range (byteAt b 8)).all (fun i => allZero b (64 + 64 * i + 56) 8)
    && (chMembers b).all (fun m => decide (m.num < 16) && decide (1 ≤ m.role) && decide (m.role ≤ 3)
        && m.ports.all (decide <| · ≤ 2) && (m.parent == 0xFF || decide (m.parent < 16))
        && (if m.parent = 0xFF then m.link == 0xFF else decide (m.link < 8)))
    && decide ((chMembers b).map (·.num)).Nodup
    && (chPeers b).all (fun p => decide (p.canopy < 4) && p.canopy != chCanopy b)
    && decide ((chPeers b).map (·.canopy)).Nodup
    && (List.range (byteAt b 9)).all (fun i => allZero b (64 + 64 * byteAt b 8 + 80 * i + 1) 15)

/-! ### Topology (R447, Table 17.2) -/

/-- Does a device's port layout give it a link: a whole port its even link, a split port both? -/
def hasLink (m : ChMember) (l : Nat) : Bool :=
  match m.ports.getD (l / 2) 0 with
  | 1 => l % 2 == 0
  | 2 => true
  | _ => false

/-- Children of a member. -/
def childrenOf (ms : List ChMember) (n : Nat) : List ChMember := ms.filter fun m => m.parent == n

/-- Is a topology one that R447 allows? -/
def topologyOk (b : Bytes) : Bool :=
  let ms := chMembers b
  let managers := ms.filter (·.role == 1)
  let standbys := ms.filter (·.role == 3)
  let mgr := managers.headD default
  let depth1 (m : ChMember) : Bool := m.role == 2 && m.parent == mgr.num
  let forest := decide (0 < byteAt b 9)
  managers.length == 1 && decide (standbys.length ≤ 1) && decide ((childrenOf ms mgr.num).length ≤ 4)
    && ms.all (fun m =>
      if m.role = 2 then
        let ups := ms.filter fun p => p.num == m.parent
        let up := ups.headD default
        !ups.isEmpty && (up.role == 1 || depth1 up) && hasLink up m.link && hasLink m 0
          && (up.role == 1 || decide (2 ≤ m.link)) && (!(forest && up.role == 1) || decide (m.link < 4))
          && (!depth1 m || (decide ((childrenOf ms m.num).length ≤ 3) && (standbys.isEmpty || m.ports.getD 0 0 == 2)))
          && (depth1 m || (childrenOf ms m.num).isEmpty)
      else m.parent == 0xFF && (m.role == 1 || (childrenOf ms m.num).isEmpty))
    && decide ((ms.filter (·.role == 2)).map fun m => (m.parent, m.link)).Nodup
    && (standbys.all fun x => (childrenOf ms mgr.num).all fun m => hasLink x m.link)
    && (!forest || [0, 1].all fun p => mgr.ports.getD p 0 == 2)

/-! ### Acceptance (R449) -/

/-- "dzcanopy". -/
def dzcanopy : Bytes := [0x64, 0x7A, 0x63, 0x61, 0x6E, 0x6F, 0x70, 0x79]

/-- The signature block of a charter holds (R347, R449): a signed charter's keys hash to OWNER_ROOT and both signatures
verify; in TEST and DEVELOP an unsigned charter is accepted. -/
def charterSigned (s : State) (b : Bytes) : Bool :=
  if s.lcs == .deployed then
    chSigned b && sha3 (sigKeys b) == s.life.otp.ownerRoot
      && sigsOk dzcanopy (sigKeys b) (b.take (chBody b)) (b.drop (b.length - 7412 + 2689))
  else s.lcs == .test || s.lcs == .develop

/-- The DETAIL for which a charter is refused, if it is (R449, R450). -/
def charterFail (s : State) (b : Bytes) : Option Nat :=
  if !charterForm b || !topologyOk b then some 0x80
  else if byteAt b 10 != s.lcs.code || !charterSigned s b then some 0x81
  else if chSerial b + 1 < s.tether.serial then some 0x82
  else none

/-- A member as the charter lists it. -/
def ChMember.toMember (m : ChMember) : Member :=
  { num := m.num, role := m.role, parent := m.parent, parentLink := m.link, joined := false, lost := false, beat := 0, free := 0,
    ctr := 0, ctrOut := 0, pair := [] }

/-- The entry of this device in a charter. -/
def ownEntry (s : State) (b : Bytes) : Option ChMember := (chMembers b).find? (·.identity == fit 16 s.pins.identity)

/-- Take a charter: its members, peers and this device's own place in it; nobody has joined yet. -/
def holdCharter (s : State) (b : Bytes) (num : Nat) : State :=
  let mgr := ((chMembers b).find? (·.role == 1)).getD default
  { s with
    tether.charter := some b, tether.serial := max s.tether.serial (chSerial b + 1), tether.mode := chMode b,
    tether.canopy := chCanopy b, tether.member := num, tether.manager := mgr.num, tether.uplink := 0,
    tether.members := (chMembers b).map ChMember.toMember, tether.peers := (chPeers b).map (·.canopy),
    tether.pairKeys := [], tether.ring := [], tether.takeover := false, tether.orphan := false }

/-- Change the entry of a member. -/
def State.updMember (s : State) (d : Nat) (f : Member → Member) : State :=
  { s with tether.members := updWhere (·.num == d) f s.tether.members }

/-- The member of a code of SRC or DST, in this canopy. -/
def State.memberOf (s : State) (id : Nat) : Option Member :=
  if id / 16 = s.tether.canopy then s.tether.members.find? (·.num == id % 16) else none

/-- Code of a member of this canopy. -/
def State.idOf (s : State) (d : Nat) : Nat := s.tether.canopy * 16 + d

/-- The canopy tick (R458): TICK_COUNT with the offset, 48 bits. -/
def canopyTick (s : State) : Nat := (tickCount s + s.tether.off) % 2 ^ 48

/-- Change a link. -/
def State.updLink (s : State) (l : Nat) (f : TLink → TLink) : State := { s with tether.links := s.tether.links.modify l f }

def State.link (s : State) (l : Nat) : TLink := s.tether.links.getD l default

/-- A record of this chapter with a reason that the spec does not number: the reason is free (log entry 5). -/
def tetherRecord (s : State) (code member link : Nat) : State :=
  let (r, t) := takeFreeNat s
  emit t code member link (r % 2 ^ 32)

/-! ### Offers (R451) -/

/-- "dzpair". -/
def dzpair : Bytes := [0x64, 0x7A, 0x70, 0x61, 0x69, 0x72]

/-- This device's own entry. -/
def State.me (s : State) : Member := (s.tether.members.find? (·.num == s.tether.member)).getD default

/-- Does a member hang from the manager of the charter? -/
def isDepth1 (s : State) (m : Member) : Bool :=
  m.role == 2 && (s.tether.members.find? (·.num == m.parent)).any (·.role == 1)

/-- The member whose CHARTER goes out on a downlink of this device: its child there, or on the standby that has taken over the
depth-1 device that its links match (R447, R469); on the manager's ring and shadow links, a device of the next canopies (R447,
R471; of two canopies on links 4 and 6 alone), known by canopy alone. -/
def childOn (s : State) (l : Nat) : Option Nat :=
  match s.tether.members.find? fun m => m.parentLink == l && (if s.me.role = 3 then s.tether.active == 1 && isDepth1 s m
      else m.parent == s.tether.member) with
  | some m => some (s.idOf m.num)
  | none =>
    if s.tether.active = 1 ∧ s.me.role = 1 ∧ s.tether.peers ≠ [] ∧ (l = 4 ∨ l = 6 ∨ l = 7 ∧ 1 < s.tether.peers.length) then
      let n := s.tether.peers.length + 1
      some (((s.tether.canopy + (if l = 7 then n - 1 else 1)) % n) * 16)
    else none

/-- The manager offers the charter on a trained downlink: charter, attestation public keys, a fresh ML-KEM-1024 encapsulation
key and X448 public key, signed; their private halves derive from the 120 bytes it draws (R451 step 1). -/
def sendCharter (s : State) (l dst : Nat) : State :=
  match s.tether.charter with
  | none => s
  | some b =>
    let (seed, s) := takeFree s 120
    let ek := stdBytes .pubOf (ap 0x01 3) [seed.take 64] (pkLen 0x01 3)
    let pk := stdBytes .pubOfPriv (ap 0x14 2) [seed.drop 64] 56
    let body := leBytes 1 0 ++ b ++ attestPublic s ++ ek ++ pk
    let (s, sig) := attestSign s dzpair body
    let body := body ++ sig
    (sendClear s s.selfId dst body).updLink l fun k => { k with seed := seed, offer := body, refused := false, tried := now s }

/-- Discovery on a link that stands in DISCOVERY: the manager offers its charter; a depth-1 member that has joined forwards
the manager's (R451). -/
def discover (s : State) (l : Nat) : State :=
  if (s.link l).state != .discovery then s else
  match childOn s l with
  | none => s
  | some d =>
    if s.tether.active = 1 then sendCharter s l d
    else if s.tether.joined then
      let offer := (s.link s.tether.uplink).offer
      (sendClear s (s.idOf s.tether.manager) d offer).updLink l fun k =>
        { k with offer := offer, refused := false, tried := now s }
    else s

/-- Discovery on every link. -/
def discoverAll (s : State) : State := (List.range 8).foldl discover s

/-! ### CANOPY_CONFIG (R450) -/

/-- The refusals of R446 and R450 by role. -/
def soloCheck (s : State) : Bool × Reply := (s.solo, aState 0x80)

/-- The verdict on a charter, taken twice where a signature is judged (R449, Table 13.3): a disagreement raises the glitch alarm
and refuses the charter as one whose signature fails (R375). -/
def charterVerdict (s : State) (b : Bytes) (split : Bool) : State × Option Nat :=
  if split && s.lcs == .deployed && chSigned b && charterFail s b != some 0x80 then (glitchAlarm s 0xFFFF 0 (unitId 7 0), some 0x81)
  else (s, charterFail s b)

/-- LOAD of a charter that has been read (R449, R450). -/
def loadCharter (s : State) (b : Bytes) (split : Bool) : State × Reply :=
  match charterVerdict s b split with
  | (s, some d) => (s, ⟨0x0300, d, 0, .done⟩)
  | (s, none) =>
    -- the manager's own entry: the one charter entry of ROLE 1 carries its identity
    let me := ((chMembers b).find? (·.role == 1)).getD default
    let s := { holdCharter s b me.num with tether.joined := true, tether.off := 0, tether.managerBeat := now s }
    (discoverAll (s.updMember me.num fun m => { m with joined := true }), aOk 0)

/-- CANOPY_CONFIG LOAD (R450); an ACTION that is none of the three is refused here. -/
def execCanopyConfigLoad (p : Nat) (x : Bytes × Bool) (s : State) : Host.Outcome State Fault Refusal :=
  let (se, split) := x
  .next (adminCmd p se (fun b => opIs 0xA5 b && byteAt b 8 != 1 && byteAt b 8 != 2) true
    (fun s => [soloCheck s, (s.tether.active != 1, aState 0x80), (s.tether.charter.isSome, aState 0x82)]
      ++ scanReply se [(8, 1, byteAt se 8 != 0), (12, 2, false), (14, 2, false), (16, 8, false),
        (24, 4, decide (leAt se 24 4 < 64) || decide (16384 < leAt se 24 4))])
    (fun s => match hostRead s (p * 256) (leAt se 16 8) (leAt se 24 4) 7 false with
      | (s, none) => (s, ⟨0x0103, 0x01, 0, .done⟩)
      | (s, some b) => loadCharter s b split) s)

/-- CANOPY_CONFIG DISSOLVE (R450): DISSOLVE goes to every member; the manager leaves at the next boundary, and the command
completes then. -/
def execCanopyConfigDissolve (p : Nat) (se : Bytes) (s : State) : Host.Outcome State Fault Refusal :=
  .next (adminCmd p se (fun b => opIs 0xA5 b && byteAt b 8 == 1) true
    (fun s => [soloCheck s, (s.tether.active != 1, aState 0x80)]
      ++ scanReply se [(8, 1, false), (12, 2, false), (14, 2, false), (16, 8, false), (24, 4, false)])
    (fun s =>
      let t := s.peersJoined.foldl (fun s d => sendMsg s d 6 (leBytes 1 8)) s
      ({ t with tether.dissolve := some s.adm.nextRef }, aLater)) s)

/-- CANOPY_CONFIG TENANT_BIND (R450): on a joined member; applied at the next boundary.  Its state refusals come before the
ranges (R97).  The DETAIL for a member that has not joined is not published: free (log entry 24). -/
def execCanopyConfigTenantBind (p : Nat) (se : Bytes) (s : State) : Host.Outcome State Fault Refusal :=
  .next (adminCmd p se (fun b => opIs 0xA5 b && byteAt b 8 == 2) true
    (fun s => [soloCheck s])
    (fun s =>
      if !s.joined then ((takeFreeNat s).2, aState ((takeFreeNat s).1 % 256))
      else if decide (leAt se 12 2 ≤ 1023) && !liveState (instState s (leAt se 12 2)) then (s, aState 0x10)
      else match firstReply (scanReply se [(8, 1, false), (12, 2, decide (1023 < leAt se 12 2)), (14, 2, false), (16, 8, false),
          (24, 4, false)]) with
        | some r => (s, r)
        | none => ({ s with tether.binds := s.tether.binds ++ [(leAt se 12 2, leAt se 14 2)] }, aOk 0)) s)

end Sys2Proof.Machine
end

