-- ==== Sys2Proof/Machine/Tether.lean ====
section
/-! DEFINITION. Joining, losing and leaving a canopy (R451, R452, R457 to R461, R466 to R469, R471): the HEALTH messages, the
tick and the declarations of loss. -/

namespace Sys2Proof.Machine

/-! ### Roles and neighbours -/

/-- The standby of the charter. -/
def standbyOf (s : State) : Option Member := s.tether.members.find? (·.role == 3)

/-- The device at the far end of a link, by R447 and Table 17.2. -/
def peerOn (s : State) (l : Nat) : Option Nat :=
  let me := s.me
  if me.role = 3 then (s.tether.members.find? fun m => isDepth1 s m && m.parentLink == l).map fun m => s.idOf m.num
  else if me.role = 2 ∧ l = 0 then some (s.idOf me.parent)
  else if me.role = 2 ∧ l = 1 ∧ isDepth1 s me then (standbyOf s).map fun m => s.idOf m.num
  else childOn s l

/-- A link is PAIRED with the device at its far end. -/
def pairLink (s : State) (l : Nat) : State :=
  match peerOn s l with
  | some d => s.updLink l fun k => { k with state := .paired, peer := d, refused := false }
  | none => s

/-! ### Leaving jobs and contexts behind -/

/-- The jobs this device runs for others are withdrawn (R287, R467). -/
def withdrawAll (s : State) (p : Nat → Bool) : State :=
  let s := (s.work.jobs.filter fun j => (j.origin.map fun o => p o.1).getD false).foldl discardJob s
  { s with tether.held := s.tether.held.filter fun h => !p h.1 }

/-- Contexts homed here whose holder is lost or gone no longer exist: their generations advance (R466). -/
def forgetAway (s : State) (p : Nat → Bool) : State :=
  let gone := s.tether.away.filter fun a => p a.2.1
  { s with tether.away := s.tether.away.filter (fun a => !p a.2.1),
           tether.abroad := s.tether.abroad.filter (fun a => !p (bits a.1 29 26)),
           store.ctxGens := gone.foldl (fun gs a => putGen gs a.1 (nextGen (genOf gs a.1))) s.store.ctxGens }

/-- Key replicas go (R461, R467). -/
def forgetReplicas (s : State) : State :=
  (s.store.keys.filter fun k => decide (131072 ≤ k.index)).foldl (fun s k => dropKey s k.index) s

/-- A job that waits for a context to be moved here is checked again; `none` when the context is still on its way. -/
def recheck (s : State) (j : Job) : State :=
  if (remoteHolder s j.ctxH).isSome then s
  else s.updJob j.id fun _ => checkJob s { j with pulling := false } .none j.sprint

/-- Every job that waits for a context that is no longer elsewhere. -/
def recheckPulling (s : State) : State :=
  (s.work.jobs.filter fun j => j.pulling && j.result.isNone).foldl (fun s j => recheck s j) s

/-- A KEY_DESTROY of a replicated object that no member's answer holds back any more reaches its final commit (R461), unless the
revocation list is full: then its own row ends it (R263). -/
def finishDestroy (s : State) (j : Nat) : State :=
  match s.job? j with
  | some x => if x.opcode = 0x42 ∧ x.awaiting = [] ∧ x.result.isNone ∧ !revocationFull s x then
      finalCommit s j (okR [] [.destroyKey (x.keyIdx.getD 0)]) else s
  | none => s

/-- A member has answered KEY_DROP, or is lost. -/
def answered (s : State) (d : Nat) (p : Job → Bool) : State :=
  let js := (s.work.jobs.filter fun j => j.awaiting.contains d && p j).map (·.id)
  js.foldl (fun s j => finishDestroy (s.updJob j fun x => { x with awaiting := x.awaiting.filter (· != d) }) j) s

/-! ### Loss of a member (R466) -/

/-- A job sent to a lost member: a confirmed FUNNEL job that names no context runs again here; any other ends. -/
def loseJob (s : State) (j : Job) : State :=
  let t := now s - 1
  let s := s.updJob j.id fun x => { x with result := none, commitTick := none, resultHere := false, sent := false }
  if j.ctxUse.isNone && j.confirmed then
    let g := placeGrove s j.namedKey
    let e := placeEngine s g
    fetchKeys (s.updJob j.id fun x => { x with member := none, failover := true, grove := g, engine := e })
      { j with result := none, member := none, grove := g }
  else failJob s j.id 0x0600 0x80 t

/-- Is a job's RESULT missing, or did it arrive no earlier than the boundary at which the loss is learned (R470)? -/
def resultMissing (s : State) (j : Job) : Bool :=
  j.endedAt.isNone && (j.result.isNone || (j.resultHere && !j.committed && j.commitTick == some (now s - 1)))

/-- What a member does at step 3 about a lost one. -/
def loseMember (s : State) (d : Nat) : State :=
  let s := (s.work.jobs.filter fun j => j.member == some d && resultMissing s j).foldl loseJob s
  let s := (s.store.ctxs.filter fun c => c.moving && c.dest == d).foldl (fun s c => dropCtx s c.handle) s
  let s := forgetAway s fun m => s.idOf m == d
  let s := withdrawAll { s with
    tether.passed := s.tether.passed.filter (fun x => x.1 != d && x.2.2 != d),
    tether.moves := s.tether.moves.filter (·.2 != d) } (· == d)
  answered s d fun _ => true

/-- Step 3: the losses learned in the tick that has ended. -/
def applyLosses (s : State) : State :=
  recheckPulling (s.tether.losing.foldl loseMember { s with tether.losing := [] })

/-- The device leaves a canopy: jobs it runs for others are withdrawn, contexts that `keep` does not spare and replicas are
destroyed (R450, R467); every device that runs a job of its own, or owes it an answer, is lost to it (R466). -/
def partCanopy (s : State) (keep : Ctx → Bool) : State :=
  let s := withdrawAll s fun _ => true
  let s := (s.store.ctxs.filter fun c => !keep c).foldl (fun s c => dropCtx s c.handle) s
  let s := forgetReplicas (forgetAway s fun _ => true)
  { s with
    tether.joined := false, tether.ring := [], tether.passed := [], tether.moves := [], tether.held := [], tether.takeover := false,
    tether.losing := (s.tether.losing ++ s.work.jobs.flatMap fun j => j.member.toList ++ j.awaiting).dedup,
    tether.members := s.tether.members.map (fun m => { m with joined := false }),
    tether.links := s.tether.links.map fun k => { k with state := if k.state == .paired then .discovery else k.state } }

/-- An orphan (R467): it keeps the contexts of its own unbound instances and looks for the canopy again. -/
def orphan (s : State) : State :=
  if s.tether.orphan || !s.tether.joined then s else
  { partCanopy s (fun c => c.tenant.isNone && c.isHome s) with tether.orphan := true }

/-- DISSOLVE: no charter, no members, every context destroyed (R450). -/
def dissolve (s : State) : State :=
  { partCanopy s (fun _ => false) with
    tether.charter := none, tether.members := [], tether.peers := [], tether.canopy := 0, tether.member := 0, tether.mode := 0,
    tether.off := 0, tether.orphan := false, tether.active := s.pins.role, tether.manager := 0, tether.uplink := 0 }

/-- The manager leaves at the boundary after its DISSOLVE, and the command completes. -/
def dissolveDue (s : State) : State :=
  match s.tether.dissolve with
  | some ref => finishCmd { dissolve s with tether.dissolve := none } ref (aOk 0)
  | none => s

/-- Contexts homed on the old manager are lost with it (R469). -/
def dropHomed (s : State) (d : Nat) : State :=
  (s.store.ctxs.filter fun c => c.canopy == s.tether.canopy && c.home == d).foldl (fun s c => dropCtx s c.handle) s

/-- The standby takes over (R469): TAKEOVER to every depth-1 member; its offset is frozen, its role MANAGER. -/
def takeOver (s : State) : State :=
  let ds := (s.tether.members.filter fun m => isDepth1 s m && m.joined && !m.lost).map fun m => s.idOf m.num
  let s := ds.foldl (fun s d => sendMsg s d 6 (leBytes 1 4)) (dropHomed s s.tether.manager)
  tetherRecord { s with
    tether.active := 1, tether.manager := s.tether.member,
    tether.members := s.tether.members.map fun m => { m with beat := now s } } 0x0503 s.selfId 0

/-- A member accepts a TAKEOVER that it holds (R469): a depth-1 member's uplink becomes link 1. -/
def acceptTakeover (s : State) : State :=
  match standbyOf s with
  | none => s
  | some x =>
    let up := if isDepth1 s s.me then 1 else s.tether.uplink
    tetherRecord { dropHomed s s.tether.manager with
      tether.manager := x.num, tether.takeover := false, tether.uplink := up, tether.managerBeat := now s } 0x0503 (s.idOf x.num) up

/-- The manager is lost to this device: the standby takes over, a member accepts the TAKEOVER it holds or is an orphan
(R467, R469). -/
def managerGone (s : State) : State :=
  if s.tether.active = 3 then takeOver s else if s.tether.takeover then acceptTakeover s else orphan s

/-- A device is treated as lost: its bit in TETHER_MEMBERS, a MEMBER_LOST record, and R466 at the next boundary. -/
def markLost (s : State) (d link : Nat) : State :=
  match s.memberOf d with
  | none => { s with tether.ring := s.tether.ring.filter (·.num != d) }
  | some m =>
    if m.lost || m.num == s.tether.member || !s.tether.joined then s else
    let s := tetherRecord s 0x0502 d link
    let s := s.updMember m.num fun m => { m with lost := true, joined := false, free := 0 }
    let s := { s with tether.losing := s.tether.losing ++ [d] }
    if m.num = s.tether.manager then managerGone s else s

/-- The manager declares a member lost to every other (R459). -/
def declareLost (s : State) (d : Nat) : State :=
  let s := markLost s (s.idOf d) 0
  s.peersJoined.foldl (fun s x => sendMsg s x 6 (leBytes 1 5 ++ leBytes 1 (s.idOf d))) s

/-! ### Receiving (R452, R457) -/

/-- An authentication failure (R457): counted and recorded; the sender is treated as lost. -/
def authFail (s : State) (m : TMsg) : State :=
  markLost (tetherRecord { s with tether.authErr := satInc 65535 s.tether.authErr } 0x0501 m.src m.link) m.src m.link

/-- The devices this one is paired with, by code. -/
def pairedWith (s : State) : List (Nat × Member) :=
  ((s.tether.members.filter fun m => m.joined && !m.lost && m.num != s.tether.member).map fun m => (s.idOf m.num, m))
    ++ s.tether.ring.map fun m => (m.num, m)

/-- A message opened under a device's pair key. -/
def openFrom (s : State) (m : TMsg) (kind : Nat) (d : Nat × Member) : Option ((Nat × Member) × Bytes) :=
  (openBody d.2.pair (d.1 < s.selfId) kind m.src m.dst m.ctr m.body).map fun b => (d, b)

/-- The paired device whose key opens a message, and the plaintext: the sender, or the one that has sealed it anew to carry it on
(R452; log entry 56). -/
def unsealed (s : State) (m : TMsg) (kind : Nat) : Option ((Nat × Member) × Bytes) :=
  let (own, rest) := (pairedWith s).partition (·.1 == m.src)
  (own ++ rest).findSome? (openFrom s m kind)

/-- The CTR of a message accepted from a paired device (R452). -/
def noteCtr (s : State) (d ctr : Nat) : State :=
  { s with
    tether.members := updWhere (fun m => s.idOf m.num == d) (fun m => { m with ctr := ctr + 1 }) s.tether.members,
    tether.ring := updWhere (·.num == d) (fun m => { m with ctr := ctr + 1 }) s.tether.ring }

/-- Does a manager carry a message between canopies (R452)? -/
def crosses (s : State) (m : TMsg) : Bool :=
  s.tether.active == 1 && (m.src / 16 != s.tether.canopy || m.dst / 16 != s.tether.canopy)

/-- A message that is relayed as it came. -/
def passOn (s : State) (m : TMsg) (kind : Nat) (enc : Bool) : State :=
  { s with tether.out := s.tether.out ++ [⟨m.src, m.dst, m.ctr, kind, enc, m.body⟩] }

/-- A message for another device goes on towards it unread; between canopies the manager decrypts it and encrypts it under its
own pair keys (R452). -/
def relay (s : State) (m : TMsg) (kind : Nat) : State :=
  if !crosses s m then passOn s m kind true
  else match unsealed s m kind with
    | some (d, b) => if m.ctr < d.2.ctr then authFail s m else sendAs (noteCtr s d.1 m.ctr) m.src m.dst kind b
    | none => authFail s m

/-- Is a sender one with which this device is paired? -/
def knownSender (s : State) (m : TMsg) : Bool := (pairedWith s).any (·.1 == m.src)

/-- Is the device up, tethered, and the link carrying messages? -/
def tetherUp (s : State) (l : Nat) : Bool :=
  s.up && !s.solo && !s.faults.safe && !s.stopped && decide (l < 8)
    && ((s.link l).state == .paired || (s.link l).state == .discovery)

/-- An encrypted message of a TYPE: relayed, refused, or opened and, with its CTR noted, taken where the row is for it; `sel` and
`f` see its plaintext. -/
def take (s : State) (m : TMsg) (kind : Nat) (sel : TMsg → Bool) (f : TMsg → State → State) : State :=
  if !tetherUp s m.link || !s.joined then s
  else if m.dst != s.selfId then relay s m kind
  else match unsealed s m kind with
    | none => if knownSender s m then authFail s m else s
    | some (d, b) =>
      if m.ctr < d.2.ctr then authFail s m
      else if sel { m with body := b } then
        f { m with body := b } { noteCtr s d.1 m.ctr with stw.events := s.stw.events ||| 16 }
      else s

/-- Is a HEALTH body of a SUB? -/
def isSub (m : TMsg) (k : Nat) : Bool := decide (0 < m.body.length) && byteAt m.body 0 == k

/-- Does a message come from the manager of this canopy? -/
def fromManager (s : State) (m : TMsg) : Bool := m.src == s.idOf s.tether.manager

/-! ### Discovery (R451) -/

/-- The pair secret of 72 bytes. -/
def pairSecret (kem dh charter join : Bytes) : Bytes := kmacOf 2 (kem ++ dh) (sha3 (charter ++ join)) dzpair 72

/-- A check of discovery has failed: the link stays in DISCOVERY, with a CANOPY_REFUSED record. -/
def refuseLink (s : State) (m : TMsg) : State :=
  tetherRecord (s.updLink m.link fun k => { k with refused := true, tried := now s }) 0x0505 m.src m.link

/-- The digest that a charter gives for the keys of a device of this canopy or of a peer. -/
def digestOf (b : Bytes) (id : Nat) (link : Nat) : Bytes :=
  if id / 16 = chCanopy b then (((chMembers b).find? (·.num == id % 16)).map (·.digest)).getD []
  else match (chPeers b).find? (·.canopy == id / 16) with
    | some p => if link = 6 ∨ link = 7 then p.standby else p.manager
    | none => []

/-- The JOIN that answers a CHARTER of charter `b`, with the pair secret it makes. -/
def joinReply (s : State) (m : TMsg) (b : Bytes) : State × Bytes × Bytes :=
  let ek := sub m.body (1 + b.length + 2689) (pkLen 0x01 3)
  let pk := sub m.body (1 + b.length + 2689 + pkLen 0x01 3) 56
  let (r, s) := takeFree s 88
  let ct := stdBytes .encapsCt (ap 0x01 3) [ek, r.take 32] (ctLen 0x01 3)
  let body := leBytes 1 1 ++ ct ++ stdBytes .pubOfPriv (ap 0x14 2) [r.drop 32] 56 ++ attestPublic s
  let (s, sig) := attestSign s dzpair body
  let body := body ++ sig
  (s, body, pairSecret (stdBytes .encapsSs (ap 0x01 3) [ek, r.take 32] 32) (stdBytes .dhDerive (ap 0x14 2) [r.drop 32, pk] 56)
    m.body body)

/-- The entry of the device that sends a CHARTER: the manager's, or the standby's, which has taken over (R451, R469). -/
def offerer (m : TMsg) (b : Bytes) : Option ChMember :=
  (chMembers b).find? fun e => (e.role == 1 || e.role == 3) && m.src == chCanopy b * 16 + e.num

/-- A CHARTER of the own canopy, from its manager (R451 step 2): it comes down link 0, or from a standby that has taken over down
a depth-1 device's link 1 (R447). -/
def takeCharter (s : State) (m : TMsg) (b : Bytes) (split : Bool) : State :=
  let (s, fail) := charterVerdict s b split
  match (ownEntry s b).filter (·.role == s.pins.role), offerer m b with
  | some e, some mgr =>
    if !m.ok || fail.isSome || sha3 (sub m.body (1 + b.length) 2689) != mgr.digest
        || !(e.role == 3 || m.link == 0 || (m.link == 1 && mgr.role == 3)) then refuseLink s m else
    let s : State := if s.tether.joined && s.tether.charter == some b then s
      else { holdCharter s b e.num with tether.manager := mgr.num, tether.uplink := m.link }
    let (s, body, secret) := joinReply s m b
    let s := sendClear s s.selfId m.src body
    (s.updMember mgr.num fun x => { x with pair := secret, ctr := 0, ctrOut := 0 }).updLink m.link fun k =>
      { k with offer := m.body, refused := false }
  | _, _ => refuseLink s m

/-- A CHARTER of a neighbouring canopy, on a ring or shadow link (R471). -/
def takeRing (s : State) (m : TMsg) (own b : Bytes) : State :=
  if !m.ok || sha3 (sub m.body (1 + b.length) 2689) != digestOf own m.src 4 then refuseLink s m else
  let (s, body, secret) := joinReply s m b
  let s := sendClear s s.selfId m.src body
  let x : Member := { (default : Member) with num := m.src, joined := true, pair := secret, beat := now s }
  { s with tether.ring := x :: s.tether.ring.filter (·.num != m.src) }

/-- HEALTH_CHARTER (R451). -/
def execHealthCharter (x : TMsg × Bool) (s : State) : Host.Outcome State Fault Refusal :=
  .next (
    let (m, split) := x
    let b := sub m.body 1 (leAt m.body 17 4)
    if !tetherUp s m.link || (s.link m.link).state != .discovery || !isSub m 0 then s
    else match s.tether.charter with
      | some own => if chCanopy b != chCanopy own && (m.link == 4 || m.link == 5) then takeRing s m own b
          else if s.pins.role = 1 then s else takeCharter s m b split
      | none => if s.pins.role = 1 then s else takeCharter s m b split)

/-- The 72-byte key of two members: drawn once from the manager's DRBG (R451 step 4). -/
def pairKey (s : State) (a b : Nat) : State × Bytes :=
  match s.tether.pairKeys.find? fun k => k.1 == min a b && k.2.1 == max a b with
  | some k => (s, k.2.2)
  | none =>
    let (x, s) := takeFree s 72
    ({ s with tether.pairKeys := s.tether.pairKeys ++ [(min a b, max a b, x)] }, x)

/-- Members with which a member exchanges messages besides the manager (R451 step 4). -/
def partners (s : State) (d : Nat) : List Nat :=
  let me := (s.tether.members.find? (·.num == d)).getD default
  ((s.tether.members.filter fun m => m.num != d && m.num != s.tether.member && (s.tether.mode == 0 || m.num == me.parent
    || m.parent == d || m.role == 3 || me.role == 3))).map (·.num)

/-- The keys of several pairs, each after its member number. -/
def pairEntries (s : State) (d : Nat) : List Nat → State × Bytes
  | [] => (s, [])
  | p :: ps =>
    let (s, k) := pairKey s d p
    let (s, r) := pairEntries s d ps
    (s, leBytes 1 p ++ k ++ r)

/-- The members that have joined, as a mask. -/
def joinedMask (s : State) : Nat := ((s.tether.members.filter (·.joined)).map fun m => 2 ^ m.num).sum

/-- HEALTH/ADMIT: SUB, canopy tick, the mask of joined members, the number of keys and the keys (log entry 22). -/
def sendAdmit (s : State) (d : Nat) : State :=
  let ps := partners s d
  let (s, es) := pairEntries s d ps
  sendMsg s (s.idOf d) 6 (leBytes 1 2 ++ leBytes 6 (canopyTick s) ++ leBytes 2 (joinedMask s) ++ leBytes 1 ps.length ++ es)

/-- The manager admits a joiner, under pair keys drawn anew, tells the others, and in FUNNEL mode sends it the replicas (R451,
R461). -/
def admitPeer (s : State) (x : Member) (m : TMsg) (secret : Bytes) : State :=
  let s := { s with tether.pairKeys := s.tether.pairKeys.filter fun k => k.1 != x.num && k.2.1 != x.num }
  let s := s.updMember x.num fun x => { x with
    joined := true, lost := false, beat := now s, free := 0, ctr := 0, ctrOut := 0, pair := secret }
  let s := (s.tether.members.filter fun y => y.joined && y.num != s.tether.member).foldl (fun s y => sendAdmit s y.num) s
  let s := tetherRecord s 0x0504 m.src m.link
  let s := if peerOn s m.link == some m.src then pairLink s m.link else s
  if s.funnels then
    (s.store.keys.filter fun k => k.replicated && decide (k.index < 131072) && !k.doomed).foldl
      (fun s k => sendMsg s m.src 6 (keyBody 6 k)) s
  else s

/-- The manager's side of the pair secret, from what it offered on the link. -/
def managerSecret (k : TLink) (join : Bytes) : Bytes :=
  let dk := stdBytes .privOf (ap 0x01 3) [k.seed.take 64] (skLen 0x01 3)
  let n := ctLen 0x01 3
  pairSecret (stdBytes .decaps (ap 0x01 3) [dk, sub join 1 n] 32)
    (stdBytes .dhDerive (ap 0x14 2) [k.seed.drop 64, sub join (1 + n) 56] 56) k.offer join

/-- HEALTH_JOIN (R451 step 3). -/
def execHealthJoin (m : TMsg) (s : State) : Host.Outcome State Fault Refusal :=
  .next (
    if !tetherUp s m.link || !isSub m 1 || !s.joined then s
    else if m.dst != s.selfId then passOn s m 6 false
    else match s.tether.charter with
      | none => s
      | some b =>
        let k := s.link m.link
        if s.tether.active != 1 || k.offer.isEmpty then s
        else if !m.ok || sha3 (sub m.body (1 + ctLen 0x01 3 + 56) 2689) != digestOf b m.src m.link then refuseLink s m
        else match s.memberOf m.src with
          | some x => admitPeer s x m (managerSecret k m.body)
          | none =>
            let x : Member := { (default : Member) with
              num := m.src, joined := true, pair := managerSecret k m.body, beat := now s }
            let s := { s with tether.ring := x :: s.tether.ring.filter (·.num != m.src) }
            let s := sendMsg s m.src 6 (leBytes 1 2 ++ leBytes 6 (canopyTick s) ++ zeros 3)
            tetherRecord (s.updLink m.link fun k => { k with state := .paired, peer := m.src }) 0x0504 m.src m.link)

/-- The keys and standing that an ADMIT carries, entry by entry; under a new key CTR starts at 0 (R452). -/
def takeKeys (s : State) (b : Bytes) (mask n : Nat) : State :=
  let s : State := { s with tether.members := s.tether.members.map fun m =>
    { m with joined := bit mask m.num, lost := m.lost && !bit mask m.num } }
  (List.range n).foldl (fun s i => s.updMember (byteAt b (10 + 73 * i)) fun m =>
    let k := sub b (11 + 73 * i) 72
    if m.pair == k then m else { m with pair := k, ctr := 0, ctrOut := 0 }) s

/-- What an ADMIT of the manager's does (R451 step 4): JOINED from here on, with the canopy tick; a depth-1 member then serves
its children. -/
def takeAdmit (s : State) (m : TMsg) : State :=
  let new := !s.tether.joined
  let s := takeKeys s m.body (leAt m.body 7 2) (byteAt m.body 9)
  let s := noteCtr s m.src m.ctr
  if !new then pairLink s m.link else
  let s := { s with
    tether.joined := true, tether.orphan := false, tether.managerBeat := now s, tether.active := s.pins.role,
    tether.off := (leAt m.body 1 6 + 2 ^ 48 - tickCount s) % 2 ^ 48 }
  discoverAll (tetherRecord (pairLink s m.link) 0x0504 s.selfId m.link)

/-- An ADMIT for another device goes on, and a depth-1 member's link to the child it relays for is PAIRED. -/
def passAdmit (s : State) (m : TMsg) : State :=
  ((List.range 8).filter fun l => (s.link l).state == .discovery && childOn s l == some m.dst).foldl pairLink (passOn s m 6 true)

/-- HEALTH_ADMIT (R451 step 4): under the pair key, from the manager or over the ring from a manager of another canopy. -/
def execHealthAdmit (m : TMsg) (s : State) : Host.Outcome State Fault Refusal :=
  .next (
    if !tetherUp s m.link then s
    else if m.dst != s.selfId then passAdmit s m
    else
      let x := peerEntry s m.src
      match openFrom s m 6 (m.src, x) with
      | none => if fromManager s m && s.tether.charter.isSome then authFail s m else s
      | some (_, b) =>
        let m := { m with body := b }
        if !isSub m 2 then s
        else if m.src / 16 != s.tether.canopy then
          (if s.tether.ring.any (·.num == m.src) then s.updLink m.link fun k => { k with state := .paired, peer := m.src } else s)
        else if s.tether.charter.isNone || !fromManager s m then s
        else if m.ctr < x.ctr then authFail s m else takeAdmit s m)

/-! ### The tick, heartbeats, loss (R458, R459, R467 to R469) -/

/-- TETHER_TICK (R458): the measured error in ns; beyond ±100 ns the member is an orphan. -/
def execTetherTick (m : TMsg) (err : Int) (s : State) : Host.Outcome State Fault Refusal :=
  .next (take s m 4 (fun m => decide (8 ≤ m.body.length)) fun m s =>
    let ring := m.src / 16 != s.tether.canopy && s.tether.active == 1
    if !ring && !fromManager s m then s
    else if 100 < err ∨ err < -100 then (if ring then s else orphan s)
    else { s with
      tether.syncs := satInc 65535 s.tether.syncs, tether.syncErr := err,
      tether.off := (leAt m.body 0 6 + 2 ^ 48 - tickCount s) % 2 ^ 48 })

/-- TETHER_FENCE (R468): the sender is lost at once, and the FENCE goes on to the other links. -/
def execTetherFence (m : TMsg) (s : State) : Host.Outcome State Fault Refusal :=
  .next (take s m 5 (fun _ => true) fun m s =>
    let others := ((List.range 8).filter fun l => l != m.link && (s.link l).state == .paired).map fun l => (s.link l).peer
    markLost (others.foldl (fun s d => sendAs s m.src d 5 m.body) s) m.src m.link)

/-- HEALTH_BEAT (R459, R460, R469): one of the manager's discards a TAKEOVER that has not been accepted, and records it. -/
def execHealthBeat (m : TMsg) (s : State) : Host.Outcome State Fault Refusal :=
  .next (take s m 6 (isSub · 3) fun m s =>
    let s := if m.src / 16 = s.tether.canopy then
        s.updMember (m.src % 16) fun x => { x with beat := now s, free := leAt m.body 5 2 } else s
    if !fromManager s m then s else
    let s := { s with tether.managerBeat := now s }
    if s.tether.takeover then tetherRecord { s with tether.takeover := false } 0x0503 m.src m.link else s)

/-- HEALTH_TAKEOVER (R469): held until this member treats the manager as lost, and passed on to its children; in the tick of a
BEAT of the manager it is discarded and recorded (Table 17.9). -/
def execHealthTakeover (m : TMsg) (s : State) : Host.Outcome State Fault Refusal :=
  .next (take s m 6 (isSub · 4) fun m s =>
    if s.tether.managerBeat = now s then tetherRecord s 0x0503 m.src m.link else
    let kids := (s.tether.members.filter fun x => x.parent == s.tether.member && x.joined && !x.lost).map fun x => s.idOf x.num
    let s := kids.foldl (fun s d => sendMsg s d 6 (leBytes 1 4)) s
    if (s.memberOf (s.idOf s.tether.manager)).any (·.lost) then acceptTakeover { s with tether.takeover := true }
    else { s with tether.takeover := true })

/-- HEALTH_LOST (R459, R466, R467). -/
def execHealthLost (m : TMsg) (s : State) : Host.Outcome State Fault Refusal :=
  .next (take s m 6 (isSub · 5) fun m s =>
    if !fromManager s m then s
    else if byteAt m.body 1 = s.selfId then orphan s
    else markLost s (byteAt m.body 1) m.link)

/-- HEALTH_DISSOLVE (R450); ignored while a takeover is pending (Table 17.9). -/
def execHealthDissolve (m : TMsg) (s : State) : Host.Outcome State Fault Refusal :=
  .next (take s m 6 (isSub · 8) fun m s => if !fromManager s m || s.tether.takeover then s else dissolve s)

/-- HEARTBEAT_DUE (R459): at canopy boundaries that are multiples of 16; a BEAT carries HEALTH_SUMMARY and the free job
slots. -/
def execHeartbeatDue (s : State) : Host.Outcome State Fault Refusal :=
  .next (if !s.service || !s.joined || canopyTick s % 16 != 0 then s else
    let free := ((List.range 16).map (freeSlots s)).sum
    let body := leBytes 1 3 ++ leBytes 4 (healthSummary s.faults.safe (s.faults.history.headD default).map) ++ leBytes 2 free
    let ds := if s.tether.active = 1 then s.peersJoined else [s.idOf s.tether.manager]
    ds.foldl (fun s d => sendMsg s d 6 body) s)

/-- TICK_SYNC_DUE (R458, R471): the manager sends TICK at canopy boundaries that are multiples of 1,024; that of the lowest
canopy also round the ring. -/
def execTickSyncDue (s : State) : Host.Outcome State Fault Refusal :=
  .next (if !s.service || !s.joined || s.tether.active != 1 || canopyTick s % 1024 != 0 then s else
    let ring := if s.tether.peers.all (s.tether.canopy < ·) then s.tether.ring.map (·.num) else []
    (s.peersJoined ++ ring).foldl (fun s d => sendMsg s d 4 (leBytes 6 (canopyTick s) ++ zeros 2)) s)

/-- MEMBER_LOST_TIMEOUT (R459): 64 t since the last BEAT of a member. -/
def execMemberLostTimeout (d : Nat) (s : State) : Host.Outcome State Fault Refusal :=
  .next (match s.memberOf (s.idOf d) with
    | some x => if s.service && s.joined && s.tether.active == 1 && x.joined && d != s.tether.member
        && decide (x.beat + 64 ≤ now s) then declareLost s d else s
    | none => s)

/-- MANAGER_LOST_TIMEOUT (R459, R469): 64 t since the last BEAT of the manager, 48 t for the standby. -/
def execManagerLostTimeout (s : State) : Host.Outcome State Fault Refusal :=
  .next (if s.service && s.joined && s.tether.active != 1
      && decide (s.tether.managerBeat + (if s.tether.active = 3 then 48 else 64) ≤ now s) then
    markLost s (s.idOf s.tether.manager) s.tether.uplink else s)

end Sys2Proof.Machine
end

