-- ==== Sys2Proof/Machine/TetherWork.lean ====
section
/-! DEFINITION. Work across the tether (R286 to R288, R460 to R465): jobs sent and received, results, dispositions, contexts
that move, key replicas. -/

namespace Sys2Proof.Machine

/-! ### JOB (R460, R464, Table 17.8) -/

/-- Instance number under which a job of another device runs here: past every local one, told apart by SRC. -/
def guestInst (src inst : Nat) : Nat := 1024 * (src + 1) + inst

/-- The body of JOB for a job that this device sends at the present canopy boundary. -/
def jobBody (s : State) (j : Job) (input : Bytes) : Bytes :=
  let tag := ((s.inst? j.inst).bind (·.tenant)).getD 0
  leBytes 4 j.id ++ leBytes 2 j.inst ++ leBytes 2 tag ++ leBytes 6 (canopyTick s) ++ leBytes 1 (b2n !j.confirmed)
    ++ leBytes 1 j.ses.length ++ j.ses.flatMap (fit 64) ++ input

/-- Has the tether pool room for a job's envelope: 256 envelopes, 1 MiB (R286)? -/
def tetherPoolFits (s : State) (j : Job) : Bool :=
  let u := poolUse s 16
  decide (u.1 < 256) && decide (u.2 + envelopeUnits j ≤ 1024)

/-- May a job that belongs to another member be sent now: confirmed, or running ahead with room in the tether pool (R274,
R286)? -/
def maySend (s : State) (j : Job) : Bool :=
  j.member.isSome && !j.sent && j.result.isNone && j.endedAt.isNone && j.waitsOn.isNone && j.dep != .pending
    && (j.confirmed || (wouldRunAhead s j && decide (depth s j ≤ 7) && tetherPoolFits s j))

/-- Send a job: its start boundary is the one at which JOB goes out (R460, R464); a confirmed job whose input cannot be read
ends. -/
def sendJob (s : State) (id : Nat) : State :=
  match s.job? id with
  | none => s
  | some j =>
    if !maySend s j then s else
    match j.member, jobInput s j with
    | some d, (s, some inp) =>
      let s := sendMsg s d 1 (jobBody s j inp)
      let s := if j.confirmed then s else specInc s 0 1
      s.updJob id fun x => { x with
        sent := true, start := some (x.start.getD (now s)), ranAhead := x.ranAhead || !x.confirmed,
        envelope := if x.confirmed then x.envelope else some (envelopeUnits x) }
    | _, (s, _) => if j.confirmed then finalCommit s id (errR 0x0103 0x01) else specInc s 6 1

/-- Step 5: every job that is due to go out, in order of dispatch. -/
def sendJobs (s : State) : State := ((s.work.jobs.filter (maySend s)).map (·.id)).foldl sendJob s

/-- The job a JOB message describes. -/
def guestJob (src : Nat) (b : Bytes) : Job :=
  let n := byteAt b 15
  let ses := (List.range n).map fun i => sub b (16 + 64 * i) 64
  let j := jobOfChain (guestInst src (leAt b 4 2)) 0 0 ses
  let up (h : Nat) : Nat := if bits h 23 0 < 131072 then h + 131072 else h
  { j with
    origin := some (src, leAt b 0 4), input := some (b.drop (16 + 64 * n)), keyH := up j.keyH,
    params := if j.opcode = 0x41 then patch j.params 0 (leBytes 4 (up (leAt j.params 0 4))) else j.params }

/-- The instance entry of a guest: bound to the tenant tag of the message, and without any quota. -/
def withGuest (s : State) (inst tag : Nat) : State :=
  let x : Inst := { (default : Inst) with id := inst, state := .active, tenant := if tag = 0 then none else some tag }
  { s with insts := s.insts.filter (·.id != inst) ++ [x] }

/-- Does a JOB have to wait: a disposition of an earlier job on its context is due, or no job slot is free (R288)? -/
def guestWaits (s : State) (j : Job) : Bool :=
  ((planOf s j none false).useCtx && dispositionDue s j.ctxH)
    || !((List.range 16).any fun g => decide (0 < freeSlots s g))

/-- A JOB enters the device: forwarded to the holder of its context when that is another member, else checked on identical
terms and placed (R239, R464); an unconfirmed one depends on a job number that no job here has (R286). -/
def takeJob (s : State) (src : Nat) (b : Bytes) : State :=
  let j := guestJob src b
  let s := withGuest s j.inst (leAt b 6 2)
  match (if (planOf s j none false).useCtx then remoteHolder s j.ctxH else none) with
  | some d =>
    { sendAs s src d 1 b with
             tether.passed := s.tether.passed ++ [(src, leAt b 0 4, d)] }
  | none =>
    if guestWaits s j then { s with tether.held := s.tether.held ++ [(src, b)] } else
    let n := s.work.nextJob
    let j := { j with id := n + 1, dispatched := now s, dep := if byteAt b 14 = 0 then .confirmed else .on n }
    let j := checkJob s j .none false
    let g := placeGrove s j.namedKey
    let j := if j.result.isSome then { j with grove := 16, engine := 272 }
      else { j with grove := g, engine := placeEngine s g }
    fetchKeys { s with work.jobs := s.work.jobs ++ [j], work.nextJob := n + 2 } j

/-- TETHER_JOB (R286, R464). -/
def execTetherJob (m : TMsg) (s : State) : Host.Outcome State Fault Refusal :=
  .next (take s m 1 (fun m => decide (16 ≤ m.body.length) && decide (byteAt m.body 15 ≤ 8) && decide (1 ≤ byteAt m.body 15)) fun m s =>
    if s.service then takeJob s m.src m.body else s)

/-- JOBs that waited are taken once they may be (R288). -/
def takeHeld (s : State) : State :=
  let hs := s.tether.held
  hs.foldl (fun s h => takeJob s h.1 h.2) { s with tether.held := [] }

/-! ### RESULT (R287, R460, R464) -/

/-- A job of another member that has its result sends RESULT; a confirmed one is then done here. -/
def sendResult (s : State) (j : Job) : State :=
  match j.origin, j.result with
  | some (src, id), some r =>
    if j.sent then s else
    let s := sendMsg s src 2 (leBytes 4 id ++ leBytes 2 r.status ++ leBytes 1 r.detail ++ leBytes 1 (b2n j.failover)
      ++ leBytes 4 r.len ++ r.out)
    if j.confirmed then
      let s := dropExec (zeroiseEnvelope s j (now s)) j.id
      reapKeys { s with work.jobs := s.work.jobs.filter (·.id != j.id) }
    else s.updJob j.id fun x => { x with sent := true }
  | _, _ => s

/-- Every RESULT that stands. -/
def sendResults (s : State) : State := s.work.jobs.foldl sendResult s

/-- The context a job has filled where it ran is remembered for an unbound owner: its handle ends the output (R118, R126,
R463). -/
def noteAbroad (s : State) (j : Job) (r : JobResult) : State :=
  let h := leAt r.out (r.out.length - 4) 4
  if j.outToCtx && r.status == 0 && ((s.inst? j.inst).bind (·.tenant)).isNone && !(s.tether.abroad.any (·.1 == h)) then
    { s with tether.abroad := s.tether.abroad ++ [(h, j.inst)] }
  else s

/-- TETHER_RESULT (R460, R464, R470): the boundary after its arrival stands for the one after the final commit; a RESULT for a
job that has ended is discarded. -/
def execTetherResult (m : TMsg) (s : State) : Host.Outcome State Fault Refusal :=
  .next (take s m 2 (fun m => decide (12 ≤ m.body.length)) fun m s =>
    match s.job? (leAt m.body 0 4) with
    | none => s
    | some j =>
      if j.member.isNone || !j.sent || j.result.isSome || j.endedAt.isSome then s else
      let r : JobResult := { status := leAt m.body 4 2, detail := byteAt m.body 6, len := leAt m.body 8 4,
                             out := m.body.drop 12, effects := [] }
      let s := noteAbroad s j r
      s.updJob j.id fun x => { x with
        result := some r, resultHere := true, commitTick := some (now s), failover := x.failover || bit (byteAt m.body 7) 0 })

/-! ### CANCEL (R287, Table 17.8) -/

/-- The entries of a CANCEL: JOB_ID and DISPOSITION. -/
def cancelEntries (b : Bytes) : List (Nat × Nat) :=
  (List.range (leAt b 0 2)).map fun i => (leAt b (4 + 8 * i) 4, byteAt b (8 + 8 * i))

/-- One entry: applied at step 3 of the next boundary, or passed on to the holder that runs the job. -/
def takeCancel (s : State) (src : Nat) (e : Nat × Nat) : State :=
  match s.work.jobs.find? fun j => j.origin == some (src, e.1) with
  | some j => { s with adm.aborts := s.adm.aborts ++ [.disposition j.id (e.2 == 0)] }
  | none => match s.tether.passed.find? fun x => x.1 == src && x.2.1 == e.1 with
    | some x =>
      { sendAs s src x.2.2 7 (leBytes 2 1 ++ zeros 2 ++ leBytes 4 e.1 ++ leBytes 1 e.2 ++ zeros 3) with
        tether.passed := s.tether.passed.filter (· != x) }
    | none => { s with tether.held := s.tether.held.filter fun h => !(h.1 == src && leAt h.2 0 4 == e.1 && e.2 == 1) }

/-- A CANCEL: the entries of one disposition. -/
def cancelRow (s : State) (m : TMsg) (k : Nat) : State :=
  take s m 7 (fun m => decide (4 ≤ m.body.length) && decide (leAt m.body 0 2 ≤ 123)) fun m s =>
    ((cancelEntries m.body).filter (·.2 == k)).foldl (fun s e => takeCancel s m.src e) s

/-- CANCEL_CONFIRM (R287). -/
def execCancelConfirm (m : TMsg) (s : State) : Host.Outcome State Fault Refusal := .next (cancelRow s m 0)

/-- CANCEL_WITHDRAW (R287). -/
def execCancelWithdraw (m : TMsg) (s : State) : Host.Outcome State Fault Refusal := .next (cancelRow s m 1)

/-- A disposition at step 3 (R287): CONFIRM commits the envelope's changes, or lets the job go on as confirmed work; WITHDRAW
ends it. -/
def applyDisposition (s : State) (id : Nat) (confirm : Bool) : State :=
  match s.job? id with
  | none => s
  | some j =>
    if !confirm then discardJob s j else
    let s := s.updJob id fun x => { x with dep := .confirmed, envelope := none }
    if j.result.isNone then s else
    let s := dropExec (commitNow s id) id
    if j.sent then reapKeys { s with work.jobs := s.work.jobs.filter (·.id != id) } else s

/-! ### Contexts that move (R464, R465) -/

/-- A slot read back from its description and the bytes that follow; the slot and the bytes it took. -/
def slotOf (d b : Bytes) : Slot × Nat :=
  let n := byteAt d 3
  match byteAt d 0 with
  | 1 => (.secret (b.take n), 32 * ceilDiv n 32)
  | 2 => (.mac (byteAt d 1) (byteAt d 2) (b.take n), 32 * ceilDiv n 32)
  | 3 => (.aead (byteAt d 1) (byteAt d 2) (b.take n) (sub b 32 12) (leAt b 44 8), 64)
  | 4 =>
    let m := if byteAt d 2 = 0x10 then 96 else 120
    (.ephemeral (byteAt d 2) (b.take n) (sub b n (m - n)), 32 * ceilDiv m 32)
  | _ => (.empty, 0)

/-- The slots of a context read back. -/
def slotsOf : List Bytes → Bytes → List Slot
  | [], _ => []
  | d :: ds, b => (slotOf d b).1 :: slotsOf ds (b.drop (slotOf d b).2)

/-- OWNER of a context in a message: the instance or the tag in bits 15:0, bit 31 for a tag (log entry 23). -/
def ctxOwnerWord (c : Ctx) : Nat :=
  match c.tenant with
  | some t => t % 65536 + 2 ^ 31
  | none => c.owner % 65536

/-- A context as TRANSFER carries it. -/
def ctxOfBody (b : Bytes) : Ctx :=
  let h := leAt b 4 4
  let o := leAt b 8 4
  let x := sub b 12 256
  { index := h % 2 ^ 18, gen := bits h 25 18, canopy := bits h 31 30, home := bits h 29 26,
    owner := if bit o 31 then 0xFFFF else o % 65536, tenant := if bit o 31 then some (o % 65536) else none,
    slots := slotsOf ((List.range 8).map fun i => sub x (4 * i) 4) (x.drop 32), moving := false, dest := 0,
    quarantined := false }

/-- The body of CTX_MOVE without a context. -/
def moveBody (k h owner : Nat) : Bytes := leBytes 1 k ++ zeros 3 ++ leBytes 4 h ++ leBytes 4 owner

/-- A job that waits for a context ends CONTEXT_BUSY (R465). -/
def refusePulling (s : State) (h : Nat) : State :=
  { s with
    work.jobs := updWhere (fun j => j.pulling && j.ctxH == h && j.result.isNone)
      (fun j => { j.endAt (fl 0x0204 0x80) (now s) [] with pulling := false }) s.work.jobs }

/-- A request to move a context that is held here: sent with TRANSFER, and refused to every job meanwhile; one that a job
holds, that moves already or that is not here is not given (R251, R465).  The home passes it to the holder. -/
def giveContext (s : State) (src h owner : Nat) : State :=
  match remoteHolder s h with
  | some d =>
    { sendAs s src d 3 (moveBody 0 h owner) with
             tether.moves := s.tether.moves ++ [(h, src)] }
  | none => match ctxAt s h with
    | none => sendMsg s src 3 (moveBody 2 h owner)
    | some c =>
      if c.moving || s.work.jobs.any (fun j => (allSlots h).any j.holds.contains) then sendMsg s src 3 (moveBody 2 h owner)
      else sendMsg (s.updCtx h fun c => { c with moving := true, dest := src }) src 3
        (moveBody 0 h (ctxOwnerWord c) ++ ctxBytes c)

/-- A context of a removed instance no longer counts as held elsewhere, and is destroyed if it is here (R118). -/
def dropFar (s : State) (h : Nat) : State :=
  dropCtx { s with tether.abroad := s.tether.abroad.filter (·.1 != h) } h

/-- Is a context that has come one of an instance removed here? -/
def ownerGone (s : State) (c : Ctx) : Bool :=
  c.tenant.isNone && (match s.tether.abroad.find? (·.1 == c.handle) with
    | some a => instState s a.2 == .absent
    | none => c.isHome s && instState s c.owner == .absent)

/-- A context arrives (R465): installed and accepted, or refused when 262,144 are held. -/
def installContext (s : State) (src : Nat) (b : Bytes) : State :=
  let c := ctxOfBody b
  if 262144 ≤ s.store.ctxs.length then
    refusePulling (sendMsg s src 3 (moveBody 2 c.handle (leAt b 8 4))) c.handle
  else
    let c := match s.tether.away.find? (·.1 == c.index) with
      | some a => if c.isHome s then { c with owner := a.2.2 } else c
      | none => c
    let s := { s with
      store.ctxs := s.store.ctxs.filter (·.handle != c.handle) ++ [c],
      tether.away := if c.isHome s then s.tether.away.filter (·.1 != c.index) else s.tether.away }
    let s := sendMsg s src 3 (moveBody 1 c.handle (leAt b 8 4))
    recheckPulling (if ownerGone s c then dropFar s c.handle else s)

/-- CTX_MOVE_TRANSFER (R465). -/
def execCtxMoveTransfer (m : TMsg) (s : State) : Host.Outcome State Fault Refusal :=
  .next (take s m 3 (fun m => decide (12 ≤ m.body.length) && byteAt m.body 0 == 0) fun m s =>
    if m.body.length < 268 then giveContext s m.src (leAt m.body 4 4) (leAt m.body 8 4) else installContext s m.src m.body)

/-- The home learns who holds a context now. -/
def noteHolder (s : State) (h d : Nat) : State :=
  let i := h % 2 ^ 18
  let owner := match ctxAt s h with
    | some c => c.owner
    | none => ((s.tether.away.find? (·.1 == i)).map (·.2.2)).getD 0
  { s with tether.away := (i, d % 16, owner) :: s.tether.away.filter (·.1 != i),
           tether.moves := s.tether.moves.filter (·.1 != h) }

/-- CTX_MOVE_ACCEPT (R465): the holder erases its copy and tells the home, whose record then names the new holder. -/
def execCtxMoveAccept (m : TMsg) (s : State) : Host.Outcome State Fault Refusal :=
  .next (take s m 3 (fun m => decide (12 ≤ m.body.length) && byteAt m.body 0 == 1) fun m s =>
    let h := leAt m.body 4 4
    match ctxAt s h with
    | some c =>
      if !c.moving || c.dest != m.src then s else
      let t := if c.isHome s then noteHolder s h m.src
        else sendMsg s (c.canopy * 16 + c.home) 3 (moveBody 1 h (ctxOwnerWord c))
      { t with store.ctxs := t.store.ctxs.filter (·.handle != h) }
    | none => match s.tether.moves.find? (·.1 == h) with
      | some x => noteHolder s h x.2
      | none => s)

/-- CTX_MOVE_REFUSE (R465): the holder keeps its copy; the waiting job ends with CONTEXT_BUSY.  A removed instance's context
that is refused no longer stands there. -/
def execCtxMoveRefuse (m : TMsg) (s : State) : Host.Outcome State Fault Refusal :=
  .next (take s m 3 (fun m => decide (12 ≤ m.body.length) && byteAt m.body 0 == 2) fun m s =>
    let h := leAt m.body 4 4
    let s := { s with
      tether.abroad := s.tether.abroad.filter fun a => !(a.1 == h && instState s a.2 == InstState.absent),
      tether.away := s.tether.away.filter fun a => !(a.1 == h % 2 ^ 18 && a.2.1 == m.src % 16 && instState s a.2.2 == InstState.absent) }
    refusePulling (s.updCtx h fun c => if c.moving && c.dest == m.src then { c with moving := false } else c) h)

/-! ### Key replicas (R461) -/

/-- The replica that a KEY_ADD carries: its index stands above every local one, its owner is the guest instance. -/
def replicaOf (src : Nat) (b : Bytes) : KeyObj :=
  let h := leAt b 1 4
  let n := leAt b 17 4
  let m := leAt b (21 + n) 4
  { (default : KeyObj) with
    index := h % 2 ^ 24 + 131072, gen := h / 2 ^ 24, owner := guestInst src (leAt b 5 2), alg := byteAt b 7, pset := byteAt b 8,
    policy := leAt b 9 8 - b2n (bit (leAt b 9 8) pPersist) * 2 ^ pPersist, pub := if n = 0 then none else some (sub b 21 n),
    priv := if m = 0 then none else some (sub b (25 + n) m), rejection := b.drop (25 + n + m) }

/-- HEALTH_KEY_ADD (R461). -/
def execHealthKeyAdd (m : TMsg) (s : State) : Host.Outcome State Fault Refusal :=
  .next (take s m 6 (fun m => isSub m 6 && decide (25 ≤ m.body.length)) fun m s =>
    if !fromManager s m || s.tether.mode != 0 then s else
    let k := replicaOf m.src m.body
    { s with store.keys := s.store.keys.filter (·.index != k.index) ++ [k] })

/-- HEALTH_KEY_DROP (R461): a member drops its replica and answers; the manager takes the answer. -/
def execHealthKeyDrop (m : TMsg) (s : State) : Host.Outcome State Fault Refusal :=
  .next (take s m 6 (fun m => isSub m 7 && decide (7 ≤ m.body.length)) fun m s =>
    let h := leAt m.body 1 4
    if s.tether.active = 1 then answered s m.src fun j => (jobKey s j).handle == h
    else if fromManager s m then
      let i := h % 2 ^ 24 + 131072
      let s := if keyInUse s i then s.updKey i fun k => { k with doomed := true } else dropKey s i
      sendMsg s m.src 6 m.body
    else s)

end Sys2Proof.Machine
end

