-- ==== Sys2Proof/Machine/Links.lean ====
section
/-! DEFINITION. The tether links (R453 to R457): training, lanes, flits. -/

namespace Sys2Proof.Machine

/-! ### Training and lanes (R453) -/

/-- Links of a port. -/
def portLinks (s : State) (p : Nat) : List TLink := [s.link (2 * p), s.link (2 * p + 1)]

/-- Width of a tether port for the health map: its widest link. -/
def tetherWidth (s : State) (p : Nat) : Nat := ((portLinks s p).map (·.width)).foldl max 0

/-- The widest a link can be: two lanes on a split port. -/
def widest (s : State) (l : Nat) : Nat := if (s.link l).split then 2 else 4

/-- TETHER_LINK_TRAINED (R453): DISCOVERY, or PAIRED again where only a retrain came between, the flits in flight then being
replayed (R455); discovery can begin. -/
def execTetherLinkTrained (l width : Nat) (s : State) : Host.Outcome State Fault Refusal :=
  .next (
    let k := s.link l
    let other := s.link (l + 1 - 2 * (l % 2))
    let split := k.split || l % 2 == 1 || other.state == .paired || other.state == .discovery
    if !s.up || s.solo || 8 ≤ l || !(k.state == .training || k.state == .lost || k.state == .down)
        || !([1, 2, 4].contains width) || (split && width == 4) then s else
    let s := (s.updLink l fun k => { k with
      state := if k.was then .paired else .discovery, was := false, width := width, split := split, nakRow := 0, nak := false,
      rxSeq := if k.was then k.rxSeq else 0, parts := if k.was then k.parts else [] }).updLink (l + 1 - 2 * (l % 2)) fun k => { k with split := split }
    let s := s.updateUnit (unitId 10 (l / 2)) (if width < widest s l then .degraded else .serving) (tetherWidth s (l / 2))
    discover s l)

/-- The next lower width. -/
def narrower (w : Nat) : Nat := if w = 4 then 2 else if w = 2 then 1 else 0

/-- A link is lost: LOST, and TETHER_PORT once no link of its port is up. -/
def loseLink (s : State) (l : Nat) : State :=
  let s := s.updLink l fun k => { k with state := .lost, width := 0, was := false, parts := [] }
  if (portLinks s (l / 2)).all (·.width == 0) then
    (raiseSrc s 0x1A (l / 2) 0).updateUnit (unitId 10 (l / 2)) .withdrawn 0
  else s.updateUnit (unitId 10 (l / 2)) .degraded (tetherWidth s (l / 2))

/-- TETHER_LANE_FAIL (R453): TETHER_LANE is raised; the link goes on at the next lower width, or is lost from x1. -/
def execTetherLaneFail (l lane : Nat) (s : State) : Host.Outcome State Fault Refusal :=
  .next (
    let k := s.link l
    if !s.up || s.solo || 8 ≤ l || 4 ≤ lane || k.width = 0 then s else
    let s := raiseSrc s 0x19 (4 * (l / 2) + lane) 0
    if k.width = 1 then loseLink s l else
    let s := s.updLink l fun k => { k with
      width := narrower k.width, retrains := satInc 255 k.retrains, nakRow := 0, nak := false }
    s.updateUnit (unitId 10 (l / 2)) .degraded (tetherWidth s (l / 2)))

/-- A link retrains: it carries nothing until it has trained. -/
def retrainLink (s : State) (l : Nat) : State :=
  let k := s.link l
  if k.state == .down || k.state == .training then s else
  s.updLink l fun k => { k with
    state := .training, was := k.state == .paired, retrains := satInc 255 k.retrains, nakRow := 0 }

/-- TETHER_RETRAIN (R453, R472): a write of TETHER_CTRL by the primary AF. -/
def execTetherRetrain (p value : Nat) (s : State) : Host.Outcome State Fault Refusal :=
  .next (if !s.up || s.solo || p != s.adm.primary || !(s.port p).dlUp then s else
    ((List.range 4).filter (bit value)).foldl (fun s q => retrainLink (retrainLink s (2 * q)) (2 * q + 1)) s)

/-- DISCOVERY_RETRY (R451): the manager tries a link again 1,048,576 t after the last attempt. -/
def execDiscoveryRetry (l : Nat) (s : State) : Host.Outcome State Fault Refusal :=
  .next (if !s.service || s.tether.active != 1 || 8 ≤ l || now s < (s.link l).tried + 1048576 then s else discover s l)

/-! ### Flits (R454 to R457) -/

/-- One bit of the CRC-32 with polynomial 0x04C1_1DB7, bits in reflected order as IEEE 802.3 has them. -/
def crc32Bit (c : BitVec 32) : BitVec 32 := if c.getLsbD 0 then (c >>> 1) ^^^ 0xEDB88320#32 else c >>> 1

/-- The CRC-32 of IEEE 802.3. -/
def crc32 (b : Bytes) : BitVec 32 :=
  ~~~(b.foldl (fun c x => Nat.repeat crc32Bit 8 (c ^^^ x.zeroExtend 32)) 0xFFFFFFFF#32)

/-- Is a flit whole: its CRC, its LEN, the bits that are zero? -/
def flitOk (f : Bytes) : Bool :=
  f.length == 256 && leAt f 252 4 == (crc32 (f.take 252)).toNat && decide (byteAt f 3 ≤ 248) && decide (byteAt f 2 < 64)
    && allZero f (4 + byteAt f 3) (248 - byteAt f 3)

/-- A NAK: counted; the eighth in a row retrains the link. -/
def sendNak (s : State) (l : Nat) : State :=
  let k := s.link l
  let s := s.updLink l fun k => { k with nak := true, naks := satInc 255 k.naks, nakRow := k.nakRow + 1 }
  if 8 ≤ k.nakRow + 1 then retrainLink s l else s

/-- Bytes of the message that a virtual channel is receiving. -/
def partOf (k : TLink) (vc : Nat) : Bytes := ((k.parts.find? (·.vc == vc)).map (·.bytes)).getD []

/-- A length mismatch (R457): counted; NAK, and after a retrain the message is dropped and the link treated as having failed
authentication. -/
def badLengthFlit (s : State) (l vc : Nat) : State :=
  let k := s.link l
  let s := { s with tether.lengthErr := satInc 65535 s.tether.lengthErr }
  if k.badLength && k.nakRow = 0 then
    let s := s.updLink l fun k => { k with badLength := false, parts := k.parts.filter (·.vc != vc) }
    markLost (tetherRecord { s with tether.authErr := satInc 65535 s.tether.authErr } 0x0501 k.peer l) k.peer l
  else
    let s := sendNak s l
    if (s.link l).state == .training then s.updLink l fun k => { k with badLength := true } else s

/-- A data flit in sequence: its bytes join the message of its channel; a whole message goes to the inbox. -/
def takeFlit (s : State) (l : Nat) (f : Bytes) : State :=
  let k := s.link l
  let flags := byteAt f 2
  let vc := bits flags 5 5
  let b := (if bit flags 2 then [] else partOf k vc) ++ sub f 4 (byteAt f 3)
  let total := 16 + leAt b 4 4 + 16
  let eom := bit flags 3
  if (16 ≤ b.length ∧ (total < b.length ∨ (eom ∧ b.length < total))) ∨ (b.length < 16 ∧ eom)
      ∨ (16 ≤ b.length ∧ 131072 < leAt b 4 4) ∨ (vc = 0 ∧ 1024 < b.length) then badLengthFlit s l vc
  else
    let s := s.updLink l fun k => { k with
      rxSeq := (k.rxSeq + 1) % 256, nakRow := 0, nak := false, badLength := k.badLength && !eom,
      parts := (if eom then [] else [{ vc := vc, bytes := b }]) ++ k.parts.filter (·.vc != vc) }
    if eom then { s with tether.inbox := s.tether.inbox ++ [(l, b)] } else s

/-- FLIT_RECEIVE (R454, R455, R457): an intact flit with the expected SEQ is taken and acknowledged; any other is answered
with NAK; IDLE flits only acknowledge. -/
def execFlitReceive (l : Nat) (flit : Bytes) (s : State) : Host.Outcome State Fault Refusal :=
  .next (if !tetherUp s l then s
    else if !flitOk flit then sendNak s l
    else
      let s := s.updLink l fun k => { k with
        ackSeq := if bit (byteAt flit 2) 0 || bit (byteAt flit 2) 1 then byteAt flit 1 else k.ackSeq,
        replay := bit (byteAt flit 2) 1 }
      if bit (byteAt flit 2) 4 then s
      else if byteAt flit 0 != (s.link l).rxSeq then sendNak s l
      else takeFlit s l flit)

end Sys2Proof.Machine
end

