-- ==== Sys2Proof/Machine/Boundary.lean ====
section
/-! DEFINITION. The tick boundary (R24, Table 1.5): its five steps in their order, the wrap of TICK_COUNT, the boundary that a
PLL switchover defers. -/

namespace Sys2Proof.Machine

/-! ### Before step 1 -/

/-- Heartwood time runs at 32,768 to 1,000,000 ticks (R401; log entry 18). -/
def advanceTime (s : State) : State :=
  let k := (s.tick.count + 1) * 32768 / 1000000 - s.tick.count * 32768 / 1000000
  { s with htime := (s.htime + k) % 2 ^ 48 }

/-- The boundary window of the tick that ends (R32, R342), then the count (R29); a wrap sets WRAPPED and produces its
record. -/
def countTick (s : State) : State :=
  let s := advanceTime s
  let s := { s with tick.count := s.tick.count + 1, stw.events := s.stw.events ||| 2 }
  if s.tick.count % 2 ^ 48 = 0 then emit { s with tick.wrapped := true } 0x0004 0 0 0 else s

/-! ### Step 1: the collector (R388, R391, R392, R399, R488) -/

/-- The serving faces that move: those called back, and those whose port is WITHDRAWN while the other is in L0 (R121,
R488). -/
def faceMoves (s : State) : State :=
  let back := s.adm.changes.filterMap fun c => match c with
    | .face a toB => some (a, toB)
    | _ => none
  let rest := s.adm.changes.filter fun c => match c with
    | .face _ _ => false
    | _ => true
  let s := back.foldl (fun s m => moveFace s m.1 m.2) { s with adm.changes := rest }
  s.adm.pairs.foldl (fun s x =>
    let old := if x.2.2 then x.2.1 else x.1
    let new := if x.2.2 then x.1 else x.2.1
    if (s.health (unitId 9 old)).state == .withdrawn && (s.port new).l0 then moveFace s x.1 (!x.2.2) else s) s

/-- Are both ports of a pair WITHDRAWN in a map? -/
def bothDown (m : List Health) (x : Nat × Nat × Bool) : Bool :=
  (healthIn m (unitId 9 x.1)).state == .withdrawn && (healthIn m (unitId 9 x.2.1)).state == .withdrawn

/-- The pairs whose second port is withdrawn at this boundary: their TF instances take the port reset (R488). -/
def pairResets (s : State) (before : List Health) : State :=
  (s.adm.pairs.filter fun x => bothDown s.faults.map x && !bothDown before x).foldl (fun s x =>
    ((s.insts.filter fun i => portOf i.id == x.1 && i.id % 256 != 0).map (·.id)).foldl
      (fun s i => (flrAction s i).updInst i fun y => { y with mode := .off }) s) s

/-- Primacy passes when the primary AF's link has gone down (R93). -/
def primaryMoves (s : State) : State :=
  if !(s.port s.adm.primary).fell then s else
  match (List.range 4).find? fun p => (s.port p).dlUp with
  | some p => emit { s with adm.primary := p } 0x0104 (p * 256) 0 0
  | none => s

/-- Does an injection MODE suit a source (R399)? -/
def injectSuits (src mode : Nat) : Bool :=
  (groupOf src).isSome && (match mode with
    | 0 => true
    | 1 => [0x01, 0x04, 0x0C, 0x11].contains (src / 1024)
    | 2 => [0x00, 0x03, 0x06, 0x08, 0x0D].contains (src / 1024)
    | _ => src / 1024 == 0x0E)

/-- What an injected double-bit error does before its raise, in the next word that the unit reads: it abandons what the unit
runs, or a slice loses an entry.  Whose word grove memory or a slice reads next is free (log entry 5). -/
def injectUpset (s : State) (src mode : Nat) : State :=
  let i := src % 1024
  match mode, src / 1024 with
  | 2, 0x00 => faultEngine s i
  | 2, 0x03 => match s.exec.mxu.find? fun c => c.mxu == i && c.phase == .running with
    | some c => mxuFault s c false
    | none => s
  | 2, 0x06 =>
    let (k, s) := takeFreeNat s
    let js := runningNow s fun j => j.grove == i
    (js[k % js.length]?).elim s (faultSlice s)
  | 2, 0x08 =>
    let (k, s) := takeFreeNat s
    { s with groves := s.groves.modify i fun x => { x with cache := x.cache.eraseIdx (k % x.cache.length) } }
  | _, _ => s

/-- The injected raise with its full effect, as though detected.  DEDUCED (log entry 54): a TAMPER raise follows the response that
causes it, so an injected one has the effect of its severity alone.  A PLL is lost, a noise source fails, a grove DRBG is in
error, a vault channel is lost, the stewards differ; COLLECTOR_SELF shows itself. -/
def injectRaise (s : State) (src : Nat) : State :=
  let i := src % 1024
  if isUnit (unitOfSource src) && (s.health (unitOfSource src)).state == .failed then raise s src (unitOfSource src) 0 true else
  match src / 1024 with
  | 0x09 => drbgFail s i true
  | 0x0A => noiseFail s i (s.entropy.sources.getD i default) true
  | 0x0E => pllLoss s i true
  | 0x0F => stewardDiffer s true
  | 0x14 => vaultLoss s i true
  | 0x25 => { raise s src (unitOfSource src) 0 true with faults.self := true }
  | _ => raise s src (unitOfSource src) 0 true

/-- FAULT_INJ_GO at its boundary (R399). -/
def injectDue (s : State) : State :=
  if !s.faults.injGo then s else
  let src := s.faults.injSrc
  let mode := s.faults.injMode
  let s := { s with faults.injGo := false, faults.injStatSrc := src }
  if !injectSuits src mode then { s with faults.injRefused := true, faults.injDone := false }
  else
    injectRaise (injectUpset { s with faults.injRefused := false, faults.injDone := true } src mode) src

/-- Step 1. -/
def boundaryOne (s : State) (tj : Int) : State :=
  let before := s.faults.map
  let s := applyUpdates (applyRaises s)
  let (s, outs) := healthGets s
  let s := primaryMoves (faceMoves s)
  let s := pairResets (writeHealth (publishHealth s before) outs) before
  injectDue (takeTj s tj)

/-! ### Step 2: what waited for the boundary (R10, R51, R52) -/

/-- Severities of the sources listed (R389). -/
def setSeverity (s : State) (srcs : List Nat) (sev : Nat) : State :=
  { s with faults.sev := srcs.map (·, sev) ++ s.faults.sev.filter fun x => !srcs.contains x.1 }

/-- A scheduling change of an instance: a sprint rate that is set starts with a full bucket (R87). -/
def setSched (s : State) (i : Nat) (w l r : Option Nat) : State :=
  s.updInst i fun x => { x with
    nextWeight := w.getD x.nextWeight, inflightLimit := l.getD x.inflightLimit, sprintRate := r.getD x.sprintRate,
    tokens := match r with
      | some n => 4 * n
      | none => x.tokens }

/-- An RWT register takes the value written. -/
def setReg (s : State) (off v : Nat) : State :=
  if off = 0x010C then { s with tick.insertEn := v % 2 == 1 }
  else if 0x10000 ≤ off then { s with hwd.channels := s.hwd.channels.modify (off - 0x10000) fun c => tmpConfig c v }
  else s

/-- One change. -/
def applyChange (s : State) (c : Change) : State :=
  match c with
  | .reg _ off v => setReg s off v
  | .sqWeight i q w => s.updSq i q fun x => { x with nextWeight := w }
  | .cqCoal i q n t => s.updCq i q fun x => { x with coalCount := n, coalTicks := t }
  | .sched i w l r => setSched s i w l r
  | .primary p => { s with adm.primary := p }
  | .severity ss v => setSeverity s ss v
  | .harvest ref i => harvest s ref i
  | .specClear => { s with work.spec := s.work.spec.map fun _ => 0 }
  | .perfClear => { s with work.perf := s.work.perf.map (fun _ => 0), engines := s.engines.map fun e => { e with busy := 0 } }
  | .envelope ref e => applyEnvelope s ref e
  | .health _ _ _ _ _ _ => s
  | .face _ _ => s

/-- Sprint tokens are added (R87). -/
def refillTokens (s : State) : State :=
  { s with insts := s.insts.map fun i => { i with tokens := min (4 * i.sprintRate) (i.tokens + i.sprintRate) } }

/-- Tenant bindings take effect (R450). -/
def applyBinds (s : State) : State :=
  s.tether.binds.foldl (fun s b => s.updInst b.1 fun i => { i with tenant := if b.2 = 0 then none else some b.2 })
    { s with tether.binds := [] }

/-- Dormant objects become usable once their instance exists with a quota that covers them (R265). -/
def wakeDormant (s : State) : State :=
  let awake (i : Nat) : Bool := match s.inst? i with
    | some x => x.state != .absent && decide (keysOwned s i ≤ x.keyQuota)
    | none => false
  { s with store.keys := updWhere (fun k => k.dormant && awake k.owner) (fun k => { k with dormant := false }) s.store.keys }

/-- The admin registers' lock ends (R94), the stewards fill the pools of free indices while they run (R384). -/
def releaseLocks (s : State) : State :=
  let s : State := { s with ports := s.ports.map fun x =>
    { x with admq.lockedUntil := x.admq.lockedUntil.filter fun t => decide (now s < t) } }
  if s.stw.resetting then s else { s with store.keyPool := 1024, store.ctxPool := 4096 }

/-- Step 2. -/
def boundaryTwo (s : State) : State :=
  let s := closeRounds (s.adm.changes.foldl applyChange { s with adm.changes := [] })
  let s := refillTokens (applyBinds { s with power.level := forcedLevel s })
  let s := (s.insts.filter fun x => x.resumeAt.any fun t => decide (t ≤ now s)).foldl applyResume s
  releaseLocks (wakeDormant s)

/-! ### Step 3: aborts, dispositions, losses (R25, R114, R116, R273, R287, R466, R486) -/

/-- One action. -/
def applyAbort (s : State) (a : Abort) : State :=
  match a with
  | .jobs ref i q tag all => applyJobAbort s ref i q tag all
  | .quiesce _ i ab => applyQuiesce s i ab
  | .disposition j c => applyDisposition s j c

/-- Step 3. -/
def boundaryThree (s : State) : State :=
  let s := s.adm.aborts.foldl applyAbort { s with adm.aborts := [] }
  let s := s.work.jobs.foldl pendingTimeout s
  applyLosses (dissolveDue (portResets s))

/-! ### Step 4: completions and interrupts (R80 to R85, R90, R101, R114, R280) -/

/-- Queues that are being deleted and instances that quiesce, where the last CE has been posted; instances removed whose last
context has gone. -/
def drains (s : State) : State :=
  let s := (s.insts.filter fun x => x.state == .absent).foldl (fun s x => removeDrained s x.id) s
  let s := (s.work.sqs.filter (·.deleting)).foldl (fun s q => sqDrained s q.inst q.num) s
  (s.insts.filter fun x => x.state == .quiescing).foldl (fun s x => quiesceDrained s x.id) s

/-- The interrupts of a boundary. -/
def interrupts (s : State) : State :=
  let s := s.work.cqs.foldl (fun s c => cqInterrupt s c.inst c.num) (sendPending s)
  (List.range 4).foldl adminInterrupt s

/-- Step 4. -/
def boundaryFour (s : State) : State :=
  let s := s.work.cqs.foldl (fun s c => releaseHeld s c.inst c.num none) s
  let s := postDue s.work.jobs.length s
  interrupts (postAdmins (drains s))

/-! ### Step 5 and the tick that begins (R36, R83, R188, R272, R281) -/

/-- What has had its time goes: dependency entries 16 t after their CE, zeroised envelopes, writes that a move of the
serving face would no longer repeat. -/
def pruneOld (s : State) : State :=
  { s with
    work.done := s.work.done.filter (fun d => decide (now s ≤ d.postedAt + 16)),
    work.zeroising := s.work.zeroising.filter (fun z => decide (now s < z.freeAt)),
    writes := s.writes.filter (fun w => decide (now s ≤ w.issued + 2)), work.grants := 0 }

/-- Heads that have waited through the tick only for a credit (R83, Table 18.8). -/
def countWaits (s : State) : State :=
  s.work.sqs.foldl (fun s q =>
    if waitsForCredit s q then perfInc (s.updSq q.inst q.num fun x => { x with waited := x.waited + 1 }) 5 1
    else s.updSq q.inst q.num fun x => { x with waited := 0 }) s

/-- Grove of a mask generator. -/
def maskGrove (i : Nat) : Nat := if i < 272 then i / 17 else i - 272

/-- A duplex absorbs 16 bytes; the padding is that of the sponge (log entry 55). -/
def maskAbsorb (st : Nat) (seed : Bytes) : Nat := Keccak.f (st ^^^ leNat (seed ++ Keccak.pad 136 1 16))

/-- Every mask generator absorbs 128 fresh bits of its grove DRBG's mask stream, while that DRBG serves (R372). -/
def refreshMasks (s : State) : State :=
  let serves (i : Nat) : Bool := let g := s.groves.getD (maskGrove i) default; g.drbgUp && !g.drbgError
  let seed (i : Nat) : Bytes := (List.range 16).map fun k => Config.freeByte (s.freeCtr + 16 * i + k)
  { s with
    masks := s.masks.mapIdx fun i st => if serves i then maskAbsorb st (seed i) else st,
    freeCtr := s.freeCtr + 16 * s.masks.length }

/-- Step 5: the mask generators are reseeded, waiters take what has been left, jobs go out over the tether, slices are
assigned. -/
def boundaryFive (s : State) (late : Nat) : State :=
  let s := countWaits (pruneOld (refreshMasks s))
  let s := takeHeld (resumeWaiters s)
  assignSlices (sendJobs (mxuBoundary s)) late

/-! ### The boundary -/

/-- The actions of a boundary, performed `late` cycles into the tick.  In safe state only the collector, the admin queues and their interrupts go on (R396), a
SCRAP transition whose CE has been posted takes the device down (R427). -/
def boundaryActions (s : State) (tj : Int) (late : Nat) : State :=
  let s := boundaryOne (syncVault s) tj
  let s := if s.faults.safe then (List.range 4).foldl adminInterrupt (postAdmins s)
    else
      let s := boundaryFour (boundaryThree (boundaryTwo s))
      if s.faults.safe then s else boundaryFive s late
  let s := snapBoundary s
  if scrapDue s then enterScrap s else s

/-- A tick boundary: nothing but the count in power-fail stop; deferred while the engine clock is switched (R383). -/
def tickBoundary (s : State) (tj : Int) : State :=
  if !s.tick.running then s
  else if s.stopped then countTick s
  else match s.pllGap with
    | some true => s
    | some false => { countTick s with pllGap := some true, power.tj := tj }
    | none => boundaryActions (countTick (sendResults (countCommits s))) tj 0

/-- TICK_BOUNDARY (R24). -/
def execTickBoundary (tj : Int) (s : State) : Host.Outcome State Fault Refusal := .next (tickBoundary s tj)

/-- TICK_WRAP (R29): the boundary at which TICK_COUNT wraps to zero. -/
def execTickWrap (tj : Int) (s : State) : Host.Outcome State Fault Refusal :=
  .next (if tickCount s = 2 ^ 48 - 1 then tickBoundary s tj else s)

/-- PLL_SWITCHOVER_DONE (R383): the device runs again; a boundary that fell in the gap is acted on now, under its own
number, and the tick is planned against a run window shortened by up to 400 cycles, a free number (log entry 5). -/
def execPllSwitchoverDone (s : State) : Host.Outcome State Fault Refusal :=
  .next (match s.pllGap with
    | none => s
    | some false => { s with pllGap := none }
    | some true =>
      let (k, s) := takeFreeNat { s with pllGap := none }
      boundaryActions s s.power.tj (k % 401))

end Sys2Proof.Machine
end

