-- ==== Sys2Proof/Machine/Digest.lean ====
section
/-! DEFINITION. Digests and streams, MAC, KDF, AEAD and random numbers (08_digest_kdf.md). -/

namespace Sys2Proof.Machine

/-- The two strings as the function uses them (R216). -/
def strings (j : Job) : Bytes × Bytes := if isCshake j.pset then (j.nStr, j.sStr) else ([], [])

def runDigest (s : State) (j : Job) (inp : Bytes) : State × JobResult :=
  (s, okR (hashOf j.pset inp (strings j).1 (strings j).2 (digestOut j)) [])

/-- DIGEST (R215). -/
def execDigest (j : Nat) (u : Upset) (s : State) : Host.Outcome State Fault Refusal :=
  .next (runJob s j u (fun x => x.opcode == 0x20) (fun _ => false) runDigest)

/-! ### Streams (R217 to R222) -/

def runDigestStart (s : State) (j : Job) (inp : Bytes) : State × JobResult :=
  let i := newStreamIndex s
  let x : Stream := {
    index := i, gen := genOf s.store.streamGens i, owner := j.inst, alg := j.alg, pset := j.pset,
    final := false, absorbed := inp, n := (strings j).1, s := (strings j).2, squeezed := 0, quarantined := false }
  (s, okR (leBytes 4 x.handle) [.openStream x])

/-- DIGEST_START (R218). -/
def execDigestStart (j : Nat) (u : Upset) (s : State) : Host.Outcome State Fault Refusal :=
  .next (runJob s j u (fun x => x.opcode == 0x21) (fun _ => false) runDigestStart)

/-- The stream a job holds. -/
def jobStream (s : State) (j : Job) : Option Stream :=
  j.streamUse.bind fun i => s.store.streams.find? (·.index == i)

/-- Result bytes of a FINAL stream: the digest, or the next XOF_LEN bytes. -/
def streamRead (x : Stream) (n : Nat) : Bytes :=
  if isXof x.pset then (hashOf x.pset x.absorbed x.n x.s (x.squeezed + n)).drop x.squeezed
  else hashOf x.pset x.absorbed [] [] n

/-- Run a stream job on its stream. -/
def onStream (s : State) (j : Job) (f : Stream → JobResult) : State × JobResult :=
  match jobStream s j with
  | some x => (s, f x)
  | none => (s, errR 0x0203 0x40)

def runDigestUpdate (s : State) (j : Job) (inp : Bytes) : State × JobResult :=
  onStream s j fun x => if x.final then errR 0x0203 0x44
    else okR [] [.putStream { x with absorbed := x.absorbed ++ inp }]

/-- DIGEST_UPDATE without READ (R218). -/
def execDigestUpdate (j : Nat) (u : Upset) (s : State) : Host.Outcome State Fault Refusal :=
  .next (runJob s j u (fun x => x.opcode == 0x22 && !bit x.opt 0) (fun _ => false) runDigestUpdate)

def runDigestRead (s : State) (j : Job) (_inp : Bytes) : State × JobResult :=
  onStream s j fun x =>
    if !x.final then { errR 0x0206 0x00 with out := zeros (digestOut j) }
    else okR (streamRead x (digestOut j)) [if bit j.opt 1 then .freeStream x.index
      else .putStream { x with squeezed := x.squeezed + (if isXof x.pset then digestOut j else 0) }]

/-- DIGEST_UPDATE with READ (R218, R222). -/
def execDigestRead (j : Nat) (u : Upset) (s : State) : Host.Outcome State Fault Refusal :=
  .next (runJob s j u (fun x => x.opcode == 0x22 && bit x.opt 0) (fun _ => false) runDigestRead)

def runDigestFinal (s : State) (j : Job) (inp : Bytes) : State × JobResult :=
  onStream s j fun x =>
    if x.final then errR 0x0203 0x44 else
    let y := { x with absorbed := x.absorbed ++ inp, final := true }
    let n := digestOut j
    okR (streamRead y n) [if bit j.opt 0 then .putStream { y with squeezed := if isXof x.pset then n else 0 }
      else .freeStream x.index]

/-- DIGEST_FINAL without DISCARD (R216, R218). -/
def execDigestFinal (j : Nat) (u : Upset) (s : State) : Host.Outcome State Fault Refusal :=
  .next (runJob s j u (fun x => x.opcode == 0x23 && !bit x.opt 1) (fun _ => false) runDigestFinal)

def runDigestDiscard (s : State) (j : Job) (_inp : Bytes) : State × JobResult :=
  onStream s j fun x => okR [] [.freeStream x.index]

/-- DIGEST_FINAL with DISCARD (R218). -/
def execDigestDiscard (j : Nat) (u : Upset) (s : State) : Host.Outcome State Fault Refusal :=
  .next (runJob s j u (fun x => x.opcode == 0x23 && bit x.opt 1) (fun _ => false) runDigestDiscard)

/-! ### MAC (R223 to R225) -/

/-- Key of a MAC or AEAD job: from the context slot or the key object. -/
def keyedBy (s : State) (j : Job) : Bytes :=
  if j.fromCtx then match ((ctxAt s j.ctxH).getD default).slot j.slotNo with
    | .mac _ _ k => k
    | .aead _ _ k _ _ => k
    | _ => []
  else (jobKey s j).sk

/-- HMAC cut to TAG_LEN, or KMAC of that length with the customisation string S (R223). -/
def macOf (j : Job) (key msg : Bytes) : Bytes :=
  if j.alg = 0x28 then (hmacOf j.pset key msg).take j.tagLen
  else kmacOf j.pset key msg (sub j.params 3 j.macSLen) j.tagLen

def runMac (s : State) (j : Job) (inp : Bytes) : State × JobResult :=
  (s, okR (macOf j (keyedBy s j) inp) [])

/-- MAC generating a tag (R223). -/
def execMac (j : Nat) (u : Upset) (s : State) : Host.Outcome State Fault Refusal :=
  .next (runJob s j u (fun x => x.opcode == 0x28 && !bit x.opt 0) (fun _ => false) runMac)

def runMacVerify (u : Upset) (s : State) (j : Job) (inp : Bytes) : State × JobResult :=
  let n := inp.length - j.tagLen
  let ok := macOf j (keyedBy s j) (inp.take n) == inp.drop n
  decided s j u (if ok then okR [] [] else errR 0x0001 0x40)

/-- MAC with VERIFY (R225). -/
def execMacVerify (j : Nat) (u : Upset) (s : State) : Host.Outcome State Fault Refusal :=
  .next (runJob s j u (fun x => x.opcode == 0x28 && bit x.opt 0) (fun _ => false) (runMacVerify u))

/-! ### KDF (R226 to R228) -/

/-- The derived bytes (Table 8.6a). -/
def kdfBytes (j : Job) (ikm salt info : Bytes) : Bytes :=
  if j.alg = 0x2B then kmacKdf j.pset ikm info salt j.kdfL
  else match j.mode with
    | 0 => hkdfExpand j.pset (hkdfExtract j.pset salt ikm) info j.kdfL
    | 1 => hkdfExpand j.pset ikm info j.kdfL
    | _ => hkdfExtract j.pset salt ikm

/-- POLICY of a derived key: it inherits MASK_ORDER2 and DEV from a source object (R227). -/
def derivedPolicy (j : Job) (src : KeyObj) (policy : Nat) : Nat :=
  let set (v b : Nat) (on : Bool) : Nat := if on && !bit v b then v + 2 ^ b else v
  if j.kdfFromCtx then policy else set (set policy pOrder2 (src.has pOrder2)) pDev (src.has pDev)

def runKdf (s : State) (j : Job) (inp : Bytes) : State × JobResult :=
  let salt := inp.take j.saltLen
  let info := sub inp j.saltLen j.infoLen
  if j.kdfInline then (s, okR (kdfBytes j (inp.drop (j.saltLen + j.infoLen)) salt info) [])
  else
    let ikm := if j.kdfFromCtx then match ((ctxAt s j.ctxH).getD default).slot j.kdfSlot with
        | .secret b => b
        | _ => []
      else (jobKey s j).sk
    let k := newKey s j.inst j.tAlg j.tPset (derivedPolicy j (jobKey s j) j.policy) none
      (some (kdfBytes j ikm salt info))
    let k := { k with policy := derivedPolicy j (jobKey s j) k.policy }
    (s, okR (leBytes 4 k.handle) [.createKey k])

/-- KDF (R226). -/
def execKdf (j : Nat) (u : Upset) (s : State) : Host.Outcome State Fault Refusal :=
  .next (runJob s j u (fun x => x.opcode == 0x29) (fun _ => false) runKdf)

/-! ### AEAD (R229 to R231) -/

/-- The nonce (R230): NONCE of the parameter area, or the slot's IV and sequence. -/
def aeadNonce (s : State) (j : Job) : Bytes :=
  if j.fromCtx then match ((ctxAt s j.ctxH).getD default).slot j.slotNo with
    | .aead _ _ _ iv q => iv.take 4 ++ xorBytes (iv.drop 4) (beBytes 8 q)
    | _ => zeros 12
  else sub j.params 4 12

/-- The sequence of a slot advances with an OK. -/
def seqAdvance (j : Job) : List Effect := if j.fromCtx then [.advanceSeq j.ctxH j.slotNo] else []

def runAeadSeal (s : State) (j : Job) (inp : Bytes) : State × JobResult :=
  (s, okR (aeadSealOf (ap j.alg j.pset) (keyedBy s j) (aeadNonce s j) (inp.take j.aadLen) (inp.drop j.aadLen))
    (seqAdvance j))

/-- AEAD_SEAL (R229). -/
def execAeadSeal (j : Nat) (u : Upset) (s : State) : Host.Outcome State Fault Refusal :=
  .next (runJob s j u (fun x => x.opcode == 0x30) (fun _ => false) runAeadSeal)

def runAeadOpen (u : Upset) (s : State) (j : Job) (inp : Bytes) : State × JobResult :=
  let a := ap j.alg j.pset
  let key := keyedBy s j
  let nonce := aeadNonce s j
  let aad := inp.take j.aadLen
  let body := inp.drop j.aadLen
  decided s j u (if aeadTagOk a key nonce aad body then okR (aeadTextOf a key nonce aad body) (seqAdvance j)
    else errR 0x0001 0x41)

/-- AEAD_OPEN (R231). -/
def execAeadOpen (j : Nat) (u : Upset) (s : State) : Host.Outcome State Fault Refusal :=
  .next (runJob s j u (fun x => x.opcode == 0x31) (fun _ => false) (runAeadOpen u))

/-! ### Random numbers (R232) -/

/-- Does any noise source serve? -/
def anyNoise (s : State) : Bool := (List.range 4).any fun i => s.serves (unitId 5 i)

/-- The output of one generate call. -/
def rngOut (s : State) (j : Job) : State × Option JobResult :=
  match takeFree s j.rngCount with
  | (out, s) => (s, some (okR out []))

/-- With PR the DRBG first reseeds from a conditioned block, for which the job waits where none stands (R232, R370, R371). -/
def runRng (s : State) (j : Job) (_inp : Bytes) : State × Option JobResult :=
  if !bit j.opt 0 then rngOut s j
  else if j.prepared then (if s.entropy.waiting.contains (j.grove, some j.id) then (s, none) else rngOut s j)
  else if !anyNoise s then (s, some (errR 0x0600 0x41))
  else match takeBlock s j.grove with
    | some s => rngOut s j
    | none => ((askBlock s j.grove (some j.id)).updJob j.id fun x => { x with prepared := true }, none)

/-- RNG (R232). -/
def execRng (j : Nat) (u : Upset) (s : State) : Host.Outcome State Fault Refusal :=
  .next (runPart s j u (fun x => x.opcode == 0x38) (fun _ => true) runRng)

end Sys2Proof.Machine
end

