-- ==== Sys2Proof/Machine/Dispatch.lean ====
section
/-! DEFINITION. One arm for each command: its meaning. -/

namespace Sys2Proof.Machine

/-- The effect of a command on everything but the queue. -/
def exec (i : Instr) (s : State) : Host.Outcome State Fault Refusal :=
  match i with
  | .sqDoorbell face off width value => Sys2Proof.Machine.execSqDoorbell face off width value s
  | .cqDoorbell face off width value => Sys2Proof.Machine.execCqDoorbell face off width value s
  | .seFetch inst q pos => Sys2Proof.Machine.execSeFetch inst q pos s
  | .jobDispatch inst q cy => Sys2Proof.Machine.execJobDispatch inst q cy s
  | .pendingTimeout j => Sys2Proof.Machine.execPendingTimeout j s
  | .tickBoundary tj => Sys2Proof.Machine.execTickBoundary tj s
  | .jobRelease j => Sys2Proof.Machine.execJobRelease j s
  | .cqInterrupt inst q => Sys2Proof.Machine.execCqInterrupt inst q s
  | .cqStarved inst q => Sys2Proof.Machine.execCqStarved inst q s
  | .sliceOverrun j => Sys2Proof.Machine.execSliceOverrun j s
  | .vectorPowerDown engine => Sys2Proof.Machine.execVectorPowerDown engine s
  | .sqCreate p se => Sys2Proof.Machine.execSqCreate p se s
  | .sqDelete p se => Sys2Proof.Machine.execSqDelete p se s
  | .sqDeleteDrained inst q => Sys2Proof.Machine.execSqDeleteDrained inst q s
  | .cqCreate p se => Sys2Proof.Machine.execCqCreate p se s
  | .cqDelete p se => Sys2Proof.Machine.execCqDelete p se s
  | .sqRestart p se => Sys2Proof.Machine.execSqRestart p se s
  | .cqRestart p se => Sys2Proof.Machine.execCqRestart p se s
  | .cqModify p se => Sys2Proof.Machine.execCqModify p se s
  | .sqModify p se => Sys2Proof.Machine.execSqModify p se s
  | .instanceCreate p se => Sys2Proof.Machine.execInstanceCreate p se s
  | .instanceQuiesce p se => Sys2Proof.Machine.execInstanceQuiesce p se s
  | .quiesceDrained inst => Sys2Proof.Machine.execQuiesceDrained inst s
  | .instanceResume p se => Sys2Proof.Machine.execInstanceResume p se s
  | .instanceReset p se => Sys2Proof.Machine.execInstanceReset p se s
  | .instanceRemove p se => Sys2Proof.Machine.execInstanceRemove p se s
  | .instanceSetResources p se => Sys2Proof.Machine.execInstanceSetResources p se s
  | .instanceGet p se => Sys2Proof.Machine.execInstanceGet p se s
  | .datuSetRoot p se => Sys2Proof.Machine.execDatuSetRoot p se s
  | .datuInvalidate p se => Sys2Proof.Machine.execDatuInvalidate p se s
  | .dirtyLogStart p se => Sys2Proof.Machine.execDirtyLogStart p se s
  | .dirtyLogStop p se => Sys2Proof.Machine.execDirtyLogStop p se s
  | .dirtyLogHarvest p se => Sys2Proof.Machine.execDirtyLogHarvest p se s
  | .jobAbort p se => Sys2Proof.Machine.execJobAbort p se s
  | .dumpBufferSet p se => Sys2Proof.Machine.execDumpBufferSet p se s
  | .healthGet p se => Sys2Proof.Machine.execHealthGet p se s
  | .healthGetRetire p se => Sys2Proof.Machine.execHealthGetRetire p se s
  | .faultSeveritySet p se => Sys2Proof.Machine.execFaultSeveritySet p se s
  | .attest p se => Sys2Proof.Machine.execAttest p se s
  | .lcsTransition p se u => Sys2Proof.Machine.execLcsTransition p se u s
  | .graftInfo p se => Sys2Proof.Machine.execGraftInfo p se s
  | .canopyConfigLoad p se => Sys2Proof.Machine.execCanopyConfigLoad p se s
  | .canopyConfigDissolve p se => Sys2Proof.Machine.execCanopyConfigDissolve p se s
  | .canopyConfigTenantBind p se => Sys2Proof.Machine.execCanopyConfigTenantBind p se s
  | .envelopeSetQuery p se => Sys2Proof.Machine.execEnvelopeSetQuery p se s
  | .envelopeSet p se => Sys2Proof.Machine.execEnvelopeSet p se s
  | .primaryDelegate p se => Sys2Proof.Machine.execPrimaryDelegate p se s
  | .portPairUnpair p se => Sys2Proof.Machine.execPortPairUnpair p se s
  | .portPairPair p se => Sys2Proof.Machine.execPortPairPair p se s
  | .portPairReturn p se => Sys2Proof.Machine.execPortPairReturn p se s
  | .kemKeygen j u => Sys2Proof.Machine.execKemKeygen j u s
  | .kemEncaps j u => Sys2Proof.Machine.execKemEncaps j u s
  | .kemDecaps j u => Sys2Proof.Machine.execKemDecaps j u s
  | .sigKeygen j u => Sys2Proof.Machine.execSigKeygen j u s
  | .sigSign j u => Sys2Proof.Machine.execSigSign j u s
  | .sigVerify j u => Sys2Proof.Machine.execSigVerify j u s
  | .dhKeygen j u => Sys2Proof.Machine.execDhKeygen j u s
  | .dhDerive j u => Sys2Proof.Machine.execDhDerive j u s
  | .rsaKeygen j u => Sys2Proof.Machine.execRsaKeygen j u s
  | .rsaSign j u => Sys2Proof.Machine.execRsaSign j u s
  | .rsaVerify j u => Sys2Proof.Machine.execRsaVerify j u s
  | .rsaDecrypt j u => Sys2Proof.Machine.execRsaDecrypt j u s
  | .rsaEncrypt j u => Sys2Proof.Machine.execRsaEncrypt j u s
  | .digest j u => Sys2Proof.Machine.execDigest j u s
  | .digestStart j u => Sys2Proof.Machine.execDigestStart j u s
  | .digestUpdate j u => Sys2Proof.Machine.execDigestUpdate j u s
  | .digestRead j u => Sys2Proof.Machine.execDigestRead j u s
  | .digestFinal j u => Sys2Proof.Machine.execDigestFinal j u s
  | .digestDiscard j u => Sys2Proof.Machine.execDigestDiscard j u s
  | .mac j u => Sys2Proof.Machine.execMac j u s
  | .macVerify j u => Sys2Proof.Machine.execMacVerify j u s
  | .kdf j u => Sys2Proof.Machine.execKdf j u s
  | .aeadSeal j u => Sys2Proof.Machine.execAeadSeal j u s
  | .aeadOpen j u => Sys2Proof.Machine.execAeadOpen j u s
  | .rng j u => Sys2Proof.Machine.execRng j u s
  | .keyImport j u => Sys2Proof.Machine.execKeyImport j u s
  | .keyGenerate j u => Sys2Proof.Machine.execKeyGenerate j u s
  | .keyExport j u => Sys2Proof.Machine.execKeyExport j u s
  | .keyDestroy j u => Sys2Proof.Machine.execKeyDestroy j u s
  | .keyGetPublic j u => Sys2Proof.Machine.execKeyGetPublic j u s
  | .ctxDerive j u => Sys2Proof.Machine.execCtxDerive j u s
  | .ctxExport j u => Sys2Proof.Machine.execCtxExport j u s
  | .ctxDestroy j u => Sys2Proof.Machine.execCtxDestroy j u s
  | .clientInit j u => Sys2Proof.Machine.execClientInit j u s
  | .serverRespond j u => Sys2Proof.Machine.execServerRespond j u s
  | .clientFinish j u => Sys2Proof.Machine.execClientFinish j u s
  | .routineCall j n => Sys2Proof.Machine.execRoutineCall j n s
  | .shelfWrite idx => Sys2Proof.Machine.execShelfWrite idx s
  | .validate j ev => Sys2Proof.Machine.execValidate j ev s
  | .rsaPriv j ev => Sys2Proof.Machine.execRsaPriv j ev s
  | .rsaPub j ev => Sys2Proof.Machine.execRsaPub j ev s
  | .rsaGen j ev => Sys2Proof.Machine.execRsaGen j ev s
  | .ecGen j ev => Sys2Proof.Machine.execEcGen j ev s
  | .ecSign j ev => Sys2Proof.Machine.execEcSign j ev s
  | .ecVerify j ev => Sys2Proof.Machine.execEcVerify j ev s
  | .ecDerive j ev => Sys2Proof.Machine.execEcDerive j ev s
  | .validationResult j => Sys2Proof.Machine.execValidationResult j s
  | .alNop j => Sys2Proof.Machine.execAlNop j s
  | .alDup j => Sys2Proof.Machine.execAlDup j s
  | .alDrop j => Sys2Proof.Machine.execAlDrop j s
  | .alSwap j => Sys2Proof.Machine.execAlSwap j s
  | .alOver j => Sys2Proof.Machine.execAlOver j s
  | .alRot j => Sys2Proof.Machine.execAlRot j s
  | .alTor j => Sys2Proof.Machine.execAlTor j s
  | .alFromr j => Sys2Proof.Machine.execAlFromr j s
  | .alRcopy j => Sys2Proof.Machine.execAlRcopy j s
  | .alDepth j => Sys2Proof.Machine.execAlDepth j s
  | .alAdd j => Sys2Proof.Machine.execAlAdd j s
  | .alSub j => Sys2Proof.Machine.execAlSub j s
  | .alAnd j => Sys2Proof.Machine.execAlAnd j s
  | .alOr j => Sys2Proof.Machine.execAlOr j s
  | .alXor j => Sys2Proof.Machine.execAlXor j s
  | .alInv j => Sys2Proof.Machine.execAlInv j s
  | .alShl j => Sys2Proof.Machine.execAlShl j s
  | .alShr j => Sys2Proof.Machine.execAlShr j s
  | .alSar j => Sys2Proof.Machine.execAlSar j s
  | .alMul j => Sys2Proof.Machine.execAlMul j s
  | .alMulhu j => Sys2Proof.Machine.execAlMulhu j s
  | .alEq j => Sys2Proof.Machine.execAlEq j s
  | .alUlt j => Sys2Proof.Machine.execAlUlt j s
  | .alLt j => Sys2Proof.Machine.execAlLt j s
  | .alCsel j => Sys2Proof.Machine.execAlCsel j s
  | .alFetch j => Sys2Proof.Machine.execAlFetch j s
  | .alStore j => Sys2Proof.Machine.execAlStore j s
  | .alFetchh j => Sys2Proof.Machine.execAlFetchh j s
  | .alStoreh j => Sys2Proof.Machine.execAlStoreh j s
  | .alFetchb j => Sys2Proof.Machine.execAlFetchb j s
  | .alStoreb j => Sys2Proof.Machine.execAlStoreb j s
  | .alIfetch j => Sys2Proof.Machine.execAlIfetch j s
  | .alRet j => Sys2Proof.Machine.execAlRet j s
  | .alCallt j => Sys2Proof.Machine.execAlCallt j s
  | .alCommit j => Sys2Proof.Machine.execAlCommit j s
  | .alYield j => Sys2Proof.Machine.execAlYield j s
  | .alEnd j => Sys2Proof.Machine.execAlEnd j s
  | .alLit j imm => Sys2Proof.Machine.execAlLit j imm s
  | .alLitx j imm => Sys2Proof.Machine.execAlLitx j imm s
  | .alBr j off => Sys2Proof.Machine.execAlBr j off s
  | .alBz j off => Sys2Proof.Machine.execAlBz j off s
  | .alBnz j off => Sys2Proof.Machine.execAlBnz j off s
  | .alDbnz j off => Sys2Proof.Machine.execAlDbnz j off s
  | .alCall j k => Sys2Proof.Machine.execAlCall j k s
  | .alIn j p => Sys2Proof.Machine.execAlIn j p s
  | .alOut j p => Sys2Proof.Machine.execAlOut j p s
  | .keyReq j u => Sys2Proof.Machine.execKeyReq j u s
  | .keyDeliveryDone j => Sys2Proof.Machine.execKeyDeliveryDone j s
  | .hsInit j => Sys2Proof.Machine.execHsInit j s
  | .hsPad j => Sys2Proof.Machine.execHsPad j s
  | .hsIn j => Sys2Proof.Machine.execHsIn j s
  | .hsInb j => Sys2Proof.Machine.execHsInb j s
  | .hsOut j => Sys2Proof.Machine.execHsOut j s
  | .hashPermutationDone j k => Sys2Proof.Machine.execHashPermutationDone j k s
  | .drbgRead j => Sys2Proof.Machine.execDrbgRead j s
  | .vqWrite j => Sys2Proof.Machine.execVqWrite j s
  | .vcfgWrite j => Sys2Proof.Machine.execVcfgWrite j s
  | .vfaultFill j => Sys2Proof.Machine.execVfaultFill j s
  | .mboxCmd j => Sys2Proof.Machine.execMboxCmd j s
  | .declGo j => Sys2Proof.Machine.execDeclGo j s
  | .gateSeal j => Sys2Proof.Machine.execGateSeal j s
  | .gateTag j => Sys2Proof.Machine.execGateTag j s
  | .gateRandom j => Sys2Proof.Machine.execGateRandom j s
  | .svLd j sd ss => Sys2Proof.Machine.execSvLd j sd ss s
  | .svSt j sd ss => Sys2Proof.Machine.execSvSt j sd ss s
  | .svAdd j sd ss => Sys2Proof.Machine.execSvAdd j sd ss s
  | .svSub j sd ss => Sys2Proof.Machine.execSvSub j sd ss s
  | .svMul j sd ss => Sys2Proof.Machine.execSvMul j sd ss s
  | .svAnd j sd ss => Sys2Proof.Machine.execSvAnd j sd ss s
  | .svOr j sd ss => Sys2Proof.Machine.execSvOr j sd ss s
  | .svXor j sd ss => Sys2Proof.Machine.execSvXor j sd ss s
  | .svShl j sd ss => Sys2Proof.Machine.execSvShl j sd ss s
  | .svShr j sd ss => Sys2Proof.Machine.execSvShr j sd ss s
  | .svRotl j sd ss => Sys2Proof.Machine.execSvRotl j sd ss s
  | .svCmov j sd ss => Sys2Proof.Machine.execSvCmov j sd ss s
  | .svMov j sd ss => Sys2Proof.Machine.execSvMov j sd ss s
  | .svZero j sd ss => Sys2Proof.Machine.execSvZero j sd ss s
  | .svShuf j sd ss => Sys2Proof.Machine.execSvShuf j sd ss s
  | .svAesr j sd ss => Sys2Proof.Machine.execSvAesr j sd ss s
  | .svAeslr j sd ss => Sys2Proof.Machine.execSvAeslr j sd ss s
  | .svClmul j sd ss => Sys2Proof.Machine.execSvClmul j sd ss s
  | .svTos j sd ss => Sys2Proof.Machine.execSvTos j sd ss s
  | .svFroms j sd ss => Sys2Proof.Machine.execSvFroms j sd ss s
  | .lvLd j m ld ls => Sys2Proof.Machine.execLvLd j m ld ls s
  | .lvSt j m ld ls => Sys2Proof.Machine.execLvSt j m ld ls s
  | .lvGather j m ld ls => Sys2Proof.Machine.execLvGather j m ld ls s
  | .lvScatter j m ld ls => Sys2Proof.Machine.execLvScatter j m ld ls s
  | .lvAddm j m ld ls => Sys2Proof.Machine.execLvAddm j m ld ls s
  | .lvSubm j m ld ls => Sys2Proof.Machine.execLvSubm j m ld ls s
  | .lvMulm j m ld ls => Sys2Proof.Machine.execLvMulm j m ld ls s
  | .lvPmul j m ld ls => Sys2Proof.Machine.execLvPmul j m ld ls s
  | .lvBfly j m ld ls => Sys2Proof.Machine.execLvBfly j m ld ls s
  | .lvComp j m ld ls => Sys2Proof.Machine.execLvComp j m ld ls s
  | .lvSamu j m ld ls => Sys2Proof.Machine.execLvSamu j m ld ls s
  | .lvSamcbd j m ld ls => Sys2Proof.Machine.execLvSamcbd j m ld ls s
  | .lvCmov j m ld ls => Sys2Proof.Machine.execLvCmov j m ld ls s
  | .lvPerm j m ld ls => Sys2Proof.Machine.execLvPerm j m ld ls s
  | .lvSad j m ld ls u => Sys2Proof.Machine.execLvSad j m ld ls u s
  | .lvSsd j m ld ls => Sys2Proof.Machine.execLvSsd j m ld ls s
  | .lvOvb j m ld ls => Sys2Proof.Machine.execLvOvb j m ld ls s
  | .lvMov j m ld ls => Sys2Proof.Machine.execLvMov j m ld ls s
  | .lvZero j m ld ls => Sys2Proof.Machine.execLvZero j m ld ls s
  | .lvLogic j m ld ls => Sys2Proof.Machine.execLvLogic j m ld ls s
  | .lvAdd j m ld ls => Sys2Proof.Machine.execLvAdd j m ld ls s
  | .microNext q w => Sys2Proof.Machine.execMicroNext q w s
  | .microJump q w => Sys2Proof.Machine.execMicroJump q w s
  | .microMbranch q w c tagged => Sys2Proof.Machine.execMicroMbranch q w c tagged s
  | .microCall q w => Sys2Proof.Machine.execMicroCall q w s
  | .microReturn q w => Sys2Proof.Machine.execMicroReturn q w s
  | .microCommit q w => Sys2Proof.Machine.execMicroCommit q w s
  | .microYield q w => Sys2Proof.Machine.execMicroYield q w s
  | .microEnd q w => Sys2Proof.Machine.execMicroEnd q w s
  | .microXjump q w => Sys2Proof.Machine.execMicroXjump q w s
  | .microXcall q w => Sys2Proof.Machine.execMicroXcall q w s
  | .microWait q w c tagged => Sys2Proof.Machine.execMicroWait q w c tagged s
  | .microDispatch q w => Sys2Proof.Machine.execMicroDispatch q w s
  | .aladaMMov o => Sys2Proof.Machine.execAladaMMov o s
  | .aladaMAdd o => Sys2Proof.Machine.execAladaMAdd o s
  | .aladaMSub o => Sys2Proof.Machine.execAladaMSub o s
  | .aladaMAnd o => Sys2Proof.Machine.execAladaMAnd o s
  | .aladaMOr o => Sys2Proof.Machine.execAladaMOr o s
  | .aladaMXor o => Sys2Proof.Machine.execAladaMXor o s
  | .aladaMShl o => Sys2Proof.Machine.execAladaMShl o s
  | .aladaMShr o => Sys2Proof.Machine.execAladaMShr o s
  | .aladaMSar o => Sys2Proof.Machine.execAladaMSar o s
  | .aladaMMul o => Sys2Proof.Machine.execAladaMMul o s
  | .aladaMMulhu o => Sys2Proof.Machine.execAladaMMulhu o s
  | .aladaMDivu o => Sys2Proof.Machine.execAladaMDivu o s
  | .aladaMRemu o => Sys2Proof.Machine.execAladaMRemu o s
  | .aladaMBeq o => Sys2Proof.Machine.execAladaMBeq o s
  | .aladaMBne o => Sys2Proof.Machine.execAladaMBne o s
  | .aladaMBltu o => Sys2Proof.Machine.execAladaMBltu o s
  | .aladaMBlt o => Sys2Proof.Machine.execAladaMBlt o s
  | .aladaMJmp o => Sys2Proof.Machine.execAladaMJmp o s
  | .aladaMCall o => Sys2Proof.Machine.execAladaMCall o s
  | .aladaMCopy o => Sys2Proof.Machine.execAladaMCopy o s
  | .aladaMFill o => Sys2Proof.Machine.execAladaMFill o s
  | .aladaMWait o => Sys2Proof.Machine.execAladaMWait o s
  | .aladaMLea o => Sys2Proof.Machine.execAladaMLea o s
  | .registerWrite p off width value => Sys2Proof.Machine.execRegisterWrite p off width value s
  | .tickCountLoRead p => Sys2Proof.Machine.execTickCountLoRead p s
  | .cfgRejectClear p value => Sys2Proof.Machine.execCfgRejectClear p value s
  | .admqEnable p => Sys2Proof.Machine.execAdmqEnable p s
  | .admqDisable p => Sys2Proof.Machine.execAdmqDisable p s
  | .admqSqDb p value => Sys2Proof.Machine.execAdmqSqDb p value s
  | .admqCqDb p value => Sys2Proof.Machine.execAdmqCqDb p value s
  | .healthEpochRead p lag => Sys2Proof.Machine.execHealthEpochRead p lag s
  | .faultInjGo p value => Sys2Proof.Machine.execFaultInjGo p value s
  | .graftStageOpen p value => Sys2Proof.Machine.execGraftStageOpen p value s
  | .graftStageData p value => Sys2Proof.Machine.execGraftStageData p value s
  | .graftStageCommit p value => Sys2Proof.Machine.execGraftStageCommit p value s
  | .graftStageAbandon p value => Sys2Proof.Machine.execGraftStageAbandon p value s
  | .graftStageDone ok => Sys2Proof.Machine.execGraftStageDone ok s
  | .specClear p => Sys2Proof.Machine.execSpecClear p s
  | .specCounterLoRead p k => Sys2Proof.Machine.execSpecCounterLoRead p k s
  | .perfClear p => Sys2Proof.Machine.execPerfClear p s
  | .perfCounterLoRead p k => Sys2Proof.Machine.execPerfCounterLoRead p k s
  | .hwdTimeLoRead p => Sys2Proof.Machine.execHwdTimeLoRead p s
  | .hwdTmpCfgWrite p value => Sys2Proof.Machine.execHwdTmpCfgWrite p value s
  | .hwdRecFlush p value => Sys2Proof.Machine.execHwdRecFlush p value s
  | .hwdRecClear p value => Sys2Proof.Machine.execHwdRecClear p value s
  | .hwdRecWindow7Read p => Sys2Proof.Machine.execHwdRecWindow7Read p s
  | .hwdSnapManual p value => Sys2Proof.Machine.execHwdSnapManual p value s
  | .hwdSnapWindow7Read p => Sys2Proof.Machine.execHwdSnapWindow7Read p s
  | .throttleClear p value => Sys2Proof.Machine.execThrottleClear p value s
  | .tetherRetrain p value => Sys2Proof.Machine.execTetherRetrain p value s
  | .tetherTickOffLoRead p => Sys2Proof.Machine.execTetherTickOffLoRead p s
  | .datuFaultClear p => Sys2Proof.Machine.execDatuFaultClear p s
  | .powerUp env => Sys2Proof.Machine.execPowerUp env s
  | .resetNFall => Sys2Proof.Machine.execResetNFall s
  | .resetNRise env => Sys2Proof.Machine.execResetNRise env s
  | .pwrFailN => Sys2Proof.Machine.execPwrFailN s
  | .brownOut => Sys2Proof.Machine.execBrownOut s
  | .supplyOutOfRange idx below => Sys2Proof.Machine.execSupplyOutOfRange idx below s
  | .eccError e => Sys2Proof.Machine.execEccError e s
  | .fatalStateDump => Sys2Proof.Machine.execFatalStateDump s
  | .pllLockLoss idx => Sys2Proof.Machine.execPllLockLoss idx s
  | .pllSwitchoverDone => Sys2Proof.Machine.execPllSwitchoverDone s
  | .lockstepMismatch => Sys2Proof.Machine.execLockstepMismatch s
  | .stewardResetDone => Sys2Proof.Machine.execStewardResetDone s
  | .vaultChannelLoss c => Sys2Proof.Machine.execVaultChannelLoss c s
  | .vaultCopyBackDone c => Sys2Proof.Machine.execVaultCopyBackDone c s
  | .drbgReseed g => Sys2Proof.Machine.execDrbgReseed g s
  | .drbgErrorState g => Sys2Proof.Machine.execDrbgErrorState g s
  | .noiseSample idx b => Sys2Proof.Machine.execNoiseSample idx b s
  | .noiseReadmit idx => Sys2Proof.Machine.execNoiseReadmit idx s
  | .aliveToggle => Sys2Proof.Machine.execAliveToggle s
  | .tickWrap tj => Sys2Proof.Machine.execTickWrap tj s
  | .recorderFlush => Sys2Proof.Machine.execRecorderFlush s
  | .floorRaise torn => Sys2Proof.Machine.execFloorRaise torn s
  | .lockoutExpiry => Sys2Proof.Machine.execLockoutExpiry s
  | .throttleUpdate mw quiet back => Sys2Proof.Machine.execThrottleUpdate mw quiet back s
  | .thermalLimitUpdate => Sys2Proof.Machine.execThermalLimitUpdate s
  | .tamperSample ch ev detail lights => Sys2Proof.Machine.execTamperSample ch ev detail lights s
  | .tamperDecision second => Sys2Proof.Machine.execTamperDecision second s
  | .supplySourceChange vdd vbak => Sys2Proof.Machine.execSupplySourceChange vdd vbak s
  | .heartwoodStateLoss => Sys2Proof.Machine.execHeartwoodStateLoss s
  | .jtagLcsCmd params u => Sys2Proof.Machine.execJtagLcsCmd params u s
  | .dbgChallenge => Sys2Proof.Machine.execDbgChallenge s
  | .dbgResponse r glitch => Sys2Proof.Machine.execDbgResponse r glitch s
  | .extest => Sys2Proof.Machine.execExtest s
  | .mgStateReport => Sys2Proof.Machine.execMgStateReport s
  | .mgHealthSummary => Sys2Proof.Machine.execMgHealthSummary s
  | .mgTj => Sys2Proof.Machine.execMgTj s
  | .mgPower => Sys2Proof.Machine.execMgPower s
  | .alertResponse => Sys2Proof.Machine.execAlertResponse s
  | .i3cIbiAck => Sys2Proof.Machine.execI3cIbiAck s
  | .configRequest p fn a => Sys2Proof.Machine.execConfigRequest p fn a s
  | .vfEnableSet p n => Sys2Proof.Machine.execVfEnableSet p n s
  | .vfEnableClear p => Sys2Proof.Machine.execVfEnableClear p s
  | .functionLevelReset inst => Sys2Proof.Machine.execFunctionLevelReset inst s
  | .busMasterDisable fn => Sys2Proof.Machine.execBusMasterDisable fn s
  | .busMasterEnable fn => Sys2Proof.Machine.execBusMasterEnable fn s
  | .vectorUnmask inst v addr data => Sys2Proof.Machine.execVectorUnmask inst v addr data s
  | .hostReadCompletion p f c => Sys2Proof.Machine.execHostReadCompletion p f c s
  | .completionTimeout p f => Sys2Proof.Machine.execCompletionTimeout p f s
  | .portReset p => Sys2Proof.Machine.execPortReset p s
  | .hostLinkTrained p speed width => Sys2Proof.Machine.execHostLinkTrained p speed width s
  | .hostLinkRetry p => Sys2Proof.Machine.execHostLinkRetry p s
  | .hostLinkDown p dl => Sys2Proof.Machine.execHostLinkDown p dl s
  | .hostLaneDegrade p speed width lane => Sys2Proof.Machine.execHostLaneDegrade p speed width lane s
  | .tetherLinkTrained l width => Sys2Proof.Machine.execTetherLinkTrained l width s
  | .tetherLaneFail l lane => Sys2Proof.Machine.execTetherLaneFail l lane s
  | .discoveryRetry l => Sys2Proof.Machine.execDiscoveryRetry l s
  | .heartbeatDue => Sys2Proof.Machine.execHeartbeatDue s
  | .tickSyncDue => Sys2Proof.Machine.execTickSyncDue s
  | .memberLostTimeout d => Sys2Proof.Machine.execMemberLostTimeout d s
  | .managerLostTimeout => Sys2Proof.Machine.execManagerLostTimeout s
  | .tetherJob m => Sys2Proof.Machine.execTetherJob m s
  | .tetherResult m => Sys2Proof.Machine.execTetherResult m s
  | .ctxMoveTransfer m => Sys2Proof.Machine.execCtxMoveTransfer m s
  | .ctxMoveAccept m => Sys2Proof.Machine.execCtxMoveAccept m s
  | .ctxMoveRefuse m => Sys2Proof.Machine.execCtxMoveRefuse m s
  | .tetherTick m err => Sys2Proof.Machine.execTetherTick m err s
  | .tetherFence m => Sys2Proof.Machine.execTetherFence m s
  | .healthCharter m => Sys2Proof.Machine.execHealthCharter m s
  | .healthJoin m => Sys2Proof.Machine.execHealthJoin m s
  | .healthAdmit m => Sys2Proof.Machine.execHealthAdmit m s
  | .healthBeat m => Sys2Proof.Machine.execHealthBeat m s
  | .healthTakeover m => Sys2Proof.Machine.execHealthTakeover m s
  | .healthLost m => Sys2Proof.Machine.execHealthLost m s
  | .healthKeyAdd m => Sys2Proof.Machine.execHealthKeyAdd m s
  | .healthKeyDrop m => Sys2Proof.Machine.execHealthKeyDrop m s
  | .healthDissolve m => Sys2Proof.Machine.execHealthDissolve m s
  | .cancelConfirm m => Sys2Proof.Machine.execCancelConfirm m s
  | .cancelWithdraw m => Sys2Proof.Machine.execCancelWithdraw m s
  | .flitReceive l flit => Sys2Proof.Machine.execFlitReceive l flit s
  | .vaultChannelReturn c => Sys2Proof.Machine.execVaultChannelReturn c s
  | .avsUpdate setpoint => Sys2Proof.Machine.execAvsUpdate setpoint s
  | .pwrFailNRelease env => Sys2Proof.Machine.execPwrFailNRelease env s
  | .xtal32Stop => Sys2Proof.Machine.execXtal32Stop s
  | .xtal32Restart => Sys2Proof.Machine.execXtal32Restart s
  | .unassignedEncoding j w => Sys2Proof.Machine.execUnassignedEncoding j w s

end Sys2Proof.Machine
end

