-- ==== Sys2Proof/Safety.lean ====
section
/-! DEFINITION. What counts as a safe run of the block, in the terms the claims use. -/

namespace Sys2Proof.Safety

open Sys2Proof.Machine

/-- The command answers a next state: neither a fault nor a refusal. -/
def Completes (o : Host.Outcome State Fault Refusal) : Prop := ∃ t, o = .next t

/-- What no command of the block breaks, whoever sends it: host memory keeps its canonical form. -/
def Sound (s : State) : Prop := Mem.wf s.hostMem

end Sys2Proof.Safety
end

