-- ==== Sys2Proof/Certificates/Slice0/Obligations.lean ====
section
/-! DEFINITION. The statements for the provers, and the words they are said in. -/

open Sys2Proof Sys2Proof.Machine

namespace Sys2Proof.Claims

/-! ### Admin commands -/

/-- The admin ring of port `p` is served and its head slot can be read; `s1` is the state with the entry `se` taken from it. -/
def Taken (s s1 : State) (p : Nat) (se : Bytes) : Prop :=
  let q := (s.port p).admq.sq
  adminReady s p = true ∧ adminMalformed se = none
  ∧ ∃ s0 ps, transRange s (p * 256) (q.base + 64 * (q.head % 2 ^ q.log2n)) 64 false 0 false = (s0, some ps)
    ∧ s1 = s0.updPort p fun x => { x with admq.sq.head := (q.head + 1) % (2 * 2 ^ q.log2n) }

/-- The command's record until its CE: the next number, its TAG, its reply, accepted for the boundary that follows. -/
def journal (s1 t : State) (p : Nat) (se : Bytes) (r : Reply) : State :=
  { t with
    adm.nextRef := s1.adm.nextRef + 1,
    adm.cmds := t.adm.cmds ++ [⟨s1.adm.nextRef, p, leAt se 2 2, r.status, r.detail, r.result, s1.tick.count + 1, r.wait⟩] }

/-- No refusal that every command shares holds (R97 items 1 and 3, R428, R431): no safe state, no power-fail stop, zero header
bytes, no transition completed or pending. -/
def Open (s : State) (se : Bytes) : Prop :=
  s.faults.safe = false ∧ s.stopped = false ∧ byteAt se 6 = 0 ∧ byteAt se 7 = 0 ∧ s.life.done = false
  ∧ s.life.pending = none

/-- TARGET names an instance that port `p` administers, of a function that is enabled and no second face (R97). -/
def OnInstance (s : State) (p : Nat) (se : Bytes) (i : Nat) : Prop :=
  targetOf se = i ∧ i < 1024 ∧ adminPort s i = p ∧ vfEnabled s i = true ∧ secondFace s i = false

/-- A reply with OK and a RESULT, whose CE is due at the next boundary. -/
def done (result : Nat) : Reply := ⟨0, 0, result, .done⟩

end Sys2Proof.Claims

open Sys2Proof.Claims

namespace Sys2Proof.Claims

/-! ### Jobs -/

/-- Does a job's row draw from the grove DRBG (R131, R139, R202, R232, R246)? -/
def draws (x : Job) : Bool :=
  match x.opcode with
  | 0x01 => !x.prepared
  | 0x09 => !x.deterministic && !x.prepared
  | 0x40 => x.generate || (x.alg == 0x10 && x.form == 1)
  | 0x50 => x.opt % 4 != 2
  | op => [0x02, 0x08, 0x10, 0x14, 0x15, 0x17, 0x18, 0x38].contains op

/-- Job `j`, of OPCODE `op`, has its slice and waits for nothing; what the row meets in the vault costs it no object; its input has
been read as `inp`, which leaves `s1`; its grove's DRBG is up where the job draws or runs masked; and what it needs of the MXU it has
collected. -/
def Ready (s s1 : State) (j op : Nat) (x : Job) (u : Upset) (inp : Bytes) : Prop :=
  s.job? j = some x ∧ runnable s x = true ∧ x.opcode = op
  ∧ ∃ s0, strikeVault s x u = (s0, false) ∧ (usesQuarantined s0 x && !destroys x) = false ∧ jobInput s0 x = (s1, some inp)
    ∧ (drbgDown s1 x && draws x) = false ∧ (drbgDown s1 x && runsMasked x) = false ∧ mxuReady s1 x inp = true

/-- `n` bytes of the DRBG, free values, and the state that has used them up. -/
def fresh (s : State) (n : Nat) : Bytes := (List.range n).map fun i => Config.freeByte (s.freeCtr + i)
def drawn (s : State) (n : Nat) : State := { s with freeCtr := s.freeCtr + n }

/-- OK with an output and changes; and any other status, with nothing written and nothing changed. -/
def ok (out : Bytes) (es : List Effect) : JobResult := ⟨0, 0, out.length, out, es⟩
def err (status detail : Nat) : JobResult := ⟨status, detail, 0, [], []⟩

/-- The command brings job `j` to its final commit with result `r` in state `s2`. -/
def Yields (c : Instr) (s s2 : State) (j : Nat) (r : JobResult) : Prop := exec c s = .next (finalCommit s2 j r)

/-- A decision taken twice (R373, R375): `r` where both evaluations agree; on disagreement the glitch alarm, and DEVICE_FAULT 0x71
with nothing written. -/
def Decides (c : Instr) (u : Upset) (s s2 : State) (j : Nat) (x : Job) (r : JobResult) : Prop :=
  (u ≠ .glitch → Yields c s s2 j r)
  ∧ (u = .glitch → Yields c s (glitchAlarm s2 x.inst x.opcode (unitId 0 x.engine)) j (err 0x0600 0x71))

/-- A failed pairwise test (R129): the record, and DEVICE_FAULT 0x22. -/
def PairFails (c : Instr) (s s2 : State) (j : Nat) (x : Job) : Prop :=
  Yields c s (emit s2 0x0201 x.inst x.alg x.pset) j (err 0x0600 0x22)

/-- Where a shared secret goes (R125, R126): after the output `pre`; or into slot 0 of a context, a new one or the one named, whose
other slots become empty and whose handle follows `pre`; with no context to be had, 0x52. -/
def delivered (s : State) (x : Job) (toCtx isNew : Bool) (pre ss : Bytes) : JobResult :=
  if toCtx then match (if isNew then newCtx s x.inst else ctxAt s x.ctxH) with
    | some c => ok (pre ++ leBytes 4 c.handle) [.putCtx { c with slots := emptySlots.set 0 (.secret ss) }]
    | none => err 0x0202 0x52
  else ok (pre ++ ss) []

/-- An attempt `k` of job `x` ends in the present slice with the outcome `accept` gives it (R140, R142, R175): it stands among the
ended ones, with no output; with `limit` rejected in a row the job ends with DEVICE_FAULT `detail`; a DRBG in its error state ends it
with 0x70. -/
def AttemptEnds (c : Instr) (s : State) (j op limit detail : Nat) (accept : Job → Nat → Bool) : Prop :=
  ∀ x k, tryDue s j = some (x, k) → x.opcode = op →
    ((drbgDown s x && runsMasked x) = true → Yields c s s j (err 0x0600 0x70))
    ∧ ((drbgDown s x && runsMasked x) = false →
      let y := x.endTry k (accept x k)
      (limit ≤ y.lowest → Yields c s (s.updJob j fun z => z.endTry k (accept x k)) j (err 0x0600 detail))
      ∧ (y.lowest < limit → ∃ t z, exec c s = .next t ∧ t.job? j = some z ∧ z.parts = y.parts ∧ z.lowest = y.lowest
        ∧ z.result = none ∧ t.store = s.store ∧ t.hostMem = s.hostMem))

/-- A new key object of the job's instance, with the ALG, PSET and POLICY given. -/
def IsNewKey (s : State) (x : Job) (alg pset : Nat) (pub priv : Option Bytes) (k : KeyObj) : Prop :=
  k.index = newKeyIndex s ∧ k.owner = x.inst ∧ k.alg = alg ∧ k.pset = pset ∧ k.pub = pub ∧ k.priv = priv
  ∧ k.quarantined = false ∧ k.doomed = false ∧ k.dormant = false

/-- The row of a job, by its OPCODE and OPT. -/
def jobRow (j : Nat) (u : Upset) (x : Job) : Option Instr :=
  match x.opcode with
  | 0x01 => some (.kemKeygen j u)
  | 0x02 => some (.kemEncaps j u)
  | 0x03 => some (.kemDecaps j u)
  | 0x08 => some (.sigKeygen j u)
  | 0x09 => some (.sigSign j u)
  | 0x0A => some (.sigVerify j u)
  | 0x10 => some (.dhKeygen j u)
  | 0x11 => some (.dhDerive j u)
  | 0x14 => some (.rsaKeygen j u)
  | 0x15 => some (.rsaSign j u)
  | 0x16 => some (.rsaVerify j u)
  | 0x17 => some (.rsaDecrypt j u)
  | 0x18 => some (.rsaEncrypt j u)
  | 0x20 => some (.digest j u)
  | 0x21 => some (.digestStart j u)
  | 0x22 => some (if bit x.opt 0 then .digestRead j u else .digestUpdate j u)
  | 0x23 => some (if bit x.opt 1 then .digestDiscard j u else .digestFinal j u)
  | 0x28 => some (if bit x.opt 0 then .macVerify j u else .mac j u)
  | 0x29 => some (.kdf j u)
  | 0x30 => some (.aeadSeal j u)
  | 0x31 => some (.aeadOpen j u)
  | 0x38 => some (.rng j u)
  | 0x40 => some (if x.generate then .keyGenerate j u else .keyImport j u)
  | 0x41 => some (.keyExport j u)
  | 0x42 => some (.keyDestroy j u)
  | 0x43 => some (.keyGetPublic j u)
  | 0x49 => some (.ctxDerive j u)
  | 0x4A => some (.ctxExport j u)
  | 0x4B => some (.ctxDestroy j u)
  | 0x50 => match x.opt % 4 with
    | 0 => some (.clientInit j u)
    | 1 => some (.serverRespond j u)
    | 2 => some (.clientFinish j u)
    | _ => none
  | _ => none

/-- No attempt of the job is at work, and its destroy waits neither for members nor for room in the revocation list. -/
def OwnTurn (s : State) (j : Nat) (x : Job) : Prop :=
  tryDue s j = none ∧ dropReplicas s j = none ∧ (x.opcode = 0x42 → revocationFull s x = false)

end Sys2Proof.Claims

/-! ### The queue and the machine as a whole -/

/-- A step takes the command at the front of the queue and is its meaning on the state with the queue's rest; with an empty
queue the block idles (log entry 1). -/
def Obligations.StepRunsFront : Prop :=
  (∀ (c : Instr) (rest : List Instr) (s : State), s.pending = c :: rest → step s = exec c { s with pending := rest })
  ∧ ∀ s : State, s.pending = [] → step s = .next s

/-- Right after reset nothing waits, TICK_COUNT reads zero and the tick has not started (R29), the device is PROVISIONED (R5),
dark, and holds no job, queue, key, context or record; host memory lists nothing.
Where the spec leaves a point open it rests on the model's choice in log entries 3 and 27. -/
def Obligations.ResetState : Prop :=
  State.reset.pending = [] ∧ tickCount State.reset = 0 ∧ State.reset.tick.running = false
  ∧ State.reset.lcs = .provisioned ∧ State.reset.pins.boot = 0 ∧ State.reset.hwd.vdd = false
  ∧ State.reset.work.jobs = [] ∧ State.reset.work.sqs = [] ∧ State.reset.work.cqs = [] ∧ State.reset.insts = []
  ∧ State.reset.store.keys = [] ∧ State.reset.store.ctxs = [] ∧ State.reset.store.streams = []
  ∧ State.reset.recd.buf = [] ∧ State.reset.hostMem = []

/-- The invariant of the next statement holds after reset.
Where the spec leaves a point open it rests on the model's choice in log entry 2. -/
def Obligations.SoundAtReset : Prop := Safety.Sound State.reset

/-- Whatever command is taken in whatever state, host memory keeps its canonical form: rising addresses and no entry equal to
what an unlisted address reads as.
Where the spec leaves a point open it rests on the model's choice in log entry 2. -/
def Obligations.SoundKept : Prop := ∀ s t : State, Safety.Sound s → step s = .next t → Safety.Sound t

/-- No command acts on the queue: a step leaves exactly the commands behind the one it took; and every command, on any operands and
in any state, completes with a next state in which the same commands wait. -/
def Obligations.StepKeepsRest : Prop :=
  (∀ s t : State, step s = .next t → t.pending = s.pending.tail)
  ∧ ∀ (c : Instr) (s : State), ∃ t, exec c s = .next t ∧ t.pending = s.pending

/-! ### Doorbells -/

/-- SQ_DOORBELL (R63): a 32-bit write at offset 8q of a function's doorbell page, while the SQ takes doorbells.  With tail
index `k`, position `p` and N entries: accepted, the tail is `p` and nothing else of the queue changes (a value equal to the
last tail changes nothing); `k ≥ N`, or `p` more than N ahead of the head, is malformed with DB_OVERRUN; `p` behind the last
tail with DB_RETREAT.  A malformed value puts the SQ in ERROR with ERR_INDEX `k`; the jobs already dispatched stay as they
are.  In every case no other queue, no job, and no byte of host memory changes.
Completes: sqDoorbell. -/
def Obligations.SqDoorbell : Prop :=
  ∀ (s : State) (face q v : Nat) (x : Sq),
    s.ringing = true → s.instLive (faceInst s face) = true → asleep s face = false → q < 512 → v < 2 ^ 32 →
    s.sq? (faceInst s face) q = some x → x.state.rings = true → x.deleting = false →
    ∃ t, exec (.sqDoorbell face (8 * q) 4 v) s = .next t
      ∧ t.sq? (faceInst s face) q = some (
          let n := 2 ^ x.log2n
          let k := v % 65536
          let p := v / 65536 % 2 * n + k
          let fail (reason : Nat) : Sq := { x with
            state := .error, reason := reason, errIndex := k, copies := [], starved := false, waited := 0 }
          if n ≤ k then fail rDbOverrun
          else if n < dist n p x.head then fail rDbOverrun
          else if dist n p x.head < dist n x.tail x.head then fail rDbRetreat
          else { x with tail := p })
      ∧ (∀ i r, (i, r) ≠ (faceInst s face, q) → t.sq? i r = s.sq? i r)
      ∧ ∃ sqs spec, t = { s with work.sqs := sqs, work.spec := spec }

/-- CQ_DOORBELL (R64): a 32-bit write at offset 8q + 4 while the CQ takes doorbells.  With head index `h` and position `p`: `h`
at or above N, or `p` further from the old head than the CQ's tail is, is malformed: the CQ enters ERROR with DB_OVERRUN and
keeps its head, its arming and everything else, and the ACTIVE and QUIESCED SQs bound to it become HELD.  Otherwise the head is
`p`, the CEs before it are released, ARM arms the CQ from the next boundary, and no SQ changes; no job, instance, or byte of host
memory changes either way.
Completes: cqDoorbell. -/
def Obligations.CqDoorbell : Prop :=
  ∀ (s : State) (face q v : Nat) (c : Cq),
    s.ringing = true → s.instLive (faceInst s face) = true → asleep s face = false → q < 512 → v < 2 ^ 32 →
    s.cq? (faceInst s face) q = some c → c.state.rings = true →
    let n := 2 ^ c.log2n
    let h := v % 65536
    let p := v / 65536 % 2 * n + h
    let bad := n ≤ h ∨ dist n c.tail c.head < dist n p c.head
    ∃ t, exec (.cqDoorbell face (8 * q + 4) 4 v) s = .next t
      ∧ t.cq? (faceInst s face) q = some (
          if bad then { c with state := .error, reason := rDbOverrun, errIndex := h }
          else if v / 2 ^ 31 % 2 = 1 then
            { c with head := p, posted := c.posted.drop (dist n p c.head), armed := true, armAt := s.tick.count + 1 }
          else { c with head := p, posted := c.posted.drop (dist n p c.head) })
      ∧ (∀ i r, (i, r) ≠ (faceInst s face, q) → t.cq? i r = s.cq? i r)
      ∧ (¬bad → t.work.sqs = s.work.sqs)
      ∧ (bad → ∀ i r, t.sq? i r = (s.sq? i r).map fun y =>
          if i = faceInst s face ∧ y.cq = q ∧ (y.state = .active ∨ y.state = .quiesced) then { y with state := .held } else y)
      ∧ ∃ sqs cqs, t = { s with work.sqs := sqs, work.cqs := cqs }

/-- The forms of a doorbell write (R61): 64 bits at 8q are the low half's write to +0 followed by the high half's to +4; any
other width or alignment is ignored and produces a DB_WIDTH record; a write to a queue that does not exist, or is NONE or in
ERROR, changes nothing.
Completes: sqDoorbell, cqDoorbell.
Where the spec leaves a point open it rests on the model's choice in log entry 54. -/
def Obligations.DoorbellForms : Prop :=
  ∀ (s : State) (face off w v : Nat),
    s.ringing = true → s.instLive (faceInst s face) = true → asleep s face = false → off < 4096 →
    (off % 8 = 0 → v < 2 ^ 64 → ∃ t, exec (.sqDoorbell face off 4 (v % 2 ^ 32)) s = .next t
        ∧ (t.ringing = true → t.instLive (faceInst t face) = true → asleep t face = false →
          exec (.sqDoorbell face off 8 v) s = exec (.cqDoorbell face (off + 4) 4 (v / 2 ^ 32)) t))
    ∧ (¬(w = 4 ∧ off % 4 = 0) → ¬(w = 8 ∧ off % 8 = 0) →
        exec (.sqDoorbell face off w v) s = .next (emit s 0x0101 (faceInst s face) (off / 8) off)
        ∧ exec (.cqDoorbell face off w v) s = .next (emit s 0x0101 (faceInst s face) (off / 8) off))
    ∧ (off % 8 = 0 → (∀ x, s.sq? (faceInst s face) (off / 8) = some x → x.state = .absent ∨ x.state = .error) →
        s.work.sqs.Pairwise (fun a b => ¬(a.inst = b.inst ∧ a.num = b.num)) →
        exec (.sqDoorbell face off 4 v) s = .next s)
    ∧ (off % 8 = 4 → (∀ c, s.cq? (faceInst s face) (off / 8) = some c → c.state = .absent ∨ c.state = .error) →
        exec (.cqDoorbell face off 4 v) s = .next s)

/-! ### Entries, dispatch and release -/

/-- SE_FETCH (R65, R66) of a slot the queue may read, not read yet and within one ring of the head: a published slot's copy is
held, `none` standing for a read that failed; an unpublished one is read only under READ_AHEAD, held unless its OPCODE is
0xFF, and a failed read of it is dropped; SPEC_READ_DROPPED counts a copy that is not kept.
Completes: seFetch.
Where the spec leaves a point open it rests on the model's choice in log entry 42. -/
def Obligations.SeFetch : Prop :=
  ∀ (s : State) (i q p : Nat) (x : Sq),
    let n := 2 ^ x.log2n
    let published := dist n p x.head < dist n x.tail x.head
    s.sq? i q = some x → mayFetch s x = true → p < 2 * n → dist n p x.head < n → (∀ c ∈ x.copies, c.pos ≠ p) →
    let read := hostRead s i (x.base + 64 * (p % n)) 64 0 (!decide published)
    (published → exec (.seFetch i q p) s =
        .next (read.1.updSq i q fun x => { x with copies := x.copies ++ [{ pos := p, bytes := read.2 }] }))
    ∧ (¬published → x.readAhead = false → exec (.seFetch i q p) s = .next s)
    ∧ (¬published → x.readAhead = true → exec (.seFetch i q p) s = .next (match read.2 with
        | some b => if byteAt b 0 = 0xFF then specInc read.1 6 1
          else read.1.updSq i q fun x => { x with copies := x.copies ++ [{ pos := p, bytes := some b }] }
        | none => specInc read.1 6 1))

/-- JOB_DISPATCH (R78, R82, R83, R86, R88): an eligible head chain, in its turn in the sprint class or among the normal queues, is
granted: the head moves past its entries, CQ_STARVED clears, a CQ credit is reserved, the grant is counted, and the job enters
with the next number; so is one whose fragment table cannot be read.  A head whose entries or fragment tables are malformed puts
its queue in ERROR with the reason found, and nothing is granted; a head whose turn has not come stands.
Completes: jobDispatch.
Where the spec leaves a point open it rests on the model's choice in log entries 42 and 54. -/
def Obligations.JobDispatch : Prop :=
  ∀ (s s1 : State) (i q cy : Nat) (x : Sq), s.sq? i q = some x → x.inst = i → x.num = q → mayFetch s x = true →
    (∀ r k, readHead s x = (s1, .bad r k) → exec (.jobDispatch i q cy) s = .next (queueError s1 i q r k))
    ∧ (readHead s x = (s1, .empty) ∨ readHead s x = (s1, .partly) → exec (.jobDispatch i q cy) s = .next s1)
    ∧ ∀ ses pre, readHead s x = (s1, .chain ses pre) →
      (eligible s1 x = none ∨ eligible s1 x = some true ∧ sprintPick s1 ≠ some (i, q)
          ∨ eligible s1 x = some false ∧ eligibleSqs s1 true ≠ [] → exec (.jobDispatch i q cy) s = .next s1)
      ∧ ∀ u s2 o,
        (eligible s1 x = some true ∧ sprintPick s1 = some (i, q) ∧ u = s1)
          ∨ (eligible s1 x = some false ∧ eligibleSqs s1 true = [] ∧ u = newRounds s1 i ∧ normalTurn u i q = true) →
        fragCheck u (jobOfChain i q x.cq ses) = (s2, o) →
        (∀ r, o = .stop r → exec (.jobDispatch i q cy) s = .next (queueError s2 i q r (x.head % 2 ^ x.log2n)))
        ∧ (∀ c, (∀ r, o ≠ .stop r) → s2.sq? i q = some x → s2.cq? i x.cq = some c →
          ∃ t, exec (.jobDispatch i q cy) s = .next t
            ∧ t.work.nextJob = s2.work.nextJob + 1
            ∧ t.work.grants = s2.work.grants + 1
            ∧ (∃ j, j ∈ t.work.jobs ∧ j.id = s2.work.nextJob ∧ j.inst = i ∧ j.sq = q ∧ j.cq = x.cq)
            ∧ (∃ y, t.sq? i q = some y ∧ y.head = (x.head + ses.length) % (2 * 2 ^ x.log2n) ∧ y.starved = false)
            ∧ ∃ d, t.cq? i x.cq = some d ∧ d.reserved = c.reserved + 1)

/-- JOB_RELEASE (R45, R80, R85): a job that is not due posts nothing and changes nothing; one that is due leaves the device with
its engine state, and its CE is posted, the job standing among those posted at this boundary, or is held in a CQ that a failed
write has put in ERROR.
PENDING_TIMEOUT (R273): a job still pending 4,096 t after its dispatch ends with DEPENDENCY_FAILED, DETAIL 0x02, at this
boundary, and has written nothing; before that, and once it is bound, nothing changes.
CQ_INTERRUPT (R78, R90, R94) of a data-path CQ, or of the admin CQ of a port: armed, with an unreleased CE and COAL_COUNT of them
or COAL_TICKS passed or a sprint CE posted at this boundary, or with the interrupt of a queue error due, it sends the vector of
the CQ and disarms; else it sends nothing.
CQ_STARVED (R83): an SQ whose head has waited only for a credit through 1,000 boundaries sets CQ_STARVED and produces its
record; below 1,000 nothing happens.
Completes: pendingTimeout, jobRelease, cqInterrupt, cqStarved.
Where the spec leaves a point open it rests on the model's choice in log entry 31. -/
def Obligations.ReleasesAndQueueEvents : Prop :=
  (∀ (s : State) (j : Nat) (x : Job), s.job? j = some x → s.service = true →
      (due x s.tick.count = false → exec (.jobRelease j) s = .next s)
      ∧ (due x s.tick.count = true → ∃ t, exec (.jobRelease j) s = .next t ∧ t.job? j = none
          ∧ (x.committed = true → (∀ y ∈ s.work.unposted, y.id ≠ j) → ∀ r, x.result = some r →
            (∃ d ∈ t.work.done, d.id = j ∧ d.inst = x.inst ∧ d.tag = x.tag ∧ d.status = r.status
              ∧ d.postedAt = s.tick.count)
            ∨ ∃ c h, t.cq? x.inst x.cq = some c ∧ h ∈ c.heldCes ∧ h.id = j))
      ∧ (x.dep ≠ .pending ∨ s.tick.count < x.dispatched + 4096 → exec (.pendingTimeout j) s = .next s)
      ∧ (x.dep = .pending → x.endedAt = none → x.dispatched + 4096 ≤ s.tick.count →
          ∃ t, exec (.pendingTimeout j) s = .next t ∧ t.hostMem = s.hostMem ∧ t.store = s.store
            ∧ ∃ y, t.job? j = some y ∧ y.endedAt = some s.tick.count
              ∧ y.result = some { status := 0x0401, detail := 0x02, len := 0, out := [], effects := [] }))
  ∧ (∀ (s : State) (i q : Nat), s.service = true →
      let dueNow (c : Cq) : Prop :=
        (c.errorIntr = true ∧ c.errorAt ≤ s.tick.count)
        ∨ (c.armed = true ∧ c.armAt ≤ s.tick.count ∧ ∃ oldest, c.posted.head? = some oldest
          ∧ (c.coalCount ≤ c.posted.length ∨ max oldest c.armAt + c.coalTicks ≤ s.tick.count
            ∨ c.sprintAt = some s.tick.count))
      (∀ c, q < 512 → s.cq? i q = some c →
        (dueNow c → exec (.cqInterrupt i q) s = .next ((sendVector s i c.vector).updCq i q fun c =>
          { c with armed := false, errorIntr := false }))
        ∧ (¬dueNow c → exec (.cqInterrupt i q) s = .next s))
      ∧ (512 ≤ q → i < 1024 → let a := (s.port (i / 256)).admq
        (a.running = true → dueNow a.cq → exec (.cqInterrupt i q) s = .next
          ((sendVector s (i / 256 * 256) a.vector).updPort (i / 256) fun x =>
            { x with admq.cq.armed := false, admq.cq.errorIntr := false }))
        ∧ (a.running = false ∨ ¬dueNow a.cq → exec (.cqInterrupt i q) s = .next s)))
  ∧ ∀ (s : State) (i q : Nat) (x : Sq), s.service = true → s.sq? i q = some x → x.starved = false →
      (1000 ≤ x.waited →
        exec (.cqStarved i q) s = .next (emit (s.updSq i q fun x => { x with starved := true }) 0x0103 i q 0))
      ∧ (x.waited < 1000 → exec (.cqStarved i q) s = .next s)

/-- The release boundary (R45 to R48): a budget job with budget B and start boundary S is released at S + B·(1 + k) for the
smallest k that puts this at or after the boundary C that follows its final commit, and a signing job of ML-DSA likewise by
its quantum; of a job that lost `r` ticks of its work to fail-over the same is asked of C − r, and when the result T is passed,
it is released at C up to T + 2 and by C itself beyond; a public job, and one ended before its start boundary, is released at
C.  Before its release JOB_RELEASE changes nothing; from then on the job leaves the device.
Completes: jobRelease. -/
def Obligations.ReleaseBoundary : Prop :=
  ∀ (s : State) (j c : Nat) (x : Job),
    s.service = true → s.job? j = some x → x.result.isSome = true → x.origin = none → x.confirmed = true →
    x.endedAt = none → x.commitTick = some c → 0 < x.budget →
    let least (S C k : Nat) : Prop := C ≤ S + x.budget * (1 + k) ∧ ∀ i, i < k → S + x.budget * (1 + i) < C
    let releasedAt (T : Nat) : Prop :=
      (s.tick.count < T → exec (.jobRelease j) s = .next s)
      ∧ (T ≤ s.tick.count → ∃ t, exec (.jobRelease j) s = .next t ∧ t.job? j = none)
    let quantised := x.opcode = 0x09 ∨ x.opcode ∈ [0x01, 0x02, 0x03, 0x08, 0x10, 0x11, 0x14, 0x15, 0x17, 0x28, 0x29, 0x30, 0x31,
      0x40, 0x41, 0x49, 0x4A, 0x50, 0x60]
    (∀ S, x.start = some S → quantised →
      (x.lostTicks = [] → ∀ k, least S (c + 1) k → releasedAt (S + x.budget * (1 + k)))
      ∧ (∀ k, least S (c + 1 - x.lostTicks.length) k →
        let T := S + x.budget * (1 + k)
        (c + 1 ≤ T → releasedAt T)
        ∧ (T < c + 1 → c + 1 ≤ T + 2 → releasedAt (c + 1))
        ∧ (T + 2 < c + 1 → ∀ k', least S (c + 1) k' → releasedAt (S + x.budget * (1 + k')))))
    ∧ (∀ S, x.start = some S → x.opcode ∈ [0x0A, 0x16, 0x18, 0x20, 0x21, 0x22, 0x23, 0x38, 0x42, 0x43, 0x4B] →
      releasedAt (c + 1))
    ∧ (x.start = none → releasedAt (c + 1))

/-- SLICE_OVERRUN (R35): of a job whose slice runs, SLICE_OVERRUN is raised; the first overrun from a commit point abandons the
segment and the job runs again from its last commit point, the second ends the job with DEVICE_FAULT, DETAIL 0xF0; of a job
without a slice nothing happens.
VECTOR_POWER_DOWN (R39): a unit that has idled through two ticks is off; any other keeps its state; nothing else changes.
Completes: sliceOverrun, vectorPowerDown. -/
def Obligations.SliceLimits : Prop :=
  (∀ (s : State) (j : Nat) (x : Job), s.job? j = some x →
      (runnable s x = true → x.overruns = 0 → exec (.sliceOverrun j) s =
          .next ((abandonSlice (raiseSrc s 0x1B 0 0) j).updJob j fun y => { y with overruns := y.overruns + 1 }))
      ∧ (runnable s x = true → 0 < x.overruns → exec (.sliceOverrun j) s = .next (finalCommit (raiseSrc s 0x1B 0 0) j
          { status := 0x0600, detail := 0xF0, len := 0, out := [], effects := [] }))
      ∧ (runnable s x = false → exec (.sliceOverrun j) s = .next s))
  ∧ (∀ (s : State) (k : Nat) (e : Engine), s.engines[k]? = some e →
      ∃ t, exec (.vectorPowerDown k) s = .next t ∧ (∃ es, t = { s with engines := es })
        ∧ t.engines[k]? = some { e with
            svOn := if 3 ≤ e.svIdle then false else e.svOn, lvOn := if 3 ≤ e.lvIdle then false else e.lvOn }
        ∧ ∀ i, i ≠ k → t.engines[i]? = s.engines[i]?)

/-- TICK_BOUNDARY (R29, R32): before tick start nothing happens; in power-fail stop only the count moves on; while the engine
clock is switched the count moves on once and the boundary's actions wait for PLL_SWITCHOVER_DONE; else the commits of the tick
are counted, the results of jobs of other members go out, the count moves on, and the actions of the boundary are performed.
TICK_WRAP (R29): it is the boundary after TICK_COUNT 0xFFFF_FFFF_FFFF: the count wraps to zero and WRAPPED is set, in power-fail
stop with nothing done beside; at any other count the event is none.
Completes: tickBoundary, tickWrap.
Where the spec leaves a point open it rests on the model's choice in log entries 31 and 42. -/
def Obligations.TickBoundaries : Prop :=
  (∀ (s : State) (tj : Int),
      let counted := sendResults (countCommits s)
      (s.tick.running = false → exec (.tickBoundary tj) s = .next s)
      ∧ (s.tick.running = true → s.stopped = true → ∃ t, exec (.tickBoundary tj) s = .next t
          ∧ t.tick.count = s.tick.count + 1 ∧ t.work = s.work ∧ t.hostMem = s.hostMem)
      ∧ (s.tick.running = true → s.stopped = false → s.pllGap = some false → ∃ t, exec (.tickBoundary tj) s = .next t
          ∧ t.tick.count = s.tick.count + 1 ∧ t.pllGap = some true ∧ t.work = s.work ∧ t.hostMem = s.hostMem
          ∧ exec (.tickBoundary tj) t = .next t)
      ∧ (s.tick.running = true → s.stopped = false → s.pllGap = none → ∃ u, u.tick.count = s.tick.count + 1
          ∧ u.work = counted.work ∧ u.store = counted.store ∧ u.hostMem = s.hostMem ∧ u.adm = s.adm ∧ u.insts = s.insts
          ∧ exec (.tickBoundary tj) s = .next (boundaryActions u tj 0)))
  ∧ ∀ (s : State) (tj : Int),
      (tickCount s = 2 ^ 48 - 1 → s.tick.running = true →
        (s.stopped = true → ∃ t, exec (.tickWrap tj) s = .next t ∧ tickCount t = 0 ∧ t.tick.wrapped = true ∧ t.work = s.work)
        ∧ (s.stopped = false → s.pllGap = none → ∃ u, tickCount u = 0 ∧ u.tick.wrapped = true
          ∧ exec (.tickWrap tj) s = .next (boundaryActions u tj 0)))
      ∧ (tickCount s ≠ 2 ^ 48 - 1 → exec (.tickWrap tj) s = .next s)

/-! ### Admin commands -/

/-- The refusals every instance command shares, in their order (R97): in safe state or power-fail stop STATE_REJECTED 0x30; then
nonzero header bytes, INPUT_RANGE 0x06; then a TARGET beyond 10 bits, INPUT_RANGE 0x04; then an instance of another AF,
STATE_REJECTED 0x01.  A refused command changes nothing but its ring and its record.  Here for INSTANCE_GET, SQ_CREATE,
DATU_INVALIDATE and INSTANCE_RESUME.
Where the spec leaves a point open it rests on the model's choice in log entry 37. -/
def Obligations.AdminRefusals : Prop :=
  ∀ (s s1 : State) (p : Nat) (se : Bytes), Taken s s1 p se →
    let refusal : Option Reply :=
      if s1.faults.safe ∨ s1.stopped then some ⟨0x0701, 0x30, 0, .done⟩
      else if byteAt se 6 ≠ 0 ∨ byteAt se 7 ≠ 0 then some ⟨0x0303, 0x06, 0, .done⟩
      else if 1024 ≤ targetOf se then some ⟨0x0303, 0x04, 0, .done⟩
      else if adminPort s1 (targetOf se) ≠ p then some ⟨0x0701, 0x01, 0, .done⟩
      else none
    ∀ r, refusal = some r →
      (byteAt se 0 = 0x8E → exec (.instanceGet p se) s = .next (journal s1 s1 p se r))
      ∧ (byteAt se 0 = 0x80 → exec (.sqCreate p se) s = .next (journal s1 s1 p se r))
      ∧ (byteAt se 0 = 0x91 → exec (.datuInvalidate p se) s = .next (journal s1 s1 p se r))
      ∧ (byteAt se 0 = 0x8A → exec (.instanceResume p se) s = .next (journal s1 s1 p se r))

/-- SQ_CREATE and CQ_CREATE (R100, R101, R56): with room under QUEUE_LIMIT and the device total and parameters in range, the
queue of the lowest free number comes to be, empty, at its base; a base that is not 4 KiB aligned puts it in ERROR with
RING_ALIGN; RESULT is the number.  READ_AHEAD pre-fills its slots.
Completes: sqCreate, cqCreate. -/
def Obligations.QueueCreate : Prop :=
  ∀ (s s1 : State) (p i : Nat) (se : Bytes) (x : Inst),
    Taken s s1 p se → Open s1 se → OnInstance s1 p se i → s1.inst? i = some x → x.state ≠ .absent →
    (byteAt se 0 = 0x80 → (s1.work.sqs.filter (·.inst == i)).length < x.queueLimit → s1.work.sqs.length < 4096 →
      scanParams se [(8, 8, false), (16, 1, decide (byteAt se 16 < 4) || decide (16 < byteAt se 16)),
        (17, 1, decide (16 < byteAt se 17)), (18, 2, (s1.cq? i (leAt se 18 2)).isNone),
        (20, 1, decide (1 < byteAt se 20))] = none →
      ∀ q, lowestFree 512 (fun n => (s1.sq? i n).isSome) = some q → ∃ y, y.inst = i ∧ y.num = q ∧ y.base = leAt se 8 8
        ∧ y.log2n = byteAt se 16 ∧ y.weight = max 1 (byteAt se 17) ∧ y.cq = leAt se 18 2 ∧ y.head = 0 ∧ y.tail = 0
        ∧ y.readAhead = bit (byteAt se 20) 0 ∧ (y.state = .error ↔ leAt se 8 8 % 4096 ≠ 0)
        ∧ exec (.sqCreate p se) s = .next (journal s1 (prefill { s1 with work.sqs := s1.work.sqs ++ [y] } i q) p se (done q)))
    ∧ (byteAt se 0 = 0x82 → (s1.work.cqs.filter (·.inst == i)).length < x.queueLimit → s1.work.cqs.length < 4096 →
      scanParams se [(8, 8, false), (16, 1, decide (byteAt se 16 < 4) || decide (16 < byteAt se 16)),
        (17, 1, byteAt se 17 == 0), (18, 1, false), (20, 2, decide ((if i % 256 = 0 then 2047 else 63) < leAt se 20 2))] = none →
      ∀ q, lowestFree 512 (fun n => (s1.cq? i n).isSome) = some q → ∃ y, y.inst = i ∧ y.num = q ∧ y.base = leAt se 8 8
        ∧ y.log2n = byteAt se 16 ∧ y.coalCount = byteAt se 17 ∧ y.coalTicks = byteAt se 18 ∧ y.vector = leAt se 20 2
        ∧ y.head = 0 ∧ y.tail = 0 ∧ y.armed = false ∧ (y.state = .error ↔ leAt se 8 8 % 4096 ≠ 0)
        ∧ exec (.cqCreate p se) s = .next (journal s1 { s1 with work.cqs := s1.work.cqs ++ [y] } p se (done q)))

/-- The other queue commands on a queue that stands (R79, R101): SQ_DELETE stops dispatch, discards what is published and
waits for the last CE; CQ_DELETE with no SQ bound removes the CQ; the restarts of a queue in ERROR leave it empty at, or with
its head at, the position named, out of ERROR, but one whose base is not aligned stays as it is; SQ_MODIFY and CQ_MODIFY take
effect at the next boundary.
Completes: sqDelete, cqDelete, sqRestart, cqRestart, cqModify, sqModify.
Where the spec leaves a point open it rests on the model's choice in log entry 37. -/
def Obligations.QueueCommands : Prop :=
  ∀ (s s1 : State) (p i : Nat) (se : Bytes),
    Taken s s1 p se → Open s1 se → OnInstance s1 p se i → liveState (instState s1 i) = true →
    let q := leAt se 16 2
    (∀ x, s1.sq? i q = some x →
      (byteAt se 0 = 0x81 → scanParams se [(16, 2, false)] = none →
        ∃ t, exec (.sqDelete p se) s = .next t
          ∧ t.sq? i q = some { x with deleting := true, tail := x.head, copies := [] }
          ∧ t.work.jobs = s1.work.jobs ∧ t.work.cqs = s1.work.cqs ∧ t.hostMem = s1.hostMem
          ∧ t.adm.cmds = (journal s1 s1 p se ⟨0, 0, 0, .sqDrain i q⟩).adm.cmds)
      ∧ (byteAt se 0 = 0x87 → scanParams se [(16, 2, false), (18, 1, byteAt se 18 == 0 || decide (16 < byteAt se 18))] = none →
        exec (.sqModify p se) s = .next (journal s1
          { s1 with adm.changes := s1.adm.changes ++ [.sqWeight i q (byteAt se 18)] } p se (done 0)))
      ∧ (byteAt se 0 = 0x84 → x.state = .error → x.base % 4096 ≠ 0 →
        scanParams se [(16, 2, false), (18, 2, decide (2 ^ x.log2n ≤ leAt se 18 2)), (20, 1, decide (1 < byteAt se 20))] = none →
        exec (.sqRestart p se) s = .next (journal s1 s1 p se (done 0)))
      ∧ (byteAt se 0 = 0x84 → x.state = .error → x.base % 4096 = 0 → x.readAhead = false →
        scanParams se [(16, 2, false), (18, 2, decide (2 ^ x.log2n ≤ leAt se 18 2)), (20, 1, decide (1 < byteAt se 20))] = none →
        ∃ t, exec (.sqRestart p se) s = .next t
          ∧ t.adm.cmds = (journal s1 s1 p se (done 0)).adm.cmds ∧ t.work.jobs = s1.work.jobs ∧ t.hostMem = s1.hostMem
          ∧ ∃ y, t.sq? i q = some y ∧ y.state ≠ .error ∧ y.head = y.tail ∧ y.copies = []
            ∧ y.head = byteAt se 20 % 2 * 2 ^ x.log2n + leAt se 18 2))
    ∧ ∀ c, s1.cq? i q = some c →
      (byteAt se 0 = 0x83 → (∀ x ∈ s1.work.sqs, x.inst = i → x.cq ≠ q) → scanParams se [(16, 2, false)] = none →
        ∃ t, exec (.cqDelete p se) s = .next t ∧ t.cq? i q = none ∧ t.work.sqs = s1.work.sqs
          ∧ (∀ j r, (j, r) ≠ (i, q) → t.cq? j r = s1.cq? j r) ∧ t.adm.cmds = (journal s1 s1 p se (done 0)).adm.cmds)
      ∧ (byteAt se 0 = 0x86 → scanParams se [(16, 2, false), (18, 1, byteAt se 18 == 0), (19, 1, false)] = none →
        exec (.cqModify p se) s = .next (journal s1
          { s1 with adm.changes := s1.adm.changes ++ [.cqCoal i q (byteAt se 18) (byteAt se 19)] } p se (done 0)))
      ∧ (byteAt se 0 = 0x85 → c.state = .error → c.base % 4096 = 0 →
        scanParams se [(16, 2, false), (18, 2, badHead se c), (20, 1, decide (1 < byteAt se 20))] = none →
        ∃ t, exec (.cqRestart p se) s = .next t ∧ t.adm.cmds = (journal s1 s1 p se (done 0)).adm.cmds
          ∧ ∃ d, t.cq? i q = some d ∧ d.state ≠ .error ∧ d.head = byteAt se 20 % 2 * 2 ^ c.log2n + leAt se 18 2
            ∧ d.tail = c.tail ∧ d.heldCes = c.heldCes)

/-- INSTANCE_CREATE (R102, R103, R106): with its parameters in range and its quotas within the device's, an enabled TF that was
NONE is ACTIVE with the resources given, a full sprint bucket and its DATU OFF.
Completes: instanceCreate. -/
def Obligations.InstanceCreate : Prop :=
  ∀ (s s1 : State) (p i : Nat) (se : Bytes),
    Taken s s1 p se → Open s1 se → OnInstance s1 p se i → i % 256 ≠ 0 → instState s1 i = .absent → byteAt se 0 = 0x88 →
    ((s1.insts.filter (·.id != i)).map (·.ctxQuota)).sum + leAt se 24 4 ≤ 262144 →
    ((s1.insts.filter (·.id != i)).map (·.keyQuota)).sum + leAt se 28 4 ≤ 131072 →
    scanParams se (resourceFields se true) = none →
    ∃ t x, exec (.instanceCreate p se) s = .next t ∧ t.inst? i = some x ∧ x.state = .active ∧ x.mode = .off
      ∧ x.engineWeight = leAt se 16 2 ∧ x.inflightLimit = leAt se 18 2 ∧ x.queueLimit = leAt se 20 2
      ∧ x.sprintRate = byteAt se 22 ∧ x.tokens = 4 * byteAt se 22 ∧ x.ctxQuota = leAt se 24 4 ∧ x.keyQuota = leAt se 28 4
      ∧ (∀ k, k ≠ i → t.inst? k = s1.inst? k) ∧ t.work = s1.work ∧ t.store = s1.store ∧ t.hostMem = s1.hostMem
      ∧ t.adm.cmds = (journal s1 s1 p se (done 0)).adm.cmds

/-- The commands that stop an instance and start it again (R113 to R118), on an instance that stands and is no AF where that is
asked: INSTANCE_QUIESCE waits for step 3 of the next boundary and for the last CE, or completes at once with QUIESCED on a
QUIESCED instance; INSTANCE_RESUME of a QUIESCED one takes effect at the next boundary; INSTANCE_RESET leaves it ACTIVE
without queues, streams or cached translations, its keys and contexts as they were, the SQ_DELETE commands of its queues being
complete; INSTANCE_REMOVE returns it to NONE with quotas of 0, its contexts gone and its keys gone or, while jobs still use them,
doomed; it completes at once, or when the contexts that other devices hold have come and gone.
Completes: instanceQuiesce, instanceResume, instanceReset, instanceRemove.
Where the spec leaves a point open it rests on the model's choice in log entry 37. -/
def Obligations.InstanceStops : Prop :=
  ∀ (s s1 : State) (p i : Nat) (se : Bytes) (x : Inst),
    Taken s s1 p se → Open s1 se → OnInstance s1 p se i → s1.inst? i = some x →
    (byteAt se 0 = 0x89 → (x.state = .active ∨ x.state = .quiescing) → scanParams se [(8, 1, decide (1 < byteAt se 8))] = none →
      exec (.instanceQuiesce p se) s = .next (journal s1
        { s1 with adm.aborts := s1.adm.aborts ++ [.quiesce s1.adm.nextRef i (byteAt se 8 == 1)] } p se
        ⟨0x0501, 0, 0, .quiesce i⟩))
    ∧ (byteAt se 0 = 0x89 → x.state = .quiesced → scanParams se [(8, 1, decide (1 < byteAt se 8))] = none →
      exec (.instanceQuiesce p se) s = .next (journal s1 s1 p se ⟨0x0501, 0, 0, .done⟩))
    ∧ (byteAt se 0 = 0x8A → x.state = .quiesced → scanParams se [] = none →
      exec (.instanceResume p se) s = .next (journal s1
        (s1.updInst i fun y => { y with resumeAt := some (s1.tick.count + 1) }) p se (done 0)))
    ∧ (byteAt se 0 = 0x8B → x.state = .quiesced → i % 256 ≠ 0 → scanParams se [] = none →
      ∃ t, exec (.instanceReset p se) s = .next t ∧ t.adm.cmds = (journal s1 (finishDeletes s1 i) p se (done 0)).adm.cmds
        ∧ (∀ y ∈ t.work.sqs, y.inst ≠ i) ∧ (∀ y ∈ t.work.cqs, y.inst ≠ i) ∧ (∀ y ∈ t.tlb, y.inst ≠ i)
        ∧ (∀ y ∈ t.store.streams, y.owner ≠ i) ∧ t.store.keys = s1.store.keys ∧ t.store.ctxs = s1.store.ctxs
        ∧ ∃ y, t.inst? i = some y ∧ y.state = .active)
    ∧ (byteAt se 0 = 0x8C → x.state = .quiesced → i % 256 ≠ 0 → scanParams se [] = none →
      ∃ t, exec (.instanceRemove p se) s = .next t
        ∧ t.adm.cmds = (journal s1 (finishDeletes s1 i) p se
            (if farContexts s1 i = [] then done 0 else ⟨0, 0, 0, .ctxs i⟩)).adm.cmds
        ∧ (∀ y ∈ t.work.sqs, y.inst ≠ i) ∧ (∀ y ∈ t.work.cqs, y.inst ≠ i)
        ∧ (∀ k ∈ t.store.keys, k.owner = i → k.doomed = true) ∧ (∀ c ∈ t.store.ctxs, c.owner = i → c.tenant ≠ none)
        ∧ ∃ y, t.inst? i = some y ∧ y.state = .absent ∧ y.ctxQuota = 0 ∧ y.keyQuota = 0 ∧ y.mode = .off)

/-- What an instance has and how it is seen (R104, R105, R109, R108): INSTANCE_SET_RESOURCES sets the masked quotas and limits
at once and schedules the weights for the next boundary; INSTANCE_GET answers with 48 bytes, or OUTPUT_TOO_SMALL with the
length it needs; DATU_SET_ROOT, while the instance has no queue, sets the root, the width and the mode and drops its cached
translations; DATU_INVALIDATE of PAGES 0 drops every one of them.
Completes: instanceSetResources, instanceGet, datuSetRoot, datuInvalidate. -/
def Obligations.InstanceResources : Prop :=
  ∀ (s s1 : State) (p i : Nat) (se : Bytes) (x : Inst),
    Taken s s1 p se → Open s1 se → OnInstance s1 p se i → s1.inst? i = some x → x.state ≠ .absent →
    (byteAt se 0 = 0x8D → quotaChecks s1 se i false = [(false, aState 0x23), (false, aState 0x22)] →
      scanParams se (resourceFields se false) = none →
      ∃ t y, exec (.instanceSetResources p se) s = .next t ∧ t.inst? i = some y
        ∧ y.queueLimit = (if bit (byteAt se 8) 2 then leAt se 20 2 else x.queueLimit)
        ∧ y.ctxQuota = (if bit (byteAt se 8) 4 then leAt se 24 4 else x.ctxQuota)
        ∧ y.keyQuota = (if bit (byteAt se 8) 5 then leAt se 28 4 else x.keyQuota)
        ∧ y.engineWeight = x.engineWeight ∧ y.inflightLimit = x.inflightLimit ∧ y.sprintRate = x.sprintRate
        ∧ (∃ w l r, t.adm.changes = s1.adm.changes ++ [.sched i w l r]) ∧ t.work = s1.work
        ∧ t.adm.cmds = (journal s1 s1 p se (done 0)).adm.cmds)
    ∧ (byteAt se 0 = 0x8E → scanParams se [(8, 12, false)] = none → leAt se 16 4 < 48 →
      exec (.instanceGet p se) s = .next (journal s1 s1 p se ⟨0x0104, 0, 48, .done⟩))
    ∧ (byteAt se 0 = 0x8E → scanParams se [(8, 12, false)] = none → 48 ≤ leAt se 16 4 →
      ∀ s2, hostWrite s1 (p * 256) (leAt se 8 8) (instBytes s1 x) 6 = (s2, true) →
      exec (.instanceGet p se) s = .next (journal s1 s2 p se (done 48)))
    ∧ (byteAt se 0 = 0x90 → (∀ q ∈ s1.work.sqs, q.inst ≠ i) → (∀ q ∈ s1.work.cqs, q.inst ≠ i) →
      scanParams se [(8, 8, false), (16, 1, decide (byteAt se 16 < 39) || decide (48 < byteAt se 16)),
        (17, 1, decide (2 < byteAt se 17) || (byteAt se 17 == 2 && i % 256 != 0))] = none →
      ∃ t, exec (.datuSetRoot p se) s = .next t ∧ (∀ l ∈ t.tlb, l.inst ≠ i)
        ∧ t.inst? i = some { x with
            root := leAt se 8 8, width := byteAt se 16,
            mode := if byteAt se 17 = 0 then .off else if byteAt se 17 = 1 then .translate else .bypass }
        ∧ t.adm.cmds = (journal s1 s1 p se (done 0)).adm.cmds)
    ∧ (byteAt se 0 = 0x91 → leAt se 16 4 = 0 → scanParams se [(8, 8, leAt se 8 8 % 4096 != 0), (16, 4, false)] = none →
      ∃ t, exec (.datuInvalidate p se) s = .next t ∧ (∀ l ∈ t.tlb, l.inst ≠ i)
        ∧ (∀ l ∈ s1.tlb, l.inst ≠ i → l ∈ t.tlb) ∧ t.hostMem = s1.hostMem
        ∧ t.adm.cmds = (journal s1 s1 p se (done 0)).adm.cmds)

/-- The dirty log (R110 to R112) and JOB_ABORT (R116): START on an instance that is not logging opens the log into A from the
next boundary; STOP closes an open log and reports it, after the harvests accepted before it; HARVEST changes the bitmaps over
at the next boundary, and JOB_ABORT acts at step 3 of it, both completing there.
SQ_DELETE_DRAINED and QUIESCE_DRAINED (R101, R114): once none of its dispatched jobs is left, an SQ that is being deleted is
gone, and an instance that was QUIESCING is QUIESCED; while one is left, the queue and the state stand.
Completes: sqDeleteDrained, quiesceDrained, dirtyLogStart, dirtyLogStop, dirtyLogHarvest, jobAbort.
Where the spec leaves a point open it rests on the model's choice in log entry 37. -/
def Obligations.LogAbortAndDrain : Prop :=
  (∀ (s s1 : State) (p i : Nat) (se : Bytes) (x : Inst),
      Taken s s1 p se → Open s1 se → OnInstance s1 p se i → s1.inst? i = some x → x.state ≠ .absent →
      (byteAt se 0 = 0x94 → x.logging = false →
        scanParams se [(8, 8, leAt se 8 8 % 8 != 0), (16, 8, leAt se 16 8 % 8 != 0), (24, 8, leAt se 24 8 % 4096 != 0),
          (32, 4, decide (leAt se 32 4 < 64) || decide (268435456 < leAt se 32 4) || leAt se 32 4 % 64 != 0)] = none →
        ∃ t, exec (.dirtyLogStart p se) s = .next t
          ∧ t.inst? i = some { x with
              dirtyLost := false,
              dirty := some ⟨true, false, leAt se 8 8, leAt se 16 8, leAt se 24 8, leAt se 32 4, false, false, p * 256,
                s1.tick.count + 1⟩ }
          ∧ t.adm.cmds = (journal s1 s1 p se (done 0)).adm.cmds ∧ t.hostMem = s1.hostMem)
      ∧ (∀ d, x.dirty = some d → byteAt se 0 = 0x95 → scanParams se [] = none →
        (∀ c ∈ s1.adm.changes, ∀ ref, c ≠ .harvest ref i) →
        ∃ t, exec (.dirtyLogStop p se) s = .next t ∧ t.inst? i = some { x with dirty := none }
          ∧ t.adm.cmds = (journal s1 s1 p se (done
              (b2n d.onB + 2 * b2n (d.lost || x.dirtyLost) + 4 * b2n d.outOfRange))).adm.cmds)
      ∧ (x.dirty ≠ none → byteAt se 0 = 0x95 → scanParams se [] = none → ∀ y, (harvestNow s1 i).inst? i = some y →
        exec (.dirtyLogStop p se) s = .next (journal s1
          ((harvestNow s1 i).updInst i fun z => { z with dirty := none }) p se (done (logResult y))))
      ∧ (x.dirty ≠ none → byteAt se 0 = 0x96 → scanParams se [] = none →
        exec (.dirtyLogHarvest p se) s = .next (journal s1
          { s1 with adm.changes := s1.adm.changes ++ [.harvest s1.adm.nextRef i] } p se ⟨0, 0, 0, .later⟩))
      ∧ (∀ q, s1.sq? i (leAt se 8 2) = some q → byteAt se 0 = 0x98 →
        scanParams se [(8, 2, false), (10, 2, false), (12, 1, decide (1 < byteAt se 12))] = none →
        exec (.jobAbort p se) s = .next (journal s1 { s1 with adm.aborts := s1.adm.aborts ++
          [.jobs s1.adm.nextRef i (leAt se 8 2) (leAt se 10 2) (byteAt se 12 == 1)] } p se ⟨0, 0, 0, .later⟩)))
  ∧ (∀ (s : State),
      (∀ i q x, s.tick.running = true → s.sq? i q = some x → x.deleting = true →
        (∃ c ∈ s.adm.cmds, c.wait = .sqDrain i q ∧ c.accepted ≤ s.tick.count) → (∀ j ∈ s.flying, ¬(j.inst = i ∧ j.sq = q)) →
        ∃ t, exec (.sqDeleteDrained i q) s = .next t ∧ t.sq? i q = none)
      ∧ (∀ i q x j, s.tick.running = true → s.sq? i q = some x → j ∈ s.flying → j.inst = i → j.sq = q →
        ∃ t, exec (.sqDeleteDrained i q) s = .next t ∧ t.sq? i q = some x)
      ∧ ∀ i x, s.service = true → s.inst? i = some x → x.state = .quiescing →
        ((∀ j ∈ s.work.jobs, ¬(j.inst = i ∧ j.origin = none)) →
          ∃ t, exec (.quiesceDrained i) s = .next t ∧ t.inst? i = some { x with state := .quiesced, quiesce := none })
        ∧ (∀ j ∈ s.work.jobs, j.inst = i → j.origin = none →
          ∃ t, exec (.quiesceDrained i) s = .next t ∧ t.inst? i = some x))

/-- Commands on the device from the primary AF (R93, R120, R389, R418, R515): the dump buffer is registered, or unregistered
with LENGTH 0, in safe state too, where the dump is then due again; PRIMARY_DELEGATE to a port that is up, FAULT_SEVERITY_SET of one source within its bounds, ENVELOPE_SET within
the provisioned envelope and PORT_PAIR return wait for the next boundary; a query answers with the power word; pairing and
unpairing take effect at once.
Completes: dumpBufferSet, faultSeveritySet, envelopeSetQuery, envelopeSet, primaryDelegate, portPairUnpair, portPairPair,
portPairReturn. -/
def Obligations.DeviceCommands : Prop :=
  ∀ (s s1 : State) (p : Nat) (se : Bytes), Taken s s1 p se → s1.adm.primary = p →
    (byteAt se 0 = 0x99 → byteAt se 6 = 0 → byteAt se 7 = 0 → s1.life.done = false → s1.life.pending = none →
      scanParams se [(8, 8, leAt se 8 8 % 4096 != 0),
        (16, 4, leAt se 16 4 != 0 && (decide (leAt se 16 4 < 65536) || decide (2097152 < leAt se 16 4)
          || leAt se 16 4 % 4096 != 0))] = none →
      exec (.dumpBufferSet p se) s = .next (journal s1 (
        if leAt se 16 4 = 0 then { s1 with adm.dump := none }
        else { s1 with adm.dump := some (p * 256, leAt se 8 8, leAt se 16 4),
                       hwd.dump.due := s1.hwd.dump.due || s1.faults.safe }) p se (done 0)))
    ∧ (Open s1 se →
    (byteAt se 0 = 0xA7 → byteAt se 8 < 4 → (s1.port (byteAt se 8)).dlUp = true → scanParams se [(8, 1, false)] = none →
      exec (.primaryDelegate p se) s = .next (journal s1
        { s1 with adm.changes := s1.adm.changes ++ [.primary (byteAt se 8)] } p se (done 0)))
    ∧ (∀ g, byteAt se 0 = 0xA1 → byteAt se 11 = 0 → groupOf (leAt se 8 2) = some g → g.locked = false →
      g.min ≤ byteAt se 10 → byteAt se 10 ≤ g.max → sevOf s1 (leAt se 8 2) ≠ byteAt se 10 →
      scanParams se [(8, 2, false), (10, 1, false), (11, 1, false)] = none →
      exec (.faultSeveritySet p se) s = .next (journal s1
        { s1 with adm.changes := s1.adm.changes ++ [.severity [leAt se 8 2] (byteAt se 10)] } p se (done 1)))
    ∧ (byteAt se 0 = 0xA6 → byteAt se 8 = 0 → scanParams se [(8, 1, false), (9, 1, false)] = none →
      exec (.envelopeSetQuery p se) s = .next (journal s1 s1 p se (done (powerWord s1))))
    ∧ (byteAt se 0 = 0xA6 → byteAt se 8 = 1 → 1 ≤ byteAt se 9 → byteAt se 9 ≤ 3 →
      envelopeWatts (byteAt se 9) ≤ envelopeWatts s1.life.otp.envelope → scanParams se [(8, 1, false), (9, 1, false)] = none →
      exec (.envelopeSet p se) s = .next (journal s1
        { s1 with adm.changes := s1.adm.changes ++ [.envelope s1.adm.nextRef (byteAt se 9)] } p se ⟨0, 0, 0, .later⟩))
    ∧ (byteAt se 0 = 0xA8 → byteAt se 10 = 0 → scanParams se (pairFields se) = none →
      (∃ x ∈ s1.adm.pairs, x.1 = byteAt se 8 ∧ x.2.1 = byteAt se 9) → hasTfs s1 (byteAt se 8) = false →
      exec (.portPairUnpair p se) s = .next (journal s1
        { s1 with adm.pairs := s1.adm.pairs.filter (·.1 != byteAt se 8) } p se (done 0)))
    ∧ (byteAt se 0 = 0xA8 → byteAt se 10 = 1 → scanParams se (pairFields se) = none → hasTfs s1 (byteAt se 9) = false →
      (∀ x ∈ s1.adm.pairs, x.1 ≠ byteAt se 8 ∧ x.2.1 ≠ byteAt se 8 ∧ x.1 ≠ byteAt se 9 ∧ x.2.1 ≠ byteAt se 9) →
      exec (.portPairPair p se) s = .next (journal s1
        { s1 with adm.pairs := s1.adm.pairs ++ [(byteAt se 8, byteAt se 9, false)] } p se (done 0)))
    ∧ (byteAt se 0 = 0xA8 → byteAt se 10 = 2 → scanParams se (pairFields se) = none → s1.serves (unitId 9 (byteAt se 8)) = true →
      (∃ x ∈ s1.adm.pairs, x.1 = byteAt se 8 ∧ x.2.1 = byteAt se 9) →
      exec (.portPairReturn p se) s = .next (journal s1
        { s1 with adm.changes := s1.adm.changes ++ [.face (byteAt se 8) false] } p se (done 0))))

/-- Commands that report and commands that change the device's standing (R361, R392, R440, R427, R450): HEALTH_GET waits for
step 1 of the next boundary, with RETIRE on the primary AF; GRAFT_INFO and ATTEST with too short an output ask for the length
they need; LCS_TRANSITION that no check refuses is what its token, its data block and the fuses make of it; CANOPY_CONFIG
LOAD takes the charter read, a glitch that splits its signature decision refusing it with the alarm; DISSOLVE sends
HEALTH/DISSOLVE, sealed, to every joined member and completes later; TENANT_BIND waits for the next boundary.
Completes: healthGet, healthGetRetire, attest, lcsTransition, graftInfo, canopyConfigLoad, canopyConfigDissolve,
canopyConfigTenantBind.
Where the spec leaves a point open it rests on the model's choice in log entries 22, 35, 37 and 44. -/
def Obligations.ReportsAndStanding : Prop :=
  ∀ (s s1 : State) (p : Nat) (se : Bytes),
    Taken s s1 p se → Open s1 se →
    (∀ retire, byteAt se 0 = 0xA0 → byteAt se 20 = b2n retire → (retire = true → s1.adm.primary = p) →
      firstReply (healthChecks se retire) = none →
      exec (if retire then .healthGetRetire p se else .healthGet p se) s = .next (journal s1 { s1 with
        adm.changes := s1.adm.changes ++
          [.health s1.adm.nextRef p retire (leAt se 22 2) (byteAt se 24) (leAt se 8 8)] } p se ⟨0, 0, 0, .later⟩))
    ∧ (byteAt se 0 = 0xA4 → scanParams se [(8, 12, false)] = none → leAt se 16 4 < (graftBytes s1).length →
      exec (.graftInfo p se) s = .next (journal s1 s1 p se ⟨0x0104, 0, (graftBytes s1).length, .done⟩))
    ∧ (byteAt se 0 = 0xA4 → scanParams se [(8, 12, false)] = none → (graftBytes s1).length ≤ leAt se 16 4 →
      ∀ s2, hostWrite s1 (p * 256) (leAt se 8 8) (graftBytes s1) 6 = (s2, true) →
      exec (.graftInfo p se) s = .next (journal s1 s2 p se (done (graftBytes s1).length)))
    ∧ (byteAt se 0 = 0xA2 → scanParams se [(8, 12, false), (20, 32, false), (52, 1, decide (1 < byteAt se 52))] = none →
      ∀ s2 out, attestOut s1 (sub se 20 32) (bit (byteAt se 52) 0) = (s2, out) → out.length ≤ leAt se 16 4 →
      ∀ s3, hostWrite s2 (p * 256) (leAt se 8 8) out 6 = (s3, true) →
      exec (.attest p se) s = .next (journal s1 s3 p se (done out.length)))
    ∧ (byteAt se 0 = 0xA3 → s1.adm.primary = p → firstReply (lcsChecks s1 se) = none →
      ∀ u r, lcsNote (lcsRun s1 p se u) = r → exec (.lcsTransition p se u) s = .next (journal s1 r.1 p se r.2))
    ∧ (byteAt se 0 = 0xA5 → s1.solo = false → s1.adm.primary = p →
      (byteAt se 8 = 0 → s1.tether.active = 1 → s1.tether.charter = none →
        scanParams se [(8, 1, false), (12, 2, false), (14, 2, false), (16, 8, false),
          (24, 4, decide (leAt se 24 4 < 64) || decide (16384 < leAt se 24 4))] = none →
        ∀ s2 b, hostRead s1 (p * 256) (leAt se 16 8) (leAt se 24 4) 7 false = (s2, some b) →
        (charterFail s2 b = none → ∃ t, exec (.canopyConfigLoad p (se, false)) s = .next t ∧ t.tether.joined = true
          ∧ t.tether.off = 0 ∧ t.tether.charter = some b ∧ t.adm.cmds = (journal s1 s1 p se (done 0)).adm.cmds)
        ∧ (∀ d, charterFail s2 b = some d →
          exec (.canopyConfigLoad p (se, false)) s = .next (journal s1 s2 p se ⟨0x0300, d, 0, .done⟩))
        ∧ (s1.lcs = .deployed → chSigned b = true → charterFail s2 b ≠ some 0x80 →
          exec (.canopyConfigLoad p (se, true)) s =
            .next (journal s1 (glitchAlarm s2 0xFFFF 0 (unitId 7 0)) p se ⟨0x0300, 0x81, 0, .done⟩)))
      ∧ (byteAt se 8 = 1 → s1.tether.active = 1 →
        scanParams se [(8, 1, false), (12, 2, false), (14, 2, false), (16, 8, false), (24, 4, false)] = none →
        ∃ t, exec (.canopyConfigDissolve p se) s = .next t ∧ t.tether.dissolve = some s1.adm.nextRef
          ∧ ∃ ms, t.tether.out = s1.tether.out ++ ms ∧ ms.map (·.dst) = s1.peersJoined
            ∧ ∀ m ∈ ms, m.kind = 6 ∧ m.enc = true ∧ m.src = s1.selfId ∧ let h := hopTo s1 m.dst
              m.body = sealBody (peerEntry s1 h).pair (s1.selfId < h) 6 s1.selfId m.dst m.ctr [8])
      ∧ (byteAt se 8 = 2 → s1.joined = true → liveState (instState s1 (leAt se 12 2)) = true → leAt se 12 2 < 1024 →
        scanParams se [(8, 1, false), (12, 2, false), (14, 2, false), (16, 8, false), (24, 4, false)] = none →
        exec (.canopyConfigTenantBind p se) s = .next (journal s1
          { s1 with tether.binds := s1.tether.binds ++ [(leAt se 12 2, leAt se 14 2)] } p se (done 0))))

/-! ### Jobs -/

/-- The final commit (R23, R74, R276, R279): of a confirmed job that has no output and changes nothing, with any status, the
job is committed in this tick and nothing else changes; the result of an unconfirmed job is held in its envelope: no byte of
host memory, no key, no context and no stream changes.
What every job row shares: a job with no slice in this tick is left as it is; a mismatch in both copies of a vault line, or a
quarantined object, ends it with DEVICE_FAULT 0x50 (R262); a failed read of its input or table with DATA_SHORT, of an unconfirmed
job is counted and made again (R107, R271, Table 3.12); a DRBG in its error state with 0x40 where it draws, 0x70 where it runs masked
(R371, R372); and it waits for its results of the MXU (R184).
Completes: kemKeygen, kemEncaps, kemDecaps, sigKeygen, sigSign, sigVerify, dhKeygen, dhDerive, rsaKeygen, rsaSign, rsaVerify,
rsaDecrypt, rsaEncrypt, digest, digestStart, digestUpdate, digestRead, digestFinal, digestDiscard, mac, macVerify, kdf,
aeadSeal, aeadOpen, rng, keyImport, keyGenerate, keyExport, keyDestroy, keyGetPublic, ctxDerive, ctxExport, ctxDestroy,
clientInit, serverRespond, clientFinish.
Where the spec leaves a point open it rests on the model's choice in log entry 54. -/
def Obligations.FinalCommit : Prop :=
  (∀ (s : State) (j : Nat) (x : Job) (r : JobResult), s.job? j = some x → s.mxuCmd? j = none →
    (x.confirmed = false → ∃ t y, finalCommit s j r = t ∧ t.job? j = some y ∧ y.result = some r
      ∧ y.commitTick = some s.tick.count ∧ y.committed = x.committed ∧ t.hostMem = s.hostMem ∧ t.store = s.store)
    ∧ (x.confirmed = true → r.out = [] → r.effects = [] → s.funnels = false →
      ∃ y, (finalCommit s j r).job? j = some y ∧ y.result = some r ∧ y.committed = true
        ∧ (finalCommit s j r).hostMem = s.hostMem ∧ (finalCommit s j r).store = s.store))
  ∧ (∀ (s : State) (j : Nat) (u : Upset) (x : Job) (c : Instr), s.job? j = some x → jobRow j u x = some c → OwnTurn s j x →
      (runnable s x = false → exec c s = .next s)
      ∧ (runnable s x = true →
        (∀ s0, strikeVault s x u = (s0, true) → Yields c s s0 j (err 0x0600 0x50))
        ∧ ∀ s0, strikeVault s x u = (s0, false) →
          (usesQuarantined s0 x = true → destroys x = false → Yields c s s0 j (err 0x0600 0x50))
          ∧ ((usesQuarantined s0 x && !destroys x) = false →
            (∀ s1, jobInput s0 x = (s1, none) →
              (x.confirmed = true → ∃ d, (d = 0x01 ∨ d = 0x03) ∧ Yields c s s1 j (err 0x0103 d))
              ∧ (x.confirmed = false → exec c s = .next (specInc s1 6 1)))
            ∧ ∀ s1 inp, jobInput s0 x = (s1, some inp) →
              (drbgDown s1 x = true → draws x = true → Yields c s s1 j (err 0x0600 0x40))
              ∧ (drbgDown s1 x = true → draws x = false → runsMasked x = true → Yields c s s1 j (err 0x0600 0x70))
              ∧ ((drbgDown s1 x && draws x) = false → (drbgDown s1 x && runsMasked x) = false → mxuReady s1 x inp = false →
                exec c s = .next s1))))

/-- KEM jobs (R129 to R133, R173, R175, R176): KEM_KEYGEN makes a pair from fresh bytes and returns the handle with the public key;
Classic McEliece draws its seed, runs attempts, of which 256 rejected end the job with 0x21, makes the pair of the chosen one and
leaves its public key out; a failed pairwise test is 0x22.  KEM_ENCAPS gives ciphertext and shared secret, the secret to a context
under OUT_TO_CTX; an inline key is checked first, and one that fails ends the job before a byte is drawn.  KEM_DECAPS is OK whatever
the ciphertext.
Completes: kemKeygen, kemEncaps, kemDecaps.
Where the spec leaves a point open it rests on the model's choice in log entries 4, 5, 9, 12, 53 and 54. -/
def Obligations.KemJobs : Prop :=
  ∀ (s s1 : State) (j : Nat) (x : Job) (u : Upset) (inp : Bytes),
    let a := ap x.alg x.pset
    (Ready s s1 j 0x01 x u inp → x.alg ≠ 0x06 →
      let n := if x.alg = 0x01 then 64 else 32
      let pub := stdBytes .pubOf a [fresh s1 n] (pkLen x.alg x.pset)
      (u = .pairwise → PairFails (.kemKeygen j u) s (drawn s1 n) j x)
      ∧ (u ≠ .pairwise → ∃ k, IsNewKey (drawn s1 n) x x.alg x.pset (some pub)
          (some (stdBytes .privOf a [fresh s1 n] (skLen x.alg x.pset))) k
        ∧ Yields (.kemKeygen j u) s (drawn s1 n) j (ok (leBytes 4 k.handle ++ pub) [.createKey k])))
    ∧ (Ready s s1 j 0x01 x u inp → x.alg = 0x06 →
      (x.chosen = none → x.prepared = false → exec (.kemKeygen j u) s = .next (prepare (drawn s1 32) x (fresh s1 32)))
      ∧ (∀ c, x.chosen = some c →
        let gen := [x.rnd, leBytes 4 c]
        (u = .pairwise → PairFails (.kemKeygen j u) s s1 j x)
        ∧ (u ≠ .pairwise → ∃ k, IsNewKey s1 x x.alg x.pset (some (stdBytes .pubOf a gen (pkLen x.alg x.pset)))
            (some (stdBytes .privOf a gen (skLen x.alg x.pset))) k
          ∧ Yields (.kemKeygen j u) s s1 j (ok (leBytes 4 k.handle) [.createKey k]))))
    ∧ AttemptEnds (.kemKeygen j u) s j 0x01 256 0x21 (fun y k => stdHolds .attemptOk (ap y.alg y.pset) [leBytes 4 k, y.rnd])
    ∧ (Ready s s1 j 0x02 x u inp →
      let ek := if x.ekInline then inp else (jobKey s1 x).pk
      let n := if x.alg = 0x07 then (Hqc.par x.pset).k + 16 else 32
      ((x.ekInline = false ∨ ekBad x.alg x.pset inp = none) → Yields (.kemEncaps j u) s (drawn s1 n) j
        (delivered (drawn s1 n) x x.outToCtx (bit x.opt 1) (stdBytes .encapsCt a [ek, fresh s1 n] (ctLen x.alg x.pset))
          (stdBytes .encapsSs a [ek, fresh s1 n] 32)))
      ∧ ∀ st d, x.ekInline = true → ekBad x.alg x.pset inp = some (st, d) → Yields (.kemEncaps j u) s s1 j (err st d))
    ∧ (Ready s s1 j 0x03 x u inp → Decides (.kemDecaps j u) u s s1 j x
        (delivered s1 x x.outToCtx (bit x.opt 1) [] (stdBytes .decaps a [(jobKey s1 x).sk, inp] 32)))

/-- HYBRID_KEX (R145 to R147): CLIENT_INIT leaves both ephemeral keys in the context and returns the share; SERVER_RESPOND
checks the client's ek, then its public value, and yields both ciphertext parts and the joined secret; CLIENT_FINISH checks the
server's public value, joins the two secrets and erases the ephemeral keys.
Completes: dhDerive, clientInit, serverRespond, clientFinish.
Where the spec leaves a point open it rests on the model's choice in log entries 5 and 53. -/
def Obligations.HybridJobs : Prop :=
  ∀ (s s1 : State) (j : Nat) (x : Job) (u : Upset) (inp : Bytes), Ready s s1 j 0x50 x u inp →
    let ka := ap 0x01 (hybridKem x.pset)
    let da := ap 0x14 (hybridDh x.pset)
    let n := pkLen 0x01 (hybridKem x.pset)
    let c := ctLen 0x01 (hybridKem x.pset)
    let d := hybridDhLen x.pset
    (x.opt % 4 = 0 →
      let dz := fresh s1 64
      let s2 := drawn s1 64
      let sk := fresh s2 d
      let s3 := drawn s2 d
      (∀ ctx, (if bit x.opt 2 then newCtx s3 x.inst else ctxAt s3 x.ctxH) = some ctx → Yields (.clientInit j u) s s3 j
        (ok (stdBytes .pubOf ka [dz] n ++ stdBytes .pubOfPriv da [sk] d ++ leBytes 4 ctx.handle)
          [.putCtx { ctx with slots := emptySlots.set 0 (.ephemeral x.pset dz sk) }]))
      ∧ ((if bit x.opt 2 then newCtx s3 x.inst else ctxAt s3 x.ctxH) = none → Yields (.clientInit j u) s s3 j (err 0x0202 0x52)))
    ∧ (x.opt % 4 = 1 →
      (∀ st e, ekBad 0x01 (hybridKem x.pset) (inp.take n) = some (st, e) → Yields (.serverRespond j u) s s1 j (err st e))
      ∧ (ekBad 0x01 (hybridKem x.pset) (inp.take n) = none →
        (∀ st e, checkXPoint (hybridDh x.pset) (inp.drop n) = some (st, e) → Yields (.serverRespond j u) s s1 j (err st e))
        ∧ (checkXPoint (hybridDh x.pset) (inp.drop n) = none →
          let m := fresh s1 32
          let s2 := drawn s1 32
          let sk := fresh s2 d
          Yields (.serverRespond j u) s (drawn s2 d) j (delivered (drawn s2 d) x x.outToCtx (bit x.opt 2)
            (stdBytes .encapsCt ka [inp.take n, m] c ++ stdBytes .pubOfPriv da [sk] d)
            (stdBytes .encapsSs ka [inp.take n, m] 32 ++ stdBytes .dhDerive da [sk, inp.drop n] d)))))
    ∧ (x.opt % 4 = 2 →
      (∀ st e, checkXPoint (hybridDh x.pset) (inp.drop c) = some (st, e) → Yields (.clientFinish j u) s s1 j (err st e))
      ∧ ∀ ctx p dz sk, checkXPoint (hybridDh x.pset) (inp.drop c) = none → ctxAt s1 x.ctxH = some ctx →
        ctx.slot 0 = .ephemeral p dz sk →
        let ss := stdBytes .decaps ka [stdBytes .privOf ka [dz] (skLen 0x01 (hybridKem x.pset)), inp.take c] 32
          ++ stdBytes .dhDerive da [sk, inp.drop c] d
        Decides (.clientFinish j u) u s s1 j x (if x.outToCtx
          then ok (leBytes 4 ctx.handle) [.putCtx { ctx with slots := emptySlots.set 0 (.secret ss) }]
          else ok ss [.setSlot x.ctxH 0 .empty]))

/-- Signature jobs (R129, R139 to R144, R157, R163, R166, R171, R206): a pair is made from fresh bytes, of a stateful key with its
first trees and NEXT 0; a stateful signature commits the index its start boundary took, none after a failed read-back;
ML-DSA prepares, runs attempts, of which 814 rejected end the job with 0x20, and packs the chosen one; the others sign
under fresh or fixed bytes (SLH-DSA: PK.seed); a verification is OK or VERIFY_FALSE and writes nothing.
Completes: sigKeygen, sigSign, sigVerify.
Where the spec leaves a point open it rests on the model's choice in log entries 4, 5, 9, 10, 53 and 54. -/
def Obligations.SignatureJobs : Prop :=
  ∀ (s s1 : State) (j : Nat) (x : Job) (u : Upset) (inp : Bytes),
    let a := ap x.alg x.pset
    let key := jobKey s1 x
    (Ready s s1 j 0x08 x u inp → isStateful x.alg = false →
      let n := if x.alg = 0x02 then 32 else if x.alg = 0x03 then 3 * (Slh.par x.pset).n else 96
      let pub := stdBytes .pubOf a [fresh s1 n] (pkLen x.alg x.pset)
      (u = .pairwise → x.alg ≠ 0x03 → PairFails (.sigKeygen j u) s (drawn s1 n) j x)
      ∧ ((u ≠ .pairwise ∨ x.alg = 0x03) → ∃ k, IsNewKey (drawn s1 n) x x.alg x.pset (some pub)
          (some (stdBytes .privOf a [fresh s1 n] (skLen x.alg x.pset))) k
        ∧ Yields (.sigKeygen j u) s (drawn s1 n) j (ok (leBytes 4 k.handle ++ pub) [.createKey k])))
    ∧ (Ready s s1 j 0x08 x u inp → isStateful x.alg = true →
      let n := statefulMaterial x.alg x.pset
      let hs := (genHeights x).getD []
      let gen := [fresh s1 n, heightBytes hs]
      let pub := stdBytes .pubOf a gen (pkLen x.alg x.pset)
      let sk := stdBytes .privOf a gen n
      ∃ k f, IsNewKey (drawn s1 n) x x.alg x.pset (some pub) (some sk) k ∧ k.stateful = some f ∧ f.heights = hs ∧ f.next = 0
        ∧ f.committed = 0 ∧ f.reserveBlock = (if x.par 12 2 = 0 then 16 else x.par 12 2)
        ∧ f.trees = traversalsAt x.alg x.pset sk hs 0
        ∧ Yields (.sigKeygen j u) s (drawn s1 n) j (ok (leBytes 4 k.handle ++ pub) [.createKey k]))
    ∧ (Ready s s1 j 0x09 x u inp → isStateful x.alg = true →
      (x.index = none → Yields (.sigSign j u) s s1 j (err 0x0202 0x01))
      ∧ ∀ q, x.index = some q →
        let hs := (key.stateful.map (·.heights)).getD []
        ((u ≠ .readBack ∨ x.reserving = false) → Yields (.sigSign j u) s (s1.updJob x.id fun y => { y with reserving := false }) j
          (ok (stdBytes .sign a [key.sk, heightBytes hs, leBytes 8 q, inp] (statefulSigLen x.alg x.pset hs))
            [.commitIndex key.index q (traversalsAt x.alg x.pset key.sk hs q)]))
        ∧ (u = .readBack → x.reserving = true → Yields (.sigSign j u) s
          (raiseSrc ((updCounter s1 key.handle Counter.spoil).updKey key.index fun k =>
            { k with stateful := k.stateful.map fun f => { f with next := q } }) 0x1F 0 0) j (err 0x0600 0x23)))
    ∧ (Ready s s1 j 0x09 x u inp → x.alg = 0x02 →
      (x.chosen = none → x.prepared = false → exec (.sigSign j u) s = .next
        (if x.deterministic then prepare s1 x (zeros 32) else prepare (drawn s1 32) x (fresh s1 32)))
      ∧ (∀ k, x.chosen = some k → Yields (.sigSign j u) s s1 j
        (ok (stdBytes .sign a (key.sk :: x.rnd :: sigArgs x inp) (sigLen x.alg x.pset)) [])))
    ∧ AttemptEnds (.sigSign j u) s j 0x09 814 0x20 (fun y k => stdHolds .attemptOk (ap y.alg y.pset)
        (leBytes 4 k :: (jobKey s y).sk :: y.rnd :: sigArgs y (y.input.getD [])))
    ∧ (Ready s s1 j 0x09 x u inp → isStateful x.alg = false → x.alg ≠ 0x02 →
      let n := if x.alg = 0x03 then (Slh.par x.pset).n else 32
      let sig (rnd : Bytes) := ok (stdBytes .sign a (key.sk :: rnd :: sigArgs x inp) (sigLen x.alg x.pset)) []
      (x.deterministic = true → Yields (.sigSign j u) s s1 j
        (sig (if x.alg = 0x03 then (key.sk.drop (2 * n)).take n else [])))
      ∧ (x.deterministic = false → Yields (.sigSign j u) s (drawn s1 n) j (sig (fresh s1 n))))
    ∧ (Ready s s1 j 0x0A x u inp →
      let pl := if !x.pkInline then 0 else if isStateful x.alg then x.par 4 4 else pkLen x.alg x.pset
      let sl := if isStateful x.alg then x.par 0 4 else sigLen x.alg x.pset
      let pk := if x.pkInline then inp.take pl else key.pk
      let sig := (inp.drop pl).take sl
      let args := pk :: sig :: sigArgs x (inp.drop (pl + sl))
      let small := if x.pkInline then bit x.opt 10 else key.has pSmallOrder
      let curve := x.alg = 0x11 ∨ x.alg = 0x12
      (∀ st d, curve → checkPublic x.alg x.pset small pk = some (st, d) → Yields (.sigVerify j u) s s1 j (err st d))
      ∧ ((curve → checkPublic x.alg x.pset small pk = none) →
        (curve → sigRefused x.alg x.pset 0 sig = true → Yields (.sigVerify j u) s s1 j (err 0x0001 0x06))
        ∧ ((curve → sigRefused x.alg x.pset 0 sig = false) →
          (stdHolds .verify a args = true → Decides (.sigVerify j u) u s s1 j x (ok [] []))
          ∧ (stdHolds .verify a args = false → ∃ d, Decides (.sigVerify j u) u s s1 j x (err 0x0001 d)
            ∧ (x.alg = 0x02 → 1 ≤ d ∧ d ≤ 3) ∧ (x.alg = 0x03 → d = 4) ∧ (isStateful x.alg = true → d = 4 ∨ d = 5)
            ∧ (curve → d = 7)))))

/-- Diffie-Hellman and RSA jobs (R129, R201 to R204, R208): a pair is made from fresh bytes; a refused peer value ends DH_DERIVE
with its status; RSA key search that fails ends with DEVICE_FAULT 0x26; a refused inline key with its status; a signature and an
encryption come of the key and fresh bytes; a verification is OK or VERIFY_FALSE 0x06 or 0x08; under PKCS #1 v1.5 a decryption is OK
whatever its padding, under OAEP a bad one is refused; a private result that fails its check raises RSA_CHECK and ends with
DEVICE_FAULT 0x24.
Completes: dhKeygen, dhDerive, rsaKeygen, rsaSign, rsaVerify, rsaDecrypt, rsaEncrypt.
Where the spec leaves a point open it rests on the model's choice in log entries 5, 9, 13 and 53. -/
def Obligations.DhRsaJobs : Prop :=
  ∀ (s s1 : State) (j : Nat) (x : Job) (u : Upset) (inp : Bytes),
    let key := jobKey s1 x
    let a := ap x.alg x.pset
    let r := ap 0x10 x.pset
    let kl := rsaK x.pset
    let pl := if x.pkInline then kl + 4 else 0
    let pk := if x.pkInline then inp.take pl else key.pk
    let label := if x.scheme = 1 then x.oaepLabel else []
    (Ready s s1 j 0x10 x u inp →
      let pub := stdBytes .pubOf a [fresh s1 96] (pkLen x.alg x.pset)
      (u = .pairwise → PairFails (.dhKeygen j u) s (drawn s1 96) j x)
      ∧ (u ≠ .pairwise → ∃ k, IsNewKey (drawn s1 96) x x.alg x.pset (some pub)
          (some (stdBytes .privOf a [fresh s1 96] (skLen x.alg x.pset))) k
        ∧ Yields (.dhKeygen j u) s (drawn s1 96) j (ok (leBytes 4 k.handle ++ pub) [.createKey k])))
    ∧ (Ready s s1 j 0x11 x u inp →
      (checkPublic x.alg x.pset false inp = none → Yields (.dhDerive j u) s s1 j
        (delivered s1 x x.outToCtx (bit x.opt 1) [] (stdBytes .dhDerive a [key.sk, inp] (ssLen x.alg x.pset))))
      ∧ ∀ st d, checkPublic x.alg x.pset false inp = some (st, d) → Yields (.dhDerive j u) s s1 j (err st d))
    ∧ (Ready s s1 j 0x14 x u inp →
      let gen := [fresh s1 96, leBytes 4 x.rsaE]
      let s2 := drawn (drawn s1 96) 32
      (2 ^ 20 ≤ stdNumber .attempts r gen → Yields (.rsaKeygen j u) s s2 j (err 0x0600 0x26))
      ∧ (stdNumber .attempts r gen < 2 ^ 20 →
        let pub := stdBytes .pubOf r gen kl ++ beBytes 4 x.rsaE
        (u = .pairwise → PairFails (.rsaKeygen j u) s s2 j x)
        ∧ (u ≠ .pairwise → ∃ k, IsNewKey s2 x 0x10 x.pset (some pub) (some (stdBytes .privOf r gen (skLen 0x10 x.pset))) k
          ∧ k.rejection = fresh (drawn s1 96) 32
          ∧ Yields (.rsaKeygen j u) s s2 j (ok (leBytes 4 k.handle ++ pub) [.createKey k]))))
    ∧ (Ready s s1 j 0x15 x u inp →
      let args := key.sk :: (if x.scheme = 1 then fresh s1 64 else []) :: rsaArgs x inp
      (u ≠ .rsaCheck → stdHolds .rsaSignOk r args = true →
        Decides (.rsaSign j u) u s (drawn s1 64) j x (ok (stdBytes .sign r args kl) []))
      ∧ ((u = .rsaCheck ∨ stdHolds .rsaSignOk r args = false) →
        Yields (.rsaSign j u) s (raiseSrc (drawn s1 64) 0x1E 0 0) j (err 0x0600 0x24)))
    ∧ (Ready s s1 j 0x16 x u inp →
      let sig := (inp.drop pl).take kl
      let ok? := stdHolds .verify r (pk :: sig :: rsaArgs x (inp.drop (pl + kl)))
      (∀ st d, x.pkInline = true → checkRsaKey x.pset pk = some (st, d) → Yields (.rsaVerify j u) s s1 j (err st d))
      ∧ ((x.pkInline = true → checkRsaKey x.pset pk = none) →
        (sigRefused 0x10 x.pset (beNat (pk.take kl)) sig = true → Yields (.rsaVerify j u) s s1 j (err 0x0001 0x06))
        ∧ (sigRefused 0x10 x.pset (beNat (pk.take kl)) sig = false →
          Decides (.rsaVerify j u) u s s1 j x (if ok? then ok [] [] else err 0x0001 0x08))))
    ∧ (Ready s s1 j 0x17 x u inp →
      let args := [key.sk, [BitVec.ofNat 8 x.ph, BitVec.ofNat 8 x.scheme], label, inp]
      (∀ st d, checkRsaCt (beNat (key.sk.take kl)) inp = some (st, d) → Yields (.rsaDecrypt j u) s s1 j (err st d))
      ∧ (checkRsaCt (beNat (key.sk.take kl)) inp = none →
        ((u = .rsaCheck ∨ stdHolds .rsaPlainOk r args = false) →
          Yields (.rsaDecrypt j u) s (raiseSrc s1 0x1E 0 0) j (err 0x0600 0x24))
        ∧ (u ≠ .rsaCheck → stdHolds .rsaPlainOk r args = true →
          (stdHolds .rsaPadOk r args = true → Decides (.rsaDecrypt j u) u s s1 j x
            (ok (stdBytes .rsaPlain r args (min (rsaMax x) (stdNumber .rsaPlain r args))) []))
          ∧ (stdHolds .rsaPadOk r args = false → x.scheme = 0 →
            Decides (.rsaDecrypt j u) u s s1 j x (ok (synthetic kl key.rejection inp) []))
          ∧ (stdHolds .rsaPadOk r args = false → x.scheme ≠ 0 → Decides (.rsaDecrypt j u) u s s1 j x (err 0x0300 0x08)))))
    ∧ (Ready s s1 j 0x18 x u inp →
      (∀ st d, x.pkInline = true → checkRsaKey x.pset pk = some (st, d) → Yields (.rsaEncrypt j u) s s1 j (err st d))
      ∧ ((x.pkInline = true → checkRsaKey x.pset pk = none) → Yields (.rsaEncrypt j u) s (drawn s1 64) j (ok (stdBytes .rsaEncrypt r
        [pk, fresh s1 64, [BitVec.ofNat 8 x.ph, BitVec.ofNat 8 x.scheme], label, inp.drop pl] kl) [])))

/-- Digest jobs (R215 to R222): DIGEST hashes its input; DIGEST_START opens a stream that has absorbed it and returns its handle;
DIGEST_UPDATE appends; READ of a stream that is not FINAL is STREAM_NOT_FINAL with a result range of zeros, of one that is it gives
the result, of an XOF the bytes that follow, and frees it under bit 1; DIGEST_FINAL reads the result and frees the stream or, with
KEEP, leaves it FINAL; DISCARD frees it.  A second FINAL is refused, and a stream that is gone is CONTEXT_INVALID 0x40.
Completes: digest, digestStart, digestUpdate, digestRead, digestFinal, digestDiscard.
Where the spec leaves a point open it rests on the model's choice in log entries 9 and 53. -/
def Obligations.DigestJobs : Prop :=
  ∀ (s s1 : State) (j : Nat) (x : Job) (u : Upset) (inp : Bytes),
    let n := if isCshake x.pset then x.nStr else []
    let cs := if isCshake x.pset then x.sStr else []
    (Ready s s1 j 0x20 x u inp → Yields (.digest j u) s s1 j (ok (hashOf x.pset inp n cs (digestOut x)) []))
    ∧ (Ready s s1 j 0x21 x u inp → ∃ st : Stream, st.index = newStreamIndex s1 ∧ st.owner = x.inst ∧ st.absorbed = inp
        ∧ st.alg = x.alg ∧ st.pset = x.pset ∧ st.final = false ∧ st.n = n ∧ st.s = cs ∧ st.squeezed = 0
        ∧ Yields (.digestStart j u) s s1 j (ok (leBytes 4 st.handle) [.openStream st]))
    ∧ (∀ st, jobStream s1 x = some st →
      (Ready s s1 j 0x22 x u inp → bit x.opt 0 = false →
        Yields (.digestUpdate j u) s s1 j (if st.final then err 0x0203 0x44
          else ok [] [.putStream { st with absorbed := st.absorbed ++ inp }]))
      ∧ (Ready s s1 j 0x22 x u inp → bit x.opt 0 = true →
        (st.final = false → Yields (.digestRead j u) s s1 j ⟨0x0206, 0, 0, zeros (digestOut x), []⟩)
        ∧ (st.final = true → Yields (.digestRead j u) s s1 j (ok (streamRead st (digestOut x))
            [if bit x.opt 1 then .freeStream st.index
             else .putStream { st with squeezed := st.squeezed + (if isXof st.pset then digestOut x else 0) }])))
      ∧ (Ready s s1 j 0x23 x u inp → bit x.opt 1 = false →
        let done := { st with absorbed := st.absorbed ++ inp, final := true }
        (st.final = true → Yields (.digestFinal j u) s s1 j (err 0x0203 0x44))
        ∧ (st.final = false → Yields (.digestFinal j u) s s1 j (ok (streamRead done (digestOut x))
            [if bit x.opt 0 then .putStream { done with squeezed := if isXof st.pset then digestOut x else 0 }
             else .freeStream st.index])))
      ∧ (Ready s s1 j 0x23 x u inp → bit x.opt 1 = true →
        Yields (.digestDiscard j u) s s1 j (ok [] [.freeStream st.index])))
    ∧ (jobStream s1 x = none →
      (Ready s s1 j 0x22 x u inp → bit x.opt 0 = false → Yields (.digestUpdate j u) s s1 j (err 0x0203 0x40))
      ∧ (Ready s s1 j 0x22 x u inp → bit x.opt 0 = true → Yields (.digestRead j u) s s1 j (err 0x0203 0x40))
      ∧ (Ready s s1 j 0x23 x u inp → bit x.opt 1 = false → Yields (.digestFinal j u) s s1 j (err 0x0203 0x40))
      ∧ (Ready s s1 j 0x23 x u inp → bit x.opt 1 = true → Yields (.digestDiscard j u) s s1 j (err 0x0203 0x40)))

/-- Keyed jobs and random numbers (R223 to R232): a tag is that of the message under the key; a tag that does not match is
VERIFY_FALSE 0x40, and of an AEAD 0x41 with nothing written; a seal is under the nonce of the job, and of a context slot its
sequence advances with an OK; a KDF of inline material writes what it derives, of a key object or a context slot it makes a new
object; RNG writes COUNT fresh bytes, with PR after a block of the noise sources, for which it waits; with no source serving, 0x41.
Completes: mac, macVerify, kdf, aeadSeal, aeadOpen, rng.
Where the spec leaves a point open it rests on the model's choice in log entries 5, 9 and 53. -/
def Obligations.KeyedJobs : Prop :=
  ∀ (s s1 : State) (j : Nat) (x : Job) (u : Upset) (inp : Bytes),
    let key := keyedBy s1 x
    let a := ap x.alg x.pset
    let advance := if x.fromCtx then [Effect.advanceSeq x.ctxH x.slotNo] else []
    (Ready s s1 j 0x28 x u inp → bit x.opt 0 = false → Yields (.mac j u) s s1 j (ok (macOf x key inp) []))
    ∧ (Ready s s1 j 0x28 x u inp → bit x.opt 0 = true →
      let n := inp.length - x.tagLen
      Decides (.macVerify j u) u s s1 j x (if macOf x key (inp.take n) = inp.drop n then ok [] [] else err 0x0001 0x40))
    ∧ (Ready s s1 j 0x29 x u inp →
      let salt := inp.take x.saltLen
      let info := (inp.drop x.saltLen).take x.infoLen
      (x.kdfInline = true → Yields (.kdf j u) s s1 j (ok (kdfBytes x (inp.drop (x.saltLen + x.infoLen)) salt info) []))
      ∧ (x.kdfInline = false → x.kdfFromCtx = false →
        ∃ k, IsNewKey s1 x x.tAlg x.tPset none (some (kdfBytes x (jobKey s1 x).sk salt info)) k
          ∧ Yields (.kdf j u) s s1 j (ok (leBytes 4 k.handle) [.createKey k]))
      ∧ (∀ c b, x.kdfInline = false → x.kdfFromCtx = true → ctxAt s1 x.ctxH = some c → c.slot x.kdfSlot = .secret b →
        ∃ k, IsNewKey s1 x x.tAlg x.tPset none (some (kdfBytes x b salt info)) k
          ∧ Yields (.kdf j u) s s1 j (ok (leBytes 4 k.handle) [.createKey k])))
    ∧ (Ready s s1 j 0x30 x u inp → Yields (.aeadSeal j u) s s1 j
        (ok (aeadSealOf a key (aeadNonce s1 x) (inp.take x.aadLen) (inp.drop x.aadLen)) advance))
    ∧ (Ready s s1 j 0x31 x u inp → Decides (.aeadOpen j u) u s s1 j x
        (if aeadTagOk a key (aeadNonce s1 x) (inp.take x.aadLen) (inp.drop x.aadLen)
          then ok (aeadTextOf a key (aeadNonce s1 x) (inp.take x.aadLen) (inp.drop x.aadLen)) advance
          else err 0x0001 0x41))
    ∧ (Ready s s1 j 0x38 x u inp →
      let gives (t : State) := Yields (.rng j u) s (drawn t x.rngCount) j (ok (fresh t x.rngCount) [])
      (bit x.opt 0 = false → gives s1)
      ∧ (bit x.opt 0 = true → x.prepared = false →
        (anyNoise s1 = false → Yields (.rng j u) s s1 j (err 0x0600 0x41))
        ∧ (anyNoise s1 = true →
          (∀ t, takeBlock s1 x.grove = some t → gives t)
          ∧ (takeBlock s1 x.grove = none → exec (.rng j u) s =
            .next ((askBlock s1 x.grove (some x.id)).updJob x.id fun y => { y with prepared := true }))))
      ∧ (bit x.opt 0 = true → x.prepared = true →
        (s1.entropy.waiting.contains (x.grove, some x.id) = false → gives s1)
        ∧ (s1.entropy.waiting.contains (x.grove, some x.id) = true → exec (.rng j u) s = .next s1)))

/-- Key jobs (R244 to R249, R263, R461): an import whose checks pass makes the object and returns its handle, one that fails, or
a wrapped one that does not open, makes none; GENERATE takes its bytes from the DRBG; an export is the wrapped blob of the object; a
destroy takes the object out, waiting for room in the revocation list, and of a replicated object for every member's answer; the
information block is 32 bytes and the public half comes as it is held.
Context jobs (R253, R255, R256): a derivation sets slot DST; an export wraps the slot, emptied where it is asked for;
CTX_DESTROY frees the context, or empties one slot of it.
Completes: keyImport, keyGenerate, keyExport, keyDestroy, keyGetPublic, ctxDerive, ctxExport, ctxDestroy.
Where the spec leaves a point open it rests on the model's choice in log entries 4, 5, 9, 43, 53, 54 and 55. -/
def Obligations.KeyAndContextJobs : Prop :=
  (∀ (s s1 : State) (j : Nat) (x : Job) (u : Upset) (inp : Bytes),
      (Ready s s1 j 0x40 x u inp → x.generate = false →
        (∀ e, importText s1 x inp = .error e → Yields (.keyImport j u) s s1 j (err e.1 e.2))
        ∧ (∀ m, importText s1 x inp = .ok m →
          (∀ st d, importChecks x.form x.alg x.pset (bit x.policy pSmallOrder) m = some (st, d) →
            Yields (.keyImport j u) s s1 j (err st d))
          ∧ (importChecks x.form x.alg x.pset (bit x.policy pSmallOrder) m = none →
            let s2 := if x.alg = 0x10 ∧ x.form = 1 then drawn s1 32 else s1
            ∃ k, IsNewKey s2 x x.alg x.pset (formHalves x.form x.alg x.pset m).1 (formHalves x.form x.alg x.pset m).2 k
              ∧ k.rejection = (if x.alg = 0x10 ∧ x.form = 1 then fresh s1 32 else [])
              ∧ Yields (.keyImport j u) s s2 j (ok (leBytes 4 k.handle) [.createKey k])))
        ∧ (x.wrapped = false → importText s1 x inp = .ok inp))
      ∧ (Ready s s1 j 0x40 x u inp → x.generate = true →
        let n := if x.keyLen = 0 then (secretRange x.alg x.pset).1 else x.keyLen
        ∃ k, IsNewKey (drawn s1 n) x x.alg x.pset none (some (fresh s1 n)) k
          ∧ Yields (.keyGenerate j u) s (drawn s1 n) j (ok (leBytes 4 k.handle) [.createKey k]))
      ∧ (Ready s s1 j 0x41 x u inp →
        let k := jobKey s1 x
        Yields (.keyExport j u) s s1 j (ok (wrapOf (kekBytes s1 x)
          (blobHeader 0 k.alg k.pset (exportForm k) k.policy ++ exportMaterial k)) []))
      ∧ (Ready s s1 j 0x42 x u inp →
        let k := jobKey s x
        let asks := !x.prepared && s.funnels && k.replicated && !s.peersJoined.isEmpty
        (asks = true → ∃ t y, exec (.keyDestroy j u) s = .next t ∧ t.job? j = some y ∧ y.awaiting = s.peersJoined
          ∧ y.result = x.result ∧ t.store = s.store)
        ∧ (asks = false →
          ((k.has pPersist = false ∨ s.shelf.revoked.length < 4096) →
            Yields (.keyDestroy j u) s s1 j (ok [] [.destroyKey (x.keyIdx.getD 0)]))
          ∧ (k.has pPersist = true → 4096 ≤ s.shelf.revoked.length → exec (.keyDestroy j u) s = .next s)))
      ∧ (Ready s s1 j 0x43 x u inp →
        (bit x.opt 0 = true → Yields (.keyGetPublic j u) s s1 j (ok (infoBlock (jobKey s1 x)) []))
        ∧ (bit x.opt 0 = false → Yields (.keyGetPublic j u) s s1 j (ok ((jobKey s1 x).pk
          ++ (if isStateful (jobKey s1 x).alg then leBytes 8 (indicesLeft (jobKey s1 x)) else [])) []))))
  ∧ (∀ (s s1 : State) (j : Nat) (x : Job) (u : Upset) (inp : Bytes),
      (Ready s s1 j 0x49 x u inp → ∀ c, ctxAt s1 x.ctxH = some c →
        Yields (.ctxDerive j u) s s1 j (ok [] [.setSlot x.ctxH x.cDst (derivedSlot c x inp)]))
      ∧ (Ready s s1 j 0x4A x u inp → ∀ c, ctxAt s1 x.ctxH = some c →
        let v := c.slot (x.opt % 8)
        Yields (.ctxExport j u) s s1 j (ok (wrapOf (kekBytes s1 x)
            (blobHeader 1 (slotHeader v).1 (slotHeader v).2.1 4 (slotHeader v).2.2 ++ slotMaterial v))
          (if bit x.opt 3 then [.setSlot x.ctxH (x.opt % 8) .empty] else [])))
      ∧ (Ready s s1 j 0x4B x u inp → Yields (.ctxDestroy j u) s s1 j
          (ok [] [if bit x.opt 3 then .setSlot x.ctxH (x.opt % 8) .empty else .freeCtx x.ctxH])))

/-- SHELF_WRITE (R263, R264): an object with PERSIST that is not on the shelf is appended to it, sealed with AES-256-GCM under the
shelf key and fresh bytes, its header naming it, and is SHELVED; the header's sequence moves on, once and once more for every record
that reclaiming moves; the revocation list is empty and no copy it names stands.  Of any other object nothing changes.
Completes: shelfWrite.
Where the spec leaves a point open it rests on the model's choice in log entries 50 and 55. -/
def Obligations.ShelfWrite : Prop :=
  ∀ (s : State) (i : Nat),
    (∀ k, keyAt s i = some k → s.service = false ∨ k.has pPersist = false ∨ k.shelved = true ∨ k.doomed = true →
      exec (.shelfWrite i) s = .next s)
    ∧ (keyAt s i = none ∨ s.shelfCapacity = 0 → exec (.shelfWrite i) s = .next s)
    ∧ ∀ k, keyAt s i = some k → s.service = true → k.has pPersist = true → k.doomed = false → k.shelved = false →
      s.shelfCapacity ≠ 0 →
      let iv := fresh s 12
      let m := k.pub.getD [] ++ k.priv.getD []
      let aad := recordAad k.handle k.owner k.alg k.pset m.length s.shelf.epoch
      let ct := Gcm.crypt (shelfKey s) iv m
      ∃ t n, exec (.shelfWrite i) s = .next t ∧ n ≤ s.shelf.records.length ∧ t.shelf.seq = (s.shelf.seq + n + 1) % 2 ^ 32
        ∧ (∃ r ∈ t.shelf.records, r.text = pad64 ct ∧ r.key.handle = k.handle
            ∧ r.header = withCrc (aad ++ iv ++ Gcm.tag (shelfKey s) iv aad ct ++ zeros 14))
        ∧ t.shelf.revoked = []
        ∧ (∀ r ∈ t.shelf.records, (r.key.handle, r.key.owner) ∈ s.shelf.revoked → r.key.handle = k.handle)
        ∧ keyAt t i = some { k with shelved := true } ∧ t.work = s.work ∧ t.hostMem = s.hostMem

namespace Sys2Proof.Claims

/-! ### The engines -/

/-- The slice of job `j` runs on its engine, its run is not given up, and the instruction at its PC is `w`. -/
def OnEngine (e : Eng) (j w : Nat) : Prop :=
  e.s.job? j = some e.j ∧ inSlice e.s e.j = true ∧ e.s.run? j = some e.r ∧ e.r.paused = false
  ∧ fetches e.s e.j e.r w = true

/-- The run goes on with the architectural state `a`, at the next instruction or at `t`; nothing else changes. -/
def ran (e : Eng) (a : Arch) : State := e.s.putRun { e.r with cur := { a with pc := (a.pc + 1) % 8192 } }
def went (e : Eng) (a : Arch) (t : Nat) : State := e.s.putRun { e.r with cur := { a with pc := t % 8192 } }

/-- The instruction raises an engine fault. -/
def Halts (c : Instr) (e : Eng) (h : Halt) : Prop := exec c e.s = .next (engineFault e.s e.j e.r h)

/-- All ones for true, zero for false (R294). -/
def truth (p : Prop) [Decidable p] : Word := if p then 0xFFFFFFFF else 0

/-- The binary operations of Table 11.3, with their words. -/
def binaries : List ((Nat → Instr) × Nat × (Word → Word → Word)) :=
  [(.alAdd, 0x10, fun a b => a + b), (.alSub, 0x11, fun a b => a - b), (.alAnd, 0x12, fun a b => a &&& b),
   (.alOr, 0x13, fun a b => a ||| b), (.alXor, 0x14, fun a b => a ^^^ b), (.alMul, 0x19, fun a b => a * b),
   (.alMulhu, 0x1A, fun a b => BitVec.ofNat 32 (a.toNat * b.toNat / 2 ^ 32)), (.alEq, 0x1B, fun a b => truth (a = b)),
   (.alUlt, 0x1C, fun a b => truth (a.toNat < b.toNat)), (.alLt, 0x1D, fun a b => truth (a.toInt < b.toInt))]

/-- The shifts, by a count of 0 to 31. -/
def shifts : List ((Nat → Instr) × Nat × (Word → Nat → Word)) :=
  [(.alShl, 0x16, fun a n => BitVec.ofNat 32 (a.toNat * 2 ^ n)), (.alShr, 0x17, fun a n => BitVec.ofNat 32 (a.toNat / 2 ^ n)),
   (.alSar, 0x18, fun a n => BitVec.ofInt 32 (a.toInt / 2 ^ n))]

/-- Instructions that take `n` data entries, with their words; and those that push on the data stack. -/
def takers : List ((Nat → Instr) × Nat × Nat) :=
  [(.alDup, 0x01, 1), (.alDrop, 0x02, 1), (.alSwap, 0x03, 2), (.alOver, 0x04, 2), (.alRot, 0x05, 3), (.alTor, 0x06, 1),
   (.alInv, 0x15, 1), (.alShl, 0x16, 2), (.alShr, 0x17, 2), (.alSar, 0x18, 2), (.alCsel, 0x1E, 3), (.alFetch, 0x20, 1),
   (.alStore, 0x21, 2), (.alFetchh, 0x22, 1), (.alStoreh, 0x23, 2), (.alFetchb, 0x24, 1), (.alStoreb, 0x25, 2), (.alIfetch, 0x26, 1)]
def pushers : List ((Nat → Instr) × Nat) :=
  [(.alDup, 0x01), (.alOver, 0x04), (.alFromr, 0x07), (.alRcopy, 0x08), (.alDepth, 0x09)]

/-- The instruction stalls: nothing changes, and it runs again (R334). -/
def Stalls (c : Instr) (e : Eng) : Prop := exec c e.s = .next e.s

end Sys2Proof.Claims

open Sys2Proof.Claims

/-! ### Scalar instructions -/

/-- Arithmetic, comparison and selection (R294, R295, R320, R321): the result replaces the operands, tagged when one of them
is; a shift takes its count modulo 32, and a tagged count is TAINT; too few entries are STACK.  Nothing else changes but the PC.
Stack instructions and immediates (R293 to R296): each leaves the stacks its stack diagram says, with the tags of the entries;
a push on 32 data entries or 16 return entries is STACK.
Completes: alNop, alDup, alDrop, alSwap, alOver, alRot, alTor, alFromr, alRcopy, alDepth, alAdd, alSub, alAnd, alOr, alXor,
alInv, alShl, alShr, alSar, alMul, alMulhu, alEq, alUlt, alLt, alCsel, alLit, alLitx. -/
def Obligations.AladaStackMachine : Prop :=
  (∀ (e : Eng) (j : Nat),
      (∀ p ∈ binaries, OnEngine e j p.2.1 →
        (∀ a b rest, e.r.cur.ds = b :: a :: rest → rest.length < 32 → exec (p.1 j) e.s =
          .next (ran e { e.r.cur with ds := ⟨p.2.2 a.v b.v, a.tag || b.tag⟩ :: rest }))
        ∧ (e.r.cur.ds.length < 2 → Halts (p.1 j) e .stack))
      ∧ (∀ p ∈ shifts, OnEngine e j p.2.1 → ∀ n a rest, e.r.cur.ds = n :: a :: rest → rest.length < 32 →
        (n.tag = false → exec (p.1 j) e.s =
          .next (ran e { e.r.cur with ds := ⟨p.2.2 a.v (n.v.toNat % 32), a.tag⟩ :: rest }))
        ∧ (n.tag = true → Halts (p.1 j) e .taint))
      ∧ (OnEngine e j 0x15 → ∀ a rest, e.r.cur.ds = a :: rest → rest.length < 32 →
        exec (.alInv j) e.s = .next (ran e { e.r.cur with ds := ⟨a.v ^^^ 0xFFFFFFFF, a.tag⟩ :: rest }))
      ∧ (∀ p ∈ takers, OnEngine e j p.2.1 → e.r.cur.ds.length < p.2.2 → Halts (p.1 j) e .stack)
      ∧ (∀ p ∈ pushers, OnEngine e j p.2 → e.r.cur.ds.length = 32 → Halts (p.1 j) e .stack)
      ∧ (OnEngine e j 0x1E → ∀ a b c rest, e.r.cur.ds = c :: b :: a :: rest → rest.length < 32 →
        exec (.alCsel j) e.s = .next (ran e { e.r.cur with
          ds := ⟨if c.v ≠ 0 then a.v else b.v, a.tag || b.tag || c.tag⟩ :: rest })))
  ∧ (∀ (e : Eng) (j imm : Nat),
      let c := e.r.cur
      (OnEngine e j 0x00 → exec (.alNop j) e.s = .next (ran e c))
      ∧ (OnEngine e j 0x01 → ∀ a r, c.ds = a :: r →
        (r.length < 31 → exec (.alDup j) e.s = .next (ran e { c with ds := a :: a :: r }))
        ∧ (r.length = 31 → Halts (.alDup j) e .stack))
      ∧ (OnEngine e j 0x02 → ∀ a r, c.ds = a :: r → r.length ≤ 32 →
        exec (.alDrop j) e.s = .next (ran e { c with ds := r }))
      ∧ (OnEngine e j 0x03 → ∀ a b r, c.ds = b :: a :: r → r.length ≤ 30 →
        exec (.alSwap j) e.s = .next (ran e { c with ds := a :: b :: r }))
      ∧ (OnEngine e j 0x04 → ∀ a b r, c.ds = b :: a :: r → r.length ≤ 29 →
        exec (.alOver j) e.s = .next (ran e { c with ds := a :: b :: a :: r }))
      ∧ (OnEngine e j 0x05 → ∀ x y z r, c.ds = z :: y :: x :: r → r.length ≤ 29 →
        exec (.alRot j) e.s = .next (ran e { c with ds := x :: z :: y :: r }))
      ∧ (OnEngine e j 0x06 → ∀ a r, c.ds = a :: r →
        (c.rs.length < 16 → exec (.alTor j) e.s = .next (ran e { c with ds := r, rs := a :: c.rs }))
        ∧ (c.rs.length = 16 → Halts (.alTor j) e .stack))
      ∧ (OnEngine e j 0x07 → ∀ a r, c.rs = a :: r → c.ds.length < 32 →
        exec (.alFromr j) e.s = .next (ran e { c with ds := a :: c.ds, rs := r }))
      ∧ (OnEngine e j 0x08 → ∀ a r, c.rs = a :: r → c.ds.length < 32 →
        exec (.alRcopy j) e.s = .next (ran e { c with ds := a :: c.ds }))
      ∧ (c.rs = [] → (OnEngine e j 0x07 → Halts (.alFromr j) e .stack) ∧ (OnEngine e j 0x08 → Halts (.alRcopy j) e .stack))
      ∧ (OnEngine e j 0x09 → c.ds.length < 32 →
        exec (.alDepth j) e.s = .next (ran e { c with ds := ⟨BitVec.ofNat 32 c.ds.length, false⟩ :: c.ds }))
      ∧ (imm < 4096 → OnEngine e j (0x1000 + imm) → c.ds.length < 32 → exec (.alLit j imm) e.s = .next (ran e { c with
          ds := ⟨if imm < 2048 then BitVec.ofNat 32 imm else BitVec.ofNat 32 (imm + (2 ^ 32 - 4096)), false⟩ :: c.ds }))
      ∧ (imm < 4096 → OnEngine e j (0x1000 + imm) → c.ds.length = 32 → Halts (.alLit j imm) e .stack)
      ∧ (imm < 4096 → OnEngine e j (0x2000 + imm) → c.ds = [] → Halts (.alLitx j imm) e .stack)
      ∧ (imm < 4096 → OnEngine e j (0x2000 + imm) → ∀ a r, c.ds = a :: r → r.length < 32 →
        exec (.alLitx j imm) e.s = .next (ran e { c with ds := ⟨BitVec.ofNat 32 (a.v.toNat * 4096 + imm), a.tag⟩ :: r })))



/-- D-space and I-space (R298 to R300, R320, R321): a fetch zero-extends what its region holds and carries the OR of the tags; a
store writes the low bytes with the source's tag in WORK, or untagged in OUT within the output, and nowhere else; a misaligned
address, and one that its region does not serve, is ACCESS, a tagged one TAINT, a tagged value to OUT TAINT; a KEY range whose delivery
is under way stalls.  IFETCH gives an untagged word of the code; a region reads back what was written to it.
Completes: alFetch, alStore, alFetchh, alStoreh, alFetchb, alStoreb, alIfetch. -/
def Obligations.AladaMemory : Prop :=
  (∀ (e : Eng) (j : Nat),
      let out := e.r.cur.outBase.toNat
      (∀ p ∈ ([(.alFetch, 0x20, 4), (.alFetchh, 0x22, 2), (.alFetchb, 0x24, 1)] : List ((Nat → Instr) × Nat × Nat)),
        OnEngine e j p.2.1 → ∀ a rest, e.r.cur.ds = a :: rest → rest.length < 32 →
        (a.tag = false → a.v.toNat % p.2.2 = 0 →
          (∀ b t, dRead e a.v.toNat p.2.2 = .ok (b, t) →
            exec (p.1 j) e.s = .next (ran e { e.r.cur with ds := ⟨BitVec.ofNat 32 (leNat b), t⟩ :: rest }))
          ∧ (dRead e a.v.toNat p.2.2 = .error .access → Halts (p.1 j) e .access)
          ∧ (dRead e a.v.toNat p.2.2 = .error .stall → Stalls (p.1 j) e))
        ∧ (a.tag = true → Halts (p.1 j) e .taint)
        ∧ (a.tag = false → a.v.toNat % p.2.2 ≠ 0 → Halts (p.1 j) e .access))
      ∧ (∀ p ∈ ([(.alStore, 0x21, 4), (.alStoreh, 0x23, 2), (.alStoreb, 0x25, 1)] : List ((Nat → Instr) × Nat × Nat)),
        OnEngine e j p.2.1 → ∀ a x rest, e.r.cur.ds = a :: x :: rest →
        let b := leBytes p.2.2 x.v.toNat
        (a.tag = false → a.v.toNat % p.2.2 = 0 →
          (a.v.toNat < 0x8000 → exec (p.1 j) e.s =
            .next (ran e { e.r.cur with work := setBytes e.r.cur.work a.v.toNat x.tag b, ds := rest }))
          ∧ (0xB000 ≤ a.v.toNat → a.v.toNat < 0xD000 → x.tag = false →
            (out + (a.v.toNat - 0xB000) + p.2.2 ≤ e.j.outLen → exec (p.1 j) e.s =
              .next (ran e { e.r.cur with out := setBytes e.r.cur.out (out + (a.v.toNat - 0xB000)) false b, ds := rest }))
            ∧ (e.j.outLen < out + (a.v.toNat - 0xB000) + p.2.2 → Halts (p.1 j) e .access))
          ∧ (0x8000 ≤ a.v.toNat → a.v.toNat < 0xB000 ∨ 0xD000 ≤ a.v.toNat → Halts (p.1 j) e .access))
        ∧ (a.tag = true → Halts (p.1 j) e .taint)
        ∧ (a.tag = false → x.tag = true → 0xB000 ≤ a.v.toNat → a.v.toNat < 0xD000 → Halts (p.1 j) e .taint)
        ∧ (a.tag = false → (x.tag = false ∨ a.v.toNat < 0xB000 ∨ 0xD000 ≤ a.v.toNat) → a.v.toNat % p.2.2 ≠ 0 →
          Halts (p.1 j) e .access))
      ∧ (OnEngine e j 0x26 → ∀ a rest, e.r.cur.ds = a :: rest → rest.length < 32 →
        (a.tag = false →
          (∀ w, iSpace e a.v.toNat = .ok w →
            exec (.alIfetch j) e.s = .next (ran e { e.r.cur with ds := ⟨BitVec.ofNat 32 w, false⟩ :: rest }))
          ∧ (∀ h, iSpace e a.v.toNat = .error h → Halts (.alIfetch j) e .access)
          ∧ (0x2000 ≤ a.v.toNat → jobRoutine e.s e.j = none → Halts (.alIfetch j) e .access))
        ∧ (a.tag = true → Halts (.alIfetch j) e .taint)))
  ∧ ∀ (m : List DCell) (off n v : Nat) (tag : Bool), m.Pairwise (fun c d => c.idx < d.idx) → off % n = 0 → n = 1 ∨ n = 2 ∨ n = 4 →
      let m' := setBytes m off tag (leBytes n v)
      cellBytes m' off n = (leBytes n v, tag) ∧ (∀ k, k ≠ off / 4 → cellAt m' k = cellAt m k)
      ∧ m'.Pairwise (fun c d => c.idx < d.idx)

/-- Control flow (R294, R297, R330): branches relative to the next instruction by a signed 10-bit offset, on the popped top or
the counter on the return stack; a call leaves the return address there; a tagged condition or target is TAINT; a target outside
an owner routine's code is ILLEGAL; an empty stack, or a full return stack at a call, is STACK.
Completes: alRet, alCallt, alBr, alBz, alBnz, alDbnz, alCall. -/
def Obligations.AladaFlow : Prop :=
  ∀ (e : Eng) (j off k : Nat),
    let c := e.r.cur
    let t := if off < 512 then (c.pc + 1 + off) % 8192 else (c.pc + 1 + off + 7168) % 8192
    let link := ⟨BitVec.ofNat 32 ((c.pc + 1) % 8192), false⟩
    (off < 1024 → mayGo e t = true →
      (OnEngine e j (0x3000 + off) → exec (.alBr j off) e.s = .next (went e c t))
      ∧ (OnEngine e j (0x3400 + off) → ∀ a r, c.ds = a :: r →
        (a.tag = false → exec (.alBz j off) e.s =
          .next (if a.v = 0 then went e { c with ds := r } t else ran e { c with ds := r }))
        ∧ (a.tag = true → Halts (.alBz j off) e .taint))
      ∧ (OnEngine e j (0x3C00 + off) → ∀ a r, c.ds = a :: r →
        (a.tag = false → exec (.alBnz j off) e.s =
          .next (if a.v ≠ 0 then went e { c with ds := r } t else ran e { c with ds := r }))
        ∧ (a.tag = true → Halts (.alBnz j off) e .taint))
      ∧ (OnEngine e j (0x3800 + off) → ∀ a r, c.rs = a :: r →
        (a.tag = false → exec (.alDbnz j off) e.s =
          .next (if a.v = 1 then ran e { c with rs := r } else went e { c with rs := ⟨a.v - 1, false⟩ :: r } t))
        ∧ (a.tag = true → Halts (.alDbnz j off) e .taint)))
    ∧ (off < 1024 → mayGo e t = false →
      (OnEngine e j (0x3000 + off) → Halts (.alBr j off) e .illegal)
      ∧ (∀ a r, c.ds = a :: r → a.tag = false →
        (OnEngine e j (0x3400 + off) → a.v = 0 → Halts (.alBz j off) e .illegal)
        ∧ (OnEngine e j (0x3C00 + off) → a.v ≠ 0 → Halts (.alBnz j off) e .illegal))
      ∧ (OnEngine e j (0x3800 + off) → ∀ a r, c.rs = a :: r → a.tag = false → a.v ≠ 1 → Halts (.alDbnz j off) e .illegal))
    ∧ (off < 1024 → (c.ds = [] → (OnEngine e j (0x3400 + off) → Halts (.alBz j off) e .stack)
        ∧ (OnEngine e j (0x3C00 + off) → Halts (.alBnz j off) e .stack))
      ∧ (c.rs = [] → OnEngine e j (0x3800 + off) → Halts (.alDbnz j off) e .stack))
    ∧ (k < 4096 → OnEngine e j (0x4000 + k) → (e.owner = true → k < 8 ∨ 10 < k) →
      (mayGo e (2 * k) = true → c.rs.length < 16 →
        exec (.alCall j k) e.s = .next (went e { c with rs := link :: c.rs } (2 * k)))
      ∧ (mayGo e (2 * k) = true → c.rs.length = 16 → Halts (.alCall j k) e .stack)
      ∧ (mayGo e (2 * k) = false → c.rs.length < 16 → Halts (.alCall j k) e .illegal))
    ∧ (OnEngine e j 0x30 → (c.rs = [] → Halts (.alRet j) e .stack) ∧ ∀ a r, c.rs = a :: r →
      (a.tag = false →
        (mayGo e a.v.toNat = true → exec (.alRet j) e.s = .next (went e { c with rs := r } a.v.toNat))
        ∧ (mayGo e a.v.toNat = false → Halts (.alRet j) e .illegal))
      ∧ (a.tag = true → Halts (.alRet j) e .taint))
    ∧ (OnEngine e j 0x31 → (c.ds = [] → Halts (.alCallt j) e .stack) ∧ ∀ a r, c.ds = a :: r →
      (c.rs.length = 16 → Halts (.alCallt j) e .stack)
      ∧ (c.rs.length < 16 → (a.tag = false →
          (mayGo e a.v.toNat = true →
            exec (.alCallt j) e.s = .next (went e { c with ds := r, rs := link :: c.rs } a.v.toNat))
          ∧ (mayGo e a.v.toNat = false → Halts (.alCallt j) e .illegal))
        ∧ (a.tag = true → Halts (.alCallt j) e .taint)))

/-- Commit points and the end (R32, R37, R291, R303, R333): COMMIT stages the state that stands after it and shows an MXU result
that has come; the slice goes on only in a sprint job whose next segment ends in the run window; YIELD always gives up the
engine; END brings the job to its final commit with what JOB_STATUS and JOB_RESULT_LEN say, the
bytes being those of the staged output; within a vector instruction each is ILLEGAL.
Unassigned encodings and engine faults (R293, R324, R325): an unassigned word is ILLEGAL; the first fault from a commit point
abandons the slice, which the job runs again in a later tick, and restores the run to that commit, nothing being written; the
second ends the job with DEVICE_FAULT, for an owner routine with its record and DETAIL 0x62, for a vendor routine with a source raised
and DETAIL 0xF1; a word that is assigned changes nothing.
Completes: alCommit, alYield, alEnd, unassignedEncoding. -/
def Obligations.AladaCommitsAndFaults : Prop :=
  (∀ (e : Eng) (j : Nat),
      let c := e.r.cur
      let a := { c with pc := (c.pc + 1) % 8192 }
      let n := c.jobResultLen.toNat
      let st := c.jobStatus.toNat % 65536
      let shown := showMxu e.s j
      let last := e.s.putRun { e.r with staged := some c, paused := true }
      (c.vstart = 0 → c.vfaultElem.toNat < 2 ^ 31 →
        (OnEngine e j 0x32 →
          (∀ s, nextSegment shown e.j = some s →
            exec (.alCommit j) e.s = .next (s.putRun { e.r with cur := a, staged := some a }))
          ∧ (nextSegment shown e.j = none →
            exec (.alCommit j) e.s = .next (shown.putRun { e.r with cur := a, staged := some a, paused := true }))
          ∧ (e.j.sprint = false → nextSegment shown e.j = none))
        ∧ (OnEngine e j 0x33 →
          exec (.alYield j) e.s = .next (shown.putRun { e.r with cur := a, staged := some a, paused := true }))
        ∧ (OnEngine e j 0x34 →
          (e.j.outLen < n → exec (.alEnd j) e.s = .next (finalCommit last j { err 0x0104 0x60 with len := n }))
          ∧ (n ≤ e.j.outLen → st ≤ 1 → exec (.alEnd j) e.s = .next (finalCommit last j
            ⟨st, c.jobStatus.toNat / 65536 % 256, n, (cellBytes c.out 0 n).1, []⟩))
          ∧ (n ≤ e.j.outLen → 1 < st → exec (.alEnd j) e.s = .next (finalCommit last j
            ⟨st, c.jobStatus.toNat / 65536 % 256, 0, [], []⟩))))
      ∧ ∀ p ∈ ([(.alCommit, 0x32), (.alYield, 0x33), (.alEnd, 0x34)] : List ((Nat → Instr) × Nat)),
        OnEngine e j p.2 → c.vstart ≠ 0 ∨ 2 ^ 31 ≤ c.vfaultElem.toNat → Halts (p.1 j) e .illegal)
  ∧ (∀ (s : State) (j w : Nat), assignedWord w = true → exec (.unassignedEncoding j w) s = .next s)
  ∧ (∀ (e : Eng) (j w : Nat), OnEngine e j w → assignedWord w = false →
      (e.j.strikes = 0 → ∃ t, exec (.unassignedEncoding j w) e.s = .next t
        ∧ t.job? j = some { e.j with strikes := 1, rerun := true, sliceTick := none, trying := none }
        ∧ t.run? j = some e.r.restore ∧ t.hostMem = e.s.hostMem ∧ t.store = e.s.store)
      ∧ (e.j.strikes ≠ 0 → (jobRoutine e.s e.j).isSome = true → exec (.unassignedEncoding j w) e.s = .next (finalCommit
          (emit (e.s.putRun e.r.restore) 0x0202 (e.j.opt % 256) e.r.cur.pc 0x62) j (err 0x0600 0x62)))
      ∧ (e.j.strikes ≠ 0 → jobRoutine e.s e.j = none → exec (.unassignedEncoding j w) e.s = .next (finalCommit
          (raiseSrc (e.s.putRun e.r.restore) 0x1C 0 0) j (err 0x0600 0xF1))))

namespace Sys2Proof.Claims

/-- Ports whose reading gives a register or a field of the run, and those that only take writes and read 0 (Table 11.5). -/
def readPorts (e : Eng) : List (Nat × Word) :=
  let c := e.r.cur
  [(0x00, BitVec.ofNat 32 (tickCount e.s)), (0x0C, c.inBase), (0x0D, c.outBase), (0x0E, c.jobStatus), (0x0F, c.jobResultLen),
   (0x10, 0), (0x11, BitVec.ofNat 32 (b2n e.r.delivery.isSome * 2 ^ 31 + e.r.delivered % 65536)), (0x20, BitVec.ofNat 32 e.r.hsSel),
   (0x22, 0), (0x23, 0), (0x25, BitVec.ofNat 32 e.hash.status), (0x30, c.vcfg), (0x31, c.vq), (0x32, c.vbound), (0x33, c.vtw),
   (0x34, c.vstart), (0x35, c.vfaultElem), (0x36, c.vfaultAddr), (0x37, 0), (0x38, c.vtvec),
   (0xF0, BitVec.ofNat 32 (if e.owner then e.j.opt % 256 else 0))]

/-- The same of the ports of vendor routines alone. -/
def vendorReads (e : Eng) : List (Nat × Word) :=
  [(0x08, e.r.mbox.getD 0 0), (0x09, e.r.mbox.getD 1 0), (0x0A, e.r.mbox.getD 2 0), (0x40, 0), (0x41, 0), (0x42, 0), (0x43, 0),
   (0x50, 0), (0x51, 0)]

/-- Writes that set one register: the port, and the architectural state after it; writes of ports that only read change
nothing. -/
def writePorts : List (Nat × (Arch → Word → Arch)) :=
  [(0x0F, fun a v => { a with jobResultLen := v }), (0x30, fun a v => { a with vcfg := v &&& 0xFFFF0F31 }),
   (0x31, fun a v => { a with vq := v }), (0x32, fun a v => { a with vbound := v }), (0x33, fun a v => { a with vtw := v }),
   (0x38, fun a v => { a with vtvec := v }), (0x00, fun a _ => a), (0x01, fun a _ => a), (0x11, fun a _ => a),
   (0x18, fun a _ => a), (0x24, fun a _ => a), (0x25, fun a _ => a), (0x35, fun a _ => a), (0x36, fun a _ => a), (0xF0, fun a _ => a)]

/-- Rows that are the OUT or the IN of one port. -/
def portRows : List ((Nat → Instr) × (Nat → Instr)) :=
  [(fun j => .keyReq j .none, fun j => .alOut j 0x10), (.hsIn, fun j => .alOut j 0x22), (.hsInb, fun j => .alOut j 0x23),
   (.vcfgWrite, fun j => .alOut j 0x30), (.vqWrite, fun j => .alOut j 0x31), (.vfaultFill, fun j => .alOut j 0x37),
   (.mboxCmd, fun j => .alOut j 0x08), (.declGo, fun j => .alOut j 0x51), (.drbgRead, fun j => .alIn j 0x18),
   (.hsOut, fun j => .alIn j 0x24)]

/-- The selected hash state, and the architectural state with `h` in its place and `ds` as the data stack. -/
def selected (e : Eng) : HashState := e.r.cur.hash.getD e.r.hsSel idleHash
def hashed (e : Eng) (h : HashState) (ds : List TWord) : Arch :=
  { e.r.cur with hash := e.r.cur.hash.set e.r.hsSel h, ds := ds }

end Sys2Proof.Claims

open Sys2Proof.Claims

/-! ### Ports -/

/-- IN and OUT (R32, R302, R307 to R309, R322, Table 11.5): a read pushes the register, untagged, a port that is only written
reading 0, an MXU result that is not yet visible as 0; a write of an untagged value sets the register, a tagged one is TAINT where the
port is no sink of secrets; IN_BASE and OUT_BASE take multiples of 4,096 alone; a port the routine may not touch, and VSTART written,
is ILLEGAL; a full stack, or none to pop, is STACK.  The rows of single ports are the IN or OUT of their port.
Completes: alIn, alOut, keyReq, hsIn, hsInb, hsOut, drbgRead, vqWrite, vcfgWrite, vfaultFill, mboxCmd, declGo. -/
def Obligations.AladaPorts : Prop :=
  ∀ (e : Eng) (j : Nat),
    let stepped := { e.r.cur with pc := (e.r.cur.pc + 1) % 8192 }
    (∀ p, (p ∈ readPorts e ∨ p ∈ vendorReads e ∧ e.owner = false) → OnEngine e j (0x5000 + p.1) →
      (e.r.cur.ds.length < 32 → exec (.alIn j p.1) e.s = .next (ran e { e.r.cur with ds := ⟨p.2, false⟩ :: e.r.cur.ds }))
      ∧ (e.r.cur.ds.length = 32 → Halts (.alIn j p.1) e .stack))
    ∧ (∀ p, 0x44 ≤ p → p ≤ 0x47 → e.owner = false → OnEngine e j (0x5000 + p) → e.r.cur.ds.length < 32 →
      (∀ c, e.s.mxuCmd? e.j.id = some c → c.seen = false) →
      exec (.alIn j p) e.s = .next (ran e { e.r.cur with ds := ⟨0, false⟩ :: e.r.cur.ds }))
    ∧ (OnEngine e j 0x5001 → e.r.cur.ds.length < 32 → ∃ t v, exec (.alIn j 0x01) e.s = .next t ∧ v < 900
      ∧ t.run? j = some { e.r with cur := { stepped with ds := ⟨BitVec.ofNat 32 v, false⟩ :: e.r.cur.ds } } ∧ t.work = e.s.work
      ∧ t.store = e.s.store ∧ t.hostMem = e.s.hostMem)
    ∧ (∀ p ∈ writePorts, OnEngine e j (0x6000 + p.1) →
      (e.r.cur.ds = [] → Halts (.alOut j p.1) e .stack)
      ∧ ∀ x rest, e.r.cur.ds = x :: rest →
        (x.tag = false → exec (.alOut j p.1) e.s = .next (ran e (p.2 { e.r.cur with ds := rest } x.v)))
        ∧ (x.tag = true → Halts (.alOut j p.1) e .taint))
    ∧ (∀ x rest, e.r.cur.ds = x :: rest →
      (OnEngine e j 0x600C →
        (x.tag = false → x.v.toNat % 4096 = 0 → exec (.alOut j 0x0C) e.s = .next (ran e { e.r.cur with inBase := x.v, ds := rest }))
        ∧ (x.v.toNat % 4096 ≠ 0 → Halts (.alOut j 0x0C) e .illegal))
      ∧ (OnEngine e j 0x600D →
        (x.tag = false → x.v.toNat % 4096 = 0 → exec (.alOut j 0x0D) e.s = .next (ran e { e.r.cur with outBase := x.v, ds := rest }))
        ∧ (x.v.toNat % 4096 ≠ 0 → Halts (.alOut j 0x0D) e .illegal))
      ∧ (OnEngine e j 0x600E →
        (x.tag = false → e.owner = false ∨ x.v.toNat % 65536 ≤ 1 →
          exec (.alOut j 0x0E) e.s = .next (ran e { e.r.cur with jobStatus := x.v, ds := rest }))
        ∧ (e.owner = true → 1 < x.v.toNat % 65536 → Halts (.alOut j 0x0E) e .illegal))
      ∧ (OnEngine e j 0x6020 → x.tag = false → exec (.alOut j 0x20) e.s = .next (e.s.putRun { e.r with
          hsSel := x.v.toNat % 4, cur := { stepped with ds := rest } }))
      ∧ (OnEngine e j 0x6034 → Halts (.alOut j 0x34) e .illegal)
      ∧ (e.owner = false →
        (∀ k, k < 3 → OnEngine e j (0x6008 + k) → x.tag = false → exec (.alOut j (0x08 + k)) e.s = .next (e.s.putRun { e.r with
          mbox := e.r.mbox.set k x.v, cur := { stepped with ds := rest } }))
        ∧ (∀ k, k < 2 → OnEngine e j (0x6040 + k) → x.tag = false → exec (.alOut j (0x40 + k)) e.s = .next (e.s.putRun { e.r with
          mxu := e.r.mxu.set k x, cur := { stepped with ds := rest } }))
        ∧ (∀ k, k < 2 → OnEngine e j (0x6042 + k) → exec (.alOut j (0x42 + k)) e.s = .next (e.s.putRun { e.r with
          mxu := e.r.mxu.set (2 + k) x, cur := { stepped with ds := rest } }))
        ∧ (OnEngine e j 0x6050 → x.tag = false → exec (.alOut j 0x50) e.s = .next (e.s.putRun { e.r with
          declSrc := x.v, cur := { stepped with ds := rest } }))))
    ∧ (∀ p, p < 256 → portOk e p = false →
      (OnEngine e j (0x5000 + p) → Halts (.alIn j p) e .illegal)
      ∧ (OnEngine e j (0x6000 + p) → Halts (.alOut j p) e .illegal))
    ∧ ∀ p ∈ portRows, ∀ s, exec (p.1 j) s = exec (p.2 j) s

/-- Hash states (R305, Table 11.6): a write of HS_CTRL sets RATE, FUNC and DOMAIN; with INIT it clears the selected state, an
undefined FUNC being ILLEGAL, with PAD it starts the squeeze; HS_IN and HS_INB absorb four bytes and one, low byte first, with the
tag; HS_OUT takes four bytes of the output, of a state that yields none a free word; each stalls, changing nothing, while a
permutation runs, and its end clears BUSY; a tagged control word is TAINT.
Completes: hsInit, hsPad, hsIn, hsInb, hsOut, hashPermutationDone. -/
def Obligations.AladaHash : Prop :=
  ∀ (e : Eng) (j : Nat),
    let h := selected e
    (∀ x rest, e.r.cur.ds = x :: rest →
      let v := x.v.toNat
      let f := v / 16 % 16
      let g : HashState := { (if bit v 0 then idleHash else h) with rate := v / 256 % 256, func := f, domain := v / 4 % 4 }
      let g := if bit v 1 ∧ g.squeeze = false then { g with squeeze := true, busy := true } else g
      (∀ p ∈ ([(.hsInit, fun v => bit v 0), (.hsPad, fun v => bit v 1), (fun j => .alOut j 0x21, fun _ => true)] :
          List ((Nat → Instr) × (Nat → Bool))), OnEngine e j 0x6021 →
        (p.2 v = true →
          ((bit v 0 = true → f ≤ 6 ∨ f = 8) →
            (x.tag = false → h.busy = false → exec (p.1 j) e.s = .next (ran e (hashed e g rest)))
            ∧ (x.tag = false → h.busy = true → Stalls (p.1 j) e)
            ∧ (x.tag = true → Halts (p.1 j) e .taint))
          ∧ (bit v 0 = true → f = 7 ∨ 8 < f → Halts (p.1 j) e .illegal))
        ∧ (p.2 v = false → exec (p.1 j) e.s = .next e.s))
      ∧ (∀ p ∈ ([(.hsIn, 0x6022, 4), (.hsInb, 0x6023, 1)] : List ((Nat → Instr) × Nat × Nat)), OnEngine e j p.2.1 →
        (h.squeeze = true → Halts (p.1 j) e .illegal)
        ∧ (h.squeeze = false → h.busy = true → Stalls (p.1 j) e)
        ∧ (h.squeeze = false → h.busy = false → ∃ g, exec (p.1 j) e.s = .next (ran e (hashed e g rest))
          ∧ g.absorbed = h.absorbed ++ leBytes p.2.2 v ∧ g.tagged = (h.tagged || x.tag)
          ∧ g.rate = h.rate ∧ g.func = h.func ∧ g.domain = h.domain ∧ g.squeeze = false)))
    ∧ (e.r.cur.ds = [] → (OnEngine e j 0x6021 → Halts (.hsInit j) e .stack ∧ Halts (.hsPad j) e .stack)
      ∧ (OnEngine e j 0x6022 → Halts (.hsIn j) e .stack) ∧ (OnEngine e j 0x6023 → Halts (.hsInb j) e .stack))
    ∧ (OnEngine e j 0x5024 →
      (h.busy = true → Stalls (.hsOut j) e)
      ∧ (h.busy = false → e.r.cur.ds.length < 32 →
        (h.squeeze = true → h.defined = true → ∃ g,
          exec (.hsOut j) e.s = .next (ran e (hashed e g
            (⟨BitVec.ofNat 32 (leNat (h.outAt h.squeezed 4)), h.tagged⟩ :: e.r.cur.ds)))
          ∧ g.squeezed = h.squeezed + 4 ∧ g.absorbed = h.absorbed ∧ g.tagged = h.tagged)
        ∧ ((h.squeeze && h.defined) = false → exec (.hsOut j) e.s = .next ((drawn e.s 4).putRun { e.r with
          cur := { e.r.cur with ds := ⟨BitVec.ofNat 32 (leNat (fresh e.s 4)), h.tagged⟩ :: e.r.cur.ds,
                                pc := (e.r.cur.pc + 1) % 8192 } }))))
    ∧ ∀ (s : State) (k : Nat) (r : Run) (g : HashState), s.run? j = some r → r.cur.hash[k]? = some g →
      ∃ t u, exec (.hashPermutationDone j k) s = .next t ∧ t.run? j = some u
        ∧ u.cur.hash[k]? = some { g with busy := false } ∧ (∀ i, i ≠ k → u.cur.hash[i]? = r.cur.hash[i]?)
        ∧ u.cur.ds = r.cur.ds ∧ u.cur.pc = r.cur.pc ∧ t.work = s.work

/-- Keys, random words and secrets that may leave (R257, R262, R304, R306, R318, R323, R375): KEY_REQ starts a delivery to KEY, of
the private half, the public half or a context slot from OFFSET on, which KEY_DELIVERY_DONE ends, the bytes tagged unless they are a
public half; a second stalls, a wrong SOURCE is ILLEGAL, a wrong DEST ACCESS, a lost line or a glitch ends the job; DRBG_READ pushes a
tagged word of free bytes, or ends the job with DEVICE_FAULT 0x40; DECL_GO copies a range untagged to OUT, a verdict to WORK, and is
ILLEGAL for an owner routine or a KIND the opcode has not.
Completes: keyReq, keyDeliveryDone, drbgRead, vfaultFill, mboxCmd, declGo.
Where the spec leaves a point open it rests on the model's choice in log entries 5, 41 and 54. -/
def Obligations.AladaSecrets : Prop :=
  ∀ (e : Eng) (j : Nat),
    (∀ x rest, e.r.cur.ds = x :: rest →
      let v := x.v.toNat
      let dest := v % 65536
      let src := v / 2 ^ 30
      (OnEngine e j 0x6010 → ∀ u,
        let faults (h : Halt) := exec (.keyReq j u) e.s = .next (engineFault e.s e.j e.r h).clearIfSafe
        (∀ s0, strikeVault e.s e.j u = (s0, true) →
          exec (.keyReq j u) e.s = .next (finalCommit (s0.putRun e.r) j (err 0x0600 0x50)).clearIfSafe)
        ∧ (u = .glitch → exec (.keyReq j u) e.s = .next (finalCommit
          ((glitchAlarm e.s e.j.inst e.j.opcode (unitId 0 e.j.engine)).putRun e.r) j (err 0x0600 0x71)).clearIfSafe)
        ∧ (strikeVault e.s e.j u = (e.s, false) → u ≠ .glitch →
          (x.tag = true → faults .taint)
          ∧ (x.tag = false →
            (src = 3 ∨ src = 2 ∧ e.owner = true → faults .illegal)
            ∧ (src ≤ 1 ∨ src = 2 ∧ e.owner = false →
              (dest % 64 ≠ 0 ∨ dest < 0xD000 ∨ 0xF000 ≤ dest → faults .access)
              ∧ (dest % 64 = 0 → 0xD000 ≤ dest → dest < 0xF000 →
                (e.r.delivery ≠ none → exec (.keyReq j u) e.s = .next e.s.clearIfSafe)
                ∧ (e.r.delivery = none → ∀ i k b, e.j.keyIdx = some i → keyAt e.s i = some k → k.material ≤ 65536 →
                  keyMaterial e src = some b →
                  let b := (b.drop (64 * (v / 2 ^ 16 % 2 ^ 14))).take (0xF000 - dest)
                  let s1 := if src ≤ 1 then cacheFill e.s e.j.grove i else e.s
                  let c := { e.r.cur with ds := rest, pc := (e.r.cur.pc + 1) % 8192 }
                  let t := s1.putRun (if b = [] then { e.r with delivered := 0, cur := c }
                    else { e.r with delivery := some ⟨src, dest, b⟩, cur := c })
                  exec (.keyReq j u) e.s = .next (if usesQuarantined s1 e.j then finalCommit t j (err 0x0600 0x50)
                    else t).clearIfSafe))))))
      ∧ (OnEngine e j 0x6008 → (e.owner = true → Halts (.mboxCmd j) e .illegal)
        ∧ (e.owner = false → x.tag = false → exec (.mboxCmd j) e.s = .next (e.s.putRun { e.r with
          mbox := e.r.mbox.set 0 x.v, cur := { e.r.cur with ds := rest, pc := (e.r.cur.pc + 1) % 8192 } })))
      ∧ (OnEngine e j 0x6051 →
        let n := v / 65536
        let from_ := e.r.declSrc.toNat % 65536
        let dst := e.r.declSrc.toNat / 65536
        let o := e.r.cur.outBase.toNat + (dst - 0xB000)
        (e.owner = true → Halts (.declGo j) e .illegal)
        ∧ (e.owner = false → x.tag = false →
          (declAllowed e.j (v % 16) = false → Halts (.declGo j) e .illegal)
          ∧ (declAllowed e.j (v % 16) = true →
            (n = 0 ∨ 8192 < n ∨ v % 16 = 8 ∧ n ≠ 4 → Halts (.declGo j) e .illegal)
            ∧ (v % 16 ≠ 8 → 1 ≤ n → n ≤ 8192 →
              (0xB000 ≤ dst → dst + n ≤ 0xD000 → ∀ b t, dRead e from_ n = .ok (b, t) →
                (o + n ≤ e.j.outLen → exec (.declGo j) e.s =
                  .next (ran e { e.r.cur with out := setBytes e.r.cur.out o false b, ds := rest }))
                ∧ (e.j.outLen < o + n → Halts (.declGo j) e .access))
              ∧ (dst < 0xB000 ∨ 0xD000 < dst + n → Halts (.declGo j) e .access))
            ∧ (v % 16 = 8 → n = 4 → dst + 4 ≤ 0x8000 → ∀ b t, dRead e from_ 4 = .ok (b, t) → exec (.declGo j) e.s =
              .next (ran e { e.r.cur with work := setBytes e.r.cur.work dst false b, ds := rest }))))))
    ∧ (∀ x rest, e.r.cur.ds = x :: rest → OnEngine e j 0x6037 →
      (2 ^ 31 ≤ e.r.cur.vfaultElem.toNat → exec (.vfaultFill j) e.s =
        .next (ran e (vfaultFill { e.r.cur with ds := rest } e.r.trapLd x))
        ∧ (vfaultFill e.r.cur e.r.trapLd x).vstart = BitVec.ofNat 32 (e.r.cur.vstart.toNat + 1)
        ∧ (vfaultFill e.r.cur e.r.trapLd x).vfaultElem.toNat < 2 ^ 31)
      ∧ (e.r.cur.vfaultElem.toNat < 2 ^ 31 → exec (.vfaultFill j) e.s = .next (ran e { e.r.cur with ds := rest })))
    ∧ (OnEngine e j 0x5018 →
      (drbgDown e.s e.j = false → (e.r.cur.ds.length < 32 → exec (.drbgRead j) e.s = .next ((drawn e.s 4).putRun { e.r with
        cur := { e.r.cur with ds := ⟨BitVec.ofNat 32 (leNat (fresh e.s 4)), true⟩ :: e.r.cur.ds,
                              pc := (e.r.cur.pc + 1) % 8192 } }))
        ∧ (e.r.cur.ds.length = 32 → Halts (.drbgRead j) e .stack))
      ∧ (drbgDown e.s e.j = true →
        exec (.drbgRead j) e.s = .next (finalCommit (e.s.putRun e.r.restore) j (err 0x0600 0x40))))
    ∧ ∀ (s : State) (r : Run), s.run? j = some r →
      (r.delivery = none → ∃ t, exec (.keyDeliveryDone j) s = .next t ∧ t.run? j = some r ∧ t.store = s.store ∧ t.work = s.work)
      ∧ ∀ d, r.delivery = some d → ∃ t, exec (.keyDeliveryDone j) s = .next t ∧ t.run? j = some { r with
          key := setBytes r.key (d.dest - 0xD000) (decide (d.source ≠ 1)) d.bytes, delivery := none,
          delivered := d.bytes.length } ∧ t.store = s.store ∧ t.work = s.work

/-- Owner routines and their gates (R257, R329, R331, R332, Table 11.16): ROUTINE_CALL loads the overlay, enters the routine with
the job's input, or goes on with the run that stands, and runs as many of its instructions as it is given, each with the meaning of its
own row; a gate called from it seals, tags or draws into the range it is given, outside its rules it is ILLEGAL, with a tagged operand
TAINT, with too few operands or no room on the return stack STACK; a DRBG in its error state ends the job with 0x40.
Completes: routineCall, gateSeal, gateTag, gateRandom.
Where the spec leaves a point open it rests on the model's choice in log entries 4, 16 and 41. -/
def Obligations.RoutineCalls : Prop :=
  (∀ (s : State) (j n : Nat) (x : Job), s.job? j = some x → x.opcode = 0x60 →
      (inSlice s x = false → exec (.routineCall j n) s = .next s)
      ∧ (inSlice s x = true →
        (∀ s1 r, enterRun s x = (s1, some r) → exec (.routineCall j n) s = .next (runOwner j n (({ s1 with
          engines := s1.engines.modify x.engine fun e => { e with overlay := some (x.opt % 256) } }).putRun r)))
        ∧ (∀ s1 inp, s.run? j = none → jobInput s x = (s1, some inp) → enterRun s x = (s1, some (newRun s1 x inp)))
        ∧ (∀ s1, s.run? j = none → jobInput s x = (s1, none) → exec (.routineCall j n) s = .next (noInput s s1 x))))
  ∧ (∀ (s : State) (j n : Nat),
      (ownerWord s j = none → runOwner j n s = s)
      ∧ (∀ w t, ownerWord s j = some w → aladaWord j w s = .next t → runOwner j (n + 1) s = runOwner j n t)
      ∧ (∀ p ∈ binaries, aladaWord j p.2.1 s = exec (p.1 j) s) ∧ (∀ p ∈ takers, aladaWord j p.2.1 s = exec (p.1 j) s)
      ∧ (∀ p ∈ pushers, aladaWord j p.2 s = exec (p.1 j) s)
      ∧ (∀ k, k < 256 → aladaWord j (0x5000 + k) s = exec (.alIn j k) s ∧ aladaWord j (0x6000 + k) s = exec (.alOut j k) s))
  ∧ ∀ (e : Eng) (j : Nat),
    (∀ p ∈ ([(.gateSeal, 0x4008, 4), (.gateTag, 0x4009, 3), (.gateRandom, 0x400A, 2)] : List ((Nat → Instr) × Nat × Nat)),
      OnEngine e j p.2.1 → (e.owner = false → exec (p.1 j) e.s = .next e.s)
      ∧ (e.owner = true → 16 ≤ e.r.cur.rs.length ∨ e.r.cur.ds.length < p.2.2 → Halts (p.1 j) e .stack))
    ∧ (e.owner = true → e.r.cur.rs.length < 16 →
      (OnEngine e j 0x4008 → ∀ dst len src nonce rest, e.r.cur.ds = dst :: len :: src :: nonce :: rest →
        let n := len.v.toNat
        let o := e.r.cur.outBase.toNat + (dst.v.toNat - 0xB000)
        (gateKey e [0x30, 0x31] = none ∨ 256 < n → Halts (.gateSeal j) e .illegal)
        ∧ ∀ i k nb b t, e.j.keyIdx = some i → gateKey e [0x30, 0x31] = some k → n ≤ 256 → 0xB000 ≤ dst.v.toNat →
          dst.v.toNat + n + 16 ≤ 0xD000 → o + n + 16 ≤ e.j.outLen → dRead e nonce.v.toNat 12 = .ok (nb, false) →
          (if n = 0 then b = [] else dRead e src.v.toNat n = .ok (b, t)) →
          let ct := aeadSealOf (ap k.alg k.pset) k.sk nb [] b
          ((dst.tag || len.tag || src.tag || nonce.tag) = true → Halts (.gateSeal j) e .taint)
          ∧ ((dst.tag || len.tag || src.tag || nonce.tag) = false → ct.length = n + 16 → exec (.gateSeal j) e.s =
            .next (ran { e with s := cacheFill e.s e.j.grove i } { e.r.cur with out := setBytes e.r.cur.out o false ct, ds := rest })))
      ∧ (OnEngine e j 0x4009 → ∀ dst len src rest, e.r.cur.ds = dst :: len :: src :: rest →
        let n := len.v.toNat
        let o := e.r.cur.outBase.toNat + (dst.v.toNat - 0xB000)
        (gateKey e [0x28, 0x29] = none ∨ 512 < n → Halts (.gateTag j) e .illegal)
        ∧ ∀ i k b t, e.j.keyIdx = some i → gateKey e [0x28, 0x29] = some k → n ≤ 512 → 0xB000 ≤ dst.v.toNat →
          (if n = 0 then b = [] else dRead e src.v.toNat n = .ok (b, t)) →
          let m := if k.alg = 0x28 then hashLen k.pset else if k.pset = 0x01 then 32 else 64
          let tag := if k.alg = 0x28 then hmacOf k.pset k.sk b else kmacOf k.pset k.sk b [] m
          1 ≤ m → dst.v.toNat + m ≤ 0xD000 → o + m ≤ e.j.outLen →
          ((dst.tag || len.tag || src.tag) = true → Halts (.gateTag j) e .taint)
          ∧ ((dst.tag || len.tag || src.tag) = false → tag.length = m → exec (.gateTag j) e.s =
            .next (ran { e with s := cacheFill e.s e.j.grove i } { e.r.cur with out := setBytes e.r.cur.out o false tag, ds := rest })))
      ∧ (OnEngine e j 0x400A → ∀ dst len rest, e.r.cur.ds = len :: dst :: rest →
        let n := len.v.toNat
        let o := e.r.cur.outBase.toNat + (dst.v.toNat - 0xB000)
        let work := dst.v.toNat + n ≤ 0x8000
        let out := 0xB000 ≤ dst.v.toNat ∧ dst.v.toNat + n ≤ 0xD000 ∧ o + n ≤ e.j.outLen
        (n = 0 ∨ 256 < n → Halts (.gateRandom j) e .illegal)
        ∧ (1 ≤ n → n ≤ 256 → work ∨ out →
          ((dst.tag || len.tag) = true → Halts (.gateRandom j) e .taint)
          ∧ ((dst.tag || len.tag) = false →
            (drbgDown e.s e.j = true →
              exec (.gateRandom j) e.s = .next (finalCommit (e.s.putRun e.r.restore) j (err 0x0600 0x40)))
            ∧ (drbgDown e.s e.j = false →
              (work → exec (.gateRandom j) e.s = .next (ran { e with s := drawn e.s n }
                { e.r.cur with work := setBytes e.r.cur.work dst.v.toNat false (fresh e.s n), ds := rest }))
              ∧ (out → exec (.gateRandom j) e.s = .next (ran { e with s := drawn e.s n }
                { e.r.cur with out := setBytes e.r.cur.out o false (fresh e.s n), ds := rest })))))))

namespace Sys2Proof.Claims

/-! ### The vector units -/

/-- The state in which the SV unit, or the LV unit, of the engine of job `j` is awake and has not idled (R39). -/
def svAwake (s : State) (j : Job) : State :=
  { s with engines := s.engines.modify j.engine fun x => { x with svOn := true, svIdle := 0 } }
def lvAwake (s : State) (j : Job) : State :=
  { s with engines := s.engines.modify j.engine fun x => { x with lvOn := true, lvIdle := 0 } }

/-- The run goes on with `a` at the next instruction, the unit awake; nothing else changes. -/
def svRan (e : Eng) (a : Arch) : State :=
  (svAwake e.s e.j).putRun { e.r with cur := { a with pc := (a.pc + 1) % 8192 } }
def lvRan (e : Eng) (a : Arch) : State :=
  (lvAwake e.s e.j).putRun { e.r with cur := { a with pc := (a.pc + 1) % 8192 } }

/-- SV register `i`, and the architectural state with `v` and tag in it. -/
def svAt (a : Arch) (i : Nat) : SvReg := a.sv.getD i { v := 0, tag := false }
def svSet (a : Arch) (i : Nat) (v : BitVec 128) (tag : Bool) : Arch := { a with sv := a.sv.set i { v := v, tag := tag } }

/-- Element `i` of width `w` of a register. -/
def elem (w : Nat) (v : BitVec 128) (i : Nat) : Nat := v.toNat / 2 ^ (w * i) % 2 ^ w

/-- Every element of `r` is the given function of its place. -/
def EachElem (w : Nat) (r : BitVec 128) (f : Nat → Nat) : Prop := ∀ i, i < 128 / w → elem w r i = f i % 2 ^ w

/-- Element-wise operations on SD and SS, and those that shift SD by a popped count. -/
def svPairs : List ((Nat → Nat → Nat → Instr) × Nat × (Nat → Nat → Nat → Nat)) :=
  [(.svAdd, 0x02, fun _ x y => x + y), (.svSub, 0x03, fun w x y => x + (2 ^ w - y)), (.svMul, 0x04, fun _ x y => x * y)]
def svShifts : List ((Nat → Nat → Nat → Instr) × Nat × (Nat → Nat → Nat → Nat)) :=
  [(.svShl, 0x08, fun _ x n => x * 2 ^ n), (.svShr, 0x09, fun _ x n => x / 2 ^ n),
   (.svRotl, 0x0A, fun w x n => x * 2 ^ n + x / 2 ^ (w - n))]

/-- Operations on the 128 bits of SD and SS. -/
def svWholes : List ((Nat → Nat → Nat → Instr) × Nat × (BitVec 128 → BitVec 128 → BitVec 128)) :=
  [(.svAnd, 0x05, fun x y => x &&& y), (.svOr, 0x06, fun x y => x ||| y), (.svXor, 0x07, fun x y => x ^^^ y),
   (.svAesr, 0x0F, fun x k => svPack 8 (aesMix (aesSubShift x)) ^^^ k),
   (.svAeslr, 0x10, fun x k => svPack 8 (aesSubShift x) ^^^ k), (.svClmul, 0x11, clMul)]

/-- Every SV instruction with its OP; and those that take `n` data entries. -/
def svAll : List ((Nat → Nat → Nat → Instr) × Nat) :=
  [(.svLd, 0x00), (.svSt, 0x01), (.svAdd, 0x02), (.svSub, 0x03), (.svMul, 0x04), (.svAnd, 0x05), (.svOr, 0x06), (.svXor, 0x07),
   (.svShl, 0x08), (.svShr, 0x09), (.svRotl, 0x0A), (.svCmov, 0x0B), (.svMov, 0x0C), (.svZero, 0x0D), (.svShuf, 0x0E),
   (.svAesr, 0x0F), (.svAeslr, 0x10), (.svClmul, 0x11), (.svTos, 0x12), (.svFroms, 0x13)]
def svTakers : List ((Nat → Nat → Nat → Instr) × Nat) :=
  [(.svLd, 0x00), (.svShl, 0x08), (.svShr, 0x09), (.svRotl, 0x0A), (.svCmov, 0x0B), (.svTos, 0x12), (.svFroms, 0x13)]

end Sys2Proof.Claims

open Sys2Proof.Claims

/-! ### Short vectors -/

/-- SV instructions (R313, R320, R321, Table 11.8): arithmetic wraps in each element of the width VCFG sets, shifts take their
popped untagged count modulo it, logic, AES rounds and the carry-less product work on 128 bits, SHUF takes bytes of SD at the
indices in SS; SD takes the OR of the tags, and no other register changes.  While a vector fault is captured each is ILLEGAL.
SV loads, stores and element moves (R313, R320, R321): a load takes 16 bytes at an aligned untagged address with the OR of
their tags; a store writes them with the register's tag; TOS pushes an element of SS and FROMS sets one of SD, a 64-bit one in
two words with the high word on top; an index beyond the register is ILLEGAL; an empty stack is STACK.
Completes: svLd, svSt, svAdd, svSub, svMul, svAnd, svOr, svXor, svShl, svShr, svRotl, svCmov, svMov, svZero, svShuf, svAesr,
svAeslr, svClmul, svTos, svFroms.
Where the spec leaves a point open it rests on the model's choice in log entry 41. -/
def Obligations.ShortVectorUnit : Prop :=
  (∀ (e : Eng) (j d x : Nat), d < 16 → x < 16 →
      (∀ p ∈ svAll, OnEngine e j (0x8000 + p.2 * 256 + d * 16 + x) → 2 ^ 31 ≤ e.r.cur.vfaultElem.toNat →
        Halts (p.1 j d x) e .illegal)
      ∧ (∀ p ∈ svTakers, OnEngine e j (0x8000 + p.2 * 256 + d * 16 + x) → e.r.cur.vfaultElem.toNat < 2 ^ 31 → e.r.cur.ds = [] →
        Halts (p.1 j d x) e .stack)
      ∧ (OnEngine e j (0x8100 + x) → e.r.cur.vfaultElem.toNat < 2 ^ 31 → e.r.cur.ds = [] → Halts (.svSt j 0 x) e .stack))
  ∧   (∀ (e : Eng) (j d x : Nat), d < 16 → x < 16 → e.r.cur.vfaultElem.toNat < 2 ^ 31 →
      let c := e.r.cur
      let w := 8 * 2 ^ (c.vcfg.toNat / 256 % 4)
      let a := svAt c d
      let b := svAt c x
      let code (op : Nat) := 0x8000 + op * 256 + d * 16 + x
      (∀ p ∈ svPairs, OnEngine e j (code p.2.1) → ∃ r, exec (p.1 j d x) e.s = .next (svRan e (svSet c d r (a.tag || b.tag)))
        ∧ EachElem w r fun i => p.2.2 w (elem w a.v i) (elem w b.v i))
      ∧ (∀ p ∈ svShifts, OnEngine e j (code p.2.1) → ∀ n rest, c.ds = n :: rest →
        (n.tag = false → ∃ r, exec (p.1 j d x) e.s = .next (svRan e { svSet c d r a.tag with ds := rest })
          ∧ EachElem w r fun i => p.2.2 w (elem w a.v i) (n.v.toNat % w))
        ∧ (n.tag = true → Halts (p.1 j d x) e .taint))
      ∧ (∀ p ∈ svWholes, OnEngine e j (code p.2.1) →
        exec (p.1 j d x) e.s = .next (svRan e (svSet c d (p.2.2 a.v b.v) (a.tag || b.tag))))
      ∧ (OnEngine e j (code 0x0B) → ∀ n rest, c.ds = n :: rest → exec (.svCmov j d x) e.s =
          .next (svRan e { svSet c d (if n.v ≠ 0 then b.v else a.v) (a.tag || b.tag || n.tag) with ds := rest }))
      ∧ (OnEngine e j (code 0x0C) → exec (.svMov j d x) e.s = .next (svRan e (svSet c d b.v b.tag)))
      ∧ (OnEngine e j (code 0x0D) → (x = 0 → exec (.svZero j d x) e.s = .next (svRan e (svSet c d 0 false)))
        ∧ (x ≠ 0 → Halts (.svZero j d x) e .illegal))
      ∧ (OnEngine e j (code 0x0E) → ∃ r, exec (.svShuf j d x) e.s = .next (svRan e (svSet c d r (a.tag || b.tag)))
        ∧ ∀ i, i < 16 → elem 8 r i = elem 8 a.v (elem 8 b.v i % 16)))
  ∧ (∀ (e : Eng) (j d x : Nat), d < 16 → x < 16 → e.r.cur.vfaultElem.toNat < 2 ^ 31 →
      let c := e.r.cur
      let w := 8 * 2 ^ (c.vcfg.toNat / 256 % 4)
      let code (op : Nat) := 0x8000 + op * 256 + d * 16 + x
      (OnEngine e j (code 0x00) → ∀ a rest, c.ds = a :: rest →
        (a.tag = false → a.v.toNat % 16 = 0 →
          (∀ b t, dRead e a.v.toNat 16 = .ok (b, t) →
            exec (.svLd j d x) e.s = .next (svRan e { svSet c d (BitVec.ofNat 128 (leNat b)) t with ds := rest }))
          ∧ (dRead e a.v.toNat 16 = .error .access → Halts (.svLd j d x) e .access)
          ∧ (dRead e a.v.toNat 16 = .error .stall → Stalls (.svLd j d x) e))
        ∧ (a.tag = true → Halts (.svLd j d x) e .taint)
        ∧ (a.tag = false → a.v.toNat % 16 ≠ 0 → Halts (.svLd j d x) e .access))
      ∧ (OnEngine e j (code 0x01) → ∀ a rest, c.ds = a :: rest →
        let y := svAt c x
        let o := c.outBase.toNat + (a.v.toNat - 0xB000)
        let out := 0xB000 ≤ a.v.toNat ∧ a.v.toNat < 0xD000
        (d ≠ 0 → Halts (.svSt j d x) e .illegal)
        ∧ (d = 0 → (a.tag = true ∨ y.tag = true ∧ out) → Halts (.svSt j d x) e .taint)
        ∧ (d = 0 → a.tag = false → (y.tag = true → ¬out) →
          (a.v.toNat % 16 ≠ 0 → Halts (.svSt j d x) e .access)
          ∧ (a.v.toNat % 16 = 0 →
            (a.v.toNat < 0x8000 → exec (.svSt j d x) e.s =
              .next (svRan e { c with ds := rest, work := setBytes c.work a.v.toNat y.tag (leBytes 16 y.v.toNat) }))
            ∧ (out → o + 16 ≤ e.j.outLen → exec (.svSt j d x) e.s =
              .next (svRan e { c with ds := rest, out := setBytes c.out o false (leBytes 16 y.v.toNat) }))
            ∧ (out → e.j.outLen < o + 16 → Halts (.svSt j d x) e .access)
            ∧ (0x8000 ≤ a.v.toNat → ¬out → Halts (.svSt j d x) e .access))))
      ∧ (OnEngine e j (code 0x12) → ∀ i rest, c.ds = i :: rest → rest.length ≤ 30 →
        let v := elem w (svAt c x).v i.v.toNat
        let t := (svAt c x).tag
        (128 / w ≤ i.v.toNat → Halts (.svTos j d x) e .illegal)
        ∧ (i.v.toNat < 128 / w → i.tag = true → Halts (.svTos j d x) e .taint)
        ∧ (i.v.toNat < 128 / w → i.tag = false → exec (.svTos j d x) e.s = .next (svRan e { c with ds :=
            if w = 64 then ⟨BitVec.ofNat 32 (v / 2 ^ 32), t⟩ :: ⟨BitVec.ofNat 32 v, t⟩ :: rest
            else ⟨BitVec.ofNat 32 v, t⟩ :: rest })))
      ∧ (OnEngine e j (code 0x12) → w = 64 → ∀ i rest, c.ds = i :: rest → rest.length = 31 → i.v.toNat < 2 → i.tag = false →
        Halts (.svTos j d x) e .stack)
      ∧ (OnEngine e j (code 0x13) → ∀ i st, c.ds = i :: st →
        (128 / w ≤ i.v.toNat → Halts (.svFroms j d x) e .illegal)
        ∧ (i.v.toNat < 128 / w → st.length < (if w = 64 then 2 else 1) → Halts (.svFroms j d x) e .stack)
        ∧ (i.v.toNat < 128 / w → (if w = 64 then 2 else 1) ≤ st.length → i.tag = true → Halts (.svFroms j d x) e .taint)
        ∧ (w < 64 → ∀ v rest, st = v :: rest → i.v.toNat < 128 / w → i.tag = false → ∃ r,
          exec (.svFroms j d x) e.s = .next (svRan e { svSet c d r ((svAt c d).tag || v.tag) with ds := rest })
          ∧ EachElem w r fun k => if k = i.v.toNat then v.v.toNat else elem w (svAt c d).v k)
        ∧ (w = 64 → ∀ hi lo rest, st = hi :: lo :: rest → i.v.toNat < 2 → i.tag = false → ∃ r,
          exec (.svFroms j d x) e.s = .next (svRan e { svSet c d r ((svAt c d).tag || (hi.tag || lo.tag)) with ds := rest })
          ∧ EachElem w r fun k => if k = i.v.toNat then hi.v.toNat * 2 ^ 32 + lo.v.toNat else elem w (svAt c d).v k)))

namespace Sys2Proof.Claims

/-- Word of an LV instruction. -/
def lvCode (op m d x : Nat) : Nat := 0xA000 + op * 256 + m * 64 + d * 8 + x

/-- The modular operations of Table 11.7 on operands already reduced. -/
def modulars : List ((Nat → Nat → Nat → Nat → Instr) × Nat × (Nat → Nat → Nat → Nat)) :=
  [(.lvAddm, 0x04, fun q x y => (x + y) % q), (.lvSubm, 0x05, fun q x y => (x + (q - y)) % q),
   (.lvMulm, 0x06, fun q x y => x * y % q)]

/-- Sum of a function of the differences of the elements that take part, signed when MOD is odd (R310). -/
def sumOf (c : Arch) (m d x : Nat) (g : Nat → Nat) : Nat :=
  (((List.zipWith (fun a b => (elemInt c.lvWidth (m % 2 == 1) a - elemInt c.lvWidth (m % 2 == 1) b).natAbs)
    (lvElems c d) (lvElems c x)).take c.lvN).map g).sum

/-- Every LV constructor with its op, of any MOD, LD and LS; those that work modulo VQ; those that name two groups; those that
take a data entry. -/
def lvAll : List ((Nat → Nat → Nat → Nat → Instr) × Nat) :=
  [(.lvLd, 0x00), (.lvSt, 0x01), (.lvGather, 0x02), (.lvScatter, 0x03), (.lvAddm, 0x04), (.lvSubm, 0x05), (.lvMulm, 0x06),
   (.lvPmul, 0x07), (.lvBfly, 0x08), (.lvComp, 0x09), (.lvSamu, 0x0A), (.lvSamcbd, 0x0B), (.lvCmov, 0x0C), (.lvPerm, 0x0D),
   ((fun j m d x => .lvSad j m d x .none), 0x0E), (.lvSsd, 0x0F), (.lvOvb, 0x10), (.lvMov, 0x11), (.lvZero, 0x12),
   (.lvLogic, 0x13), (.lvAdd, 0x14)]
def lvModular : List ((Nat → Nat → Nat → Nat → Instr) × Nat) :=
  [(.lvAddm, 0x04), (.lvSubm, 0x05), (.lvMulm, 0x06), (.lvPmul, 0x07), (.lvBfly, 0x08), (.lvComp, 0x09), (.lvSamu, 0x0A),
   (.lvOvb, 0x10)]
def lvTwo : List ((Nat → Nat → Nat → Nat → Instr) × Nat) :=
  [(.lvSt, 0x01), (.lvGather, 0x02), (.lvScatter, 0x03), (.lvAddm, 0x04), (.lvSubm, 0x05), (.lvMulm, 0x06), (.lvPmul, 0x07),
   (.lvCmov, 0x0C), (.lvPerm, 0x0D), ((fun j m d x => .lvSad j m d x .none), 0x0E), (.lvSsd, 0x0F), (.lvOvb, 0x10),
   (.lvMov, 0x11), (.lvLogic, 0x13), (.lvAdd, 0x14)]

end Sys2Proof.Claims

open Sys2Proof.Claims

/-! ### Long vectors -/

/-- What LV instructions write, and when they may not run (R308, R309, R316, R318): of a group of registers elements below ELEMS
take the new values and the others stay, and registers outside the group stay; with a captured fault, width 11, a group not
aligned, too many elements, a VSTART left by another instruction, or a VQ that does not suit the width of a modular one, an
instruction is ILLEGAL; one that pops an entry of an empty stack is STACK.
Completes: lvLd, lvSt, lvGather, lvScatter, lvAddm, lvSubm, lvMulm, lvPmul, lvBfly, lvComp, lvSamu, lvSamcbd, lvCmov, lvPerm,
lvSad, lvSsd, lvOvb, lvMov, lvZero, lvLogic, lvAdd.
Where the spec leaves a point open it rests on the model's choice in log entry 41. -/
def Obligations.LongVectorRules : Prop :=
  (∀ (c : Arch) (d : Nat) (es : List Nat) (tag : Bool), c.lv.length = 8 → c.lvWidth ≠ 0 → d % c.group = 0 → d < 8 →
    c.lvN ≤ c.lvCount → c.lvN ≤ es.length →
    (∀ i, i < c.lvCount → (lvElems (lvPut c d es tag) d)[i]? =
      some (if i < c.lvN then es.getD i 0 % 2 ^ c.lvWidth else (lvElems c d).getD i 0))
    ∧ (∀ r, r < d ∨ d + c.group ≤ r → (lvPut c d es tag).lv[r]? = c.lv[r]?)
    ∧ (lvPut c d es tag).ds = c.ds ∧ (lvPut c d es tag).pc = c.pc ∧ (lvPut c d es tag).sv = c.sv)
  ∧ ∀ (e : Eng) (j m d x : Nat), m < 4 → d < 8 → x < 8 →
    let c := e.r.cur
    let q := c.vq.toNat
    (∀ p ∈ lvAll, OnEngine e j (lvCode p.2 m d x) →
      2 ^ 31 ≤ c.vfaultElem.toNat ∨ c.lvWidth = 0 ∨ d % c.group ≠ 0 ∨ c.lvCount < c.vcfg.toNat / 65536
        ∨ (c.vstart ≠ 0 ∧ c.pc ≠ c.vfaultElem.toNat / 2 ^ 13 % 2 ^ 13) →
      Halts (p.1 j m d x) e .illegal)
    ∧ (∀ p ∈ lvModular, OnEngine e j (lvCode p.2 m d x) →
      q % 2 = 0 ∨ q < 3 ∨ (c.lvWidth = 16 ∧ 2 ^ 15 ≤ q) ∨ (c.lvWidth = 32 ∧ 2 ^ 31 ≤ q) ∨ c.lvWidth = 64 →
      Halts (p.1 j m d x) e .illegal)
    ∧ (∀ p ∈ lvTwo, OnEngine e j (lvCode p.2 m d x) → x % c.group ≠ 0 → Halts (p.1 j m d x) e .illegal)
    ∧ (c.ds = [] →
      (lvIllegal c false [d] = false → (OnEngine e j (lvCode 0x00 m d x) → Halts (.lvLd j m d x) e .stack)
        ∧ (OnEngine e j (lvCode 0x0B m d x) → Halts (.lvSamcbd j m d x) e .stack))
      ∧ (lvIllegal c true [d] = false → m < 2 → (OnEngine e j (lvCode 0x08 m d x) → Halts (.lvBfly j m d x) e .stack)
        ∧ (OnEngine e j (lvCode 0x09 m d x) → Halts (.lvComp j m d x) e .stack))
      ∧ (lvIllegal c false [x] = false → OnEngine e j (lvCode 0x01 m 0 x) → Halts (.lvSt j m 0 x) e .stack)
      ∧ (lvIllegal c false [d, x] = false → (OnEngine e j (lvCode 0x02 m d x) → Halts (.lvGather j m d x) e .stack)
        ∧ (OnEngine e j (lvCode 0x03 m d x) → Halts (.lvScatter j m d x) e .stack)
        ∧ (OnEngine e j (lvCode 0x0C m d x) → Halts (.lvCmov j m d x) e .stack)
        ∧ (OnEngine e j (lvCode 0x0D 3 d x) → Halts (.lvPerm j 3 d x) e .stack)))

/-- LV arithmetic (R308 to R310, R320, Table 11.7): modular operations reduce their operands modulo VQ; PMUL multiplies
pointwise or, in MOD 1, pairs; COMP rounds to and from `n` bits; logic and add work on the elements; SAD and SSD push a 64-bit
sum, low word below; OVB flags the elements whose distance from zero reaches VBOUND; the tag is the OR of the sources'; a tagged count is TAINT; what the
spec leaves open of BFLY, PERM and COMP is free, and a glitch in SAD ends the job.
Completes: lvAddm, lvSubm, lvMulm, lvPmul, lvBfly, lvComp, lvCmov, lvPerm, lvSad, lvSsd, lvOvb, lvMov, lvZero, lvLogic,
lvAdd.
Where the spec leaves a point open it rests on the model's choice in log entries 15 and 41. -/
def Obligations.LongVectorArithmetic : Prop :=
  ∀ (e : Eng) (j m d x : Nat), m < 4 → d < 8 → x < 8 →
    let c := e.r.cur
    let q := c.vq.toNat
    let w := c.lvWidth
    let xs := lvElems c d
    let ys := lvElems c x
    let tag := groupTag c d || groupTag c x
    (lvIllegal c true [d, x] = false →
      (∀ p ∈ modulars, OnEngine e j (lvCode p.2.1 m d x) → exec (p.1 j m d x) e.s =
        .next (lvRan e (lvPut c d (List.zipWith (fun a b => p.2.2 q (a % q) (b % q)) xs ys) tag)))
      ∧ (OnEngine e j (lvCode 0x07 m d x) →
        (m = 0 → exec (.lvPmul j m d x) e.s =
          .next (lvRan e (lvPut c d (List.zipWith (fun a b => a % q * (b % q) % q) xs ys) tag)))
        ∧ (m = 1 → exec (.lvPmul j m d x) e.s = .next (lvRan e (lvPut c d (pairProducts q xs ys c.lvN) tag)))
        ∧ (1 < m → Halts (.lvPmul j m d x) e .illegal))
      ∧ (OnEngine e j (lvCode 0x10 m d x) → exec (.lvOvb j m d x) e.s = .next (lvRan e (lvPut c d
          (ys.map fun b => if c.vbound.toNat ≤ min (b % q) (q - b % q) then 1 else 0) (groupTag c x)))))
    ∧ (lvIllegal c true [d] = false → ∀ n rest, c.ds = n :: rest →
      (OnEngine e j (lvCode 0x09 m d x) →
        (1 < m → Halts (.lvComp j m d x) e .illegal)
        ∧ (m < 2 → n.tag = true → Halts (.lvComp j m d x) e .taint)
        ∧ (m < 2 → n.tag = false →
          let put (f : Nat → Nat) := lvRan e { lvPut c d (xs.map f) (groupTag c d) with ds := rest }
          (1 ≤ n.v.toNat → n.v.toNat ≤ w →
            (m = 0 → exec (.lvComp j m d x) e.s =
              .next (put fun a => (2 * (a % q * 2 ^ n.v.toNat) + q) / (2 * q) % 2 ^ n.v.toNat % q))
            ∧ (m = 1 → exec (.lvComp j m d x) e.s =
              .next (put fun a => (2 * q * (a % q) + 2 ^ n.v.toNat) / 2 ^ (n.v.toNat + 1) % q)))
          ∧ (n.v.toNat = 0 ∨ w < n.v.toNat → exec (.lvComp j m d x) e.s =
            .next (put fun a => Config.compElem m q n.v.toNat (a % q) % q))))
      ∧ (OnEngine e j (lvCode 0x08 m d x) →
        (1 < m → Halts (.lvBfly j m d x) e .illegal)
        ∧ (m < 2 → n.tag = true → Halts (.lvBfly j m d x) e .taint)
        ∧ (m < 2 → n.tag = false →
          (∀ b t, tableBytes e c.vtw.toNat (c.lvN * (w / 8)) = .ok (b, t) → ∃ es : List Nat, es.length = c.lvN ∧ (∀ y ∈ es, y < q)
            ∧ exec (.lvBfly j m d x) e.s = .next (lvRan e { lvPut c d es (groupTag c d || t) with ds := rest }))
          ∧ (tableBytes e c.vtw.toNat (c.lvN * (w / 8)) = .error .access → Halts (.lvBfly j m d x) e .access)
          ∧ (tableBytes e c.vtw.toNat (c.lvN * (w / 8)) = .error .stall → Stalls (.lvBfly j m d x) e))))
    ∧ (lvIllegal c false [d, x] = false →
      (OnEngine e j (lvCode 0x13 m d x) → ∃ g : Nat → Nat → Nat, (m = 0 → g = fun a b => a &&& b) ∧ (m = 1 → g = fun a b => a ||| b)
          ∧ (m = 2 → g = fun a b => a ^^^ b) ∧ (m = 3 → g = fun a b => a - (a &&& b))
          ∧ exec (.lvLogic j m d x) e.s = .next (lvRan e (lvPut c d (List.zipWith g xs ys) tag)))
      ∧ (OnEngine e j (lvCode 0x14 m d x) → (m = 0 → exec (.lvAdd j m d x) e.s =
            .next (lvRan e (lvPut c d (List.zipWith (· + ·) xs ys) tag)))
        ∧ (m = 1 → exec (.lvAdd j m d x) e.s =
            .next (lvRan e (lvPut c d (List.zipWith (fun a b => a + 2 ^ w - b) xs ys) tag)))
        ∧ (1 < m → Halts (.lvAdd j m d x) e .illegal))
      ∧ (OnEngine e j (lvCode 0x11 m d x) →
        exec (.lvMov j m d x) e.s = .next (lvRan e (lvPut c d ys (groupTag c x))))
      ∧ (OnEngine e j (lvCode 0x0C m d x) → ∀ n rest, c.ds = n :: rest → exec (.lvCmov j m d x) e.s =
          .next (lvRan e { lvPut c d (if n.v ≠ 0 then ys else xs) (tag || n.tag) with ds := rest }))
      ∧ (OnEngine e j (lvCode 0x0D m d x) →
        (m < 3 → ∃ es : List Nat, es.length = c.lvN ∧ exec (.lvPerm j m d x) e.s = .next (lvRan e (lvPut c d es tag)))
        ∧ (m = 3 → ∀ n rest, c.ds = n :: rest →
          (n.tag = true → Halts (.lvPerm j m d x) e .taint)
          ∧ (n.tag = false → ∃ es : List Nat, es.length = c.lvN
            ∧ exec (.lvPerm j m d x) e.s = .next (lvRan e { lvPut c d es tag with ds := rest }))))
      ∧ (30 < c.ds.length → (OnEngine e j (lvCode 0x0E m d x) → Halts (.lvSad j m d x .none) e .stack)
        ∧ (OnEngine e j (lvCode 0x0F m d x) → Halts (.lvSsd j m d x) e .stack))
      ∧ (c.ds.length ≤ 30 →
        let push (v : Nat) := lvRan e { c with ds := ⟨BitVec.ofNat 32 (v / 2 ^ 32), tag⟩ :: ⟨BitVec.ofNat 32 v, tag⟩ :: c.ds }
        (OnEngine e j (lvCode 0x0E m d x) → ∀ u, u ≠ .glitch →
          exec (.lvSad j m d x u) e.s = .next (push (sumOf c m d x fun y => y)))
        ∧ (OnEngine e j (lvCode 0x0F m d x) → exec (.lvSsd j m d x) e.s = .next (push (sumOf c m d x fun y => y * y)))))
    ∧ (OnEngine e j (lvCode 0x0E m d x) → exec (.lvSad j m d x .glitch) e.s = .next (finalCommit
        ((glitchAlarm e.s e.j.inst e.j.opcode (unitId 0 e.j.engine)).putRun e.r) j (err 0x0600 0x71)))
    ∧ (lvIllegal c false [d] = false → OnEngine e j (lvCode 0x12 m d x) →
      (x = 0 → exec (.lvZero j m d x) e.s = .next (lvRan e (lvPut c d (List.replicate c.lvN 0) false)))
      ∧ (x ≠ 0 → Halts (.lvZero j m d x) e .illegal))

/-- LV memory and samplers (R311, R312, R315 to R318, R320, R321): LD and ST move the elements at an aligned untagged address;
GATHER and SCATTER address each element by the index beside it, from VSTART on, and end with VSTART 0; at an element that faults the
vector trap, when enabled, saves its number and goes to VTVEC with the return address stacked, else it is ACCESS; a tagged address or
index is TAINT; SAMU draws elements below VQ, and SAMCBD differences of bits of an untagged or tagged hash state, whose tag they
take, stalling while a permutation runs.
Completes: lvLd, lvSt, lvGather, lvScatter, lvSamu, lvSamcbd.
Where the spec leaves a point open it rests on the model's choice in log entries 15 and 41. -/
def Obligations.LongVectorMemory : Prop :=
  ∀ (e : Eng) (j m d x : Nat), m < 4 → d < 8 → x < 8 →
    let c := e.r.cur
    let w := c.lvWidth
    let sz := w / 8
    let h := selected e
    (∀ a rest, c.ds = a :: rest →
      let n := a.v.toNat
      (OnEngine e j (lvCode 0x00 m d x) → lvIllegal c false [d] = false →
        (a.tag = true → Halts (.lvLd j m d x) e .taint)
        ∧ (a.tag = false →
          (n % 64 = 0 →
            (∀ b t, dRead e n (c.lvN * sz) = .ok (b, t) → exec (.lvLd j m d x) e.s =
              .next (lvRan e { lvPut c d ((List.range c.lvN).map fun i => leNat (sub b (sz * i) sz)) t with ds := rest }))
            ∧ (dRead e n (c.lvN * sz) = .error .access → Halts (.lvLd j m d x) e .access)
            ∧ (dRead e n (c.lvN * sz) = .error .stall → Stalls (.lvLd j m d x) e))
          ∧ (n % 64 ≠ 0 → Halts (.lvLd j m d x) e .access)))
      ∧ (OnEngine e j (lvCode 0x01 m d x) →
        (d ≠ 0 → Halts (.lvSt j m d x) e .illegal)
        ∧ (d = 0 → lvIllegal c false [x] = false →
          let es := taggedElems c x
          let secret := es.any fun y => y.2
          (a.tag = true ∨ (secret = true ∧ 0xB000 ≤ n ∧ n < 0xD000) → Halts (.lvSt j m d x) e .taint)
          ∧ (a.tag = false → n % 64 ≠ 0 → (secret = false ∨ n < 0xB000 ∨ 0xD000 ≤ n) → Halts (.lvSt j m d x) e .access)
          ∧ (a.tag = false → n % 64 = 0 → n + es.length * sz ≤ 0x8000 → ∃ k,
            exec (.lvSt j m d x) e.s = .next (lvRan e { c with work := k, ds := rest })
            ∧ ∀ i, i < n / 4 ∨ (n + es.length * sz + 3) / 4 ≤ i → cellAt k i = cellAt c.work i)
          ∧ (a.tag = false → n % 64 = 0 → secret = false → 0xB000 ≤ n → n + es.length * sz ≤ 0xD000 →
            c.outBase.toNat + (n - 0xB000) + es.length * sz ≤ e.j.outLen → ∃ k,
            exec (.lvSt j m d x) e.s = .next (lvRan e { c with out := k, ds := rest }))))
      ∧ (lvIllegal c false [d, x] = false →
        (a.tag = true ∨ groupTag c x = true → (OnEngine e j (lvCode 0x02 m d x) → Halts (.lvGather j m d x) e .taint)
          ∧ (OnEngine e j (lvCode 0x03 m d x) → Halts (.lvScatter j m d x) e .taint))
        ∧ (a.tag = false → groupTag c x = false →
          let idx := lvElems c x
          let at' (i : Nat) : Nat := (n + sz * idx.getD i 0) % 2 ^ 32
          let lo := c.vstart.toNat
          (OnEngine e j (lvCode 0x02 m d x) →
            (firstElemFault e false n idx = none → ∀ f : Nat → Bytes × Bool,
              (∀ i, lo ≤ i → i < c.lvN → dRead e (at' i) sz = .ok (f i)) → ∃ es : List Nat, ∃ t : Bool,
              exec (.lvGather j m d x) e.s = .next (lvRan e { putElems c d es t with ds := rest, vstart := 0 })
              ∧ (lo ≤ c.lvN → c.lvN ≤ c.lvCount → ∀ i, i < c.lvCount → es[i]? = some (if lo ≤ i ∧ i < c.lvN then leNat (f i).1
                else (lvElems c d).getD i 0)))
            ∧ (∀ k cause addr, firstElemFault e false n idx = some (k, cause, addr) →
              (∀ i, lo ≤ i → i < k → ∃ b, dRead e (at' i) sz = .ok b) →
              (c.vcfg.getLsbD 0 = false ∨ 16 ≤ c.rs.length → Halts (.lvGather j m d x) e .access)
              ∧ (c.vcfg.getLsbD 0 = true → c.rs.length < 16 → c.pc < 8192 →
                (if e.owner then mayGo e c.vtvec.toNat = true else c.vtvec.toNat < 0x1800) → ∃ t r,
                exec (.lvGather j m d x) e.s = .next t ∧ t.run? j = some r ∧ r.cur.pc = c.vtvec.toNat ∧ r.cur.ds = c.ds
                ∧ r.cur.rs = ⟨BitVec.ofNat 32 c.pc, false⟩ :: c.rs ∧ r.cur.vstart = BitVec.ofNat 32 k
                ∧ 2 ^ 31 ≤ r.cur.vfaultElem.toNat ∧ r.trapLd = some d)))
          ∧ (OnEngine e j (lvCode 0x03 m d x) →
            (groupTag c d = true → 0xB000 ≤ n → n < 0xD000 → Halts (.lvScatter j m d x) e .taint)
            ∧ (n < 0x8000 → n % sz = 0 → (∀ i, lo ≤ i → i < c.lvN → at' i + sz ≤ 0x8000) → ∃ k,
              exec (.lvScatter j m d x) e.s = .next (lvRan e { c with work := k, ds := rest, vstart := 0 })
              ∧ ∀ i, (∀ y, lo ≤ y → y < c.lvN → i < at' y / 4 ∨ (at' y + sz + 3) / 4 ≤ i) → cellAt k i = cellAt c.work i)
            ∧ (groupTag c d = false ∧ 0xB000 ≤ n ∧ n < 0xD000 → firstElemFault e true n idx = none → ∃ k,
              exec (.lvScatter j m d x) e.s = .next (lvRan e { c with out := k, ds := rest, vstart := 0 }))
            ∧ (∀ k cause addr, firstElemFault e true n idx = some (k, cause, addr) → k = lo →
              (groupTag c d = false ∨ n < 0xB000 ∨ 0xD000 ≤ n) →
              (c.vcfg.getLsbD 0 = false ∨ 16 ≤ c.rs.length → Halts (.lvScatter j m d x) e .access)
              ∧ (c.vcfg.getLsbD 0 = true → c.rs.length < 16 → c.pc < 8192 →
                (if e.owner then mayGo e c.vtvec.toNat = true else c.vtvec.toNat < 0x1800) → ∃ t r,
                exec (.lvScatter j m d x) e.s = .next t ∧ t.run? j = some r ∧ r.cur.pc = c.vtvec.toNat ∧ r.cur.ds = c.ds
                ∧ r.cur.rs = ⟨BitVec.ofNat 32 c.pc, false⟩ :: c.rs ∧ r.cur.vstart = BitVec.ofNat 32 k
                ∧ 2 ^ 31 ≤ r.cur.vfaultElem.toNat ∧ r.trapLd = none)))))
      ∧ (OnEngine e j (lvCode 0x0B m d x) → lvIllegal c false [d] = false →
        (a.tag = true → Halts (.lvSamcbd j m d x) e .taint)
        ∧ (a.tag = false →
          (h.busy = true → Stalls (.lvSamcbd j m d x) e)
          ∧ (h.busy = false →
            (n = 2 ∨ n = 3 → h.squeeze = true → h.defined = true → exec (.lvSamcbd j m d x) e.s = .next (lvRan e { lvPut { c with
                hash := c.hash.set e.r.hsSel (h.squeezeBy ((2 * n * c.lvN + 7) / 8)) } d
                ((List.range c.lvN).map fun i => cbdElem w c.vq.toNat n (h.outAt h.squeezed ((2 * n * c.lvN + 7) / 8)) (2 * n * i))
                h.tagged with ds := rest }))
            ∧ (¬((n = 2 ∨ n = 3) ∧ h.squeeze = true ∧ h.defined = true) → ∃ t r es, exec (.lvSamcbd j m d x) e.s = .next t
              ∧ t.run? j = some r ∧ es.length = c.lvN ∧ t.hostMem = e.s.hostMem
              ∧ r.cur = { lvPut c d es h.tagged with ds := rest, pc := (c.pc + 1) % 8192 })))))
    ∧ (OnEngine e j (lvCode 0x0A m d x) → lvIllegal c true [d] = false →
      (h.tagged = true → Halts (.lvSamu j m d x) e .taint)
      ∧ (h.tagged = false → h.busy = true → Stalls (.lvSamu j m d x) e)
      ∧ (h.tagged = false → h.busy = false → ∃ t r n es, exec (.lvSamu j m d x) e.s = .next t ∧ t.run? j = some r
        ∧ (∀ y ∈ es, y < c.vq.toNat) ∧ es.length = c.lvN ∧ t.hostMem = e.s.hostMem
        ∧ r.cur = { lvPut { c with hash := c.hash.set e.r.hsSel (h.squeezeBy n) } d es false with pc := (c.pc + 1) % 8192 }))

namespace Sys2Proof.Claims

/-! ### Micro-sequencers, MXUs and stewards -/

/-- On sequencer `q` the slice or the command of job `j` runs, the microword `w` with next-address control `sq` stands at its
address, with its DRBG up where the word is SECRET, and its nanoword has TARGET `n.1` and MBW `n.2`. -/
def OnSeq (s : State) (q : Nat) (w : MicroWord) (sq : Nat) (j : Job) (n : Nat × Nat) : Prop :=
  q < 288 ∧ s.service = true ∧ seqJob s q = some j ∧ stands s q (s.seq q).upc w sq = true
  ∧ (w.isSecret && drbgDown s j) = false ∧ nanoOf s q (bankOf (s.seq q).upc) w.nano = some n

/-- Every microword with its next-address control. -/
def microRows (q : Nat) (w : MicroWord) (c : Nat) (tagged : Bool) : List (Instr × Nat) :=
  [(.microNext q w, 0x0), (.microJump q w, 0x1), (.microMbranch q w c tagged, 0x2), (.microCall q w, 0x3), (.microReturn q w, 0x4),
   (.microCommit q w, 0x5), (.microYield q w, 0x6), (.microEnd q w, 0x7), (.microXjump q w, 0x8), (.microXcall q w, 0x9),
   (.microWait q w c tagged, 0xA), (.microDispatch q w, 0xB)]

/-- The sequencer goes to `a`, through the trap-match entries of its bank 0, with stack `st`. -/
def seqTo (s : State) (q a : Nat) (st : List Nat) : State := s.putSeq { s.seq q with upc := trapMatch s q a, stack := st }

/-- Index `i` of a bank: bank 0 wraps, bank 1 has 1,024 words (R336, R341). -/
def inBanks (bank i : Nat) : Option Nat := if bank = 0 then some (i % 16384) else if i < 1024 then some (16384 + i) else none

/-- The microword goes on to an address with a stack, or is MCODE_FORM. -/
def GoesTo (c : Instr) (s : State) (q : Nat) (j : Job) (a : Option Nat) (st : List Nat) : Prop :=
  exec c s = .next (match a with
    | some a => seqTo s q a st
    | none => microFault s j .form)

/-- The classical command rows with their codes (Table 7.1). -/
def mxuRows : List ((Nat → MxuEvent → Instr) × Nat) :=
  [(.validate, 1), (.rsaPriv, 2), (.rsaPub, 3), (.rsaGen, 4), (.ecGen, 5), (.ecSign, 6), (.ecVerify, 7), (.ecDerive, 8)]

/-- Alada-M arithmetic (Table 16.12). -/
def mAlus : List ((MOps → Instr) × (Word → Word → Word)) :=
  [(.aladaMAdd, fun a b => a + b), (.aladaMSub, fun a b => a - b), (.aladaMAnd, fun a b => a &&& b), (.aladaMOr, fun a b => a ||| b),
   (.aladaMXor, fun a b => a ^^^ b), (.aladaMShl, fun a b => BitVec.ofNat 32 (a.toNat * 2 ^ (b.toNat % 32))),
   (.aladaMShr, fun a b => BitVec.ofNat 32 (a.toNat / 2 ^ (b.toNat % 32))),
   (.aladaMSar, fun a b => BitVec.ofInt 32 (a.toInt / 2 ^ (b.toNat % 32))), (.aladaMMul, fun a b => a * b),
   (.aladaMMulhu, fun a b => BitVec.ofNat 32 (a.toNat * b.toNat / 2 ^ 32)),
   (.aladaMDivu, fun a b => if b = 0 then 0xFFFFFFFF else BitVec.ofNat 32 (a.toNat / b.toNat)),
   (.aladaMRemu, fun a b => if b = 0 then a else BitVec.ofNat 32 (a.toNat % b.toNat))]

/-- Its conditional branches. -/
def mBranches : List ((MOps → Instr) × (Word → Word → Bool)) :=
  [(.aladaMBeq, fun a b => decide (a = b)), (.aladaMBne, fun a b => decide (a ≠ b)),
   (.aladaMBltu, fun a b => decide (a.toNat < b.toNat)), (.aladaMBlt, fun a b => decide (a.toInt < b.toInt))]

/-- Every Alada-M instruction with the number of its specifiers. -/
def mAll : List ((MOps → Instr) × Nat) :=
  mAlus.map (fun p => (p.1, 3)) ++ mBranches.map (fun p => (p.1, 3))
    ++ [(.aladaMCopy, 3), (.aladaMFill, 3), (.aladaMMov, 2), (.aladaMLea, 2), (.aladaMCall, 2), (.aladaMJmp, 1), (.aladaMWait, 1)]

/-- Extension words of a specifier: every mode but the short immediate takes one. -/
def extWords (sp : Nat) : Nat := if sp % 256 < 32 then 0 else 1

/-- The stewards run; the first `k` specifiers, each checked and formed in its order, stand for `d`, `a`, `b`, the unused ones
are zero, and `t` is the state after that with the address of the next instruction. -/
def MReady (s t : State) (k : Nat) (o : MOps) (d a b : MLoc) : Prop :=
  2 ≤ s.pins.boot ∧ s.stw.resetting = false ∧ 1 ≤ k ∧ k ≤ 3
  ∧ (k < 2 → o.s2 % 256 = 0) ∧ (k < 3 → o.s3 % 256 = 0)
  ∧ ∃ s1 s2 s3, mForm s o.s1 o.e1 = some (s1, d)
    ∧ (if k < 2 then s2 = s1 else mForm s1 o.s2 o.e2 = some (s2, a))
    ∧ (if k < 3 then s3 = s2 else mForm s2 o.s3 o.e3 = some (s3, b))
    ∧ t = { s3 with stw.pc := (s3.stw.pc + 4 * (1 + extWords o.s1 + (if k < 2 then 0 else extWords o.s2)
        + (if k < 3 then 0 else extWords o.s3))) % 2 ^ 32 }

end Sys2Proof.Claims

open Sys2Proof.Claims

/-! ### Microcode -/

/-- Next addresses (R336 to R341, R350, R372): each control goes where Table 12.2 says, an address a trap-match entry names being
redirected to bank 1, and a bank-1 index above 1,023, a call on 8 entries, a return from none, a misaligned branch table or a patch
nanoword that is not there being MCODE_FORM; a tagged condition is TAINT; a SECRET word ends its job while the DRBG is in its
error state; a word that does not stand at the address, or on an idle sequencer, changes nothing.
Microcode commit points (R32, R37, R337, R342): on an engine COMMIT stages the state that stands, YIELD also gives up the engine, and END
brings the job to its final commit; on an MXU a COMMIT or END ends the command and YIELD is a yield point.
Completes: microNext, microJump, microMbranch, microCall, microReturn, microCommit, microYield, microEnd, microXjump,
microXcall, microWait, microDispatch.
Where the spec leaves a point open it rests on the model's choice in log entries 6 and 17. -/
def Obligations.Microcode : Prop :=
  (∀ (s : State) (q : Nat) (w : MicroWord) (c : Nat) (tagged : Bool), ∀ p ∈ microRows q w c tagged,
      let a := (s.seq q).upc
      (seqJob s q = none → exec p.1 s = .next s)
      ∧ ∀ j, seqJob s q = some j →
        ((s.service = false ∨ 288 ≤ q ∨ stands s q a w p.2 = false) → exec p.1 s = .next s)
        ∧ (s.service = true → q < 288 → stands s q a w p.2 = true →
          ((w.isSecret && drbgDown s j) = true → Yields p.1 s s j.id (err 0x0600 0x70))
          ∧ ((w.isSecret && drbgDown s j) = false → nanoOf s q (bankOf a) w.nano = none →
            exec p.1 s = .next (microFault s j .form))))
  ∧ (∀ (s : State) (q : Nat) (w : MicroWord) (j : Job) (n : Nat × Nat),
      let a := (s.seq q).upc
      let st := (s.seq q).stack
      let up := inBanks (bankOf a) (indexOf a + 1)
      (OnSeq s q w 0x0 j n → GoesTo (.microNext q w) s q j up st)
      ∧ (OnSeq s q w 0x1 j n → GoesTo (.microJump q w) s q j (inBanks (bankOf a) n.1) st)
      ∧ (OnSeq s q w 0x2 j n → ∀ c, c < 16 →
        exec (.microMbranch q w c true) s = .next (microFault s j .taint)
        ∧ GoesTo (.microMbranch q w c false) s q j
          (if n.1 % 2 ^ (n.2 + 1) ≠ 0 then none else inBanks (bankOf a) (n.1 + c % 2 ^ (n.2 + 1))) st)
      ∧ (OnSeq s q w 0x3 j n →
        (∀ b, up = some b → st.length < 8 → GoesTo (.microCall q w) s q j (inBanks (bankOf a) n.1) (b :: st))
        ∧ (up = none ∨ 8 ≤ st.length → GoesTo (.microCall q w) s q j none st))
      ∧ (OnSeq s q w 0x4 j n → GoesTo (.microReturn q w) s q j st.head? st.tail)
      ∧ (OnSeq s q w 0x8 j n → GoesTo (.microXjump q w) s q j (inBanks (1 - bankOf a) n.1) st)
      ∧ (OnSeq s q w 0x9 j n →
        (∀ b, up = some b → st.length < 8 → GoesTo (.microXcall q w) s q j (inBanks (1 - bankOf a) n.1) (b :: st))
        ∧ (up = none ∨ 8 ≤ st.length → GoesTo (.microXcall q w) s q j none st))
      ∧ (OnSeq s q w 0xA j n → ∀ c,
        exec (.microWait q w c true) s = .next (microFault s j .taint)
        ∧ GoesTo (.microWait q w c false) s q j (if c % 2 = 1 then some a else up) st)
      ∧ (OnSeq s q w 0xB j n → GoesTo (.microDispatch q w) s q j (some (Config.decodeRom (wordAtPc s j) % 16384)) st))
  ∧ (∀ (s : State) (q : Nat) (w : MicroWord) (j : Job) (n : Nat × Nat),
      let a := (s.seq q).upc
      let st := (s.seq q).stack
      (inBanks (bankOf a) (indexOf a + 1) = none → (OnSeq s q w 0x5 j n → GoesTo (.microCommit q w) s q j none st)
        ∧ (OnSeq s q w 0x6 j n → GoesTo (.microYield q w) s q j none st))
      ∧ (∀ b r, inBanks (bankOf a) (indexOf a + 1) = some b → q < 272 → s.run? j.id = some r →
        let u := showMxu (seqTo s q b st) j.id
        let last := seqTo s q a st
        (OnSeq s q w 0x5 j n → exec (.microCommit q w) s = .next (match nextSegment u j with
          | some t => t.putRun { r with staged := some r.cur }
          | none => u.putRun { r with staged := some r.cur, paused := true }))
        ∧ (OnSeq s q w 0x6 j n →
          exec (.microYield q w) s = .next (u.putRun { r with staged := some r.cur, paused := true }))
        ∧ (OnSeq s q w 0x7 j n → exec (.microEnd q w) s = .next
            (finalCommit (last.putRun { r with staged := some r.cur, paused := true }) j.id (archResult ⟨last, j, r⟩))))
      ∧ (∀ b c, inBanks (bankOf a) (indexOf a + 1) = some b → 272 ≤ q → s.mxuCmd? j.id = some c →
        (OnSeq s q w 0x5 j n → exec (.microCommit q w) s = .next (mxuDone (seqTo s q b st) c))
        ∧ (OnSeq s q w 0x6 j n → exec (.microYield q w) s = .next (mxuYield (seqTo s q b st) c))
        ∧ (OnSeq s q w 0x7 j n → exec (.microEnd q w) s = .next (mxuDone (seqTo s q a st) c))))

/-! ### Modular exponent units -/

/-- MXU commands (R184 to R197): an issue by a job that uses the code, having none under way, queues a command of the next order on
the MXU that serves its grove, collecting the result of the one before, and takes context 0 of an empty one, for validation when it
has peer input; any other issue changes nothing, and with no serving MXU the job ends with DEVICE_FAULT 0x25.  A yield point saves
both copies of the record; an end leaves the result and empties the operand RAM; a fault sends the command back to its save record,
from the copy that holds, and marks the job's failover.  The job's other state, the keys and host memory stay.
VALIDATION_RESULT (R190, R191): nothing before the second boundary after the stage started; then an input that passes makes
the command ready with its secret loaded, or ends a VALIDATE, and one that fails ends the job with the STATUS and DETAIL of the first
failed test.
Completes: validate, rsaPriv, rsaPub, rsaGen, ecGen, ecSign, ecVerify, ecDerive, validationResult.
Where the spec leaves a point open it rests on the model's choice in log entries 46 and 54. -/
def Obligations.MxuWork : Prop :=
  (∀ (s : State) (j m : Nat) (x : Job), s.service = true → s.job? j = some x → (s.exec.mxu.map (·.job)).Nodup →
      ∀ p ∈ mxuRows,
      (runnable s x = false ∨ mxuUsedBy p.2 x = false ∨ (∃ c, s.mxuCmd? j = some c ∧ c.phase ≠ .ended) →
        exec (p.1 j .issue) s = .next s)
      ∧ (runnable s x = true → mxuUsedBy p.2 x = true → (∀ c, s.mxuCmd? j = some c → c.phase = .ended) →
        (mxuFor s x.grove = none → exec (p.1 j .issue) s = .next (finalCommit s j (err 0x0600 0x25)))
        ∧ (mxuFor s x.grove = some m → ∃ t c y, exec (p.1 j .issue) s = .next t ∧ t.mxuCmd? j = some c ∧ t.job? j = some y
          ∧ y.mxuGot = x.mxuGot ++ ((s.mxuCmd? j).map (·.code)).toList
          ∧ c.code = p.2 ∧ c.mxu = m ∧ c.order = s.exec.mxuOrder ∧ c.saved = 0 ∧ c.steps = 0 ∧ c.resumed = false ∧ c.seen = false
          ∧ ((∀ d ∈ s.exec.mxu, d.mxu ≠ m) → s.exec.mxuZero = [] → c.ctx = some 0
            ∧ (mxuValidates p.2 x = true → c.phase = .validating ∧ c.stageAt = some s.tick.count)
            ∧ (mxuValidates p.2 x = false → s.power.level = 0 → c.phase = .running))
          ∧ t.exec.mxuOrder = s.exec.mxuOrder + 1 ∧ t.store = s.store ∧ t.hostMem = s.hostMem))
      ∧ (s.mxuCmd? j = none → ∀ ev, ev ≠ .issue → exec (p.1 j ev) s = .next s)
      ∧ ∀ c, s.mxuCmd? j = some c →
        (c.code ≠ p.2 ∨ c.phase ≠ .running → ∀ ev, ev ≠ .issue → exec (p.1 j ev) s = .next s)
        ∧ (c.code = p.2 → c.phase = .running →
          (∃ t d, exec (p.1 j .yield) s = .next t ∧ t.mxuCmd? j = some d ∧ d.steps = c.steps + 1 ∧ d.saved = c.steps + 1
            ∧ d.copyA = true ∧ d.copyB = true ∧ d.ctx = c.ctx ∧ t.work = s.work ∧ t.store = s.store ∧ t.hostMem = s.hostMem)
          ∧ (∃ t d, exec (p.1 j .done) s = .next t ∧ t.mxuCmd? j = some d ∧ d.phase = .ended ∧ d.ctx = c.ctx ∧ d.ram = []
            ∧ d.secret = none ∧ t.work = s.work ∧ t.store = s.store ∧ t.hostMem = s.hostMem)
          ∧ (sevOf s (0x0C00 + c.mxu) ≠ 4 → c.mxu < 16 → ∃ t d y, exec (p.1 j .fault) s = .next t ∧ t.mxuCmd? j = some d
            ∧ d.steps = (if c.copyA || c.copyB then c.saved else 0) ∧ d.resumed = true
            ∧ t.job? j = some y ∧ y.failover = true ∧ s.tick.count ∈ y.lostTicks ∧ t.store = s.store)))
  ∧ (∀ (s : State) (j t0 : Nat) (x : Job) (c : MxuCmd), s.service = true → s.job? j = some x → s.mxuCmd? j = some c →
      (c.phase ≠ .validating ∨ c.stageAt = none → exec (.validationResult j) s = .next s)
      ∧ (c.phase = .validating → c.stageAt = some t0 →
        (s.tick.count < t0 + 2 → exec (.validationResult j) s = .next s)
        ∧ (t0 + 2 ≤ s.tick.count →
          (∀ s1, jobInput s x = (s1, none) → exec (.validationResult j) s = .next (noInput s s1 x))
          ∧ ∀ s1 inp, (s.exec.mxu.map (·.job)).Nodup → jobInput s x = (s1, some inp) →
            (mxuRefusal s1 x inp = none → ∃ t d, exec (.validationResult j) s = .next t ∧ t.mxuCmd? j = some d
              ∧ (c.code = 1 → d.phase = .ended)
              ∧ (c.code ≠ 1 → (d.phase = .ready ∨ d.phase = .running) ∧ d.secret = mxuSecret s1 x c.code)
              ∧ t.hostMem = s1.hostMem)
            ∧ (∀ st dt, mxuRefusal s1 x inp = some (st, dt) → ∃ t y, exec (.validationResult j) s = .next t
              ∧ t.mxuCmd? j = none ∧ t.job? j = some y ∧ y.result = some (err st dt) ∧ t.hostMem = s1.hostMem))))
  ∧ ∀ (s : State) (j : Nat), s.mxuCmd? j = none ∨ s.job? j = none → exec (.validationResult j) s = .next s

/-! ### The stewards -/

/-- Alada-M operands (R443, Table 16.11): a short and a long immediate, a word, a word through a word, a pointer cell with a
displacement, one with an index, and a cell that steps by 4 after or before; a misaligned or unmapped address, a cell beyond the
pointer area, and a nonzero low field where the mode has none, form no operand.
Where the spec leaves a point open it rests on the model's choice in log entry 49. -/
def Obligations.AladaMOperands : Prop :=
  ∀ (s : State) (v p d x : Nat), v < 32 → p < 256 → x < 256 → d < 2 ^ 16 →
    let cell (i : Nat) := (mWord s (4 * i)).toNat
    let signed (n y : Nat) := if y < 2 ^ (n - 1) then y else y + 2 ^ 32 - 2 ^ n
    (∀ e, mForm s v e = some (s, .imm (BitVec.ofNat 32 v)))
    ∧ (∀ e, e < 2 ^ 32 → mForm s 0x20 e = some (s, .imm (BitVec.ofNat 32 e))
      ∧ mForm s 0x40 e = if mOk e then some (s, .word e) else none)
    ∧ (∀ e, e < 0x400 → e % 4 = 0 → mForm s 0x60 e = if mOk (mWord s e).toNat then some (s, .word (mWord s e).toNat) else none)
    ∧ (∀ e, e < 2 ^ 32 → let r := mRead s e
      mForm s 0x60 e = if mOk e ∧ mOk r.2.toNat then some (r.1, .word r.2.toNat) else none)
    ∧ (∀ e, 256 ≤ e → e < 2 ^ 32 → mForm s 0xC0 e = none ∧ mForm s 0xE0 e = none)
    ∧ (mOk (cell p) = false → mForm s 0xC0 p = none) ∧ (mOk ((cell p + 2 ^ 32 - 4) % 2 ^ 32) = false → mForm s 0xE0 p = none)
    ∧ (∀ y, y < 2 ^ 24 → let a := (cell p + signed 24 y) % 2 ^ 32
      mForm s 0x80 (p * 2 ^ 24 + y) = if mOk a then some (s, .word a) else none)
    ∧ (let a := (cell p + 4 * cell x + signed 16 d) % 2 ^ 32
      mForm s 0xA0 (p * 2 ^ 24 + x * 2 ^ 16 + d) = if mOk a then some (s, .word a) else none)
    ∧ (mOk (cell p) = true → ∃ t, mForm s 0xC0 p = some (t, .word (cell p))
      ∧ mWord t (4 * p) = BitVec.ofNat 32 (cell p + 4) ∧ (∀ k, k ≠ 4 * p → mWord t k = mWord s k) ∧ t.stw.pc = s.stw.pc)
    ∧ (let a := (cell p + 2 ^ 32 - 4) % 2 ^ 32
      mOk a = true → ∃ t, mForm s 0xE0 p = some (t, .word a)
      ∧ mWord t (4 * p) = BitVec.ofNat 32 a ∧ (∀ k, k ≠ 4 * p → mWord t k = mWord s k) ∧ t.stw.pc = s.stw.pc)
    ∧ ∀ mode e, 1 ≤ mode → mode < 8 → v ≠ 0 → mForm s (mode * 32 + v) e = none

/-- Alada-M instructions (R384, R442 to R444, Table 16.12): each reads its operands, computes, writes its one destination and goes to
the next instruction, a branch to its target when its condition holds and CALL leaving the link; COPY and FILL take as many words as
their third operand says, in one region; WAIT goes on once an event of its mask is pending; a result to an immediate, an address of an
immediate, a range out of its region, and an operand that is not formed are a lockstep mismatch, with every word as before.  Before the
stewards run, and while they reset, none runs.
Completes: aladaMMov, aladaMAdd, aladaMSub, aladaMAnd, aladaMOr, aladaMXor, aladaMShl, aladaMShr, aladaMSar, aladaMMul,
aladaMMulhu, aladaMDivu, aladaMRemu, aladaMBeq, aladaMBne, aladaMBltu, aladaMBlt, aladaMJmp, aladaMCall, aladaMCopy,
aladaMFill, aladaMWait, aladaMLea.
Where the spec leaves a point open it rests on the model's choice in log entries 29 and 49. -/
def Obligations.AladaMInstructions : Prop :=
  (∀ (s : State) (o : MOps), ∀ p ∈ mAll,
      (s.pins.boot < 2 ∨ s.stw.resetting = true → exec (p.1 o) s = .next s)
      ∧ (2 ≤ s.pins.boot → s.stw.resetting = false → (∀ t l a b, ¬MReady s t p.2 o l a b) →
        exec (p.1 o) s = .next (stewardMismatch s)))
  ∧ ∀ (s t : State) (o : MOps) (l a b : MLoc),
    let u := (mVal t a).1
    let x := (mVal t a).2
    let y := (mVal u b).2
    let z := (mVal u b).1
    let n := (mVal t b).2.toNat
    (MReady s t 3 o l a b →
      (∀ p ∈ mAlus, ∀ d, l = .word d → exec (p.1 o) s = .next (mWrite z d (p.2 x y)))
      ∧ (∀ p ∈ mAlus, ∀ v, l = .imm v → exec (p.1 o) s = .next (stewardMismatch s))
      ∧ (∀ p ∈ mBranches,
        let w := mVal (mVal (mVal t l).1 a).1 b
        exec (p.1 o) s = .next (if p.2 (mVal t l).2 (mVal (mVal t l).1 a).2 then { w.1 with stw.pc := w.2.toNat } else w.1))
      ∧ (∀ d e, l = .word d → a = .word e →
        (mRange d n = true → mRange e n = true → exec (.aladaMCopy o) s = .next (mCopy n d e (mVal t b).1))
        ∧ ((mRange d n && mRange e n) = false → exec (.aladaMCopy o) s = .next (stewardMismatch s)))
      ∧ (∀ v, l = .imm v ∨ a = .imm v → exec (.aladaMCopy o) s = .next (stewardMismatch s))
      ∧ (∀ d, l = .word d →
        (mRange d y.toNat = true → exec (.aladaMFill o) s = .next (mFill y.toNat d x z))
        ∧ (mRange d y.toNat = false → exec (.aladaMFill o) s = .next (stewardMismatch s)))
      ∧ (∀ v, l = .imm v → exec (.aladaMFill o) s = .next (stewardMismatch s)))
    ∧ (MReady s t 2 o l a b →
      (∀ d, l = .word d → exec (.aladaMMov o) s = .next (mWrite u d x))
      ∧ (∀ v, l = .imm v → exec (.aladaMMov o) s = .next (stewardMismatch s) ∧ exec (.aladaMLea o) s = .next (stewardMismatch s))
      ∧ (∀ d e, l = .word d → a = .word e → exec (.aladaMLea o) s = .next (mWrite t d (BitVec.ofNat 32 e)))
      ∧ (∀ v, a = .imm v → exec (.aladaMLea o) s = .next (stewardMismatch s) ∧ exec (.aladaMCall o) s = .next (stewardMismatch s))
      ∧ (∀ e, a = .word e → exec (.aladaMCall o) s = .next (mWrite { (mVal t l).1 with stw.pc := (mVal t l).2.toNat } e
          (BitVec.ofNat 32 t.stw.pc))))
    ∧ (MReady s t 1 o l a b →
      exec (.aladaMJmp o) s = .next { (mVal t l).1 with stw.pc := (mVal t l).2.toNat }
      ∧ exec (.aladaMWait o) s = .next (if (mVal t l).2.toNat &&& s.stw.events ≠ 0 then (mVal t l).1 else s))

namespace Sys2Proof.Claims

/-- The selectors and cursors of a port, with what a write sets (R492). -/
def selectors : List (Nat × (Port → Nat → Port)) :=
  [(0x080C, fun x v => { x with healthSel := v % 65536 }), (0x0C0C, fun x v => { x with sevSel := v % 65536 }),
   (0x120C, fun x v => { x with tmpSel := v % 16 }), (0x1218, fun x v => { x with recArea := bit v 1, recAuto := bit v 0 }),
   (0x121C, fun x v => { x with recCursor := v }), (0x1228, fun x v => { x with rateSel := v % 65536 }),
   (0x1254, fun x v => { x with listSel := v % 256 }),
   (0x125C, fun x v => { x with snapSlot := v / 65536 % 128, snapChunk := v % 64 }), (0x3040, fun x v => { x with perfSel := v % 512 })]

/-- The registers of an admin queue that a lock guards, with what a write sets (R94). -/
def ringRegs : List (Nat × (Admq → Nat → Admq)) :=
  [(0x0200, fun a v => { a with sqBase := a.sqBase / 2 ^ 32 * 2 ^ 32 + v / 4096 * 4096 }),
   (0x0204, fun a v => { a with sqBase := v % 65536 * 2 ^ 32 + a.sqBase % 2 ^ 32 }),
   (0x0208, fun a v => { a with cqBase := a.cqBase / 2 ^ 32 * 2 ^ 32 + v / 4096 * 4096 }),
   (0x020C, fun a v => { a with cqBase := v % 65536 * 2 ^ 32 + a.cqBase % 2 ^ 32 }),
   (0x0210, fun a v => { a with vector := v / 65536 % 2048, cqLog2 := v / 256 % 16, sqLog2 := v % 16 })]

end Sys2Proof.Claims

/-! ### Registers -/

/-- REGISTER_WRITE (R10, R54, R359, R399, R417, R492, R494): BAR0 is reached in service alone, by aligned writes of 4 bytes, or of 8
as two; a selector is its port's own, and alone written in safe state; an admin-queue register is written while its block is not
locked, else the write is ignored and CFG_REJECT set; W1C bits clear where a one is written; a write elsewhere changes nothing.
Register writes that act (R51, R54, R94, R289, R399, R406, R407, R412, R415, R417, R494, R495): a clear bit clears what it names, the
other fields of its word being written with it; a tamper configuration that is less sensitive is rejected in DEPLOYED; a change that
waits for the boundary joins those waiting; what only the primary AF may write changes nothing from another port.
Completes: registerWrite, cfgRejectClear, faultInjGo, specClear, perfClear, hwdTmpCfgWrite, hwdRecFlush, hwdRecClear,
hwdSnapManual, throttleClear, datuFaultClear. -/
def Obligations.RegisterWrites : Prop :=
  (∀ (s : State) (p off w v : Nat), v < 2 ^ 32 →
      let writes (o : Nat) (t : State) : Prop := exec (.registerWrite p o 4 v) s = .next t
      (bar0 s p = false ∨ ¬(w = 4 ∧ off % 4 = 0) ∧ ¬(w = 8 ∧ off % 8 = 0) → exec (.registerWrite p off w v) s = .next s)
      ∧ (bar0 s p = true → off % 8 = 0 → ∀ h, h < 2 ^ 32 → ∃ t, writes off t
          ∧ exec (.registerWrite p off 8 (h * 2 ^ 32 + v)) s = .next (writeReg t p (off + 4) h))
      ∧ (bar0 s p = true → ∀ r ∈ selectors, writes r.1 (s.updPort p fun x => r.2 x v))
      ∧ (bar0 s p = true → s.faults.safe = true → off % 4 = 0 → (∀ r ∈ selectors, r.1 ≠ off) → writes off s)
      ∧ (bar0 s p = true → s.faults.safe = false →
        (s.ports.length = 4 → ∀ r ∈ ringRegs,
          (admqLocked s p = false → writes r.1 (s.updPort p fun x => { x with admq := r.2 x.admq v }))
          ∧ (admqLocked s p = true → ∃ t, writes r.1 t ∧ t.tick.cfgReject = true ∧ t.tick.rejValid = true
            ∧ t.tick.rejInst = (if s.tick.rejValid then s.tick.rejInst else p * 256)
            ∧ t.tick.rejOff = (if s.tick.rejValid then s.tick.rejOff else r.1) ∧ (t.port p).admq = (s.port p).admq))
        ∧ writes 0x0108 (if bit v 2 then { s with tick.wrapped := false } else s)
        ∧ writes 0x010C (if s.adm.primary = p then { s with adm.changes := s.adm.changes ++ [.reg p 0x010C (v % 2)] } else s)
        ∧ writes 0x0C20 (if s.adm.primary = p ∧ s.lcs = .test then { s with faults.injSrc := v % 65536 } else s)
        ∧ writes 0x0C24 (if s.adm.primary = p ∧ s.lcs = .test then { s with faults.injMode := v % 4 } else s)
        ∧ writes 0x1200 { s with hwd.rankSeen := s.hwd.rankSeen % 32 - (s.hwd.rankSeen % 32 &&& v / 256 % 32),
                                 hwd.erased := s.hwd.erased && !bit v 2 }
        ∧ writes 0x1250 { s with hwd.snap.trig := v % 64 / 2 * 2 }
        ∧ writes 0x400C (s.updPort p fun x => { x with events := x.events % 128 - (x.events % 128 &&& v % 128) })
        ∧ (mayStage s p = true → writes 0x100C { s with grafts.stage.target := v / 16 % 4 }
          ∧ (stageLocked s = false → writes 0x1010 { s with grafts.stage.len := v })
          ∧ (stageLocked s = true → writes 0x1010 (cfgReject s p 0x1010)))
        ∧ writes 0x0000 s))
  ∧ (∀ (s : State) (p v : Nat),
      let area := s.updPort p fun x => { x with recArea := bit v 1, recAuto := bit v 0 }
      let status := { s with hwd.rankSeen := s.hwd.rankSeen % 32 - (s.hwd.rankSeen % 32 &&& v / 256 % 32),
                             hwd.erased := s.hwd.erased && !bit v 2 }
      (bar0Write s p = true →
        (bit v 3 = true → exec (.cfgRejectClear p v) s = .next { s with
          tick.cfgReject := false, tick.rejValid := false, tick.wrapped := s.tick.wrapped && !bit v 2 })
        ∧ (bit v 3 = false → exec (.cfgRejectClear p v) s = .next s)
        ∧ exec (.datuFaultClear p) s = .next (s.updPort p fun x => { x with datu.valid := false })
        ∧ (bit v 9 = true → bit v 8 = false → exec (.hwdRecFlush p v) s = .next (flushRecorder area))
        ∧ (bit v 7 = true → ∃ t, exec (.hwdSnapManual p v) s = .next t ∧ bit t.hwd.snap.due 7 = true
          ∧ t.hwd.snap.trig = v % 64 / 2 * 2 ∧ t.work = s.work)
        ∧ (bit v 4 = true → s.adm.primary ≠ p → exec (.throttleClear p v) s = .next status)
        ∧ (bit v 8 = true → bit v 9 = false → s.adm.primary ≠ p → exec (.hwdRecClear p v) s = .next area))
      ∧ (bit v 9 = false → exec (.hwdRecFlush p v) s = .next s) ∧ (bit v 8 = false → exec (.hwdRecClear p v) s = .next s)
      ∧ (bit v 7 = false → exec (.hwdSnapManual p v) s = .next s) ∧ (bit v 4 = false → exec (.throttleClear p v) s = .next s)
      ∧ (bar0 s p = true → s.faults.safe = true → (bit v 9 = true → exec (.hwdRecFlush p v) s = .next area)
        ∧ (bit v 8 = true → exec (.hwdRecClear p v) s = .next area))
      ∧ (bar0Write s p = false → ∀ c ∈ [Instr.cfgRejectClear p v, .datuFaultClear p, .hwdSnapManual p v, .throttleClear p v],
          exec c s = .next s)
      ∧ (primaryWrite s p = true →
        exec (.specClear p) s = .next { s with adm.changes := s.adm.changes ++ [.specClear] }
        ∧ exec (.perfClear p) s = .next { s with adm.changes := s.adm.changes ++ [.perfClear] }
        ∧ (bit v 4 = true → exec (.throttleClear p v) s = .next { status with
          hwd.throttle := false, hwd.applied := if s.hwd.applied = 1 then 0 else s.hwd.applied })
        ∧ (bit v 4 = true → s.lcs = .test → exec (.faultInjGo p v) s =
          .next { s with faults.injGo := true, faults.injMode := v % 4 })
        ∧ (bit v 4 = false ∨ s.lcs ≠ .test → exec (.faultInjGo p v) s = .next s)
        ∧ (bit v 8 = true → bit v 9 = false →
          (s.lcs ≠ .deployed → exec (.hwdRecClear p v) s = .next { area with
            recd.tail := s.recd.head, recd.kept := s.recd.head, recd.ring := [], recd.buf := [],
            recd.pinned := if s.lcs = .returned then [] else s.recd.pinned })
          ∧ (s.lcs = .deployed → exec (.hwdRecClear p v) s = .next (cfgReject area p 0x1218)))
        ∧ ∀ c, s.hwd.channels[(s.port p).tmpSel]? = some c →
          let new : Tamper := { c with
            enable := bit v 31, rank := if v / 2 ^ 28 % 8 < 5 then v / 2 ^ 28 % 8 else c.rank,
            n := if v / 2 ^ 24 % 16 = 0 then c.n else v / 2 ^ 24 % 16, w := v / 2 ^ 12 % 4096 + 1, polarity := bit v 11 }
          let less := (c.enable = true ∧ new.enable = false) ∨ new.rank < c.rank ∨ c.n < new.n ∨ new.w < c.w ∨ c.polarity ≠ new.polarity
          (13 ≤ (s.port p).tmpSel → exec (.hwdTmpCfgWrite p v) s = .next s)
          ∧ ((s.port p).tmpSel < 13 →
            (s.lcs = .deployed → less → exec (.hwdTmpCfgWrite p v) s = .next (cfgReject s p 0x1210))
            ∧ (s.lcs ≠ .deployed ∨ ¬less → exec (.hwdTmpCfgWrite p v) s = .next { s with
              adm.changes := s.adm.changes ++ [.reg p (0x10000 + (s.port p).tmpSel) (tmpCfgWord new)] })))
      ∧ (primaryWrite s p = false → ∀ c ∈ [Instr.specClear p, .perfClear p, .faultInjGo p v, .hwdTmpCfgWrite p v],
          exec c s = .next s))



/-- The admin-queue registers (R94, R63, R64): ENABLE starts both rings at position 0 when their sizes and bases are allowed,
else sets CFG_BAD; DISABLE stops fetching and discards what was published; the doorbells move tail and head, a malformed value
being an error of the ring, of the completion ring holding the submission ring too; they are taken in safe state (R396), and where the
ring does not take one nothing changes.
Completes: admqEnable, admqDisable, admqSqDb, admqCqDb. -/
def Obligations.AdminQueueRegisters : Prop :=
  ∀ (s : State) (p v : Nat),
    let a := (s.port p).admq
    let good := 4 ≤ a.sqLog2 ∧ a.sqLog2 ≤ 12 ∧ 4 ≤ a.cqLog2 ∧ a.cqLog2 ≤ 12 ∧ a.sqBase % 4096 = 0 ∧ a.cqBase % 4096 = 0
    (bar0Write s p = true → s.ports.length = 4 →
      (a.enable = false → good → ∃ t, exec (.admqEnable p) s = .next t ∧ (t.port p).admq.enable = true
        ∧ (t.port p).admq.running = true
        ∧ (t.port p).admq.sq.head = 0 ∧ (t.port p).admq.sq.tail = 0 ∧ (t.port p).admq.cq.head = 0 ∧ (t.port p).admq.cq.tail = 0
        ∧ (t.port p).admq.sq.state = .active ∧ (t.port p).admq.sq.log2n = a.sqLog2 ∧ (t.port p).admq.sq.base = a.sqBase
        ∧ ∀ r, r ≠ p → t.port r = s.port r)
      ∧ (a.enable = false → ¬good → exec (.admqEnable p) s = .next (s.updPort p fun x => { x with admq.cfgBad := true }))
      ∧ (a.enable = true → exec (.admqEnable p) s = .next s)
      ∧ (a.enable = false → exec (.admqDisable p) s = .next s)
      ∧ (a.enable = true → ∃ t, exec (.admqDisable p) s = .next t ∧ (t.port p).admq.enable = false
        ∧ (t.port p).admq.sq.tail = (t.port p).admq.sq.head ∧ t.adm.cmds = s.adm.cmds))
    ∧ (bar0Write s p = false → exec (.admqEnable p) s = .next s ∧ exec (.admqDisable p) s = .next s)
    ∧ (bar0 s p = false → exec (.admqSqDb p v) s = .next s ∧ exec (.admqCqDb p v) s = .next s)
    ∧ (a.enable = false ∨ a.sq.state.rings = false → exec (.admqSqDb p v) s = .next s)
    ∧ (bar0 s p = true → s.ports.length = 4 → v < 2 ^ 32 →
      (a.enable = true → a.sq.state.rings = true →
        let n := 2 ^ a.sq.log2n
        let q := v / 65536 % 2 * n + v % 65536
        let ok := v % 65536 < n ∧ dist n q a.sq.head ≤ n ∧ dist n a.sq.tail a.sq.head ≤ dist n q a.sq.head
        ∃ t, exec (.admqSqDb p v) s = .next t ∧ (ok → (t.port p).admq.sq = { a.sq with tail := q })
          ∧ (¬ok → (t.port p).admq.sq.state = .error ∧ (t.port p).admq.sq.head = a.sq.head ∧ (t.port p).admq.sq.tail = a.sq.tail))
      ∧ (a.running = false ∨ a.cq.state.rings = false → exec (.admqCqDb p v) s = .next s)
      ∧ (a.running = true → a.cq.state.rings = true → ∃ t, exec (.admqCqDb p v) s = .next t ∧
        let n := 2 ^ a.cq.log2n
        let h := v % 65536
        let q := v / 65536 % 2 * n + h
        (n ≤ h ∨ dist n a.cq.tail a.cq.head < dist n q a.cq.head → (t.port p).admq.cq.state = .error
          ∧ (t.port p).admq.cq.head = a.cq.head
          ∧ (t.port p).admq.sq.state = if a.sq.state = .active then .held else a.sq.state)
        ∧ (h < n → dist n q a.cq.head ≤ dist n a.cq.tail a.cq.head → (t.port p).admq.cq.head = q
          ∧ (t.port p).admq.cq.state = a.cq.state ∧ ((t.port p).admq.cq.armed = true ↔ a.cq.armed = true ∨ 2 ^ 31 ≤ v))))

/-- Reads that latch or move a cursor (R30, R289, R391, R401, R472, R495): a low word is answered and the high word latched in its
port; a health epoch read latches a copy no more than two boundaries old; the last word of a window moves the cursor.  No other
port, no job and no byte of host memory changes; out of service nothing does.
Completes: tickCountLoRead, healthEpochRead, specCounterLoRead, perfCounterLoRead, hwdTimeLoRead, hwdRecWindow7Read,
hwdSnapWindow7Read, tetherTickOffLoRead. -/
def Obligations.LatchingReads : Prop :=
  (∀ (s : State) (p k : Nat), bar0 s p = false → ∀ c ∈ [Instr.tickCountLoRead p, .hwdTimeLoRead p, .tetherTickOffLoRead p,
      .specCounterLoRead p k, .perfCounterLoRead p k, .hwdRecWindow7Read p, .hwdSnapWindow7Read p, .healthEpochRead p k],
    exec c s = .next s)
  ∧ ∀ (s : State) (p k : Nat), bar0 s p = true → s.ports.length = 4 →
    (∀ c ∈ [Instr.tickCountLoRead p, .hwdTimeLoRead p, .tetherTickOffLoRead p, .specCounterLoRead p k, .perfCounterLoRead p k,
        .hwdRecWindow7Read p, .hwdSnapWindow7Read p, .healthEpochRead p k],
      ∃ t, exec c s = .next t ∧ (∀ r, r ≠ p → t.port r = s.port r) ∧ t.work = s.work ∧ t.hostMem = s.hostMem)
    ∧ (∃ t, exec (.tickCountLoRead p) s = .next t ∧ t.pins.answer = leBytes 4 (tickCount s % 2 ^ 32)
      ∧ (t.port p).tickHi = tickCount s / 2 ^ 32)
    ∧ (∃ t, exec (.hwdTimeLoRead p) s = .next t ∧ t.pins.answer = leBytes 4 (s.htime % 2 ^ 32)
      ∧ (t.port p).timeHi = s.htime / 2 ^ 32 % 65536)
    ∧ (∃ t, exec (.tetherTickOffLoRead p) s = .next t ∧ t.pins.answer = leBytes 4 (s.tether.off % 2 ^ 32)
      ∧ (t.port p).offHi = s.tether.off / 2 ^ 32 % 65536)
    ∧ (k < 7 → ∃ t, exec (.specCounterLoRead p k) s = .next t
      ∧ t.pins.answer = leBytes 4 (s.work.spec.getD k 0 % 2 ^ 32) ∧ (t.port p).specHi[k]? = some (s.work.spec.getD k 0 / 2 ^ 32))
    ∧ (k < 6 → ∃ t, exec (.perfCounterLoRead p k) s = .next t
      ∧ t.pins.answer = leBytes 4 (s.work.perf.getD k 0 % 2 ^ 32) ∧ (t.port p).perfHi[k]? = some (s.work.perf.getD k 0 / 2 ^ 32))
    ∧ (∃ t, exec (.perfCounterLoRead p 6) s = .next t
      ∧ t.pins.answer = leBytes 4 (((s.engines[(s.port p).perfSel]?).map (·.busy)).getD 0 % 2 ^ 32)
      ∧ (t.port p).perfHi[6]? = some (((s.engines[(s.port p).perfSel]?).map (·.busy)).getD 0 / 2 ^ 32))
    ∧ (7 ≤ k → exec (.specCounterLoRead p k) s = .next s ∧ exec (.perfCounterLoRead p k) s = .next s)
    ∧ (∀ h, k < 3 → s.faults.history[k]? = some h → ∃ t, exec (.healthEpochRead p k) s = .next t
      ∧ t.pins.answer = leBytes 4 h.epoch ∧ (t.port p).health = h)
    ∧ (∃ t, exec (.hwdRecWindow7Read p) s = .next t ∧ (t.port p).recCursor =
        if (s.port p).recAuto then ((s.port p).recCursor + 1) % 2 ^ 32 else (s.port p).recCursor)
    ∧ (∃ t, exec (.hwdSnapWindow7Read p) s = .next t ∧ (t.port p).snapChunk = ((s.port p).snapChunk + 1) % 64)

/-- Staging an image (R359, R360, R375): OPEN takes an allowed TARGET and LEN and empties the buffer; DATA appends four bytes up to
LEN; COMMIT of a whole image that passes its checks starts the write, of any other fails with a reason, a signature whose two
evaluations disagree raising the glitch alarm too; DONE leaves the image in its slot, or after a failed read-back free bytes with
reason 0x0A, and no other slot changes; ABANDON goes to IDLE.
Completes: graftStageOpen, graftStageData, graftStageCommit, graftStageAbandon, graftStageDone.
Where the spec leaves a point open it rests on the model's choice in log entries 38 and 53. -/
def Obligations.GraftStaging : Prop :=
  ∀ (s : State) (p v : Nat),
    let g := s.grafts.stage
    let g' := { g with target := v / 16 % 4 }
    let fails (c : Instr) (r : Nat) := ∃ t, exec c s = .next t ∧ t.grafts.stage.state = .failed ∧ t.grafts.stage.reason = r
      ∧ t.grafts.slotA = s.grafts.slotA ∧ t.grafts.slotB = s.grafts.slotB ∧ t.grafts.slotOwner = s.grafts.slotOwner
      ∧ t.grafts.slotBundle = s.grafts.slotBundle
    (mayStage s p = true →
      (v % 2 = 0 ∨ g.runs = true → exec (.graftStageOpen p v) s = .next s)
      ∧ (v % 2 = 1 → g.runs = false →
        (v / 16 % 4 ≠ 3 → 128 ≤ g.len → g.len ≤ 262144 → exec (.graftStageOpen p v) s = .next { s with
          grafts.stage := { g' with state := .opened, reason := 0, buf := [], since := s.tick.count + 1 } })
        ∧ (v / 16 % 4 = 3 ∨ g.len < 128 ∨ 262144 < g.len → fails (.graftStageOpen p v) 0x09))
      ∧ (g.state ≠ .opened → exec (.graftStageData p v) s = .next s ∧ ∀ b, exec (.graftStageCommit p (v, b)) s = .next s)
      ∧ (g.state = .opened →
        (g.buf.length < g.len → exec (.graftStageData p v) s =
          .next { s with grafts.stage.buf := (g.buf ++ leBytes 4 v).take g.len })
        ∧ (g.len ≤ g.buf.length → fails (.graftStageData p v) 0x09))
      ∧ (∀ split, g.state = .opened → v / 2 % 2 = 1 →
        let u : State := { s with grafts.stage := g' }
        let check := checkImage u (slotImage g.buf) (slotKinds (stageSlot u)) split
        (g.buf.length < g.len ∨ v / 16 % 4 = 3 → fails (.graftStageCommit p (v, split)) 0x09)
        ∧ (g.len ≤ g.buf.length → v / 16 % 4 ≠ 3 →
          (∀ b, check = .ok b → ∃ t, exec (.graftStageCommit p (v, split)) s = .next t ∧ t.grafts.stage = { g' with state := .writing })
          ∧ (∀ r, check = .error r → fails (.graftStageCommit p (v, split)) r)))
      ∧ (∀ split, v / 2 % 2 = 0 → exec (.graftStageCommit p (v, split)) s = .next s)
      ∧ (v / 4 % 2 = 0 → exec (.graftStageAbandon p v) s = .next s)
      ∧ (v / 4 % 2 = 1 → ∃ t, exec (.graftStageAbandon p v) s = .next t ∧ t.grafts.stage.state = .idle
          ∧ t.grafts.stage.buf = [] ∧ t.grafts.slotA = s.grafts.slotA ∧ t.grafts.slotB = s.grafts.slotB))
    ∧ (g.state ≠ .writing → ∀ b, exec (.graftStageDone b) s = .next s)
    ∧ (g.state = .writing → ∀ good, let b := if good then g.buf else fresh s g.buf.length
      ∃ t, exec (.graftStageDone good) s = .next t
      ∧ t.grafts.stage.state = (if good then .done else .failed) ∧ t.grafts.stage.reason = (if good then 0 else 0x0A)
      ∧ t.grafts.slotA = (if g.target = 0 ∧ s.grafts.slot ≠ 1 then b else s.grafts.slotA)
      ∧ t.grafts.slotB = (if g.target = 0 ∧ s.grafts.slot = 1 then b else s.grafts.slotB)
      ∧ t.grafts.slotOwner = (if g.target = 1 then b else s.grafts.slotOwner)
      ∧ t.grafts.slotBundle = (if 1 < g.target then b else s.grafts.slotBundle))
    ∧ (mayStage s p = false → ∀ c ∈ [Instr.graftStageOpen p v, .graftStageData p v, .graftStageCommit p (v, false),
        .graftStageCommit p (v, true), .graftStageAbandon p v], exec c s = .next s)

namespace Sys2Proof.Claims

/-- The data path has stopped (Table 14.9, R26, R53): every job without a posted CE, every slice and every MXU command is gone,
no raise and no register change waits, ERR_N is low, and the key objects, contexts and host memory are as they were. -/
def Stopped (s t : State) : Prop :=
  t.work.jobs = [] ∧ t.exec.runs = [] ∧ t.exec.mxu = [] ∧ t.faults.raises = [] ∧ t.faults.errN = false
  ∧ (∀ c ∈ t.adm.changes, ∀ p off v, c ≠ .reg p off v) ∧ t.store = s.store ∧ t.hostMem = s.hostMem

/-- A boot goes through: the self-test passes, the state that the fuses of `s` spell is a working one with no transition pending,
and slot FW_A holds the one firmware, signed and not below the floor. -/
def Boots (s : State) (env : BootEnv) : Prop :=
  env.selfTest = true ∧ (decodeLcs s.life.otp).2 = none
  ∧ (decodeLcs s.life.otp).1 ≠ .blank ∧ (decodeLcs s.life.otp).1 ≠ .invalid ∧ (decodeLcs s.life.otp).1 ≠ .scrap
  ∧ env.glitch = none ∧ env.fwB = none ∧ ∃ f, env.fwA = some f ∧ f.signed = true ∧ s.floorT ≤ f.version / 2 ^ 24

/-- The device is in service after a boot: step 8 reached, TICK_COUNT 0, no work, a heartwood key, every AF instance BYPASS. -/
def InService (s t : State) : Prop :=
  t.pins.boot = 8 ∧ t.tick.running = true ∧ tickCount t = 0 ∧ t.lcs = (decodeLcs s.life.otp).1 ∧ t.work.jobs = []
  ∧ t.work.sqs = [] ∧ t.hwd.key.isSome = true ∧ t.hostMem = s.hostMem
  ∧ ∀ x ∈ t.insts, x.id % 256 = 0 ∧ x.state = .active ∧ x.mode = .bypass

end Sys2Proof.Claims

open Sys2Proof.Claims

/-! ### Power and boot -/

/-- Power events (R416, R436, R505, R510): a power-up or a rising RESET_N boots the device, held after step 1 while PWR_FAIL_N is
low and going on when it rises; a falling RESET_N or PWR_FAIL_N, a brown-out, or an EXTEST after tick start is a power-fail stop,
once; a dark device only notes the pin.
Completes: powerUp, resetNFall, resetNRise, pwrFailN, brownOut, extest, pwrFailNRelease.
Where the spec leaves a point open it rests on the model's choice in log entry 30. -/
def Obligations.PowerEvents : Prop :=
  ∀ (s : State) (env : BootEnv),
    (s.pins.boot = 0 ∨ s.hwd.vdd = false → s.pins.pwrFailN = true → Boots s env →
      ∃ t, exec (.powerUp env) s = .next t ∧ InService s t)
    ∧ (s.pins.resetN = false → s.hwd.vdd = true → s.pins.pwrFailN = true → Boots s env →
      ∃ t, exec (.resetNRise env) s = .next t ∧ InService s t)
    ∧ (s.pins.boot = 0 ∨ s.hwd.vdd = false → s.pins.pwrFailN = false →
      ∃ t, exec (.powerUp env) s = .next t ∧ t.pins.held = true ∧ t.tick.running = false ∧ t.work.jobs = [])
    ∧ (s.pins.boot ≠ 0 → s.hwd.vdd = true → exec (.powerUp env) s = .next s)
    ∧ (s.pins.resetN = false → s.hwd.vdd = true → s.pins.pwrFailN = false →
      ∃ t, exec (.resetNRise env) s = .next t ∧ t.pins.held = true ∧ t.tick.running = false ∧ t.work.jobs = [])
    ∧ (s.pins.resetN = true ∨ s.hwd.vdd = false → exec (.resetNRise env) s = .next s)
    ∧ (s.pins.held = false → exec (.pwrFailNRelease env) s = .next { s with pins.pwrFailN := true })
    ∧ (s.pins.held = true → env.selfTest = true → (decodeLcs s.life.otp).1 = .blank →
      ∃ t, exec (.pwrFailNRelease env) s = .next t ∧ t.pins.held = false ∧ t.pins.boot = 2 ∧ t.lcs = .blank)
    ∧ (s.stopped = false → s.pins.boot ≠ 0 →
      (∃ t, exec .pwrFailN s = .next t ∧ t.stopped = true ∧ t.pins.pwrFailN = false ∧ Stopped s t)
      ∧ (∃ t, exec .resetNFall s = .next t ∧ t.stopped = true ∧ t.pins.resetN = false ∧ Stopped s t)
      ∧ (∃ t, exec .brownOut s = .next t ∧ t.stopped = true ∧ Stopped s t)
      ∧ (s.tick.running = true → ∃ t, exec .extest s = .next t ∧ t.stopped = true ∧ Stopped s t))
    ∧ (s.stopped = true ∨ s.pins.boot = 0 → exec .pwrFailN s = .next { s with pins.pwrFailN := false }
      ∧ exec .resetNFall s = .next { s with pins.resetN := false } ∧ exec .brownOut s = .next s)
    ∧ (s.tick.running = false → exec .extest s = .next s)

/-! ### Faults -/

/-- Fault events (R262, R382 to R385, R418 to R420, R505): an uncorrectable error of an engine abandons its slices and raises its
source, a corrected one is only counted; errors below the engines raise theirs; a lost PLL that serves stops every slice and the
standby is switched in, or with none the device enters safe state; a lockstep mismatch resets the stewards, a second within
10,000,000 t enters safe state at once, and the reset ends; a vault channel is lost, copied back and serving again, and the loss
of both is safe state; a supply out of range is raised and forces level 4 when a core supply is low; the dump is written to its
buffer once, or fails for want of a buffer, a steward or a link.
Completes: supplyOutOfRange, eccError, fatalStateDump, pllLockLoss, pllSwitchoverDone, lockstepMismatch, stewardResetDone,
vaultChannelLoss, vaultCopyBackDone, vaultChannelReturn.
Where the spec leaves a point open it rests on the model's choice in log entries 40, 46, 48, 54 and 55. -/
def Obligations.FaultEvents : Prop :=
  ∀ (s : State), s.pins.boot = 8 →
    (∀ c ∈ ([.engineUe, .micro] : List (Nat → EccError)), ∀ e j x, s.job? j = some x → x.engine = e → x.sliceTick = some s.tick.count →
      x.result = none → sevOf s e ≠ 4 → e < 272 →
      ∃ t y, exec (.eccError (c e)) s = .next t ∧ t.job? j = some y ∧ y.rerun = true ∧ y.sliceTick = none ∧ y.failover = true
        ∧ s.tick.count ∈ y.lostTicks ∧ t.hostMem = s.hostMem ∧ t.store = s.store)
    ∧ (∀ j x, s.job? j = some x → x.grove < 16 → sevOf s (0x1800 + x.grove) ≠ 4 → ∃ t y, exec (.eccError (.groveWork j)) s = .next t
        ∧ t.job? j = some y ∧ y.rerun = true ∧ y.sliceTick = none ∧ s.tick.count ∈ y.lostTicks ∧ t.hostMem = s.hostMem)
    ∧ (∀ e, exec (.eccError (.engineCe e false)) s = .next (raise s (0x0400 + e / 17) (unitId 0 e) 0 false)
      ∧ exec (.eccError (.engineCe e true)) s = .next (raiseSrc (raise s (0x0400 + e / 17) (unitId 0 e) 0 false) 0x00 e 0))
    ∧ exec (.eccError .deviceCe) s = .next (raiseSrc s 0x0C 0 0) ∧ exec (.eccError .deviceUe) s = .next (raiseSrc s 0x0D 0 0)
    ∧ (∀ g, exec (.eccError (.groveSched g)) s = .next (raiseSrc s 0x07 g 0))
    ∧ (∀ m c, exec (.eccError (.mxuCe m c)) s = .next (raiseSrc s 0x04 (8 * m + c) 0))
    ∧ (∀ c, c < 2 → exec (.eccError (.vaultCe c)) s = .next (raiseSrc s 0x11 c 0))
    ∧ (∀ g i, exec (.eccError (.keyCache g i)) s = .next (raiseSrc
        { s with groves := s.groves.modify g fun x => { x with cache := x.cache.filter (· != i) } } 0x08 g 0))
    ∧ (∀ c l x, exec (.eccError (.vaultBits c l x)) s = .next { s with
        vault.copies := s.vault.copies.modify c fun img => putLine img l (fit 64 (xorBytes (lineOf img l) x)) })
    ∧ (∀ i, s.faults.safe = false → ∃ t, exec (.eccError (.collector i)) s = .next t ∧ t.faults.safe = true
        ∧ t.faults.self = true ∧ t.work.jobs = [] ∧ t.hostMem = s.hostMem)
    ∧ (∀ i, i < 2 → (s.health (unitId 6 i)).state ≠ .failed → (∀ r ∈ s.faults.raises, r.unit ≠ unitId 6 i) →
      (servingPll s ≠ some i → exec (.pllLockLoss i) s = .next (raiseSrc s 0x0E i 0))
      ∧ (servingPll s = some i → sevOf s (0x3800 + i) = 2 ∨ sevOf s (0x3800 + i) = 3 →
        ∃ t, exec (.pllLockLoss i) s = .next t ∧ t.hostMem = s.hostMem ∧ t.store = s.store
        ∧ ((s.health (unitId 6 (1 - i))).state = .standby → (∀ r ∈ s.faults.raises, r.unit ≠ unitId 6 (1 - i)) →
          t.pllGap = some (s.pllGap.getD false) ∧ t.faults.safe = s.faults.safe
          ∧ ∀ j x, s.job? j = some x → x.sliceTick = some s.tick.count → x.result = none → x.commitTick = none →
            ∃ y, t.job? j = some y ∧ y.rerun = true ∧ y.sliceTick = none ∧ s.tick.count ∈ y.lostTicks)
        ∧ ((s.health (unitId 6 (1 - i))).state = .failed → t.faults.safe = true)))
    ∧ (∀ i, 2 ≤ i ∨ (s.health (unitId 6 i)).state = .failed → exec (.pllLockLoss i) s = .next s)
    ∧ (s.pllGap = none → exec .pllSwitchoverDone s = .next s)
    ∧ (s.pllGap = some false → exec .pllSwitchoverDone s = .next { s with pllGap := none })
    ∧ (s.pllGap = some true → ∃ lost, lost ≤ 400 ∧ exec .pllSwitchoverDone s = .next
        (boundaryActions { s with pllGap := none, freeCtr := s.freeCtr + 1 } s.power.tj lost))
    ∧ (s.stw.resetting = true → exec .lockstepMismatch s = .next s)
    ∧ (s.stw.resetting = false → (∀ r, s.stw.resetAt = some r → r + 10000000 ≤ s.tick.count) → sevOf s 0x3C00 ≠ 4 →
      ∃ t, exec .lockstepMismatch s = .next t ∧ t.stw.resetting = true ∧ t.stw.resetAt = some s.tick.count
      ∧ t.work = s.work ∧ t.hostMem = s.hostMem)
    ∧ (∀ r, s.stw.resetting = false → s.stw.resetAt = some r → s.tick.count < r + 10000000 → sevOf s 0x4000 = 4 →
      ∃ t, exec .lockstepMismatch s = .next t ∧ t.stw.resetting = true ∧ t.stw.resetAt = some s.tick.count
      ∧ t.faults.safe = true ∧ t.hostMem = s.hostMem)
    ∧ (s.stw.resetting = true → raisedOf s 0x4000 = 0 → ∃ t, exec .stewardResetDone s = .next t ∧ t.stw.resetting = false
      ∧ t.work = s.work ∧ t.hostMem = s.hostMem)
    ∧ (s.stw.resetting = false ∨ raisedOf s 0x4000 ≠ 0 → exec .stewardResetDone s = .next s)
    ∧ (∀ c, c < 2 → (s.health (unitId 8 c)).state = .withdrawn →
      (∃ k, 1 ≤ k ∧ k ≤ 99 ∧ exec (.vaultChannelReturn c) s = .next { s with
        freeCtr := s.freeCtr + 1, faults.updates := s.faults.updates ++ [⟨unitId 8 c, .withdrawn, k⟩] })
      ∧ ((s.health (unitId 8 c)).info ≠ 0 → exec (.vaultCopyBackDone c) s = .next { s with
        vault.copies := s.vault.copies.set c (s.vault.copies.getD (1 - c) []),
        faults.updates := s.faults.updates ++ [⟨unitId 8 c, .serving, 100⟩] }))
    ∧ (∀ c, 2 ≤ c ∨ (s.health (unitId 8 c)).state ≠ .withdrawn → exec (.vaultChannelReturn c) s = .next s
      ∧ exec (.vaultCopyBackDone c) s = .next s)
    ∧ (∀ c, c < 2 → lostUnit s (unitId 8 c) = false → (lostUnit s (unitId 8 (1 - c)) = false → sevOf s (0x5000 + c) ≠ 4 →
      ∃ t, exec (.vaultChannelLoss c) s = .next t ∧ t.faults.safe = s.faults.safe ∧ t.work = s.work ∧ t.store = s.store
        ∧ t.hostMem = s.hostMem)
      ∧ (lostUnit s (unitId 8 (1 - c)) = true → ∃ t, exec (.vaultChannelLoss c) s = .next t ∧ t.faults.safe = true
        ∧ t.store = s.store ∧ t.hostMem = s.hostMem))
    ∧ (∀ i below, i < 6 → exec (.supplyOutOfRange i below) s = .next
        (raiseSrc { s with power.supply := s.power.supply || (below && decide (i < 2)) } 0x23 i 0))
    ∧ (s.faults.safe = false ∨ s.stopped = true ∨ s.hwd.dump.due = false → exec .fatalStateDump s = .next s)
    ∧ (s.faults.safe = true → s.stopped = false → s.hwd.dump.due = true →
      let ready := (s.health (unitId 7 0)).state = .serving ∧ s.stw.resetting = false
      (¬ready → ∃ t, exec .fatalStateDump s = .next t ∧ t.hwd.dump.state = 4 ∧ t.hwd.dump.reason = 3
        ∧ t.hwd.dump.due = false ∧ t.hostMem = s.hostMem)
      ∧ (ready → s.adm.dump = none → ∃ t, exec .fatalStateDump s = .next t ∧ t.hwd.dump.state = 4
        ∧ t.hwd.dump.reason = 1 ∧ t.hwd.dump.due = false ∧ t.hostMem = s.hostMem)
      ∧ (∀ i a n, ready → s.adm.dump = some (i, a, n) → (s.port (portOf i)).dlUp = false →
        ∃ t, exec .fatalStateDump s = .next t ∧ t.hwd.dump.state = 4 ∧ t.hwd.dump.reason = 4 ∧ t.hwd.dump.due = false
          ∧ t.hostMem = s.hostMem)
      ∧ (∀ i a n x, ready → s.adm.dump = some (i, a, n) → (s.port (portOf i)).dlUp = true → s.inst? i = some x →
        x.mode = .bypass → x.dirty = none → busOk s i = true →
        ∃ t, exec .fatalStateDump s = .next t ∧ t.hwd.dump.state = 3 ∧ t.hwd.dump.reason = 0 ∧ t.hwd.dump.due = false
          ∧ t.hwd.dump.seq = (s.hwd.dump.seq + 1) % 2 ^ 32 ∧ t.store = s.store))

/-! ### Noise, DRBGs, power -/

/-- Noise sources and DRBGs (R368 to R371): a bit that passes the tests is kept by a healthy source; 41 equal bits, or 800 of
1,024 equal to the first, withdraw it; it is admitted again after 1,024 t and a start-up test; 1,024 kept bits are a block; a
DRBG reseeds from the next block of the rotation, or its request waits; 65,536 t without a reseed is its error state.
Power and ALIVE (R397, R503, R513, R514): the throttle level rises by one above the limit and falls by one after a quiet
time, 4 under a low supply or a hot die; the thermal limit moves by one watt, not below 12; the core setpoint moves within 0.72 to
0.80 V at most once in 1,024 t; ALIVE toggles at multiples of 1,024 while the map is published.
Completes: drbgReseed, drbgErrorState, noiseSample, noiseReadmit, aliveToggle, throttleUpdate, thermalLimitUpdate, avsUpdate.
Where the spec leaves a point open it rests on the model's choice in log entries 26, 31, 46 and 47. -/
def Obligations.EntropyAndPower : Prop :=
  (∀ (s : State), s.pins.boot = 8 → s.tick.running = true →
      (∀ i b n, s.entropy.sources[i]? = some n →
        let run := if 0 < n.started ∧ n.last = b then n.run + 1 else 1
        let ones := if n.windowAt = 0 then 1 else n.ones + (if b = n.first then 1 else 0)
        let stood (m : Noise) : Prop := m.started = n.started + 1 ∧ m.last = b ∧ m.run = run ∧ m.ones = ones
          ∧ m.windowAt = (n.windowAt + 1) % 1024 ∧ m.out = n.out ∧ m.failures = n.failures
        (n.failures ≥ 3 ∨ n.out = true ∧ s.tick.count < n.since + 1024 → exec (.noiseSample i b) s = .next s)
        ∧ (n.failures < 3 → n.out = false ∨ n.since + 1024 ≤ s.tick.count →
          (run < 41 → ones < 800 → ∃ t m, exec (.noiseSample i b) s = .next t ∧ t.entropy.sources[i]? = some m ∧ stood m
            ∧ (n.out = true ∨ n.started < 1024 → m.bits = n.bits ∧ t.entropy.blocks = s.entropy.blocks)
            ∧ (n.out = false → 1024 ≤ n.started → n.bits.length < 1023 → m.bits = n.bits ++ [b]
              ∧ t.entropy.blocks = s.entropy.blocks)
            ∧ (n.out = false → 1024 ≤ n.started → 1023 ≤ n.bits.length → m.bits = []
              ∧ (s.entropy.waiting = [] → t.entropy.blocks
                = s.entropy.blocks ++ [(i, hashOf 8 (packBits 128 (n.bits ++ [b])) [] [] 32)])))
          ∧ (41 ≤ run ∨ 800 ≤ ones → ∃ t m, exec (.noiseSample i b) s = .next t
            ∧ t.entropy.sources[i]? = some m ∧ m.out = true ∧ m.failures = n.failures + 1 ∧ m.since = s.tick.count
            ∧ t.entropy.blocks = s.entropy.blocks)))
      ∧ (∀ i b, s.entropy.sources[i]? = none → exec (.noiseSample i b) s = .next s ∧ exec (.noiseReadmit i) s = .next s)
      ∧ (∀ i n, s.entropy.sources[i]? = some n → n.out = true → n.failures < 3 →
        (n.since + 1024 ≤ s.tick.count → 1024 ≤ n.started → ∃ t m, exec (.noiseReadmit i) s = .next t
          ∧ t.entropy.sources[i]? = some m ∧ m.out = false ∧ m.failures = n.failures
          ∧ ⟨unitId 5 i, .serving, n.failures⟩ ∈ t.faults.updates)
        ∧ (s.tick.count < n.since + 1024 ∨ n.started < 1024 → exec (.noiseReadmit i) s = .next s))
      ∧ (∀ g x, s.groves[g]? = some x → x.drbgUp = true →
        (s.tick.count < x.drbgSeeded + 1024 → exec (.drbgReseed g) s = .next s)
        ∧ (x.drbgSeeded + 1024 ≤ s.tick.count →
          (∀ i, nextSource s = some i → ∃ t y, exec (.drbgReseed g) s = .next t
            ∧ t.entropy.blocks = s.entropy.blocks.eraseP (·.1 == i) ∧ t.entropy.turn = (i + 1) % 4
            ∧ t.groves[g]? = some y ∧ y.drbgSeeded = s.tick.count ∧ y.drbgError = false)
          ∧ (nextSource s = none → (g, none) ∉ s.entropy.waiting → exec (.drbgReseed g) s =
            .next { s with entropy.waiting := s.entropy.waiting ++ [(g, none)] })
          ∧ (nextSource s = none → (g, none) ∈ s.entropy.waiting → exec (.drbgReseed g) s = .next s)))
      ∧ (∀ g x, s.groves[g]? = some x → x.drbgUp = false → exec (.drbgReseed g) s = .next s)
      ∧ (∀ g x, s.groves[g]? = some x → x.drbgError = false →
        (s.tick.count < x.drbgSeeded + 65536 → exec (.drbgErrorState g) s = .next s)
        ∧ (x.drbgSeeded + 65536 ≤ s.tick.count → exec (.drbgErrorState g) s = .next
          (raiseSrc { s with groves := s.groves.modify g fun x => { x with drbgError := true } } 0x09 g 0))))
  ∧ (∀ (s : State), s.tick.running = true →
      (∀ mw quiet back, s.tick.count % 16 ≠ 0 → exec (.throttleUpdate mw quiet back) s = .next s)
      ∧ (∀ mw quiet back, s.tick.count % 16 = 0 → ∃ t, exec (.throttleUpdate mw quiet back) s = .next t
        ∧ t.power.supply = (s.power.supply && !back)
        ∧ t.power.level = (if t.power.supply = true ∨ s.power.hot = true then 4
            else if 1000 * powerLimit s < mw then min 4 (s.power.level + 1)
            else if quiet then s.power.level - 1 else s.power.level)
        ∧ t.work = s.work)
      ∧ (s.tick.count ≠ 0 → s.tick.count % 1048576 = 0 →
        (gradeMax s - 5 ≤ s.power.tj → exec .thermalLimitUpdate s = .next { s with power.limit := max 12 (s.power.limit - 1) })
        ∧ (gradeMax s - 10 < s.power.tj → s.power.tj < gradeMax s - 5 → exec .thermalLimitUpdate s = .next s)
        ∧ (s.power.tj ≤ gradeMax s - 10 → s.power.limit < envelopeWatts s.power.envelope → exec .thermalLimitUpdate s =
          .next { s with power.limit := s.power.limit + 1 }))
      ∧ (s.tick.count % 1048576 ≠ 0 → exec .thermalLimitUpdate s = .next s)
      ∧ (∀ v, s.power.avs = true → 5 ≤ s.pins.boot → s.power.avsAt = none → v ≠ s.power.setpoint →
        (288 ≤ v → v ≤ 320 → exec (.avsUpdate v) s = .next { s with power.setpoint := v, power.avsAt := some s.tick.count })
        ∧ (v < 288 ∨ 320 < v → exec (.avsUpdate v) s = .next s))
      ∧ (∀ v c, s.power.avsAt = some c → s.tick.count < c + 1024 → exec (.avsUpdate v) s = .next s)
      ∧ (s.faults.safe = false → s.stopped = false → 1024 ≤ s.tick.count → s.tick.count % 1024 = 0 →
        s.faults.published = s.tick.count → s.faults.aliveAt ≠ s.tick.count →
        exec .aliveToggle s = .next { s with faults.alive := !s.faults.alive, faults.aliveAt := s.tick.count })
      ∧ (s.tick.count % 1024 ≠ 0 → exec .aliveToggle s = .next s))



/-! ### Heartwood -/

/-- Heartwood (R358, R400, R401, R404 to R408, R412, R424): a due flush moves the buffer to the ring; a tamper sample of an enabled
channel moves its window on and fires at N events; the decision takes the higher rank of the two logics and, above the response
that stands, erases from rank 3 the sessions and at rank 4 the heartwood key; a cell below 1.7 V without VDD loses heartwood's
state; a change of supply loses none and clears the windows; a floor bit is programmed in order, and one torn by a loss of
power stands or not; a lockout ends.
Completes: recorderFlush, floorRaise, lockoutExpiry, tamperSample, tamperDecision, supplySourceChange, heartwoodStateLoss,
xtal32Stop, xtal32Restart.
Where the spec leaves a point open it rests on the model's choice in log entries 5, 31, 39, 53 and 54. -/
def Obligations.HeartwoodEvents : Prop :=
  ∀ (s : State),
    (s.hwd.vdd = true → 256 ≤ s.recd.buf.length → exec .recorderFlush s = .next (flushRecorder s)
      ∧ (flushRecorder s).recd.buf = [])
    ∧ (s.hwd.vdd = true → s.recd.buf ≠ [] → s.recd.flushed + 1048576 ≤ s.tick.count →
      exec .recorderFlush s = .next (flushRecorder s))
    ∧ (s.recd.buf = [] ∨ s.hwd.vdd = false ∨ s.recd.buf.length < 256 ∧ s.tick.count < s.recd.flushed + 1048576 →
      exec .recorderFlush s = .next s)
    ∧ (∀ ch ev detail lights c, s.hwd.vdd = true → s.hwd.channels[ch]? = some c →
      (13 ≤ ch ∨ c.enable = false ∨ sampled s ch c = true → exec (.tamperSample ch ev detail lights) s = .next s)
      ∧ (ch < 13 → c.enable = true → sampled s ch c = false →
        let e := if ch = 6 then decide (s.hwd.vbak < 2000) else if ch = 7 then s.hwd.xtalStopped else if ch = 12 then s.hwd.glitch
          else if 8 ≤ ch then ev == c.polarity else ev
        let w := (e :: c.window).take c.w
        let k := (w.filter id).length
        (e = true → c.n ≤ k → ∃ t d, exec (.tamperSample ch ev detail lights) s = .next t ∧ t.hwd.channels[ch]? = some d
          ∧ d.window = [] ∧ d.fired = true ∧ d.rank = c.rank ∧ t.hwd.sets ≠ [] ∧ t.store = s.store)
        ∧ (e = false ∨ k < c.n → ∃ t d, exec (.tamperSample ch ev detail lights) s = .next t ∧ t.hwd.channels[ch]? = some d
          ∧ d.window = w ∧ d.fired = c.fired ∧ t.hwd.sets = s.hwd.sets ∧ t.store = s.store)))
    ∧ (∀ q fs rest second, s.hwd.sets = (q, fs) :: rest → s.hwd.vdd = true →
      let a := rankOf s fs
      let r := max a (min 4 (second.getD a))
      ∃ t, exec (.tamperDecision second) s = .next t ∧ t.hwd.sets = rest
        ∧ (s.hwd.applied = 0 ∨ s.hwd.applied < r → (1 ≤ r → t.hwd.throttle = true ∧ t.hwd.applied = r)
          ∧ (3 ≤ r → t.store.ctxs = [] ∧ t.store.streams = [] ∧ t.vault.keys = none)
          ∧ (r = 4 → t.hwd.key = none ∧ t.hwd.keyCopy = none ∧ t.hwd.erased = true)
          ∧ (r < 3 → t.store = s.store) ∧ (r < 4 → t.hwd.key = s.hwd.key))
        ∧ (s.hwd.applied ≠ 0 → r ≤ s.hwd.applied → t.vault = s.vault ∧ t.hwd.key = s.hwd.key ∧ t.store = s.store ∧ t.hwd.applied = s.hwd.applied))
    ∧ (s.hwd.sets = [] → ∀ second, exec (.tamperDecision second) s = .next s)
    ∧ (∀ q fs rest second, s.hwd.sets = (q, fs) :: rest → s.hwd.vdd = false → s.hwd.applied = 0 →
      let r := max (rankOf s fs) (min 4 (second.getD (rankOf s fs)))
      ∃ t, exec (.tamperDecision second) s = .next t ∧ t.hwd.sets = rest ∧ t.store = s.store ∧ t.hwd.applied = r
        ∧ (r = 4 → t.hwd.key = none ∧ t.hwd.keyCopy = none) ∧ (r ≠ 4 → t.hwd.key = s.hwd.key))
    ∧ (s.hwd.vdd = false → s.hwd.vbak < 1700 → ∃ t, exec .heartwoodStateLoss s = .next t ∧ t.hwd.key = none ∧ t.htime = 0
      ∧ t.hwd.retention = [] ∧ t.hwd.lost = true ∧ t.recd = s.recd ∧ t.hwd.keyCopy = s.hwd.keyCopy)
    ∧ (s.hwd.vdd = true ∨ 1700 ≤ s.hwd.vbak → exec .heartwoodStateLoss s = .next s)
    ∧ (∀ v, s.hwd.vdd = true → ∃ t, exec (.supplySourceChange false v) s = .next t ∧ t.hwd.vdd = false ∧ t.hwd.vbak = v
      ∧ t.hwd.key = s.hwd.key ∧ t.htime = s.htime ∧ t.recd = s.recd
      ∧ (∀ c ∈ t.hwd.channels, c.window = []) ∧ t.hwd.channels.length = s.hwd.channels.length)
    ∧ (∀ v, s.hwd.vdd = false → ∃ t k, exec (.supplySourceChange true v) s = .next t ∧ t.hwd.vdd = true ∧ t.hwd.vbak = v
      ∧ t.hwd.key = s.hwd.key ∧ t.htime = (s.htime + k) % 2 ^ 48 ∧ t.recd = s.recd ∧ (∀ c ∈ t.hwd.channels, c.window = []))
    ∧ exec .xtal32Stop s = .next { s with hwd.xtalStopped := true }
    ∧ exec .xtal32Restart s = .next { s with hwd.xtalStopped := false }
    ∧ (∀ t, s.life.lockout = some t → s.tick.running = true →
      (t ≤ s.tick.count → exec .lockoutExpiry s = .next { s with life.lockout := none })
      ∧ (s.tick.count < t → exec .lockoutExpiry s = .next s))
    ∧ (∀ t, s.life.lockout = some t → s.tick.running = false → exec .lockoutExpiry s = .next { s with life.lockout := none })
    ∧ (s.life.lockout = none → exec .lockoutExpiry s = .next s)
    ∧ (s.grafts.floorPending = true → s.tick.running = true → s.faults.safe = false → s.stopped = false →
      (60000000 ≤ s.tick.count → ∃ t, exec (.floorRaise false) s = .next t
        ∧ t.grafts.floorBits = s.grafts.floorBits ||| 2 ^ s.floorT ∧ t.grafts.slotA = s.grafts.slotA)
      ∧ (60000000 ≤ s.tick.count → ∃ t, exec (.floorRaise true) s = .next t ∧ t.grafts.slotA = s.grafts.slotA
        ∧ (t.grafts.floorBits = s.grafts.floorBits ∨ t.grafts.floorBits = s.grafts.floorBits ||| 2 ^ s.floorT))
      ∧ ∀ torn, s.tick.count < 60000000 → exec (.floorRaise torn) s = .next s)
    ∧ ∀ torn, s.grafts.floorPending = false → exec (.floorRaise torn) s = .next s

/-! ### Life cycle, debug, management -/

/-- Life cycle over the TAP, debug and management (R424, R425, R427, R433, R435, R519, R520): in BLANK a token that is not the
vendor's, and one whose decision a glitch splits, counts a mismatch and locks out for 1,000,000 t; the vendor's programs both
copies of the target's field, a failed read-back leaving the transition pending, and to SCRAP copy A alone before the wipe; a
refused command leaves its DETAIL; in RETURNED a challenge gives a fresh nonce with the identity, and a response opens debug only
when both signatures verify and no glitch splits the decision, else closes the challenge; a management read answers once boot step 2 is reached; an answered alert releases MG_ALERT_N.
Completes: jtagLcsCmd, dbgChallenge, dbgResponse, mgStateReport, mgHealthSummary, mgTj, mgPower, alertResponse, i3cIbiAck.
Where the spec leaves a point open it rests on the model's choice in log entries 5, 44 and 53. -/
def Obligations.LifeCycleAndManagement : Prop :=
  ∀ (s : State) (params : Bytes),
    let se := zeros 8 ++ fit 56 params
    (s.pins.boot = 2 → s.lcs = .blank → firstReply (lcsChecks s se) = none →
      (sha3 (lcsToken se) ∉ tokenSlots s (lcsTarget se) → ∃ t, exec (.jtagLcsCmd params .none) s = .next t
        ∧ t.life.mismatches = satInc 255 s.life.mismatches ∧ t.life.lockout = some (s.tick.count + 1000000)
        ∧ t.life.lastDetail = 0x41 ∧ t.life.otp = s.life.otp)
      ∧ (sha3 (lcsToken se) ∈ tokenSlots s 1 → lcsTarget se = 1 → s.life.otp.fields.length = 6 →
        ∃ t, exec (.jtagLcsCmd params .none) s = .next t ∧ t.life.otp.fields[0]? = some (0xFFFF, 0xFFFF)
          ∧ (∀ i, 1 ≤ i → t.life.otp.fields[i]? = s.life.otp.fields[i]?) ∧ t.life.done = true ∧ t.life.pending = none)
      ∧ (∃ t, exec (.jtagLcsCmd params .glitch) s = .next t ∧ t.life.mismatches = satInc 255 s.life.mismatches
        ∧ t.life.lockout = some (s.tick.count + 1000000) ∧ t.life.lastDetail = 0x41 ∧ t.life.otp = s.life.otp)
      ∧ (∀ k n, k = 0 ∨ k = 2 ∨ k = 3 → sha3 (lcsToken se) ∈ tokenSlots s 1 → lcsTarget se = 1 →
        ∃ t, exec (.jtagLcsCmd params (.readBack k n)) s = .next t ∧ t.life.pending = some 1 ∧ t.life.done = s.life.done
          ∧ (k < 3 → (t.life.otp.fields[0]?).map (·.2) = (s.life.otp.fields[0]?).map (·.2))))
    ∧ (s.pins.boot = 2 → s.lcs = .blank ∨ s.lcs = .invalid ∧ lcsTarget se = 6 →
      (∀ r u, firstReply (lcsChecks s se) = some r → r.status ≠ 0 → r.status ≠ 0x0600 → r.wait = .done →
        exec (.jtagLcsCmd params u) s = .next { s with life.phase := 0, life.lastDetail := r.detail })
      ∧ (firstReply (lcsChecks s se) = none → sha3 (lcsToken se) ∈ tokenSlots s 6 → lcsTarget se = 6 →
        s.life.otp.fields.length = 6 → ∃ t, exec (.jtagLcsCmd params .none) s = .next t ∧ t.life.state = .scrap
          ∧ (t.life.otp.fields[5]?).map (·.1) = some 0xFFFF ∧ t.tick.running = false ∧ t.work.jobs = []))
    ∧ (∀ u, s.pins.boot ≠ 2 ∨ s.lcs ≠ .blank ∧ (s.lcs ≠ .invalid ∨ lcsTarget se ≠ 6) →
      exec (.jtagLcsCmd params u) s = .next s)
    ∧ (s.lcs = .returned → 2 ≤ s.pins.boot → exec .dbgChallenge s = .next { drawn s 32 with
        life.challenge := some (fresh s 32), pins.answer := fresh s 32 ++ fit 16 s.pins.identity })
    ∧ (s.lcs ≠ .returned ∨ s.pins.boot < 2 → exec .dbgChallenge s = .next s)
    ∧ (∀ g, s.lcs ≠ .returned ∨ s.life.challenge = none → exec (.dbgResponse params g) s = .next s)
    ∧ (∀ n, s.lcs = .returned → s.life.challenge = some n → ∃ t, exec (.dbgResponse params true) s = .next t
      ∧ t.life.challenge = none ∧ t.life.debugOpen = s.life.debugOpen)
    ∧ (∀ n, s.lcs = .returned → s.life.challenge = some n →
      let msg := n ++ fit 16 s.pins.identity
      let root := (List.range 2689).map Config.debugRoot
      let good := params.length = 4723 ∧ stdHolds .deviceVerify 0x0203 [dzdebug, root.take 2592, msg, params.take 4627] = true
        ∧ stdHolds .deviceVerify 0x1102 [root.drop 2592, msg, params.drop 4627] = true
      (good → exec (.dbgResponse params false) s = .next { s with life.challenge := none, life.debugOpen := true })
      ∧ (¬good → exec (.dbgResponse params false) s = .next { s with life.challenge := none }))
    ∧ (s.pins.boot < 2 → exec .mgStateReport s = .next s ∧ exec .mgTj s = .next s ∧ exec .mgPower s = .next s
      ∧ exec .mgHealthSummary s = .next s ∧ exec .alertResponse s = .next s)
    ∧ (2 ≤ s.pins.boot → s.lcs ≠ .scrap →
      (∃ a, exec .mgStateReport s = .next { s with pins.answer := a } ∧ a.length = 4 ∧ leAt a 0 1 = s.lcs.code)
      ∧ exec .mgTj s = .next { s with pins.answer := leBytes 1 (int8 s.power.tj) }
      ∧ (s.pins.boot = 8 → exec .mgPower s = .next { s with pins.answer := leBytes 4 (powerWord s) }
        ∧ exec .mgHealthSummary s = .next { s with
          pins.answer := leBytes 4 (healthSummary s.faults.safe (s.faults.history.headD default).map) })
      ∧ (s.pins.boot ≠ 8 → exec .mgPower s = .next { s with pins.answer := leBytes 4 0 })
      ∧ (s.faults.mgAlertN = false → exec .alertResponse s = .next { s with
        faults.mgAlertN := true, pins.answer := leBytes 1 (2 * (0x58 + s.pins.mgAddr % 8)) })
      ∧ (s.faults.mgAlertN = true → exec .alertResponse s = .next s))
    ∧ (2 ≤ s.pins.boot → s.lcs = .scrap → exec .mgTj s = .next { s with pins.answer := leBytes 1 0 }
      ∧ exec .mgPower s = .next { s with pins.answer := leBytes 4 0 }
      ∧ exec .mgHealthSummary s = .next { s with pins.answer := leBytes 4 0 })
    ∧ exec .i3cIbiAck s = .next { s with faults.mgAlertN := true }

/-! ### Host ports -/

/-- Functions (R119, R438, R476, R477, R480, R481, R483, R484): before step 8 a configuration request has no answer, then it
reads the identifiers of R477; VF Enable adds TFs, its clearing and a Function Level Reset end every job and remove every queue
of an instance they strike and no other's; bus mastering and a vector's mask are one function's own.
Host links and completions (R475, R482, R486, R487): a completion shows host memory as it brings it; a failed read sets its
PORT_EVENTS bit and stands as a failed SE copy, ends the confirmed job that made it or is dropped when the read ran ahead; a port trains, retries, degrades and goes down, raising a source and
its map entry changing at the next boundary; a port reset waits for step 3.
Completes: sqDoorbell, cqDoorbell, configRequest, vfEnableSet, vfEnableClear, functionLevelReset, busMasterDisable,
busMasterEnable, vectorUnmask, hostReadCompletion, completionTimeout, portReset, hostLinkTrained, hostLinkRetry,
hostLinkDown, hostLaneDegrade.
Where the spec leaves a point open it rests on the model's choice in log entries 19, 44, 45 and 52. -/
def Obligations.HostPorts : Prop :=
  (∀ (s : State) (p n : Nat),
      (s.pins.boot ≠ 8 → exec (.configRequest p n (.read 0)) s = .next { s with pins.answer := [] })
      ∧ (s.pins.boot = 8 → fnExists s (p * 256 + n) = true → n < 256 →
        exec (.configRequest p n (.read 0)) s = .next { s with
          pins.answer := leBytes 4 ((if n = 0 then 0x8256 else 0x8257) * 65536 + 0x1E73) }
        ∧ (∀ e m, exec (.configRequest p n (.msix e m)) s = .next
          (s.putMsix { s.msixOf (p * 256 + n) with enable := e, funcMask := m })))
      ∧ (s.pins.boot = 8 → fnExists s (p * 256 + n) = true → n < 256 → ∀ off, ∃ v, v < 2 ^ 32
        ∧ exec (.configRequest p n (.read off)) s = .next { s with
            freeCtr := s.freeCtr + (if off = 0 ∨ off = 0x08 ∨ off = 0x2C then 0 else 1), pins.answer := leBytes 4 v }
        ∧ (off = 0x08 → v = 0x10800000 + s.pins.stepping % 256)
        ∧ (off = 0x2C → v = (if s.pins.grade = 0 then 0x000A else 0x000C) * 65536 + 0x1E73))
      ∧ (s.pins.boot = 8 → 256 ≤ n ∨ fnExists s (p * 256 + n) = false → ∀ a, exec (.configRequest p n a) s = .next s)
      ∧ (s.pins.boot = 8 → fnExists s (p * 256) = true → ∀ b,
        exec (.configRequest p 0 (.ari b)) s = .next (s.updPort p fun x => { x with ari := b }))
      ∧ (s.pins.boot = 8 → (s.port p).present = true → (s.port p).vfEnable = false → 1 ≤ n → n ≤ 255 →
        exec (.vfEnableSet p n) s = .next (s.updPort p fun x => { x with vfEnable := true, numVfs := n }))
      ∧ ((s.port p).present = false ∨ (s.port p).vfEnable = true ∨ n = 0 ∨ 255 < n → exec (.vfEnableSet p n) s = .next s)
      ∧ ((s.port p).vfEnable = false → exec (.vfEnableClear p) s = .next s)
      ∧ (∀ i, i % 256 = 0 ∨ fnExists s i = false → exec (.functionLevelReset i) s = .next s)
      ∧ (∀ f, fnExists s f = false ∨ f ∈ s.busMaster → exec (.busMasterEnable f) s = .next s)
      ∧ (s.pins.boot = 8 → (s.port p).vfEnable = true → p < 4 → ∃ t, exec (.vfEnableClear p) s = .next t
        ∧ (t.port p).vfEnable = false ∧ (t.port p).numVfs = 0 ∧ t.hostMem = s.hostMem
        ∧ ∀ x ∈ s.work.sqs, portOf x.inst ≠ p → x ∈ t.work.sqs)
      ∧ (∀ i, s.pins.boot = 8 → i % 256 ≠ 0 → fnExists s i = true → faceInst s i = i → instState s i ≠ .absent →
        ∃ t, exec (.functionLevelReset i) s = .next t ∧ t.work.sqs = s.work.sqs.filter (·.inst != i)
          ∧ t.work.cqs = s.work.cqs.filter (·.inst != i) ∧ (∀ j ∈ t.work.jobs, ¬(j.inst = i ∧ j.origin = none))
          ∧ (∀ j ∈ t.work.jobs, ∃ k ∈ s.work.jobs, k.id = j.id) ∧ t.hostMem = s.hostMem ∧ i ∉ t.busMaster)
      ∧ (∀ f, exec (.busMasterDisable (f, false)) s = .next { s with busMaster := s.busMaster.filter (· != f) })
      ∧ (∀ f, f < 1024 → s.ports.length = 4 → ∃ t, exec (.busMasterDisable (f, true)) s = .next t ∧ f ∉ t.busMaster
        ∧ asleep t f = true ∧ t.work = s.work ∧ (∀ g, g ≠ f → g < 1024 → asleep t g = asleep s g))
      ∧ (∀ f v a d, asleep s f = true → exec (.vectorUnmask f v a d) s = .next s)
      ∧ (∀ f off w v, asleep s f = true → exec (.sqDoorbell f off w v) s = .next s ∧ exec (.cqDoorbell f off w v) s = .next s)
      ∧ (∀ f, s.pins.boot = 8 → fnExists s f = true → f ∉ s.busMaster → s.ports.length = 4 →
        ∃ t, exec (.busMasterEnable f) s = .next t ∧ t.busMaster = s.busMaster ++ [f] ∧ asleep t f = false ∧ t.work = s.work)
      ∧ ∀ i v a d, s.pins.boot = 8 → fnExists s i = true → asleep s i = false → v < (if i % 256 = 0 then 2048 else 64) → a < 2 ^ 64 → d < 2 ^ 32 →
        ∃ t, exec (.vectorUnmask i v a d) s = .next t ∧ (t.msixOf i).entry v = ⟨v, a, d, false⟩
          ∧ (∀ w, w ≠ v → (t.msixOf i).entry w = (s.msixOf i).entry w) ∧ (t.msixOf i).pba = (s.msixOf i).pba
          ∧ ∀ k, k ≠ i → t.msixOf k = s.msixOf k)
  ∧ (∀ (s : State) (p : Nat), s.pins.boot = 8 → (s.port p).present = true → s.ports.length = 4 →
      (∀ f b d, (s.port p).dlUp = true → exec (.hostReadCompletion p f (.ok b d)) s =
        .next { s with hostMem := Mem.writeBytes s.hostMem b d, hostDeaf := s.hostDeaf.flatMap (Deaf.minus b d.length) })
      ∧ (∀ f c, (s.port p).dlUp = false → exec (.hostReadCompletion p f c) s = .next s)
      ∧ (∀ rs ∈ ([(fun f => .hostReadCompletion p f .ur, 5), (fun f => .hostReadCompletion p f .ca, 5),
          (fun f => .hostReadCompletion p f .poisoned, 3), (fun f => .completionTimeout p f, 4)] : List ((ReadFor → Instr) × Nat)),
        (s.port p).dlUp = true →
        let u := s.updPort p fun x => { x with events := x.events ||| 2 ^ rs.2 }
        (∀ b n, exec (rs.1 (.span b n)) s =
          .next { s with hostDeaf := s.hostDeaf.flatMap (Deaf.minus b n) ++ [⟨b, n, rs.2⟩] })
        ∧ exec (rs.1 .other) s = .next u
        ∧ (∀ j, s.job? j = none → exec (rs.1 (.input j)) s = .next u)
        ∧ (∀ j x, s.job? j = some x →
          (runnable u x = true → x.input = none → x.confirmed = true →
            exec (rs.1 (.input j)) s = .next (finalCommit u j (err 0x0103 0x01)))
          ∧ (runnable u x = true → x.input = none → x.confirmed = false → exec (rs.1 (.input j)) s = .next (specInc u 6 1))
          ∧ (runnable u x = false ∨ x.input.isSome = true → exec (rs.1 (.input j)) s = .next u))
        ∧ (∀ i q k, s.sq? i q = none → exec (rs.1 (.se i q k)) s = .next u)
        ∧ (∀ i q k x, s.sq? i q = some x → mayFetch u x = true → k < 2 * 2 ^ x.log2n → dist (2 ^ x.log2n) k x.head < 2 ^ x.log2n →
          (∀ c ∈ x.copies, c.pos ≠ k) →
          (dist (2 ^ x.log2n) k x.head < x.published → exec (rs.1 (.se i q k)) s =
            .next (u.updSq i q fun x => { x with copies := x.copies ++ [{ pos := k, bytes := none }] }))
          ∧ (x.published ≤ dist (2 ^ x.log2n) k x.head → x.readAhead = true → exec (rs.1 (.se i q k)) s = .next (specInc u 6 1))))
      ∧ exec (.portReset p) s = .next (s.updPort p fun x => { x with resetDue := true })
      ∧ ((s.port p).l0 = false → exec (.hostLinkTrained p 5 (s.port p).maxWidth) s = (if widthOk s p (s.port p).maxWidth then .next
        { (s.updPort p fun x => { x with
          dlUp := true, l0 := true, fell := false, speed := 5, linkWidth := (s.port p).maxWidth }) with
          faults.updates := s.faults.updates ++ [⟨unitId 9 p, .serving, (s.port p).maxWidth⟩] } else .next s))
      ∧ (∀ speed w, (s.port p).l0 = true ∨ widthOk s p w = false ∨ speed < 3 ∨ 5 < speed →
        exec (.hostLinkTrained p speed w) s = .next s)
      ∧ (∀ speed w, (s.port p).l0 = false → widthOk s p w = true → 3 ≤ speed → speed ≤ 5 → speed < 5 ∨ w < (s.port p).maxWidth →
        (∀ k, sevOf s (0x5C00 + k) ≠ 4) → ∃ t, exec (.hostLinkTrained p speed w) s = .next t ∧ (t.port p).dlUp = true
          ∧ (t.port p).l0 = true ∧ (t.port p).speed = speed ∧ (t.port p).linkWidth = w
          ∧ (⟨unitId 9 p, .degraded, w⟩ : Health) ∈ t.faults.updates ∧ t.work = s.work)
      ∧ ((s.port p).dlUp = true → exec (.hostLinkRetry p) s = .next s)
      ∧ ((s.port p).dlUp = false → (s.health (unitId 9 p)).state ≠ .withdrawn → (∀ r ∈ s.faults.raises, r.unit ≠ unitId 9 p) →
        sevOf s (0x6000 + p) ≠ 4 → ∃ t, exec (.hostLinkRetry p) s = .next t
        ∧ (t.port p).recoveries = satInc 65535 (s.port p).recoveries ∧ bit (t.port p).events 0 = true
        ∧ (⟨unitId 9 p, .withdrawn, 0⟩ : Health) ∈ t.faults.updates ∧ t.work = s.work)
      ∧ ((s.port p).dlUp = false → (s.health (unitId 9 p)).state = .withdrawn → exec (.hostLinkRetry p) s =
        .next (s.updPort p fun x => { x with recoveries := satInc 65535 x.recoveries }))
      ∧ ((s.port p).l0 = true →
        (isPaired s p = false → exec (.hostLinkDown p false) s =
          .next (s.updPort p fun x => { x with l0 := false, recoveries := satInc 65535 x.recoveries }))
        ∧ (isPaired s p = true → sevOf s (0x6000 + p) ≠ 4 → ∃ t, exec (.hostLinkDown p false) s = .next t
          ∧ (t.port p).l0 = false ∧ (t.port p).dlUp = (s.port p).dlUp ∧ bit (t.port p).events 0 = true
          ∧ (⟨unitId 9 p, .withdrawn, 0⟩ : Health) ∈ t.faults.updates ∧ t.work = s.work)
        ∧ (sevOf s (0x6000 + p) ≠ 4 → ∃ t, exec (.hostLinkDown p true) s = .next t ∧ (t.port p).dlUp = false
          ∧ (t.port p).l0 = false ∧ (t.port p).resetDue = true ∧ bit (t.port p).events 0 = true
          ∧ (⟨unitId 9 p, .withdrawn, 0⟩ : Health) ∈ t.faults.updates ∧ t.work = s.work))
      ∧ (∀ d, (s.port p).l0 = false → exec (.hostLinkDown p d) s = .next s)
      ∧ (∀ g w lane, (s.port p).l0 = true → widthOk s p w = true → 3 ≤ g → g < (s.port p).speed → w ≤ (s.port p).linkWidth →
        sevOf s (0x5C00 + lane % 16) ≠ 4 → ∃ t, exec (.hostLaneDegrade p g w lane) s = .next t ∧ (t.port p).linkWidth = w
          ∧ (t.port p).speed = g ∧ bit (t.port p).events 2 = true ∧ t.work = s.work)
      ∧ (∀ g w lane, (s.port p).l0 = false ∨ widthOk s p w = false ∨ g < 3 ∨ (s.port p).speed < g ∨ (s.port p).linkWidth < w →
        exec (.hostLaneDegrade p g w lane) s = .next s)
      ∧ ∀ w lane, (s.port p).l0 = true → (s.port p).speed = 5 → w < (s.port p).linkWidth → widthOk s p w = true →
        sevOf s (0x5C00 + lane % 16) ≠ 4 → ∃ t, exec (.hostLaneDegrade p 5 w lane) s = .next t ∧ (t.port p).linkWidth = w
          ∧ (t.port p).speed = 5 ∧ (t.port p).l0 = true ∧ bit (t.port p).events 1 = true ∧ t.work = s.work)



namespace Sys2Proof.Claims

/-- Message `m` of a TYPE reaches this joined device and opens under the pair key of device `d.1`, whose CTR it does not repeat
(R452): `p` is the message with its plaintext, `u` the state that has noted the CTR and woken the stewards. -/
def Arrives (s u : State) (m p : TMsg) (kind : Nat) : Prop :=
  tetherUp s m.link = true ∧ s.tether.joined = true ∧ m.dst = s.selfId
  ∧ ∃ d b, unsealed s m kind = some (d, b) ∧ d.2.ctr ≤ m.ctr ∧ p = { m with body := b }
    ∧ u = { noteCtr s d.1 m.ctr with stw.events := s.stw.events ||| 16 }

/-- Nothing of a canopy is left in the state. -/
def Left (t : State) : Prop :=
  t.tether.joined = false ∧ t.tether.charter = none ∧ t.tether.members = [] ∧ t.tether.off = 0

end Sys2Proof.Claims

open Sys2Proof.Claims

/-! ### Tether -/

/-- Tether links (R451, R453 to R457): a link trains to discovery, or back to PAIRED after a retrain, goes on at the next lower
width when it loses a lane or, from one lane, is lost; a retrain counts; a flit that is not whole or out of sequence is answered
with NAK and carries nothing; a whole one in sequence moves SEQ on and joins its message, which its last flit completes; a length
that does not agree is counted.
Canopy timers (R458, R459, R466, R467, R469): a heartbeat or tick goes out only at its canopy boundary; a member silent for
64 t is declared lost by the manager; a manager silent for 64 t, or 48 t to the standby, is treated as lost.
Completes: tetherRetrain, tetherLinkTrained, tetherLaneFail, discoveryRetry, heartbeatDue, tickSyncDue, memberLostTimeout,
managerLostTimeout, flitReceive.
Where the spec leaves a point open it rests on the model's choice in log entries 31, 36 and 46. -/
def Obligations.TetherLinksAndTimers : Prop :=
  (∀ (s : State) (l : Nat), s.pins.boot = 8 → s.pins.role ≠ 0 → l < 8 → s.tether.links.length = 8 →
      let k := s.link l
      let other := s.link (l + 1 - 2 * (l % 2))
      let split := k.split = true ∨ l % 2 = 1 ∨ other.state = .paired ∨ other.state = .discovery
      (∀ w, k.state = .training ∨ k.state = .lost ∨ k.state = .down → w = 1 ∨ w = 2 ∨ w = 4 ∧ ¬split →
        ∃ t, exec (.tetherLinkTrained l w) s = .next t ∧ (t.link l).state = (if k.was then .paired else .discovery)
          ∧ (t.link l).width = w ∧ ((t.link l).split = true ↔ split) 
          ∧ (t.link l).rxSeq = (if k.was then k.rxSeq else 0) ∧ (t.link l).parts = (if k.was then k.parts else []) ∧ t.work = s.work)
      ∧ (∀ w, k.state = .paired ∨ k.state = .discovery ∨ (w ≠ 1 ∧ w ≠ 2 ∧ w ≠ 4) ∨ w = 4 ∧ split →
        exec (.tetherLinkTrained l w) s = .next s)
      ∧ (∀ lane, 4 ≤ lane ∨ k.width = 0 → exec (.tetherLaneFail l lane) s = .next s)
      ∧ (∀ lane, lane < 4 → sevOf s (0x6400 + (4 * (l / 2) + lane)) ≠ 4 →
        (1 < k.width → ∃ t, exec (.tetherLaneFail l lane) s = .next t
          ∧ (t.link l).width = (if k.width = 4 then 2 else if k.width = 2 then 1 else 0)
          ∧ (t.link l).retrains = satInc 255 k.retrains ∧ (t.link l).state = k.state)
        ∧ (k.width = 1 → sevOf s (0x6800 + l / 2) ≠ 4 → ∃ t, exec (.tetherLaneFail l lane) s = .next t
          ∧ (t.link l).state = .lost ∧ (t.link l).width = 0))
      ∧ (∀ v, (s.port s.adm.primary).dlUp = true → ∃ t, exec (.tetherRetrain s.adm.primary v) s = .next t ∧ t.work = s.work
        ∧ (bit v (l / 2) = true → k.state ≠ .down → k.state ≠ .training → (t.link l).state = .training
          ∧ ((t.link l).was = true ↔ k.state = .paired) ∧ (t.link l).retrains = satInc 255 k.retrains)
        ∧ (bit v (l / 2) = false ∨ k.state = .down ∨ k.state = .training → t.link l = k))
      ∧ (∀ p v, p ≠ s.adm.primary ∨ (s.port p).dlUp = false → exec (.tetherRetrain p v) s = .next s)
      ∧ (s.service = true → s.tether.active = 1 → k.tried + 1048576 ≤ s.tick.count →
        exec (.discoveryRetry l) s = .next (discover s l))
      ∧ (s.tick.count < k.tried + 1048576 ∨ s.tether.active ≠ 1 → exec (.discoveryRetry l) s = .next s)
      ∧ (∀ f, tetherUp s l = false → exec (.flitReceive l f) s = .next s)
      ∧ ∀ f, tetherUp s l = true →
        (flitOk f = false → k.nakRow < 7 → exec (.flitReceive l f) s = .next (s.updLink l fun k =>
          { k with nak := true, naks := satInc 255 k.naks, nakRow := k.nakRow + 1 }))
        ∧ (flitOk f = false → k.nakRow = 7 → ∃ t, exec (.flitReceive l f) s = .next t ∧ (t.link l).state = .training
          ∧ (t.link l).naks = satInc 255 k.naks ∧ (t.link l).retrains = satInc 255 k.retrains ∧ t.tether.inbox = s.tether.inbox)
        ∧ (flitOk f = true → bit (byteAt f 2) 4 = true → ∃ t, exec (.flitReceive l f) s = .next t
          ∧ (t.link l).rxSeq = k.rxSeq ∧ (t.link l).parts = k.parts ∧ t.tether.inbox = s.tether.inbox)
        ∧ (flitOk f = true → bit (byteAt f 2) 4 = false → byteAt f 0 ≠ k.rxSeq → ∃ t, exec (.flitReceive l f) s = .next t
          ∧ (t.link l).rxSeq = k.rxSeq ∧ (t.link l).naks = satInc 255 k.naks ∧ t.tether.inbox = s.tether.inbox)
        ∧ (flitOk f = true → byteAt f 2 = 4 → byteAt f 0 = k.rxSeq → 16 ≤ byteAt f 3 → byteAt f 3 ≤ leAt f 8 4 + 32 → leAt f 8 4 ≤ 131072 →
          ∃ t, exec (.flitReceive l f) s = .next t ∧ (t.link l).rxSeq = (k.rxSeq + 1) % 256
            ∧ ({ vc := 0, bytes := sub f 4 (byteAt f 3) } : Assembly) ∈ (t.link l).parts ∧ t.tether.inbox = s.tether.inbox)
        ∧ (flitOk f = true → byteAt f 2 = 12 → byteAt f 0 = k.rxSeq →
          (16 ≤ byteAt f 3 → byteAt f 3 = leAt f 8 4 + 32 → ∃ t, exec (.flitReceive l f) s = .next t
            ∧ (t.link l).rxSeq = (k.rxSeq + 1) % 256 ∧ t.tether.inbox = s.tether.inbox ++ [(l, sub f 4 (byteAt f 3))])
          ∧ (byteAt f 3 < 16 ∨ byteAt f 3 ≠ leAt f 8 4 + 32 → k.badLength = false → ∃ t, exec (.flitReceive l f) s = .next t
            ∧ t.tether.lengthErr = satInc 65535 s.tether.lengthErr ∧ t.tether.inbox = s.tether.inbox
            ∧ (t.link l).naks = satInc 255 k.naks)))
  ∧ (∀ (s : State), s.service = true → s.tether.joined = true →
      (canopyTick s % 16 ≠ 0 → exec .heartbeatDue s = .next s)
      ∧ (canopyTick s % 16 = 0 → ∃ b, b.length = 7 ∧ byteAt b 0 = 3
        ∧ (s.tether.active ≠ 1 → exec .heartbeatDue s = .next (sendMsg s (s.idOf s.tether.manager) 6 b))
        ∧ (s.tether.active = 1 → exec .heartbeatDue s = .next (s.peersJoined.foldl (fun s d => sendMsg s d 6 b) s)))
      ∧ (canopyTick s % 1024 ≠ 0 ∨ s.tether.active ≠ 1 → exec .tickSyncDue s = .next s)
      ∧ (canopyTick s % 1024 = 0 → s.tether.active = 1 →
        let ring := if s.tether.peers.all (s.tether.canopy < ·) then s.tether.ring.map (·.num) else []
        exec .tickSyncDue s = .next
          ((s.peersJoined ++ ring).foldl (fun s d => sendMsg s d 4 (leBytes 6 (canopyTick s) ++ zeros 2)) s))
      ∧ (∀ d, s.memberOf (s.idOf d) = none ∨ d = s.tether.member ∨ s.tether.active ≠ 1 →
        exec (.memberLostTimeout d) s = .next s)
      ∧ (∀ d x, s.memberOf (s.idOf d) = some x → x.joined = true → d ≠ s.tether.member →
        (s.tick.count < x.beat + 64 → exec (.memberLostTimeout d) s = .next s)
        ∧ (s.tether.active = 1 → s.tether.manager = s.tether.member → x.beat + 64 ≤ s.tick.count → x.lost = false →
          ∃ t y, exec (.memberLostTimeout d) s = .next t ∧ t.memberOf (s.idOf d) = some y ∧ y.lost = true ∧ y.joined = false
            ∧ s.idOf d ∈ t.tether.losing))
      ∧ (s.tick.count < s.tether.managerBeat + 48 ∨ s.tether.active = 1 → exec .managerLostTimeout s = .next s)
      ∧ (s.tether.active ≠ 1 → s.tether.active ≠ 3 → s.tick.count < s.tether.managerBeat + 64 →
        exec .managerLostTimeout s = .next s)
      ∧ (s.tether.active = 3 ∨ s.tether.active ≠ 1 ∧ s.tether.managerBeat + 64 ≤ s.tick.count →
        s.tether.managerBeat + 48 ≤ s.tick.count → exec .managerLostTimeout s =
        .next (markLost s (s.idOf s.tether.manager) s.tether.uplink)))

/-- Messages between members (R286, R287, R452, R457, R458, R460, R461, R464, R465, R468, R469), opened under a pair key with a
fresh CTR: a JOB enters under the next number; a RESULT gives a sent job its result; a CANCEL disposes at the next boundary; a
TICK within 100 ns sets the offset; a heartbeat is noted; a takeover is held; the manager's replica is kept, and dropped again; a
context is given, installed, erased once accepted, and stays where it is refused; what only a manager may send is otherwise
without effect.
Messages that are not for this device or not genuine (R452, R457), and discovery (R450, R451): one for another device goes on
unread, or between canopies sealed anew; one that no pair key opens or whose CTR is stale is an authentication failure; one whose
TYPE or SUB is another row's is not taken; a charter that does not list this device, or whose keys or signatures do not verify, is
refused on its link, and one in order is held and answered; a JOIN in order admits its member; an ADMIT joins this device.
Completes: tetherJob, tetherResult, ctxMoveTransfer, ctxMoveAccept, ctxMoveRefuse, tetherTick, tetherFence, healthCharter,
healthJoin, healthAdmit, healthBeat, healthTakeover, healthLost, healthKeyAdd, healthKeyDrop, healthDissolve, cancelConfirm,
cancelWithdraw.
Where the spec leaves a point open it rests on the model's choice in log entries 22, 23, 34, 35, 36, 53 and 56. -/
def Obligations.TetherMessages : Prop :=
  (∀ (s u : State) (m p : TMsg), s.service = true →
      let fromMgr := m.src = s.idOf s.tether.manager
      (Arrives s u m p 1 → 16 ≤ p.body.length → 1 ≤ byteAt p.body 15 → byteAt p.body 15 ≤ 8 →
        (let j := guestJob m.src p.body;
          (planOf (withGuest u j.inst (leAt p.body 6 2)) j none false).useCtx = false
          ∧ guestWaits (withGuest u j.inst (leAt p.body 6 2)) j = false) →
        ∃ t y, exec (.tetherJob m) s = .next t ∧ t.work.nextJob = s.work.nextJob + 2 ∧ y ∈ t.work.jobs
          ∧ y.id = s.work.nextJob + 1 ∧ y.origin = some (m.src, leAt p.body 0 4) ∧ t.hostMem = s.hostMem)
      ∧ (∀ id j, Arrives s u m p 2 → 12 ≤ p.body.length → leAt p.body 0 4 = id → s.job? id = some j → j.member.isSome = true →
        j.sent = true → j.result = none → j.endedAt = none → ∃ t y, exec (.tetherResult m) s = .next t ∧ t.job? id = some y
          ∧ y.result = some ⟨leAt p.body 4 2, byteAt p.body 6, leAt p.body 8 4, p.body.drop 12, []⟩
          ∧ y.commitTick = some s.tick.count ∧ t.hostMem = s.hostMem ∧ t.store = s.store)
      ∧ (Arrives s u m p 2 → 12 ≤ p.body.length → s.job? (leAt p.body 0 4) = none → exec (.tetherResult m) s = .next u)
      ∧ (∀ c ∈ ([(.cancelConfirm, 0), (.cancelWithdraw, 1)] : List ((TMsg → Instr) × Nat)), ∀ id, Arrives s u m p 7 →
        p.body = leBytes 2 1 ++ zeros 2 ++ leBytes 4 id ++ leBytes 1 c.2 ++ zeros 3 → id < 2 ^ 32 →
        (∀ j, s.work.jobs.find? (fun j => j.origin == some (m.src, id)) = some j →
          exec (c.1 m) s = .next { u with adm.aborts := u.adm.aborts ++ [.disposition j.id (c.2 == 0)] })
        ∧ (s.work.jobs.find? (fun j => j.origin == some (m.src, id)) = none →
          s.tether.passed.find? (fun x => x.1 == m.src && x.2.1 == id) = none →
          exec (c.1 m) s = .next { u with
            tether.held := u.tether.held.filter fun h => !(h.1 == m.src && leAt h.2 0 4 == id && c.2 == 1) }))
      ∧ (∀ e : Int, Arrives s u m p 4 → 8 ≤ p.body.length →
        (fromMgr → -100 ≤ e → e ≤ 100 → exec (.tetherTick m e) s = .next { u with
          tether.syncs := satInc 65535 s.tether.syncs, tether.syncErr := e,
          tether.off := (leAt p.body 0 6 + 2 ^ 48 - tickCount s) % 2 ^ 48 })
        ∧ (¬fromMgr → m.src / 16 = s.tether.canopy ∨ s.tether.active ≠ 1 → exec (.tetherTick m e) s = .next u))
      ∧ (∀ x, Arrives s u m p 5 → s.memberOf m.src = some x → x.lost = false → x.num ≠ s.tether.manager →
        x.num ≠ s.tether.member → ∃ t, exec (.tetherFence m) s = .next t
        ∧ m.src ∈ t.tether.losing ∧ t.work = s.work ∧ t.hostMem = s.hostMem)
      ∧ (Arrives s u m p 6 →
        (isSub p 3 = true → (∀ x, s.memberOf m.src = some x → ∃ t y, exec (.healthBeat m) s = .next t
            ∧ t.memberOf m.src = some y ∧ y.beat = s.tick.count ∧ y.free = leAt p.body 5 2 ∧ t.work = s.work)
          ∧ (fromMgr → s.tether.takeover = false → ∃ t, exec (.healthBeat m) s = .next t
            ∧ t.tether.managerBeat = s.tick.count ∧ t.work = s.work ∧ t.store = s.store))
        ∧ (isSub p 4 = true → s.tether.managerBeat ≠ s.tick.count →
          (∀ y, s.memberOf (s.idOf s.tether.manager) = some y → y.lost = false) →
          ∃ t, exec (.healthTakeover m) s = .next t ∧ t.tether.takeover = true ∧ t.tether.manager = s.tether.manager)
        ∧ (isSub p 4 = true → s.tether.managerBeat = s.tick.count →
          ∃ t, exec (.healthTakeover m) s = .next t ∧ t.tether = u.tether ∧ t.work = s.work)
        ∧ (isSub p 5 = true → ¬fromMgr → exec (.healthLost m) s = .next u)
        ∧ (isSub p 5 = true → fromMgr → byteAt p.body 1 = s.selfId → exec (.healthLost m) s = .next (orphan u))
        ∧ (∀ y, isSub p 5 = true → fromMgr → byteAt p.body 1 ≠ s.selfId → s.memberOf (byteAt p.body 1) = some y → y.lost = false →
          y.num ≠ s.tether.member → y.num ≠ s.tether.manager → ∃ t, exec (.healthLost m) s = .next t
            ∧ byteAt p.body 1 ∈ t.tether.losing ∧ t.work = s.work)
        ∧ (isSub p 6 = true → 25 ≤ p.body.length →
          (fromMgr → s.tether.mode = 0 → ∃ t, exec (.healthKeyAdd m) s = .next t
            ∧ replicaOf m.src p.body ∈ t.store.keys ∧ (∀ k ∈ s.store.keys, k.index < 131072 → k ∈ t.store.keys))
          ∧ (¬fromMgr ∨ s.tether.mode ≠ 0 → exec (.healthKeyAdd m) s = .next u))
        ∧ (isSub p 7 = true → 7 ≤ p.body.length →
          (fromMgr → s.tether.active ≠ 1 → ∃ t, exec (.healthKeyDrop m) s = .next t ∧ t.work = s.work ∧ t.hostMem = s.hostMem
            ∧ (keyInUse u (leAt p.body 1 4 % 2 ^ 24 + 131072) = false →
              ∀ k ∈ t.store.keys, k.index ≠ leAt p.body 1 4 % 2 ^ 24 + 131072))
          ∧ (¬fromMgr → s.tether.active ≠ 1 → exec (.healthKeyDrop m) s = .next u)
          ∧ (s.tether.active = 1 → exec (.healthKeyDrop m) s =
            .next (answered u m.src fun j => (jobKey u j).handle == leAt p.body 1 4)))
        ∧ (isSub p 8 = true → (fromMgr → s.tether.takeover = false → ∃ t, exec (.healthDissolve m) s = .next t ∧ Left t)
          ∧ (¬fromMgr ∨ s.tether.takeover = true → exec (.healthDissolve m) s = .next u)))
      ∧ (Arrives s u m p 3 → 12 ≤ p.body.length →
        let h := leAt p.body 4 4
        (byteAt p.body 0 = 0 → p.body.length < 268 → remoteHolder s h = none →
          (ctxAt s h = none → exec (.ctxMoveTransfer m) s = .next (sendMsg u m.src 3 (moveBody 2 h (leAt p.body 8 4))))
          ∧ (∀ c, ctxAt s h = some c → c.moving = false → (∀ j ∈ s.work.jobs, (allSlots h).any j.holds.contains = false) →
            exec (.ctxMoveTransfer m) s = .next (sendMsg (u.updCtx h fun c => { c with moving := true, dest := m.src }) m.src 3
              (moveBody 0 h (ctxOwnerWord c) ++ ctxBytes c)))
          ∧ (∀ c, ctxAt s h = some c → c.moving = true →
            exec (.ctxMoveTransfer m) s = .next (sendMsg u m.src 3 (moveBody 2 h (leAt p.body 8 4)))))
        ∧ (byteAt p.body 0 = 0 → p.body.length = 268 → s.store.ctxs.length < 262144 →
          bit (leAt p.body 8 4) 31 = true ∨ (ctxOfBody p.body).isHome s = false ∧ (∀ a ∈ s.tether.abroad, a.1 ≠ h) →
          ∃ t c, exec (.ctxMoveTransfer m) s = .next t ∧ ctxAt t h = some c ∧ c.moving = false)
        ∧ (byteAt p.body 0 = 0 → p.body.length = 268 → 262144 ≤ s.store.ctxs.length →
          ∃ t, exec (.ctxMoveTransfer m) s = .next t ∧ t.store = s.store)
        ∧ (byteAt p.body 0 = 1 → ∀ c, ctxAt s h = some c → c.moving = true → c.dest = m.src →
          ∃ t, exec (.ctxMoveAccept m) s = .next t ∧ ctxAt t h = none)
        ∧ (byteAt p.body 0 = 1 → (ctxAt s h = none ∧ (∀ a ∈ s.tether.moves, a.1 ≠ h)
            ∨ ∃ c, ctxAt s h = some c ∧ (c.moving = false ∨ c.dest ≠ m.src)) → exec (.ctxMoveAccept m) s = .next u)
        ∧ (byteAt p.body 0 = 2 → ∀ c, ctxAt s h = some c → c.moving = true → c.dest = m.src →
          ∃ t d, exec (.ctxMoveRefuse m) s = .next t ∧ ctxAt t h = some d ∧ d = { c with moving := false })))
  ∧ (∀ (s : State) (m : TMsg), ∀ r ∈ (
      [(.tetherJob, 1, none), (.tetherResult, 2, none), (.ctxMoveTransfer, 3, none), (.ctxMoveAccept, 3, none),
      (.ctxMoveRefuse, 3, none), (fun m => .tetherTick m 0, 4, none), (.tetherFence, 5, none), (.healthBeat, 6, some 3),
      (.healthTakeover, 6, some 4), (.healthLost, 6, some 5), (.healthKeyAdd, 6, some 6), (.healthKeyDrop, 6, some 7),
      (.healthDissolve, 6, some 8), (.cancelConfirm, 7, none), (.cancelWithdraw, 7, none)] :
      List ((TMsg → Instr) × Nat × Option Nat)),
      (tetherUp s m.link = false ∨ s.tether.joined = false → exec (r.1 m) s = .next s)
      ∧ (tetherUp s m.link = true → s.tether.joined = true → m.dst ≠ s.selfId →
        (crosses s m = false → exec (r.1 m) s = .next { s with
          tether.out := s.tether.out ++ [⟨m.src, m.dst, m.ctr, r.2.1, true, m.body⟩] })
        ∧ (crosses s m = true → (∀ d b, unsealed s m r.2.1 = some (d, b) → d.2.ctr ≤ m.ctr →
            exec (r.1 m) s = .next (sendAs (noteCtr s d.1 m.ctr) m.src m.dst r.2.1 b))
          ∧ (unsealed s m r.2.1 = none → exec (r.1 m) s = .next (authFail s m))))
      ∧ (tetherUp s m.link = true → s.tether.joined = true → m.dst = s.selfId →
        (unsealed s m r.2.1 = none → exec (r.1 m) s = .next (if knownSender s m then authFail s m else s))
        ∧ (∀ d b, unsealed s m r.2.1 = some (d, b) → m.ctr < d.2.ctr → exec (r.1 m) s = .next (authFail s m))
        ∧ (∀ d b, unsealed s m r.2.1 = some (d, b) → d.2.ctr ≤ m.ctr → (∃ k, r.2.2 = some k ∧ isSub { m with body := b } k = false) →
          exec (r.1 m) s = .next s)))
  ∧ (∀ (s : State) (m : TMsg), tetherUp s m.link = true →
      (isSub m 0 = true → (s.link m.link).state = .discovery →
        let b := sub m.body 1 (leAt m.body 17 4)
        let good (e : ChMember) : Prop := m.ok = true ∧ charterFail s b = none ∧ e.role = s.pins.role
          ∧ ∃ x, offerer m b = some x ∧ sha3 (sub m.body (1 + b.length) 2689) = x.digest
            ∧ (e.role = 3 ∨ m.link = 0 ∨ m.link = 1 ∧ x.role = 3)
        (s.pins.role = 1 → s.tether.charter = none → ∀ g, exec (.healthCharter (m, g)) s = .next s)
        ∧ (s.pins.role ≠ 1 → s.tether.charter = none →
          (ownEntry s b = none → exec (.healthCharter (m, false)) s = .next (refuseLink s m))
          ∧ (∀ e, ownEntry s b = some e → ¬good e → exec (.healthCharter (m, false)) s = .next (refuseLink s m))
          ∧ (s.lcs = .deployed → chSigned b = true →
            ∃ t, exec (.healthCharter (m, true)) s = .next t ∧ t.tether.charter = none ∧ t.tether.member = s.tether.member)
          ∧ (∀ e, ownEntry s b = some e → good e → ∃ t, exec (.healthCharter (m, false)) s = .next t ∧ t.tether.charter = some b
            ∧ t.tether.member = e.num ∧ t.tether.out.length = s.tether.out.length + 1 ∧ t.work = s.work))
        ∧ (∀ own, s.tether.charter = some own → chCanopy b ≠ chCanopy own → m.link = 4 ∨ m.link = 5 → ∀ g,
          let ok := m.ok = true ∧ sha3 (sub m.body (1 + b.length) 2689) = digestOf own m.src 4
          (¬ok → exec (.healthCharter (m, g)) s = .next (refuseLink s m))
          ∧ (ok → ∃ t x, exec (.healthCharter (m, g)) s = .next t ∧ x ∈ t.tether.ring ∧ x.num = m.src ∧ x.joined = true
            ∧ t.tether.out.length = s.tether.out.length + 1)))
      ∧ (isSub m 1 = true → s.tether.joined = true →
        (m.dst ≠ s.selfId → exec (.healthJoin m) s = .next { s with
          tether.out := s.tether.out ++ [⟨m.src, m.dst, m.ctr, 6, false, m.body⟩] })
        ∧ (m.dst = s.selfId → s.tether.active ≠ 1 → exec (.healthJoin m) s = .next s)
        ∧ (m.dst = s.selfId → s.tether.active = 1 → ∀ b, s.tether.charter = some b → (s.link m.link).offer ≠ [] →
          let ok := m.ok = true ∧ sha3 (sub m.body (1 + ctLen 0x01 3 + 56) 2689) = digestOf b m.src m.link
          (¬ok → exec (.healthJoin m) s = .next (refuseLink s m))
          ∧ (∀ x, ok → s.memberOf m.src = some x →
            ∃ t y, exec (.healthJoin m) s = .next t ∧ t.memberOf m.src = some y ∧ y.joined = true ∧ y.lost = false)
          ∧ (ok → s.memberOf m.src = none → ∃ t x, exec (.healthJoin m) s = .next t ∧ x ∈ t.tether.ring ∧ x.num = m.src
            ∧ x.joined = true ∧ (m.link < s.tether.links.length → (t.link m.link).state = .paired))))
      ∧ (m.dst = s.selfId → m.src = s.idOf s.tether.manager → s.tether.charter.isSome = true →
        (openFrom s m 6 (m.src, peerEntry s m.src) = none → exec (.healthAdmit m) s = .next (authFail s m))
        ∧ (∀ d b, openFrom s m 6 (m.src, peerEntry s m.src) = some (d, b) →
          (isSub { m with body := b } 2 = false → exec (.healthAdmit m) s = .next s)
          ∧ (isSub { m with body := b } 2 = true → m.src / 16 = s.tether.canopy → m.ctr < (peerEntry s m.src).ctr →
            exec (.healthAdmit m) s = .next (authFail s m))
          ∧ (isSub { m with body := b } 2 = true → m.src / 16 = s.tether.canopy → (peerEntry s m.src).ctr ≤ m.ctr →
            ∃ t, exec (.healthAdmit m) s = .next t ∧ t.tether.joined = true ∧ t.work = s.work
            ∧ (s.tether.joined = false → t.tether.managerBeat = s.tick.count
              ∧ t.tether.off = (leAt b 1 6 + 2 ^ 48 - tickCount s) % 2 ^ 48)))))
end

