-- ==== Sys2Proof/Laws/Memory.lean ====
section
/-! SUPPORT. Laws of host memory: a read after a write, and that every operation keeps the canonical form. -/

namespace Sys2Proof.Machine

theorem Mem.read_write_same (m : List Host.Cell) (x : Nat) (v : Byte) (h : Mem.wf m) :
    Mem.read (Mem.write m x v) x = v := by
  induction m with
  | nil => unfold Mem.write; split <;> simp_all [Mem.read]
  | cons c m ih =>
    obtain ⟨a, b⟩ := c
    obtain ⟨hp, hb⟩ := h
    rw [List.pairwise_cons] at hp
    have hw : Mem.wf m := ⟨hp.2, fun y hy => hb y (List.mem_cons_of_mem _ hy)⟩
    have absent : ∀ n : List Host.Cell, (∀ y ∈ n, x < y.1) → Mem.read n x = Mem.blank := by
      intro n hn
      induction n with
      | nil => rfl
      | cons d n ihn =>
        obtain ⟨p, q⟩ := d
        have := hn (p, q) (List.mem_cons_self ..)
        have hne : p ≠ x := by simp only at this; omega
        simp only [Mem.read, hne, if_false]
        exact ihn fun y hy => hn y (List.mem_cons_of_mem _ hy)
    unfold Mem.write
    split
    · split
      · rename_i h1 h2
        rw [h2]
        apply absent
        intro y hy
        rcases List.mem_cons.1 hy with rfl | hy
        · exact h1
        · exact Nat.lt_trans h1 (hp.1 y hy)
      · simp [Mem.read]
    · split
      · rename_i h1 h2
        subst h2
        split
        · rename_i h3; rw [h3]; exact absent m hp.1
        · simp [Mem.read]
      · rename_i h1 h2
        have : a ≠ x := fun e => h2 e.symm
        simp only [Mem.read, this, if_false]
        exact ih hw

theorem Mem.read_write_other (m : List Host.Cell) (x y : Nat) (v : Byte) (h : y ≠ x) (hw : Mem.wf m) :
    Mem.read (Mem.write m x v) y = Mem.read m y := by
  induction m with
  | nil => unfold Mem.write; split <;> simp [Mem.read, h.symm]
  | cons c m ih =>
    obtain ⟨a, b⟩ := c
    obtain ⟨hp, hb⟩ := hw
    rw [List.pairwise_cons] at hp
    have hw : Mem.wf m := ⟨hp.2, fun y hy => hb y (List.mem_cons_of_mem _ hy)⟩
    unfold Mem.write
    split
    · split
      · rfl
      · simp [Mem.read, h.symm]
    · split
      · rename_i h1 h2
        subst h2
        split <;> simp [Mem.read, h.symm]
      · simp only [Mem.read]
        split
        · rfl
        · exact ih hw

/-- A write lists no address that was not listed, but the one it writes. -/
theorem Mem.mem_write {m : List Host.Cell} {x : Nat} {v : Byte} {c : Host.Cell} (h : c ∈ Mem.write m x v) :
    c = (x, v) ∧ v ≠ Mem.blank ∨ c ∈ m := by
  induction m with
  | nil => unfold Mem.write at h; split at h <;> simp_all
  | cons d m ih =>
    obtain ⟨a, b⟩ := d
    unfold Mem.write at h
    split at h
    · split at h
      · exact .inr h
      · rcases List.mem_cons.1 h with rfl | h
        · exact .inl ⟨rfl, by assumption⟩
        · exact .inr h
    · split at h
      · split at h
        · exact .inr (List.mem_cons_of_mem _ h)
        · rcases List.mem_cons.1 h with rfl | h
          · exact .inl ⟨rfl, by assumption⟩
          · exact .inr (List.mem_cons_of_mem _ h)
      · rcases List.mem_cons.1 h with rfl | h
        · exact .inr (List.mem_cons_self ..)
        · rcases ih h with h | h
          · exact .inl h
          · exact .inr (List.mem_cons_of_mem _ h)

theorem Mem.write_wf (m : List Host.Cell) (x : Nat) (v : Byte) (h : Mem.wf m) : Mem.wf (Mem.write m x v) := by
  induction m with
  | nil => unfold Mem.write; split <;> simp_all [Mem.wf]
  | cons c m ih =>
    obtain ⟨a, b⟩ := c
    have hp := List.pairwise_cons.1 h.1
    have hm : Mem.wf m := ⟨hp.2, fun y hy => h.2 y (List.mem_cons_of_mem _ hy)⟩
    have hab : b ≠ Mem.blank := h.2 (a, b) (List.mem_cons_self ..)
    unfold Mem.write
    split
    · rename_i h1
      split
      · exact h
      · rename_i h2
        refine ⟨List.pairwise_cons.2 ⟨?_, h.1⟩, ?_⟩
        · intro y hy
          rcases List.mem_cons.1 hy with rfl | hy
          · exact h1
          · exact Nat.lt_trans h1 (hp.1 y hy)
        · intro y hy
          rcases List.mem_cons.1 hy with rfl | hy
          · exact h2
          · exact h.2 y hy
    · split
      · rename_i h1 h2
        subst h2
        split
        · exact hm
        · rename_i h3
          refine ⟨List.pairwise_cons.2 ⟨hp.1, hp.2⟩, ?_⟩
          intro y hy
          rcases List.mem_cons.1 hy with rfl | hy
          · exact h3
          · exact hm.2 y hy
      · rename_i h1 h2
        have hi := ih hm
        refine ⟨List.pairwise_cons.2 ⟨?_, hi.1⟩, ?_⟩
        · intro y hy
          rcases Mem.mem_write hy with ⟨rfl, -⟩ | hy
          · simp only; omega
          · exact hp.1 y hy
        · intro y hy
          rcases List.mem_cons.1 hy with rfl | hy
          · exact hab
          · exact hi.2 y hy

theorem Mem.writeBytes_wf (m : List Host.Cell) (a : Nat) (b : Bytes) (h : Mem.wf m) : Mem.wf (Mem.writeBytes m a b) := by
  induction b generalizing m a with
  | nil => exact h
  | cons c b ih => exact ih _ _ (Mem.write_wf m a c h)

theorem Mem.read_writeBytes_other (m : List Host.Cell) (a : Nat) (b : Bytes) (x : Nat) (hw : Mem.wf m)
    (h : x < a ∨ a + b.length ≤ x) : Mem.read (Mem.writeBytes m a b) x = Mem.read m x := by
  induction b generalizing m a with
  | nil => rfl
  | cons c b ih =>
    simp only [List.length_cons] at h
    rw [Mem.writeBytes, ih _ _ (Mem.write_wf m a c hw) (by omega), Mem.read_write_other m a x c (by omega) hw]

theorem scatterBytes_wf (m : List Host.Cell) (ps : List (Nat × Nat)) (b : Bytes) (h : Mem.wf m) :
    Mem.wf (scatterBytes m ps b) := by
  induction ps generalizing m b with
  | nil => exact h
  | cons p ps ih => exact ih _ _ (Mem.writeBytes_wf _ _ _ h)

end Sys2Proof.Machine
end

