-- ==== Sys2Proof/Laws/State.lean ====
section
/-! SUPPORT. Laws of the state's named updates: what each leaves alone, and what a lookup finds after it. -/

namespace Sys2Proof.Machine

/-! ### Lists -/

/-- A search after a change that keeps what is searched for. -/
theorem find?_updWhere {α : Type} (l : List α) (p r : α → Bool) (f : α → α) (h : ∀ x, r (f x) = r x) :
    (updWhere p f l).find? r = (l.find? r).map fun x => if p x then f x else x := by
  induction l with
  | nil => rfl
  | cons a l ih =>
    simp only [updWhere, List.map_cons, List.find?_cons] at *
    by_cases hp : p a <;> by_cases hr : r a <;> simp_all

/-- What a search finds satisfies it. -/
theorem find?_key {α : Type} {l : List α} {r : α → Bool} {x : α} (h : l.find? r = some x) : r x = true :=
  List.find?_some h

theorem updWhere_length {α : Type} (l : List α) (p : α → Bool) (f : α → α) : (updWhere p f l).length = l.length := by
  simp [updWhere]

/-! ### Lookups after an update -/

theorem State.inst?_id {s : State} {i : Nat} {x : Inst} (h : s.inst? i = some x) : x.id = i := by
  simpa using find?_key h

theorem State.job?_id {s : State} {j : Nat} {x : Job} (h : s.job? j = some x) : x.id = j := by
  simpa using find?_key h

theorem State.run?_job {s : State} {j : Nat} {r : Run} (h : s.run? j = some r) : r.job = j := by
  simpa using find?_key h

theorem State.inst?_updInst (s : State) (i : Nat) (f : Inst → Inst) (h : ∀ x, (f x).id = x.id) :
    (s.updInst i f).inst? i = (s.inst? i).map f := by
  simp only [State.inst?, State.updInst]
  rw [find?_updWhere _ _ _ _ fun x => by simp only [h]]
  cases hx : s.insts.find? (·.id == i) with
  | none => rfl
  | some x => simp [show x.id = i by simpa using find?_key hx]

theorem State.inst?_updInst_ne (s : State) (i k : Nat) (f : Inst → Inst) (h : ∀ x, (f x).id = x.id) (hk : k ≠ i) :
    (s.updInst i f).inst? k = s.inst? k := by
  simp only [State.inst?, State.updInst]
  rw [find?_updWhere _ _ _ _ fun x => by simp only [h]]
  cases hx : s.insts.find? (·.id == k) with
  | none => rfl
  | some x => simp [show x.id = k by simpa using find?_key hx, hk]

theorem State.sq?_updSq (s : State) (i q : Nat) (f : Sq → Sq) (h : ∀ x, (f x).inst = x.inst ∧ (f x).num = x.num) :
    (s.updSq i q f).sq? i q = (s.sq? i q).map f := by
  simp only [State.sq?, State.updSq]
  rw [find?_updWhere _ _ _ _ fun x => by simp only [h]]
  cases hx : s.work.sqs.find? (fun x => x.inst == i && x.num == q) with
  | none => rfl
  | some x => have hk := find?_key hx; simp_all

theorem State.sq?_updSq_ne (s : State) (i q i' q' : Nat) (f : Sq → Sq) (h : ∀ x, (f x).inst = x.inst ∧ (f x).num = x.num)
    (hk : i' ≠ i ∨ q' ≠ q) : (s.updSq i q f).sq? i' q' = s.sq? i' q' := by
  simp only [State.sq?, State.updSq]
  rw [find?_updWhere _ _ _ _ fun x => by simp only [h]]
  cases hx : s.work.sqs.find? (fun x => x.inst == i' && x.num == q') with
  | none => rfl
  | some x =>
    have hx' := find?_key hx
    simp only [Bool.and_eq_true, beq_iff_eq] at hx'
    rcases hk with hk | hk <;> simp [hx'.1, hx'.2, hk]

theorem State.cq?_updCq (s : State) (i q : Nat) (f : Cq → Cq) (h : ∀ x, (f x).inst = x.inst ∧ (f x).num = x.num) :
    (s.updCq i q f).cq? i q = (s.cq? i q).map f := by
  simp only [State.cq?, State.updCq]
  rw [find?_updWhere _ _ _ _ fun x => by simp only [h]]
  cases hx : s.work.cqs.find? (fun x => x.inst == i && x.num == q) with
  | none => rfl
  | some x => have hk := find?_key hx; simp_all

theorem State.cq?_updCq_ne (s : State) (i q i' q' : Nat) (f : Cq → Cq) (h : ∀ x, (f x).inst = x.inst ∧ (f x).num = x.num)
    (hk : i' ≠ i ∨ q' ≠ q) : (s.updCq i q f).cq? i' q' = s.cq? i' q' := by
  simp only [State.cq?, State.updCq]
  rw [find?_updWhere _ _ _ _ fun x => by simp only [h]]
  cases hx : s.work.cqs.find? (fun x => x.inst == i' && x.num == q') with
  | none => rfl
  | some x =>
    have hx' := find?_key hx
    simp only [Bool.and_eq_true, beq_iff_eq] at hx'
    rcases hk with hk | hk <;> simp [hx'.1, hx'.2, hk]

theorem State.job?_updJob (s : State) (j : Nat) (f : Job → Job) (h : ∀ x, (f x).id = x.id) :
    (s.updJob j f).job? j = (s.job? j).map f := by
  simp only [State.job?, State.updJob]
  rw [find?_updWhere _ _ _ _ fun x => by simp only [h]]
  cases hx : s.work.jobs.find? (·.id == j) with
  | none => rfl
  | some x => simp [show x.id = j by simpa using find?_key hx]

theorem State.job?_updJob_ne (s : State) (j k : Nat) (f : Job → Job) (h : ∀ x, (f x).id = x.id) (hk : k ≠ j) :
    (s.updJob j f).job? k = s.job? k := by
  simp only [State.job?, State.updJob]
  rw [find?_updWhere _ _ _ _ fun x => by simp only [h]]
  cases hx : s.work.jobs.find? (·.id == k) with
  | none => rfl
  | some x => simp [show x.id = k by simpa using find?_key hx, hk]

theorem State.run?_updRun (s : State) (j : Nat) (f : Run → Run) (h : ∀ x, (f x).job = x.job) :
    (s.updRun j f).run? j = (s.run? j).map f := by
  simp only [State.run?, State.updRun]
  rw [find?_updWhere _ _ _ _ fun x => by simp only [h]]
  cases hx : s.exec.runs.find? (·.job == j) with
  | none => rfl
  | some x => simp [show x.job = j by simpa using find?_key hx]

@[simp] theorem State.run?_putRun (s : State) (r : Run) : (s.putRun r).run? r.job = some r := by
  simp [State.run?, State.putRun]

@[simp] theorem State.seq_putSeq (s : State) (x : Sequencer) : (s.putSeq x).seq x.id = x := by
  simp [State.seq, State.putSeq]

@[simp] theorem State.msixOf_putMsix (s : State) (m : Msix) : (s.putMsix m).msixOf m.inst = m := by
  simp [State.msixOf, State.putMsix]

theorem State.port_updPort (s : State) (p : Nat) (f : Port → Port) (h : p < s.ports.length) :
    (s.updPort p f).port p = f (s.port p) := by
  simp [State.port, State.updPort, List.getD_eq_getElem?_getD, h]

theorem State.port_updPort_ne (s : State) (p k : Nat) (f : Port → Port) (h : k ≠ p) : (s.updPort p f).port k = s.port k := by
  simp [State.port, State.updPort, List.getD_eq_getElem?_getD, Ne.symm h]

/-! ### What each update leaves alone -/

/-- `State.updPort` changes `ports` alone. -/
@[simp] theorem State.updPort_frame (s : State) (p : Nat) (f : Port → Port) :
    (s.updPort p f).pending = s.pending ∧ (s.updPort p f).tick = s.tick ∧ (s.updPort p f).work = s.work ∧
    (s.updPort p f).adm = s.adm ∧ (s.updPort p f).insts = s.insts ∧ (s.updPort p f).tlb = s.tlb ∧
    (s.updPort p f).msix = s.msix ∧ (s.updPort p f).busMaster = s.busMaster ∧ (s.updPort p f).writes = s.writes ∧
    (s.updPort p f).store = s.store ∧ (s.updPort p f).shelf = s.shelf ∧ (s.updPort p f).grafts = s.grafts ∧
    (s.updPort p f).hwd = s.hwd ∧ (s.updPort p f).exec = s.exec ∧ (s.updPort p f).entropy = s.entropy ∧
    (s.updPort p f).stw = s.stw ∧ (s.updPort p f).power = s.power ∧ (s.updPort p f).pins = s.pins ∧
    (s.updPort p f).tether = s.tether ∧ (s.updPort p f).groves = s.groves ∧ (s.updPort p f).engines = s.engines ∧
    (s.updPort p f).masks = s.masks ∧ (s.updPort p f).faults = s.faults ∧ (s.updPort p f).recd = s.recd ∧
    (s.updPort p f).htime = s.htime ∧ (s.updPort p f).life = s.life ∧ (s.updPort p f).vault = s.vault ∧
    (s.updPort p f).flashSize = s.flashSize ∧ (s.updPort p f).stopped = s.stopped ∧ (s.updPort p f).pllGap = s.pllGap ∧
    (s.updPort p f).hostMem = s.hostMem ∧ (s.updPort p f).hostDeaf = s.hostDeaf ∧ (s.updPort p f).freeCtr = s.freeCtr := by
  repeat' constructor

/-- `State.updInst` changes `insts` alone. -/
@[simp] theorem State.updInst_frame (s : State) (i : Nat) (f : Inst → Inst) :
    (s.updInst i f).pending = s.pending ∧ (s.updInst i f).tick = s.tick ∧ (s.updInst i f).work = s.work ∧
    (s.updInst i f).adm = s.adm ∧ (s.updInst i f).tlb = s.tlb ∧ (s.updInst i f).ports = s.ports ∧
    (s.updInst i f).msix = s.msix ∧ (s.updInst i f).busMaster = s.busMaster ∧ (s.updInst i f).writes = s.writes ∧
    (s.updInst i f).store = s.store ∧ (s.updInst i f).shelf = s.shelf ∧ (s.updInst i f).grafts = s.grafts ∧
    (s.updInst i f).hwd = s.hwd ∧ (s.updInst i f).exec = s.exec ∧ (s.updInst i f).entropy = s.entropy ∧
    (s.updInst i f).stw = s.stw ∧ (s.updInst i f).power = s.power ∧ (s.updInst i f).pins = s.pins ∧
    (s.updInst i f).tether = s.tether ∧ (s.updInst i f).groves = s.groves ∧ (s.updInst i f).engines = s.engines ∧
    (s.updInst i f).masks = s.masks ∧ (s.updInst i f).faults = s.faults ∧ (s.updInst i f).recd = s.recd ∧
    (s.updInst i f).htime = s.htime ∧ (s.updInst i f).life = s.life ∧ (s.updInst i f).vault = s.vault ∧
    (s.updInst i f).flashSize = s.flashSize ∧ (s.updInst i f).stopped = s.stopped ∧ (s.updInst i f).pllGap = s.pllGap ∧
    (s.updInst i f).hostMem = s.hostMem ∧ (s.updInst i f).hostDeaf = s.hostDeaf ∧ (s.updInst i f).freeCtr = s.freeCtr := by
  repeat' constructor

/-- `State.updSq` changes `work.sqs` alone. -/
@[simp] theorem State.updSq_frame (s : State) (i q : Nat) (f : Sq → Sq) :
    (s.updSq i q f).pending = s.pending ∧ (s.updSq i q f).tick = s.tick ∧ (s.updSq i q f).adm = s.adm ∧
    (s.updSq i q f).insts = s.insts ∧ (s.updSq i q f).tlb = s.tlb ∧ (s.updSq i q f).ports = s.ports ∧
    (s.updSq i q f).msix = s.msix ∧ (s.updSq i q f).busMaster = s.busMaster ∧ (s.updSq i q f).writes = s.writes ∧
    (s.updSq i q f).store = s.store ∧ (s.updSq i q f).shelf = s.shelf ∧ (s.updSq i q f).grafts = s.grafts ∧
    (s.updSq i q f).hwd = s.hwd ∧ (s.updSq i q f).exec = s.exec ∧ (s.updSq i q f).entropy = s.entropy ∧
    (s.updSq i q f).stw = s.stw ∧ (s.updSq i q f).power = s.power ∧ (s.updSq i q f).pins = s.pins ∧
    (s.updSq i q f).tether = s.tether ∧ (s.updSq i q f).groves = s.groves ∧ (s.updSq i q f).engines = s.engines ∧
    (s.updSq i q f).masks = s.masks ∧ (s.updSq i q f).faults = s.faults ∧ (s.updSq i q f).recd = s.recd ∧
    (s.updSq i q f).htime = s.htime ∧ (s.updSq i q f).life = s.life ∧ (s.updSq i q f).vault = s.vault ∧
    (s.updSq i q f).flashSize = s.flashSize ∧ (s.updSq i q f).stopped = s.stopped ∧ (s.updSq i q f).pllGap = s.pllGap ∧
    (s.updSq i q f).hostMem = s.hostMem ∧ (s.updSq i q f).hostDeaf = s.hostDeaf ∧ (s.updSq i q f).freeCtr = s.freeCtr ∧
    (s.updSq i q f).work.cqs = s.work.cqs ∧ (s.updSq i q f).work.jobs = s.work.jobs ∧
    (s.updSq i q f).work.unposted = s.work.unposted ∧ (s.updSq i q f).work.nextJob = s.work.nextJob ∧
    (s.updSq i q f).work.done = s.work.done ∧ (s.updSq i q f).work.grants = s.work.grants ∧
    (s.updSq i q f).work.lastSprint = s.work.lastSprint ∧ (s.updSq i q f).work.zeroising = s.work.zeroising ∧
    (s.updSq i q f).work.spec = s.work.spec ∧ (s.updSq i q f).work.perf = s.work.perf := by
  repeat' constructor

/-- `State.updCq` changes `work.cqs` alone. -/
@[simp] theorem State.updCq_frame (s : State) (i q : Nat) (f : Cq → Cq) :
    (s.updCq i q f).pending = s.pending ∧ (s.updCq i q f).tick = s.tick ∧ (s.updCq i q f).adm = s.adm ∧
    (s.updCq i q f).insts = s.insts ∧ (s.updCq i q f).tlb = s.tlb ∧ (s.updCq i q f).ports = s.ports ∧
    (s.updCq i q f).msix = s.msix ∧ (s.updCq i q f).busMaster = s.busMaster ∧ (s.updCq i q f).writes = s.writes ∧
    (s.updCq i q f).store = s.store ∧ (s.updCq i q f).shelf = s.shelf ∧ (s.updCq i q f).grafts = s.grafts ∧
    (s.updCq i q f).hwd = s.hwd ∧ (s.updCq i q f).exec = s.exec ∧ (s.updCq i q f).entropy = s.entropy ∧
    (s.updCq i q f).stw = s.stw ∧ (s.updCq i q f).power = s.power ∧ (s.updCq i q f).pins = s.pins ∧
    (s.updCq i q f).tether = s.tether ∧ (s.updCq i q f).groves = s.groves ∧ (s.updCq i q f).engines = s.engines ∧
    (s.updCq i q f).masks = s.masks ∧ (s.updCq i q f).faults = s.faults ∧ (s.updCq i q f).recd = s.recd ∧
    (s.updCq i q f).htime = s.htime ∧ (s.updCq i q f).life = s.life ∧ (s.updCq i q f).vault = s.vault ∧
    (s.updCq i q f).flashSize = s.flashSize ∧ (s.updCq i q f).stopped = s.stopped ∧ (s.updCq i q f).pllGap = s.pllGap ∧
    (s.updCq i q f).hostMem = s.hostMem ∧ (s.updCq i q f).hostDeaf = s.hostDeaf ∧ (s.updCq i q f).freeCtr = s.freeCtr ∧
    (s.updCq i q f).work.sqs = s.work.sqs ∧ (s.updCq i q f).work.jobs = s.work.jobs ∧
    (s.updCq i q f).work.unposted = s.work.unposted ∧ (s.updCq i q f).work.nextJob = s.work.nextJob ∧
    (s.updCq i q f).work.done = s.work.done ∧ (s.updCq i q f).work.grants = s.work.grants ∧
    (s.updCq i q f).work.lastSprint = s.work.lastSprint ∧ (s.updCq i q f).work.zeroising = s.work.zeroising ∧
    (s.updCq i q f).work.spec = s.work.spec ∧ (s.updCq i q f).work.perf = s.work.perf := by
  repeat' constructor

/-- `State.updJob` changes `work.jobs` alone. -/
@[simp] theorem State.updJob_frame (s : State) (j : Nat) (f : Job → Job) :
    (s.updJob j f).pending = s.pending ∧ (s.updJob j f).tick = s.tick ∧ (s.updJob j f).adm = s.adm ∧
    (s.updJob j f).insts = s.insts ∧ (s.updJob j f).tlb = s.tlb ∧ (s.updJob j f).ports = s.ports ∧
    (s.updJob j f).msix = s.msix ∧ (s.updJob j f).busMaster = s.busMaster ∧ (s.updJob j f).writes = s.writes ∧
    (s.updJob j f).store = s.store ∧ (s.updJob j f).shelf = s.shelf ∧ (s.updJob j f).grafts = s.grafts ∧
    (s.updJob j f).hwd = s.hwd ∧ (s.updJob j f).exec = s.exec ∧ (s.updJob j f).entropy = s.entropy ∧
    (s.updJob j f).stw = s.stw ∧ (s.updJob j f).power = s.power ∧ (s.updJob j f).pins = s.pins ∧
    (s.updJob j f).tether = s.tether ∧ (s.updJob j f).groves = s.groves ∧ (s.updJob j f).engines = s.engines ∧
    (s.updJob j f).masks = s.masks ∧ (s.updJob j f).faults = s.faults ∧ (s.updJob j f).recd = s.recd ∧
    (s.updJob j f).htime = s.htime ∧ (s.updJob j f).life = s.life ∧ (s.updJob j f).vault = s.vault ∧
    (s.updJob j f).flashSize = s.flashSize ∧ (s.updJob j f).stopped = s.stopped ∧ (s.updJob j f).pllGap = s.pllGap ∧
    (s.updJob j f).hostMem = s.hostMem ∧ (s.updJob j f).hostDeaf = s.hostDeaf ∧ (s.updJob j f).freeCtr = s.freeCtr ∧
    (s.updJob j f).work.sqs = s.work.sqs ∧ (s.updJob j f).work.cqs = s.work.cqs ∧
    (s.updJob j f).work.unposted = s.work.unposted ∧ (s.updJob j f).work.nextJob = s.work.nextJob ∧
    (s.updJob j f).work.done = s.work.done ∧ (s.updJob j f).work.grants = s.work.grants ∧
    (s.updJob j f).work.lastSprint = s.work.lastSprint ∧ (s.updJob j f).work.zeroising = s.work.zeroising ∧
    (s.updJob j f).work.spec = s.work.spec ∧ (s.updJob j f).work.perf = s.work.perf := by
  repeat' constructor

/-- `State.updRun` changes `exec.runs` alone. -/
@[simp] theorem State.updRun_frame (s : State) (j : Nat) (f : Run → Run) :
    (s.updRun j f).pending = s.pending ∧ (s.updRun j f).tick = s.tick ∧ (s.updRun j f).work = s.work ∧
    (s.updRun j f).adm = s.adm ∧ (s.updRun j f).insts = s.insts ∧ (s.updRun j f).tlb = s.tlb ∧
    (s.updRun j f).ports = s.ports ∧ (s.updRun j f).msix = s.msix ∧ (s.updRun j f).busMaster = s.busMaster ∧
    (s.updRun j f).writes = s.writes ∧ (s.updRun j f).store = s.store ∧ (s.updRun j f).shelf = s.shelf ∧
    (s.updRun j f).grafts = s.grafts ∧ (s.updRun j f).hwd = s.hwd ∧ (s.updRun j f).entropy = s.entropy ∧
    (s.updRun j f).stw = s.stw ∧ (s.updRun j f).power = s.power ∧ (s.updRun j f).pins = s.pins ∧
    (s.updRun j f).tether = s.tether ∧ (s.updRun j f).groves = s.groves ∧ (s.updRun j f).engines = s.engines ∧
    (s.updRun j f).masks = s.masks ∧ (s.updRun j f).faults = s.faults ∧ (s.updRun j f).recd = s.recd ∧
    (s.updRun j f).htime = s.htime ∧ (s.updRun j f).life = s.life ∧ (s.updRun j f).vault = s.vault ∧
    (s.updRun j f).flashSize = s.flashSize ∧ (s.updRun j f).stopped = s.stopped ∧ (s.updRun j f).pllGap = s.pllGap ∧
    (s.updRun j f).hostMem = s.hostMem ∧ (s.updRun j f).hostDeaf = s.hostDeaf ∧ (s.updRun j f).freeCtr = s.freeCtr ∧
    (s.updRun j f).exec.seqs = s.exec.seqs ∧ (s.updRun j f).exec.mxu = s.exec.mxu ∧
    (s.updRun j f).exec.mxuZero = s.exec.mxuZero ∧ (s.updRun j f).exec.mxuOrder = s.exec.mxuOrder := by
  repeat' constructor

/-- `State.putRun` changes `exec.runs` alone. -/
@[simp] theorem State.putRun_frame (s : State) (r : Run) :
    (s.putRun r).pending = s.pending ∧ (s.putRun r).tick = s.tick ∧ (s.putRun r).work = s.work ∧ (s.putRun r).adm = s.adm ∧
    (s.putRun r).insts = s.insts ∧ (s.putRun r).tlb = s.tlb ∧ (s.putRun r).ports = s.ports ∧ (s.putRun r).msix = s.msix ∧
    (s.putRun r).busMaster = s.busMaster ∧ (s.putRun r).writes = s.writes ∧ (s.putRun r).store = s.store ∧
    (s.putRun r).shelf = s.shelf ∧ (s.putRun r).grafts = s.grafts ∧ (s.putRun r).hwd = s.hwd ∧
    (s.putRun r).entropy = s.entropy ∧ (s.putRun r).stw = s.stw ∧ (s.putRun r).power = s.power ∧
    (s.putRun r).pins = s.pins ∧ (s.putRun r).tether = s.tether ∧ (s.putRun r).groves = s.groves ∧
    (s.putRun r).engines = s.engines ∧ (s.putRun r).masks = s.masks ∧ (s.putRun r).faults = s.faults ∧
    (s.putRun r).recd = s.recd ∧ (s.putRun r).htime = s.htime ∧ (s.putRun r).life = s.life ∧ (s.putRun r).vault = s.vault ∧
    (s.putRun r).flashSize = s.flashSize ∧ (s.putRun r).stopped = s.stopped ∧ (s.putRun r).pllGap = s.pllGap ∧
    (s.putRun r).hostMem = s.hostMem ∧ (s.putRun r).hostDeaf = s.hostDeaf ∧ (s.putRun r).freeCtr = s.freeCtr ∧
    (s.putRun r).exec.seqs = s.exec.seqs ∧ (s.putRun r).exec.mxu = s.exec.mxu ∧ (s.putRun r).exec.mxuZero = s.exec.mxuZero ∧
    (s.putRun r).exec.mxuOrder = s.exec.mxuOrder := by
  repeat' constructor

/-- `State.putSeq` changes `exec.seqs` alone. -/
@[simp] theorem State.putSeq_frame (s : State) (x : Sequencer) :
    (s.putSeq x).pending = s.pending ∧ (s.putSeq x).tick = s.tick ∧ (s.putSeq x).work = s.work ∧ (s.putSeq x).adm = s.adm ∧
    (s.putSeq x).insts = s.insts ∧ (s.putSeq x).tlb = s.tlb ∧ (s.putSeq x).ports = s.ports ∧ (s.putSeq x).msix = s.msix ∧
    (s.putSeq x).busMaster = s.busMaster ∧ (s.putSeq x).writes = s.writes ∧ (s.putSeq x).store = s.store ∧
    (s.putSeq x).shelf = s.shelf ∧ (s.putSeq x).grafts = s.grafts ∧ (s.putSeq x).hwd = s.hwd ∧
    (s.putSeq x).entropy = s.entropy ∧ (s.putSeq x).stw = s.stw ∧ (s.putSeq x).power = s.power ∧
    (s.putSeq x).pins = s.pins ∧ (s.putSeq x).tether = s.tether ∧ (s.putSeq x).groves = s.groves ∧
    (s.putSeq x).engines = s.engines ∧ (s.putSeq x).masks = s.masks ∧ (s.putSeq x).faults = s.faults ∧
    (s.putSeq x).recd = s.recd ∧ (s.putSeq x).htime = s.htime ∧ (s.putSeq x).life = s.life ∧ (s.putSeq x).vault = s.vault ∧
    (s.putSeq x).flashSize = s.flashSize ∧ (s.putSeq x).stopped = s.stopped ∧ (s.putSeq x).pllGap = s.pllGap ∧
    (s.putSeq x).hostMem = s.hostMem ∧ (s.putSeq x).hostDeaf = s.hostDeaf ∧ (s.putSeq x).freeCtr = s.freeCtr ∧
    (s.putSeq x).exec.runs = s.exec.runs ∧ (s.putSeq x).exec.mxu = s.exec.mxu ∧ (s.putSeq x).exec.mxuZero = s.exec.mxuZero ∧
    (s.putSeq x).exec.mxuOrder = s.exec.mxuOrder := by
  repeat' constructor

/-- `State.setMxus` changes `exec.mxu` alone. -/
@[simp] theorem State.setMxus_frame (s : State) (l : List MxuCmd) :
    (s.setMxus l).pending = s.pending ∧ (s.setMxus l).tick = s.tick ∧ (s.setMxus l).work = s.work ∧
    (s.setMxus l).adm = s.adm ∧ (s.setMxus l).insts = s.insts ∧ (s.setMxus l).tlb = s.tlb ∧ (s.setMxus l).ports = s.ports ∧
    (s.setMxus l).msix = s.msix ∧ (s.setMxus l).busMaster = s.busMaster ∧ (s.setMxus l).writes = s.writes ∧
    (s.setMxus l).store = s.store ∧ (s.setMxus l).shelf = s.shelf ∧ (s.setMxus l).grafts = s.grafts ∧
    (s.setMxus l).hwd = s.hwd ∧ (s.setMxus l).entropy = s.entropy ∧ (s.setMxus l).stw = s.stw ∧
    (s.setMxus l).power = s.power ∧ (s.setMxus l).pins = s.pins ∧ (s.setMxus l).tether = s.tether ∧
    (s.setMxus l).groves = s.groves ∧ (s.setMxus l).engines = s.engines ∧ (s.setMxus l).masks = s.masks ∧
    (s.setMxus l).faults = s.faults ∧ (s.setMxus l).recd = s.recd ∧ (s.setMxus l).htime = s.htime ∧
    (s.setMxus l).life = s.life ∧ (s.setMxus l).vault = s.vault ∧ (s.setMxus l).flashSize = s.flashSize ∧
    (s.setMxus l).stopped = s.stopped ∧ (s.setMxus l).pllGap = s.pllGap ∧ (s.setMxus l).hostMem = s.hostMem ∧
    (s.setMxus l).hostDeaf = s.hostDeaf ∧ (s.setMxus l).freeCtr = s.freeCtr ∧ (s.setMxus l).exec.runs = s.exec.runs ∧
    (s.setMxus l).exec.seqs = s.exec.seqs ∧ (s.setMxus l).exec.mxuZero = s.exec.mxuZero ∧
    (s.setMxus l).exec.mxuOrder = s.exec.mxuOrder := by
  repeat' constructor

/-- `State.updMxu` changes `exec.mxu` alone. -/
@[simp] theorem State.updMxu_frame (s : State) (j : Nat) (f : MxuCmd → MxuCmd) :
    (s.updMxu j f).pending = s.pending ∧ (s.updMxu j f).tick = s.tick ∧ (s.updMxu j f).work = s.work ∧
    (s.updMxu j f).adm = s.adm ∧ (s.updMxu j f).insts = s.insts ∧ (s.updMxu j f).tlb = s.tlb ∧
    (s.updMxu j f).ports = s.ports ∧ (s.updMxu j f).msix = s.msix ∧ (s.updMxu j f).busMaster = s.busMaster ∧
    (s.updMxu j f).writes = s.writes ∧ (s.updMxu j f).store = s.store ∧ (s.updMxu j f).shelf = s.shelf ∧
    (s.updMxu j f).grafts = s.grafts ∧ (s.updMxu j f).hwd = s.hwd ∧ (s.updMxu j f).entropy = s.entropy ∧
    (s.updMxu j f).stw = s.stw ∧ (s.updMxu j f).power = s.power ∧ (s.updMxu j f).pins = s.pins ∧
    (s.updMxu j f).tether = s.tether ∧ (s.updMxu j f).groves = s.groves ∧ (s.updMxu j f).engines = s.engines ∧
    (s.updMxu j f).masks = s.masks ∧ (s.updMxu j f).faults = s.faults ∧ (s.updMxu j f).recd = s.recd ∧
    (s.updMxu j f).htime = s.htime ∧ (s.updMxu j f).life = s.life ∧ (s.updMxu j f).vault = s.vault ∧
    (s.updMxu j f).flashSize = s.flashSize ∧ (s.updMxu j f).stopped = s.stopped ∧ (s.updMxu j f).pllGap = s.pllGap ∧
    (s.updMxu j f).hostMem = s.hostMem ∧ (s.updMxu j f).hostDeaf = s.hostDeaf ∧ (s.updMxu j f).freeCtr = s.freeCtr ∧
    (s.updMxu j f).exec.runs = s.exec.runs ∧ (s.updMxu j f).exec.seqs = s.exec.seqs ∧
    (s.updMxu j f).exec.mxuZero = s.exec.mxuZero ∧ (s.updMxu j f).exec.mxuOrder = s.exec.mxuOrder := by
  repeat' constructor

/-- `State.putMsix` changes `msix` alone. -/
@[simp] theorem State.putMsix_frame (s : State) (m : Msix) :
    (s.putMsix m).pending = s.pending ∧ (s.putMsix m).tick = s.tick ∧ (s.putMsix m).work = s.work ∧
    (s.putMsix m).adm = s.adm ∧ (s.putMsix m).insts = s.insts ∧ (s.putMsix m).tlb = s.tlb ∧ (s.putMsix m).ports = s.ports ∧
    (s.putMsix m).busMaster = s.busMaster ∧ (s.putMsix m).writes = s.writes ∧ (s.putMsix m).store = s.store ∧
    (s.putMsix m).shelf = s.shelf ∧ (s.putMsix m).grafts = s.grafts ∧ (s.putMsix m).hwd = s.hwd ∧
    (s.putMsix m).exec = s.exec ∧ (s.putMsix m).entropy = s.entropy ∧ (s.putMsix m).stw = s.stw ∧
    (s.putMsix m).power = s.power ∧ (s.putMsix m).pins = s.pins ∧ (s.putMsix m).tether = s.tether ∧
    (s.putMsix m).groves = s.groves ∧ (s.putMsix m).engines = s.engines ∧ (s.putMsix m).masks = s.masks ∧
    (s.putMsix m).faults = s.faults ∧ (s.putMsix m).recd = s.recd ∧ (s.putMsix m).htime = s.htime ∧
    (s.putMsix m).life = s.life ∧ (s.putMsix m).vault = s.vault ∧ (s.putMsix m).flashSize = s.flashSize ∧
    (s.putMsix m).stopped = s.stopped ∧ (s.putMsix m).pllGap = s.pllGap ∧ (s.putMsix m).hostMem = s.hostMem ∧
    (s.putMsix m).hostDeaf = s.hostDeaf ∧ (s.putMsix m).freeCtr = s.freeCtr := by
  repeat' constructor

/-- `State.updKey` changes `store.keys` alone. -/
@[simp] theorem State.updKey_frame (s : State) (k : Nat) (f : KeyObj → KeyObj) :
    (s.updKey k f).pending = s.pending ∧ (s.updKey k f).tick = s.tick ∧ (s.updKey k f).work = s.work ∧
    (s.updKey k f).adm = s.adm ∧ (s.updKey k f).insts = s.insts ∧ (s.updKey k f).tlb = s.tlb ∧
    (s.updKey k f).ports = s.ports ∧ (s.updKey k f).msix = s.msix ∧ (s.updKey k f).busMaster = s.busMaster ∧
    (s.updKey k f).writes = s.writes ∧ (s.updKey k f).shelf = s.shelf ∧ (s.updKey k f).grafts = s.grafts ∧
    (s.updKey k f).hwd = s.hwd ∧ (s.updKey k f).exec = s.exec ∧ (s.updKey k f).entropy = s.entropy ∧
    (s.updKey k f).stw = s.stw ∧ (s.updKey k f).power = s.power ∧ (s.updKey k f).pins = s.pins ∧
    (s.updKey k f).tether = s.tether ∧ (s.updKey k f).groves = s.groves ∧ (s.updKey k f).engines = s.engines ∧
    (s.updKey k f).masks = s.masks ∧ (s.updKey k f).faults = s.faults ∧ (s.updKey k f).recd = s.recd ∧
    (s.updKey k f).htime = s.htime ∧ (s.updKey k f).life = s.life ∧ (s.updKey k f).vault = s.vault ∧
    (s.updKey k f).flashSize = s.flashSize ∧ (s.updKey k f).stopped = s.stopped ∧ (s.updKey k f).pllGap = s.pllGap ∧
    (s.updKey k f).hostMem = s.hostMem ∧ (s.updKey k f).hostDeaf = s.hostDeaf ∧ (s.updKey k f).freeCtr = s.freeCtr ∧
    (s.updKey k f).store.ctxs = s.store.ctxs ∧ (s.updKey k f).store.streams = s.store.streams ∧
    (s.updKey k f).store.keyGens = s.store.keyGens ∧ (s.updKey k f).store.ctxGens = s.store.ctxGens ∧
    (s.updKey k f).store.streamGens = s.store.streamGens ∧ (s.updKey k f).store.counters = s.store.counters ∧
    (s.updKey k f).store.keyPool = s.store.keyPool ∧ (s.updKey k f).store.ctxPool = s.store.ctxPool ∧
    (s.updKey k f).store.cache = s.store.cache := by
  repeat' constructor

/-- `State.updCtx` changes `store.ctxs` alone. -/
@[simp] theorem State.updCtx_frame (s : State) (h : Nat) (f : Ctx → Ctx) :
    (s.updCtx h f).pending = s.pending ∧ (s.updCtx h f).tick = s.tick ∧ (s.updCtx h f).work = s.work ∧
    (s.updCtx h f).adm = s.adm ∧ (s.updCtx h f).insts = s.insts ∧ (s.updCtx h f).tlb = s.tlb ∧
    (s.updCtx h f).ports = s.ports ∧ (s.updCtx h f).msix = s.msix ∧ (s.updCtx h f).busMaster = s.busMaster ∧
    (s.updCtx h f).writes = s.writes ∧ (s.updCtx h f).shelf = s.shelf ∧ (s.updCtx h f).grafts = s.grafts ∧
    (s.updCtx h f).hwd = s.hwd ∧ (s.updCtx h f).exec = s.exec ∧ (s.updCtx h f).entropy = s.entropy ∧
    (s.updCtx h f).stw = s.stw ∧ (s.updCtx h f).power = s.power ∧ (s.updCtx h f).pins = s.pins ∧
    (s.updCtx h f).tether = s.tether ∧ (s.updCtx h f).groves = s.groves ∧ (s.updCtx h f).engines = s.engines ∧
    (s.updCtx h f).masks = s.masks ∧ (s.updCtx h f).faults = s.faults ∧ (s.updCtx h f).recd = s.recd ∧
    (s.updCtx h f).htime = s.htime ∧ (s.updCtx h f).life = s.life ∧ (s.updCtx h f).vault = s.vault ∧
    (s.updCtx h f).flashSize = s.flashSize ∧ (s.updCtx h f).stopped = s.stopped ∧ (s.updCtx h f).pllGap = s.pllGap ∧
    (s.updCtx h f).hostMem = s.hostMem ∧ (s.updCtx h f).hostDeaf = s.hostDeaf ∧ (s.updCtx h f).freeCtr = s.freeCtr ∧
    (s.updCtx h f).store.keys = s.store.keys ∧ (s.updCtx h f).store.streams = s.store.streams ∧
    (s.updCtx h f).store.keyGens = s.store.keyGens ∧ (s.updCtx h f).store.ctxGens = s.store.ctxGens ∧
    (s.updCtx h f).store.streamGens = s.store.streamGens ∧ (s.updCtx h f).store.counters = s.store.counters ∧
    (s.updCtx h f).store.keyPool = s.store.keyPool ∧ (s.updCtx h f).store.ctxPool = s.store.ctxPool ∧
    (s.updCtx h f).store.cache = s.store.cache := by
  repeat' constructor

/-- `State.mapHealth` changes `faults.map` alone. -/
@[simp] theorem State.mapHealth_frame (s : State) (p : Health → Bool) (f : Health → Health) :
    (s.mapHealth p f).pending = s.pending ∧ (s.mapHealth p f).tick = s.tick ∧ (s.mapHealth p f).work = s.work ∧
    (s.mapHealth p f).adm = s.adm ∧ (s.mapHealth p f).insts = s.insts ∧ (s.mapHealth p f).tlb = s.tlb ∧
    (s.mapHealth p f).ports = s.ports ∧ (s.mapHealth p f).msix = s.msix ∧ (s.mapHealth p f).busMaster = s.busMaster ∧
    (s.mapHealth p f).writes = s.writes ∧ (s.mapHealth p f).store = s.store ∧ (s.mapHealth p f).shelf = s.shelf ∧
    (s.mapHealth p f).grafts = s.grafts ∧ (s.mapHealth p f).hwd = s.hwd ∧ (s.mapHealth p f).exec = s.exec ∧
    (s.mapHealth p f).entropy = s.entropy ∧ (s.mapHealth p f).stw = s.stw ∧ (s.mapHealth p f).power = s.power ∧
    (s.mapHealth p f).pins = s.pins ∧ (s.mapHealth p f).tether = s.tether ∧ (s.mapHealth p f).groves = s.groves ∧
    (s.mapHealth p f).engines = s.engines ∧ (s.mapHealth p f).masks = s.masks ∧ (s.mapHealth p f).recd = s.recd ∧
    (s.mapHealth p f).htime = s.htime ∧ (s.mapHealth p f).life = s.life ∧ (s.mapHealth p f).vault = s.vault ∧
    (s.mapHealth p f).flashSize = s.flashSize ∧ (s.mapHealth p f).stopped = s.stopped ∧
    (s.mapHealth p f).pllGap = s.pllGap ∧ (s.mapHealth p f).hostMem = s.hostMem ∧ (s.mapHealth p f).hostDeaf = s.hostDeaf ∧
    (s.mapHealth p f).freeCtr = s.freeCtr ∧ (s.mapHealth p f).faults.sev = s.faults.sev ∧
    (s.mapHealth p f).faults.raises = s.faults.raises ∧ (s.mapHealth p f).faults.raised = s.faults.raised ∧
    (s.mapHealth p f).faults.degraded = s.faults.degraded ∧ (s.mapHealth p f).faults.contained = s.faults.contained ∧
    (s.mapHealth p f).faults.safe = s.faults.safe ∧ (s.mapHealth p f).faults.self = s.faults.self ∧
    (s.mapHealth p f).faults.injected = s.faults.injected ∧ (s.mapHealth p f).faults.first = s.faults.first ∧
    (s.mapHealth p f).faults.safeTick = s.faults.safeTick ∧ (s.mapHealth p f).faults.injSrc = s.faults.injSrc ∧
    (s.mapHealth p f).faults.injMode = s.faults.injMode ∧ (s.mapHealth p f).faults.injGo = s.faults.injGo ∧
    (s.mapHealth p f).faults.injDone = s.faults.injDone ∧ (s.mapHealth p f).faults.injRefused = s.faults.injRefused ∧
    (s.mapHealth p f).faults.injStatSrc = s.faults.injStatSrc ∧ (s.mapHealth p f).faults.updates = s.faults.updates ∧
    (s.mapHealth p f).faults.epoch = s.faults.epoch ∧ (s.mapHealth p f).faults.history = s.faults.history ∧
    (s.mapHealth p f).faults.published = s.faults.published ∧ (s.mapHealth p f).faults.alive = s.faults.alive ∧
    (s.mapHealth p f).faults.errN = s.faults.errN ∧ (s.mapHealth p f).faults.mgAlertN = s.faults.mgAlertN ∧
    (s.mapHealth p f).faults.aliveAt = s.faults.aliveAt := by
  repeat' constructor

/-- `State.setHealth` changes `faults.map` alone. -/
@[simp] theorem State.setHealth_frame (s : State) (u : Nat) (st : UnitState) (info : Nat) :
    (s.setHealth u st info).pending = s.pending ∧ (s.setHealth u st info).tick = s.tick ∧
    (s.setHealth u st info).work = s.work ∧ (s.setHealth u st info).adm = s.adm ∧ (s.setHealth u st info).insts = s.insts ∧
    (s.setHealth u st info).tlb = s.tlb ∧ (s.setHealth u st info).ports = s.ports ∧ (s.setHealth u st info).msix = s.msix ∧
    (s.setHealth u st info).busMaster = s.busMaster ∧ (s.setHealth u st info).writes = s.writes ∧
    (s.setHealth u st info).store = s.store ∧ (s.setHealth u st info).shelf = s.shelf ∧
    (s.setHealth u st info).grafts = s.grafts ∧ (s.setHealth u st info).hwd = s.hwd ∧
    (s.setHealth u st info).exec = s.exec ∧ (s.setHealth u st info).entropy = s.entropy ∧
    (s.setHealth u st info).stw = s.stw ∧ (s.setHealth u st info).power = s.power ∧ (s.setHealth u st info).pins = s.pins ∧
    (s.setHealth u st info).tether = s.tether ∧ (s.setHealth u st info).groves = s.groves ∧
    (s.setHealth u st info).engines = s.engines ∧ (s.setHealth u st info).masks = s.masks ∧
    (s.setHealth u st info).recd = s.recd ∧ (s.setHealth u st info).htime = s.htime ∧
    (s.setHealth u st info).life = s.life ∧ (s.setHealth u st info).vault = s.vault ∧
    (s.setHealth u st info).flashSize = s.flashSize ∧ (s.setHealth u st info).stopped = s.stopped ∧
    (s.setHealth u st info).pllGap = s.pllGap ∧ (s.setHealth u st info).hostMem = s.hostMem ∧
    (s.setHealth u st info).hostDeaf = s.hostDeaf ∧ (s.setHealth u st info).freeCtr = s.freeCtr ∧
    (s.setHealth u st info).faults.sev = s.faults.sev ∧ (s.setHealth u st info).faults.raises = s.faults.raises ∧
    (s.setHealth u st info).faults.raised = s.faults.raised ∧ (s.setHealth u st info).faults.degraded = s.faults.degraded ∧
    (s.setHealth u st info).faults.contained = s.faults.contained ∧ (s.setHealth u st info).faults.safe = s.faults.safe ∧
    (s.setHealth u st info).faults.self = s.faults.self ∧ (s.setHealth u st info).faults.injected = s.faults.injected ∧
    (s.setHealth u st info).faults.first = s.faults.first ∧ (s.setHealth u st info).faults.safeTick = s.faults.safeTick ∧
    (s.setHealth u st info).faults.injSrc = s.faults.injSrc ∧ (s.setHealth u st info).faults.injMode = s.faults.injMode ∧
    (s.setHealth u st info).faults.injGo = s.faults.injGo ∧ (s.setHealth u st info).faults.injDone = s.faults.injDone ∧
    (s.setHealth u st info).faults.injRefused = s.faults.injRefused ∧
    (s.setHealth u st info).faults.injStatSrc = s.faults.injStatSrc ∧
    (s.setHealth u st info).faults.updates = s.faults.updates ∧ (s.setHealth u st info).faults.epoch = s.faults.epoch ∧
    (s.setHealth u st info).faults.history = s.faults.history ∧
    (s.setHealth u st info).faults.published = s.faults.published ∧ (s.setHealth u st info).faults.alive = s.faults.alive ∧
    (s.setHealth u st info).faults.errN = s.faults.errN ∧ (s.setHealth u st info).faults.mgAlertN = s.faults.mgAlertN ∧
    (s.setHealth u st info).faults.aliveAt = s.faults.aliveAt := by
  repeat' constructor

/-- `State.setUnit` changes `faults.map` alone. -/
@[simp] theorem State.setUnit_frame (s : State) (u : Nat) (st : UnitState) :
    (s.setUnit u st).pending = s.pending ∧ (s.setUnit u st).tick = s.tick ∧ (s.setUnit u st).work = s.work ∧
    (s.setUnit u st).adm = s.adm ∧ (s.setUnit u st).insts = s.insts ∧ (s.setUnit u st).tlb = s.tlb ∧
    (s.setUnit u st).ports = s.ports ∧ (s.setUnit u st).msix = s.msix ∧ (s.setUnit u st).busMaster = s.busMaster ∧
    (s.setUnit u st).writes = s.writes ∧ (s.setUnit u st).store = s.store ∧ (s.setUnit u st).shelf = s.shelf ∧
    (s.setUnit u st).grafts = s.grafts ∧ (s.setUnit u st).hwd = s.hwd ∧ (s.setUnit u st).exec = s.exec ∧
    (s.setUnit u st).entropy = s.entropy ∧ (s.setUnit u st).stw = s.stw ∧ (s.setUnit u st).power = s.power ∧
    (s.setUnit u st).pins = s.pins ∧ (s.setUnit u st).tether = s.tether ∧ (s.setUnit u st).groves = s.groves ∧
    (s.setUnit u st).engines = s.engines ∧ (s.setUnit u st).masks = s.masks ∧ (s.setUnit u st).recd = s.recd ∧
    (s.setUnit u st).htime = s.htime ∧ (s.setUnit u st).life = s.life ∧ (s.setUnit u st).vault = s.vault ∧
    (s.setUnit u st).flashSize = s.flashSize ∧ (s.setUnit u st).stopped = s.stopped ∧ (s.setUnit u st).pllGap = s.pllGap ∧
    (s.setUnit u st).hostMem = s.hostMem ∧ (s.setUnit u st).hostDeaf = s.hostDeaf ∧ (s.setUnit u st).freeCtr = s.freeCtr ∧
    (s.setUnit u st).faults.sev = s.faults.sev ∧ (s.setUnit u st).faults.raises = s.faults.raises ∧
    (s.setUnit u st).faults.raised = s.faults.raised ∧ (s.setUnit u st).faults.degraded = s.faults.degraded ∧
    (s.setUnit u st).faults.contained = s.faults.contained ∧ (s.setUnit u st).faults.safe = s.faults.safe ∧
    (s.setUnit u st).faults.self = s.faults.self ∧ (s.setUnit u st).faults.injected = s.faults.injected ∧
    (s.setUnit u st).faults.first = s.faults.first ∧ (s.setUnit u st).faults.safeTick = s.faults.safeTick ∧
    (s.setUnit u st).faults.injSrc = s.faults.injSrc ∧ (s.setUnit u st).faults.injMode = s.faults.injMode ∧
    (s.setUnit u st).faults.injGo = s.faults.injGo ∧ (s.setUnit u st).faults.injDone = s.faults.injDone ∧
    (s.setUnit u st).faults.injRefused = s.faults.injRefused ∧ (s.setUnit u st).faults.injStatSrc = s.faults.injStatSrc ∧
    (s.setUnit u st).faults.updates = s.faults.updates ∧ (s.setUnit u st).faults.epoch = s.faults.epoch ∧
    (s.setUnit u st).faults.history = s.faults.history ∧ (s.setUnit u st).faults.published = s.faults.published ∧
    (s.setUnit u st).faults.alive = s.faults.alive ∧ (s.setUnit u st).faults.errN = s.faults.errN ∧
    (s.setUnit u st).faults.mgAlertN = s.faults.mgAlertN ∧ (s.setUnit u st).faults.aliveAt = s.faults.aliveAt := by
  repeat' constructor

/-- `State.updateUnit` changes `faults.updates` alone. -/
@[simp] theorem State.updateUnit_frame (s : State) (u : Nat) (st : UnitState) (info : Nat) :
    (s.updateUnit u st info).pending = s.pending ∧ (s.updateUnit u st info).tick = s.tick ∧
    (s.updateUnit u st info).work = s.work ∧ (s.updateUnit u st info).adm = s.adm ∧
    (s.updateUnit u st info).insts = s.insts ∧ (s.updateUnit u st info).tlb = s.tlb ∧
    (s.updateUnit u st info).ports = s.ports ∧ (s.updateUnit u st info).msix = s.msix ∧
    (s.updateUnit u st info).busMaster = s.busMaster ∧ (s.updateUnit u st info).writes = s.writes ∧
    (s.updateUnit u st info).store = s.store ∧ (s.updateUnit u st info).shelf = s.shelf ∧
    (s.updateUnit u st info).grafts = s.grafts ∧ (s.updateUnit u st info).hwd = s.hwd ∧
    (s.updateUnit u st info).exec = s.exec ∧ (s.updateUnit u st info).entropy = s.entropy ∧
    (s.updateUnit u st info).stw = s.stw ∧ (s.updateUnit u st info).power = s.power ∧
    (s.updateUnit u st info).pins = s.pins ∧ (s.updateUnit u st info).tether = s.tether ∧
    (s.updateUnit u st info).groves = s.groves ∧ (s.updateUnit u st info).engines = s.engines ∧
    (s.updateUnit u st info).masks = s.masks ∧ (s.updateUnit u st info).recd = s.recd ∧
    (s.updateUnit u st info).htime = s.htime ∧ (s.updateUnit u st info).life = s.life ∧
    (s.updateUnit u st info).vault = s.vault ∧ (s.updateUnit u st info).flashSize = s.flashSize ∧
    (s.updateUnit u st info).stopped = s.stopped ∧ (s.updateUnit u st info).pllGap = s.pllGap ∧
    (s.updateUnit u st info).hostMem = s.hostMem ∧ (s.updateUnit u st info).hostDeaf = s.hostDeaf ∧
    (s.updateUnit u st info).freeCtr = s.freeCtr ∧ (s.updateUnit u st info).faults.sev = s.faults.sev ∧
    (s.updateUnit u st info).faults.raises = s.faults.raises ∧ (s.updateUnit u st info).faults.raised = s.faults.raised ∧
    (s.updateUnit u st info).faults.degraded = s.faults.degraded ∧
    (s.updateUnit u st info).faults.contained = s.faults.contained ∧ (s.updateUnit u st info).faults.safe = s.faults.safe ∧
    (s.updateUnit u st info).faults.self = s.faults.self ∧ (s.updateUnit u st info).faults.injected = s.faults.injected ∧
    (s.updateUnit u st info).faults.first = s.faults.first ∧ (s.updateUnit u st info).faults.safeTick = s.faults.safeTick ∧
    (s.updateUnit u st info).faults.injSrc = s.faults.injSrc ∧ (s.updateUnit u st info).faults.injMode = s.faults.injMode ∧
    (s.updateUnit u st info).faults.injGo = s.faults.injGo ∧ (s.updateUnit u st info).faults.injDone = s.faults.injDone ∧
    (s.updateUnit u st info).faults.injRefused = s.faults.injRefused ∧
    (s.updateUnit u st info).faults.injStatSrc = s.faults.injStatSrc ∧ (s.updateUnit u st info).faults.map = s.faults.map ∧
    (s.updateUnit u st info).faults.epoch = s.faults.epoch ∧ (s.updateUnit u st info).faults.history = s.faults.history ∧
    (s.updateUnit u st info).faults.published = s.faults.published ∧
    (s.updateUnit u st info).faults.alive = s.faults.alive ∧ (s.updateUnit u st info).faults.errN = s.faults.errN ∧
    (s.updateUnit u st info).faults.mgAlertN = s.faults.mgAlertN ∧
    (s.updateUnit u st info).faults.aliveAt = s.faults.aliveAt := by
  repeat' constructor

/-- `State.updMember` changes `tether.members` alone. -/
@[simp] theorem State.updMember_frame (s : State) (d : Nat) (f : Member → Member) :
    (s.updMember d f).pending = s.pending ∧ (s.updMember d f).tick = s.tick ∧ (s.updMember d f).work = s.work ∧
    (s.updMember d f).adm = s.adm ∧ (s.updMember d f).insts = s.insts ∧ (s.updMember d f).tlb = s.tlb ∧
    (s.updMember d f).ports = s.ports ∧ (s.updMember d f).msix = s.msix ∧ (s.updMember d f).busMaster = s.busMaster ∧
    (s.updMember d f).writes = s.writes ∧ (s.updMember d f).store = s.store ∧ (s.updMember d f).shelf = s.shelf ∧
    (s.updMember d f).grafts = s.grafts ∧ (s.updMember d f).hwd = s.hwd ∧ (s.updMember d f).exec = s.exec ∧
    (s.updMember d f).entropy = s.entropy ∧ (s.updMember d f).stw = s.stw ∧ (s.updMember d f).power = s.power ∧
    (s.updMember d f).pins = s.pins ∧ (s.updMember d f).groves = s.groves ∧ (s.updMember d f).engines = s.engines ∧
    (s.updMember d f).masks = s.masks ∧ (s.updMember d f).faults = s.faults ∧ (s.updMember d f).recd = s.recd ∧
    (s.updMember d f).htime = s.htime ∧ (s.updMember d f).life = s.life ∧ (s.updMember d f).vault = s.vault ∧
    (s.updMember d f).flashSize = s.flashSize ∧ (s.updMember d f).stopped = s.stopped ∧
    (s.updMember d f).pllGap = s.pllGap ∧ (s.updMember d f).hostMem = s.hostMem ∧ (s.updMember d f).hostDeaf = s.hostDeaf ∧
    (s.updMember d f).freeCtr = s.freeCtr ∧ (s.updMember d f).tether.active = s.tether.active ∧
    (s.updMember d f).tether.joined = s.tether.joined ∧ (s.updMember d f).tether.mode = s.tether.mode ∧
    (s.updMember d f).tether.canopy = s.tether.canopy ∧ (s.updMember d f).tether.member = s.tether.member ∧
    (s.updMember d f).tether.charter = s.tether.charter ∧ (s.updMember d f).tether.serial = s.tether.serial ∧
    (s.updMember d f).tether.peers = s.tether.peers ∧ (s.updMember d f).tether.off = s.tether.off ∧
    (s.updMember d f).tether.syncs = s.tether.syncs ∧ (s.updMember d f).tether.syncErr = s.tether.syncErr ∧
    (s.updMember d f).tether.links = s.tether.links ∧ (s.updMember d f).tether.authErr = s.tether.authErr ∧
    (s.updMember d f).tether.lengthErr = s.tether.lengthErr ∧ (s.updMember d f).tether.managerBeat = s.tether.managerBeat ∧
    (s.updMember d f).tether.takeover = s.tether.takeover ∧ (s.updMember d f).tether.orphan = s.tether.orphan ∧
    (s.updMember d f).tether.losing = s.tether.losing ∧ (s.updMember d f).tether.away = s.tether.away ∧
    (s.updMember d f).tether.abroad = s.tether.abroad ∧ (s.updMember d f).tether.manager = s.tether.manager ∧
    (s.updMember d f).tether.uplink = s.tether.uplink ∧ (s.updMember d f).tether.ring = s.tether.ring ∧
    (s.updMember d f).tether.pairKeys = s.tether.pairKeys ∧ (s.updMember d f).tether.passed = s.tether.passed ∧
    (s.updMember d f).tether.moves = s.tether.moves ∧ (s.updMember d f).tether.held = s.tether.held ∧
    (s.updMember d f).tether.binds = s.tether.binds ∧ (s.updMember d f).tether.dissolve = s.tether.dissolve ∧
    (s.updMember d f).tether.out = s.tether.out ∧ (s.updMember d f).tether.inbox = s.tether.inbox := by
  repeat' constructor

/-- `State.updLink` changes `tether.links` alone. -/
@[simp] theorem State.updLink_frame (s : State) (l : Nat) (f : TLink → TLink) :
    (s.updLink l f).pending = s.pending ∧ (s.updLink l f).tick = s.tick ∧ (s.updLink l f).work = s.work ∧
    (s.updLink l f).adm = s.adm ∧ (s.updLink l f).insts = s.insts ∧ (s.updLink l f).tlb = s.tlb ∧
    (s.updLink l f).ports = s.ports ∧ (s.updLink l f).msix = s.msix ∧ (s.updLink l f).busMaster = s.busMaster ∧
    (s.updLink l f).writes = s.writes ∧ (s.updLink l f).store = s.store ∧ (s.updLink l f).shelf = s.shelf ∧
    (s.updLink l f).grafts = s.grafts ∧ (s.updLink l f).hwd = s.hwd ∧ (s.updLink l f).exec = s.exec ∧
    (s.updLink l f).entropy = s.entropy ∧ (s.updLink l f).stw = s.stw ∧ (s.updLink l f).power = s.power ∧
    (s.updLink l f).pins = s.pins ∧ (s.updLink l f).groves = s.groves ∧ (s.updLink l f).engines = s.engines ∧
    (s.updLink l f).masks = s.masks ∧ (s.updLink l f).faults = s.faults ∧ (s.updLink l f).recd = s.recd ∧
    (s.updLink l f).htime = s.htime ∧ (s.updLink l f).life = s.life ∧ (s.updLink l f).vault = s.vault ∧
    (s.updLink l f).flashSize = s.flashSize ∧ (s.updLink l f).stopped = s.stopped ∧ (s.updLink l f).pllGap = s.pllGap ∧
    (s.updLink l f).hostMem = s.hostMem ∧ (s.updLink l f).hostDeaf = s.hostDeaf ∧ (s.updLink l f).freeCtr = s.freeCtr ∧
    (s.updLink l f).tether.active = s.tether.active ∧ (s.updLink l f).tether.joined = s.tether.joined ∧
    (s.updLink l f).tether.mode = s.tether.mode ∧ (s.updLink l f).tether.canopy = s.tether.canopy ∧
    (s.updLink l f).tether.member = s.tether.member ∧ (s.updLink l f).tether.charter = s.tether.charter ∧
    (s.updLink l f).tether.serial = s.tether.serial ∧ (s.updLink l f).tether.members = s.tether.members ∧
    (s.updLink l f).tether.peers = s.tether.peers ∧ (s.updLink l f).tether.off = s.tether.off ∧
    (s.updLink l f).tether.syncs = s.tether.syncs ∧ (s.updLink l f).tether.syncErr = s.tether.syncErr ∧
    (s.updLink l f).tether.authErr = s.tether.authErr ∧ (s.updLink l f).tether.lengthErr = s.tether.lengthErr ∧
    (s.updLink l f).tether.managerBeat = s.tether.managerBeat ∧ (s.updLink l f).tether.takeover = s.tether.takeover ∧
    (s.updLink l f).tether.orphan = s.tether.orphan ∧ (s.updLink l f).tether.losing = s.tether.losing ∧
    (s.updLink l f).tether.away = s.tether.away ∧ (s.updLink l f).tether.abroad = s.tether.abroad ∧
    (s.updLink l f).tether.manager = s.tether.manager ∧ (s.updLink l f).tether.uplink = s.tether.uplink ∧
    (s.updLink l f).tether.ring = s.tether.ring ∧ (s.updLink l f).tether.pairKeys = s.tether.pairKeys ∧
    (s.updLink l f).tether.passed = s.tether.passed ∧ (s.updLink l f).tether.moves = s.tether.moves ∧
    (s.updLink l f).tether.held = s.tether.held ∧ (s.updLink l f).tether.binds = s.tether.binds ∧
    (s.updLink l f).tether.dissolve = s.tether.dissolve ∧ (s.updLink l f).tether.out = s.tether.out ∧
    (s.updLink l f).tether.inbox = s.tether.inbox := by
  repeat' constructor

end Sys2Proof.Machine
end

