-- ==== Sys2Proof/Laws/Ops.lean ====
section
/-! SUPPORT. One law for each shared operation over memory, records, translation and interrupts: all that it can change. -/

namespace Sys2Proof.Machine

/-! ### Records -/

/-- A record changes the recorder, and on VBAK the retention SRAM. -/
theorem emitRec_eq (s : State) (code sev unit p0 p1 p2 : Nat) (inj : Bool) :
    ∃ r ret dr, emitRec s code sev unit p0 p1 p2 inj = { s with recd := r, hwd.retention := ret, hwd.dropped := dr } := by
  simp only [emitRec]
  split
  · split
    · exact ⟨_, _, _, rfl⟩
    · simp only [storeBackup]
      repeat' split
      all_goals exact ⟨_, _, _, rfl⟩
  · exact ⟨_, _, _, rfl⟩

theorem emit_eq (s : State) (code p0 p1 p2 : Nat) :
    ∃ r ret dr, emit s code p0 p1 p2 = { s with recd := r, hwd.retention := ret, hwd.dropped := dr } := emitRec_eq ..

/-- A flush changes the recorder alone. -/
theorem flushRecorder_eq (s : State) : ∃ r, flushRecorder s = { s with recd := r } := ⟨_, rfl⟩

/-! ### Free values and messages -/

/-- Free bytes: their number, and the counter that has moved past them. -/
theorem takeFree_eq (s : State) (n : Nat) :
    (takeFree s n).1.length = n ∧ (takeFree s n).2 = { s with freeCtr := s.freeCtr + n } := by
  simp [takeFree]

/-- A message changes the tether alone: it goes out sealed for the device that carries it on, whose CTR rises. -/
theorem sendAs_eq (s : State) (src dst kind : Nat) (body : Bytes) : ∃ ms rg, sendAs s src dst kind body =
    { s with
      tether.out := s.tether.out ++ [{
        src := src, dst := dst, ctr := (peerEntry s (hopTo s dst)).ctrOut, kind := kind, enc := true,
        body := sealBody (peerEntry s (hopTo s dst)).pair (s.selfId < hopTo s dst) kind src dst
          (peerEntry s (hopTo s dst)).ctrOut body }],
      tether.members := ms, tether.ring := rg } := ⟨_, _, rfl⟩

theorem sendMsg_eq (s : State) (dst kind : Nat) (body : Bytes) : ∃ o ms rg, sendMsg s dst kind body =
    { s with tether.out := s.tether.out ++ [o], tether.members := ms, tether.ring := rg } ∧ o.dst = dst ∧ o.kind = kind ∧
      o.enc = true := ⟨_, _, _, rfl, rfl, rfl, rfl⟩

/-! ### Address translation -/

/-- A translation changes the cache, and PORT_EVENTS when a page-table read fails. -/
theorem translate_eq (s : State) (inst iova : Nat) (write : Bool) :
    ∃ t q, (translate s inst iova write).1 = { s with tlb := t, ports := q } := by
  simp only [translate]
  repeat' split
  all_goals exact ⟨_, _, rfl⟩

theorem transPieces_eq (s : State) (inst : Nat) (write : Bool) (ps : List (Nat × Nat)) :
    ∃ t q, (transPieces s inst write ps).1 = { s with tlb := t, ports := q } := by
  induction ps generalizing s with
  | nil => exact ⟨_, _, rfl⟩
  | cons p ps ih =>
    obtain ⟨a, n⟩ := p
    obtain ⟨t, q, ht⟩ := translate_eq s inst a write
    simp only [transPieces]
    cases hx : translate s inst a write with
    | mk u r =>
      rw [hx] at ht
      cases r with
      | error e => exact ⟨t, q, ht⟩
      | ok b =>
        obtain ⟨t', q', ht'⟩ := ih u
        cases hy : transPieces u inst write ps with
        | mk v r =>
          rw [hy] at ht'
          simp only at ht ht'
          cases r <;> exact ⟨t', q', by simp only [hy]; rw [ht', ht]⟩

/-- A fault changes the DATU registers of a port and the recorder. -/
theorem datuFault_eq (s : State) (inst iova level cause access : Nat) : ∃ ps r ret dr,
    datuFault s inst iova level cause access = { s with ports := ps, recd := r, hwd.retention := ret, hwd.dropped := dr } := by
  obtain ⟨r, ret, dr, h⟩ := emit_eq (s.updPort (adminPort s inst) fun p =>
    let d := p.datu
    let d := if d.valid then d else
      { d with valid := true, level := level, cause := cause, access := access, inst := inst, iova := iova % 2 ^ 48 }
    { p with datu := { d with count := satInc (2 ^ 32 - 1) d.count } }) 0x0105 inst (iova % 2 ^ 32) level
  exact ⟨_, r, ret, dr, h⟩

theorem transRange_eq (s : State) (inst iova len : Nat) (write : Bool) (access : Nat) (spec : Bool) : ∃ t ps r ret dr,
    (transRange s inst iova len write access spec).1 =
      { s with tlb := t, ports := ps, recd := r, hwd.retention := ret, hwd.dropped := dr } := by
  simp only [transRange]
  split
  · exact ⟨_, _, _, _, _, rfl⟩
  · obtain ⟨t, q, ht⟩ := transPieces_eq s inst write (rangePieces iova len)
    cases hx : transPieces s inst write (rangePieces iova len) with
    | mk u r =>
      rw [hx] at ht
      simp only at ht
      cases r with
      | ok bs =>
        simp only
        split
        · exact ⟨t, _, _, _, _, by simp only [readEvent, State.updPort, ht]; rfl⟩
        · exact ⟨t, _, _, _, _, by simp only [ht]; rfl⟩
      | error e =>
        obtain ⟨a, l, c⟩ := e
        simp only
        split
        · exact ⟨t, _, _, _, _, by simp only [ht]; rfl⟩
        · obtain ⟨ps, r, ret, dr, h⟩ := datuFault_eq u inst a l c access
          exact ⟨t, ps, r, ret, dr, by rw [h, ht]⟩

/-- A read of host memory changes the cache, and on a fault the DATU registers and the recorder. -/
theorem hostRead_eq (s : State) (inst iova len access : Nat) (spec : Bool) : ∃ t ps r ret dr,
    (hostRead s inst iova len access spec).1 =
      { s with tlb := t, ports := ps, recd := r, hwd.retention := ret, hwd.dropped := dr } := by
  obtain ⟨t, ps, r, ret, dr, h⟩ := transRange_eq s inst iova len false access spec
  refine ⟨t, ps, r, ret, dr, ?_⟩
  simp only [hostRead]
  cases hx : transRange s inst iova len false access spec with
  | mk u o =>
    rw [hx] at h
    cases o <;> exact h

/-- A write of host memory changes host memory and keeps its canonical form, the cache, the dirty logs of instances, the writes
remembered for a pair, and on a fault the DATU registers and the recorder. -/
def WriteLeaves (s t : State) : Prop := ∃ m tl ps r ret dr ins ws,
  t = { s with hostMem := m, tlb := tl, ports := ps, recd := r, hwd.retention := ret, hwd.dropped := dr, insts := ins, writes := ws } ∧
    (Mem.wf s.hostMem → Mem.wf m)

theorem WriteLeaves.refl (s : State) : WriteLeaves s s := ⟨_, _, _, _, _, _, _, _, rfl, id⟩

theorem WriteLeaves.trans {s t u : State} (h : WriteLeaves s t) (k : WriteLeaves t u) : WriteLeaves s u := by
  obtain ⟨m, tl, ps, r, ret, dr, ins, ws, rfl, hm⟩ := h
  obtain ⟨m', tl', ps', r', ret', dr', ins', ws', rfl, hm'⟩ := k
  exact ⟨m', tl', ps', r', ret', dr', ins', ws', rfl, fun hw => hm' (hm hw)⟩

theorem transRange_leaves (s : State) (inst iova len : Nat) (write : Bool) (access : Nat) (spec : Bool) :
    WriteLeaves s (transRange s inst iova len write access spec).1 := by
  obtain ⟨t, ps, r, ret, dr, h⟩ := transRange_eq s inst iova len write access spec
  exact ⟨_, t, ps, r, ret, dr, _, _, h, id⟩

theorem hostRead_leaves (s : State) (inst iova len access : Nat) (spec : Bool) :
    WriteLeaves s (hostRead s inst iova len access spec).1 := by
  obtain ⟨t, ps, r, ret, dr, h⟩ := hostRead_eq s inst iova len access spec
  exact ⟨_, t, ps, r, ret, dr, _, _, h, id⟩

theorem emit_leaves (s : State) (code p0 p1 p2 : Nat) : WriteLeaves s (emit s code p0 p1 p2) := by
  obtain ⟨r, ret, dr, h⟩ := emit_eq s code p0 p1 p2
  exact ⟨_, _, _, r, ret, dr, _, _, h, id⟩

theorem updInst_leaves (s : State) (i : Nat) (f : Inst → Inst) : WriteLeaves s (s.updInst i f) :=
  ⟨_, _, _, _, _, _, _, _, rfl, id⟩

theorem scatter_leaves (s : State) (ps : List (Nat × Nat)) (b : Bytes) :
    WriteLeaves s { s with hostMem := scatterBytes s.hostMem ps b } :=
  ⟨_, _, _, _, _, _, _, _, rfl, scatterBytes_wf _ _ _⟩

theorem dirtyLost_leaves (s : State) (inst a : Nat) : WriteLeaves s (dirtyLost s inst a) :=
  (updInst_leaves s inst _).trans (emit_leaves ..)

theorem dirtyPage_leaves (s : State) (inst page : Nat) : WriteLeaves s (dirtyPage s inst page) := by
  simp only [dirtyPage]
  split
  · exact .refl s
  split
  · exact .refl s
  rename_i d _
  split
  · exact .refl s
  split
  · exact updInst_leaves ..
  generalize (if d.onB then d.bitmapB else d.bitmapA) + 8 * ((page - d.base) / 4096 / 64) = a
  have h := hostRead_leaves s d.owner a 8 4 false
  cases hx : hostRead s d.owner a 8 4 false with
  | mk u o =>
    rw [hx] at h
    cases o with
    | none => exact h.trans (dirtyLost_leaves ..)
    | some b =>
      refine h.trans ?_
      have h := transRange_leaves u d.owner a 8 true 4 false
      simp only
      cases hy : transRange u d.owner a 8 true 4 false with
      | mk v o =>
        rw [hy] at h
        cases o with
        | none => exact h.trans (dirtyLost_leaves ..)
        | some ps => exact h.trans (scatter_leaves v ps _)

theorem dirtyMark_leaves (s : State) (inst iova len : Nat) : WriteLeaves s (dirtyMark s inst iova len) := by
  simp only [dirtyMark]
  generalize rangePieces iova len = ps
  induction ps generalizing s with
  | nil => exact .refl s
  | cons p ps ih => exact (dirtyPage_leaves ..).trans (ih _)

theorem issueWrite_leaves (s : State) (inst iova : Nat) (ps : List (Nat × Nat)) (bs : Bytes) :
    WriteLeaves s (issueWrite s inst iova ps bs) := by
  simp only [issueWrite]
  refine WriteLeaves.trans ?_ (dirtyMark_leaves ..)
  refine (scatter_leaves s ps bs).trans ?_
  repeat' split
  all_goals exact ⟨_, _, _, _, _, _, _, _, rfl, id⟩

theorem hostWrite_leaves (s : State) (inst iova : Nat) (bs : Bytes) (access : Nat) :
    WriteLeaves s (hostWrite s inst iova bs access).1 := by
  have h := transRange_leaves s inst iova bs.length true access false
  simp only [hostWrite]
  cases hx : transRange s inst iova bs.length true access false with
  | mk u o =>
    rw [hx] at h
    cases o with
    | none => exact h
    | some ps => exact h.trans (issueWrite_leaves ..)

/-! ### Interrupts -/

/-- A vector changes its function's MSI-X and, where it is sent, the four bytes of its message. -/
theorem sendFn_eq (s : State) (fn v : Nat) :
    ∃ ms m, sendFn s fn v = { s with msix := ms, hostMem := m } ∧ (Mem.wf s.hostMem → Mem.wf m) := by
  simp only [sendFn]
  split
  · exact ⟨_, _, rfl, id⟩
  split
  · exact ⟨_, _, rfl, id⟩
  split
  · exact ⟨_, _, rfl, id⟩
  · exact ⟨_, _, rfl, Mem.writeBytes_wf _ _ _⟩

theorem sendVector_eq (s : State) (inst v : Nat) :
    ∃ ms m, sendVector s inst v = { s with msix := ms, hostMem := m } ∧ (Mem.wf s.hostMem → Mem.wf m) := sendFn_eq ..

/-! ### Host memory -/

/-- What `n` bytes read as is what each of them reads as. -/
theorem Mem.readBytes_getElem (m : List Host.Cell) (a n i : Nat) (h : i < n) :
    (Mem.readBytes m a n)[i]? = some (Mem.read m (a + i)) := by
  simp [Mem.readBytes, h]

@[simp] theorem Mem.readBytes_length (m : List Host.Cell) (a n : Nat) : (Mem.readBytes m a n).length = n := by
  simp [Mem.readBytes]

/-- A standard's function gives as many bytes as are asked for. -/
theorem stdBytes_length (f : Config.StdFn) (a : Nat) (x : List Bytes) (n : Nat) : (stdBytes f a x n).length = n := by
  simp [stdBytes]

/-! ### Sealing (R452) -/

theorem xorBytes_length (a b : Bytes) : (xorBytes a b).length = a.length := by
  induction a generalizing b with
  | nil => rfl
  | cons x xs ih => cases b <;> simp [xorBytes, ih]

theorem xorBytes_twice (a b : Bytes) : xorBytes (xorBytes a b) b = a := by
  induction a generalizing b with
  | nil => rfl
  | cons x xs ih => cases b <;> simp [xorBytes, ih]

/-- Counter mode keeps the length and undoes itself. -/
theorem gcm_ctr_twice (ks : List Nat) (nonce : Bytes) (n c : Nat) (m : Bytes) (h : m.length ≤ 16 * n) :
    (Gcm.ctr ks nonce n c m).length = m.length ∧ Gcm.ctr ks nonce n c (Gcm.ctr ks nonce n c m) = m := by
  induction n generalizing c m with
  | zero =>
    have : m = [] := List.eq_nil_of_length_eq_zero (by omega)
    subst this; exact ⟨rfl, rfl⟩
  | succ n ih =>
    cases m with
    | nil => exact ⟨rfl, rfl⟩
    | cons x xs =>
      obtain ⟨h1, h2⟩ := ih (c + 1) ((x :: xs).drop 16) (by simp at h ⊢; omega)
      have hl : (xorBytes ((x :: xs).take 16) (Gcm.block ks (nonce ++ beBytes 4 c))).length = min 16 (x :: xs).length := by
        rw [xorBytes_length, List.length_take]
      have hd : Gcm.ctr ks nonce (n + 1) c (x :: xs)
          = xorBytes ((x :: xs).take 16) (Gcm.block ks (nonce ++ beBytes 4 c)) ++ Gcm.ctr ks nonce n (c + 1) ((x :: xs).drop 16) := rfl
      refine ⟨?_, ?_⟩
      · rw [hd, List.length_append, hl, h1, List.length_drop]; omega
      · rw [hd]
        generalize hk : xorBytes ((x :: xs).take 16) (Gcm.block ks (nonce ++ beBytes 4 c)) = y at hl ⊢
        generalize hr : Gcm.ctr ks nonce n (c + 1) ((x :: xs).drop 16) = z at h1 h2 ⊢
        have hy : y ≠ [] := by intro e; rw [e] at hl; simp only [List.length_nil, List.length_cons] at hl; omega
        obtain ⟨w, ws, rfl⟩ := List.exists_cons_of_ne_nil hy
        have hz : (w :: ws).length < 16 → z = [] := fun hh => by
          apply List.eq_nil_of_length_eq_zero
          rw [h1, List.length_drop]; omega
        have ht : ((w :: ws) ++ z).take 16 = w :: ws := by
          rcases Nat.lt_or_ge (w :: ws).length 16 with hh | hh
          · rw [hz hh, List.append_nil, List.take_of_length_le (by omega)]
          · rw [List.take_append_of_le_length hh, List.take_of_length_le (by rw [hl]; omega)]
        have hdr : ((w :: ws) ++ z).drop 16 = z := by
          rcases Nat.lt_or_ge (w :: ws).length 16 with hh | hh
          · rw [hz hh, List.append_nil, List.drop_of_length_le (by omega)]
          · rw [List.drop_append_of_le_length hh, List.drop_of_length_le (by rw [hl]; omega), List.nil_append]
        have : Gcm.ctr ks nonce (n + 1) c ((w :: ws) ++ z)
          = xorBytes (((w :: ws) ++ z).take 16) (Gcm.block ks (nonce ++ beBytes 4 c)) ++ Gcm.ctr ks nonce n (c + 1) (((w :: ws) ++ z).drop 16) := rfl
        rw [this, ht, hdr, h2, ← hk, xorBytes_twice, List.take_append_drop]

theorem gcm_crypt_twice (key nonce m : Bytes) :
    (Gcm.crypt key nonce m).length = m.length ∧ Gcm.crypt key nonce (Gcm.crypt key nonce m) = m := by
  have h : m.length ≤ 16 * ceilDiv m.length 16 := by unfold ceilDiv; omega
  obtain ⟨h1, h2⟩ := gcm_ctr_twice (Aes.keys key) nonce (ceilDiv m.length 16) 2 m h
  refine ⟨h1, ?_⟩
  show Gcm.ctr _ _ (ceilDiv (Gcm.ctr (Aes.keys key) nonce (ceilDiv m.length 16) 2 m).length 16) 2 (Gcm.ctr _ _ _ 2 m) = m
  rw [h1, h2]

theorem forced_eq {α : Type} (n : Nat) (f : Nat → α) : forced n f = f n := by cases n <;> rfl

theorem leBytes_length (n v : Nat) : (leBytes n v).length = n := by
  induction n generalizing v with
  | zero => rfl
  | succ n ih => simp [leBytes, ih]

theorem gcm_tag_length (key nonce aad ct : Bytes) : (Gcm.tag key nonce aad ct).length = 16 := by
  simp [Gcm.tag, forced_eq, xorBytes_length, beBytes, leBytes_length]

/-- A body sealed under a pair secret opens under it again (R452). -/
theorem openBody_sealBody (pair : Bytes) (up : Bool) (kind src dst ctr : Nat) (b : Bytes) :
    openBody pair up kind src dst ctr (sealBody pair up kind src dst ctr b) = some b := by
  unfold openBody sealBody
  obtain ⟨h1, h2⟩ := gcm_crypt_twice (sealKey pair up) (sealIv pair up ctr) b
  simp [gcm_tag_length, h1, h2]

end Sys2Proof.Machine
end

