-- ==== Sys2Proof/Laws/Commands.lean ====
section
/-! SUPPORT. One law for each shape of row: what an admin command, a job row, an instruction of a job's slice and a raise do,
each case once. -/

namespace Sys2Proof.Machine

/-! ### Admin commands (R94 to R97) -/

/-- The state in which a taken command runs: the ring read, its head one entry further. -/
def headMoved (s : State) (p : Nat) : State :=
  s.updPort p fun x => { x with admq.sq.head := (x.admq.sq.head + 1) % (2 * ringN x.admq.sq.log2n) }

/-- The journal of a command that ran (R97). -/
def journalled (s t : State) (p : Nat) (se : Bytes) (r : Reply) : State :=
  { t with
    adm.nextRef := s.adm.nextRef + 1,
    adm.cmds := t.adm.cmds ++ [⟨s.adm.nextRef, p, leAt se 2 2, r.status, r.detail, r.result, now s + 1, r.wait⟩] }

theorem adminRow_waits {s : State} {p : Nat} {se : Bytes} {sel : Bytes → Bool} {body : State → State × Reply}
    (h : adminReady s p = false) : adminRow p se sel body s = s := by
  simp [adminRow, adminTake, h]

theorem adminRow_not_taken {s s1 : State} {p : Nat} {se : Bytes} {sel : Bytes → Bool} {body : State → State × Reply}
    (h : adminTake s p se sel = (s1, false)) : adminRow p se sel body s = s1 := by
  simp [adminRow, h]

theorem adminRow_taken {s s1 : State} {p : Nat} {se : Bytes} {sel : Bytes → Bool} {body : State → State × Reply}
    (h : adminTake s p se sel = (s1, true)) : adminRow p se sel body s = journalled s1 (body s1).1 p se (body s1).2 := by
  simp [adminRow, h, journalled]

/-- A command that no refusal meets runs on the instance that TARGET names. -/
theorem instCmd_runs {s s1 : State} {p : Nat} {se : Bytes} {sel : Bytes → Bool} {create ownAf : Bool} {okState : InstState → Bool}
    {own : State → Nat → List (Bool × Reply)} {fields : State → Nat → List (Nat × Nat × Bool)}
    {run : State → Nat → State × Reply} (h : adminTake s p se sel = (s1, true))
    (hr : firstReply (baseChecks s1 p se false true false ++
        [ (ownAf && targetOf se % 1024 % 256 == 0, aState 0x12),
          (!vfEnabled s1 (targetOf se % 1024) && (create || instState s1 (targetOf se % 1024) == .absent), aState 0x11),
          (secondFace s1 (targetOf se % 1024), aState 0x26), (!okState (instState s1 (targetOf se % 1024)), aState 0x10) ]
        ++ lifeChecks s1 false false ++ own s1 (targetOf se % 1024)) = none)
    (hf : scanParams se (fields s1 (targetOf se % 1024)) = none) :
    instCmd p se sel create ownAf okState own fields run s =
      journalled s1 (run s1 (targetOf se % 1024)).1 p se (run s1 (targetOf se % 1024)).2 := by
  simp only [instCmd]
  rw [adminRow_taken h]
  simp only [hr, hf]

/-- A refused command changes nothing but the journal. -/
theorem instCmd_refused {s s1 : State} {p : Nat} {se : Bytes} {sel : Bytes → Bool} {create ownAf : Bool} {okState : InstState → Bool}
    {own : State → Nat → List (Bool × Reply)} {fields : State → Nat → List (Nat × Nat × Bool)}
    {run : State → Nat → State × Reply} {r : Reply} (h : adminTake s p se sel = (s1, true))
    (hr : firstReply (baseChecks s1 p se false true false ++
        [ (ownAf && targetOf se % 1024 % 256 == 0, aState 0x12),
          (!vfEnabled s1 (targetOf se % 1024) && (create || instState s1 (targetOf se % 1024) == .absent), aState 0x11),
          (secondFace s1 (targetOf se % 1024), aState 0x26), (!okState (instState s1 (targetOf se % 1024)), aState 0x10) ]
        ++ lifeChecks s1 false false ++ own s1 (targetOf se % 1024)) = some r) :
    instCmd p se sel create ownAf okState own fields run s = journalled s1 s1 p se r := by
  simp only [instCmd]
  rw [adminRow_taken h]
  simp only [hr]

/-- The first refusal that holds is the answer; with none that holds the command runs. -/
theorem firstReply_none_iff (l : List (Bool × Reply)) : firstReply l = none ↔ ∀ x ∈ l, x.1 = false := by
  induction l with
  | nil => simp [firstReply]
  | cons x l ih =>
    obtain ⟨b, r⟩ := x
    cases b <;> simp [firstReply, ih]

theorem firstReply_append (l m : List (Bool × Reply)) (h : ∀ x ∈ l, x.1 = false) : firstReply (l ++ m) = firstReply m := by
  induction l with
  | nil => rfl
  | cons x l ih =>
    obtain ⟨b, r⟩ := x
    have hb : b = false := h (b, r) (by simp)
    subst hb
    exact ih fun y hy => h y (by simp [hy])

/-! ### Job rows -/

/-- A row for a job that cannot run now, or for another kind of job, changes nothing. -/
theorem runPart_idle {s : State} {j : Nat} {u : Upset} {sel draws : Job → Bool}
    {f : State → Job → Bytes → State × Option JobResult} (h : ∀ x, s.job? j = some x → runnable s x = false ∨ sel x = false) :
    runPart s j u sel draws f = s := by
  simp only [runPart]
  split
  · rfl
  · rename_i x hx
    rcases h x hx with h | h <;> simp [h]

/-- An upset of another kind is no mismatch in the vault. -/
@[simp] theorem strikeVault_none (s : State) (j : Job) : strikeVault s j .none = (s, false) := rfl
@[simp] theorem strikeVault_glitch (s : State) (j : Job) : strikeVault s j .glitch = (s, false) := rfl
@[simp] theorem strikeVault_pairwise (s : State) (j : Job) : strikeVault s j .pairwise = (s, false) := rfl
@[simp] theorem strikeVault_rsaCheck (s : State) (j : Job) : strikeVault s j .rsaCheck = (s, false) := rfl
@[simp] theorem strikeVault_readBack (s : State) (j : Job) : strikeVault s j .readBack = (s, false) := rfl

/-- A mismatch that costs the job ends it. -/
theorem runPart_struck {s s1 : State} {j : Nat} {x : Job} {u : Upset} {sel draws : Job → Bool}
    {f : State → Job → Bytes → State × Option JobResult} (hj : s.job? j = some x) (hr : runnable s x = true) (hs : sel x = true)
    (hv : strikeVault s x u = (s1, true)) : runPart s j u sel draws f = finalCommit s1 j (errR 0x0600 0x50) := by
  simp [runPart, hj, hr, hs, hv]

/-- A row for a job whose slice runs, with its input read, no object of it lost, its DRBG up where it counts and what it needs of
the MXU collected, does what `f` says. -/
theorem runPart_runs {s s0 s1 : State} {j : Nat} {x : Job} {u : Upset} {inp : Bytes} {sel draws : Job → Bool}
    {f : State → Job → Bytes → State × Option JobResult} (hj : s.job? j = some x) (hr : runnable s x = true) (hs : sel x = true)
    (hv : strikeVault s x u = (s0, false)) (hq : (usesQuarantined s0 x && !destroys x) = false)
    (hi : jobInput s0 x = (s1, some inp)) (hd : (drbgDown s1 x && draws x) = false) (hk : (drbgDown s1 x && runsMasked x) = false)
    (hm : mxuReady s1 x inp = true) :
    runPart s j u sel draws f = match f s1 x inp with
      | (t, some r) => finalCommit t j r
      | (t, none) => t := by
  rcases hf : f s1 x inp with ⟨t, _ | r⟩ <;> simp [runPart, hj, hr, hs, hv, hq, hi, hd, hk, hm, hf]

theorem runJob_runs {s s0 s1 : State} {j : Nat} {x : Job} {u : Upset} {inp : Bytes} {sel draws : Job → Bool}
    {f : State → Job → Bytes → State × JobResult} (hj : s.job? j = some x) (hr : runnable s x = true) (hs : sel x = true)
    (hv : strikeVault s x u = (s0, false)) (hq : (usesQuarantined s0 x && !destroys x) = false)
    (hi : jobInput s0 x = (s1, some inp)) (hd : (drbgDown s1 x && draws x) = false) (hk : (drbgDown s1 x && runsMasked x) = false)
    (hm : mxuReady s1 x inp = true) :
    runJob s j u sel draws f = finalCommit (f s1 x inp).1 j (f s1 x inp).2 := by
  rw [runJob, runPart_runs hj hr hs hv hq hi hd hk hm]

/-- With no upset a decision taken twice is the decision. -/
@[simp] theorem decided_none (s : State) (j : Job) (r : JobResult) : decided s j .none r = (s, r) := rfl

/-- A result changes neither who a job is nor what it waits for. -/
@[simp] theorem Job.reach_id (x : Job) (r : JobResult) (t : Nat) : (x.reach r t).id = x.id := by
  simp only [Job.reach]; split <;> rfl

@[simp] theorem Job.reach_dep (x : Job) (r : JobResult) (t : Nat) : (x.reach r t).dep = x.dep := by
  simp only [Job.reach]; split <;> rfl

/-- The final commit of an unconfirmed job is held: the result stands in the job alone (R276, R279). -/
theorem finalCommit_held {s : State} {j : Nat} {x : Job} {r : JobResult} (h : (leaveMxu s j).job? j = some x)
    (hc : x.confirmed = false) : finalCommit s j r = (leaveMxu s j).updJob j fun x => x.reach r (now s) := by
  simp only [finalCommit]
  rw [State.job?_updJob _ _ _ fun x => Job.reach_id .., h]
  simp only [Option.map_some, Job.confirmed, Job.reach_dep] at hc ⊢
  simp only [hc, Bool.false_eq_true, if_false]

/-! ### Instructions of a slice (R291, R325) -/

theorem enterRun_of {s : State} {j : Job} {r : Run} (h : s.run? j.id = some r) : enterRun s j = (s, some r) := by
  simp [enterRun, h]

/-- An instruction that stands at the PC of a job whose slice runs now does what its own definition says. -/
theorem engineStep_runs {s : State} {id word : Nat} {j : Job} {r : Run} {f : Eng → Ev} (hj : s.job? id = some j)
    (hs : inSlice s j = true) (hr : s.run? id = some r) (hp : r.paused = false) (hw : fetches s j r word = true) :
    engineStep s id word f = settle s j r (f { s := s, j := j, r := r }) := by
  have hid : j.id = id := State.job?_id hj
  simp [engineStep, hj, hs, enterRun_of (hid ▸ hr), hp, hw]

/-- No slice on an engine now: the row changes nothing. -/
theorem engineStep_idle {s : State} {id word : Nat} {f : Eng → Ev} (h : ∀ j, s.job? id = some j → inSlice s j = false) :
    engineStep s id word f = s := by
  simp only [engineStep]
  split
  · rfl
  · rename_i j hj
    simp [h j hj]

/-- An instruction that is not the one at the PC changes nothing. -/
theorem engineStep_other {s : State} {id word : Nat} {j : Job} {r : Run} {f : Eng → Ev} (hj : s.job? id = some j)
    (hr : s.run? id = some r) (hw : fetches s j r word = false) : engineStep s id word f = s := by
  have hid : j.id = id := State.job?_id hj
  simp only [engineStep, hj, enterRun_of (hid ▸ hr), hw]
  simp

/-- The outcomes of an instruction: it goes on, ends its job, stalls, or faults. -/
theorem settle_next (s : State) (j : Job) (r : Run) (e : Eng) : settle s j r (.next e) = e.s.putRun e.r := rfl

theorem settle_stall (s : State) (j : Job) (r : Run) : settle s j r (.halt .stall) = s := rfl

/-- The first engine fault from a commit point abandons the slice (R325). -/
theorem engineFault_first {s : State} {j : Job} {r : Run} {h : Halt} (h0 : j.strikes = 0) :
    engineFault s j r h = (abandonSlice (s.putRun r.restore) j.id).updJob j.id fun x => { x with strikes := 1 } := by
  simp [engineFault, h0]

/-! ### The microsequencer (R339 to R341) -/

/-- A microword that stands at the sequencer's address moves the sequencer as its definition says. -/
theorem microStep_runs {s : State} {q sq a : Nat} {w : MicroWord} {j : Job} {n : Nat × Nat} {st : List Nat}
    {f : Nat → List Nat → Nat × Nat → Except MicroHalt (Nat × List Nat)} {g : Job → State → State} (hj : seqJob s q = some j)
    (hs : s.service = true) (hq : q < 288) (hw : stands s q (s.seq q).upc w sq = true)
    (hd : (w.isSecret && drbgDown s j) = false)
    (hn : nanoOf s q (bankOf (s.seq q).upc) w.nano = some n) (hf : f (s.seq q).upc (s.seq q).stack n = .ok (a, st)) :
    microStep s q w sq f g = g j (s.putSeq { s.seq q with upc := trapMatch s q a, stack := st }) := by
  simp [microStep, hj, hs, hw, hd, hn, hf, Nat.not_le.2 hq]

end Sys2Proof.Machine
end

