-- ==== Sys2Proof/WellFormed.lean ====
section
/-! DEFINITION. Which commands a sender can send: every operand in the range the spec gives it. The meanings are total
all the same: a value out of range names nothing, or is read modulo its width. -/

namespace Sys2Proof

/-- A host port (R474). -/
def hostPortOk (p : Nat) : Bool := decide (p < 4)

/-- A function of a port: 256 x port + function (R98). -/
def fnOk (f : Nat) : Bool := decide (f < 1024)

/-- A queue of an instance: 0 to 511 (R51). -/
def queueOk (i q : Nat) : Bool := fnOk i && decide (q < 512)

/-- A submission entry: 64 bytes (R51). -/
def seOk (se : Bytes) : Bool := decide (se.length = 64)

/-- A 32-bit value. -/
def wordOk (v : Nat) : Bool := decide (v < 2 ^ 32)

/-- A write of `w` bytes: 1, 2, 4 or 8 (R10). -/
def wideOk (w v : Nat) : Bool := (w == 1 || w == 2 || w == 4 || w == 8) && decide (v < 2 ^ (8 * w))

/-- A junction temperature in degrees Celsius that an 8-bit reading can hold. -/
def tempOk (t : Int) : Bool := decide (-128 ≤ t) && decide (t < 128)

/-- A grove (R1). -/
def groveOk (g : Nat) : Bool := decide (g < 16)

/-- A tether link (R445). -/
def linkOk (l : Nat) : Bool := decide (l < 8)

/-- The specifier bytes and extension words of an Alada-M instruction (R443). -/
def mopsOk (o : MOps) : Bool :=
  decide (o.s1 < 256) && decide (o.s2 < 256) && decide (o.s3 < 256) && decide (o.e1 < 2 ^ 32) && decide (o.e2 < 2 ^ 32)
    && decide (o.e3 < 2 ^ 32)

/-- A microsequencer: 272 engines, 16 MXUs (R335). -/
def seqOk (q : Nat) : Bool := decide (q < 288)

/-- The fields of a microword in their widths (Table 12.2). -/
def fieldsOk (w : MicroWord) : Bool :=
  decide (w.nano < 4096) && decide (w.cond < 16) && decide (w.stretch < 4)

/-- A message: its link, the members it names, its 64-bit counter, its body (Table 17.7). -/
def msgOk (m : TMsg) : Bool :=
  linkOk m.link && decide (m.src < 256) && decide (m.dst < 256) && decide (m.ctr < 2 ^ 64) && decide (1 ≤ m.body.length)

/-- What the straps and the regulator can say at a boot (R501, R503). -/
def bootOk (e : BootEnv) : Bool := decide (e.role < 4) && decide (e.split < 4) && decide (e.mgAddr < 8)

/-- Is the command in range? -/
def Instr.wf : Instr → Bool
  | .sqDoorbell face _ width value => fnOk face && wideOk width value
  | .cqDoorbell face _ width value => fnOk face && wideOk width value
  | .seFetch inst q pos => queueOk inst q && decide (pos < 2 ^ 32)
  | .jobDispatch inst q cy => queueOk inst q && decide (cy < 1000)
  | .pendingTimeout _ => true
  | .tickBoundary tj => tempOk tj
  | .jobRelease _ => true
  | .cqInterrupt inst q => fnOk inst && decide (q < 516)
  | .cqStarved inst q => queueOk inst q
  | .sliceOverrun _ => true
  | .vectorPowerDown engine => decide (engine < 272)
  | .sqCreate p se => hostPortOk p && seOk se
  | .sqDelete p se => hostPortOk p && seOk se
  | .sqDeleteDrained inst q => queueOk inst q
  | .cqCreate p se => hostPortOk p && seOk se
  | .cqDelete p se => hostPortOk p && seOk se
  | .sqRestart p se => hostPortOk p && seOk se
  | .cqRestart p se => hostPortOk p && seOk se
  | .cqModify p se => hostPortOk p && seOk se
  | .sqModify p se => hostPortOk p && seOk se
  | .instanceCreate p se => hostPortOk p && seOk se
  | .instanceQuiesce p se => hostPortOk p && seOk se
  | .quiesceDrained inst => fnOk inst
  | .instanceResume p se => hostPortOk p && seOk se
  | .instanceReset p se => hostPortOk p && seOk se
  | .instanceRemove p se => hostPortOk p && seOk se
  | .instanceSetResources p se => hostPortOk p && seOk se
  | .instanceGet p se => hostPortOk p && seOk se
  | .datuSetRoot p se => hostPortOk p && seOk se
  | .datuInvalidate p se => hostPortOk p && seOk se
  | .dirtyLogStart p se => hostPortOk p && seOk se
  | .dirtyLogStop p se => hostPortOk p && seOk se
  | .dirtyLogHarvest p se => hostPortOk p && seOk se
  | .jobAbort p se => hostPortOk p && seOk se
  | .dumpBufferSet p se => hostPortOk p && seOk se
  | .healthGet p se => hostPortOk p && seOk se
  | .healthGetRetire p se => hostPortOk p && seOk se
  | .faultSeveritySet p se => hostPortOk p && seOk se
  | .attest p se => hostPortOk p && seOk se
  | .lcsTransition p se _ => hostPortOk p && seOk se
  | .graftInfo p se => hostPortOk p && seOk se
  | .canopyConfigLoad p se => hostPortOk p && seOk se.1
  | .canopyConfigDissolve p se => hostPortOk p && seOk se
  | .canopyConfigTenantBind p se => hostPortOk p && seOk se
  | .envelopeSetQuery p se => hostPortOk p && seOk se
  | .envelopeSet p se => hostPortOk p && seOk se
  | .primaryDelegate p se => hostPortOk p && seOk se
  | .portPairUnpair p se => hostPortOk p && seOk se
  | .portPairPair p se => hostPortOk p && seOk se
  | .portPairReturn p se => hostPortOk p && seOk se
  | .kemKeygen _ _ => true
  | .kemEncaps _ _ => true
  | .kemDecaps _ _ => true
  | .sigKeygen _ _ => true
  | .sigSign _ _ => true
  | .sigVerify _ _ => true
  | .dhKeygen _ _ => true
  | .dhDerive _ _ => true
  | .rsaKeygen _ _ => true
  | .rsaSign _ _ => true
  | .rsaVerify _ _ => true
  | .rsaDecrypt _ _ => true
  | .rsaEncrypt _ _ => true
  | .digest _ _ => true
  | .digestStart _ _ => true
  | .digestUpdate _ _ => true
  | .digestRead _ _ => true
  | .digestFinal _ _ => true
  | .digestDiscard _ _ => true
  | .mac _ _ => true
  | .macVerify _ _ => true
  | .kdf _ _ => true
  | .aeadSeal _ _ => true
  | .aeadOpen _ _ => true
  | .rng _ _ => true
  | .keyImport _ _ => true
  | .keyGenerate _ _ => true
  | .keyExport _ _ => true
  | .keyDestroy _ _ => true
  | .keyGetPublic _ _ => true
  | .ctxDerive _ _ => true
  | .ctxExport _ _ => true
  | .ctxDestroy _ _ => true
  | .clientInit _ _ => true
  | .serverRespond _ _ => true
  | .clientFinish _ _ => true
  | .routineCall _ n => decide (n < 4096)
  | .shelfWrite idx => decide (idx < 262144)
  | .validate _ _ => true
  | .rsaPriv _ _ => true
  | .rsaPub _ _ => true
  | .rsaGen _ _ => true
  | .ecGen _ _ => true
  | .ecSign _ _ => true
  | .ecVerify _ _ => true
  | .ecDerive _ _ => true
  | .validationResult _ => true
  | .alNop _ => true
  | .alDup _ => true
  | .alDrop _ => true
  | .alSwap _ => true
  | .alOver _ => true
  | .alRot _ => true
  | .alTor _ => true
  | .alFromr _ => true
  | .alRcopy _ => true
  | .alDepth _ => true
  | .alAdd _ => true
  | .alSub _ => true
  | .alAnd _ => true
  | .alOr _ => true
  | .alXor _ => true
  | .alInv _ => true
  | .alShl _ => true
  | .alShr _ => true
  | .alSar _ => true
  | .alMul _ => true
  | .alMulhu _ => true
  | .alEq _ => true
  | .alUlt _ => true
  | .alLt _ => true
  | .alCsel _ => true
  | .alFetch _ => true
  | .alStore _ => true
  | .alFetchh _ => true
  | .alStoreh _ => true
  | .alFetchb _ => true
  | .alStoreb _ => true
  | .alIfetch _ => true
  | .alRet _ => true
  | .alCallt _ => true
  | .alCommit _ => true
  | .alYield _ => true
  | .alEnd _ => true
  | .alLit _ imm => decide (imm < 4096)
  | .alLitx _ imm => decide (imm < 4096)
  | .alBr _ off => decide (off < 1024)
  | .alBz _ off => decide (off < 1024)
  | .alBnz _ off => decide (off < 1024)
  | .alDbnz _ off => decide (off < 1024)
  | .alCall _ k => decide (k < 4096)
  | .alIn _ p => decide (p < 256)
  | .alOut _ p => decide (p < 256)
  | .keyReq _ _ => true
  | .keyDeliveryDone _ => true
  | .hsInit _ => true
  | .hsPad _ => true
  | .hsIn _ => true
  | .hsInb _ => true
  | .hsOut _ => true
  | .hashPermutationDone _ k => decide (k < 4)
  | .drbgRead _ => true
  | .vqWrite _ => true
  | .vcfgWrite _ => true
  | .vfaultFill _ => true
  | .mboxCmd _ => true
  | .declGo _ => true
  | .gateSeal _ => true
  | .gateTag _ => true
  | .gateRandom _ => true
  | .svLd _ sd ss => decide (sd < 16) && decide (ss < 16)
  | .svSt _ sd ss => decide (sd < 16) && decide (ss < 16)
  | .svAdd _ sd ss => decide (sd < 16) && decide (ss < 16)
  | .svSub _ sd ss => decide (sd < 16) && decide (ss < 16)
  | .svMul _ sd ss => decide (sd < 16) && decide (ss < 16)
  | .svAnd _ sd ss => decide (sd < 16) && decide (ss < 16)
  | .svOr _ sd ss => decide (sd < 16) && decide (ss < 16)
  | .svXor _ sd ss => decide (sd < 16) && decide (ss < 16)
  | .svShl _ sd ss => decide (sd < 16) && decide (ss < 16)
  | .svShr _ sd ss => decide (sd < 16) && decide (ss < 16)
  | .svRotl _ sd ss => decide (sd < 16) && decide (ss < 16)
  | .svCmov _ sd ss => decide (sd < 16) && decide (ss < 16)
  | .svMov _ sd ss => decide (sd < 16) && decide (ss < 16)
  | .svZero _ sd ss => decide (sd < 16) && decide (ss < 16)
  | .svShuf _ sd ss => decide (sd < 16) && decide (ss < 16)
  | .svAesr _ sd ss => decide (sd < 16) && decide (ss < 16)
  | .svAeslr _ sd ss => decide (sd < 16) && decide (ss < 16)
  | .svClmul _ sd ss => decide (sd < 16) && decide (ss < 16)
  | .svTos _ sd ss => decide (sd < 16) && decide (ss < 16)
  | .svFroms _ sd ss => decide (sd < 16) && decide (ss < 16)
  | .lvLd _ m ld ls => decide (m < 4) && decide (ld < 8) && decide (ls < 8)
  | .lvSt _ m ld ls => decide (m < 4) && decide (ld < 8) && decide (ls < 8)
  | .lvGather _ m ld ls => decide (m < 4) && decide (ld < 8) && decide (ls < 8)
  | .lvScatter _ m ld ls => decide (m < 4) && decide (ld < 8) && decide (ls < 8)
  | .lvAddm _ m ld ls => decide (m < 4) && decide (ld < 8) && decide (ls < 8)
  | .lvSubm _ m ld ls => decide (m < 4) && decide (ld < 8) && decide (ls < 8)
  | .lvMulm _ m ld ls => decide (m < 4) && decide (ld < 8) && decide (ls < 8)
  | .lvPmul _ m ld ls => decide (m < 4) && decide (ld < 8) && decide (ls < 8)
  | .lvBfly _ m ld ls => decide (m < 4) && decide (ld < 8) && decide (ls < 8)
  | .lvComp _ m ld ls => decide (m < 4) && decide (ld < 8) && decide (ls < 8)
  | .lvSamu _ m ld ls => decide (m < 4) && decide (ld < 8) && decide (ls < 8)
  | .lvSamcbd _ m ld ls => decide (m < 4) && decide (ld < 8) && decide (ls < 8)
  | .lvCmov _ m ld ls => decide (m < 4) && decide (ld < 8) && decide (ls < 8)
  | .lvPerm _ m ld ls => decide (m < 4) && decide (ld < 8) && decide (ls < 8)
  | .lvSad _ m ld ls _ => decide (m < 4) && decide (ld < 8) && decide (ls < 8)
  | .lvSsd _ m ld ls => decide (m < 4) && decide (ld < 8) && decide (ls < 8)
  | .lvOvb _ m ld ls => decide (m < 4) && decide (ld < 8) && decide (ls < 8)
  | .lvMov _ m ld ls => decide (m < 4) && decide (ld < 8) && decide (ls < 8)
  | .lvZero _ m ld ls => decide (m < 4) && decide (ld < 8) && decide (ls < 8)
  | .lvLogic _ m ld ls => decide (m < 4) && decide (ld < 8) && decide (ls < 8)
  | .lvAdd _ m ld ls => decide (m < 4) && decide (ld < 8) && decide (ls < 8)
  | .microNext q w => seqOk q && fieldsOk w
  | .microJump q w => seqOk q && fieldsOk w
  | .microMbranch q w c _ => seqOk q && fieldsOk w && decide (c < 16)
  | .microCall q w => seqOk q && fieldsOk w
  | .microReturn q w => seqOk q && fieldsOk w
  | .microCommit q w => seqOk q && fieldsOk w
  | .microYield q w => seqOk q && fieldsOk w
  | .microEnd q w => seqOk q && fieldsOk w
  | .microXjump q w => seqOk q && fieldsOk w
  | .microXcall q w => seqOk q && fieldsOk w
  | .microWait q w c _ => seqOk q && fieldsOk w && decide (c < 16)
  | .microDispatch q w => seqOk q && fieldsOk w
  | .aladaMMov o => mopsOk o
  | .aladaMAdd o => mopsOk o
  | .aladaMSub o => mopsOk o
  | .aladaMAnd o => mopsOk o
  | .aladaMOr o => mopsOk o
  | .aladaMXor o => mopsOk o
  | .aladaMShl o => mopsOk o
  | .aladaMShr o => mopsOk o
  | .aladaMSar o => mopsOk o
  | .aladaMMul o => mopsOk o
  | .aladaMMulhu o => mopsOk o
  | .aladaMDivu o => mopsOk o
  | .aladaMRemu o => mopsOk o
  | .aladaMBeq o => mopsOk o
  | .aladaMBne o => mopsOk o
  | .aladaMBltu o => mopsOk o
  | .aladaMBlt o => mopsOk o
  | .aladaMJmp o => mopsOk o
  | .aladaMCall o => mopsOk o
  | .aladaMCopy o => mopsOk o
  | .aladaMFill o => mopsOk o
  | .aladaMWait o => mopsOk o
  | .aladaMLea o => mopsOk o
  | .registerWrite p off width value => hostPortOk p && decide (off < 65536) && wideOk width value
  | .tickCountLoRead p => hostPortOk p
  | .cfgRejectClear p value => hostPortOk p && wordOk value
  | .admqEnable p => hostPortOk p
  | .admqDisable p => hostPortOk p
  | .admqSqDb p value => hostPortOk p && wordOk value
  | .admqCqDb p value => hostPortOk p && wordOk value
  | .healthEpochRead p lag => hostPortOk p && decide (lag < 3)
  | .faultInjGo p value => hostPortOk p && wordOk value
  | .graftStageOpen p value => hostPortOk p && wordOk value
  | .graftStageData p value => hostPortOk p && wordOk value
  | .graftStageCommit p value => hostPortOk p && wordOk value.1
  | .graftStageAbandon p value => hostPortOk p && wordOk value
  | .graftStageDone _ => true
  | .specClear p => hostPortOk p
  | .specCounterLoRead p k => hostPortOk p && decide (k < 7)
  | .perfClear p => hostPortOk p
  | .perfCounterLoRead p k => hostPortOk p && decide (k < 7)
  | .hwdTimeLoRead p => hostPortOk p
  | .hwdTmpCfgWrite p value => hostPortOk p && wordOk value
  | .hwdRecFlush p value => hostPortOk p && wordOk value
  | .hwdRecClear p value => hostPortOk p && wordOk value
  | .hwdRecWindow7Read p => hostPortOk p
  | .hwdSnapManual p value => hostPortOk p && wordOk value
  | .hwdSnapWindow7Read p => hostPortOk p
  | .throttleClear p value => hostPortOk p && wordOk value
  | .tetherRetrain p value => hostPortOk p && wordOk value
  | .tetherTickOffLoRead p => hostPortOk p
  | .datuFaultClear p => hostPortOk p
  | .powerUp env => bootOk env
  | .resetNFall => true
  | .resetNRise env => bootOk env
  | .pwrFailN => true
  | .brownOut => true
  | .supplyOutOfRange i _ => decide (i < 6)
  | .eccError _ => true
  | .fatalStateDump => true
  | .pllLockLoss i => decide (i < 2)
  | .pllSwitchoverDone => true
  | .lockstepMismatch => true
  | .stewardResetDone => true
  | .vaultChannelLoss c => decide (c < 2)
  | .vaultCopyBackDone c => decide (c < 2)
  | .drbgReseed g => groveOk g
  | .drbgErrorState g => groveOk g
  | .noiseSample i _ => decide (i < 4)
  | .noiseReadmit i => decide (i < 4)
  | .aliveToggle => true
  | .tickWrap tj => tempOk tj
  | .recorderFlush => true
  | .floorRaise _ => true
  | .lockoutExpiry => true
  | .throttleUpdate mw _ _ => wordOk mw
  | .thermalLimitUpdate => true
  | .tamperSample ch _ detail lights => decide (ch < 16) && decide (detail < 65536) && decide (lights < 65536)
  | .tamperDecision second => decide ((second.getD 0) < 5)
  | .supplySourceChange _ vbak => decide (vbak < 10000)
  | .heartwoodStateLoss => true
  | .jtagLcsCmd params _ => decide (params.length < 8192)
  | .dbgChallenge => true
  | .dbgResponse r _ => decide (r.length < 8192)
  | .extest => true
  | .mgStateReport => true
  | .mgHealthSummary => true
  | .mgTj => true
  | .mgPower => true
  | .alertResponse => true
  | .i3cIbiAck => true
  | .configRequest p fn _ => hostPortOk p && decide (fn < 256)
  | .vfEnableSet p n => hostPortOk p && decide (n < 256)
  | .vfEnableClear p => hostPortOk p
  | .functionLevelReset inst => fnOk inst
  | .busMasterDisable fn => fnOk fn.1
  | .busMasterEnable fn => fnOk fn
  | .vectorUnmask inst v addr data => fnOk inst && decide (v < 2048) && decide (addr < 2 ^ 64) && wordOk data
  | .hostReadCompletion p _ _ => hostPortOk p
  | .completionTimeout p _ => hostPortOk p
  | .portReset p => hostPortOk p
  | .hostLinkTrained p speed width => hostPortOk p && decide (speed < 8) && decide (width < 32)
  | .hostLinkRetry p => hostPortOk p
  | .hostLinkDown p _ => hostPortOk p
  | .hostLaneDegrade p speed width lane => hostPortOk p && decide (speed < 8) && decide (width < 32) && decide (lane < 16)
  | .tetherLinkTrained l width => linkOk l && decide (width < 5)
  | .tetherLaneFail l lane => linkOk l && decide (lane < 4)
  | .discoveryRetry l => linkOk l
  | .heartbeatDue => true
  | .tickSyncDue => true
  | .memberLostTimeout d => decide (d < 16)
  | .managerLostTimeout => true
  | .tetherJob m => msgOk m
  | .tetherResult m => msgOk m
  | .ctxMoveTransfer m => msgOk m
  | .ctxMoveAccept m => msgOk m
  | .ctxMoveRefuse m => msgOk m
  | .tetherTick m _ => msgOk m
  | .tetherFence m => msgOk m
  | .healthCharter m => msgOk m.1
  | .healthJoin m => msgOk m
  | .healthAdmit m => msgOk m
  | .healthBeat m => msgOk m
  | .healthTakeover m => msgOk m
  | .healthLost m => msgOk m
  | .healthKeyAdd m => msgOk m
  | .healthKeyDrop m => msgOk m
  | .healthDissolve m => msgOk m
  | .cancelConfirm m => msgOk m
  | .cancelWithdraw m => msgOk m
  | .flitReceive l flit => linkOk l && decide (flit.length = 256)
  | .vaultChannelReturn c => decide (c < 2)
  | .avsUpdate setpoint => decide (setpoint < 65536)
  | .pwrFailNRelease env => bootOk env
  | .xtal32Stop => true
  | .xtal32Restart => true
  | .unassignedEncoding _ w => decide (w < 65536)

/-- A well-formed command. -/
abbrev Instr.WellFormed (i : Instr) : Prop := i.wf = true

end Sys2Proof
end

