-- ==== Sys2Proof/Tests/Slice0.lean ====
section
/-! SUPPORT. Own tests: a smoke test of each check of WellFormed, small tests of single commands whose expected results come from
the spec, and for every statement with hypotheses a theorem `test_met_<statement>`: the hypotheses of each of its clauses, all
together, hold of the concrete state and operands that stand there. -/

set_option maxRecDepth 10000
set_option Elab.async false

namespace Sys2Proof.Tests

open Sys2Proof Sys2Proof.Machine Sys2Proof.Claims

/-! ### States that tests start from -/

/-- A host port in service. -/
def upPort : Port :=
  { Port.reset with present := true, maxWidth := 16, dlUp := true, l0 := true, speed := 5, linkWidth := 16,
                    vfEnable := true, numVfs := 4,
                    specHi := List.replicate 7 0, perfHi := List.replicate 6 0 }

/-- An instance in service. -/
def someInst (i : Nat) : Inst :=
  { (default : Inst) with id := i, state := .active, engineWeight := 4, inflightLimit := 8, queueLimit := 8, sprintRate := 1,
                          ctxQuota := 16, keyQuota := 16, tokens := 4, mode := .bypass, width := 39 }

/-- An SQ of 16 entries with positions `h` and `t`. -/
def someSq (i q h t : Nat) : Sq :=
  { (default : Sq) with inst := i, num := q, base := 0x10000, log2n := 4, weight := 1, cq := 0, head := h, tail := t, state := .active }

/-- A CQ of 16 entries with head and tail, its unreleased CEs posted at boundary 5. -/
def someCq (i q h t : Nat) : Cq :=
  { (default : Cq) with inst := i, num := q, base := 0x20000, log2n := 4, vector := 0, coalCount := 1, coalTicks := 0, tail := t,
                        head := h, state := .active, posted := List.replicate (t - h) 5 }

/-- The device in service at boundary 100, PROVISIONED and SOLO, with the AF instance 0 and the TF instance 1. -/
def live : State :=
  { State.reset with
    pins.resetN := true, pins.boot := 8, tick.running := true, tick.count := 100, hwd.vdd := true, hwd.vbak := 3000,
    hwd.key := some (zeros 32), hwd.keyCopy := some (zeros 32), hwd.lost := false, vault.keys := some (zeros 64, zeros 32),
    ports := List.replicate 4 upPort, busMaster := [0, 1, 256, 512, 768],
    insts := [someInst 0, someInst 1], groves := List.replicate 16 { Grove.reset with drbgUp := true } }

/-- In service, with an SQ and a CQ of instance 0. -/
def queued (h t : Nat) : State := { live with work.sqs := [someSq 0 0 h t], work.cqs := [someCq 0 0 0 0] }

/-- The state a command answers. -/
def post (o : Host.Outcome State Fault Refusal) : State := match o with
  | .next t => t
  | _ => State.reset

/-- Does a command answer exactly this next state? -/
def answers (o : Host.Outcome State Fault Refusal) (t : State) : Bool := match o with
  | .next u => decide (u = t)
  | _ => false

/-! ### Well-formedness: a term that each check refuses, and terms that pass -/

/-- A control word with its fields in range. -/
def plainWord : MicroWord := { nano := 0, cond := 0, stretch := 0, isSecret := false }

/-- A message with its fields in range. -/
def plainMsg : TMsg := { link := 0, src := 1, dst := 0, ctr := 0, ok := true, body := [0] }

/-- Operands in range. -/
def plainOps : MOps := { s1 := 0, s2 := 0, s3 := 0, e1 := 0, e2 := 0, e3 := 0 }

/-- A boot with its straps in range. -/
def plainBoot : BootEnv :=
  { role := 0, split := 0, mgAddr := 0, selfTest := false, fwA := none, fwB := none, failed := [], avs := true, glitch := none,
    flash := [] }

/-- Host ports 0 to 3, functions 0 to 1023, queues 0 to 511, entries of 64 bytes, 32-bit values, writes of 1, 2, 4 or 8 bytes. -/
theorem test_wf_refuses_host_operands :
    ([.sqCreate 4 (List.replicate 64 0), .sqCreate 0 (List.replicate 63 0), .functionLevelReset 1024, .seFetch 0 512 0,
      .seFetch 1024 0 0, .seFetch 0 0 (2 ^ 32), .jobDispatch 0 0 1000, .admqSqDb 0 (2 ^ 32), .sqDoorbell 0 0 3 0, .sqDoorbell 0 0 1 256,
      .sqDoorbell 1024 0 4 0, .registerWrite 0 65536 4 0, .cqInterrupt 0 516, .healthEpochRead 0 3, .specCounterLoRead 0 7,
      .perfCounterLoRead 0 7, .vfEnableSet 0 256, .vectorUnmask 0 2048 0 0, .vectorUnmask 0 0 (2 ^ 64) 0, .hostLinkTrained 0 8 16,
      .hostLinkTrained 0 5 32, .hostLaneDegrade 0 5 16 16, .configRequest 0 256 (.read 0)] : List Instr).all
        (fun i => !i.wf) = true := by decide +kernel

/-- Engines, microsequencers, stores and the fields of instruction words. -/
theorem test_wf_refuses_engine_operands :
    ([.vectorPowerDown 272, .routineCall 0 4096, .shelfWrite 262144, .alLit 0 4096, .alLitx 0 4096, .alBr 0 1024, .alBz 0 1024,
      .alBnz 0 1024, .alDbnz 0 1024, .alCall 0 4096, .alIn 0 256, .alOut 0 256, .hashPermutationDone 0 4, .svLd 0 16 0, .svLd 0 0 16,
      .lvLd 0 4 0 0, .lvLd 0 0 8 0, .lvLd 0 0 0 8, .unassignedEncoding 0 65536, .microNext 288 plainWord,
      .microNext 0 { plainWord with nano := 4096 }, .microNext 0 { plainWord with cond := 16 },
      .microNext 0 { plainWord with stretch := 4 }, .microMbranch 0 plainWord 16 true] : List Instr).all
        (fun i => !i.wf) = true := by decide +kernel

/-- Units, measurements, straps, tether messages and the operands of the supervisor's instructions. -/
theorem test_wf_refuses_device_operands :
    ([.tickBoundary 128, .tickBoundary (-129), .powerUp { plainBoot with role := 4 }, .powerUp { plainBoot with split := 4 },
      .powerUp { plainBoot with mgAddr := 8 }, .supplyOutOfRange 6 true, .pllLockLoss 2, .vaultChannelLoss 2, .vaultChannelReturn 2,
      .vaultCopyBackDone 2, .drbgReseed 16, .noiseSample 4 true, .noiseReadmit 4, .throttleUpdate (2 ^ 32) true true,
      .tamperSample 16 true 0 0, .tamperSample 0 true 65536 0, .tamperSample 0 true 0 65536, .tamperDecision (some 5),
      .supplySourceChange true 10000, .jtagLcsCmd (List.replicate 8192 0) default, .dbgResponse (List.replicate 8192 0) false,
      .discoveryRetry 8, .tetherLinkTrained 0 5, .tetherLaneFail 0 4, .memberLostTimeout 16, .flitReceive 0 [], .avsUpdate 65536,
      .tetherJob { plainMsg with link := 8 }, .tetherJob { plainMsg with src := 256 }, .tetherJob { plainMsg with dst := 256 },
      .tetherJob { plainMsg with ctr := 2 ^ 64 }, .tetherJob { plainMsg with body := [] }, .aladaMJmp { plainOps with s1 := 256 },
      .aladaMJmp { plainOps with s2 := 256 }, .aladaMJmp { plainOps with s3 := 256 }, .aladaMJmp { plainOps with e1 := 2 ^ 32 },
      .aladaMJmp { plainOps with e2 := 2 ^ 32 }, .aladaMJmp { plainOps with e3 := 2 ^ 32 }] : List Instr).all
        (fun i => !i.wf) = true := by decide +kernel

/-- The largest operands pass. -/
theorem test_wf_accepts :
    ([.sqCreate 3 (List.replicate 64 255), .sqDoorbell 1023 (2 ^ 40) 8 (2 ^ 64 - 1), .seFetch 1023 511 (2 ^ 32 - 1), .alBr 0 1023,
      .alLit 0 4095, .svLd 0 15 15, .lvLd 0 3 7 7, .microNext 287 { plainWord with nano := 4095, cond := 15, stretch := 3 },
      .tickBoundary 127, .tickBoundary (-128), .powerUp { plainBoot with role := 3, split := 3, mgAddr := 7 }, .tetherJob plainMsg,
      .aladaMJmp plainOps, .flitReceive 7 (List.replicate 256 0)] : List Instr).all Instr.wf = true := by decide +kernel

/-! ### Doorbells, entries, dispatch and release -/

/-- An SQ that doorbells act on, and an entry for RNG_GENERATE of 32 bytes. -/
def rings (h t : Nat) : State := { live with work.sqs := [someSq 1 511 h t], work.cqs := [someCq 1 511 h t] }
def rngSe : Bytes :=
  leBytes 1 0x38 ++ leBytes 1 3 ++ leBytes 2 9 ++ zeros 2 ++ leBytes 2 0xFFFF ++ zeros 24 ++ leBytes 8 0x40000 ++ leBytes 4 32
    ++ zeros 20

theorem test_met_sqDoorbell : ([0, 0x0001000F, 2 ^ 32 - 1].all fun v =>
    let s := rings 14 26
    s.ringing && s.instLive (faceInst s 1) && !asleep s 1 && decide (511 < 512) && decide (v < 2 ^ 32)
    && s.sq? (faceInst s 1) 511 == some (someSq 1 511 14 26) && (someSq 1 511 14 26).state.rings
    && !(someSq 1 511 14 26).deleting) = true := by decide +kernel

theorem test_met_cqDoorbell : ([0, 0x8000000F, 2 ^ 32 - 1].all fun v =>
    let s := rings 2 6
    s.ringing && s.instLive (faceInst s 1) && !asleep s 1 && decide (v < 2 ^ 32)
    && s.cq? (faceInst s 1) 511 == some (someCq 1 511 2 6) && (someCq 1 511 2 6).state.rings) = true := by decide +kernel

theorem test_met_doorbellForms :
    let s := rings 0 4
    s.ringing = true ∧ s.instLive (faceInst s 1) = true ∧ asleep s 1 = false
    -- 64 bits; another width, another alignment; a queue that does not exist
    ∧ (4088 < 4096 ∧ 4088 % 8 = 0 ∧ 2 ^ 64 - 1 < 2 ^ 64
      ∧ (let t := post (exec (.sqDoorbell 1 4088 4 ((2 ^ 64 - 1) % 2 ^ 32)) s); t.ringing = true ∧ t.instLive (faceInst t 1) = true ∧ asleep t 1 = false))
    ∧ (¬(2 = 4 ∧ 4095 % 4 = 0) ∧ ¬(2 = 8 ∧ 4095 % 8 = 0)) ∧ (¬(8 = 4 ∧ 4 % 4 = 0) ∧ ¬(8 = 8 ∧ 4 % 8 = 0))
    ∧ (8 % 8 = 0 ∧ s.sq? (faceInst s 1) (8 / 8) = none ∧ s.work.sqs.length = 1)
    ∧ (12 % 8 = 4 ∧ s.cq? (faceInst s 1) (12 / 8) = none)
    -- a queue in ERROR
    ∧ (let s : State := { s with work.sqs := [{ someSq 1 511 0 4 with state := .error }],
                                 work.cqs := [{ someCq 1 511 0 4 with state := .error }] }
       s.ringing = true ∧ 4088 % 8 = 0 ∧ (s.sq? 1 (4088 / 8)).map (·.state) = some .error ∧ s.work.sqs.length = 1
       ∧ 4092 % 8 = 4 ∧ (s.cq? 1 (4092 / 8)).map (·.state) = some .error) := by decide +kernel

/-- The state whose head entry is that request. -/
def withRng (ra : Bool) : State :=
  { queued 0 1 with hostMem := Mem.writeBytes [] 0x10000 rngSe, work.sqs := [{ someSq 0 0 0 1 with readAhead := ra }],
                    power.limit := 25, faults.map := (List.range 17).map fun i => ⟨i, .serving, 0⟩ }

theorem test_met_seFetch :
    (∀ b ∈ [false, true],
      let s := withRng b
      let x := { someSq 0 0 0 1 with readAhead := b }
      s.sq? 0 0 = some x ∧ mayFetch s x = true ∧ x.copies = []
      -- published; past the tail
      ∧ 0 < 2 * 2 ^ x.log2n ∧ dist 16 0 x.head < 16 ∧ dist 16 0 x.head < dist 16 x.tail x.head
      ∧ dist 16 15 x.head < 16 ∧ ¬dist 16 15 x.head < dist 16 x.tail x.head) := by decide +kernel

/-- The head of an SQ as JobDispatch's premises read it, with the state that leaves. -/
def headOf (s : State) (x : Sq) (h : State → Head → Bool) : Bool :=
  s.sq? x.inst x.num == some x && mayFetch s x && h (readHead s x).1 (readHead s x).2

/-- A head chain of one entry in its turn in a class, and the outcome of its fragment checks. -/
def inTurn (s : State) (x : Sq) (sprint : Bool) (h : FragOutcome → Bool) : Bool :=
  headOf s x fun s1 hd => match hd with
    | .chain ses _ =>
      let u := if sprint then s1 else newRounds s1 x.inst
      eligible s1 x == some sprint
      && (if sprint then sprintPick s1 == some (x.inst, x.num) else (eligibleSqs s1 true).isEmpty && normalTurn u x.inst x.num)
      && (match fragCheck u (jobOfChain x.inst x.num x.cq ses) with
        | (s2, o) => h o && s2.sq? x.inst x.num == some x && (s2.cq? x.inst x.cq).isSome)
    | _ => false

/-- The state whose head entry is the request altered by `f`. -/
def withEntry (f : Bytes → Bytes) : State := { withRng false with hostMem := Mem.writeBytes [] 0x10000 (f rngSe) }

theorem test_met_jobDispatch :
    let q := someSq 0 0 0 1
    let isChain (h : Head) : Bool := match h with | .chain _ _ => true | _ => false
    let sides (o : FragOutcome) : Bool := match o with | .sides _ _ => true | _ => false
    let hasty (b : Bytes) (flags : Nat) : Bytes := patch (patch b 0 [1, BitVec.ofNat 8 flags]) 4 [1, 3]
    let two (flags : Nat) : State :=
      { withEntry (hasty · 7) with
        work.sqs := [q, { someSq 0 1 0 1 with base := 0x11000 }],
        hostMem := Mem.writeBytes (Mem.writeBytes [] 0x10000 (hasty rngSe 7)) 0x11000 (hasty rngSe flags) }
    ([-- malformed, empty, and with only the first entry published
      headOf (withEntry fun b => patch b 0 [0xEE]) q (fun _ h => match h with | .bad _ _ => true | _ => false),
      headOf { withRng false with work.sqs := [someSq 0 0 0 0] } (someSq 0 0 0 0) (fun _ h => h == .empty),
      headOf (withEntry fun b => patch b 1 [1]) q (fun _ h => h == .partly),
      -- without a credit; a sprint head and a normal one in their turn, and not in it
      headOf { withRng false with work.cqs := [] } q (fun s h => isChain h && (eligible s q).isNone),
      inTurn (withRng false) q false sides,
      inTurn (withEntry (hasty · 7)) q true sides,
      headOf (two 3) { someSq 0 1 0 1 with base := 0x11000 } (fun s h => isChain h
        && eligible s { someSq 0 1 0 1 with base := 0x11000 } == some false && !(eligibleSqs s true).isEmpty),
      (two 7).work.sqs.any (fun y => headOf (two 7) y fun s h => isChain h && eligible s y == some true && sprintPick s != some (0, y.num)),
      -- a malformed fragment table, and one that cannot be read
      inTurn (withEntry fun b => patch (patch (patch b 1 [35]) 16 [8]) 28 [1]) q false (fun o => match o with | .stop _ => true | _ => false),
      inTurn { withEntry (fun b => patch (patch (patch b 1 [35]) 16 (leBytes 8 (2 ^ 50))) 28 [1]) with
          insts := [{ someInst 0 with mode := .translate }, someInst 1], tlb := [⟨0, 0x10000, 12, 0x10000, true, false⟩] } q false (fun o => o == .short)].all id) = true := by decide +kernel

/-- A digest job that is done, and the state that holds a job. -/
def aJob : Job :=
  { (default : Job) with id := 7, inst := 0, sq := 0, cq := 0, tag := 3, depTag := 0xFFFF, opcode := 0x20, start := some 90,
                         budget := 4, dep := .confirmed, result := some ⟨0, 0, 0, [], []⟩, commitTick := some 98, committed := true }
def withJob (j : Job) : State := { queued 0 0 with work.jobs := [j], work.cqs := [{ someCq 0 0 0 0 with reserved := 1 }] }

theorem test_met_releasesAndQueueEvents :
    -- JOB_RELEASE: not due, due
    ((withJob aJob).job? 7 = some aJob ∧ (withJob aJob).service = true ∧ due aJob 98 = false ∧ due aJob 100 = true
      ∧ aJob.committed = true ∧ (withJob aJob).work.unposted = [] ∧ aJob.result.isSome = true)
    -- PENDING_TIMEOUT: one boundary too early, and in time
    ∧ (let x := { aJob with dep := .pending, result := none, commitTick := none, dispatched := 0, committed := false }
       let s (n : Nat) := { withJob x with tick.count := n }
       (s 4095).job? 7 = some x ∧ (s 4096).job? 7 = some x ∧ (s 4095).service = true ∧ (s 4096).service = true
       ∧ x.endedAt = none ∧ (s 4095).tick.count < x.dispatched + 4096 ∧ x.dispatched + 4096 ≤ (s 4096).tick.count)
    -- CQ_INTERRUPT: COAL_COUNT CEs; COAL_TICKS passed; a sprint CE; a queue error, at its boundary and after; none of them
    ∧ (∀ c ∈ [{ someCq 1 511 0 4 with armed := true, armAt := 100, coalCount := 4 },
              { someCq 1 511 0 4 with armed := true, armAt := 99, coalCount := 5, coalTicks := 1 },
              { someCq 1 511 0 4 with armed := true, armAt := 100, coalCount := 5, coalTicks := 9, sprintAt := some 100 },
              { someCq 1 511 0 0 with errorIntr := true, errorAt := 100 }],
       let s : State := { live with work.cqs := [c] }
       s.service = true ∧ s.cq? 1 511 = some c
       ∧ ((c.errorIntr = true ∧ c.errorAt ≤ s.tick.count) ∨ (c.armed = true ∧ c.armAt ≤ s.tick.count ∧ c.posted.head?.isSome = true
         ∧ (c.coalCount ≤ c.posted.length ∨ max (c.posted.headD 0) c.armAt + c.coalTicks ≤ s.tick.count ∨ c.sprintAt = some s.tick.count))))
    ∧ (∀ c ∈ [someCq 1 511 0 4, { someCq 1 511 0 0 with errorIntr := true, errorAt := 101 },
              { someCq 1 511 0 4 with armed := true, armAt := 101, coalCount := 4 },
              { someCq 1 511 0 4 with armed := true, armAt := 100, coalCount := 5, coalTicks := 1 },
              { someCq 1 511 0 0 with armed := true, armAt := 99 }],
       ({ live with work.cqs := [c] } : State).cq? 1 511 = some c
       ∧ ¬(c.errorIntr = true ∧ c.errorAt ≤ 100) ∧ ¬(c.armed = true ∧ c.armAt ≤ 100 ∧ c.posted.head?.isSome = true
         ∧ (c.coalCount ≤ c.posted.length ∨ max (c.posted.headD 0) c.armAt + c.coalTicks ≤ 100 ∨ c.sprintAt = some 100)))
    ∧ (let s := live.updPort 3 fun p => { p with admq.running := true, admq.cq.errorIntr := true, admq.cq.errorAt := 100 }
       512 ≤ 512 ∧ 1023 < 1024 ∧ (s.port (1023 / 256)).admq.running = true ∧ (s.port 3).admq.cq.errorIntr = true
       ∧ (s.port 3).admq.cq.errorAt ≤ s.tick.count ∧ (live.port 3).admq.running = false)
    -- CQ_STARVED: at 1,000 boundaries, and at 999
    ∧ (∀ w ∈ [999, 1000], ({ queued 0 1 with work.sqs := [{ someSq 0 0 0 1 with waited := w }] }.sq? 0 0)
        = some { someSq 0 0 0 1 with waited := w } ∧ (someSq 0 0 0 1).starved = false) := by decide +kernel

/-- A budget job of the premises of ReleaseBoundary. -/
def spent (op S c : Nat) (lost : List Nat) : Job := { aJob with opcode := op, start := some S, commitTick := some c, lostTicks := lost }

/-- Is `k` the least quantum of a job of budget 4 that reaches a boundary? -/
def isLeast (S C k : Nat) : Bool := decide (C ≤ S + 4 * (1 + k)) && (List.range k).all fun i => decide (S + 4 * (1 + i) < C)

theorem test_met_releaseBoundary :
    (∀ x ∈ [spent 0x01 90 93 [], spent 0x09 90 94 [91], spent 0x01 90 94 [91], spent 0x01 90 95 [91, 92], spent 0x20 90 95 [],
        { spent 0x01 90 97 [91, 92, 93, 94] with start := none }],
      (withJob x).job? 7 = some x ∧ (withJob x).service = true ∧ x.result.isSome = true ∧ x.origin = none ∧ x.confirmed = true
      ∧ x.endedAt = none ∧ x.commitTick.isSome = true ∧ 0 < x.budget)
    -- at its first quantum, its second; with lost ticks: C ≤ T, T < C ≤ T + 2, T + 2 < C
    ∧ isLeast 90 94 0 = true ∧ isLeast 90 95 1 = true
    ∧ (isLeast 90 (95 - 1) 0 = true ∧ ¬95 ≤ 94 ∧ 95 ≤ 94 + 2)
    ∧ (isLeast 90 (98 - 4) 0 = true ∧ 94 + 2 < 98 ∧ isLeast 90 98 1 = true)
    ∧ (isLeast 90 (96 - 1) 1 = true ∧ 96 ≤ 98) := by decide +kernel

theorem test_met_sliceLimits :
    (∀ n ∈ [0, 1],
      let x := { aJob with result := none, commitTick := none, committed := false, sliceTick := some 100, overruns := n }
      (withJob x).job? 7 = some x ∧ runnable (withJob x) x = true)
    ∧ runnable (withJob aJob) aJob = false
    ∧ (live.engines[271]?).isSome = true := by decide +kernel

theorem test_met_tickBoundaries :
    (State.reset.tick.running = false ∧ live.tick.running = true ∧ live.stopped = false ∧ live.pllGap = none)
    ∧ ({ live with stopped := true } : State).stopped = true ∧ ({ live with pllGap := some false } : State).pllGap = some false
    ∧ tickCount { live with tick.count := 2 ^ 48 - 1 } = 2 ^ 48 - 1 ∧ tickCount live ≠ 2 ^ 48 - 1 := by decide +kernel

-- R45: a job of budget 4 that starts at boundary 90 and commits in tick 93 is released at 94, one that commits in 94 at 98
theorem test_release_quantum :
    ([(93, 94), (94, 98)].all fun p =>
      let s (n : Nat) := { withJob (spent 0x01 90 p.1 []) with tick.count := n }
      answers (exec (.jobRelease 7) (s (p.2 - 1))) (s (p.2 - 1)) && ((post (exec (.jobRelease 7) (s p.2))).job? 7).isNone) = true := by
  decide +kernel

-- R63: of a queue of 16 with head 14 and tail 26 (index 10, lap 1), a doorbell to index 12 of lap 1 moves the tail, one back to
-- index 9 is DB_RETREAT, index 16 is DB_OVERRUN
theorem test_doorbell_values :
    (((post (exec (.sqDoorbell 1 4088 4 0x1000C) (rings 14 26))).sq? 1 511).map (·.tail) = some 28)
    ∧ (((post (exec (.sqDoorbell 1 4088 4 0x10009) (rings 14 26))).sq? 1 511).map fun x => (x.state, x.errIndex))
        = some (QState.error, 9)
    ∧ (((post (exec (.sqDoorbell 1 4088 4 0x10010) (rings 14 26))).sq? 1 511).map fun x => (x.state, x.errIndex))
        = some (QState.error, 16) := by decide +kernel

/-! ### Admin commands -/

/-- The state with the head entry of port `p`'s admin ring taken, where the ring is served and the slot can be read. -/
def takes (s : State) (p : Nat) (se : Bytes) : Option State :=
  let q := (s.port p).admq.sq
  if adminReady s p && (adminMalformed se).isNone then
    match transRange s (p * 256) (q.base + 64 * (q.head % 2 ^ q.log2n)) 64 false 0 false with
    | (s0, some _) => some (s0.updPort p fun x => { x with admq.sq.head := (q.head + 1) % (2 * 2 ^ q.log2n) })
    | (_, none) => none
  else none

/-- What the tests evaluate is the premise `Taken`. -/
theorem taken_of_takes {s s1 : State} {p : Nat} {se : Bytes} (h : takes s p se = some s1) : Taken s s1 p se := by
  unfold takes at h
  simp only [Bool.and_eq_true] at h
  split at h
  · rename_i hr
    split at h
    · rename_i s0 ps hx
      exact ⟨hr.1, by simpa using hr.2, s0, ps, hx, by simpa using h.symm⟩
    · cases h
  · cases h

/-- The premises `Taken`, `Open` and, for a TARGET, `OnInstance`, then `h` of the state with the entry taken. -/
def admits (s : State) (p : Nat) (se : Bytes) (h : State → Bool) : Bool :=
  match takes s p se with
  | none => false
  | some s1 =>
    decide (s1.faults.safe = false ∧ s1.stopped = false ∧ byteAt se 6 = 0 ∧ byteAt se 7 = 0 ∧ s1.life.done = false
      ∧ s1.life.pending = none) && h s1
def onInstance (p : Nat) (se : Bytes) (i : Nat) (h : State → Bool) (s : State) : Bool :=
  decide (targetOf se = i ∧ i < 1024 ∧ adminPort s i = p ∧ vfEnabled s i = true ∧ secondFace s i = false) && h s

/-- Admin rings of port 0 with one entry published, in a state. -/
def withAdmin (s : State) : State :=
  { s with ports := s.ports.modify 0 fun x => { x with
      admq := { Admq.reset with
        enable := true, running := true, sqBase := 0x30000, cqBase := 0x38000,
        sq := { (default : Sq) with base := 0x30000, log2n := 4, state := .active, tail := 1 },
        cq := { (default : Cq) with base := 0x38000, log2n := 4, state := .active } } } }
def adm : State := withAdmin live

/-- An admin entry: OPCODE, LAST and FIRST, TAG 0x1234, TARGET, then the parameters from byte 8. -/
def cmd (op target : Nat) (params : Bytes) : Bytes :=
  leBytes 1 op ++ leBytes 1 3 ++ leBytes 2 0x1234 ++ leBytes 2 target ++ zeros 2 ++ fit 56 params

/-- What INSTANCE_GET, SQ_CREATE, DATU_INVALIDATE and INSTANCE_RESUME are refused for, one by one. -/
theorem test_met_adminRefusals :
    ([0x8E, 0x80, 0x91, 0x8A].all fun op =>
      let c (t : Nat) := cmd op t []
      (takes { adm with faults.safe := true } 0 (c 1)).any (fun s1 => s1.faults.safe)
      && (takes { adm with stopped := true } 0 (c 1)).any (fun s1 => s1.stopped)
      && (takes adm 0 (patch (c 1) 6 (leBytes 1 1))).any (fun s1 => !s1.faults.safe && !s1.stopped
        && byteAt (patch (c 1) 6 (leBytes 1 1)) 6 != 0)
      && (takes adm 0 (c 1024)).any (fun s1 => !s1.faults.safe && !s1.stopped && decide (1024 ≤ targetOf (c 1024)))
      && (takes adm 0 (c 256)).any (fun s1 => decide (targetOf (c 256) < 1024) && adminPort s1 (targetOf (c 256)) != 0)) = true := by
  decide +kernel

/-- An SQ_CREATE and a CQ_CREATE on a base that is aligned, and on one that is not. -/
theorem test_met_queueCreate : ([0x60000, 0x60008].all fun base =>
    (let c := cmd 0x80 1 (leBytes 8 base ++ leBytes 1 16 ++ leBytes 1 16 ++ leBytes 2 0 ++ leBytes 1 1)
     admits { adm with work.cqs := [someCq 1 0 0 0] } 0 c <| onInstance 0 c 1 fun s1 =>
      (s1.inst? 1).any (fun x => x.state != .absent && decide ((s1.work.sqs.filter (·.inst == 1)).length < x.queueLimit))
      && byteAt c 0 == 0x80 && decide (s1.work.sqs.length < 4096)
      && (scanParams c [(8, 8, false), (16, 1, decide (byteAt c 16 < 4) || decide (16 < byteAt c 16)),
        (17, 1, decide (16 < byteAt c 17)), (18, 2, (s1.cq? 1 (leAt c 18 2)).isNone), (20, 1, decide (1 < byteAt c 20))]).isNone
      && lowestFree 512 (fun n => (s1.sq? 1 n).isSome) == some 0)
    && (let c := cmd 0x82 1 (leBytes 8 base ++ leBytes 1 4 ++ leBytes 1 1 ++ leBytes 1 0 ++ zeros 1 ++ leBytes 2 63)
        admits { adm with work.cqs := [someCq 1 0 0 0] } 0 c <| onInstance 0 c 1 fun s1 =>
      (s1.inst? 1).any (fun x => x.state != .absent && decide ((s1.work.cqs.filter (·.inst == 1)).length < x.queueLimit))
      && byteAt c 0 == 0x82 && decide (s1.work.cqs.length < 4096)
      && (scanParams c [(8, 8, false), (16, 1, decide (byteAt c 16 < 4) || decide (16 < byteAt c 16)),
        (17, 1, byteAt c 17 == 0), (18, 1, false), (20, 2, decide (63 < leAt c 20 2))]).isNone
      && lowestFree 512 (fun n => (s1.cq? 1 n).isSome) == some 1)) = true := by decide +kernel

/-- An SQ and a CQ of instance 1; the same in ERROR. -/
def aq : State := { adm with work.sqs := [someSq 1 511 3 5], work.cqs := [someCq 1 511 2 6] }
def aqError : State :=
  { adm with work.sqs := [{ someSq 1 511 3 5 with state := .error }], work.cqs := [{ someCq 1 511 2 6 with state := .error }] }

theorem test_met_queueCommands :
    let q (op : Nat) (rest : Bytes) := cmd op 1 (zeros 8 ++ leBytes 2 511 ++ rest)
    let base (s : State) (c : Bytes) (h : State → Bool) := admits s 0 c <| onInstance 0 c 1 fun s1 =>
      liveState (instState s1 1) && leAt c 16 2 == 511 && h s1
    ([-- SQ_DELETE, SQ_MODIFY, SQ_RESTART
      (let c := q 0x81 []
       base aq c fun s1 => (s1.sq? 1 511).isSome && byteAt c 0 == 0x81 && (scanParams c [(16, 2, false)]).isNone),
      (let c := q 0x87 (leBytes 1 16)
       base aq c fun s1 => (s1.sq? 1 511).isSome && byteAt c 0 == 0x87
        && (scanParams c [(16, 2, false), (18, 1, byteAt c 18 == 0 || decide (16 < byteAt c 18))]).isNone),
      (let c := q 0x84 (leBytes 2 15 ++ leBytes 1 1)
       base aqError c fun s1 => (s1.sq? 1 511).any (fun x => x.state == .error && x.base % 4096 == 0 && !x.readAhead
        && (scanParams c [(16, 2, false), (18, 2, decide (2 ^ x.log2n ≤ leAt c 18 2)), (20, 1, decide (1 < byteAt c 20))]).isNone)
        && byteAt c 0 == 0x84),
      (let c := q 0x84 (leBytes 2 15 ++ leBytes 1 1)
       base { aqError with work.sqs := [{ someSq 1 511 3 5 with state := .error, base := 0x10008 }] } c fun s1 =>
        (s1.sq? 1 511).any (fun x => x.state == .error && x.base % 4096 != 0
        && (scanParams c [(16, 2, false), (18, 2, decide (2 ^ x.log2n ≤ leAt c 18 2)), (20, 1, decide (1 < byteAt c 20))]).isNone)
        && byteAt c 0 == 0x84),
      -- CQ_DELETE, CQ_MODIFY, CQ_RESTART
      (let c := q 0x83 []
       base { aq with work.sqs := [] } c fun s1 => (s1.cq? 1 511).isSome && byteAt c 0 == 0x83 && s1.work.sqs.isEmpty
        && (scanParams c [(16, 2, false)]).isNone),
      (let c := q 0x86 (leBytes 1 255 ++ leBytes 1 255)
       base aq c fun s1 => (s1.cq? 1 511).isSome && byteAt c 0 == 0x86
        && (scanParams c [(16, 2, false), (18, 1, byteAt c 18 == 0), (19, 1, false)]).isNone),
      (let c := q 0x85 (leBytes 2 6)
       base aqError c fun s1 => (s1.cq? 1 511).any (fun x => x.state == .error && x.base % 4096 == 0
        && (scanParams c [(16, 2, false), (18, 2, badHead c x), (20, 1, decide (1 < byteAt c 20))]).isNone)
        && byteAt c 0 == 0x85)].all id) = true := by decide +kernel

theorem test_met_instanceCreate :
    (let c := cmd 0x88 2 (zeros 8 ++ leBytes 2 4 ++ leBytes 2 8 ++ leBytes 2 8 ++ leBytes 1 1 ++ zeros 1
      ++ leBytes 4 262128 ++ leBytes 4 131056)
     admits { adm with insts := [someInst 0] } 0 c <| onInstance 0 c 2 fun s1 =>
      instState s1 2 == .absent && byteAt c 0 == 0x88
      && decide (((s1.insts.filter (·.id != 2)).map (·.ctxQuota)).sum + leAt c 24 4 ≤ 262144)
      && decide (((s1.insts.filter (·.id != 2)).map (·.keyQuota)).sum + leAt c 28 4 ≤ 131072)
      && (scanParams c (resourceFields c true)).isNone) = true := by decide +kernel

theorem test_met_instanceStops :
    let st (x : InstState) : State := { adm with insts := [someInst 0, { someInst 1 with state := x }] }
    let base (s : State) (c : Bytes) (x : InstState) (op : Nat) (fs : List (Nat × Nat × Bool)) := admits s 0 c <|
      onInstance 0 c 1 fun s1 => (s1.inst? 1).any (·.state == x) && byteAt c 0 == op && (scanParams c fs).isNone
    ([(let c := cmd 0x89 1 (leBytes 1 1); base (st .active) c .active 0x89 [(8, 1, decide (1 < byteAt c 8))]),
      (let c := cmd 0x89 1 []; base (st .quiescing) c .quiescing 0x89 [(8, 1, decide (1 < byteAt c 8))]),
      (let c := cmd 0x89 1 []; base (st .quiesced) c .quiesced 0x89 [(8, 1, decide (1 < byteAt c 8))]),
      base (st .quiesced) (cmd 0x8A 1 []) .quiesced 0x8A [], base (st .quiesced) (cmd 0x8B 1 []) .quiesced 0x8B [],
      base (st .quiesced) (cmd 0x8C 1 []) .quiesced 0x8C []].all id) = true := by decide +kernel

theorem test_met_instanceResources :
    let base (c : Bytes) (op : Nat) (h : State → Bool) := admits adm 0 c <| onInstance 0 c 1 fun s1 =>
      (s1.inst? 1).any (·.state != .absent) && byteAt c 0 == op && h s1
    ([(let c := cmd 0x8D 1 (leBytes 1 0x3F ++ zeros 7 ++ leBytes 2 4 ++ leBytes 2 8 ++ leBytes 2 8 ++ leBytes 1 1 ++ zeros 1
         ++ leBytes 4 16 ++ leBytes 4 16)
       base c 0x8D fun s1 => decide (quotaChecks s1 c 1 false = [(false, aState 0x23), (false, aState 0x22)])
        && (scanParams c (resourceFields c false)).isNone),
      (let c := cmd 0x8E 1 (leBytes 8 0x50000 ++ leBytes 4 47)
       base c 0x8E fun _ => (scanParams c [(8, 12, false)]).isNone && decide (leAt c 16 4 < 48)),
      (let c := cmd 0x8E 1 (leBytes 8 0x50000 ++ leBytes 4 48)
       base c 0x8E fun s1 => (scanParams c [(8, 12, false)]).isNone && decide (48 ≤ leAt c 16 4)
        && (s1.inst? 1).any fun x => (hostWrite s1 (0 * 256) (leAt c 8 8) (instBytes s1 x) 6).2),
      (let c := cmd 0x90 1 (leBytes 8 0x60000 ++ leBytes 1 48 ++ leBytes 1 1)
       base c 0x90 fun s1 => s1.work.sqs.isEmpty && s1.work.cqs.isEmpty
        && (scanParams c [(8, 8, false), (16, 1, decide (byteAt c 16 < 39) || decide (48 < byteAt c 16)),
          (17, 1, decide (2 < byteAt c 17) || (byteAt c 17 == 2 && 1 % 256 != 0))]).isNone),
      (let c := cmd 0x91 1 []
       base c 0x91 fun _ => leAt c 16 4 == 0 && (scanParams c [(8, 8, leAt c 8 8 % 4096 != 0), (16, 4, false)]).isNone)].all id)
      = true := by decide +kernel

/-- Instance 1 with an open log; and a state with a job of its SQ 0. -/
def logging : State :=
  { adm with insts := [someInst 0, { someInst 1 with dirty := some ⟨true, true, 0, 8, 0x1000, 64, false, true, 0, 5⟩ }] }
def draining (js : List Job) : State :=
  { adm with work.sqs := [{ someSq 1 0 3 3 with deleting := true }], adm.cmds := [⟨0, 0, 0, 0, 0, 0, 100, .sqDrain 1 0⟩], work.jobs := js,
             insts := [someInst 0, { someInst 1 with state := .quiescing }] }

theorem test_met_logAbortAndDrain :
    let base (s : State) (c : Bytes) (op : Nat) (h : State → Inst → Bool) := admits s 0 c <| onInstance 0 c 1 fun s1 =>
      (s1.inst? 1).any (fun x => x.state != .absent && h s1 x) && byteAt c 0 == op
    ([(let c := cmd 0x94 1 (leBytes 8 0x60000 ++ leBytes 8 0x70008 ++ leBytes 8 0x1000 ++ leBytes 4 64)
       base adm c 0x94 fun _ x => !x.logging
        && (scanParams c [(8, 8, leAt c 8 8 % 8 != 0), (16, 8, leAt c 16 8 % 8 != 0), (24, 8, leAt c 24 8 % 4096 != 0),
          (32, 4, decide (leAt c 32 4 < 64) || decide (268435456 < leAt c 32 4) || leAt c 32 4 % 64 != 0)]).isNone),
      (let c := cmd 0x95 1 []; base logging c 0x95 fun s1 x => x.dirty.isSome && (scanParams c []).isNone && s1.adm.changes.isEmpty),
      (let c := cmd 0x95 1 []
       base { logging with adm.changes := [.harvest 3 1] } c 0x95 fun s1 x => x.dirty.isSome && (scanParams c []).isNone
        && ((harvestNow s1 1).inst? 1).isSome),
      (let c := cmd 0x96 1 []; base logging c 0x96 fun _ x => x.dirty.isSome && (scanParams c []).isNone),
      (let c := cmd 0x98 1 (leBytes 2 511 ++ leBytes 2 7 ++ leBytes 1 1)
       base aq c 0x98 fun s1 _ => (s1.sq? 1 (leAt c 8 2)).isSome
        && (scanParams c [(8, 2, false), (10, 2, false), (12, 1, decide (1 < byteAt c 12))]).isNone),
      (let s := draining []
       s.tick.running && (s.sq? 1 0).any (·.deleting) && s.adm.cmds.any (fun c => c.wait == .sqDrain 1 0 && decide (c.accepted ≤ 100))
        && s.flying.isEmpty && s.service && (s.inst? 1).any (·.state == .quiescing)),
      (let s := draining [{ aJob with inst := 1 }]
       s.tick.running && (s.sq? 1 0).isSome && s.flying.any (fun j => j.inst == 1 && j.sq == 0)
        && s.work.jobs.any fun j => j.inst == 1 && j.origin.isNone)].all id) = true := by
  decide +kernel

/-- Port 0 administers; it is paired with port 1; its function serves. -/
def paired (b : Bool) : State :=
  { adm with adm.pairs := [(0, 1, b)], insts := [someInst 0], faults.map := [⟨unitId 9 0, .serving, 16⟩] }

theorem test_met_deviceCommands :
    let base (s : State) (c : Bytes) (op : Nat) (h : State → Bool) := admits s 0 c fun s1 =>
      s1.adm.primary == 0 && byteAt c 0 == op && h s1
    ([(([0, 65536, 2097152].all fun n =>
        let c := cmd 0x99 0 (leBytes 8 0x60000 ++ leBytes 4 n)
        base adm c 0x99 fun _ => (scanParams c [(8, 8, leAt c 8 8 % 4096 != 0),
          (16, 4, leAt c 16 4 != 0 && (decide (leAt c 16 4 < 65536) || decide (2097152 < leAt c 16 4)
            || leAt c 16 4 % 4096 != 0))]).isNone)),
      (let c := cmd 0x99 0 (leBytes 8 0x60000 ++ leBytes 4 65536)
       (takes { adm with faults.safe := true } 0 c).any fun s1 => s1.faults.safe && s1.adm.primary == 0 && byteAt c 0 == 0x99
        && byteAt c 6 == 0 && byteAt c 7 == 0 && !s1.life.done && s1.life.pending.isNone),
      (let c := cmd 0xA7 0 (leBytes 1 3)
       base adm c 0xA7 fun s1 => decide (byteAt c 8 < 4) && (s1.port (byteAt c 8)).dlUp && (scanParams c [(8, 1, false)]).isNone),
      (let c := cmd 0xA1 0 (leBytes 2 0 ++ leBytes 1 3)
       base adm c 0xA1 fun s1 => byteAt c 11 == 0
        && (groupOf (leAt c 8 2)).any (fun g => !g.locked && decide (g.min ≤ byteAt c 10) && decide (byteAt c 10 ≤ g.max))
        && sevOf s1 (leAt c 8 2) != byteAt c 10 && (scanParams c [(8, 2, false), (10, 1, false), (11, 1, false)]).isNone),
      (let c := cmd 0xA6 0 []
       base adm c 0xA6 fun _ => byteAt c 8 == 0 && (scanParams c [(8, 1, false), (9, 1, false)]).isNone),
      (let c := cmd 0xA6 0 (leBytes 1 1 ++ leBytes 1 1)
       base adm c 0xA6 fun s1 => byteAt c 8 == 1 && decide (1 ≤ byteAt c 9 ∧ byteAt c 9 ≤ 3)
        && decide (envelopeWatts (byteAt c 9) ≤ envelopeWatts s1.life.otp.envelope)
        && (scanParams c [(8, 1, false), (9, 1, false)]).isNone),
      (let c := cmd 0xA8 0 (leBytes 1 0 ++ leBytes 1 1 ++ leBytes 1 0)
       base (paired false) c 0xA8 fun s1 => byteAt c 10 == 0 && (scanParams c (pairFields c)).isNone
        && s1.adm.pairs.any (fun x => x.1 == byteAt c 8 && x.2.1 == byteAt c 9) && !hasTfs s1 (byteAt c 8)),
      (let c := cmd 0xA8 0 (leBytes 1 0 ++ leBytes 1 1 ++ leBytes 1 1)
       base adm c 0xA8 fun s1 => byteAt c 10 == 1 && (scanParams c (pairFields c)).isNone && !hasTfs s1 (byteAt c 9)
        && s1.adm.pairs.isEmpty),
      (let c := cmd 0xA8 0 (leBytes 1 0 ++ leBytes 1 1 ++ leBytes 1 2)
       base (paired true) c 0xA8 fun s1 => byteAt c 10 == 2 && (scanParams c (pairFields c)).isNone
        && s1.serves (unitId 9 (byteAt c 8)) && s1.adm.pairs.any (fun x => x.1 == byteAt c 8 && x.2.1 == byteAt c 9))].all id)
      = true := by decide +kernel

/-- An unsigned charter of canopy 1 for a device in TEST: manager 0, and member 1 with its port 0 on the manager's link 0. -/
def charter : Bytes :=
  let entry (num role parent link p0 : Nat) : Bytes :=
    zeros 15 ++ leBytes 1 num ++ zeros 32 ++ leBytes 1 num ++ leBytes 1 role ++ leBytes 1 parent ++ leBytes 1 link ++ leBytes 1 p0
      ++ zeros 11
  leBytes 4 0x52435A44 ++ leBytes 1 1 ++ leBytes 1 0 ++ leBytes 1 1 ++ leBytes 1 0 ++ leBytes 1 2 ++ leBytes 1 0 ++ leBytes 1 1
    ++ leBytes 1 0 ++ leBytes 4 0 ++ leBytes 4 192 ++ zeros 44 ++ entry 0 1 0xFF 0xFF 1 ++ entry 1 2 0 0 1

/-- A manager in TEST without a charter, with one member joined, the charter in host memory. -/
def managing : State :=
  { adm with pins.role := 1, tether.active := 1, tether.members := [⟨2, 2, 0, 0, true, false, 0, 0, 0, 0, []⟩],
             life.state := .test, hostMem := Mem.writeBytes [] 0x60000 charter }

theorem test_met_reportsAndStanding :
    let base (s : State) (c : Bytes) (op : Nat) (h : State → Bool) := admits s 0 c fun s1 => byteAt c 0 == op && h s1
    ([([false, true].all fun b =>
        let c := cmd 0xA0 0 (leBytes 8 0x60000 ++ leBytes 4 4096 ++ leBytes 1 (b2n b) ++ zeros 1 ++ leBytes 2 (3 * b2n b))
        base adm c 0xA0 fun s1 => byteAt c 20 == b2n b && s1.adm.primary == 0 && (firstReply (healthChecks c b)).isNone),
      (let c := cmd 0xA4 0 (leBytes 8 0x60000 ++ leBytes 4 63)
       base adm c 0xA4 fun s1 => (scanParams c [(8, 12, false)]).isNone && decide (leAt c 16 4 < (graftBytes s1).length)),
      (let c := cmd 0xA4 0 (leBytes 8 0x60000 ++ leBytes 4 64)
       base adm c 0xA4 fun s1 => (scanParams c [(8, 12, false)]).isNone && decide ((graftBytes s1).length ≤ leAt c 16 4)
        && (hostWrite s1 (0 * 256) (leAt c 8 8) (graftBytes s1) 6).2),
      (let c := cmd 0xA2 0 (leBytes 8 0x60000 ++ leBytes 4 8192 ++ zeros 32 ++ leBytes 1 1)
       base adm c 0xA2 fun s1 => (scanParams c [(8, 12, false), (20, 32, false), (52, 1, decide (1 < byteAt c 52))]).isNone
        && (let a := attestOut s1 (sub c 20 32) (bit (byteAt c 52) 0)
            decide (a.2.length ≤ leAt c 16 4) && (hostWrite a.1 (0 * 256) (leAt c 8 8) a.2 6).2)),
      (let c := cmd 0xA3 0 (leBytes 1 3 ++ zeros 3 ++ leBytes 4 160 ++ leBytes 8 0x60000)
       base { adm with insts := [someInst 0], life.lockout := none } c 0xA3 fun s1 =>
        s1.adm.primary == 0 && (firstReply (lcsChecks s1 c)).isNone),
      (let c := cmd 0xA5 0 (zeros 8 ++ leBytes 8 0x60000 ++ leBytes 4 192)
       base managing c 0xA5 fun s1 => !s1.solo && s1.adm.primary == 0 && byteAt c 8 == 0 && s1.tether.active == 1
        && s1.tether.charter.isNone
        && (scanParams c [(8, 1, false), (12, 2, false), (14, 2, false), (16, 8, false),
          (24, 4, decide (leAt c 24 4 < 64) || decide (16384 < leAt c 24 4))]).isNone
        && (match hostRead s1 (0 * 256) (leAt c 16 8) (leAt c 24 4) 7 false with
          | (s2, some b) => (charterFail s2 b).isNone
          | _ => false)),
      -- a charter of the wrong form, and a signed one whose signature decision a glitch splits
      (let c := cmd 0xA5 0 (zeros 8 ++ leBytes 8 0x60000 ++ leBytes 4 64)
       base managing c 0xA5 fun s1 => !s1.solo && s1.adm.primary == 0 && s1.tether.active == 1 && s1.tether.charter.isNone
        && (match hostRead s1 (0 * 256) (leAt c 16 8) (leAt c 24 4) 7 false with
          | (s2, some b) => charterFail s2 b == some 0x80
          | _ => false)),
      (let c := cmd 0xA5 0 (zeros 8 ++ leBytes 8 0x60000 ++ leBytes 4 7604)
       base { managing with life.state := .deployed, hostMem := Mem.writeBytes [] 0x60000 (patch (patch charter 5 [1]) 16 (leBytes 4 7604)) } c 0xA5
        fun s1 => !s1.solo && s1.adm.primary == 0 && s1.tether.active == 1 && s1.tether.charter.isNone && s1.lcs == .deployed
        && (match hostRead s1 (0 * 256) (leAt c 16 8) (leAt c 24 4) 7 false with
          | (s2, some b) => chSigned b && charterFail s2 b == some 0x81
          | _ => false)),
      (let c := cmd 0xA5 0 (leBytes 1 1)
       base managing c 0xA5 fun s1 => !s1.solo && byteAt c 8 == 1 && s1.tether.active == 1
        && (scanParams c [(8, 1, false), (12, 2, false), (14, 2, false), (16, 8, false), (24, 4, false)]).isNone),
      (let c := cmd 0xA5 0 (leBytes 1 2 ++ zeros 3 ++ leBytes 2 1 ++ leBytes 2 7)
       base { managing with tether.joined := true } c 0xA5 fun s1 => byteAt c 8 == 2 && s1.joined
        && liveState (instState s1 (leAt c 12 2)) && decide (leAt c 12 2 < 1024)
        && (scanParams c [(8, 1, false), (12, 2, false), (14, 2, false), (16, 8, false), (24, 4, false)]).isNone)].all id)
      = true := by decide +kernel

/-! ### Jobs -/

/-- A job of an opcode that has its slice in the present tick, with the input `inp` in grove memory and every MXU result collected. -/
def jobFor (op alg pset opt : Nat) (inp : Bytes) : Job :=
  { (default : Job) with id := 7, opcode := op, alg := alg, pset := pset, opt := opt, start := some 90, sliceTick := some 100,
                         depTag := 0xFFFF, dep := .confirmed, outLen := 4096, input := some inp, keyIdx := some 0, ctxH := 5,
                         streamUse := some 0, mxuGot := List.range 16 }

/-- In service with that job, a key at index 0, a context of handle 5 and a stream at index 0. -/
def jobState (x : Job) (k : KeyObj) (c : Slot) (final : Bool) : State :=
  { live with
    work.jobs := [x], work.sqs := [someSq 0 0 0 0], work.cqs := [{ someCq 0 0 0 0 with reserved := 1 }], store.keys := [k],
    store.ctxs := [{ (default : Ctx) with index := 5, slots := c :: List.replicate 7 .empty }],
    store.streams := [{ (default : Stream) with alg := 8, pset := 1, final := final }] }

/-- The premise `Ready` but for the state that the read of the input leaves, `s1`, and the input. -/
def readyAt (s s1 : State) (op : Nat) (x : Job) (u : Upset) (inp : Bytes) : Bool :=
  s.job? 7 == some x && runnable s x && x.opcode == op
  && (match strikeVault s x u with
    | (s0, false) => !(usesQuarantined s0 x && !destroys x) && decide (jobInput s0 x = (s1, some inp))
      && !(drbgDown s1 x && Claims.draws x) && !(drbgDown s1 x && runsMasked x) && mxuReady s1 x inp
    | _ => false)

/-- What the tests evaluate is the premise. -/
theorem ready_of_readyAt {s s1 : State} {op : Nat} {x : Job} {u : Upset} {inp : Bytes} (h : readyAt s s1 op x u inp = true) :
    Ready s s1 7 op x u inp := by
  unfold readyAt at h
  split at h
  · rename_i s0 h0
    simp only [Bool.and_eq_true, beq_iff_eq, decide_eq_true_eq, Bool.not_eq_true'] at h
    obtain ⟨⟨⟨h1, h2⟩, h3⟩, ⟨⟨⟨h4, h5⟩, h6⟩, h7⟩, h8⟩ := h
    exact ⟨h1, h2, h3, s0, h0, h4, h5, h6, h7, h8⟩
  · simp at h

/-- A job whose input lies in grove memory, the premise met with each of some upsets, then `h`. -/
def readyIn (us : List Upset) (s : State) (op : Nat) (x : Job) (h : State → Bool) : Bool :=
  us.all fun u => match strikeVault s x u with
    | (s1, _) => readyAt s s1 op x u (x.input.getD []) && h s1
def readyWith (s : State) (op : Nat) (x : Job) (h : State → Bool) : Bool := readyIn [.none] s op x h
def readies (op alg pset opt : Nat) (inp : Bytes) (h : State → Job → Bool) : Bool :=
  let x := jobFor op alg pset opt inp
  readyIn [.none, .glitch, .pairwise, .rsaCheck, .readBack] (jobState x default .empty false) op x fun s => h s x

/-- The premises of FinalCommit's rows about a job's command, then `h` of the upset's outcome. -/
def rowOf (s : State) (x : Job) (h : State → Bool) : Bool :=
  s.job? 7 == some x && (jobRow 7 .none x).isSome && (tryDue s 7).isNone && (dropReplicas s 7).isNone && !revocationFull s x && h s

theorem test_met_finalCommit :
    let x := jobFor 0x20 0 8 0 []
    ((withJob { x with dep := .on 5 }).job? 7 = some { x with dep := .on 5 } ∧ ({ x with dep := .on 5 } : Job).confirmed = false
      ∧ (withJob x).mxuCmd? 7 = none)
    ∧ ((withJob x).job? 7 = some x ∧ x.confirmed = true ∧ (err 0x0300 1).out = [] ∧ (err 0x0300 1).effects = []
      ∧ (withJob x).funnels = false)
    -- no slice; a struck key; a quarantined one; an input that cannot be read, of a confirmed and of an unconfirmed job
    ∧ (let at_ (x : Job) (q : Bool) : State := jobState x { (default : KeyObj) with quarantined := q } .empty false
       let far (d : Dep) : Job := { jobFor 0x20 0 8 0 [] with input := none, inst := 9, inLen := 4, dep := d }
       let down (op : Nat) : State := { at_ (jobFor op 1 3 0 []) false with groves := List.replicate 16 Grove.reset }
       ([rowOf (at_ { x with sliceTick := some 99 } false) { x with sliceTick := some 99 } fun s => !runnable s { x with sliceTick := some 99 },
         rowOf (at_ x false) x fun s => runnable s x && (strikeVault s x (.vault .key)).2,
         rowOf (at_ x true) x fun s => runnable s x && !(strikeVault s x .none).2 && usesQuarantined s x && !destroys x,
         [Dep.confirmed, .on 5].all (fun d => rowOf (at_ (far d) false) (far d) fun s => runnable s (far d)
           && (far d).confirmed == (d == .confirmed) && (jobInput s (far d)).2.isNone),
         -- a DRBG in its error state, of a job that draws and of one that runs masked; an MXU result not collected
         rowOf (down 0x02) (jobFor 0x02 1 3 0 []) fun s => drbgDown s (jobFor 0x02 1 3 0 []) && Claims.draws (jobFor 0x02 1 3 0 []),
         rowOf (down 0x03) (jobFor 0x03 1 3 0 []) fun s => drbgDown s (jobFor 0x03 1 3 0 []) && !Claims.draws (jobFor 0x03 1 3 0 [])
           && runsMasked (jobFor 0x03 1 3 0 []),
         (let y := { jobFor 0x11 0x14 1 0 (leBytes 32 9) with mxuGot := [] }
          rowOf (at_ y false) y fun s => runnable s y && !drbgDown s y && !mxuReady s y (leBytes 32 9))].all id) = true) := by decide +kernel

/-- A job in attempts, of which the slice works on number `k`. -/
def trying (op alg low k : Nat) : Job := { jobFor op alg 1 0 [] with prepared := true, lowest := low, trying := some k }

/-- The premises of the attempts of Classic McEliece and ML-DSA: the next to be rejected last, and the first, whatever its outcome;
a DRBG in its error state. -/
theorem test_met_attempts :
    ([(0x01, 6, 256), (0x09, 2, 814)].all fun p => [(p.2.2, p.2.2), (0, 0)].all fun q =>
      let x := trying p.1 p.2.1 q.1 q.2
      let s := jobState x default .empty false
      tryDue s 7 == some (x, q.2) && x.opcode == p.1 && !(drbgDown s x && runsMasked x)
      && [false, true].all (fun b => decide ((x.endTry q.2 b).lowest < p.2.2) == (q.1 == 0))
      && (let s : State := { s with groves := List.replicate 16 Grove.reset }
          tryDue s 7 == some (x, q.2) && drbgDown s x && runsMasked x)) = true := by decide +kernel

theorem test_met_kemJobs :
    let mc (c : Option Nat) : Job := { jobFor 0x01 6 1 0 [] with chosen := c, prepared := c.isSome, rnd := zeros 32 }
    ([readies 0x01 1 3 0 [] fun _ x => x.alg != 0x06,
      readyWith (jobState (mc none) default .empty false) 0x01 (mc none) fun _ => (mc none).alg == 0x06 && !(mc none).prepared,
      readyIn [.none, .pairwise] (jobState (mc (some 3)) default .empty false) 0x01 (mc (some 3)) fun _ => (mc (some 3)).chosen == some 3,
      readies 0x02 1 3 0 [] fun _ x => !x.ekInline && !x.outToCtx, readies 0x02 1 3 1 (zeros 4) fun _ x => x.ekInline,
      readies 0x03 1 3 0 (zeros 4) fun _ x => !x.outToCtx].all id) = true := by
  decide +kernel

/-- An inline key with a coefficient of 3,329 or more has a status, one of zeros none. -/
theorem test_met_kemJobs_inline : ekBad 1 3 (List.replicate 1568 0xFF) = some (0x0303, 0x01) ∧ ekBad 1 3 (zeros 1568) = none := by
  decide +kernel

theorem test_met_hybridJobs :
    let n := pkLen 0x01 (hybridKem 0x11)
    let c := ctLen 0x01 (hybridKem 0x10)
    let finish (b : Nat) (h : Bool → Bool) : Bool :=
      let x := jobFor 0x50 0 0x10 2 (zeros c ++ leBytes 32 b)
      readyIn [.none, .glitch] (jobState x default (.ephemeral 0x10 (zeros 64) (zeros 32)) false) 0x50 x fun s => x.opt % 4 == 2
        && h (checkXPoint (hybridDh x.pset) ((zeros c ++ leBytes 32 b).drop c)).isNone
        && (ctxAt s x.ctxH).any fun k => k.slot 0 == .ephemeral 0x10 (zeros 64) (zeros 32)
    let room (h : Nat) (has : Bool) : Bool :=
      let x := { jobFor 0x50 0 0x11 0 [] with ctxH := h }
      readyWith (jobState x default .empty false) 0x50 x fun s => x.opt % 4 == 0 && (ctxAt s x.ctxH).isSome == has
    ([readies 0x50 0 0x11 4 [] fun s x => x.opt % 4 == 0 && (newCtx (drawn (drawn s 64) (hybridDhLen x.pset)) x.inst).isSome,
      room 5 true, room 6 false,
      readies 0x50 0 0x11 1 (List.replicate n 0xFF ++ leBytes 56 5) fun _ x => x.opt % 4 == 1
        && (ekBad 0x01 (hybridKem x.pset) ((List.replicate n 0xFF ++ leBytes 56 5).take n)).isSome,
      [(0, false), (5, true)].all (fun p => readies 0x50 0 0x11 1 (zeros n ++ leBytes 56 p.1) fun _ x => x.opt % 4 == 1
        && (ekBad 0x01 (hybridKem x.pset) ((zeros n ++ leBytes 56 p.1).take n)).isNone
        && (checkXPoint (hybridDh x.pset) ((zeros n ++ leBytes 56 p.1).drop n)).isNone == p.2),
      finish 9 (· == true), finish 0 (· == false)].all id) = true := by decide +kernel

/-- RFC 6979, A.2.5: the P-256 public key, and its signature of "sample" with SHA-256. -/
def sampleKey : Bytes := 0x04 :: beBytes 32 0x60FED4BA255A9D31C961EB74C6356D68C049B8923B61FA6CE669622E60F29FB6
  ++ beBytes 32 0x7903FE1008B8BC99A41AE9E95628BC64F2F1B20C2D7E9F5177A3C294D4462299
def sampleSig : Bytes := beBytes 32 0xEFD48B2AACB6A8FD1140DD9CD45E81D69D2C877B56AAF991C34D0EA84EAF3716
  ++ beBytes 32 0xF7CB1C942D657C41D436C7A1B6E29F65F3E900DBB9AFF4064DC4AB2F843ACDA8
def sample : Bytes := [0x73, 0x61, 0x6D, 0x70, 0x6C, 0x65]

/-- An ECDSA verification of that key and a message: the premises of its outcomes. -/
def verifies (pk sig msg : Bytes) (pub ref ver : Bool) : Bool :=
  readyIn [.none, .glitch] (jobState (jobFor 0x0A 0x11 1 24 (pk ++ sig ++ msg)) default .empty false) 0x0A
    (jobFor 0x0A 0x11 1 24 (pk ++ sig ++ msg)) fun _ =>
    let x := jobFor 0x0A 0x11 1 24 (pk ++ sig ++ msg)
    x.pkInline && (checkPublic 0x11 1 (bit x.opt 10) pk).isNone == pub && (!pub || sigRefused 0x11 1 0 sig == ref)
      && (!pub || ref || stdHolds .verify (ap 0x11 1) (pk :: sig :: sigArgs x msg) == ver)

theorem test_met_signatureJobs :
    let signs (x : Job) (us : List Upset) : Bool := readyIn us (jobState x default .empty false) 0x09 x fun _ => true
    ([readies 0x08 2 3 0 [] fun _ x => !isStateful x.alg, readies 0x08 3 1 0 [] fun _ x => x.alg == 0x03,
      readies 0x08 4 1 0 [] fun _ x => isStateful x.alg,
      -- stateful: no index, an index, and a reservation whose read-back fails
      signs (jobFor 0x09 4 1 0 (zeros 4)) [.none], signs { jobFor 0x09 4 1 0 (zeros 4) with index := some 6 } [.none, .readBack],
      signs { jobFor 0x09 4 1 0 (zeros 4) with index := some 6, reserving := true } [.none, .readBack],
      -- ML-DSA: preparation of either kind, a chosen attempt
      [0, 4].all (fun o => signs (jobFor 0x09 2 3 o (zeros 4)) [.none]),
      signs { jobFor 0x09 2 3 0 (zeros 4) with prepared := true, chosen := some 3 } [.none],
      -- SLH-DSA and ECDSA, with fixed bytes and with fresh ones
      [0, 4].all (fun o => [3, 0x11].all fun a => readies 0x09 a 1 o (zeros 4) fun _ x => x.alg == a && x.deterministic == (o == 4)),
      [2, 3, 4, 5].all (fun a => readies 0x0A a 1 0 (zeros 4) fun _ x => x.alg == a && !x.pkInline)].all id) = true := by decide +kernel

/-- A public key off the curve, a signature of zeros, the published signature, and that of another message. -/
theorem test_met_signatureJobs_verify :
    verifies (0x04 :: zeros 64) sampleSig sample false false false = true ∧ verifies sampleKey (zeros 64) sample true true false = true
    ∧ verifies sampleKey sampleSig sample true false true = true ∧ verifies sampleKey sampleSig [0x73] true false false = true := by
  decide +kernel

/-- An RSA key whose modulus is above its inputs. -/
def rsaKey : KeyObj :=
  { (default : KeyObj) with alg := 0x10, pset := 1, pub := some (List.replicate (rsaK 1) 0xFF), priv := some (List.replicate 600 0xFF) }

/-- A private key of the two coprime odd numbers 2^1024 − 1 and 2^1024 − 3 whose exponents are all 1, so that every input below
their product comes back. -/
def rsaPrivate : Bytes :=
  let p := 2 ^ 1024 - 1
  let q := 2 ^ 1024 - 3
  beBytes 256 (p * q) ++ beBytes 4 1 ++ beBytes 256 1 ++ beBytes 128 p ++ beBytes 128 q ++ beBytes 128 1 ++ beBytes 128 1
    ++ beBytes 128 (2 ^ 1023 - 1)

theorem test_met_dhRsaJobs_private :
    let two := beBytes (rsaK 1) 2
    let plain := Rsa.padV15 256 (List.replicate 256 1) [7]
    let x (op : Nat) (b : Bytes) := jobFor op 0x10 1 (16 * 8 + 1) b
    let k (b : Bytes) : KeyObj := { rsaKey with priv := some b }
    let signs (b : Bytes) (ok : Bool) : Bool :=
      readyWith (jobState (x 0x15 (zeros 32)) (k b) .empty false) 0x15 (x 0x15 (zeros 32)) fun s =>
        let x := x 0x15 (zeros 32)
        stdHolds .rsaSignOk (ap 0x10 1) ((jobKey s x).sk :: (if x.scheme = 1 then fresh s 64 else []) :: rsaArgs x (zeros 32)) == ok
    let opens (b ct : Bytes) (ok pad : Bool) : Bool :=
      readyWith (jobState (x 0x17 ct) (k b) .empty false) 0x17 (x 0x17 ct) fun s =>
        let x := x 0x17 ct
        let args := [(jobKey s x).sk, [BitVec.ofNat 8 x.ph, BitVec.ofNat 8 x.scheme], [], ct]
        x.scheme == 0 && (checkRsaCt (beNat ((jobKey s x).sk.take (rsaK x.pset))) ct).isNone
          && stdHolds .rsaPlainOk (ap 0x10 1) args == ok && stdHolds .rsaPadOk (ap 0x10 1) args == pad
    ([signs rsaPrivate true, signs (rsaPrivate.set 1100 0) false, opens rsaPrivate two true false,
      opens rsaPrivate plain true true, opens (rsaPrivate.set 1100 0) plain false true].all id) = true := by decide +kernel

theorem test_met_dhRsaJobs :
    let two := beBytes (rsaK 1) 2
    ([readies 0x10 0x14 1 0 [] fun _ _ => true,
      readies 0x11 0x14 1 0 (leBytes 32 9) fun _ x => !x.outToCtx && (checkPublic x.alg x.pset false (leBytes 32 9)).isNone,
      readies 0x11 0x14 1 0 (zeros 32) fun _ x => !x.outToCtx && (checkPublic x.alg x.pset false (zeros 32)).isSome,
      readies 0x14 0x10 1 0 [] fun _ _ => true, readies 0x15 0x10 1 0 [] fun _ _ => true,
      (let x := jobFor 0x16 0x10 1 0 two
       readyWith (jobState x rsaKey .empty false) 0x16 x fun s => !x.pkInline
        && !sigRefused 0x10 x.pset (beNat ((jobKey s x).pk.take (rsaK x.pset))) (two.take (rsaK x.pset))),
      (let x := jobFor 0x17 0x10 1 0 two
       readyWith (jobState x rsaKey .empty false) 0x17 x fun s => x.scheme == 0
        && (checkRsaCt (beNat ((jobKey s x).sk.take (rsaK x.pset))) two).isNone),
      readies 0x18 0x10 1 0 [] fun _ x => !x.pkInline,
      -- an inline key that is refused and one that is not, a signature not below the modulus, a ciphertext that is refused
      [(0, false), (2 ^ 2047 + 1, true)].all (fun p =>
        let pk := beBytes (rsaK 1) p.1 ++ beBytes 4 65537
        [0x16, 0x18].all fun op => readies op 0x10 1 8 (pk ++ List.replicate (rsaK 1) 0xFF) fun _ x => x.pkInline
          && (checkRsaKey x.pset pk).isNone == p.2
          && sigRefused 0x10 x.pset (beNat (pk.take (rsaK x.pset))) (List.replicate (rsaK 1) 0xFF)),
      (let x := jobFor 0x17 0x10 1 0 (List.replicate (rsaK 1) 0xFF)
       readyWith (jobState x rsaKey .empty false) 0x17 x fun s =>
        (checkRsaCt (beNat ((jobKey s x).sk.take (rsaK x.pset))) (List.replicate (rsaK 1) 0xFF)).isSome)].all id) = true := by decide +kernel

theorem test_met_digestJobs :
    let st (op opt : Nat) (b : Bool) (h : Job → Bool) : Bool :=
      let x := jobFor op 8 1 opt (zeros 4)
      readyWith (jobState x default .empty b) op x fun s => (jobStream s x).any (·.final == b) && h x
    ([readies 0x20 0 1 0 (zeros 4) fun _ x => !isCshake x.pset, readies 0x21 0 1 0 (zeros 4) fun _ _ => true,
      st 0x22 0 false fun x => !bit x.opt 0, st 0x22 0 true fun x => !bit x.opt 0, st 0x22 1 false fun x => bit x.opt 0,
      st 0x22 3 true fun x => bit x.opt 0 && bit x.opt 1, st 0x23 0 true fun x => !bit x.opt 1,
      st 0x23 0 false fun x => !bit x.opt 0 && !bit x.opt 1, st 0x23 2 false fun x => bit x.opt 1,
      -- a stream that is gone
      [(0x22, 0), (0x22, 1), (0x23, 0), (0x23, 2)].all fun p =>
        let x := { jobFor p.1 8 1 p.2 (zeros 4) with streamUse := some 9 }
        readyWith (jobState x default .empty false) p.1 x fun s => (jobStream s x).isNone].all id) = true := by decide +kernel

/-- An RNG job with PR, its DRBG request, the noise that serves and the blocks that stand. -/
def rngState (prep noise block waits : Bool) : Job × State :=
  let x := { jobFor 0x38 0 0 1 [] with prepared := prep }
  let s := jobState x default .empty false
  (x, { s with faults.map := if noise then [⟨unitId 5 2, .serving, 0⟩] else [],
               entropy.blocks := if block then [(2, zeros 48)] else [],
               entropy.waiting := if waits then [(x.grove, some 7)] else [] })

theorem test_met_keyedJobs :
    let rng (prep noise block waits : Bool) : Bool :=
      let p := rngState prep noise block waits
      readyWith p.2 0x38 p.1 fun s => bit p.1.opt 0 && p.1.prepared == prep && (prep || anyNoise s == noise)
        && (prep || !noise || (takeBlock s p.1.grove).isSome == block)
        && (!prep || s.entropy.waiting.contains (p.1.grove, some p.1.id) == waits)
    ([readies 0x28 0x28 1 0 (zeros 4) fun _ x => !bit x.opt 0, readies 0x28 0x28 1 1 (zeros 4) fun _ x => bit x.opt 0,
      readies 0x29 0x2A 1 4 (zeros 4) fun _ x => x.kdfInline,
      readies 0x29 0x2A 1 0 (zeros 4) fun _ x => !x.kdfInline && !x.kdfFromCtx,
      (let x := jobFor 0x29 0x2A 1 8 (zeros 4)
       readyWith (jobState x default (.secret (zeros 32)) false) 0x29 x fun s => !x.kdfInline && x.kdfFromCtx
        && (ctxAt s x.ctxH).any fun c => c.slot x.kdfSlot == .secret (zeros 32)),
      [0, 2].all (fun o => readies 0x30 0x30 1 o (zeros 4) fun _ x => x.fromCtx == (o == 2)),
      [0, 2].all (fun o => readies 0x31 0x30 1 o (zeros 4) fun _ x => x.fromCtx == (o == 2)),
      readies 0x38 0 0 0 [] fun _ x => !bit x.opt 0,
      rng false false false false, rng false true true false, rng false true false false, rng true true false false,
      rng true true false true].all id) = true := by decide +kernel

/-- A FUNNEL manager with a member that has joined, whose job names a replicated object; an object with PERSIST and a revocation
list of so many entries. -/
def funnelled (x : Job) (k : KeyObj) (revoked : Nat) : State :=
  { jobState x k .empty false with
    shelf.revoked := List.replicate revoked (9, 9), tether.joined := true, tether.active := 1, tether.mode := 0, tether.member := 0,
    tether.members := [{ (default : Member) with num := 1, joined := true }] }

theorem test_met_keyAndContextJobs :
    let imports (opt alg : Nat) (b : Bytes) (h : State → Job → Bool) := readies 0x40 alg 1 opt b h
    let destroys (persist : Bool) (n : Nat) (asks : Bool) : Bool :=
      let x := { jobFor 0x42 0 0 0 [] with prepared := !asks }
      let k : KeyObj := { (default : KeyObj) with alg := 0x30, policy := if persist then 2 ^ pPersist else 0 }
      readyWith (funnelled x k n) 0x42 x fun s => s.funnels && (jobKey s x).replicated && !s.peersJoined.isEmpty
        && (jobKey s x).has pPersist == persist && decide (4096 ≤ s.shelf.revoked.length) == (n == 4096)
    ([imports 0 0x14 (zeros 32) fun s x => !x.generate
        && (match importText s x (zeros 32) with | .ok m => m == zeros 32 | _ => false)
        && (importChecks x.form x.alg x.pset (bit x.policy pSmallOrder) (zeros 32)).isSome,
      imports 0 0x14 (leBytes 32 9) fun _ x => !x.generate && !x.wrapped
        && (importChecks x.form x.alg x.pset (bit x.policy pSmallOrder) (leBytes 32 9)).isNone && !(x.alg == 0x10 && x.form == 1),
      imports 1 0x10 rsaPrivate fun _ x => x.alg == 0x10 && x.form == 1
        && (importChecks x.form x.alg x.pset (bit x.policy pSmallOrder) rsaPrivate).isNone,
      imports 16 0x14 (zeros 4) fun s x => x.wrapped && (match importText s x (zeros 4) with | .error _ => true | _ => false),
      readies 0x40 0x28 1 0x24 [] fun _ x => x.generate, readies 0x41 0 0 0 [] fun _ _ => true,
      destroys true 4095 true, destroys true 4095 false, destroys true 4096 false, destroys false 4096 false,
      readies 0x43 0 0 1 [] fun _ x => bit x.opt 0,
      readies 0x43 0 0 0 [] fun s x => !bit x.opt 0 && !isStateful (jobKey s x).alg,
      readies 0x49 0x2A 1 0 [] fun s x => (ctxAt s x.ctxH).isSome,
      [0, 8].all (fun o => readies 0x4A 0 0 o [] fun s x => (ctxAt s x.ctxH).isSome && bit x.opt 3 == (o == 8)),
      [0, 8].all (fun o => readies 0x4B 0 0 o [] fun _ x => bit x.opt 3 == (o == 8))].all id) = true := by decide +kernel

theorem test_met_shelfWrite :
    let k (b : Bool) : KeyObj := { (default : KeyObj) with policy := 2 ^ pPersist, shelved := b }
    let s (b : Bool) : State := { live with store.keys := [k b] }
    (keyAt (s true) 0 = some (k true) ∧ (s true).service = true ∧ (k true).shelved = true)
    ∧ keyAt (s false) 1 = none
    ∧ (let u : State := { s false with flashSize := 0 }
       keyAt u 0 = some (k false) ∧ u.shelfCapacity = 0)
    ∧ (keyAt (s false) 0 = some (k false) ∧ (s false).service = true ∧ (k false).has pPersist = true ∧ (k false).doomed = false
      ∧ (k false).shelved = false ∧ (s false).shelfCapacity ≠ 0) := by decide +kernel

/-! ### The engines -/

/-- A DIGEST job in its slice on engine 0, and the architectural state of its run at PC 0x100. -/
def engJob (op opt : Nat) : Job :=
  { (default : Job) with id := 1, depTag := 0xFFFF, opcode := op, opt := opt, start := some 90, sliceTick := some 100,
                         dep := .confirmed, outLen := 64, alg := 1, pset := 1 }
def archAt (pc : Nat) : Arch := { entryArch (engJob 0x20 0) pc with work := [] }
def engOf (s : State) (j : Job) (a : Arch) : Eng :=
  let r := { newRun live j [1, 2, 3, 4, 5, 6, 7, 8] with
    cur := a, recA := { arch := a, seq := 0, valid := true }, recB := { arch := a, seq := 0, valid := false } }
  ⟨{ s with work.jobs := [j], work.sqs := [someSq 0 0 0 0], work.cqs := [{ someCq 0 0 0 0 with reserved := 1 }], exec.runs := [r] }, j, r⟩

/-- A vendor job with these stacks. -/
def vendor (ds rs : List TWord) : Eng := engOf live (engJob 0x20 0) { archAt 0x100 with ds := ds, rs := rs }

/-- An owner routine of 64 words whose first is `w`, at its entry, with so many strikes. -/
def owner (w strikes : Nat) : Eng :=
  let rt : Routine := { (default : Routine) with id := 1, segBound := 100, budget := 4, keyAlg := 0x30, inMax := 100,
                                                 code := w :: List.replicate 63 0 }
  engOf { live with grafts.routines := [rt], grafts.bundle := true } { engJob 0x60 1 with strikes := strikes } (archAt 0x1800)

/-- The premise `OnEngine`. -/
def onEngine (e : Eng) (w : Nat) : Bool :=
  decide (e.s.job? 1 = some e.j ∧ inSlice e.s e.j = true ∧ e.s.run? 1 = some e.r ∧ e.r.paused = false ∧ fetches e.s e.j e.r w = true)

def tw (n : Nat) : TWord := ⟨BitVec.ofNat 32 n, false⟩
def tagged (n : Nat) : TWord := ⟨BitVec.ofNat 32 n, true⟩
def full (n : Nat) : List TWord := List.replicate n (tw 3)

/-- The stack that each clause asks for stands there: shapes and lengths are read off the operands. -/
theorem test_met_aladaStackMachine :
    ([binaries.all (fun p => onEngine (vendor (tw 1 :: tagged 2 :: full 30) []) p.2.1 && onEngine (vendor (full 1) []) p.2.1),
      shifts.all (fun p => onEngine (vendor (tw 33 :: tw 2 :: full 30) []) p.2.1 && onEngine (vendor [tagged 33, tw 2] []) p.2.1),
      takers.all (fun p => onEngine (vendor (full (p.2.2 - 1)) []) p.2.1),
      pushers.all (fun p => onEngine (vendor (full 32) [tw 1]) p.2),
      [(full 32, [], 0x15), (full 32, [], 0x1E), (full 0, [], 0x00), (full 31, [], 0x01), (full 32, [], 0x01), (full 32, [], 0x02),
        (full 32, [], 0x03), (full 31, [], 0x04), (full 32, [], 0x05), (full 1, full 15, 0x06), (full 1, full 16, 0x06),
        (full 31, full 16, 0x07), (full 31, full 16, 0x08), (full 31, [], 0x07), (full 31, [], 0x08), (full 31, [], 0x09),
        (full 31, [], 0x1000 + 4095), (full 32, [], 0x1000), (full 32, [], 0x2000 + 4095), ([], [], 0x2000)].all fun x =>
          onEngine (vendor x.1 x.2.1) x.2.2].all id) = true := by decide +kernel

/-- A KEY range whose delivery is under way. -/
def delivering (ds : List TWord) : Eng :=
  let e := vendor ds []
  let r := { e.r with delivery := some ⟨1, 0xD000, zeros 64⟩ }
  ⟨{ e.s with exec.runs := [r] }, e.j, r⟩

/-- Fetches and stores of each width, tagged and misaligned addresses, of every region at its edges, stores of a tagged value to OUT,
IFETCH. -/
theorem test_met_aladaMemory :
    let isErr (r : Except Halt (Bytes × Bool)) (h : Halt) : Bool := match r with | .error k => k == h | _ => false
    ([[(0x20, 4), (0x22, 2), (0x24, 1)].all (fun p =>
        [0, 0x8000 - p.2, 0x8008 - p.2, 0xB000, 0xD000, 0xFFFC].all (fun a =>
          onEngine (vendor [tw a] []) p.1 && (match dRead (vendor [tw a] []) a p.2 with | .ok _ => true | _ => false) && decide (a % p.2 = 0))
        && onEngine (vendor [tw 0x10000] []) p.1 && isErr (dRead (vendor [tw 0x10000] []) 0x10000 p.2) .access
        && onEngine (delivering [tw 0xD03C]) p.1 && isErr (dRead (delivering [tw 0xD03C]) 0xD03C p.2) .stall
        && onEngine (vendor [tagged 4] []) p.1
        && (p.2 == 1 || (onEngine (vendor [tw (4 + p.2 / 2)] []) p.1 && decide ((4 + p.2 / 2) % p.2 ≠ 0)))),
      [(0x21, 4), (0x23, 2), (0x25, 1)].all (fun p =>
        onEngine (vendor [tw (0x8000 - p.2), tagged 7] []) p.1 && decide ((0x8000 - p.2) % p.2 = 0 ∧ 0x8000 - p.2 < 0x8000)
        && (let e := vendor [tw (0xB000 + 64 - p.2), tw 7] []
            onEngine e p.1 && decide ((0xB000 + 64 - p.2) % p.2 = 0
              ∧ e.r.cur.outBase.toNat + (0xB000 + 64 - p.2 - 0xB000) + p.2 ≤ e.j.outLen))
        && (let e := vendor [tw (0xB000 + 64), tw 7] []
            onEngine e p.1 && decide ((0xB000 + 64) % p.2 = 0 ∧ e.j.outLen < e.r.cur.outBase.toNat + 64 + p.2))
        && [0x8000, 0xAFFC, 0xD000, 0x10000].all (fun a => onEngine (vendor [tw a, tagged 7] []) p.1 && decide (a % p.2 = 0))
        && onEngine (vendor [tagged 0, tw 7] []) p.1 && onEngine (vendor [tw 0xCFFF, tagged 7] []) p.1
        && onEngine (vendor [tw 0xB000, tagged 7] []) p.1
        && (p.2 == 1 || [(tw 0x7FFF, tagged 7), (tw 0xB001, tw 7), (tw 0xD001, tagged 7)].all fun x =>
          onEngine (vendor [x.1, x.2] []) p.1 && decide (x.1.v.toNat % p.2 ≠ 0))),
      onEngine (vendor [tw 0x1FFF] []) 0x26 && onEngine (vendor [tagged 1] []) 0x26,
      (match iSpace (owner 0x26 0) 0x1800 with | .ok _ => true | _ => false),
      (match iSpace (owner 0x26 0) 0x17FF with | .error h => h == .access | _ => false),
      onEngine (vendor [tw 0x2000] []) 0x26 && (jobRoutine (vendor [tw 0x2000] []).s (vendor [tw 0x2000] []).j).isNone,
      -- a region reads back
      (let m : List DCell := [⟨1, 7, true⟩, ⟨3, 9, false⟩]
       decide (m.Pairwise (fun c d => c.idx < d.idx)) && [(1, 5), (2, 6), (4, 4)].all fun p => decide (p.2 % p.1 = 0))].all id) = true := by
  decide +kernel

/-- Branch targets at both ends of the offset, a condition that is zero and one that is not, the counter at 1 and at 0, tagged
words, targets outside an owner routine, calls to the highest address, empty and full stacks. -/
theorem test_met_aladaFlow :
    let t (pc off : Nat) := if off < 512 then (pc + 1 + off) % 8192 else (pc + 1 + off + 7168) % 8192
    let out (w : Nat) (ds rs : List TWord) : Eng :=
      let e := owner w 0
      engOf e.s e.j { e.r.cur with ds := ds, rs := rs }
    ([[0, 511, 512, 1023].all (fun off =>
        mayGo (vendor [] []) (t 0x100 off) && onEngine (vendor [] []) (0x3000 + off)
        && [tw 0, tw 1, tagged 1].all fun a => onEngine (vendor [a] []) (0x3400 + off) && onEngine (vendor [a] []) (0x3C00 + off)
          && onEngine (vendor [] [a]) (0x3800 + off)),
      -- out of an owner routine's code
      [(0x3200, [], []), (0x3600, [tw 0], []), (0x3E00, [tw 1], []), (0x3A00, [], [tw 0])].all (fun x =>
        onEngine (out x.1 x.2.1 x.2.2) x.1 && !mayGo (out x.1 x.2.1 x.2.2) (t 0x1800 0x200)),
      [0x3400, 0x3C00, 0x3800].all (fun w => onEngine (vendor [] []) w),
      onEngine (vendor [] (full 15)) 0x4FFF && onEngine (vendor [] (full 16)) 0x4FFF && mayGo (vendor [] []) (2 * 0xFFF),
      onEngine (owner 0x4007 0) 0x4007 && (owner 0x4007 0).owner && !mayGo (owner 0x4007 0) (2 * 7),
      onEngine (owner 0x400B 0) 0x400B && !mayGo (owner 0x400B 0) (2 * 11),
      onEngine (owner 0x4C00 0) 0x4C00 && (owner 0x4C00 0).owner && mayGo (owner 0x4C00 0) (2 * 0xC00),
      [0x30, 0x31].all (fun w => onEngine (vendor [] []) w),
      onEngine (vendor [] [tw 0x2001]) 0x30 && mayGo (vendor [] []) 0x2001 && onEngine (vendor [] [tagged 5]) 0x30,
      onEngine (out 0x30 [] [tw 0x17FF]) 0x30 && !mayGo (out 0x30 [] []) 0x17FF,
      onEngine (vendor [tw 0x55] (full 15)) 0x31 && mayGo (vendor [] []) 0x55 && onEngine (vendor [tagged 0x55] []) 0x31,
      onEngine (vendor [tagged 0x55] (full 16)) 0x31 && onEngine (out 0x31 [tw 0x1840] []) 0x31
        && !mayGo (out 0x31 [] []) 0x1840].all id) = true := by decide +kernel

/-- COMMIT, YIELD and END, in a sprint job with room for a segment and without, END with too long a result, with JOB_STATUS 1 and 2,
each within a vector instruction; an unassigned word at the first strike, at the second of an owner's and of a vendor's routine. -/
theorem test_met_aladaCommitsAndFaults :
    let at' (f : Arch → Arch) := engOf live (engJob 0x20 0) (f (archAt 0x100))
    let clear (e : Eng) : Bool := decide (e.r.cur.vstart = 0 ∧ e.r.cur.vfaultElem.toNat < 2 ^ 31)
    let sprint (planned : Nat) : Eng :=
      let e := owner 0x32 0
      engOf { e.s with engines := live.engines.map fun e => { e with planned := planned } } { e.j with sprint := true } e.r.cur
    ([[0x32, 0x33, 0x34].all (fun w =>
        onEngine (at' id) w && clear (at' id)
        && onEngine (at' fun a => { a with vstart := 1 }) w && onEngine (at' fun a => { a with vfaultElem := 0x80000000 }) w),
      !(at' id).j.sprint,
      [(800, true), (801, false)].all (fun p => onEngine (sprint p.1) 0x32 && clear (sprint p.1)
        && (nextSegment (showMxu (sprint p.1).s 1) (sprint p.1).j).isSome == p.2),
      [(65, 0), (64, 1), (64, 2)].all (fun p =>
        let e := at' fun a => { a with jobResultLen := BitVec.ofNat 32 p.1, jobStatus := BitVec.ofNat 32 p.2 }
        onEngine e 0x34 && clear e && e.j.outLen == 64),
      [0x0A, 0x7000, 0xFFFF].all (fun w => onEngine (vendor [] []) w && !assignedWord w) && (vendor [] []).j.strikes == 0,
      assignedWord 0x09 && assignedWord 0xBFFF == false && assignedWord 0x4FFF,
      onEngine (owner 0x7000 1) 0x7000 && !assignedWord 0x7000 && (jobRoutine (owner 0x7000 1).s (owner 0x7000 1).j).isSome,
      (let e := engOf live { engJob 0x20 0 with strikes := 1 } (archAt 0x100)
       onEngine e 0xFFFF && (jobRoutine e.s e.j).isNone)].all id) = true := by decide +kernel

/-- What an engine row leaves of the run. -/
def curAfter (o : Host.Outcome State Fault Refusal) : Arch := (((post o).run? 1).getD default).cur

-- Table 11.3: ROT ( x y z - y z x ), OVER ( a b - a b a ), SUB ( a b - a-b ), LT signed, SAR by the count modulo 32
theorem test_stack_diagrams :
    (curAfter (exec (.alRot 1) (vendor [tw 3, tw 2, tw 1] []).s)).ds = [tw 1, tw 3, tw 2]
    ∧ (curAfter (exec (.alOver 1) (vendor [tw 2, tw 1] []).s)).ds = [tw 1, tw 2, tw 1]
    ∧ (curAfter (exec (.alSub 1) (vendor [tw 2, tagged 1] []).s)).ds = [tagged 0xFFFFFFFF]
    ∧ (curAfter (exec (.alLt 1) (vendor [tw 1, tw 0x80000000] []).s)).ds = [tw 0xFFFFFFFF]
    ∧ (curAfter (exec (.alSar 1) (vendor [tw 33, tw 0x80000001] []).s)).ds = [tw 0xC0000000] := by decide +kernel

-- R296: LIT sign-extends its 12 bits, LITX shifts 12 bits in
theorem test_literals :
    (curAfter (exec (.alLit 1 0x800) (vendor [] []).s)).ds = [tw 0xFFFFF800]
    ∧ (curAfter (exec (.alLitx 1 0xABC) (vendor [tw 0x12345] []).s)).ds = [tw 0x12345ABC] := by decide +kernel

-- R297: DBNZ takes the branch until the counter it decrements is 0; offset 1023 is back to the instruction itself
theorem test_dbnz :
    (let c := curAfter (exec (.alDbnz 1 1023) (vendor [] [tw 2]).s); (c.pc, c.rs)) = (0x100, [tw 1])
    ∧ (let c := curAfter (exec (.alDbnz 1 1023) (vendor [] [tw 1]).s); (c.pc, c.rs)) = (0x101, []) := by decide +kernel

/-! ### Ports, hash states, secrets, owner routines -/

/-- Every readable port with 31 entries on the stack and with 32, every writable one with an untagged and a tagged word and with none,
an MXU result port without a result, the window bases with a multiple of 4,096 and another value, JOB_STATUS of a vendor's and an
owner's routine, the mailbox, ports that may not be touched. -/
theorem test_met_aladaPorts :
    ([(readPorts (vendor (full 31) []) ++ vendorReads (vendor [] [])).all (fun p => onEngine (vendor (full 31) []) (0x5000 + p.1)
        && onEngine (vendor (full 32) []) (0x5000 + p.1)) && !(vendor [] []).owner,
      (readPorts (owner 0x50F0 0)).contains (0xF0, 1) && onEngine (owner 0x50F0 0) 0x50F0,
      [0x44, 0x47].all (fun p => onEngine (vendor (full 31) []) (0x5000 + p)) && ((vendor [] []).s.mxuCmd? 1).isNone,
      (let e := vendor (full 31) []
       let s : State := { e.s with exec.mxu := [{ (default : MxuCmd) with job := 1, code := 5 }] }
       onEngine ⟨s, e.j, e.r⟩ 0x5046 && (s.mxuCmd? 1).any fun c => !c.seen),
      onEngine (vendor (full 31) []) 0x5001,
      writePorts.all (fun p => onEngine (vendor [tw 0xFFFFFFFF] []) (0x6000 + p.1) && onEngine (vendor [tagged 1] []) (0x6000 + p.1)
        && onEngine (vendor [] []) (0x6000 + p.1)),
      [0x600C, 0x600D].all (fun w => onEngine (vendor [tw 0xFFFFF000] []) w && decide (0xFFFFF000 % 4096 = 0)
        && onEngine (vendor [tw 4097] []) w),
      onEngine (vendor [tw 2] []) 0x600E && !(vendor [tw 2] []).owner && onEngine (vendor [tw 7] []) 0x6020,
      onEngine (vendor [tw 7] []) 0x6034,
      [0x6008, 0x600A, 0x6040, 0x6041, 0x6042, 0x6043, 0x6050].all (fun w => onEngine (vendor [tw 7] []) w),
      onEngine (vendor [tagged 7] []) 0x6043,
      (let e := owner 0x600E 0
       let e1 : Eng := engOf e.s e.j { e.r.cur with ds := [tw 0xFF0001] }
       let e2 : Eng := engOf e.s e.j { e.r.cur with ds := [tw 2] }
       onEngine e1 0x600E && e1.owner && decide ((tw 0xFF0001).v.toNat % 65536 ≤ 1) && onEngine e2 0x600E && e2.owner),
      !portOk (vendor [] []) 0xFF && onEngine (vendor [] []) 0x50FF && onEngine (vendor [tw 0] []) 0x60FF,
      !portOk (owner 0x6008 0) 0x08 && onEngine (owner 0x6008 0) 0x6008].all id) = true := by decide +kernel

/-- A vendor job with its first hash state and its data stack. -/
def hashing (h : HashState) (ds : List TWord) : Eng :=
  engOf live (engJob 0x20 0) { archAt 0x100 with ds := ds, hash := h :: List.replicate 3 idleHash }

theorem test_met_aladaHash :
    let ready : HashState := { idleHash with rate := 0x11, func := 8 }
    ([-- INIT of FUNC 0, 6, 8; of 7 and 9; while busy
      ([0, 6, 8, 7, 9].all fun f => onEngine (hashing idleHash [tw (0x1101 + 16 * f)]) 0x6021
        && (tw (0x1101 + 16 * f)).v.toNat / 16 % 16 == f && (tw (0x1101 + 16 * f)).v.toNat % 4 == 1),
      onEngine (hashing { idleHash with busy := true } [tw 0x1181]) 0x6021,
      onEngine (hashing ready [tw 0x1182]) 0x6021 && (tw 0x1182).v.toNat % 4 == 2 && !ready.busy && !ready.squeeze,
      onEngine (hashing ready [tagged 0x1183]) 0x6021 && onEngine (hashing ready [tw 0x1180]) 0x6021,
      [0x6021, 0x6022, 0x6023].all (fun w => onEngine (hashing ready []) w),
      [ready, { ready with squeeze := true, rate := 0 }].all (fun h => onEngine (hashing h (full 31)) 0x5024 && !h.busy
        && !(h.squeeze && h.defined)),
      -- absorb in the squeeze, while busy, and else
      ([0x6022, 0x6023].all fun w => onEngine (hashing { ready with squeeze := true } [tw 1]) w
        && onEngine (hashing { ready with busy := true } [tw 1]) w && onEngine (hashing ready [tagged 1]) w),
      onEngine (hashing { ready with busy := true } (full 31)) 0x5024,
      (let h := { ready with squeeze := true }
       onEngine (hashing h (full 31)) 0x5024 && !h.busy && (selected (hashing h (full 31))).defined),
      (let e := hashing { ready with busy := true } []
       e.s.run? 1 == some e.r && (e.r.cur.hash[3]?).isSome)].all id) = true := by decide +kernel

/-- A job with a key object at index 5, and its run with an instruction of an owner's routine or of the library. -/
def keyed (j : Job) (w : Option Nat) (a : Arch) : Eng :=
  let k : KeyObj := { (default : KeyObj) with index := 5, alg := 0x30, pset := 1, pub := some (List.replicate 100 7),
                                              priv := some (List.replicate 100 9) }
  let s := (match w with
    | some w => (owner w 0).s
    | none => live)
  engOf { s with store.keys := [k, { k with index := 6, alg := 0x28 }] } j a

theorem test_met_aladaSecrets :
    let ask (v : Nat) := keyed { engJob 0x20 0 with keyIdx := some 5 } none { archAt 0x100 with ds := [tw v] }
    let struck (us : List Upset) (b : Bool) : Bool := us.all fun u => match strikeVault (ask 0xD000).s (ask 0xD000).j u with
      | (s, k) => k == b && (b || decide (s = (ask 0xD000).s))
    let decl (op src dst v : Nat) : Eng :=
      let e := engOf live (engJob op 0) { archAt 0x100 with ds := [tw v], work := [⟨1, 0xAABBCCDD, true⟩] }
      let r := { e.r with declSrc := BitVec.ofNat 32 (dst * 65536 + src) }
      ⟨{ e.s with exec.runs := [r] }, e.j, r⟩
    let reads (e : Eng) (n : Nat) : Bool := match dRead e (e.r.declSrc.toNat % 65536) n with | .ok _ => true | _ => false
    let allows (e : Eng) (k : Nat) (b : Bool) : Bool := onEngine e 0x6051 && !e.owner && declAllowed e.j k == b
    ([-- KEY_REQ: a struck line, a glitch, a tagged request, source 3 and a context's of an owner routine
      struck [.vault .key] true, struck [.none, .pairwise] false, struck [.glitch] false,
      onEngine (keyed { engJob 0x20 0 with keyIdx := some 5 } none { archAt 0x100 with ds := [tagged 0xD000] }) 0x6010,
      onEngine (ask 0xC000D000) 0x6010 && (ask 0xC000D000).r.delivery.isNone && (tw 0xC000D000).v.toNat / 2 ^ 30 == 3,
      (let e := keyed { engJob 0x60 1 with keyIdx := some 5 } (some 0x6010) { archAt 0x1800 with ds := [tw 0x8000D000] }
       onEngine e 0x6010 && e.owner && (tw 0x8000D000).v.toNat / 2 ^ 30 == 2),
      -- destinations below, above and off 64; one while another delivery is under way; the last 64 bytes of either half
      ([0xCFC0, 0xF000, 0xD001].all fun v => onEngine (ask v) 0x6010 && decide ((tw v).v.toNat / 2 ^ 30 ≤ 1)
        && (let d := (tw v).v.toNat % 65536; d % 64 != 0 || decide (d < 0xD000) || decide (0xF000 ≤ d))),
      (let e := delivering [tw 0xD000]
       onEngine e 0x6010 && e.r.delivery.isSome),
      ([0x0001EFC0, 0x4001EFC0].all fun v => onEngine (ask v) 0x6010 && (ask v).r.delivery.isNone
        && (keyMaterial (ask v) (v / 2 ^ 30)).isSome
        && (keyAt (ask v).s 5).any (fun k => decide (k.material ≤ 65536))
        && decide ((tw v).v.toNat % 65536 = 0xEFC0 ∧ 0xEFC0 % 64 = 0 ∧ 64 * ((tw v).v.toNat / 2 ^ 16 % 2 ^ 14) < 100)),
      onEngine (vendor [tw 5] []) 0x6008 && !(vendor [tw 5] []).owner,
      onEngine (engOf (owner 0x6008 0).s (owner 0x6008 0).j { (owner 0x6008 0).r.cur with ds := [tw 5] }) 0x6008,
      -- DECL_GO: an owner's; a KIND the opcode has not; of no bytes; in and beyond the job's output and the window; a verdict
      (let e := owner 0x6051 0
       let e := engOf e.s e.j { e.r.cur with ds := [tw 0x40007] }
       onEngine e 0x6051 && e.owner),
      allows (vendor [tw 0x40007] []) 7 false,
      [7, 0x20010007].all (fun v => allows (decl 0x38 4 0xB000 v) 7 true && (v / 65536 == 0 || decide (8192 < v / 65536))),
      allows (decl 0x38 4 0xB03C 0x00040007) 7 true && reads (decl 0x38 4 0xB03C 0x00040007) 4 && decide (0x3C + 4 ≤ 64 ∧ 0xB03C + 4 ≤ 0xD000),
      allows (decl 0x38 4 0xB03D 0x00040007) 7 true && reads (decl 0x38 4 0xB03D 0x00040007) 4 && decide (64 < 0x3D + 4),
      [0xAFFF, 0xCFFD].all (fun d => allows (decl 0x38 4 d 0x00040007) 7 true && (decide (d < 0xB000) || decide (0xD000 < d + 4))),
      allows (decl 0x16 4 0x7FFC 0x00040008) 8 true && reads (decl 0x16 4 0x7FFC 0x00040008) 4,
      allows (decl 0x16 4 0x7FFC 0x00050008) 8 true,
      (let e := engOf live (engJob 0x20 0) { archAt 0x100 with ds := [tagged 9], vfaultElem := 0x80000002, vstart := 2 }
       onEngine e 0x6037 && decide (2 ^ 31 ≤ e.r.cur.vfaultElem.toNat)),
      onEngine (vendor [tw 9] []) 0x6037 && decide ((vendor [tw 9] []).r.cur.vfaultElem.toNat < 2 ^ 31),
      [31, 32].all (fun n => onEngine (vendor (full n) []) 0x5018) && !drbgDown (vendor [] []).s (vendor [] []).j,
      (let e := vendor [] []
       let e : Eng := ⟨{ e.s with groves := List.replicate 16 { Grove.reset with drbgUp := true, drbgError := true } }, e.j, e.r⟩
       onEngine e 0x5018 && drbgDown e.s e.j),
      (vendor [] []).r.delivery.isNone && (vendor [] []).s.run? 1 == some (vendor [] []).r,
      (let e := vendor [] []
       let r := { e.r with delivery := some ⟨1, 0xEFC0, [1, 2, 3, 4]⟩ }
       ({ e.s with exec.runs := [r] } : State).run? 1 == some r)].all id) = true := by decide +kernel

theorem test_met_routineCalls :
    let rj : Job := { engJob 0x60 1 with outLen := 512, keyIdx := some 5 }
    let run (w : Nat) (ds : List TWord) := keyed rj (some w) { archAt 0x1800 with ds := ds }
    let calls (x : Job) (h : State → Bool) : Bool := (jobState x default .empty false).job? 7 == some x && x.opcode == 0x60
      && h (jobState x default .empty false)
    let tagger (ds : List TWord) : Eng :=
      let e := keyed { rj with keyIdx := some 6 } (some 0x4009) { archAt 0x1800 with ds := ds }
      ⟨{ e.s with grafts.routines := e.s.grafts.routines.map fun r => { r with keyAlg := 0x28 } }, e.j, e.r⟩
    ([(let x := jobFor 0x60 0 0 1 [1, 2]
       calls x fun s => inSlice s x && (s.run? 7).isNone && (jobInput s x).2 == some [1, 2] && (enterRun s x).2.isSome),
      (let x := { jobFor 0x60 0 0 1 [] with sliceTick := some 99 }
       calls x fun s => !inSlice s x),
      (let x := { jobFor 0x60 0 0 1 [] with input := none, inst := 9, inLen := 4 }
       calls x fun s => inSlice s x && (s.run? 7).isNone && (jobInput s x).2.isNone),
      -- the instructions of a routine, and a run that has none to run
      ownerWord (run 0x10 []).s 1 == some 0x10 && (ownerWord (vendor [] []).s 1).isNone,
      (match aladaWord 1 0x10 (run 0x10 []).s with | .next _ => true | _ => false),
      -- gates: of a vendor routine, with too few operands, without room
      [(0x4008, 3), (0x4009, 2), (0x400A, 1)].all (fun p => onEngine (vendor [] []) p.1 && !(vendor [] []).owner
        && onEngine (run p.1 (full p.2)) p.1 && (run p.1 (full p.2)).owner
        && onEngine (keyed rj (some p.1) { archAt 0x1800 with rs := full 16 }) p.1),
      -- GATE_SEAL without a key, of 257 bytes, of 256 bytes up to the end of the window, at a tagged address, of nothing
      (let e := keyed { rj with keyIdx := none } (some 0x4008) { archAt 0x1800 with ds := full 4 }
       onEngine e 0x4008 && e.owner && (gateKey e [0x30, 0x31]).isNone),
      onEngine (run 0x4008 [tw 0xB000, tw 257, tw 0, tw 0]) 0x4008,
      ([(tw 256, 256), (tagged 256, 256), (tw 0, 0)].all fun p =>
        let e := run 0x4008 [tw (0xB000 + 240), p.1, tw 0, tw 0x7FF4]
        onEngine e 0x4008 && e.owner && e.j.keyIdx == some 5 && (gateKey e [0x30, 0x31]).isSome && decide (240 + p.2 + 16 ≤ e.j.outLen)
        && (match dRead e 0x7FF4 12, (if p.2 = 0 then .ok ([], false) else dRead e 0 p.2) with
          | .ok (nb, t), .ok (b, _) => !t && (gateKey e [0x30, 0x31]).any fun k =>
            (aeadSealOf (ap k.alg k.pset) k.sk nb [] b).length == p.2 + 16
          | _, _ => false)),
      -- GATE_TAG without a key of its kind, of 513 bytes, of 512 bytes, at a tagged address
      onEngine (run 0x4009 (full 3)) 0x4009 && (gateKey (run 0x4009 (full 3)) [0x28, 0x29]).isNone,
      onEngine (tagger [tw 0xB000, tw 513, tw 0]) 0x4009,
      ([tw 0xB000, tagged 0xB000].all fun d =>
        let e := tagger [d, tw 512, tw 0]
        onEngine e 0x4009 && e.owner && (gateKey e [0x28, 0x29]).any (fun k => k.alg == 0x28
        && decide (1 ≤ hashLen k.pset ∧ hashLen k.pset ≤ e.j.outLen)
        && (match dRead e 0 512 with
          | .ok (b, _) => (hmacOf k.pset k.sk b).length == hashLen k.pset
          | _ => false))),
      -- GATE_RANDOM of 0, 257 and 256 bytes, at a tagged address, at the end of WORK and of the output, with no DRBG
      ([0, 257].all fun n => onEngine (run 0x400A [tw n, tw 0]) 0x400A && (run 0x400A [tw n, tw 0]).owner),
      onEngine (run 0x400A [tw 256, tagged 0x7F00]) 0x400A,
      [0x7F00, 0xB100].all (fun a => onEngine (run 0x400A [tw 256, tw a]) 0x400A) && !drbgDown (run 0x400A []).s (run 0x400A []).j
        && decide (0x100 + 256 ≤ (run 0x400A []).j.outLen),
      (let e := run 0x400A [tw 256, tw 0x7F00]
       let e : Eng := ⟨{ e.s with groves := List.replicate 16 Grove.reset }, e.j, e.r⟩
       onEngine e 0x400A && drbgDown e.s e.j)].all id) = true := by decide +kernel

/-! ### Short vectors -/

/-- A vendor job with ELEM_SHIFT `ws`, SV register 1 tagged. -/
def shorts (ws : Nat) (ds : List TWord) : Eng :=
  engOf live (engJob 0x20 0) { archAt 0x100 with
    vcfg := BitVec.ofNat 32 (ws * 256), ds := ds,
    sv := ((List.replicate 16 ⟨0, false⟩).set 1 ⟨0xFF01FE0203048005AA66778899001122#128, true⟩).set 2
      ⟨0x01FF0203F4050607FB8090A0B0C0D0E0#128, false⟩ }

/-- The same with a captured vector fault; with the job's OUT_LEN at `n`; with a delivery into KEY under way. -/
def shortsFault : Eng := engOf live (engJob 0x20 0) { (shorts 3 [tw 0]).r.cur with vfaultElem := 0x80000000 }
def shortsOut (n : Nat) (ds : List TWord) : Eng := engOf live { engJob 0x20 0 with outLen := n } (shorts 0 ds).r.cur
def shortsKey (ds : List TWord) : Eng :=
  let e := shorts 0 ds
  let r := { e.r with delivery := some ⟨1, 0xD000, zeros 64⟩ }
  ⟨{ e.s with exec.runs := [r] }, e.j, r⟩

/-- The code of an SV instruction, and does a read of 16 bytes end so? -/
def svCode (op d x : Nat) : Nat := 0x8000 + op * 256 + d * 16 + x
def reads (e : Eng) (a : Nat) (h : Option Halt) : Bool := match dRead e a 16 with
  | .ok _ => h.isNone
  | .error k => h == some k

theorem test_met_shortVectorStops :
    (svAll.all (fun p => onEngine shortsFault (svCode p.2 15 0) && decide (2 ^ 31 ≤ shortsFault.r.cur.vfaultElem.toNat))
    && svTakers.all (fun p => onEngine (shorts 3 []) (svCode p.2 15 15))
    && onEngine (shorts 3 []) 0x810F && decide ((shorts 3 []).r.cur.vfaultElem.toNat < 2 ^ 31)) = true := by decide +kernel

theorem test_met_shortVectorUnit :
    ([svPairs.all (fun p => onEngine (shorts 3 []) (svCode p.2.1 15 15)),
      svShifts.all (fun p => onEngine (shorts 3 [tw 0xFFFFFFFF]) (svCode p.2.1 15 0) && onEngine (shorts 0 [tagged 1]) (svCode p.2.1 0 15)),
      svWholes.all (fun p => onEngine (shorts 0 []) (svCode p.2.1 15 0)),
      [tw 0, tagged 1].all (fun n => onEngine (shorts 0 [n]) (svCode 0x0B 15 15)),
      onEngine (shorts 0 []) (svCode 0x0C 15 15), onEngine (shorts 0 []) (svCode 0x0D 15 0),
      onEngine (shorts 0 []) (svCode 0x0D 15 15), onEngine (shorts 0 []) (svCode 0x0E 15 15),
      -- LD of the last 16 bytes of WORK, beyond the map, of a KEY range under delivery; a tagged and a misaligned address
      onEngine (shorts 0 [tw 0x7FF0]) (svCode 0x00 15 15) && reads (shorts 0 []) 0x7FF0 none,
      onEngine (shorts 0 [tw 0x10000]) (svCode 0x00 15 15) && reads (shorts 0 []) 0x10000 (some .access),
      onEngine (shortsKey [tw 0xD030]) (svCode 0x00 0 0) && reads (shortsKey []) 0xD030 (some .stall),
      onEngine (shorts 0 [tagged 0]) (svCode 0x00 0 0), onEngine (shorts 0 [tw 8]) (svCode 0x00 0 0),
      -- ST to the last 16 bytes of WORK, of OUT_LEN, one byte short of it, to IN; tagged into OUT, misaligned; with DST not 0
      onEngine (shorts 0 [tw 0x7FF0]) (svCode 0x01 0 1) && (svAt (shorts 0 []).r.cur 1).tag,
      onEngine (shortsOut 64 [tw 0xB030]) (svCode 0x01 0 2) && onEngine (shortsOut 63 [tw 0xB030]) (svCode 0x01 0 2)
        && (shortsOut 64 []).r.cur.outBase == 0,
      onEngine (shorts 0 [tw 0x8000]) (svCode 0x01 0 2), onEngine (shorts 0 [tw 0xB000]) (svCode 0x01 0 1),
      onEngine (shorts 0 [tagged 0]) (svCode 0x01 0 0), onEngine (shorts 0 [tw 8]) (svCode 0x01 0 0),
      onEngine (shorts 0 [tw 0]) (svCode 0x01 1 0),
      -- TOS and FROMS at the last index of each width, one beyond it, and tagged
      [0, 1, 2, 3].all fun ws =>
        let n := 128 / (8 * 2 ^ ws)
        [tw (n - 1), tw n, tagged 0].all fun i => onEngine (shorts ws (i :: full 30)) (svCode 0x12 0 15)
          && onEngine (shorts ws [i, tw 0xFFFFFFFF, tagged 5]) (svCode 0x13 15 0),
      -- a push of two words beyond the stack, and too few words
      onEngine (shorts 3 (tw 1 :: full 31)) (svCode 0x12 0 15), onEngine (shorts 3 [tw 1, tw 0]) (svCode 0x13 15 0),
      onEngine (shorts 2 [tw 3]) (svCode 0x13 15 0)].all id) = true := by decide +kernel

/-- The 128 bits of SV register `i` after a command. -/
def svAfter (o : Host.Outcome State Fault Refusal) (i : Nat) : BitVec 128 := (svAt (curAfter o) i).v

-- Table 11.8: ADD wraps in each byte, SHL takes its count modulo the element width
theorem test_sv_elements :
    svAfter (exec (.svAdd 1 1 2) (shorts 0 []).s) 1 = 0x00000005F709860CA5E6072849C0E102#128
    ∧ svAfter (exec (.svShl 1 1 2) (shorts 2 [tw 35]).s) 1 = 0xF80FF010182400285333BC40C8008910#128 := by decide +kernel

/-! ### Long vectors -/

/-- A vendor job with ELEM_WIDTH, LV_GROUP and ELEMS in VCFG and a modulus in VQ, LV register 4 tagged. -/
def longs (width group n q : Nat) (ds : List TWord) : Eng :=
  engOf live (engJob 0x20 0) { archAt 0x100 with
    vcfg := BitVec.ofNat 32 (n * 65536 + width * 1024 + group * 16), vq := BitVec.ofNat 32 q, vbound := 5, ds := ds,
    lv := (List.range 8).map fun i => ⟨BitVec.ofNat 2048 ((i + 3) ^ 800), i == 4⟩ }

/-- The three widths with 128, 64 and 32 elements of a register, groups of one, two and four, the last full, one of no elements. -/
def shapes : List (Nat × Nat × Nat × Nat) := [(0, 0, 128, 3329), (1, 1, 100, 8380417), (2, 2, 7, 3329), (0, 0, 0, 3329)]

theorem test_met_longVectorRules :
    (shapes.all (fun p =>
        let c := (longs p.1 p.2.1 p.2.2.1 p.2.2.2 []).r.cur
        c.lv.length == 8 && c.lvWidth != 0 && 4 % c.group == 0 && decide (c.lvN ≤ c.lvCount) && decide (c.lvN ≤ (List.range 128).length))
    && lvAll.all (fun p =>
        -- width 11; a group of two at register 1; 129 elements; a captured fault
        (let e := longs 3 0 1 5 []; onEngine e (lvCode p.2 3 7 7) && e.r.cur.lvWidth == 0)
        && (let e := longs 0 1 5 3 []; onEngine e (lvCode p.2 0 1 4) && 1 % e.r.cur.group != 0)
        && (let e := longs 0 0 129 3 []; onEngine e (lvCode p.2 0 0 4) && decide (e.r.cur.lvCount < e.r.cur.vcfg.toNat / 65536))
        && (let e := engOf live (engJob 0x20 0) { (longs 0 0 4 17 []).r.cur with vfaultElem := 0x80000000 }
            onEngine e (lvCode p.2 0 0 4) && decide (2 ^ 31 ≤ e.r.cur.vfaultElem.toNat)))) = true := by decide +kernel

/-- A VSTART left by another instruction, a VQ that does not suit each width, a second group that is not aligned, an empty stack. -/
theorem test_met_longVectorStops :
    (lvAll.all (fun p =>
        let e := engOf live (engJob 0x20 0) { (longs 0 0 4 17 []).r.cur with vstart := 1 }
        onEngine e (lvCode p.2 0 0 4) && e.r.cur.vstart != 0 && e.r.cur.pc != e.r.cur.vfaultElem.toNat / 2 ^ 13 % 2 ^ 13)
    && [(0, 3328, 16), (0, 1, 16), (0, 0x8001, 16), (1, 0x80000001, 32), (2, 3329, 64)].all (fun c =>
        lvModular.all fun p => onEngine (longs c.1 0 4 c.2.1 []) (lvCode p.2 0 0 4) && (longs c.1 0 4 c.2.1 []).r.cur.lvWidth == c.2.2)
    && lvTwo.all (fun p => onEngine (longs 0 1 4 3329 []) (lvCode p.2 3 2 5) && 5 % (longs 0 1 4 3329 []).r.cur.group != 0)
    && (let e := longs 0 0 4 3329 []
        [(0x00, 3, 0, 4), (0x0B, 3, 0, 4), (0x08, 1, 0, 4), (0x09, 1, 0, 4), (0x01, 3, 0, 4), (0x02, 3, 0, 4), (0x03, 3, 0, 4),
          (0x0C, 3, 0, 4), (0x0D, 3, 0, 4)].all (fun c => onEngine e (lvCode c.1 c.2.1 c.2.2.1 c.2.2.2))
        && !lvIllegal e.r.cur false [0] && !lvIllegal e.r.cur true [0] && !lvIllegal e.r.cur false [4]
        && !lvIllegal e.r.cur false [0, 4])) = true := by decide +kernel

theorem test_met_longVectorArithmetic :
    (shapes.all fun p =>
      let e (ds : List TWord) := longs p.1 p.2.1 p.2.2.1 p.2.2.2 ds
      let c := (e []).r.cur
      let on (ds : List TWord) (op m : Nat) := onEngine (e ds) (lvCode op m 0 4)
      -- 64-bit elements take no modular operation
      lvIllegal c true [0, 4] == (p.1 == 2) && lvIllegal c true [0] == (p.1 == 2) && !lvIllegal c false [0, 4]
      && !lvIllegal c false [0]
      && modulars.all (fun r => on [] r.2.1 3)
      && [(0x07, 0), (0x07, 1), (0x07, 2), (0x07, 3), (0x10, 3), (0x13, 0), (0x13, 1), (0x13, 2), (0x13, 3), (0x14, 0), (0x14, 1),
          (0x14, 2), (0x14, 3), (0x11, 3), (0x12, 0)].all (fun r => on [] r.1 r.2)
      && onEngine (e []) (lvCode 0x12 0 0 0)
      -- COMP by 1 and by the width, BFLY, CMOV of zero and of a tagged word, PERM, sums with 30 entries on the stack
      && [1, c.lvWidth].all (fun n => [0, 1, 2, 3].all (fun m => on [tw n] 0x09 m) && decide (1 ≤ n ∧ n ≤ c.lvWidth))
      && [0, 1].all (fun m => on [tw 0] 0x08 m)
      && (match tableBytes (e []) c.vtw.toNat (c.lvN * (c.lvWidth / 8)) with | .ok _ => true | _ => false)
      && [tw 0, tagged 1].all (fun n => on [n] 0x0C 0) && [0, 1, 2].all (fun m => on [] 0x0D m)
      && on (full 30) 0x0E 1 && on (full 30) 0x0F 2) = true := by decide +kernel

/-- A table that is not mapped, one that a delivery into KEY still fills, and the forms that stop. -/
theorem test_met_longVectorArithmeticStops :
    let at' (vtw : Nat) : Eng := engOf live (engJob 0x20 0) { (longs 0 0 4 3329 [tw 1]).r.cur with vtw := BitVec.ofNat 32 vtw }
    let under : Eng :=
      let e := at' 0xD000
      let r := { e.r with delivery := some ⟨1, 0xD000, zeros 64⟩ }
      ⟨{ e.s with exec.runs := [r] }, e.j, r⟩
    let is (e : Eng) (h : Halt) : Bool := match tableBytes e e.r.cur.vtw.toNat (e.r.cur.lvN * (e.r.cur.lvWidth / 8)) with
      | .error k => k == h
      | .ok _ => false
    let e (ds : List TWord) := longs 0 0 4 3329 ds
    ([onEngine (at' 0x10000) (lvCode 0x08 0 0 4) && is (at' 0x10000) .access, onEngine under (lvCode 0x08 1 0 4) && is under .stall,
      [(0x07, 2), (0x07, 3), (0x14, 2), (0x14, 3)].all (fun c => onEngine (e []) (lvCode c.1 c.2 0 4)),
      [(0x08, 2), (0x08, 3), (0x09, 2), (0x09, 3)].all (fun c => onEngine (e [tw 1]) (lvCode c.1 c.2 0 4)),
      [(0x08, 0), (0x08, 1), (0x09, 0), (0x09, 1), (0x0D, 3)].all (fun c => onEngine (e [tagged 1]) (lvCode c.1 c.2 0 4)),
      [0, 17].all (fun n => [0, 1].all fun m => onEngine (e [tw n]) (lvCode 0x09 m 0 4) && decide (n = 0 ∨ (e []).r.cur.lvWidth < n)),
      onEngine (e [tw 5]) (lvCode 0x0D 3 0 4),
      onEngine (e (full 31)) (lvCode 0x0E 0 0 4) && onEngine (e (full 31)) (lvCode 0x0F 0 0 4),
      !lvIllegal (e []).r.cur true [0, 4] && !lvIllegal (e []).r.cur true [0] && !lvIllegal (e []).r.cur false [0, 4]].all id)
      = true := by decide +kernel

/-- Three words of WORK, indices 0, 2, 3 and 0x7FFF in LV register 4, the vector trap enabled or not. -/
def gathers (n : Nat) (trap : Bool) (ds : List TWord) : Eng :=
  engOf live (engJob 0x20 0) { archAt 0x100 with
    vcfg := BitVec.ofNat 32 (n * 65536 + b2n trap), vq := 3329, vtvec := 0x200, ds := ds,
    work := [⟨0, 0x01020304, false⟩, ⟨1, 0x05060708, true⟩, ⟨2, 9, false⟩],
    lv := (List.replicate 8 ⟨0, false⟩).set 4 ⟨BitVec.ofNat 2048 (2 * 2 ^ 16 + 3 * 2 ^ 32 + 0x7FFF * 2 ^ 48), false⟩ }

/-- Ten elements to sample from a hash state that squeezes. -/
def samples (tag : Bool) (ds : List TWord) : Eng :=
  engOf live (engJob 0x20 0) { archAt 0x100 with
    vcfg := BitVec.ofNat 32 (10 * 65536), vq := 3329, ds := ds,
    hash := { idleHash with rate := 17, func := 8, squeeze := true, tagged := tag } :: List.replicate 3 idleHash }

theorem test_met_longVectorMemory :
    ([-- LD and ST of four elements at the last multiple of 64 of WORK, misaligned, ST with LD not 0
      (let e := gathers 4 false [tw 0x7FC0]
       onEngine e (lvCode 0 0 0 4) && !lvIllegal e.r.cur false [0] && (match dRead e 0x7FC0 8 with | .ok _ => true | _ => false)),
      onEngine (gathers 4 false [tw 32]) (lvCode 0 0 0 4),
      (let e := gathers 4 false [tw 0x7FC0]
       onEngine e (lvCode 1 0 0 4) && !lvIllegal e.r.cur false [4] && decide (0x7FC0 + e.r.cur.lvN * 2 ≤ 0x8000)),
      onEngine (gathers 4 false [tw 64]) (lvCode 1 0 2 4),
      -- GATHER that completes, that faults without and with the trap
      (let e := gathers 3 false [tw 0x7FF8]
       onEngine e (lvCode 2 0 0 4) && !lvIllegal e.r.cur false [0, 4] && !groupTag e.r.cur 4
        && (List.range 3).all fun i => decide (0x7FF8 + 2 * (lvElems e.r.cur 4).getD i 0 + 2 ≤ 0x8000)),
      ([false, true].all fun b =>
        let e := gathers 4 b [tw 0x10]
        onEngine e (lvCode 2 0 0 4) && !lvIllegal e.r.cur false [0, 4] && !groupTag e.r.cur 4 && e.r.cur.vcfg.getLsbD 0 == b
        && !e.owner && decide (e.r.cur.vtvec.toNat < 0x1800)
        && (match firstElemFault e false 0x10 (lvElems e.r.cur 4) with
          | some (k, _, _) => (List.range k).all fun i => decide (0x10 + 2 * (lvElems e.r.cur 4).getD i 0 + 2 ≤ 0x8000)
          | none => false)),
      onEngine (gathers 3 false [tw 0]) (lvCode 3 0 0 4),
      -- SAMCBD with eta 2 and 3, SAMU of an untagged and a tagged state
      ([2, 3].all fun n =>
        let e := samples true [tw n]
        onEngine e (lvCode 0x0B 0 0 4) && !lvIllegal e.r.cur false [0] && !(selected e).busy && (selected e).squeeze
        && (selected e).defined),
      ([false, true].all fun b =>
        let e := samples b []
        onEngine e (lvCode 0x0A 0 0 4) && !lvIllegal e.r.cur true [0] && (selected e).tagged == b && !(selected e).busy)].all id)
      = true := by decide +kernel

/-- The same with LV register 4 tagged, and its own indices of two OUT elements. -/
def tainted (ds : List TWord) : Eng :=
  engOf live (engJob 0x20 0) { (gathers 2 false ds).r.cur with lv := (List.replicate 8 ⟨0, false⟩).set 4 ⟨2 * 2 ^ 16, true⟩ }

/-- What LD, ST, GATHER and SCATTER meet at the edges of the regions. -/
theorem test_met_longVectorMemoryEdges :
    let isErr (e : Eng) (a n : Nat) (h : Halt) : Bool := match dRead e a n with
      | .error k => k == h
      | .ok _ => false
    let keyed' (ds : List TWord) : Eng :=
      let e := gathers 4 false ds
      let r := { e.r with delivery := some ⟨1, 0xD000, zeros 64⟩ }
      ⟨{ e.s with exec.runs := [r] }, e.j, r⟩
    let out (n : Nat) (ds : List TWord) : Eng := engOf live { engJob 0x20 0 with outLen := n } (gathers 2 false ds).r.cur
    ([-- LD at a tagged address, beyond the map, under a delivery
      onEngine (gathers 4 false [tagged 0]) (lvCode 0 0 0 4),
      onEngine (gathers 4 false [tw 0x10000]) (lvCode 0 0 0 4) && isErr (gathers 4 false []) 0x10000 8 .access,
      onEngine (keyed' [tw 0xD000]) (lvCode 0 0 0 4) && isErr (keyed' []) 0xD000 8 .stall,
      -- ST at a tagged address, of a tagged register into OUT, misaligned, into OUT up to OUT_LEN
      onEngine (gathers 4 false [tagged 0]) (lvCode 1 0 0 4),
      (let e := tainted [tw 0xB000]
       onEngine e (lvCode 1 0 0 4) && ((taggedElems e.r.cur 4).any fun y => y.2) && !lvIllegal e.r.cur false [4]),
      onEngine (gathers 4 false [tw 32]) (lvCode 1 0 0 4),
      (let e := out 4 [tw 0xB000]
       onEngine e (lvCode 1 0 0 4) && decide (e.r.cur.outBase.toNat + (0xB000 - 0xB000) + (taggedElems e.r.cur 4).length * 2 ≤ e.j.outLen)
        && !((taggedElems e.r.cur 4).any fun y => y.2)),
      -- GATHER and SCATTER at a tagged address, of tagged indices
      [2, 3].all (fun op => onEngine (gathers 4 false [tagged 0]) (lvCode op 0 0 4) && onEngine (tainted [tw 0]) (lvCode op 0 0 4)
        && groupTag (tainted []).r.cur 4 && !lvIllegal (tainted []).r.cur false [0, 4]),
      -- the trap of an owner's routine, and no room on the return stack
      (let e := gathers 4 true [tw 0x10]
       let o := owner (lvCode 2 0 0 4) 0
       let x : Eng := engOf o.s o.j { e.r.cur with pc := 0x1800, vtvec := 0x1801 }
       onEngine x (lvCode 2 0 0 4) && x.owner && mayGo x x.r.cur.vtvec.toNat && decide (x.r.cur.rs.length < 16)
        && (firstElemFault x false 0x10 (lvElems x.r.cur 4)).isSome),
      (let e := engOf live (engJob 0x20 0) { (gathers 4 true [tw 0x10]).r.cur with rs := full 16 }
       onEngine e (lvCode 2 0 0 4) && decide (16 ≤ e.r.cur.rs.length) && (firstElemFault e false 0x10 (lvElems e.r.cur 4)).isSome),
      -- SCATTER of a tagged register into OUT, into WORK up to its end, into OUT, with a fault at VSTART
      (let e := tainted [tw 0xB000]
       onEngine e (lvCode 3 0 4 0) && groupTag e.r.cur 4 && !groupTag e.r.cur 0 && !lvIllegal e.r.cur false [4, 0]),
      (let e := gathers 3 false [tw 0x7FF8]
       onEngine e (lvCode 3 0 0 4) && (List.range 3).all fun i => decide (0x7FF8 + 2 * (lvElems e.r.cur 4).getD i 0 + 2 ≤ 0x8000)),
      (let e := out 6 [tw 0xB000]
       onEngine e (lvCode 3 0 0 4) && (firstElemFault e true 0xB000 (lvElems e.r.cur 4)).isNone && !groupTag e.r.cur 0),
      ([false, true].all fun b =>
        let e := gathers 4 b [tw 0x8000]
        onEngine e (lvCode 3 0 0 4) && (match firstElemFault e true 0x8000 (lvElems e.r.cur 4) with
          | some (k, _, _) => k == e.r.cur.vstart.toNat
          | none => false)),
      -- SAMCBD at a tagged ETA, of a busy state, with an ETA that the table does not name; SAMU of a busy state
      onEngine (samples false [tagged 2]) (lvCode 0x0B 0 0 4),
      (let e := engOf live (engJob 0x20 0) { (samples false [tw 2]).r.cur with
         hash := { idleHash with rate := 17, func := 8, squeeze := true, busy := true } :: List.replicate 3 idleHash }
       onEngine e (lvCode 0x0B 0 0 4) && (selected e).busy && onEngine e (lvCode 0x0A 0 0 4) && !(selected e).tagged),
      onEngine (samples false [tw 4]) (lvCode 0x0B 0 0 4) && !(selected (samples false [])).busy].all id) = true := by decide +kernel

-- Table 11.7: ADDM, SUBM and MULM modulo 3329 of 3328 and 3
theorem test_lv_modular :
    let e := engOf live (engJob 0x20 0) { archAt 0x100 with
      vcfg := BitVec.ofNat 32 65536, vq := 3329, lv := ⟨3328, false⟩ :: ⟨3, false⟩ :: List.replicate 6 ⟨0, false⟩ }
    let at0 (o : Host.Outcome State Fault Refusal) : Nat := (lvElems (curAfter o) 0).getD 0 0
    at0 (exec (.lvAddm 1 0 0 1) e.s) = 2 ∧ at0 (exec (.lvSubm 1 0 0 1) e.s) = 3325 ∧ at0 (exec (.lvMulm 1 0 0 1) e.s) = 3326 := by
  decide +kernel

/-! ### Micro-sequencers, MXUs, stewards -/

/-- A microword that selects patch nanoword 0, whose TARGET is `target` and MBW 3; sequencer 0 at an address with a stack. -/
def patched : MicroWord := { nano := 0xF00, cond := 0, stretch := 0, isSecret := false }
def sequenced (upc target : Nat) (stack : List Nat) : State :=
  { (vendor [] []).s with
    exec.seqs := [⟨0, upc, stack⟩, ⟨272, upc, stack⟩], grafts.engine.nano := [(0, target * 2 ^ 178 + 3 * 2 ^ 176)],
    grafts.mxu.nano := [(0, target * 2 ^ 178 + 3 * 2 ^ 176)], grafts.engine.trap := [(100, 7)],
    exec.mxu := [{ (default : MxuCmd) with job := 1, code := 5, ctx := some 0, phase := .running }] }
def onSequencer (s : State) (q : Nat) (w : MicroWord) (sq : Nat) (n : Nat × Nat) : Bool :=
  decide (q < 288) && s.service && (seqJob s q).isSome && stands s q (s.seq q).upc w sq
  && nanoOf s q (bankOf (s.seq q).upc) w.nano == some n

/-- Words of bank 0 with a nanoword of the ROM, which is some pair of numbers, and of bank 1 at its first and last word. -/
theorem test_met_microcode :
    ([16384, 16384 + 1023].all (fun a => [0, 15, 1023, 1024, 16383].all fun t =>
        let s := sequenced a t [5]
        [0x0, 0x1, 0x2, 0x3, 0x4, 0x8, 0x9, 0xA, 0xB].all fun sq => onSequencer s 0 patched sq (t, 3))
    && onSequencer (sequenced 16384 16 (List.replicate 8 5)) 0 patched 0x3 (16, 3) && onSequencer (sequenced 16384 16 []) 0 patched 0x4 (16, 3)
    && inBanks (bankOf 16384) (indexOf 16384 + 1) == some 16385 && inBanks (bankOf 17407) (indexOf 17407 + 1) == none
    && inBanks (bankOf 16383) (indexOf 16383 + 1) == some 0 && trapMatch (sequenced 0 0 []) 0 100 == 16384 + 7
    && (nanoOf live 0 (bankOf 16383) 0xEFF).isSome
    -- commit points on an engine and on an MXU
    && [0x5, 0x6, 0x7].all fun sq =>
      let s := sequenced 16384 16 []
      onSequencer s 0 patched sq (16, 3) && ((seqJob s 0).bind fun j => s.run? j.id).isSome
      && onSequencer s 272 patched sq (16, 3) && ((seqJob s 272).bind fun j => s.mxuCmd? j.id).isSome) = true := by decide +kernel

/-- An idle sequencer; one whose patch word is another; a SECRET word while the DRBG is in its error state; a patch nanoword that is
not there; COMMIT and YIELD at the end of bank 1. -/
theorem test_met_microcodeStops :
    let s := sequenced 16384 16 [5]
    let dry : State := { s with groves := List.replicate 16 Grove.reset }
    let other : State := { s with grafts.engine.micro := [(0, 2)] }
    ([(seqJob s 1).isNone, (microRows 1 patched 0 false).length == 12,
      (microRows 0 patched 0 false).all (fun p => !stands other 0 (other.seq 0).upc patched p.2 && (seqJob other 0).isSome),
      (microRows 0 patched 0 false).all (fun p => stands s 0 (s.seq 0).upc { patched with isSecret := true } p.2),
      (seqJob dry 0).any (fun j => drbgDown dry j) && dry.service,
      (nanoOf s 0 1 0xF01).isNone && (seqJob s 0).isSome && stands s 0 (s.seq 0).upc { patched with nano := 0xF01 } 0,
      [0x5, 0x6].all (fun sq => onSequencer (sequenced 17407 16 [5]) 0 patched sq (16, 3))].all id) = true := by decide +kernel

/-- A job that uses an MXU code: code, OPCODE, ALG. -/
def users : List (Nat × Nat × Nat) :=
  [(1, 0x40, 0x10), (2, 0x15, 0x10), (3, 0x16, 0x10), (4, 0x14, 0x10), (5, 0x10, 0x14), (6, 0x09, 0x11), (7, 0x0A, 0x11), (8, 0x11, 0x14)]

/-- In service with a job, its command if it has one, and MXU 15 serving or none. -/
def mxuState (x : Job) (cs : List MxuCmd) (serving : Bool) : State :=
  { jobState x default .empty false with
    exec.mxu := cs, faults.map := if serving then [⟨unitId 1 15, .serving, 0⟩] else [] }

theorem test_met_mxuWork :
    (users.all (fun p =>
        let x := { jobFor p.2.1 p.2.2 1 0 (leBytes 32 9) with sliceTick := some 100 }
        [false, true].all (fun b =>
          let s := mxuState x [] b
          s.service && s.job? 7 == some x && runnable s x && mxuUsedBy p.1 x && (s.mxuCmd? 7).isNone && s.power.level == 0
          && mxuFor s x.grove == (if b then some 15 else none) && s.exec.mxuZero.isEmpty)
        && [MxuPhase.running, .queued].all (fun ph =>
          let c := { (default : MxuCmd) with job := 7, code := p.1, mxu := 15, ctx := some 0, phase := ph, steps := 3, saved := 2 }
          let s := mxuState x [c] true
          s.service && s.job? 7 == some x && s.mxuCmd? 7 == some c && sevOf s (0x0C00 + c.mxu) != 4 && decide (c.mxu < 16)))
    && mxuRows.map (·.2) == users.map (·.1)
    -- VALIDATION_RESULT one boundary too early and in time, of input that passes and that fails
    && ([zeros 32, leBytes 32 9].all fun inp => [98, 99].all fun t0 => [1, 8].all fun code =>
      let x := jobFor 0x11 0x14 1 0 inp
      let c := { (default : MxuCmd) with job := 7, code := code, mxu := 15, ctx := some 0, phase := .validating, stageAt := some t0 }
      let s := mxuState x [c] true
      s.service && s.job? 7 == some x && s.mxuCmd? 7 == some c && decide (s.tick.count < t0 + 2) == (t0 == 99)
      && (jobInput s x).2 == some inp && (mxuRefusal (jobInput s x).1 x inp).isSome == (inp == zeros 32))) = true := by
  decide +kernel

/-- Issues that are not taken; one that collects an ended command's result; a yield, an end and a fault of a command that is not the
running one of that code; a verdict that is not due, and one whose input cannot be read. -/
theorem test_met_mxuIdle :
    let x := { jobFor 0x15 0x10 1 0 (leBytes 32 9) with sliceTick := some 100 }
    let cmd (code : Nat) (ph : MxuPhase) : MxuCmd := { (default : MxuCmd) with job := 7, code := code, mxu := 15, ctx := some 0, phase := ph }
    let s (cs : List MxuCmd) : State := mxuState x cs true
    ([mxuUsedBy 3 x == false, runnable (mxuState { x with sliceTick := none } [] true) { x with sliceTick := none } == false,
      ((s [cmd 2 .running]).mxuCmd? 7).any (fun c => c.phase != .ended),
      ((s [cmd 2 MxuPhase.ended]).mxuCmd? 7).any (fun c => c.phase == MxuPhase.ended) && runnable (s [cmd 2 MxuPhase.ended]) x && mxuUsedBy 2 x,
      ((s [cmd 2 .running]).mxuCmd? 7).any (fun c => c.code != 3), ((s [cmd 2 .queued]).mxuCmd? 7).any (fun c => c.phase != .running),
      decide (([cmd 2 .running].map (·.job)).Nodup),
      mxuValidates 2 x == false && mxuValidates 1 x,
      (let y := { jobFor 0x11 0x14 1 0 (zeros 32) with input := none, inst := 9, inLen := 32 }
       let u := mxuState y [{ cmd 8 .validating with stageAt := some 98 }] true
       u.job? 7 == some y && (jobInput u y).2.isNone),
      ((s []).mxuCmd? 7).isNone && (s []).service].all id) = true := by decide +kernel

/-- The stewards run; pointer cell 1 holds 0x100000, cell 255 the last word of the SRAM, word 0x100000 holds 7. -/
def steward : State :=
  { live with stw.mem := [(4, 0x100000), (4 * 255, 0x1FFFFC), (0x100000, 7), (8, 3)], stw.pc := 0x10000, stw.events := 4 }

theorem test_met_aladaMOperands :
    mOk 0x1FFFFC = true ∧ mOk 0x1FFFFE = false ∧ mOk 0x200000 = false ∧ mOk 0x3FC = true ∧ mOk 0x400 = false
    ∧ (0x3FC < 0x400 ∧ 0x3FC % 4 = 0 ∧ mOk (mWord steward 0x3FC).toNat = true)
    ∧ mOk (mWord steward (4 * 255)).toNat = true ∧ mOk (((mWord steward (4 * 255)).toNat + 2 ^ 32 - 4) % 2 ^ 32) = true := by
  decide +kernel

/-- The first `k` specifiers of `o` form operands in the running stewards; specifier `n` alone. -/
def formOf (s : State) (k n sp ext : Nat) : Option (State × MLoc) := if k < n then some (s, .imm 0) else mForm s sp ext
def forms (s : State) (k : Nat) (o : MOps) : Option (State × MLoc × MLoc × MLoc) :=
  if 2 ≤ s.pins.boot ∧ s.stw.resetting = false ∧ (k < 2 → o.s2 % 256 = 0) ∧ (k < 3 → o.s3 % 256 = 0) then
    (mForm s o.s1 o.e1).bind fun x => (formOf x.1 k 2 o.s2 o.e2).bind fun y => (formOf y.1 k 3 o.s3 o.e3).bind fun z =>
      some (z.1, x.2, y.2, z.2)
  else none

/-- What the tests evaluate is the premise `MReady`. -/
theorem mReady_of_forms {s s3 : State} {k : Nat} {o : MOps} {d a b : MLoc} (hk : 1 ≤ k ∧ k ≤ 3)
    (h : forms s k o = some (s3, d, a, b)) : ∃ t, MReady s t k o d a b := by
  unfold forms at h
  split at h
  · rename_i hs
    simp only [Option.bind_eq_some_iff] at h
    obtain ⟨x, h1, y, h2, z, h3, h4⟩ := h
    simp only [Option.some.injEq, Prod.mk.injEq] at h4
    obtain ⟨rfl, rfl, rfl, rfl⟩ := h4
    refine ⟨_, hs.1, hs.2.1, hk.1, hk.2, hs.2.2.1, hs.2.2.2, x.1, y.1, z.1, h1, ?_, ?_, rfl⟩
    · unfold formOf at h2
      split at h2
      · simp [*, (congrArg Prod.fst (Option.some.inj h2)).symm]
      · simp [*]
    · unfold formOf at h3
      split at h3
      · simp [*, (congrArg Prod.fst (Option.some.inj h3)).symm]
      · simp [*]
  · cases h

/-- Three, two and one specifiers: words through every mode, an immediate where a word is written, COPY and FILL up to the end of
the SRAM. -/
theorem test_met_aladaMInstructions :
    ((forms steward 3 ⟨0x40, 0x60, 31, 0x100004, 4, 0⟩).any (fun r => r.2 == (.word 0x100004, .word 0x100000, .imm 31))
    && (forms steward 3 ⟨5, 0x20, 0x40, 0, 0xFFFFFFFF, 0x100000⟩).any (fun r => r.2 == (.imm 5, .imm 0xFFFFFFFF, .word 0x100000))
    && (forms steward 3 ⟨0xC0, 0xC0, 2, 1, 255, 0⟩).any (fun r => r.2 == (.word 0x100000, .word 0x1FFFFC, .imm 2))
    && mRange 0x1FFFF8 2 && mRange 0x100000 2
    && (forms steward 2 ⟨0x80, 0xE0, 0, 0x01FFFFFC + 8, 1, 0⟩).isNone
    && (forms steward 2 ⟨0xA0, 0xE0, 0, 0x01020004, 255, 0⟩).any (fun r => r.2.1 == .word 0x100010 && r.2.2.1 == .word 0x1FFFF8)
    && (forms steward 1 ⟨0x40, 0, 0, 0x100000, 0, 0⟩).any (fun r => (mVal r.1 r.2.1).2.toNat &&& steward.stw.events != 0)
    && (forms steward 1 ⟨8, 0, 0, 0, 0, 0⟩).any (fun r => (mVal r.1 r.2.1).2.toNat &&& steward.stw.events == 0)) = true := by
  decide +kernel

/-! ### Registers -/

theorem test_met_registerWrites :
    ((2 ^ 32 - 1 < 2 ^ 32 ∧ bar0 live 4 = false ∧ bar0 live 3 = true ∧ live.faults.safe = false ∧ live.ports.length = 4)
    ∧ (¬(4 = 4 ∧ 2 % 4 = 0) ∧ ¬(4 = 8 ∧ 2 % 8 = 0)) ∧ (¬(8 = 4 ∧ 4 % 4 = 0) ∧ ¬(8 = 8 ∧ 4 % 8 = 0))
    -- a free and a locked admin queue block
    ∧ ((live.port 3).admq.enable = false ∧ (live.port 3).admq.running = false ∧ (live.port 3).admq.lockedUntil = none)
    ∧ (bar0 adm 0 = true ∧ (adm.port 0).admq.enable = true ∧ adm.adm.primary = 0)
    -- BAR0 writes, the primary AF's and another port's
    ∧ (bar0Write live 3 = true ∧ primaryWrite live 0 = true ∧ primaryWrite live 3 = false ∧ live.lcs ≠ .deployed)
    ∧ (primaryWrite { live with life.state := .test } 0 = true ∧ ({ live with life.state := .test } : State).lcs = .test)
    ∧ (primaryWrite { live with life.state := .deployed } 0 = true ∧ ({ live with life.state := .deployed } : State).lcs = .deployed)
    ∧ ((live.hwd.channels[(live.port 0).tmpSel]?).any (·.enable) = true ∧ (live.port 0).tmpSel < 13)) := by decide +kernel

/-- Register writes that act: in safe state, of each field beside the one that acts, with a staging length that is locked and that is
not, a tamper configuration less and more sensitive in DEPLOYED, beyond the last channel. -/
theorem test_met_registerActs :
    ([bar0 { live with faults.safe := true } 3 && !bar0Write { live with faults.safe := true } 3,
      decide (∀ r ∈ selectors, r.1 ≠ 0x0108) && 0x0108 % 4 == 0,
      bit 0x200 9 && !bit 0x200 8 && bit 0x100 8 && !bit 0x100 9 && bit 0x300 8 && bit 0x300 9 && bit 0x80 7 && bit 0x10 4 && bit 0x8 3
        && !bit 0 3,
      mayStage live 0 && !stageLocked live
        && stageLocked { live with grafts.stage := { live.grafts.stage with state := .writing, since := 99 } },
      (let s : State := { live with life.state := .deployed }
       primaryWrite s 0 && (s.hwd.channels[(s.port 0).tmpSel]?).any fun c =>
        -- ENABLE cleared; everything as it is
        !moreSensitive c (tmpConfig c 0) && moreSensitive c c),
      (let s : State := { live with ports := live.ports.map fun x => { x with tmpSel := 13 },
                                    hwd.channels := live.hwd.channels ++ [live.hwd.channels.getD 0 default] }
       primaryWrite s 0 && (s.hwd.channels[(s.port 0).tmpSel]?).isSome)].all id) = true := by decide +kernel

/-- A port whose admin queues are configured but not enabled, with SQ and CQ of 2^n entries. -/
def configured (n base : Nat) : State :=
  { live with ports := List.replicate 4 { upPort with
      admq.sqBase := base, admq.cqBase := 0x6000, admq.sqLog2 := n, admq.cqLog2 := n } }

theorem test_met_adminQueueRegisters :
    (∀ n ∈ [4, 12], bar0Write (configured n 0x5000) 3 = true ∧ ((configured n 0x5000).port 3).admq.enable = false
      ∧ ((configured n 0x5000).port 3).admq.sqLog2 = n ∧ ((configured n 0x5000).port 3).admq.cqLog2 = n
      ∧ ((configured n 0x5000).port 3).admq.sqBase % 4096 = 0 ∧ ((configured n 0x5000).port 3).admq.cqBase % 4096 = 0)
    ∧ (bar0Write (configured 13 0x5000) 3 = true ∧ 12 < ((configured 13 0x5000).port 3).admq.sqLog2)
    ∧ (bar0Write (configured 4 0x5004) 3 = true ∧ ((configured 4 0x5004).port 3).admq.sqBase % 4096 ≠ 0)
    ∧ (bar0Write adm 0 = true ∧ adm.ports.length = 4 ∧ (adm.port 0).admq.enable = true ∧ (adm.port 0).admq.running = true
      ∧ (adm.port 0).admq.sq.state.rings = true ∧ (adm.port 0).admq.cq.state.rings = true
      -- of a ring of 16 with head 0 and tail 1: a whole ring, one more, and back
      ∧ (dist 16 16 0 ≤ 16 ∧ dist 16 1 0 ≤ dist 16 16 0) ∧ ¬dist 16 17 0 ≤ 16 ∧ ¬dist 16 1 0 ≤ dist 16 0 0) := by decide +kernel

theorem test_met_latchingReads :
    (bar0 live 3 = true ∧ live.ports.length = 4)
    ∧ ({ live with faults.history := [⟨7, 100, []⟩, ⟨6, 99, []⟩, ⟨5, 98, []⟩] } : State).faults.history[2]? = some ⟨5, 98, []⟩ := by
  decide +kernel

/-- An image of `n` bytes being staged, of LEN 128. -/
def staging (st : StageState) (len n : Nat) : State :=
  { live with grafts.stage := { live.grafts.stage with state := st, len := len, buf := zeros n } }

/-- A test image of version 0 for stepping 0, with an empty LIBRARY section. -/
def image : Bytes :=
  leBytes 4 0x46475A44 ++ leBytes 1 1 ++ leBytes 1 1 ++ zeros 8 ++ leBytes 2 1 ++ leBytes 4 144 ++ zeros 32 ++ leBytes 2 1 ++ zeros 74
    ++ leBytes 4 7 ++ leBytes 4 144 ++ zeros 8

theorem test_met_graftStaging :
    (mayStage live 0 = true ∧ mayStage live 1 = false)
    ∧ (∀ n ∈ [128, 262144, 127, 262145], mayStage (staging .idle n 0) 0 = true ∧ (staging .idle n 0).grafts.stage.runs = false)
    ∧ (∀ n ∈ [127, 128], mayStage (staging .opened 128 n) 0 = true ∧ (staging .opened 128 n).grafts.stage.state = .opened
      ∧ (staging .opened 128 n).grafts.stage.buf.length = n)
    -- an image that is refused, and one that passes its checks
    ∧ (match checkImage (staging .opened 128 128) (slotImage (zeros 128)) (slotKinds (stageSlot (staging .opened 128 128))) false with
      | .error r => r == 0x01
      | .ok _ => false) = true
    ∧ (let s : State := { staging .opened 144 0 with life.state := .test, grafts.stage.buf := image }
       mayStage s 0 && (match checkImage s (slotImage image) (slotKinds (stageSlot s)) false with
        | .ok b => b == image
        | _ => false)) = true
    ∧ (staging .writing 128 128).grafts.stage.state = .writing := by decide +kernel

/-- TARGET 3, a staging that runs already, a write without its bit, a failed read-back into each slot. -/
theorem test_met_graftStagingForms :
    ((0x31 / 16 % 4 = 3 ∧ 0x31 % 2 = 1) ∧ (0x32 / 16 % 4 = 3 ∧ 0x32 / 2 % 2 = 1) ∧ 4 / 4 % 2 = 1)
    ∧ (staging .writing 128 128).grafts.stage.runs = true ∧ (staging .idle 128 0).grafts.stage.state ≠ .opened
    ∧ (∀ tg ∈ [0, 1, 2], ∀ sl ∈ [1, 2], let s : State := { staging .writing 128 128 with grafts.slot := sl }
        let u : State := { s with grafts.stage := { s.grafts.stage with target := tg } }
        u.grafts.stage.state = .writing ∧ u.grafts.stage.buf.length = 128 ∧ u.grafts.stage.target = tg ∧ u.grafts.slot = sl) := by
  decide +kernel

-- R30: TICK_COUNT_LO answers bits 31:0 and latches bits 47:32 for TICK_COUNT_HI of the same port
theorem test_tick_count_latch :
    let t := post (exec (.tickCountLoRead 1) { live with tick.count := 0x123456789ABC })
    t.pins.answer = leBytes 4 0x56789ABC ∧ (t.port 1).tickHi = 0x1234 ∧ (t.port 0).tickHi = 0 := by decide +kernel

/-! ### Power, faults, entropy, heartwood -/

/-- A boot whose self-test passes, with one firmware of version 0; fuses that spell PROVISIONED, BLANK and SCRAP. -/
def bootEnv : BootEnv :=
  { role := 0, split := 0, mgAddr := 0, selfTest := true, fwA := some ⟨0, true⟩, fwB := none, failed := [], avs := false, glitch := none,
    flash := [] }
def boots (s : State) : Bool :=
  (decodeLcs s.life.otp).2.isNone && !([Lcs.blank, .invalid, .scrap].contains (decodeLcs s.life.otp).1)
  && decide (s.floorT ≤ 0)
def blankFuses : List (Nat × Nat) := List.replicate 6 (0, 0)

theorem test_met_powerEvents :
    -- from the dark with the supply good and not, RESET_N rising, a held boot
    (State.reset.pins.boot = 0 ∧ State.reset.pins.pwrFailN = true ∧ boots State.reset = true ∧ State.reset.pins.held = false)
    ∧ (let s : State := { live with pins.resetN := false }
       s.pins.resetN = false ∧ s.hwd.vdd = true ∧ s.pins.pwrFailN = true ∧ boots s = true)
    ∧ (let s : State := { State.reset with pins.pwrFailN := false }
       s.pins.boot = 0 ∧ s.pins.pwrFailN = false ∧ (decodeLcs s.life.otp).1 ≠ .scrap)
    ∧ (let s : State := { State.reset with pins.held := true, life.otp.fields := blankFuses }
       s.pins.held = true ∧ (decodeLcs s.life.otp).1 = .blank)
    -- in service before and after a stop; dark
    ∧ (live.stopped = false ∧ live.pins.boot ≠ 0 ∧ live.tick.running = true) ∧ State.reset.tick.running = false := by decide +kernel

/-- A job on engine 271 in its slice; units of each kind in the health map. -/
def units : State :=
  { live with
    work.jobs := [{ aJob with engine := 271, sliceTick := some 100, result := none, commitTick := none, committed := false }],
    faults.map := [⟨unitId 6 0, .serving, 0⟩, ⟨unitId 6 1, .standby, 0⟩, ⟨unitId 7 0, .serving, 0⟩, ⟨unitId 8 0, .serving, 0⟩,
                   ⟨unitId 8 1, .serving, 0⟩] }

theorem test_met_faultEvents :
    (units.pins.boot = 8 ∧ ((units.job? 7).any fun x => x.engine == 271 && x.sliceTick == some 100 && x.result.isNone) = true
      ∧ sevOf units 271 ≠ 4)
    ∧ ((units.health (unitId 6 1)).state ≠ .failed ∧ units.faults.raises = [] ∧ servingPll units ≠ some 1)
    ∧ (live.pllGap = none ∧ live.stw.resetting = false ∧ live.stw.resetAt = none ∧ sevOf live 0x3C00 ≠ 4)
    -- a mismatch 10,000,000 t after the last, and one boundary sooner
    ∧ (let s : State := { live with tick.count := 10000000, stw.resetAt := some 0 }
       0 + 10000000 ≤ s.tick.count ∧ s.stw.resetting = false)
    ∧ (let s : State := { live with tick.count := 9999999, stw.resetAt := some 0 }
       s.tick.count < 0 + 10000000 ∧ sevOf s 0x4000 = 4)
    ∧ raisedOf live 0x4000 = 0
    -- vault channels, supplies, a dump without a buffer
    ∧ (let s : State := { live with faults.map := [⟨unitId 8 1, .withdrawn, 50⟩] }
       (s.health (unitId 8 1)).state = .withdrawn ∧ (s.health (unitId 8 1)).info ≠ 0)
    ∧ (lostUnit units (unitId 8 1) = false ∧ lostUnit units (unitId 8 0) = false ∧ sevOf units 0x5001 ≠ 4)
    ∧ (let s : State := { units with faults.safe := true, hwd.dump.due := true }
       s.stopped = false ∧ (s.health (unitId 7 0)).state = .serving ∧ s.stw.resetting = false ∧ s.adm.dump = none) := by decide +kernel

/-- Grove work lost; the serving PLL lost with a standby and with none; a dump to its buffer, and one over a port that is down. -/
theorem test_met_faultForms :
    let pll (other : UnitState) : State := { units with faults.map := [⟨unitId 6 0, .serving, 0⟩, ⟨unitId 6 1, other, 0⟩] }
    let due : State := { units with faults.safe := true, hwd.dump.due := true, adm.dump := some (0, 0x4000, 4096) }
    ([units.pins.boot == 8 && (units.job? 7).any (fun x => decide (x.grove < 16) && sevOf units (0x1800 + x.grove) != 4),
      !units.faults.safe && [0, 1].all (fun c => decide (c < 2)),
      servingPll (pll .standby) == some 0 && [2, 3].contains (sevOf units 0x3800)
        && ((pll .standby).health (unitId 6 1)).state == .standby && (pll .standby).faults.raises.isEmpty
        && ((pll .standby).job? 7).any (fun x => x.sliceTick == some 100 && x.result.isNone && x.commitTick.isNone),
      ((pll .failed).health (unitId 6 1)).state == .failed,
      decide (({ units with pllGap := some false } : State).pllGap = some false) && decide (({ units with pllGap := some true } : State).pllGap = some true),
      (due.health (unitId 7 0)).state == .serving && !due.stw.resetting && (due.port (portOf 0)).dlUp
        && (due.inst? 0).any (fun x => x.mode == .bypass && x.dirty.isNone) && busOk due 0,
      (let s : State := { due with ports := List.replicate 4 { upPort with dlUp := false } }
       !(s.port (portOf 0)).dlUp && (s.health (unitId 7 0)).state == .serving),
      ({ due with stw.resetting := true } : State).stw.resetting,
      (let s : State := { units with faults.map := ⟨unitId 8 0, .withdrawn, 0⟩ :: units.faults.map.drop 4 }
       !lostUnit s (unitId 8 1) && lostUnit s (unitId 8 0)),
      decide (raisedOf { live with stw.resetting := true } 0x4000 = 0)].all id) = true := by decide +kernel

/-- Noise source 3 in a state; a source with counters just below their limits. -/
def noisy (n : Noise) : State := { live with entropy.sources := [Noise.reset, Noise.reset, Noise.reset, n] }
def tested : Noise := { Noise.reset with started := 1024, windowAt := 1023, run := 39, ones := 798, last := true, first := true }

theorem test_met_entropyAndPower :
    ((noisy tested).entropy.sources[3]? = some tested ∧ tested.failures < 3 ∧ tested.out = false ∧ 1024 ≤ tested.started
      ∧ tested.windowAt ≠ 0 ∧ tested.run < 40 ∧ tested.ones < 799 ∧ tested.bits.length < 1023)
    ∧ ({ tested with run := 40 }.run = 40 ∧ sevOf live (0x2800 + 3) ≠ 4 ∧ sevOf live 0x2C00 ≠ 4)
    -- re-admission at 1,024 t and one boundary sooner; DRBG reseeds and its error state likewise
    ∧ (∀ c ∈ [1023, 1024], let n := { tested with out := true, since := 0, failures := 2 }
       let s : State := { noisy n with tick.count := c }
       s.entropy.sources[3]? = some n ∧ s.tick.running = true ∧ s.pins.boot = 8 ∧ (c = 1024 → n.since + 1024 ≤ c)
       ∧ (c = 1023 → c < n.since + 1024))
    ∧ ((live.groves[15]?).any (fun x => x.drbgUp && x.drbgSeeded == 0 && !x.drbgError) = true
      ∧ (15, none) ∉ live.entropy.waiting ∧ nextSource live = none)
    -- power: at and off a multiple of 16, of 1,048,576 at each side of its temperatures; AVS at both ends
    ∧ (112 % 16 = 0 ∧ 100 % 16 ≠ 0 ∧ 1048576 ≠ 0 ∧ 1048576 % 1048576 = 0)
    ∧ (∀ d ∈ [5, 6, 9, 10], let s : State := { live with tick.count := 1048576, power.tj := gradeMax live - d, power.limit := 13 }
       s.tick.running = true ∧ (d = 5 → gradeMax s - 5 ≤ s.power.tj)
       ∧ (d = 6 ∨ d = 9 → gradeMax s - 10 < s.power.tj ∧ s.power.tj < gradeMax s - 5)
       ∧ (d = 10 → s.power.tj ≤ gradeMax s - 10 ∧ s.power.limit < envelopeWatts s.power.envelope))
    ∧ (let s : State := { live with power.avs := true }
       s.power.avs = true ∧ 5 ≤ s.pins.boot ∧ s.power.avsAt = none ∧ 288 ≠ s.power.setpoint ∧ 320 ≠ s.power.setpoint)
    ∧ (let s : State := { live with tick.count := 1023, power.avsAt := some 0 }
       s.tick.count < 0 + 1024)
    ∧ (let s : State := { live with tick.count := 1024, faults.published := 1024 }
       s.faults.safe = false ∧ s.stopped = false ∧ s.faults.aliveAt ≠ s.tick.count) := by decide +kernel

/-- A 1,024th kept bit; a test that fails by the run and by the count; a block for the source in turn, and a request that waits. -/
theorem test_met_entropyForms :
    let full' : Noise := { tested with bits := List.replicate 1023 true }
    let ready : State := { noisy full' with tick.count := 2000, entropy.blocks := [(3, zeros 32)], entropy.turn := 0 }
    ([!full'.out && decide (1024 ≤ full'.started) && full'.bits.length == 1023 && (noisy full').entropy.waiting.isEmpty,
      decide (41 ≤ { tested with run := 40 }.run + 1) && tested.last, decide (800 ≤ { tested with ones := 799 }.ones + 1),
      (nextSource ready).isSome && (ready.groves[15]?).any (fun x => x.drbgUp && decide (x.drbgSeeded + 1024 ≤ ready.tick.count)),
      (let s : State := { live with tick.count := 2000, entropy.waiting := [(15, none)] }
       (nextSource s).isNone && s.entropy.waiting.contains (15, none) && (s.groves[15]?).any (fun x => decide (x.drbgSeeded + 1024 ≤ 2000))),
      (State.reset.groves[15]?).any (fun x => !x.drbgUp),
      (let n : Noise := { tested with out := true, since := 0, failures := 2 }
       decide (n.since + 1024 ≤ 1024) && decide (1024 ≤ n.started)),
      (let s : State := { live with tick.count := 65536 }
       (s.groves[15]?).any fun x => !x.drbgError && decide (x.drbgSeeded + 65536 ≤ s.tick.count))].all id) = true := by decide +kernel

/-- Tamper channel 2 with a rank, a response in force, two sets of fired channels that wait for their decision. -/
def tampered (rank applied : Nat) : State :=
  { live with hwd.applied := applied, hwd.channels := live.hwd.channels.modify 2 fun c => { c with rank := rank },
              hwd.sets := [(9, [⟨2, 1, 0⟩]), (10, [])] }

theorem test_met_heartwoodEvents :
    (let s : State := { live with recd.buf := List.replicate 256 default }
     s.hwd.vdd = true ∧ 256 ≤ s.recd.buf.length)
    -- a channel of N = 1 that fires, one that does not
    ∧ ((live.hwd.channels[1]?).any (fun c => c.enable && decide (1 ≤ c.w) && decide (c.n ≤ (((true :: c.window).take c.w).filter id).length))
        = true
      ∧ (live.hwd.channels[0]?).any (fun c => c.enable && decide (1 ≤ c.w) && decide ((((true :: c.window).take c.w).filter id).length < c.n))
        = true)
    -- each rank against each response in force
    ∧ (∀ r ∈ [0, 1, 2, 3, 4], ∀ a ∈ [0, 1, 2, 3, 4], (tampered r a).hwd.sets = (9, [⟨2, 1, 0⟩]) :: [(10, [])]
        ∧ (tampered r a).hwd.vdd = true ∧ rankOf (tampered r a) [⟨2, 1, 0⟩] ≤ 4 ∧ (tampered r a).hwd.applied = a)
    ∧ rankOf (tampered 4 0) [⟨2, 1, 0⟩] = 4
    -- the battery cell just below 1.7 V
    ∧ (let s : State := { live with hwd.vdd := false, hwd.vbak := 1699 }
       s.hwd.vdd = false ∧ s.hwd.vbak < 1700)
    ∧ (let s : State := { live with life.lockout := some 100 }
       s.life.lockout = some 100 ∧ 100 ≤ s.tick.count ∧ s.tick.running = true)
    ∧ (∀ c ∈ [59999999, 60000000], let s : State := { live with grafts.floorPending := true, tick.count := c }
       s.grafts.floorPending = true ∧ s.tick.running = true ∧ s.faults.safe = false ∧ s.stopped = false) := by decide +kernel

/-- Channels that are sampled already, disabled or beyond the last; a response without VDD; a supply that comes back; a lockout that is
not over. -/
theorem test_met_heartwoodForms :
    ([(live.hwd.channels[1]?).any (fun c => c.enable && !sampled live 1 c && sampled live 1 { c with sampledAt := some 100 }),
      (let s : State := { tampered 4 0 with hwd.vdd := false }
       !s.hwd.vdd && s.hwd.applied == 0 && !s.hwd.sets.isEmpty),
      (live.hwd.channels[2]?).any (fun c => !c.enable) || (live.hwd.channels[0]?).any (fun c => c.enable),
      (let s : State := { live with life.lockout := some 101 }
       s.life.lockout == some 101 && decide (s.tick.count < 101)),
      ({ State.reset with life.lockout := some 101 } : State).life.lockout.isSome && !State.reset.tick.running,
      !live.grafts.floorPending, live.hwd.vdd && decide (2 ^ 20 ≤ live.recd.flushed + 2 ^ 20)
        && ({ live with recd.buf := [default], tick.count := 1048576 } : State).recd.buf.length == 1].all id) = true := by decide +kernel

-- Table 15.3: rank 4 erases the heartwood key and its copy, and throttles
theorem test_tamper_rank4 :
    let t := post (exec (.tamperDecision none) (tampered 4 0))
    t.hwd.key = none ∧ t.hwd.keyCopy = none ∧ t.hwd.throttle = true := by decide +kernel

/-! ### Life cycle, management, host ports -/

/-- A BLANK device at boot step 2 whose vendor token digests are `v`; LCS_TRANSITION to TEST. -/
def blank (v : Bytes) : State :=
  { live with pins.boot := 2, insts := [someInst 0], life.state := .blank, life.lockout := none, life.otp.fields := blankFuses,
              life.otp.vendor := [v, v, v, v] }
def toTest : Bytes := leBytes 1 1 ++ zeros 55
def returned : State := { live with life.state := .returned, life.challenge := some (zeros 32) }

theorem test_met_lifeCycleAndManagement :
    let se := zeros 8 ++ fit 56 toTest
    (∀ v ∈ [zeros 31, zeros 32], (blank v).pins.boot = 2 ∧ (blank v).lcs = .blank ∧ (firstReply (lcsChecks (blank v) se)).isNone = true
      ∧ lcsTarget se = 1 ∧ (blank v).life.otp.fields.length = 6)
    ∧ live.pins.boot ≠ 2 ∧ live.lcs ≠ .returned
    ∧ (returned.lcs = .returned ∧ 2 ≤ returned.pins.boot ∧ returned.life.challenge = some (zeros 32) ∧ toTest.length ≠ 4723)
    ∧ (∀ b ∈ [1, 2, 8], let s : State := { live with pins.boot := b }
       s.lcs ≠ .scrap ∧ (b = 1 → s.pins.boot < 2) ∧ (b = 2 → 2 ≤ s.pins.boot ∧ s.pins.boot ≠ 8) ∧ (b = 8 → s.pins.boot = 8))
    ∧ (live.faults.mgAlertN = true ∨ live.faults.mgAlertN = false) := by decide +kernel

/-- A token slot holds the digest of the token given, or another string. -/
theorem test_met_lifeCycle_token :
    sha3 (lcsToken (zeros 8 ++ fit 56 toTest)) ∈ tokenSlots (blank (sha3 (lcsToken (zeros 8 ++ fit 56 toTest)))) 1
    ∧ sha3 (lcsToken (zeros 8 ++ fit 56 toTest)) ∉ tokenSlots (blank (zeros 31)) 1 := by
  constructor
  · have h : (sha3 (lcsToken (zeros 8 ++ fit 56 toTest))).isEmpty = false := by decide +kernel
    simp [tokenSlots, vendorSlot, blank, h]
  · intro h
    have h2 : (sha3 (lcsToken (zeros 8 ++ fit 56 toTest))).length = 32 := by decide +kernel
    have h3 : tokenSlots (blank (zeros 31)) 1 = [zeros 31] := by decide +kernel
    rw [h3, List.mem_singleton] at h
    rw [h] at h2
    exact absurd h2 (by decide)

theorem test_met_hostPorts :
    -- functions
    (live.pins.boot = 8 ∧ fnExists live (3 * 256) = true ∧ fnExists live (3 * 256 + 4) = true ∧ fnExists live (3 * 256 + 5) = false)
    ∧ (let s := live.updPort 3 fun x => { x with vfEnable := false }
       (s.port 3).present = true ∧ (s.port 3).vfEnable = false)
    ∧ ((live.port 3).vfEnable = true ∧ fnExists live 1 = true ∧ faceInst live 1 = 1 ∧ instState live 1 ≠ .absent)
    ∧ (768 ∈ live.busMaster ∧ 769 ∉ live.busMaster ∧ fnExists live 769 = true ∧ asleep live 769 = false)
    ∧ asleep (live.updPort 3 fun x => { x with d3 := [1] }) 769 = true
    -- completions
    ∧ ((live.port 3).dlUp = true ∧ live.ports.length = 4)
    ∧ (let x := jobFor 0x20 8 1 0 []
       let s := jobState x default .empty false
       s.job? 7 = some x ∧ runnable s x = true ∧ x.confirmed = true)
    -- links: trained, down, in L0; a lane lost
    ∧ (let s := live.updPort 3 fun x => { x with l0 := false, dlUp := false }
       (s.port 3).l0 = false ∧ widthOk s 3 (s.port 3).maxWidth = true)
    ∧ (let s : State := { (live.updPort 3 fun x => { x with l0 := false, dlUp := false }) with faults.map := [⟨unitId 9 3, .withdrawn, 0⟩] }
       (s.port 3).dlUp = false ∧ (s.health (unitId 9 3)).state = .withdrawn)
    ∧ ((live.port 3).l0 = true ∧ isPaired live 3 = false ∧ sevOf live (0x6000 + 3) ≠ 4)
    ∧ ((live.port 3).speed = 5 ∧ 8 < (live.port 3).linkWidth ∧ widthOk live 3 8 = true ∧ sevOf live (0x5C00 + 15) ≠ 4) := by
  decide +kernel

/-- A refused transition; INVALID and its way to SCRAP; no challenge; a SCRAP device; an alert that stands. -/
theorem test_met_lifeCycleForms :
    let se (k : Nat) := zeros 8 ++ fit 56 (leBytes 1 k ++ zeros 55)
    let inState (st : Lcs) : State := { blank (zeros 32) with life.state := st }
    ([(firstReply (lcsChecks { blank (zeros 32) with life.lockout := some 5000 } (se 1))).any (fun r => r.status != 0 && r.status != 0x0600
        && decide (r.wait = .done)),
      (inState .invalid).lcs == .invalid && lcsTarget (se 6) == 6 && (inState .invalid).pins.boot == 2
        && (firstReply (lcsChecks (inState .invalid) (se 6))).isNone,
      (firstReply (lcsChecks (inState .blank) (se 6))).isNone, (inState .invalid).life.otp.fields.length == 6,
      (inState .invalid).lcs != .blank && lcsTarget (se 1) != 6,
      ({ returned with life.challenge := none } : State).life.challenge.isNone,
      ({ live with life.state := .scrap } : State).lcs == .scrap && decide (2 ≤ live.pins.boot),
      !({ live with faults.mgAlertN := false } : State).faults.mgAlertN].all id) = true := by decide +kernel

/-- Functions at the ends of their ranges, reads for an SE that is published and that is not, for a job that runs ahead, for none; links
at the lowest speed and width, down, paired. -/
theorem test_met_hostPortForms :
    let far := fun (f : Port → Port) => live.updPort 3 f
    let ring : State := { live with work.sqs := [{ someSq 0 0 0 2 with readAhead := true }], work.cqs := [someCq 0 0 0 0] }
    ([fnExists live 769 && fnExists live 772, !fnExists live 773 && decide (256 ≤ 256),
      (let s := far fun x => { x with vfEnable := false }
       (s.port 3).present && !(s.port 3).vfEnable && [1, 255].all (fun n => decide (1 ≤ n ∧ n ≤ 255))),
      !((far fun x => { x with present := false }).port 3).present,
      [(768, 2047), (769, 63)].all (fun c => fnExists live c.1 && decide (c.2 < (if c.1 % 256 = 0 then 2048 else 64))),
      (ring.sq? 0 0).any (fun x => mayFetch ring x && x.readAhead && x.published == 2 && x.copies.isEmpty
        && [1, 2].all (fun k => decide (k < 2 * 2 ^ x.log2n ∧ dist (2 ^ x.log2n) k x.head < 2 ^ x.log2n))
        && decide (dist (2 ^ x.log2n) 1 x.head < x.published) && decide (x.published ≤ dist (2 ^ x.log2n) 2 x.head)),
      (ring.sq? 0 1).isNone && (ring.job? 7).isNone,
      (let x : Job := { jobFor 0x20 8 1 0 [] with input := none }
       let s := jobState x default .empty false
       s.job? 7 == some x && runnable s x && x.input.isNone && x.confirmed),
      (let x : Job := { jobFor 0x20 8 1 0 [] with input := none, dep := .on 5 }
       let s := jobState x default .empty false
       s.job? 7 == some x && runnable s x && !x.confirmed),
      (let x : Job := { jobFor 0x20 8 1 0 [] with sliceTick := none }
       !runnable (jobState x default .empty false) x),
      (let s := far fun x => { x with l0 := false }
       widthOk s 3 1 && !widthOk s 3 32 && !(s.port 3).l0 && (List.range 64).all (fun k => sevOf s (0x5C00 + k) != 4)),
      (let s := far fun x => { x with dlUp := false }
       !(s.port 3).dlUp && (s.health (unitId 9 3)).state != .withdrawn && s.faults.raises.isEmpty && sevOf s (0x6000 + 3) != 4),
      (let s : State := { live with adm.pairs := [(0, 3, true)] }
       isPaired s 3 && (s.port 3).l0),
      (let x := live.port 3
       x.l0 && widthOk live 3 1 && decide (3 < x.speed ∧ 1 ≤ x.linkWidth) && sevOf live (0x5C00 + 15) != 4)].all id) = true := by
  decide +kernel

-- R477: VENDOR_ID 0x1E73; DEVICE_ID 0x8256 of a PF and 0x8257 of a VF
theorem test_configuration_ids :
    (post (exec (.configRequest 3 0 (.read 0)) live)).pins.answer = leBytes 4 0x82561E73
    ∧ (post (exec (.configRequest 3 4 (.read 0)) live)).pins.answer = leBytes 4 0x82571E73 := by decide +kernel

/-! ### Tether -/

def lnk (w : Nat) (st : LinkState) : TLink := { (default : TLink) with state := st, width := w, peer := 16 }
def mate (n role parent link : Nat) : Member :=
  { (default : Member) with num := n, role := role, parent := parent, parentLink := link, joined := true }

/-- Member 1 of canopy 1 under its manager 0, beside member 2, link 0 paired; and the manager of the same canopy. -/
def tethered : State :=
  { live with
    pins.role := 2, tether.active := 2, tether.joined := true, tether.canopy := 1, tether.member := 1, tether.manager := 0,
    tether.charter := some [1], tether.members := [mate 0 1 0 0, mate 1 2 0 0, mate 2 2 0 1],
    tether.links := lnk 4 .paired :: lnk 0 .down :: List.replicate 6 (lnk 4 .training) }
def manager : State := { tethered with pins.role := 1, tether.active := 1, tether.member := 0 }

/-- A data flit with SEQ 0 and SOM, `n` bytes of a message whose body has `len`. -/
def flit (n len : Nat) : Bytes :=
  let b := zeros 2 ++ leBytes 1 4 ++ leBytes 1 n ++ zeros 4 ++ leBytes 4 len ++ zeros 240
  b ++ leBytes 4 (crc32 b).toNat

theorem test_met_tetherLinksAndTimers :
    (tethered.pins.boot = 8 ∧ tethered.pins.role ≠ 0 ∧ tethered.tether.links.length = 8)
    ∧ (let s := tethered.updLink 6 fun k => { k with was := true }
       let s := s.updLink 7 fun k => { k with state := .down }
       (s.link 6).state = .training ∧ (s.link 6).split = false ∧ (s.link 7).state = .down ∧ (s.link 6).was = true)
    ∧ ((tethered.link 0).width = 4 ∧ (tethered.link 1).width = 0 ∧ sevOf tethered (0x6400 + (4 * (0 / 2) + 3)) ≠ 4
      ∧ sevOf tethered (0x6800 + 0 / 2) ≠ 4 ∧ ((tethered.updLink 0 fun k => { k with width := 1 }).link 0).width = 1)
    ∧ (tethered.adm.primary = 0 ∧ (tethered.port 0).dlUp = true ∧ (tethered.link 0).state = .paired)
    ∧ (∀ c ∈ [1048575, 1048576], let s : State := { manager with tick.count := c }
       s.service = true ∧ s.tether.active = 1 ∧ (c = 1048576 → (s.link 0).tried + 1048576 ≤ c))
    -- a flit that is not whole, and whole ones with the shortest and the longest LEN
    ∧ (tetherUp tethered 0 = true ∧ flitOk (zeros 3) = false ∧ (tethered.link 0).nakRow < 7)
    ∧ (∀ p ∈ [(16, 0), (248, 216), (248, 131072)], let f := flit p.1 p.2
       flitOk f = true ∧ byteAt f 2 = 4 ∧ byteAt f 0 = (tethered.link 0).rxSeq ∧ 16 ≤ byteAt f 3 ∧ byteAt f 3 ≤ leAt f 8 4 + 32
       ∧ leAt f 8 4 ≤ 131072)
    -- timers
    ∧ (tethered.service = true ∧ tethered.tether.joined = true ∧ canopyTick tethered % 16 ≠ 0 ∧ canopyTick tethered % 1024 ≠ 0)
    ∧ canopyTick { tethered with tether.off := 12 } % 16 = 0
    ∧ (canopyTick { manager with tether.off := 924 } % 1024 = 0 ∧ manager.tether.ring = [])
    ∧ (∀ c ∈ [63, 64], let s : State := { manager with tick.count := c }
       (s.memberOf (s.idOf 2)).any (fun x => x.joined && !x.lost && x.beat == 0) = true ∧ 2 ≠ s.tether.member
       ∧ s.tether.manager = s.tether.member)
    ∧ (47 < tethered.tether.managerBeat + 48 ∧ tethered.tether.managerBeat + 64 ≤ 64) := by decide +kernel

/-- A message to member 1 with a plaintext body. -/
def msg (src : Nat) (b : Bytes) : TMsg := { link := 0, src := src, dst := 17, ctr := 0, ok := true, body := b }

/-- The paired device that sends a message, the message sealed by it, the state that has noted it. -/
def senderOf (s : State) (m : TMsg) : Option (Nat × Member) := ((pairedWith s).partition (·.1 == m.src)).1.head?
def sealedBy (s : State) (m : TMsg) (kind : Nat) (d : Nat × Member) : TMsg :=
  { m with body := sealBody d.2.pair (d.1 < s.selfId) kind m.src m.dst m.ctr m.body }
def noted (s : State) (m : TMsg) (d : Nat × Member) : State :=
  { noteCtr s d.1 m.ctr with stw.events := s.stw.events ||| 16 }

/-- What the tests evaluate of a plaintext message; the premise `Arrives` holds of it sealed. -/
def arrives (s : State) (m : TMsg) : Bool :=
  tetherUp s m.link && s.tether.joined && m.dst == s.selfId && s.service && (senderOf s m).any fun d => decide (d.2.ctr ≤ m.ctr)

theorem unsealed_sealedBy {s : State} {m : TMsg} {kind : Nat} {d : Nat × Member} (h : senderOf s m = some d) :
    unsealed s (sealedBy s m kind d) kind = some (d, m.body) := by
  unfold senderOf at h
  obtain ⟨ds, hd⟩ := List.head?_eq_some_iff.mp h
  have ho : openFrom s (sealedBy s m kind d) kind d = some (d, m.body) := by
    simp [openFrom, sealedBy, openBody_sealBody]
  unfold unsealed
  rw [show (sealedBy s m kind d).src = m.src from rfl]
  generalize (pairedWith s).partition (·.1 == m.src) = p at hd
  obtain ⟨own, rest⟩ := p
  simp only at hd ⊢
  rw [hd, List.cons_append, List.findSome?_cons, ho]

theorem arrives_sound {s : State} {m : TMsg} (h : arrives s m = true) (kind : Nat) :
    ∃ d, Arrives s (noted s m d) (sealedBy s m kind d) m kind := by
  simp only [arrives, Bool.and_eq_true, beq_iff_eq] at h
  obtain ⟨⟨⟨⟨h1, h2⟩, h3⟩, -⟩, h5⟩ := h
  obtain ⟨d, hd, hc⟩ := Option.any_eq_true _ _ |>.mp h5
  exact ⟨d, h1, h2, h3, d, m.body, unsealed_sealedBy hd, of_decide_eq_true hc, rfl, rfl⟩

def health (k n : Nat) : TMsg := msg 16 (leBytes 1 k ++ zeros n)
def move (k n : Nat) : TMsg := msg 16 (leBytes 1 k ++ zeros 3 ++ leBytes 4 5 ++ zeros 4 ++ zeros n)

/-- A job sent to the manager, one run for it, and a context that moves to it. -/
def working : State :=
  { tethered with
    work.jobs := [{ (default : Job) with id := 5, member := some 16, sent := true, start := some 90 },
                  { (default : Job) with id := 6, origin := some (16, 9) }],
    store.ctxs := [{ (default : Ctx) with index := 5, moving := true, dest := 16 }],
    faults.map := [⟨unitId 0 0, .serving, 0⟩, ⟨unitId 2 0, .serving, 1⟩] }
def outsider : State :=
  { working with tether.joined := false, tether.charter := none, tether.links := [lnk 4 .discovery] ++ List.replicate 7 (lnk 0 .down) }

/-- The manager of that canopy with the job, and neighbour 32 on its ring. -/
def ringed : State :=
  { working with pins.role := 1, tether.active := 1, tether.member := 0,
                 tether.ring := [{ (default : Member) with num := 32, joined := true }] }

theorem test_met_tetherMessages :
    let w := working
    let job (n : Nat) : TMsg := msg 16 (leBytes 4 77 ++ zeros 11 ++ leBytes 1 n ++ zeros 64)
    let cancel (id d : Nat) : TMsg := msg 16 (leBytes 2 1 ++ zeros 2 ++ leBytes 4 id ++ leBytes 1 d ++ zeros 3)
    let from18 (m : TMsg) : TMsg := { m with src := 18 }
    let to16 (m : TMsg) : TMsg := { m with src := 17, dst := 16 }
    ([-- JOB of one SE and of eight
      [1, 8].all (fun n => arrives w (job n) && (senderOf w (job n)).any fun d =>
        let j := guestJob 16 (job n).body
        let u := withGuest (noted w (job n) d) j.inst (leAt (job n).body 6 2)
        !(planOf u j none false).useCtx && !guestWaits u j),
      -- RESULT for a sent job, and for none
      arrives w (msg 16 (leBytes 4 5 ++ zeros 8)) && (w.job? 5).any (fun j => j.member.isSome && j.sent && j.result.isNone && j.endedAt.isNone),
      arrives w (msg 16 (leBytes 4 77 ++ zeros 8)) && (w.job? 77).isNone,
      -- CANCEL of a job at work, and of one that is not here
      [0, 1].all (fun d => arrives w (cancel 9 d) && arrives w (cancel 10 d)) && w.work.jobs.any (fun j => j.origin == some (16, 9))
        && !w.work.jobs.any (fun j => j.origin == some (16, 10)) && w.tether.passed.isEmpty,
      -- TICK from the manager and from another member; FENCE
      arrives w (msg 16 (zeros 8)) && arrives w (from18 (msg 16 (zeros 8))) && 18 / 16 == w.tether.canopy,
      arrives w (msg 18 []) && (w.memberOf 18).any (fun x => !x.lost && x.num != w.tether.manager && x.num != w.tether.member),
      -- each SUB from the manager and from another member
      [3, 4, 5, 6, 7, 8].all (fun k => [health k 24, from18 (health k 24)].all fun m => arrives w m && isSub m k),
      w.tether.mode == 0 && !w.tether.takeover && w.tether.active != 1
        && (w.memberOf (w.idOf w.tether.manager)).any (!·.lost) && (w.memberOf 18).isSome && w.tether.managerBeat != w.tick.count,
      (let s : State := { w with tether.managerBeat := w.tick.count }
       arrives s (health 4 24)),
      arrives w (msg 16 [5, 17]) && byteAt (msg 16 [5, 17]).body 1 == w.selfId,
      arrives w (msg 16 [5, 18]) && byteAt (msg 16 [5, 18]).body 1 != w.selfId
        && (w.memberOf (byteAt (msg 16 [5, 18]).body 1)).any (fun y => !y.lost && y.num != 1 && y.num != 0),
      (let s : State := { w with tether.mode := 1 }
       arrives s (health 6 24) && s.tether.mode != 0),
      arrives ringed (to16 (health 7 24)) && ringed.tether.active == 1,
      (let s : State := { w with tether.takeover := true }
       arrives s (health 8 24) && s.tether.takeover),
      !keyInUse w 131072,
      -- a request for a context: not here, here, moving already
      arrives w (move 0 0) && decide ((move 0 0).body.length < 268) && (remoteHolder w 5).isNone && (ctxAt w 5).any (·.moving),
      (let s : State := { w with store.ctxs := [] }
       arrives s (move 0 0) && (remoteHolder s 5).isNone && (ctxAt s 5).isNone),
      (let s : State := { w with store.ctxs := [{ (default : Ctx) with index := 5 }] }
       arrives s (move 0 0) && (remoteHolder s 5).isNone && (ctxAt s 5).any (fun c => !c.moving)
         && s.work.jobs.all fun j => !(allSlots 5).any j.holds.contains),
      -- a context that comes, of a tenant and of an owner elsewhere
      arrives w (move 0 256) && (move 0 256).body.length == 268 && !(ctxOfBody (move 0 256).body).isHome w && w.tether.abroad.isEmpty
        && bit (leAt (leBytes 1 0 ++ zeros 3 ++ leBytes 4 5 ++ leBytes 4 (2 ^ 31)) 8 4) 31,
      -- accepted and refused: the context that moves to the sender, another, none
      [1, 2].all (fun k => arrives w (move k 0) && byteAt (move k 0).body 0 == k && (ctxAt w 5).any fun c => c.moving && c.dest == 16),
      arrives w (from18 (move 1 0)) && (ctxAt w 5).any (fun c => c.dest != 18),
      (let s : State := { w with store.ctxs := [] }
       arrives s (move 1 0) && (ctxAt s 5).isNone && s.tether.moves.isEmpty)].all id) = true := by decide +kernel

/-- The context table is full. -/
theorem test_met_tether_full :
    (let s : State := { working with store.ctxs := List.replicate 262144 default }
     262144 ≤ s.store.ctxs.length) := Nat.le_of_eq List.length_replicate.symm

/-- Messages that are not for this device, not genuine, stale or another row's. -/
theorem test_met_tetherRefused :
    let w := working
    let short (src dst : Nat) : TMsg := { msg src (zeros 12) with dst := dst }
    ([!tetherUp w 1 && !({ w with tether.joined := false } : State).tether.joined,
      tetherUp w 0 && (short 16 18).dst != w.selfId && !crosses w (short 16 18),
      -- between canopies: one that opens, and one that does not
      (let m : TMsg := { msg 17 (zeros 12) with dst := 33 }
       tetherUp ringed 0 && ringed.tether.joined && m.dst != ringed.selfId && crosses ringed m
         && (senderOf ringed m).any (fun d => decide (d.2.ctr ≤ m.ctr)) && (unsealed ringed m 1).isNone),
      -- for this device: from a member and from nobody known, that no key opens
      [16, 99].all (fun src => (unsealed w (short src 17) 1).isNone && knownSender w (short src 17) == (src == 16)),
      -- stale
      (let s : State := { w with tether.members := w.tether.members.map fun x => { x with ctr := 1 } }
       (senderOf s (health 3 24)).any fun d => decide ((health 3 24).ctr < d.2.ctr)),
      -- another SUB
      [3, 4, 5, 6, 7, 8].all (fun k => arrives w (health 2 24) && !isSub (health 2 24) k)].all id) = true := by decide +kernel

/-- A charter of canopy 1 in TEST whose members' keys have a digest, with a peer canopy 2; signed when `f` is 1. -/
def charterOf (dg : Bytes) (f : Nat) : Bytes :=
  patch (patch (patch (charter ++ leBytes 1 2 ++ zeros 15 ++ dg ++ dg) 80 dg) 144 dg) 5 (leBytes 1 f)

/-- Discovery: charters, JOIN, ADMIT. -/
theorem test_met_tetherDiscovery :
    let none' : Bytes := beBytes 32 0xa7ffc6f8bf1ed76651c14756a061d662f580ff4de43b49fa82d80a4b80f8434a
    let dg := sha3 []
    let body (b : Bytes) : TMsg := msg 16 (leBytes 1 0 ++ b)
    let member : State := { outsider with pins.identity := zeros 15 ++ leBytes 1 1, life.state := .test }
    let rings : State :=
      { ringed with tether.charter := some (patch (charterOf dg 0) 9 (leBytes 1 1)),
                    tether.links := ringed.tether.links.modify 4 fun k => { k with state := .discovery } }
    ([dg == none', tetherUp outsider 0 && (outsider.link 0).state == .discovery && outsider.pins.role == 2,
      -- a manager takes none; one that does not list this device; one whose keys do not verify; one in order
      (let s : State := { outsider with pins.role := 1 }
       tetherUp s 0 && isSub (body charter) 0 && s.pins.role == 1 && s.tether.charter.isNone),
      (let m := msg 16 (leBytes 1 0 ++ zeros 16 ++ leBytes 4 0)
       isSub m 0 && (ownEntry outsider (sub m.body 1 (leAt m.body 17 4))).isNone),
      (let b := sub (body charter).body 1 (leAt (body charter).body 17 4)
       b == charter && (ownEntry member b).any (·.role == 2) && sha3 [] != (((chMembers b).find? (·.role == 1)).getD default).digest),
      (let c := (charterOf dg 0).take 192
       let b := sub (body c).body 1 (leAt (body c).body 17 4)
       b == c && (charterFail member b).isNone && (ownEntry member b).any (fun e => e.role == member.pins.role && e.num == 1)
         && (body c).src == chCanopy b * 16 && sub (body c).body (1 + b.length) 2689 == []
         && (offerer (body c) b).any (·.digest == dg) && (body c).link == 0),
      -- a signed one in DEPLOYED
      (let s : State := { outsider with life.state := .deployed }
       s.lcs == .deployed && chSigned (charterOf dg 1)),
      -- a neighbour's, on a ring link, with keys that verify and that do not
      (let m : TMsg := { msg 32 (leBytes 1 0 ++ patch charter 6 (leBytes 1 2)) with link := 4 }
       let b := sub m.body 1 (leAt m.body 17 4)
       tetherUp rings 4 && (rings.link 4).state == .discovery && isSub m 0
         && (rings.tether.charter).any (fun own => chCanopy b != chCanopy own && digestOf own m.src 4 == dg) && !{ m with ok := false }.ok),
      -- JOIN: for another device, on a device that does not manage, of a member, of a neighbour, not in order
      (let m := msg 17 (leBytes 1 1)
       isSub m 1 && { m with dst := 18 }.dst != tethered.selfId && m.dst == tethered.selfId && tethered.tether.active != 1 && tetherUp tethered 0),
      (let s : State := { rings with tether.links := rings.tether.links.modify 0 fun k => { k with offer := [1] } }
       let m : TMsg := { msg 17 (leBytes 1 1) with dst := 16 }
       tetherUp s 0 && s.tether.active == 1 && (s.link 0).offer != [] && m.dst == s.selfId && (s.memberOf 17).isSome
         && s.tether.charter.any (fun b => digestOf b 17 0 == dg && digestOf b 32 4 == dg) && (s.memberOf 32).isNone
         && sub m.body (1 + ctLen 0x01 3 + 56) 2689 == [] && !{ m with ok := false }.ok),
      -- ADMIT: that opens and that does not, of another SUB, stale
      (let s : State := { outsider with tether.charter := some charter }
       isSub (health 2 20) 2 && !isSub (health 3 20) 2 && (health 2 20).src == s.idOf s.tether.manager && (health 2 20).dst == s.selfId
         && !s.tether.joined && (health 2 20).src / 16 == s.tether.canopy && decide ((peerEntry s 16).ctr ≤ 0)
         && (openFrom s (msg 16 (zeros 12)) 6 (16, peerEntry s 16)).isNone),
      (let s : State := { outsider with tether.members := outsider.tether.members.map fun x => { x with ctr := 1 } }
       decide ((health 2 20).ctr < (peerEntry s 16).ctr))].all id) = true := by decide +kernel

/-- An ADMIT that the manager has sealed opens. -/
theorem test_met_tether_admit (s : State) (m : TMsg) :
    openFrom s (sealedBy s m 6 (m.src, peerEntry s m.src)) 6 (m.src, peerEntry s m.src) = some ((m.src, peerEntry s m.src), m.body) := by
  simp [openFrom, sealedBy, openBody_sealBody]

/-! ### Published values of the standards (log entry 53) -/

/-- FIPS 180-4: SHA-256 of "abc". -/
theorem test_sha256_abc : beNat (hashOf 1 [0x61, 0x62, 0x63] [] [] 32) =
    0xba7816bf8f01cfea414140de5dae2223b00361a396177a9cb410ff61f20015ad := by decide +kernel

/-- FIPS 202: SHA3-256 of nothing. -/
theorem test_sha3_empty : beNat (hashOf 8 [] [] [] 32) =
    0xa7ffc6f8bf1ed76651c14756a061d662f580ff4de43b49fa82d80a4b80f8434a := by decide +kernel

/-- RFC 6979, A.2.5: the public half of its P-256 key. -/
theorem test_p256_public : stdBytes .pubOfPriv (ap 0x13 1)
      [beBytes 32 0xC9AFA9D845BA75166B5C215767B1D6934E50C3DB36E89B127B8A622B120F6721] 65 =
    0x04 :: beBytes 32 0x60FED4BA255A9D31C961EB74C6356D68C049B8923B61FA6CE669622E60F29FB6
      ++ beBytes 32 0x7903FE1008B8BC99A41AE9E95628BC64F2F1B20C2D7E9F5177A3C294D4462299 := by decide +kernel

/-- RFC 7748, 5.2: one round of its iteration from 9 and 9. -/
theorem test_x25519 : beNat (stdBytes .dhDerive (ap 0x14 1) [leBytes 32 9, leBytes 32 9] 32) =
    0x422c8e7a6227d7bca1350b3e2bb7279f7897b87bb6854b783c60e80311ae3079 := by decide +kernel

end Sys2Proof.Tests
end

section
/-! SUPPORT. The tick boundary (R24, R29, R32): what the boundary window and the count leave alone, the modes of TICK_BOUNDARY, and
the obligation about TICK_BOUNDARY and TICK_WRAP. -/

namespace Sys2Proof.Machine

/-! ### The boundary window -/

/-- What counting commits and sending results may touch: jobs and what they hold, keys and their cache slices, the tether. -/
def WindowLeaves (s t : State) : Prop := ∃ w st gs te ex en,
  t = { s with work := w, store := st, groves := gs, tether := te, exec := ex, entropy := en }

theorem WindowLeaves.refl (s : State) : WindowLeaves s s := ⟨_, _, _, _, _, _, rfl⟩

theorem WindowLeaves.trans {s t u : State} (h : WindowLeaves s t) (k : WindowLeaves t u) : WindowLeaves s u := by
  obtain ⟨w, st, gs, te, ex, en, rfl⟩ := h
  obtain ⟨w', st', gs', te', ex', en', rfl⟩ := k
  exact ⟨w', st', gs', te', ex', en', rfl⟩

/-- A run of changes, each within the window's reach, stays within it. -/
theorem WindowLeaves.foldl {α : Type} {f : State → α → State} (h : ∀ s a, WindowLeaves s (f s a)) (s : State) (l : List α) :
    WindowLeaves s (l.foldl f s) :=
  List.foldlRecOn l f (.refl s) fun t ht a _ => ht.trans (h t a)

theorem dropKey_windowLeaves (s : State) (idx : Nat) : WindowLeaves s (dropKey s idx) := by
  unfold dropKey
  split
  · exact .refl s
  · exact ⟨_, _, _, _, _, _, rfl⟩

theorem reapKeys_windowLeaves (s : State) : WindowLeaves s (reapKeys s) := by
  unfold reapKeys
  exact .foldl (fun s (k : KeyObj) => dropKey_windowLeaves s k.index) s _

theorem setWork_windowLeaves (s : State) (w : Work) : WindowLeaves s { s with work := w } := ⟨_, _, _, _, _, _, rfl⟩

theorem sendMsg_windowLeaves (s : State) (dst kind : Nat) (body : Bytes) : WindowLeaves s (sendMsg s dst kind body) :=
  ⟨_, _, _, _, _, _, rfl⟩

theorem zeroiseEnvelope_windowLeaves (s : State) (j : Job) (n : Nat) : WindowLeaves s (zeroiseEnvelope s j n) := by
  unfold zeroiseEnvelope
  split
  · exact .refl s
  · exact ⟨_, _, _, _, _, _, rfl⟩

theorem dropExec_windowLeaves (s : State) (j : Nat) : WindowLeaves s (dropExec s j) := ⟨_, _, _, _, _, _, rfl⟩

theorem updJob_windowLeaves (s : State) (j : Nat) (f : Job → Job) : WindowLeaves s (s.updJob j f) := ⟨_, _, _, _, _, _, rfl⟩

theorem sendResult_windowLeaves (s : State) (j : Job) : WindowLeaves s (sendResult s j) := by
  unfold sendResult
  split
  · split
    · exact .refl s
    dsimp only
    split
    · refine .trans ?_ (reapKeys_windowLeaves _)
      refine .trans ?_ (setWork_windowLeaves _ _)
      exact ((sendMsg_windowLeaves ..).trans (zeroiseEnvelope_windowLeaves ..)).trans (dropExec_windowLeaves ..)
    · exact (sendMsg_windowLeaves ..).trans (updJob_windowLeaves ..)
  · exact .refl s

theorem countCommits_windowLeaves (s : State) : WindowLeaves s (countCommits s) := ⟨_, _, _, _, _, _, rfl⟩

/-- The boundary window as a whole (R32, R287). -/
theorem sendResults_countCommits_windowLeaves (s : State) : WindowLeaves s (sendResults (countCommits s)) :=
  (countCommits_windowLeaves s).trans (.foldl sendResult_windowLeaves _ _)

/-! ### The count (R29) -/

/-- The count moves on by one and sets WRAPPED at a multiple of 2^48; beside it only heartwood time, the stewards' event bits, the
recorder and its retention SRAM change. -/
theorem countTick_eq (s : State) : ∃ h ev r ret dr, countTick s = { s with
    tick.count := s.tick.count + 1, tick.wrapped := s.tick.wrapped || decide ((s.tick.count + 1) % 2 ^ 48 = 0),
    htime := h, stw.events := ev, recd := r, hwd.retention := ret, hwd.dropped := dr } := by
  by_cases hw : (s.tick.count + 1) % 2 ^ 48 = 0
  · simp only [countTick, advanceTime, hw, if_true, decide_true, Bool.or_true]
    obtain ⟨r, ret, dr, he⟩ := emit_eq _ 0x0004 0 0 0
    exact ⟨_, _, r, ret, dr, he⟩
  · simp only [countTick, advanceTime, hw, if_false, decide_false, Bool.or_false]
    exact ⟨_, _, _, _, _, rfl⟩

@[simp] theorem countTick_count (s : State) : (countTick s).tick.count = s.tick.count + 1 := by
  obtain ⟨_, _, _, _, _, h⟩ := countTick_eq s
  rw [h]

theorem countTick_wrapped (s : State) :
    (countTick s).tick.wrapped = (s.tick.wrapped || decide ((s.tick.count + 1) % 2 ^ 48 = 0)) := by
  obtain ⟨_, _, _, _, _, h⟩ := countTick_eq s
  rw [h]

/-- What the statements about a boundary read of the state and the count leaves as it was. -/
@[simp] theorem countTick_frame (s : State) :
    (countTick s).tick.running = s.tick.running ∧ (countTick s).stopped = s.stopped ∧ (countTick s).work = s.work ∧
    (countTick s).store = s.store ∧ (countTick s).hostMem = s.hostMem ∧ (countTick s).adm = s.adm ∧
    (countTick s).insts = s.insts := by
  obtain ⟨_, _, _, _, _, h⟩ := countTick_eq s
  rw [h]
  exact ⟨rfl, rfl, rfl, rfl, rfl, rfl, rfl⟩

/-- At the last count the next boundary wraps: TICK_COUNT reads zero and WRAPPED stands. -/
theorem countTick_wraps {s : State} (h : tickCount s = 2 ^ 48 - 1) :
    tickCount (countTick s) = 0 ∧ (countTick s).tick.wrapped = true := by
  have hz : (s.tick.count + 1) % 2 ^ 48 = 0 := by
    unfold tickCount at h
    omega
  exact ⟨by simpa [tickCount] using hz, by rw [countTick_wrapped, hz, decide_eq_true rfl, Bool.or_true]⟩

/-! ### The modes of a boundary -/

theorem tickBoundary_not_running {s : State} (tj : Int) (hr : s.tick.running = false) : tickBoundary s tj = s := by
  simp [tickBoundary, hr]

theorem tickBoundary_stopped {s : State} (tj : Int) (hr : s.tick.running = true) (hs : s.stopped = true) :
    tickBoundary s tj = countTick s := by
  simp [tickBoundary, hr, hs]

theorem tickBoundary_deferred {s : State} (tj : Int) (hr : s.tick.running = true) (hs : s.stopped = false)
    (hp : s.pllGap = some false) :
    tickBoundary s tj = { countTick s with pllGap := some true, power.tj := tj } := by
  simp [tickBoundary, hr, hs, hp]

theorem tickBoundary_already_deferred {s : State} (tj : Int) (hr : s.tick.running = true) (hs : s.stopped = false)
    (hp : s.pllGap = some true) : tickBoundary s tj = s := by
  simp [tickBoundary, hr, hs, hp]

theorem tickBoundary_acts {s : State} (tj : Int) (hr : s.tick.running = true) (hs : s.stopped = false) (hp : s.pllGap = none) :
    tickBoundary s tj = boundaryActions (countTick (sendResults (countCommits s))) tj 0 := by
  simp [tickBoundary, hr, hs, hp]

theorem exec_tickBoundary (s : State) (tj : Int) : exec (.tickBoundary tj) s = .next (tickBoundary s tj) := rfl

/-- TICK_WRAP is the boundary at the last count and no event at any other (R29). -/
theorem exec_tickWrap_last {s : State} (tj : Int) (h : tickCount s = 2 ^ 48 - 1) :
    exec (.tickWrap tj) s = .next (tickBoundary s tj) := congrArg Host.Outcome.next (if_pos h)

theorem exec_tickWrap_other {s : State} (tj : Int) (h : tickCount s ≠ 2 ^ 48 - 1) : exec (.tickWrap tj) s = .next s :=
  congrArg Host.Outcome.next (if_neg h)

/-- While the clock is switched a boundary moves the count once: the second one finds it deferred already (R383). -/
theorem tickBoundary_deferred_once {s : State} (tj : Int) (hr : s.tick.running = true) (hs : s.stopped = false)
    (hp : s.pllGap = some false) : tickBoundary (tickBoundary s tj) tj = tickBoundary s tj := by
  rw [tickBoundary_deferred tj hr hs hp]
  exact tickBoundary_already_deferred tj (by simp [hr]) (by simp [hs]) rfl

/-- The state whose boundary actions are performed: counted on from the window, which leaves the rest of the state alone. -/
theorem countTick_window_frame (s : State) :
    let u := countTick (sendResults (countCommits s))
    u.tick.count = s.tick.count + 1 ∧ u.hostMem = s.hostMem ∧ u.adm = s.adm ∧ u.insts = s.insts := by
  obtain ⟨w, st, gs, te, ex, en, h⟩ := sendResults_countCommits_windowLeaves s
  simp [h]

theorem tickCount_window (s : State) : tickCount (sendResults (countCommits s)) = tickCount s := by
  obtain ⟨w, st, gs, te, ex, en, h⟩ := sendResults_countCommits_windowLeaves s
  rw [h]
  rfl

/-- Settles O14: the modes of the boundary one by one; TICK_WRAP is the boundary at the last count. -/
theorem tickBoundaries : Obligations.TickBoundaries := by
  unfold Obligations.TickBoundaries
  refine ⟨fun s tj => ⟨fun hr => ?_, fun hr hs => ?_, fun hr hs hp => ?_, fun hr hs hp => ?_⟩,
    fun s tj => ⟨fun hl hr => ⟨fun hs => ?_, fun hs hp => ?_⟩, exec_tickWrap_other tj⟩⟩
  · rw [exec_tickBoundary, tickBoundary_not_running tj hr]
  · exact ⟨_, by rw [exec_tickBoundary, tickBoundary_stopped tj hr hs], by simp⟩
  · have hd := tickBoundary_deferred tj hr hs hp
    exact ⟨_, exec_tickBoundary s tj, by simp [hd], by rw [hd], by simp [hd], by simp [hd],
      by rw [exec_tickBoundary, tickBoundary_deferred_once tj hr hs hp]⟩
  · obtain ⟨hc, hm, ha, hi⟩ := countTick_window_frame s
    exact ⟨_, hc, by simp, by simp, hm, ha, hi, by rw [exec_tickBoundary, tickBoundary_acts tj hr hs hp]⟩
  · obtain ⟨hz, hw⟩ := countTick_wraps hl
    exact ⟨_, by rw [exec_tickWrap_last tj hl, tickBoundary_stopped tj hr hs], hz, hw, by simp⟩
  · obtain ⟨hz, hw⟩ := countTick_wraps ((tickCount_window s).trans hl)
    exact ⟨_, hz, hw, by rw [exec_tickWrap_last tj hl, tickBoundary_acts tj hr hs hp]⟩

end Sys2Proof.Machine
end

section
/-! SUPPORT. The release boundary (R45 to R48): JOB_RELEASE as it acts and as it does not, the numbers of the jobs on the device
that it leaves, the quantum reckoned by the model as the least that fits, and the obligation about the boundary of a job. -/

namespace Sys2Proof.Machine

/-! ### The numbers of the jobs on the device -/

/-- The numbers of the jobs whose CE is still to be posted, in order. -/
def State.jobIds (s : State) : List Nat := s.work.jobs.map (·.id)

theorem State.job?_eq_none_iff (s : State) (j : Nat) : s.job? j = none ↔ j ∉ s.jobIds := by
  simp [State.job?, State.jobIds]

theorem State.updJob_jobIds (s : State) (j : Nat) (f : Job → Job) (h : ∀ x, (f x).id = x.id) :
    (s.updJob j f).jobIds = s.jobIds := by
  simp only [State.jobIds, State.updJob, updWhere, List.map_map]
  refine List.map_congr_left fun x _ => ?_
  simp only [Function.comp_apply]
  split
  · exact h x
  · rfl

/-- A job changed in place, after changes that have moved none. -/
theorem State.updJob_jobIds_of_eq {s t : State} {j : Nat} {f : Job → Job} (ht : t.jobIds = s.jobIds)
    (h : ∀ x, (f x).id = x.id) : (t.updJob j f).jobIds = s.jobIds := (t.updJob_jobIds j f h).trans ht

theorem WriteLeaves.jobIds {s t : State} (h : WriteLeaves s t) : t.jobIds = s.jobIds := by
  obtain ⟨_, _, _, _, _, _, _, _, rfl, _⟩ := h
  rfl

/-- A run of changes, none of which adds or removes a job. -/
theorem foldl_jobIds {α : Type} {f : State → α → State} (h : ∀ s a, (f s a).jobIds = s.jobIds) (l : List α) (s : State) :
    (l.foldl f s).jobIds = s.jobIds :=
  List.foldlRecOn (motive := fun t => t.jobIds = s.jobIds) l f rfl fun t ht a _ => (h t a).trans ht

@[simp] theorem sendMsg_jobIds (s : State) (d k : Nat) (b : Bytes) : (sendMsg s d k b).jobIds = s.jobIds := rfl
@[simp] theorem specInc_jobIds (s : State) (k n : Nat) : (specInc s k n).jobIds = s.jobIds := rfl
@[simp] theorem dropExec_jobIds (s : State) (j : Nat) : (dropExec s j).jobIds = s.jobIds := rfl

@[simp] theorem dropKey_jobIds (s : State) (i : Nat) : (dropKey s i).jobIds = s.jobIds := by
  unfold dropKey
  split <;> rfl

@[simp] theorem reapKeys_jobIds (s : State) : (reapKeys s).jobIds = s.jobIds :=
  foldl_jobIds (fun s (k : KeyObj) => dropKey_jobIds s k.index) _ s

/-! ### A final commit moves no job -/

@[simp] theorem destroyKey_jobIds (s : State) (i : Nat) : (destroyKey s i).jobIds = s.jobIds := by
  unfold destroyKey
  exact (apply_ite State.jobIds ..).trans (ite_eq_iff'.2 ⟨fun _ => rfl, fun _ => dropKey_jobIds ..⟩)

@[simp] theorem applyEffect_jobIds (s : State) (e : Effect) : (applyEffect s e).jobIds = s.jobIds := by
  cases e with
  | destroyKey i => exact destroyKey_jobIds s i
  | putCtx c => simp only [applyEffect]; split <;> rfl
  | freeCtx h => simp only [applyEffect, dropCtx]; split <;> rfl
  | freeStream i => simp only [applyEffect, dropStream]; split <;> rfl
  | _ => rfl

@[simp] theorem applyEffects_jobIds (s : State) (es : List Effect) : (applyEffects s es).jobIds = s.jobIds :=
  foldl_jobIds applyEffect_jobIds es s

@[simp] theorem announceKeys_jobIds (s : State) (es : List Effect) : (announceKeys s es).jobIds = s.jobIds := by
  unfold announceKeys
  split
  · rfl
  refine foldl_jobIds (fun s e => ?_) es s
  split
  · split
    · exact foldl_jobIds (fun s d => sendMsg_jobIds ..) _ s
    · rfl
  · rfl

theorem readSide_leaves (s : State) (inst addr len frags : Nat) (spec : Bool) :
    WriteLeaves s (readSide s inst addr len frags spec).1 := by
  have h := hostRead_leaves s inst addr (16 * frags) 1 spec
  unfold readSide
  split
  · exact .refl s
  split
  · exact .refl s
  split <;> rename_i hr <;> rw [hr] at h
  · exact h
  · dsimp only
    split
    · exact h
    split <;> exact h

theorem outputFrags_leaves (s : State) (x : Job) : WriteLeaves s (outputFrags s x).1 := by
  have h := readSide_leaves s x.inst x.outAddr x.outLen x.outFrags false
  unfold outputFrags
  split
  · exact .refl s
  · split <;> rename_i hr <;> rw [hr] at h <;> exact h

theorem transFrags_leaves (s : State) (inst : Nat) (fs : List Frag) : WriteLeaves s (transFrags s inst fs).1 := by
  induction fs generalizing s with
  | nil => exact .refl s
  | cons f fs ih =>
    have h := transRange_leaves s inst f.addr f.len true 2 false
    unfold transFrags
    split <;> rename_i hr <;> rw [hr] at h
    · exact h
    · rename_i t _
      have k := ih t
      split <;> rename_i hf <;> rw [hf] at k <;> exact h.trans k

theorem writeFrags_leaves (s : State) (inst : Nat) (ts : List (Nat × List (Nat × Nat))) (b : Bytes) :
    WriteLeaves s (writeFrags s inst ts b) := by
  induction ts generalizing s b with
  | nil => exact .refl s
  | cons p ts ih =>
    simp only [writeFrags]
    split
    · exact .refl s
    · exact (issueWrite_leaves ..).trans (ih ..)

@[simp] theorem commitNow_jobIds (s : State) (j : Nat) : (commitNow s j).jobIds = s.jobIds := by
  unfold commitNow
  split
  · rfl
  rename_i x _
  split
  · rfl
  rename_i r _
  dsimp only
  split
  · rw [announceKeys_jobIds, applyEffects_jobIds]
    exact State.updJob_jobIds _ _ _ fun y => by split <;> rfl
  have ho := outputFrags_leaves s x
  split <;> rename_i u _ hu <;> rw [hu] at ho
  · have ht := transFrags_leaves u x.inst ‹List Frag›
    split <;> rename_i hv <;> rw [hv] at ht
    · rw [announceKeys_jobIds, applyEffects_jobIds]
      refine State.updJob_jobIds_of_eq (ho.trans (ht.trans (writeFrags_leaves ..))).jobIds fun y => ?_
      split <;> rfl
    · exact State.updJob_jobIds_of_eq (ho.trans ht).jobIds fun _ => rfl
  · exact State.updJob_jobIds_of_eq ho.jobIds fun _ => rfl

/-! ### A posted CE moves no job -/

@[simp] theorem cancelSend_jobIds (s : State) (x : Job) (d : Nat) : (cancelSend s x d).jobIds = s.jobIds := by
  unfold cancelSend
  split
  · split <;> rfl
  · rfl

@[simp] theorem zeroiseEnvelope_jobIds (s : State) (x : Job) (n : Nat) : (zeroiseEnvelope s x n).jobIds = s.jobIds := by
  unfold zeroiseEnvelope
  split <;> rfl

@[simp] theorem endUnconfirmed_jobIds (s : State) (x : Job) (st d n : Nat) : (endUnconfirmed s x st d n).jobIds = s.jobIds := by
  unfold endUnconfirmed
  refine State.updJob_jobIds_of_eq ?_ fun _ => rfl
  split <;> simp

/-- Every dependant is decided where it stands (R280, R284). -/
@[simp] theorem decideDependant_jobIds (s : State) (x : Job) (st : Nat) : (decideDependant s x st).jobIds = s.jobIds := by
  unfold decideDependant
  dsimp only
  split
  · exact State.updJob_jobIds _ _ _ fun _ => rfl
  split
  · rw [apply_ite State.jobIds, commitNow_jobIds, ite_self, cancelSend_jobIds, apply_ite State.jobIds, specInc_jobIds, ite_self]
    exact State.updJob_jobIds _ _ _ fun _ => rfl
  · exact State.updJob_jobIds_of_eq (endUnconfirmed_jobIds ..) fun _ => rfl

@[simp] theorem countCe_jobIds (s : State) (x : Job) : (countCe s x).jobIds = s.jobIds := by
  unfold countCe
  dsimp only
  split
  · rfl
  split <;> split <;> rfl

@[simp] theorem afterCe_jobIds (s : State) (i : Nat) : (afterCe s i).jobIds = s.jobIds := by
  unfold afterCe
  split
  · rfl
  · exact (foldl_jobIds (fun s x => decideDependant_jobIds ..) _ _).trans (countCe_jobIds ..)

theorem writeCe_leaves (s : State) (c : Cq) (ce : HeldCe) : WriteLeaves s (writeCe s c ce).1 := by
  have h := hostWrite_leaves s c.inst (c.base + 16 * (c.tail % ringN c.log2n))
    (withPhase ce.body (decide (c.tail < ringN c.log2n))) 3
  unfold writeCe
  dsimp only
  split <;> rename_i hw <;> rw [hw] at h <;> exact h

/-- A CE is written and acted on, or held (R85). -/
@[simp] theorem postOne_jobIds (s : State) (i c : Nat) (ce : HeldCe) : (postOne s i c ce).jobIds = s.jobIds := by
  unfold postOne
  split
  · exact afterCe_jobIds ..
  rename_i x _
  split
  · rfl
  have h := writeCe_leaves s x ce
  split <;> rename_i hw <;> rw [hw] at h
  · exact (afterCe_jobIds ..).trans h.jobIds
  · exact h.jobIds

@[simp] theorem releaseHeld_jobIds (s : State) (i c : Nat) (b : Option Nat) : (releaseHeld s i c b).jobIds = s.jobIds := by
  unfold releaseHeld
  split
  · rfl
  dsimp only
  split
  · rfl
  · exact foldl_jobIds (fun s (h : HeldCe) => postOne_jobIds ..) _ _

@[simp] theorem postCe_jobIds (s : State) (i c : Nat) (ce : HeldCe) : (postCe s i c ce).jobIds = s.jobIds :=
  (postOne_jobIds ..).trans (releaseHeld_jobIds ..)

/-! ### What a release takes from the device -/

/-- The job that is posted leaves, and no other (R45, R85). -/
@[simp] theorem postJob_jobIds (s : State) (i : Nat) : (postJob s i).jobIds = s.jobIds.filter (· != i) := by
  unfold postJob
  extract_lets t
  have ht : t.jobIds = s.jobIds := by
    unfold t
    split
    · split
      · exact commitNow_jobIds s i
      · rfl
    · rfl
  rw [← ht]
  split
  · rename_i hn
    rw [State.job?_eq_none_iff] at hn
    exact (List.filter_eq_self.2 fun k hk => by simpa using fun e : k = i => hn (e ▸ hk)).symm
  · simp only [postCe_jobIds, reapKeys_jobIds, dropExec_jobIds]
    simp [State.jobIds, List.filter_map, Function.comp_def]

theorem postDue_jobIds_subset (k : Nat) (s : State) : (postDue k s).jobIds ⊆ s.jobIds := by
  induction k generalizing s with
  | zero => exact List.Subset.refl _
  | succ k ih =>
    simp only [postDue]
    split
    · exact List.Subset.refl _
    · exact List.Subset.trans (ih _) (postJob_jobIds s _ ▸ List.filter_subset_self _)

/-- A waiter takes its holds or ends where it stands (R221). -/
@[simp] theorem resumeOne_jobIds (s : State) (i : Nat) : (resumeOne s i).jobIds = s.jobIds := by
  have hu : ∀ f : Job → Job, (∀ x, (f x).id = x.id) → (s.updJob i f).jobIds = s.jobIds := s.updJob_jobIds i
  unfold resumeOne
  split
  · rfl
  split
  · rfl
  dsimp only
  split
  · exact hu _ fun _ => rfl
  split
  · exact hu _ fun _ => rfl
  split
  · exact hu _ fun _ => rfl
  split <;> exact hu _ fun _ => rfl

@[simp] theorem resumeWaiters_jobIds (s : State) : (resumeWaiters s).jobIds = s.jobIds :=
  foldl_jobIds (fun s (x : Job) => resumeOne_jobIds s x.id) _ s

/-- JOB_RELEASE of a job that is not due changes nothing. -/
theorem exec_jobRelease_early {s : State} {j : Nat} {x : Job} (hx : s.job? j = some x) (hd : due x (now s) = false) :
    exec (.jobRelease j) s = .next s := by
  change execJobRelease j s = _
  simp [execJobRelease, hx, hd]

/-- JOB_RELEASE of a job that is due takes it from the device. -/
theorem exec_jobRelease_due {s : State} {j : Nat} {x : Job} (hx : s.job? j = some x) (hs : s.service = true)
    (hd : due x (now s) = true) : ∃ t, exec (.jobRelease j) s = .next t ∧ t.job? j = none := by
  refine ⟨resumeWaiters (postDue s.work.jobs.length (postJob s j)), ?_, ?_⟩
  · change execJobRelease j s = _
    simp [execJobRelease, hx, hs, hd]
  · rw [State.job?_eq_none_iff, resumeWaiters_jobIds]
    intro hm
    have hp := postDue_jobIds_subset _ _ hm
    simp [postJob_jobIds] at hp

/-! ### The quantum (R45, R46) -/

/-- The least `k` whose quantum ends at or after a boundary is the one that the model reckons. -/
theorem quanta_of_least {S q C k : Nat} (hq : 0 < q) (hC : C ≤ S + q * (1 + k)) (hlt : ∀ i, i < k → S + q * (1 + i) < C) :
    quanta S q C = 1 + k := by
  unfold quanta ceilDiv
  cases k with
  | zero =>
    have h : (C - S + q - 1) / q < 2 := Nat.div_lt_of_lt_mul (by omega)
    omega
  | succ k =>
    have hk := hlt k (Nat.lt_succ_self k)
    have h : (C - S + q - 1) / q = 1 + (k + 1) := Nat.div_eq_of_lt_le (by grind) (by grind)
    omega

/-- With T the boundary of C − r, a job is released at T if it is not passed, at C up to T + 2, and by C beyond (R47). -/
theorem quantised_fst (S q C r : Nat) : (quantised S q C r).1 =
    let T := S + q * quanta S q (C - r)
    if C ≤ T then T else if C ≤ T + 2 then C else S + q * quanta S q C := by
  simp only [quantised]
  split
  · rfl
  split <;> rfl

/-! ### The release boundary of a job -/

theorem relClass_eq_pub_iff (op alg : Nat) :
    relClass op alg = .pub ↔ op ∈ [0x0A, 0x16, 0x18, 0x20, 0x21, 0x22, 0x23, 0x38, 0x42, 0x43, 0x4B] := by
  unfold relClass
  split
  · rename_i h
    simp only [Bool.and_eq_true, decide_eq_true_eq] at h
    simp [h.1]
  · rw [← List.contains_iff_mem]
    split <;> simp_all

/-- The opcodes of the budget class and ML-DSA's signing are none of the public class (Table 2.7). -/
theorem relClass_ne_pub {op : Nat} (alg : Nat) (h : op = 0x09 ∨ op ∈ [0x01, 0x02, 0x03, 0x08, 0x10, 0x11, 0x14, 0x15, 0x17,
    0x28, 0x29, 0x30, 0x31, 0x40, 0x41, 0x49, 0x4A, 0x50, 0x60]) : relClass op alg ≠ .pub := by
  rw [Ne, relClass_eq_pub_iff]
  have hd : ∀ o ∈ [0x09, 0x01, 0x02, 0x03, 0x08, 0x10, 0x11, 0x14, 0x15, 0x17, 0x28, 0x29, 0x30, 0x31, 0x40, 0x41, 0x49, 0x4A,
    0x50, 0x60], o ∉ [0x0A, 0x16, 0x18, 0x20, 0x21, 0x22, 0x23, 0x38, 0x42, 0x43, 0x4B] := by decide
  exact hd op (List.mem_cons.2 h)

theorem releaseInfo_quantised {x : Job} {c S : Nat} (he : x.endedAt = none) (hc : x.commitTick = some c) (hs : x.start = some S)
    (hp : relClass x.opcode x.alg ≠ .pub) (hb : 0 < x.budget) :
    (releaseInfo x).1 = (quantised S x.budget (c + 1) x.lostTicks.length).1 := by
  cases hr : relClass x.opcode x.alg with
  | pub => exact absurd hr hp
  | _ => simp [releaseInfo, he, hc, hs, hr, hb.ne']

theorem releaseInfo_public {x : Job} {c S : Nat} (he : x.endedAt = none) (hc : x.commitTick = some c) (hs : x.start = some S)
    (hp : relClass x.opcode x.alg = .pub) : (releaseInfo x).1 = c + 1 := by
  simp [releaseInfo, he, hc, hs, hp]

theorem releaseInfo_not_started {x : Job} {c : Nat} (he : x.endedAt = none) (hc : x.commitTick = some c) (hs : x.start = none) :
    (releaseInfo x).1 = c + 1 := by
  simp [releaseInfo, he, hc, hs]

/-- A confirmed job of this device with its result is due from its release boundary on. -/
theorem due_eq {x : Job} (n : Nat) (hr : x.result.isSome = true) (ho : x.origin = none) (hc : x.confirmed = true) :
    due x n = decide ((releaseInfo x).1 ≤ n) := by
  simp [due, hr, ho, hc]

/-- JOB_RELEASE changes nothing before the release boundary, and takes the job from the device from then on. -/
theorem exec_jobRelease_at {s : State} {j T : Nat} {x : Job} (hs : s.service = true) (hx : s.job? j = some x)
    (hr : x.result.isSome = true) (ho : x.origin = none) (hc : x.confirmed = true) (hT : (releaseInfo x).1 = T) :
    (s.tick.count < T → exec (.jobRelease j) s = .next s)
    ∧ (T ≤ s.tick.count → ∃ t, exec (.jobRelease j) s = .next t ∧ t.job? j = none) := by
  have hd := due_eq (now s) hr ho hc
  rw [hT] at hd
  exact ⟨fun h => exec_jobRelease_early hx (hd.trans (decide_eq_false h.not_ge)),
    fun h => exec_jobRelease_due hx hs (hd.trans (decide_eq_true h))⟩

/-- Settles O12: each clause gives the release boundary that the model reckons. -/
theorem releaseBoundary : Obligations.ReleaseBoundary := by
  unfold Obligations.ReleaseBoundary
  intro s j c x hs hx hr ho hc he ht hb least releasedAt timed
  have released : ∀ T, (releaseInfo x).1 = T → releasedAt T := fun T => exec_jobRelease_at hs hx hr ho hc
  have quantum : ∀ {S C k}, least S C k → quanta S x.budget C = 1 + k := fun h => quanta_of_least hb h.1 h.2
  refine ⟨fun S hS hop => ?_, fun S hS hop => ?_, fun hS => ?_⟩
  · have hq := (releaseInfo_quantised he ht hS (relClass_ne_pub x.alg hop) hb).trans (quantised_fst ..)
    refine ⟨fun hl k hk => ?_, fun k hk => ⟨fun h => ?_, fun h h2 => ?_, fun h k' hk' => ?_⟩⟩
    · rw [hl, List.length_nil, Nat.sub_zero, quantum hk] at hq
      exact released _ (hq.trans (if_pos hk.1))
    all_goals rw [quantum hk] at hq
    · exact released _ (hq.trans (if_pos h))
    · exact released _ (hq.trans ((if_neg h.not_ge).trans (if_pos h2)))
    · rw [quantum hk'] at hq
      exact released _ (hq.trans ((if_neg (by omega)).trans (if_neg h.not_ge)))
  · exact released _ (releaseInfo_public he ht hS ((relClass_eq_pub_iff ..).2 hop))
  · exact released _ (releaseInfo_not_started he ht hS)

end Sys2Proof.Machine
end

section
/-! SUPPORT. The rings' doorbells and reads of entries (R58 to R66): what a doorbell value spells, which queue a write reaches and
what it leaves alone, what SE_FETCH does with a slot, and the obligations about SQ_DOORBELL, CQ_DOORBELL and SE_FETCH. -/

namespace Sys2Proof.Machine

/-! ### The fields of a doorbell value (Tables 3.2 and 3.3) -/

theorem bits_index (v : Nat) : bits v 15 0 = v % 65536 := by simp [bits]

theorem bits_lap (v : Nat) : bits v 16 16 = v / 65536 % 2 := rfl

theorem bit_arm (v : Nat) : bit v 31 = decide (v / 2 ^ 31 % 2 = 1) := Nat.testBit_eq_decide_div_mod_eq

/-! ### Another queue, and copies that are dropped -/

/-- Two names of queues that differ do so in the instance or in the number. -/
theorem queue_ne_iff {i q j r : Nat} : (j, r) ≠ (i, q) ↔ j ≠ i ∨ r ≠ q := by
  rw [Ne, Prod.mk.injEq, not_and_or]

/-- Counting dropped copies changes SPEC_READ_DROPPED alone. -/
theorem noteDropped_eq (s t : State) : ∃ spec, noteDropped s t = { t with work.spec := spec } := by
  unfold noteDropped
  split <;> exact ⟨_, rfl⟩

@[simp] theorem noteDropped_sq? (s t : State) (i q : Nat) : (noteDropped s t).sq? i q = t.sq? i q := by
  obtain ⟨_, h⟩ := noteDropped_eq s t
  rw [h]
  rfl

/-! ### A write to a doorbell page (R58, R61) -/

/-- 32 bits at 8q ring the SQ, while the function takes doorbells. -/
theorem exec_sqDoorbell_rings {s : State} {face q v : Nat} (hr : s.ringing = true) (hl : s.instLive (faceInst s face) = true)
    (ha : asleep s face = false) (hq : q < 512) (hv : v < 2 ^ 32) :
    exec (.sqDoorbell face (8 * q) 4 v) s = .next (ringSq s (faceInst s face) q v) := by
  have hoff : ¬4096 ≤ 8 * q := by omega
  refine congrArg Host.Outcome.next (?_ : doorbellWrite s face (8 * q) 4 v = _)
  rw [← Nat.mod_eq_of_lt hv]
  simp [doorbellWrite, hr, hl, ha, hoff]

/-- 32 bits at 8q + 4 ring the CQ. -/
theorem exec_cqDoorbell_rings {s : State} {face q v : Nat} (hr : s.ringing = true) (hl : s.instLive (faceInst s face) = true)
    (ha : asleep s face = false) (hq : q < 512) (hv : v < 2 ^ 32) :
    exec (.cqDoorbell face (8 * q + 4) 4 v) s = .next (ringCq s (faceInst s face) q v) := by
  have hoff : ¬4096 ≤ 8 * q + 4 := by omega
  have hmod : (8 * q + 4) % 8 = 4 := by omega
  have hdiv : (8 * q + 4) / 8 = q := by omega
  refine congrArg Host.Outcome.next (?_ : doorbellWrite s face (8 * q + 4) 4 v = _)
  rw [← Nat.mod_eq_of_lt hv]
  simp [doorbellWrite, hr, hl, ha, hoff, hmod, hdiv]

/-! ### The SQ doorbell (R63) -/

/-- A doorbell value names no other queue. -/
theorem sqRing_key (x : Sq) (v : Nat) : (sqRing x v).inst = x.inst ∧ (sqRing x v).num = x.num := by
  simp only [sqRing]
  repeat' split
  all_goals exact ⟨rfl, rfl⟩

/-- An SQ after a write to its doorbell, which acts only while the queue takes doorbells (R61, R101). -/
def sqRung (v : Nat) (x : Sq) : Sq := if x.state.rings && !x.deleting then sqRing x v else x

theorem sqRung_key (v : Nat) (x : Sq) : (sqRung v x).inst = x.inst ∧ (sqRung v x).num = x.num := by
  unfold sqRung
  split
  · exact sqRing_key x v
  · exact ⟨rfl, rfl⟩

theorem ringSq_eq (s : State) (i q v : Nat) : ringSq s i q v = noteDropped s (s.updSq i q (sqRung v)) := rfl

theorem ringSq_sq? (s : State) (i q v : Nat) : (ringSq s i q v).sq? i q = (s.sq? i q).map (sqRung v) := by
  rw [ringSq_eq, noteDropped_sq?, State.sq?_updSq _ _ _ _ (sqRung_key v)]

theorem ringSq_sq?_ne (s : State) {i q j r : Nat} (v : Nat) (h : (j, r) ≠ (i, q)) :
    (ringSq s i q v).sq? j r = s.sq? j r := by
  rw [ringSq_eq, noteDropped_sq?, State.sq?_updSq_ne _ _ _ _ _ _ (sqRung_key v) (queue_ne_iff.1 h)]

/-- A doorbell of an SQ changes the SQs and the count of dropped copies alone. -/
theorem ringSq_frame (s : State) (i q v : Nat) : ∃ sqs spec, ringSq s i q v = { s with work.sqs := sqs, work.spec := spec } := by
  obtain ⟨spec, h⟩ := noteDropped_eq s (s.updSq i q (sqRung v))
  exact ⟨_, spec, h⟩

/-- Settles O6: the value is accepted or malformed by the order of R63, and the write reaches one queue. -/
theorem sqDoorbell : Obligations.SqDoorbell := by
  unfold Obligations.SqDoorbell
  intro s face q v x hr hl ha hq hv hx hs hd
  refine ⟨_, exec_sqDoorbell_rings hr hl ha hq hv, ?_, fun i r h => ringSq_sq?_ne s v h, ringSq_frame ..⟩
  rw [ringSq_sq?, hx, Option.map_some]
  simp [sqRung, hs, hd, sqRing, sqFail, bits_index, bits_lap, pos, ringN]

/-! ### The CQ doorbell (R64) -/

/-- A malformed head: at or above N, or further on than the tail. -/
theorem cqRingBad_iff (c : Cq) (v : Nat) : cqRingBad c v = true ↔ 2 ^ c.log2n ≤ v % 65536 ∨
    dist (2 ^ c.log2n) c.tail c.head < dist (2 ^ c.log2n) (v / 65536 % 2 * 2 ^ c.log2n + v % 65536) c.head := by
  simp [cqRingBad, bits_index, bits_lap, pos, ringN]

theorem cqRing_eq (c : Cq) (v b : Nat) : cqRing c v b =
    let p := v / 65536 % 2 * 2 ^ c.log2n + v % 65536
    if v / 2 ^ 31 % 2 = 1 then
      { c with head := p, posted := c.posted.drop (dist (2 ^ c.log2n) p c.head), armed := true, armAt := b }
    else { c with head := p, posted := c.posted.drop (dist (2 ^ c.log2n) p c.head) } := by
  simp [cqRing, bits_index, bits_lap, bit_arm, pos, ringN]

theorem cqRing_key (c : Cq) (v b : Nat) : (cqRing c v b).inst = c.inst ∧ (cqRing c v b).num = c.num := by
  rw [cqRing_eq]
  dsimp only
  split <;> exact ⟨rfl, rfl⟩

theorem ringCq_bad {s : State} {i q v : Nat} {c : Cq} (hc : s.cq? i q = some c) (hs : c.state.rings = true)
    (hb : cqRingBad c v = true) : ringCq s i q v = cqFail s i q rDbOverrun (v % 65536) := by
  simp [ringCq, hc, hs, hb, bits_index]

theorem ringCq_good {s : State} {i q v : Nat} {c : Cq} (hc : s.cq? i q = some c) (hs : c.state.rings = true)
    (hb : ¬cqRingBad c v = true) : ringCq s i q v = s.updCq i q fun c => cqRing c v (now s + 1) := by
  simp [ringCq, hc, hs, hb]

/-- A CQ that fails is in ERROR and otherwise as it was. -/
theorem cqFail_cq? (s : State) (i q r k : Nat) : (cqFail s i q r k).cq? i q =
    (s.cq? i q).map fun c => { c with state := .error, reason := r, errIndex := k % 65536 } :=
  State.cq?_updCq s i q _ fun _ => ⟨rfl, rfl⟩

theorem cqFail_cq?_ne (s : State) {i q j m : Nat} (r k : Nat) (h : j ≠ i ∨ m ≠ q) : (cqFail s i q r k).cq? j m = s.cq? j m :=
  State.cq?_updCq_ne s i q j m _ (fun _ => ⟨rfl, rfl⟩) h

/-- The SQs bound to a CQ that fails become HELD (R64, R85). -/
theorem cqFail_sq? (s : State) (i q r k j m : Nat) : (cqFail s i q r k).sq? j m = (s.sq? j m).map fun y =>
    if j = i ∧ y.cq = q ∧ (y.state = .active ∨ y.state = .quiesced) then { y with state := .held } else y := by
  refine (find?_updWhere s.work.sqs _ _ (fun y => { y with state := .held }) fun _ => rfl).trans (Option.map_congr fun y hy => ?_)
  have hk := find?_key hy
  simp only [Bool.and_eq_true, beq_iff_eq] at hk
  simp [hk.1, and_assoc]

/-- Settles O7: a malformed head fails the CQ, any other moves it. -/
theorem cqDoorbell : Obligations.CqDoorbell := by
  unfold Obligations.CqDoorbell
  intro s face q v c hr hl ha hq hv hc hs n h p bad
  have hbad : cqRingBad c v = true ↔ bad := cqRingBad_iff c v
  refine ⟨_, exec_cqDoorbell_rings hr hl ha hq hv, ?_⟩
  by_cases hb : bad
  · rw [ringCq_bad hc hs (hbad.2 hb), if_pos hb, cqFail_cq?, hc]
    refine ⟨by simp [h], fun i r hn => cqFail_cq?_ne s _ _ (queue_ne_iff.1 hn), fun hg => absurd hb hg,
      fun _ i r => cqFail_sq? .., _, _, rfl⟩
  · rw [ringCq_good hc hs (mt hbad.1 hb), if_neg hb, State.cq?_updCq _ _ _ _ fun c => cqRing_key c v _, hc, Option.map_some,
      cqRing_eq]
    exact ⟨rfl, fun i r hn => State.cq?_updCq_ne s _ _ _ _ _ (fun c => cqRing_key c v _) (queue_ne_iff.1 hn), fun _ => rfl,
      fun hg => absurd hg hb, _, _, rfl⟩

/-! ### Reading entries (R65, R66) -/

/-- The copy of a slot joins those that its queue holds. -/
def holdCopy (s : State) (i q p : Nat) (b : Option Bytes) : State :=
  s.updSq i q fun x => { x with copies := x.copies ++ [{ pos := p, bytes := b }] }

/-- A slot that is not published is left alone without READ_AHEAD. -/
theorem seFetch_unpublished {s : State} {i q p : Nat} {x : Sq} (hx : s.sq? i q = some x)
    (h : ¬dist (2 ^ x.log2n) p x.head < x.published) (ha : x.readAhead = false) :
    seFetch s i q p = s := by
  simp [seFetch, hx, ringN, h, ha]

section
variable {s : State} {i q p : Nat} {x : Sq} (hx : s.sq? i q = some x) (hf : mayFetch s x = true) (hp : p < 2 * 2 ^ x.log2n)
  (hd : dist (2 ^ x.log2n) p x.head < 2 ^ x.log2n) (hc : ∀ c ∈ x.copies, c.pos ≠ p)
include hx hf hp hd hc

/-- A published slot is read and its copy held, failed or not. -/
theorem seFetch_published (h : dist (2 ^ x.log2n) p x.head < x.published) : seFetch s i q p =
    holdCopy (hostRead s i (x.slotAddr p) 64 0 false).1 i q p (hostRead s i (x.slotAddr p) 64 0 false).2 := by
  have hcp : x.copies.any (·.pos == p) = false := by simpa using hc
  simp only [seFetch, hx, hf, ringN, hcp, h, decide_true, Bool.not_true, Bool.false_and, Bool.or_false,
    Nat.not_le.2 hp, Nat.not_le.2 hd, decide_false, Bool.false_eq_true, if_false, if_true]
  rcases hostRead s i (x.slotAddr p) 64 0 false with ⟨t, _ | b⟩ <;> rfl

/-- Under READ_AHEAD it is read, and its copy dropped when the read fails or finds OPCODE 0xFF. -/
theorem seFetch_ahead (h : ¬dist (2 ^ x.log2n) p x.head < x.published) (ha : x.readAhead = true) : seFetch s i q p =
    match (hostRead s i (x.slotAddr p) 64 0 true).2 with
    | some b => if byteAt b 0 = 0xFF then specInc (hostRead s i (x.slotAddr p) 64 0 true).1 6 1
      else holdCopy (hostRead s i (x.slotAddr p) 64 0 true).1 i q p (some b)
    | none => specInc (hostRead s i (x.slotAddr p) 64 0 true).1 6 1 := by
  have hcp : x.copies.any (·.pos == p) = false := by simpa using hc
  simp only [seFetch, hx, hf, ringN, hcp, h, ha, Bool.not_false, Bool.not_true, Bool.and_false, Bool.or_false, Bool.true_and,
    Nat.not_le.2 hp, Nat.not_le.2 hd, decide_false, Bool.false_eq_true, if_false, beq_iff_eq]
  rcases hostRead s i (x.slotAddr p) 64 0 true with ⟨t, _ | b⟩ <;> rfl

end

/-- Settles O9, by whether the slot is published and whether the queue reads ahead. -/
theorem Rings.seFetch : Obligations.SeFetch := by
  unfold Obligations.SeFetch
  intro s i q p x n published hx hf hp hd hc read
  have hread : ∀ {spec}, (!decide published) = spec → read = hostRead s i (x.slotAddr p) 64 0 spec := fun h => h ▸ rfl
  refine ⟨fun h => ?_, fun h ha => ?_, fun h ha => ?_⟩
  · rw [hread (spec := false) (by simpa using h)]
    exact congrArg Host.Outcome.next (seFetch_published hx hf hp hd hc h)
  · exact congrArg Host.Outcome.next (seFetch_unpublished hx h ha)
  · rw [hread (spec := true) (by simpa using h)]
    exact congrArg Host.Outcome.next (seFetch_ahead hx hf hp hd hc h ha)

end Sys2Proof.Machine
end

section
/-! SUPPORT. JOB_DISPATCH on a device whose vault has failed unseen (R86, R257, R262): the head in its turn is granted, and the
obligation about it, which says that its job is then on the device, is refuted. -/

namespace Sys2Proof.Machine

/-! ### A device whose vault's tree has failed -/

/-- An entry for KEY_GET_PUBLIC with INFO of the key of index 0 and generation 1. -/
def keyInfoSe : Bytes :=
  leBytes 1 0x43 ++ leBytes 1 3 ++ leBytes 2 9 ++ zeros 2 ++ leBytes 2 0xFFFF ++ leBytes 4 (1 * 2 ^ 24) ++ zeros 18 ++ leBytes 2 1
    ++ leBytes 8 0x40000 ++ leBytes 4 32 ++ zeros 20

/-- SQ 0 of instance 0, with one entry published. -/
def keyInfoSq : Sq := { (default : Sq) with base := 0x10000, log2n := 4, weight := 1, tail := 1, state := .active }

/-- Its CQ. -/
def keyInfoCq : Cq := { (default : Cq) with base := 0x20000, log2n := 4, state := .active }

/-- A device in service whose vault holds that key in line 0.  The page has been touched, and of the path to it the node cache
holds nothing, so that its tree lines are read; in neither channel do they carry the MACs that the root asks for. -/
def failedTree : State :=
  { State.reset with
    tick.running := true, tick.count := 100, hwd.vdd := true, busMaster := [0], power.limit := 25,
    insts := [{ (default : Inst) with id := 0, state := .active, engineWeight := 4, inflightLimit := 8, mode := .bypass }],
    work.sqs := [keyInfoSq], work.cqs := [keyInfoCq], hostMem := Mem.writeBytes [] 0x10000 keyInfoSe,
    faults.map := (List.range 17 ++ [unitId 8 0, unitId 8 1]).map fun u => ⟨u, .serving, 0⟩,
    store.keys := [{ (default : KeyObj) with gen := 1 }],
    vault.keys := some (zeros 64, zeros 32), vault.touched := [0], vault.copies := [[], []],
    vault.objs := [⟨.key 0 1, [(0, 1)], []⟩] }

theorem failedTree_head : failedTree.sq? 0 0 = some keyInfoSq ∧ failedTree.cq? 0 0 = some keyInfoCq ∧
    mayFetch failedTree keyInfoSq = true ∧ readHead failedTree keyInfoSq = (failedTree, .chain [keyInfoSe] false) := by
  decide +kernel

/-- The head is eligible in the normal class, and its turn has come. -/
theorem failedTree_turn : eligible failedTree keyInfoSq = some false ∧ eligibleSqs failedTree true = [] ∧
    newRounds failedTree 0 = failedTree ∧ normalTurn failedTree 0 0 = true := by decide +kernel

theorem failedTree_fragCheck : fragCheck failedTree (jobOfChain 0 0 0 [keyInfoSe]) =
    (failedTree, .sides (some []) (some [{ addr := 0x40000, len := 32 }])) := by decide +kernel

/-- The grant brings the key to its grove's slice; the tree fails in both copies, VAULT_META is FATAL, and safe state abandons every
job (Table 14.9), the one that has just entered among them. -/
theorem dispatch_failedTree : (dispatch failedTree 0 0 0).faults.first = srcId 0x15 0 ∧
    (dispatch failedTree 0 0 0).faults.safe = true ∧ (dispatch failedTree 0 0 0).work.jobs = [] := by decide +kernel

/-- Refutes O10: a grant whose job brings a key from the vault can find the vault's tree failed in both channels, which is FATAL;
safe state then stands before the grant is done, and the job that should have entered is gone. -/
theorem not_jobDispatch : ¬Obligations.JobDispatch := by
  unfold Obligations.JobDispatch
  intro h
  obtain ⟨hq, hc, hf, hh⟩ := failedTree_head
  obtain ⟨he, hs, hr, ht⟩ := failedTree_turn
  obtain ⟨-, -, hchain⟩ := h failedTree failedTree 0 0 0 keyInfoSq hq rfl rfl hf
  obtain ⟨-, hgrant⟩ := hchain [keyInfoSe] false hh
  obtain ⟨-, hfound⟩ := hgrant failedTree failedTree _ (.inr ⟨he, hs, hr.symm, ht⟩) failedTree_fragCheck
  obtain ⟨t, hx, -, -, ⟨j, hj, -⟩, -⟩ := hfound keyInfoCq (fun r => nofun) hq hc
  obtain rfl : dispatch failedTree 0 0 0 = t := Host.Outcome.next.inj hx
  simp [dispatch_failedTree] at hj

end Sys2Proof.Machine
end

section
/-! SUPPORT. What every command keeps: the queue of waiting commands, and the canonical form of host memory.  One law for each
operation of the model, in the order of the model's files, then for the commands, and the obligations about the queue and the
machine as a whole. -/

namespace Sys2Proof.Machine

/-! ### The relation -/

/-- From `r` to `s` the same commands wait, and host memory that had its canonical form has it still. -/
structure Kept (r s : State) : Prop where
  pending : s.pending = r.pending
  hostMem : Mem.wf r.hostMem → Mem.wf s.hostMem

/-- The same of an instruction's outcome: a fault or a stall leaves the state it found. -/
def Ev.Kept (r : State) : Ev → Prop
  | .next e => Machine.Kept r e.s
  | .finish e _ => Machine.Kept r e.s
  | .halt _ => True

/-- A command's outcome is a next state, which keeps what `Kept` says. -/
def Answers (s : State) (o : Host.Outcome State Fault Refusal) : Prop := ∃ t, o = .next t ∧ Kept s t

variable {r s t : State}

theorem Kept.refl (s : State) : Kept s s := ⟨rfl, id⟩

theorem Kept.trans (h : Kept r s) (k : Kept s t) : Kept r t := ⟨k.1.trans h.1, fun w => k.2 (h.2 w)⟩

/-- Fields beside the queue and host memory do not count. -/
theorem kept_mk
    {v0 v1 v2 v3 v4 v5 v6 v7 v8 v9 v10 v11 v12 v13 v14 v15 v16
      v17 v18 v19 v20 v21 v22 v23 v24 v25 v26 v27 v28 v29 v30 v31} :
    Kept r { s with
      tick := v0, work := v1, adm := v2, insts := v3, tlb := v4, ports := v5,
      msix := v6, busMaster := v7, writes := v8, store := v9, shelf := v10, grafts := v11,
      hwd := v12, exec := v13, entropy := v14, stw := v15, power := v16, pins := v17,
      tether := v18, groves := v19, engines := v20, masks := v21, faults := v22, recd := v23,
      htime := v24, life := v25, vault := v26, flashSize := v27, stopped := v28, pllGap := v29,
      hostDeaf := v30, freeCtr := v31 } ↔ Kept r s :=
  ⟨fun h => ⟨h.1, h.2⟩, fun h => ⟨h.1, h.2⟩⟩

theorem kept_mem (h : Kept r s) (hp : t.pending = s.pending) (hm : Mem.wf s.hostMem → Mem.wf t.hostMem) : Kept r t :=
  ⟨hp.trans h.1, fun w => hm (h.2 w)⟩

theorem kept_scatter {ps : List (Nat × Nat)} {b : Bytes} (h : Kept r s) :
    Kept r { s with hostMem := scatterBytes s.hostMem ps b } := kept_mem h rfl (scatterBytes_wf _ _ _)

theorem kept_writeBytes {a : Nat} {b : Bytes} (h : Kept r s) :
    Kept r { s with hostMem := Mem.writeBytes s.hostMem a b } := kept_mem h rfl (Mem.writeBytes_wf _ _ _)

theorem kept_ite {c : Prop} [Decidable c] (hs : Kept r s) (ht : Kept r t) : Kept r (if c then s else t) := by
  split <;> assumption

/-- The state of a pair that a `match` has taken apart. -/
theorem kept_fst {α : Type} {a : α} {p : State × α} (he : p = (t, a)) (h : Kept r p.1) : Kept r t := by
  subst he
  exact h

/-- A run of changes, each of which keeps what counts. -/
theorem foldl_kept {α : Type} {f : State → α → State} {l : List α} (hf : ∀ {s a}, Kept r s → Kept r (f s a))
    (h : Kept r s) : Kept r (l.foldl f s) := List.foldlRecOn l f h fun _ ht _ _ => hf ht

/-- Signing an attestation uses up free values. -/
theorem attestSign_fst (s : State) (c b : Bytes) : (attestSign s c b).1 = (takeFree s 64).2 := by
  unfold attestSign
  rfl

/-! ### Ops -/

theorem sendAs_kept {src dst kind : Nat} {body : Bytes} (h : Kept r s) : Kept r (sendAs s src dst kind body) := kept_mk.2 h

theorem sendMsg_kept {dst kind : Nat} {body : Bytes} (h : Kept r s) : Kept r (sendMsg s dst kind body) := kept_mk.2 h

theorem sendClear_kept {src dst : Nat} {body : Bytes} (h : Kept r s) : Kept r (sendClear s src dst body) := kept_mk.2 h

theorem takeFree_kept {n : Nat} (h : Kept r s) : Kept r (takeFree s n).2 := kept_mk.2 h

theorem takeFreeBool_kept (h : Kept r s) : Kept r (takeFreeBool s).2 := kept_mk.2 h

theorem takeFreeNat_kept (h : Kept r s) : Kept r (takeFreeNat s).2 := kept_mk.2 h

theorem State.updPort_kept {p : Nat} {f : Port → Port} (h : Kept r s) : Kept r (State.updPort s p f) := kept_mk.2 h

theorem State.updInst_kept {i : Nat} {f : Inst → Inst} (h : Kept r s) : Kept r (State.updInst s i f) := kept_mk.2 h

theorem State.updSq_kept {i q : Nat} {f : Sq → Sq} (h : Kept r s) : Kept r (State.updSq s i q f) := kept_mk.2 h

theorem State.updCq_kept {i q : Nat} {f : Cq → Cq} (h : Kept r s) : Kept r (State.updCq s i q f) := kept_mk.2 h

theorem State.updJob_kept {j : Nat} {f : Job → Job} (h : Kept r s) : Kept r (State.updJob s j f) := kept_mk.2 h

theorem State.updRun_kept {j : Nat} {f : Run → Run} (h : Kept r s) : Kept r (State.updRun s j f) := kept_mk.2 h

theorem storeBackup_kept {x1 : Rec} (h : Kept r s) : Kept r (storeBackup s x1) := by
  unfold storeBackup
  repeat' split
  all_goals grind [kept_mk]

theorem storeRec_kept {x1 : Rec} (h : Kept r s) : Kept r (storeRec s x1) := kept_mk.2 h

theorem emitRec_kept {code sev unit p0 p1 p2 : Nat} {inj : Bool} (h : Kept r s) :
    Kept r (emitRec s code sev unit p0 p1 p2 inj) := by
  unfold emitRec
  repeat' split
  all_goals grind [kept_mk, storeRec_kept, storeBackup_kept]

theorem emit_kept {code p0 p1 p2 : Nat} (h : Kept r s) : Kept r (emit s code p0 p1 p2) := emitRec_kept h

theorem flushRecorder_kept (h : Kept r s) : Kept r (flushRecorder s) := kept_mk.2 h

theorem readEvent_kept {inst k : Nat} (h : Kept r s) : Kept r (readEvent s inst k) := kept_mk.2 h

theorem translate_kept {inst iova : Nat} {write : Bool} (h : Kept r s) : Kept r (translate s inst iova write).1 := by
  unfold translate
  repeat' split
  all_goals grind [kept_mk, readEvent_kept]

theorem datuFault_kept {inst iova level cause access : Nat} (h : Kept r s) :
    Kept r (datuFault s inst iova level cause access) :=
  emit_kept (State.updPort_kept h)

theorem transPieces_kept {inst : Nat} {write : Bool} {x3 : List (Nat × Nat)} (h : Kept r s) :
    Kept r (transPieces s inst write x3).1 := by
  induction x3 generalizing s with
  | nil => exact h
  | cons p ps ih =>
    unfold transPieces
    repeat' split
    all_goals grind [translate_kept]

theorem transRange_kept {inst iova len : Nat} {write : Bool} {access : Nat} {speculative : Bool} (h : Kept r s) :
    Kept r (transRange s inst iova len write access speculative).1 := by
  unfold transRange
  repeat' split
  all_goals grind [kept_mk, datuFault_kept, readEvent_kept, transPieces_kept]

theorem hostRead_kept {inst iova len access : Nat} {speculative : Bool} (h : Kept r s) :
    Kept r (hostRead s inst iova len access speculative).1 := by
  unfold hostRead
  repeat' split
  all_goals grind [kept_mk, transRange_kept]

theorem dirtyLost_kept {inst a : Nat} (h : Kept r s) : Kept r (dirtyLost s inst a) := emit_kept (State.updInst_kept h)

theorem dirtyPage_kept {inst page : Nat} (h : Kept r s) : Kept r (dirtyPage s inst page) := by
  unfold dirtyPage
  repeat' split
  all_goals grind [kept_mk, State.updInst_kept, hostRead_kept, transRange_kept, dirtyLost_kept, kept_scatter]

theorem dirtyMark_kept {inst iova len : Nat} (h : Kept r s) : Kept r (dirtyMark s inst iova len) :=
  foldl_kept dirtyPage_kept h

theorem issueWrite_kept {inst iova : Nat} {ps : List (Nat × Nat)} {bs : Bytes} (h : Kept r s) :
    Kept r (issueWrite s inst iova ps bs) := by
  unfold issueWrite
  refine dirtyMark_kept ?_
  dsimp only
  split
  · exact kept_mk.2 (kept_scatter h)
  · exact kept_scatter h

theorem hostWrite_kept {inst iova : Nat} {bs : Bytes} {access : Nat} (h : Kept r s) :
    Kept r (hostWrite s inst iova bs access).1 := by
  unfold hostWrite
  repeat' split
  all_goals grind [kept_mk, transRange_kept, issueWrite_kept]

theorem State.putMsix_kept {m : Msix} (h : Kept r s) : Kept r (State.putMsix s m) := kept_mk.2 h

theorem sendFn_kept {fn v : Nat} (h : Kept r s) : Kept r (sendFn s fn v) := by
  unfold sendFn
  dsimp only
  split
  · exact h
  split
  · exact State.putMsix_kept h
  split
  · exact h
  · exact kept_writeBytes (kept_mk.2 h)

theorem sendVector_kept {inst v : Nat} (h : Kept r s) : Kept r (sendVector s inst v) := sendFn_kept h

/-! ### Operands -/

theorem readSide_kept {inst addr len frags : Nat} {speculative : Bool} (h : Kept r s) :
    Kept r (readSide s inst addr len frags speculative).1 := by
  unfold readSide
  repeat' split
  all_goals grind [kept_mk, hostRead_kept]

theorem gatherInput_kept {inst : Nat} {speculative : Bool} {x3 : List Frag} (h : Kept r s) :
    Kept r (gatherInput s inst speculative x3).1 := by
  induction x3 generalizing s with
  | nil => exact h
  | cons f fs ih =>
    unfold gatherInput
    repeat' split
    all_goals grind [hostRead_kept]

theorem transFrags_kept {inst : Nat} {x2 : List Frag} (h : Kept r s) : Kept r (transFrags s inst x2).1 := by
  induction x2 generalizing s with
  | nil => exact h
  | cons f fs ih =>
    unfold transFrags
    repeat' split
    all_goals grind [transRange_kept]

theorem writeFrags_kept {inst : Nat} {x2 : List (Nat × List (Nat × Nat))} {x3 : Bytes} (h : Kept r s) :
    Kept r (writeFrags s inst x2 x3) := by
  induction x2 generalizing s x3 with
  | nil => exact h
  | cons f fs ih =>
    unfold writeFrags
    repeat' split
    all_goals grind [issueWrite_kept]

/-! ### Health -/

theorem State.mapHealth_kept {p : Health → Bool} {f : Health → Health} (h : Kept r s) : Kept r (State.mapHealth s p f) :=
  kept_mk.2 h

theorem State.setHealth_kept {u : Nat} {st : UnitState} {info : Nat} (h : Kept r s) :
    Kept r (State.setHealth s u st info) :=
  kept_mk.2 h

theorem State.setUnit_kept {u : Nat} {st : UnitState} (h : Kept r s) : Kept r (State.setUnit s u st) := kept_mk.2 h

/-! ### Snapshot -/

theorem takeSnapshot_kept {triggers source : Nat} (h : Kept r s) : Kept r (takeSnapshot s triggers source) :=
  emit_kept (kept_mk.2 h)

theorem snapTrigger_kept {b : Nat} (h : Kept r s) : Kept r (snapTrigger s b) := by
  unfold snapTrigger
  split
  · exact kept_mk.2 h
  · exact h

theorem snapBoundary_kept (h : Kept r s) : Kept r (snapBoundary s) := by
  unfold snapBoundary
  grind [kept_mk, takeSnapshot_kept]

/-! ### Faults -/

theorem dropMxu_kept {p : MxuCmd → Bool} (h : Kept r s) : Kept r (dropMxu s p) := kept_mk.2 h

theorem abandonIn_kept {j t : Nat} (h : Kept r s) : Kept r (abandonIn s j t) := by
  unfold abandonIn
  grind [kept_mk, State.updJob_kept, State.updRun_kept, dropMxu_kept]

theorem abandonSlice_kept {j : Nat} (h : Kept r s) : Kept r (abandonSlice s j) := abandonIn_kept h

theorem abandonParts_kept {e t : Nat} (h : Kept r s) : Kept r (abandonParts s e t) := kept_mk.2 h

theorem dropExec_kept {j : Nat} (h : Kept r s) : Kept r (dropExec s j) := kept_mk.2 (dropMxu_kept h)

theorem failJob_kept {j status detail t : Nat} (h : Kept r s) : Kept r (failJob s j status detail t) := by
  unfold failJob
  repeat' split
  all_goals grind [kept_mk, State.updJob_kept, dropMxu_kept]

theorem sendFence_kept {src : Nat} (h : Kept r s) : Kept r (sendFence s src) := foldl_kept sendMsg_kept h

theorem stopCore_kept {src : Nat} (h : Kept r s) : Kept r (stopCore s src) := sendFence_kept (kept_mk.2 h)

theorem safeCore_kept {src : Nat} {self inj : Bool} (h : Kept r s) : Kept r (safeCore s src self inj) := by
  unfold safeCore
  split
  · exact h
  · exact takeSnapshot_kept (kept_mk.2 (flushRecorder_kept (emitRec_kept (stopCore_kept (kept_mk.2 h)))))

theorem raiseCore_kept {src unit p2 : Nat} {inj : Bool} (h : Kept r s) : Kept r (raiseCore s src unit p2 inj) := by
  unfold raiseCore
  grind [kept_mk, flushRecorder_kept, snapTrigger_kept, emitRec_kept]

theorem raise_kept {src unit p2 : Nat} {inj : Bool} (h : Kept r s) : Kept r (raise s src unit p2 inj) := by
  unfold raise
  grind [kept_mk, safeCore_kept, raiseCore_kept]

theorem raiseSrc_kept {group index p2 : Nat} (h : Kept r s) : Kept r (raiseSrc s group index p2) := raise_kept h

theorem raiseAs_kept {group index : Nat} {inj : Bool} (h : Kept r s) : Kept r (raiseAs s group index inj) := raise_kept h

theorem refreshGrove_kept {g : Nat} (h : Kept r s) : Kept r (refreshGrove s g) := kept_mk.2 h

theorem refreshMxus_kept (h : Kept r s) : Kept r (refreshMxus s) := kept_mk.2 h

theorem endGroveJobs_kept {g t : Nat} (h : Kept r s) : Kept r (endGroveJobs s g t) := foldl_kept failJob_kept h

theorem rehome_kept {g j : Nat} (h : Kept r s) : Kept r (rehome s g j) := kept_mk.2 h

theorem failEngine_kept {e t : Nat} (h : Kept r s) : Kept r (failEngine s e t) := by
  unfold failEngine
  extract_lets g pos s1 spare there hit s2 sh w s3 s4
  have h2 : Kept r s2 := foldl_kept (fun hs => State.updJob_kept (abandonIn_kept hs)) (abandonParts_kept (State.setUnit_kept
    h))
  have h3 : Kept r s3 := kept_ite (kept_mk.2 (State.setHealth_kept h2)) (foldl_kept rehome_kept h2)
  have h4 : Kept r s4 := refreshGrove_kept h3
  exact kept_ite (endGroveJobs_kept (raise_kept h4)) h4

theorem mxuNone_kept {t : Nat} (h : Kept r s) : Kept r (mxuNone s t) := by
  unfold mxuNone
  split
  · exact h
  · exact foldl_kept failJob_kept (raise_kept h)

theorem failGrove_kept {g t : Nat} (h : Kept r s) : Kept r (failGrove s g t) := by
  unfold failGrove
  extract_lets s1 s2 last s3 s4
  have h4 : Kept r s4 := endGroveJobs_kept (refreshMxus_kept (refreshGrove_kept (State.setUnit_kept
    (foldl_kept State.setUnit_kept (State.setUnit_kept h)))))
  split
  · exact mxuNone_kept h4
  · exact h4

theorem withdraw_kept {src unit t : Nat} (h : Kept r s) : Kept r (withdraw s src unit t) := by
  unfold withdraw
  repeat' split
  all_goals grind [kept_mk, mxuNone_kept, failEngine_kept, State.setHealth_kept, failGrove_kept, refreshMxus_kept,
    State.setUnit_kept]

theorem applyRaises_kept (h : Kept r s) : Kept r (applyRaises s) := foldl_kept withdraw_kept (kept_mk.2 h)

theorem applyUpdates_kept (h : Kept r s) : Kept r (applyUpdates s) :=
  foldl_kept (fun hs => kept_ite hs (State.setHealth_kept hs)) (kept_mk.2 h)

theorem State.updateUnit_kept {u : Nat} {st : UnitState} {info : Nat} (h : Kept r s) :
    Kept r (State.updateUnit s u st info) :=
  kept_mk.2 h

theorem reseed_kept {g : Nat} (h : Kept r s) : Kept r (reseed s g) := by
  unfold reseed
  grind [kept_mk, State.updateUnit_kept]

theorem takeBlock_kept {g : Nat} (h : Kept r s) : ∀ z, takeBlock s g = some z → Kept r z := by
  unfold takeBlock
  repeat' split
  all_goals grind [kept_mk, reseed_kept]

theorem serveRequests_kept {x0 : Nat} {x1 : State} (h : Kept r x1) : Kept r (serveRequests x0 x1) := by
  induction x0 generalizing x1 with
  | zero => exact h
  | succ n ih =>
    unfold serveRequests
    repeat' split
    · exact h
    · exact ih (kept_mk.2 (takeBlock_kept h _ ‹_›))
    · exact h

theorem askBlock_kept {g : Nat} {job : Option Nat} (h : Kept r s) : Kept r (askBlock s g job) := kept_mk.2 h

theorem publishHealth_kept {before : List Health} (h : Kept r s) : Kept r (publishHealth s before) := kept_mk.2 h

/-! ### Rings -/

theorem specInc_kept {k n : Nat} (h : Kept r s) : Kept r (specInc s k n) := kept_mk.2 h

theorem noteDropped_kept (ht : Kept r t) : Kept r (noteDropped s t) := by
  unfold noteDropped
  split
  · exact ht
  · exact specInc_kept ht

theorem queueError_kept {inst q reason index : Nat} (h : Kept r s) : Kept r (queueError s inst q reason index) := by
  unfold queueError
  repeat' split
  all_goals grind [kept_mk, emit_kept, State.updSq_kept, noteDropped_kept, State.updCq_kept]

theorem cqFail_kept {inst c reason index : Nat} (h : Kept r s) : Kept r (cqFail s inst c reason index) :=
  kept_mk.2 (State.updCq_kept h)

theorem ringSq_kept {inst q v : Nat} (h : Kept r s) : Kept r (ringSq s inst q v) := by
  unfold ringSq
  grind [kept_mk, State.updSq_kept, noteDropped_kept]

theorem ringCq_kept {inst q v : Nat} (h : Kept r s) : Kept r (ringCq s inst q v) := by
  unfold ringCq
  repeat' split
  all_goals grind [kept_mk, cqFail_kept, State.updCq_kept]

theorem doorbellWrite_kept {face off width value : Nat} (h : Kept r s) : Kept r (doorbellWrite s face off width value) := by
  unfold doorbellWrite
  repeat' split
  all_goals grind [kept_mk, ringCq_kept, emit_kept, ringSq_kept]

theorem perfInc_kept {k n : Nat} (h : Kept r s) : Kept r (perfInc s k n) := kept_mk.2 h

theorem seFetch_kept {inst q p : Nat} (h : Kept r s) : Kept r (seFetch s inst q p) := by
  unfold seFetch
  repeat' split
  all_goals grind [kept_mk, hostRead_kept, specInc_kept, State.updSq_kept]

theorem entryAt_kept {q : Sq} {p : Nat} (h : Kept r s) : Kept r (entryAt s q p).1 := by
  unfold entryAt
  repeat' split
  all_goals grind [kept_mk, hostRead_kept]

theorem readChain_kept {q : Sq} {extra : List Nat} {acc : List Bytes} {pre : Bool} {x5 x6 x7 : Nat} (h : Kept r s) :
    Kept r (readChain s q extra acc pre x5 x6 x7).1 := by
  induction x5 generalizing s acc pre x6 x7 with
  | zero => exact h
  | succ fuel ih =>
    cases x7 with
    | zero => exact h
    | succ left =>
      unfold readChain
      dsimp only
      split
      · exact kept_fst ‹_› (entryAt_kept h)
      · have hk := kept_fst ‹_› (entryAt_kept h)
        split
        · exact hk
        split
        · exact hk
        · exact ih hk

theorem readHead_kept {q : Sq} (h : Kept r s) : Kept r (readHead s q).1 := readChain_kept h

theorem markSlots_kept {inst q base n : Nat} {x5 : List Nat} (h : Kept r s) : Kept r (markSlots s inst q base n x5) := by
  induction x5 generalizing s with
  | nil => exact h
  | cons p ps ih =>
    unfold markSlots
    split
    · exact ih (kept_fst ‹_› (hostWrite_kept h))
    · exact queueError_kept (kept_fst ‹_› (hostWrite_kept h))

theorem writeCe_kept {c : Cq} {ce : HeldCe} (h : Kept r s) : Kept r (writeCe s c ce).1 := by
  unfold writeCe
  repeat' split
  all_goals grind [kept_mk, hostWrite_kept]

theorem holdCe_kept {inst c : Nat} {ce : HeldCe} (h : Kept r s) : Kept r (holdCe s inst c ce) := kept_mk.2 h

theorem cqInterrupt_kept {inst q : Nat} (h : Kept r s) : Kept r (cqInterrupt s inst q) := by
  unfold cqInterrupt
  repeat' split
  all_goals grind [kept_mk, sendVector_kept, State.updCq_kept]

theorem adminInterrupt_kept {p : Nat} (h : Kept r s) : Kept r (adminInterrupt s p) := by
  unfold adminInterrupt
  grind [kept_mk, sendVector_kept, State.updPort_kept]

theorem execCqInterrupt_kept {inst q : Nat} : Answers s (execCqInterrupt inst q s) := by
  refine ⟨_, rfl, ?_⟩
  repeat' split
  all_goals grind [kept_mk, Kept.refl, adminInterrupt_kept, cqInterrupt_kept]

theorem execCqStarved_kept {inst q : Nat} : Answers s (execCqStarved inst q s) := by
  refine ⟨_, rfl, ?_⟩
  repeat' split
  all_goals grind [kept_mk, Kept.refl, emit_kept, State.updSq_kept]

/-! ### Keys -/

theorem dropKey_kept {idx : Nat} (h : Kept r s) : Kept r (dropKey s idx) := by
  unfold dropKey
  repeat' split
  all_goals grind [kept_mk]

theorem destroyKey_kept {idx : Nat} (h : Kept r s) : Kept r (destroyKey s idx) := by
  unfold destroyKey
  grind [kept_mk, dropKey_kept]

theorem dropCtx_kept {x1 : Nat} (h : Kept r s) : Kept r (dropCtx s x1) := by
  unfold dropCtx
  repeat' split
  all_goals grind [kept_mk]

theorem dropStream_kept {idx : Nat} (h : Kept r s) : Kept r (dropStream s idx) := by
  unfold dropStream
  repeat' split
  all_goals grind [kept_mk]

theorem State.updCtx_kept {x1 : Nat} {f : Ctx → Ctx} (h : Kept r s) : Kept r (State.updCtx s x1 f) := kept_mk.2 h

theorem State.updKey_kept {idx : Nat} {f : KeyObj → KeyObj} (h : Kept r s) : Kept r (State.updKey s idx f) := kept_mk.2 h

theorem applyEffect_kept {x1 : Effect} (h : Kept r s) : Kept r (applyEffect s x1) := by
  unfold applyEffect
  repeat' split
  all_goals grind [kept_mk, dropCtx_kept, destroyKey_kept, dropStream_kept, State.updKey_kept, State.updCtx_kept]

theorem applyEffects_kept {es : List Effect} (h : Kept r s) : Kept r (applyEffects s es) := foldl_kept applyEffect_kept h

/-! ### Vault -/

theorem vaultReport_kept (h : Kept r s) : Kept r (vaultReport s) := by
  unfold vaultReport
  repeat' split
  all_goals grind [kept_mk, raiseSrc_kept]

theorem vaultLoad_kept {tag : VaultTag} (h : Kept r s) : Kept r (vaultLoad s tag).1 := by
  unfold vaultLoad
  repeat' split
  all_goals grind [kept_mk, vaultReport_kept]

theorem quarantine_kept {tag : VaultTag} (h : Kept r s) : Kept r (quarantine s tag) := by
  unfold quarantine
  repeat' split
  all_goals grind [kept_mk, raiseSrc_kept, State.updKey_kept, State.updCtx_kept]

theorem cacheCtx_kept {tag : VaultTag} (h : Kept r s) : Kept r (cacheCtx s tag) := kept_mk.2 h

theorem loadCtx_kept {tag : VaultTag} (h : Kept r s) : Kept r (loadCtx s tag) := by
  unfold loadCtx
  repeat' split
  all_goals grind [kept_mk, vaultLoad_kept, cacheCtx_kept, quarantine_kept]

theorem syncVault_kept (h : Kept r s) : Kept r (syncVault s) := by
  unfold syncVault
  split
  · exact h
  · exact vaultReport_kept (foldl_kept cacheCtx_kept (kept_mk.2 h))

/-! ### Jobs -/

theorem newRounds_kept {inst : Nat} (h : Kept r s) : Kept r (newRounds s inst) := by
  unfold newRounds
  grind [kept_mk]

theorem closeRounds_kept (h : Kept r s) : Kept r (closeRounds s) := kept_mk.2 (kept_ite h (kept_mk.2 h))

theorem cacheKey_kept {g i : Nat} (h : Kept r s) : Kept r (cacheKey s g i) := kept_mk.2 h

theorem cacheFill_kept {g i : Nat} (h : Kept r s) : Kept r (cacheFill s g i) := by
  unfold cacheFill
  repeat' split
  all_goals grind [kept_mk, vaultLoad_kept, cacheKey_kept, quarantine_kept]

theorem fetchMaterial_kept {j : Job} (h : Kept r s) : Kept r (fetchMaterial s j) := by
  unfold fetchMaterial
  split
  · exact h
  · exact foldl_kept cacheFill_kept h

theorem fetchKeys_kept {j : Job} (h : Kept r s) : Kept r (fetchKeys s j) := by
  unfold fetchKeys
  split
  · exact h
  · exact foldl_kept loadCtx_kept (fetchMaterial_kept h)

theorem planSlice_kept {j : Job} {e startCy : Nat} {confirmed : Bool} (h : Kept r s) :
    Kept r (planSlice s j e startCy confirmed) :=
  kept_mk.2 h

theorem bindPending_kept {new : Job} (h : Kept r s) : Kept r (bindPending s new) := by
  unfold bindPending
  refine foldl_kept (fun hs => ?_) h
  dsimp only
  repeat' split
  all_goals exact State.updJob_kept hs

theorem askContext_kept {j : Job} (h : Kept r s) : Kept r (askContext s j) := by
  unfold askContext
  repeat' split
  all_goals grind [kept_mk, sendMsg_kept]

theorem admitJob_kept {j0 : Job} {sprintClass short : Bool} {cy : Nat} (h : Kept r s) :
    Kept r (admitJob s j0 sprintClass short cy) := by
  unfold admitJob
  extract_lets t f dep j1 j2 g away j3 s1 w st s2 s3
  have h1 : Kept r s1 := by
    unfold s1
    split
    · exact State.updInst_kept h
    · exact h
  have h3 : Kept r s3 := fetchKeys_kept (askContext_kept (bindPending_kept (kept_mk.2 h1)))
  split
  · split
    · exact planSlice_kept (State.updJob_kept h3)
    · exact h3
  · exact h3

theorem grant_kept {q : Sq} {ses : List Bytes} {pre : Bool} {sides : Option (Option (List Frag) × Option (List Frag))}
    {sprintClass : Bool} {cy : Nat} (h : Kept r s) :
    Kept r (grant s q ses pre sides sprintClass cy) := by
  unfold grant
  extract_lets n ps c j si w s1 s2 s3 w3 s4 s5 s6
  have h1 : Kept r s1 := by
    unfold s1
    split
    · exact perfInc_kept (kept_mk.2 (State.updInst_kept h))
    · exact State.updInst_kept h
  have h4 : Kept r s4 := kept_mk.2 (State.updCq_kept (State.updSq_kept h1))
  have h5 : Kept r s5 := by
    unfold s5
    split
    · exact specInc_kept h4
    · exact h4
  have h6 : Kept r s6 := admitJob_kept h5
  split
  · exact markSlots_kept h6
  · exact h6

theorem sideCheck_kept {inst addr len frags : Nat} {spec : Bool} (h : Kept r s) :
    Kept r (sideCheck s inst addr len frags spec).1 := by
  unfold sideCheck
  repeat' split
  all_goals grind [kept_mk, specInc_kept, readSide_kept]

theorem fragCheck_kept {j : Job} (h : Kept r s) : Kept r (fragCheck s j).1 := by
  unfold fragCheck
  grind [kept_mk, sideCheck_kept]

theorem dispatch_kept {inst q cy : Nat} (h : Kept r s) : Kept r (dispatch s inst q cy) := by
  unfold dispatch
  repeat' split
  all_goals grind [kept_mk, readHead_kept, newRounds_kept, queueError_kept, fragCheck_kept, grant_kept]

/-! ### MxuCore -/

theorem State.setMxus_kept {l : List MxuCmd} (h : Kept r s) : Kept r (State.setMxus s l) := kept_mk.2 h

theorem State.updMxu_kept {j : Nat} {f : MxuCmd → MxuCmd} (h : Kept r s) : Kept r (State.updMxu s j f) := kept_mk.2 h

theorem startStage_kept {m : Nat} (h : Kept r s) : Kept r (startStage s m) := by
  unfold startStage
  repeat' split
  all_goals grind [kept_mk, State.setMxus_kept]

theorem fillContexts_kept {m : Nat} (h : Kept r s) : Kept r (fillContexts s m) := by
  refine foldl_kept (fun hs => ?_) h
  dsimp only
  split
  · exact hs
  · exact State.updMxu_kept hs

theorem mxuChoose_kept {m : Nat} (h : Kept r s) : Kept r (mxuChoose s m) := by
  unfold mxuChoose
  grind [kept_mk, State.setMxus_kept, State.updMxu_kept]

theorem mxuStart_kept {m : Nat} (h : Kept r s) : Kept r (mxuStart s m) := kept_ite h (mxuChoose_kept h)

theorem showMxu_kept {j : Nat} (h : Kept r s) : Kept r (showMxu s j) := kept_mk.2 h

theorem leaveMxu_kept {j : Nat} (h : Kept r s) : Kept r (leaveMxu s j) := by
  unfold leaveMxu
  repeat' split
  all_goals grind [kept_mk, fillContexts_kept, mxuStart_kept, startStage_kept, dropMxu_kept]

/-! ### JobRun -/

theorem announceKeys_kept {es : List Effect} (h : Kept r s) : Kept r (announceKeys s es) := by
  unfold announceKeys
  split
  · exact h
  refine foldl_kept (fun hs => ?_) h
  split
  · split
    · exact foldl_kept sendMsg_kept hs
    · exact hs
  · exact hs

theorem outputFrags_kept {x : Job} (h : Kept r s) : Kept r (outputFrags s x).1 := by
  unfold outputFrags
  repeat' split
  all_goals grind [kept_mk, readSide_kept]

theorem commitNow_kept {j : Nat} (h : Kept r s) : Kept r (commitNow s j) := by
  unfold commitNow
  repeat' split
  all_goals grind [kept_mk, outputFrags_kept, writeFrags_kept, State.updJob_kept, announceKeys_kept, applyEffects_kept,
    transFrags_kept]

theorem finalCommit_kept {j : Nat} {x2 : JobResult} (h : Kept r s) : Kept r (finalCommit s j x2) := by
  unfold finalCommit
  grind [kept_mk, State.updJob_kept, commitNow_kept, leaveMxu_kept]

theorem glitchAlarm_kept {inst kind unit : Nat} (h : Kept r s) : Kept r (glitchAlarm s inst kind unit) :=
  kept_mk.2 (emit_kept (raiseSrc_kept h))

theorem nextSegment_kept {j : Job} (h : Kept r s) : ∀ z, nextSegment s j = some z → Kept r z := by
  unfold nextSegment
  grind [kept_mk]

theorem jobInput_kept {j : Job} (h : Kept r s) : Kept r (jobInput s j).1 := by
  unfold jobInput
  repeat' split
  all_goals grind [kept_mk, State.updJob_kept, readSide_kept, gatherInput_kept]

theorem noInput_kept {j : Job} (ht : Kept r t) : Kept r (noInput s t j) := by
  unfold noInput
  split
  · exact finalCommit_kept ht
  · exact specInc_kept ht

theorem strikeVault_kept {j : Job} {u : Upset} (h : Kept r s) : Kept r (strikeVault s j u).1 := by
  unfold strikeVault
  repeat' split
  all_goals grind [kept_mk, quarantine_kept, raiseSrc_kept]

theorem runPart_kept {j : Nat} {u : Upset} {sel draws : Job → Bool} {f : State → Job → Bytes → State × Option JobResult} (h :
    Kept r s) (hf : ∀ {s x b}, Kept r s → Kept r (f s x b).1) :
    Kept r (runPart s j u sel draws f) := by
  unfold runPart
  repeat' split
  all_goals grind [kept_mk, finalCommit_kept, strikeVault_kept, noInput_kept, jobInput_kept]

theorem runJob_kept {j : Nat} {u : Upset} {sel draws : Job → Bool} {f : State → Job → Bytes → State × JobResult} (h : Kept r
    s) (hf : ∀ {s x b}, Kept r s → Kept r (f s x b).1) :
    Kept r (runJob s j u sel draws f) := by
  unfold runJob
  grind [kept_mk, runPart_kept]

theorem decided_kept {j : Job} {u : Upset} {x3 : JobResult} (h : Kept r s) : Kept r (decided s j u x3).1 := by
  unfold decided
  repeat' split
  all_goals grind [kept_mk, glitchAlarm_kept]

theorem prepare_kept {j : Job} {rnd : Bytes} (h : Kept r s) : Kept r (prepare s j rnd) := by
  unfold prepare
  dsimp only
  split
  · exact State.updJob_kept (nextSegment_kept (State.updJob_kept h) _ ‹_›)
  · exact State.updJob_kept h

theorem endTry_kept {x : Job} {k : Nat} {ok : Bool} (h : Kept r s) : Kept r (endTry s x k ok) := by
  unfold endTry
  extract_lets s1
  have h1 : Kept r s1 := State.updJob_kept h
  repeat' split
  · exact h1
  · exact finalCommit_kept h1
  · exact State.updJob_kept (nextSegment_kept h1 _ ‹_›)
  · exact h1
  · exact h1

theorem tryRow_kept {j op : Nat} {accept : State → Job → Nat → Bool} {rest : State} (h : Kept r s) (hrest : Kept r rest) :
    Kept r (tryRow s j op accept rest) := by
  unfold tryRow
  repeat' split
  · exact hrest
  · exact finalCommit_kept h
  · exact endTry_kept h
  · exact hrest

theorem pctFail_kept {j : Job} (h : Kept r s) : Kept r (pctFail s j).1 := emit_kept h

/-! ### Release -/

theorem reapKeys_kept (h : Kept r s) : Kept r (reapKeys s) := foldl_kept dropKey_kept h

theorem zeroiseEnvelope_kept {j : Job} {n : Nat} (h : Kept r s) : Kept r (zeroiseEnvelope s j n) := by
  unfold zeroiseEnvelope
  repeat' split
  all_goals grind [kept_mk]

theorem cancelSend_kept {j : Job} {disposition : Nat} (h : Kept r s) : Kept r (cancelSend s j disposition) := by
  unfold cancelSend
  repeat' split
  all_goals grind [kept_mk, sendMsg_kept]

theorem endUnconfirmed_kept {j : Job} {status detail n : Nat} (h : Kept r s) :
    Kept r (endUnconfirmed s j status detail n) := by
  unfold endUnconfirmed
  repeat' split
  all_goals grind [kept_mk, specInc_kept, State.updJob_kept, zeroiseEnvelope_kept, cancelSend_kept]

theorem decideDependant_kept {j : Job} {status : Nat} (h : Kept r s) : Kept r (decideDependant s j status) := by
  unfold decideDependant
  repeat' split
  all_goals grind [kept_mk, specInc_kept, State.updJob_kept, commitNow_kept, endUnconfirmed_kept, cancelSend_kept]

theorem countCe_kept {j : Job} (h : Kept r s) : Kept r (countCe s j) := by
  unfold countCe
  repeat' split
  all_goals grind [kept_mk, perfInc_kept]

theorem afterCe_kept {id : Nat} (h : Kept r s) : Kept r (afterCe s id) := by
  unfold afterCe
  split
  · exact h
  · exact foldl_kept decideDependant_kept (countCe_kept (kept_mk.2 h))

theorem postOne_kept {inst c : Nat} {ce : HeldCe} (h : Kept r s) : Kept r (postOne s inst c ce) := by
  unfold postOne
  repeat' split
  all_goals grind [kept_mk, writeCe_kept, afterCe_kept, holdCe_kept, cqFail_kept, State.updCq_kept]

theorem releaseHeld_kept {inst c : Nat} {bound : Option Nat} (h : Kept r s) : Kept r (releaseHeld s inst c bound) := by
  unfold releaseHeld
  split
  · exact h
  split
  · exact h
  · exact foldl_kept postOne_kept (State.updCq_kept h)

theorem postCe_kept {inst c : Nat} {ce : HeldCe} (h : Kept r s) : Kept r (postCe s inst c ce) :=
  postOne_kept (releaseHeld_kept h)

theorem postJob_kept {id : Nat} (h : Kept r s) : Kept r (postJob s id) := by
  unfold postJob
  extract_lets s1
  have h1 : Kept r s1 := by
    unfold s1
    repeat' split
    · exact commitNow_kept h
    · exact h
    · exact h
  split
  · exact h1
  · exact postCe_kept (reapKeys_kept (dropExec_kept (kept_mk.2 (State.updCq_kept h1))))

theorem postDue_kept {x0 : Nat} {x1 : State} (h : Kept r x1) : Kept r (postDue x0 x1) := by
  induction x0 generalizing x1 with
  | zero => exact h
  | succ k ih =>
    unfold postDue
    split
    · exact h
    · exact ih (postJob_kept h)

theorem resumeOne_kept {id : Nat} (h : Kept r s) : Kept r (resumeOne s id) := by
  unfold resumeOne
  repeat' split
  all_goals grind [kept_mk, State.updJob_kept]

theorem resumeWaiters_kept (h : Kept r s) : Kept r (resumeWaiters s) := foldl_kept resumeOne_kept h

theorem execJobRelease_kept {j : Nat} : Answers s (execJobRelease j s) := by
  refine ⟨_, rfl, ?_⟩
  repeat' split
  all_goals grind [kept_mk, Kept.refl, resumeWaiters_kept, postJob_kept, postDue_kept]

theorem pendingTimeout_kept {x : Job} (h : Kept r s) : Kept r (pendingTimeout s x) := kept_ite (endUnconfirmed_kept h) h

theorem execPendingTimeout_kept {j : Nat} : Answers s (execPendingTimeout j s) := by
  refine ⟨_, rfl, ?_⟩
  repeat' split
  all_goals grind [kept_mk, Kept.refl, pendingTimeout_kept]

/-! ### Sign -/

theorem updCounter_kept {handle : Nat} {f : Counter → Counter} (h : Kept r s) : Kept r (updCounter s handle f) := kept_mk.2 h

theorem takeIndex_kept {j : Job} (h : Kept r s) : Kept r (takeIndex s j) := by
  unfold takeIndex
  repeat' split
  all_goals grind [kept_mk, State.updJob_kept, updCounter_kept, State.updKey_kept]

theorem tearWrites_kept (h : Kept r s) : Kept r (tearWrites s) := by
  refine foldl_kept (fun hs => ?_) h
  dsimp only [takeFreeBool]
  split
  · exact updCounter_kept (by grind [kept_mk])
  · grind [kept_mk]

theorem runSigKeygen_kept {u : Upset} {j : Job} {x3 : Bytes} (h : Kept r s) : Kept r (runSigKeygen u s j x3).1 := by
  unfold runSigKeygen
  repeat' split
  all_goals grind [kept_mk, takeFree_kept, pctFail_kept]

theorem mldsaPrepare_kept {j : Job} (h : Kept r s) : Kept r (mldsaPrepare s j) := by
  unfold mldsaPrepare
  repeat' split
  all_goals grind [kept_mk, takeFree_kept, prepare_kept]

theorem runSigSign_kept {u : Upset} {j : Job} {inp : Bytes} (h : Kept r s) : Kept r (runSigSign u s j inp).1 := by
  unfold runSigSign
  repeat' split
  all_goals grind [kept_mk, mldsaPrepare_kept, State.updJob_kept, takeFree_kept, updCounter_kept, raiseSrc_kept,
    State.updKey_kept]

theorem execSigSign_kept {j : Nat} {u : Upset} : Answers s (execSigSign j u s) := by
  refine ⟨_, rfl, ?_⟩
  grind [kept_mk, Kept.refl, runPart_kept, tryRow_kept, runSigSign_kept]

theorem runSigVerify_kept {u : Upset} {j : Job} {inp : Bytes} (h : Kept r s) : Kept r (runSigVerify u s j inp).1 := by
  unfold runSigVerify
  repeat' split
  all_goals grind [kept_mk, decided_kept]

/-! ### Schedule -/

theorem startSlice_kept {j : Job} (h : Kept r s) : Kept r (startSlice s j) := by
  unfold startSlice
  repeat' split
  all_goals grind [kept_mk, takeIndex_kept, specInc_kept, State.updJob_kept, showMxu_kept, State.updRun_kept]

theorem assignOne_kept {id : Nat} (h : Kept r s) : Kept r (assignOne s id) := by
  unfold assignOne
  repeat' split
  all_goals grind [kept_mk, startSlice_kept, State.updJob_kept, planSlice_kept]

theorem assignPart_kept {id k : Nat} (h : Kept r s) : Kept r (assignPart s id k) := by
  unfold assignPart
  repeat' split
  all_goals grind [kept_mk, State.updJob_kept, planSlice_kept]

theorem assignPiece_kept {p : Piece} (h : Kept r s) : Kept r (assignPiece s p) := by
  unfold assignPiece
  repeat' split
  all_goals grind [kept_mk, assignOne_kept, assignPart_kept]

theorem countHeldBack_kept (h : Kept r s) : Kept r (countHeldBack s) :=
  foldl_kept (fun hs => specInc_kept (State.updJob_kept hs)) h

theorem attemptSelect_kept (h : Kept r s) : Kept r (attemptSelect s) := kept_mk.2 h

theorem countCommits_kept (h : Kept r s) : Kept r (countCommits s) := kept_mk.2 h

theorem assignSlices_kept {late : Nat} (h : Kept r s) : Kept r (assignSlices s late) :=
  foldl_kept assignPiece_kept (countHeldBack_kept (attemptSelect_kept (kept_mk.2 h)))

theorem execSliceOverrun_kept {j : Nat} : Answers s (execSliceOverrun j s) := by
  refine ⟨_, rfl, ?_⟩
  repeat' split
  all_goals grind [kept_mk, Kept.refl, finalCommit_kept, State.updJob_kept, abandonSlice_kept, raiseSrc_kept]

/-! ### Alada -/

theorem enterRun_kept {j : Job} (h : Kept r s) : Kept r (enterRun s j).1 := by
  unfold enterRun
  repeat' split
  all_goals grind [kept_mk, jobInput_kept]

theorem State.putRun_kept {x1 : Run} (h : Kept r s) : Kept r (State.putRun s x1) := kept_mk.2 h

theorem Eng.arch_kept {e : Eng} {f : Arch → Arch} (h : Kept r e.s) : Kept r (Eng.arch e f).s := h

theorem Eng.go_kept {e : Eng} (h : Kept r e.s) : (Eng.go e).Kept r := by
  unfold Eng.go
  grind [kept_mk, Eng.arch_kept, Ev.Kept]

theorem engineFault_kept {j : Job} {x2 : Run} {x3 : Halt} (h : Kept r s) : Kept r (engineFault s j x2 x3) := by
  unfold engineFault
  repeat' split
  all_goals grind [kept_mk, finalCommit_kept, State.updJob_kept, abandonSlice_kept, emit_kept, raiseSrc_kept,
    State.putRun_kept]

theorem settle_kept {j : Job} {x2 : Run} {x3 : Ev} (h : Kept r s) (hv : x3.Kept r) : Kept r (settle s j x2 x3) := by
  unfold settle
  split
  · exact State.putRun_kept hv
  · exact finalCommit_kept (State.putRun_kept hv)
  · exact h
  · exact engineFault_kept h

theorem engineStep_kept {id word : Nat} {f : Eng → Ev} (h : Kept r s) (hf : ∀ {e}, Kept r e.s → (f e).Kept r) :
    Kept r (engineStep s id word f) := by
  unfold engineStep
  repeat' split
  all_goals grind [kept_mk, settle_kept, noInput_kept, enterRun_kept]

theorem onStack_kept {e : Eng} {f : List TWord → Except Halt (List TWord)} (h : Kept r e.s) : (onStack e f).Kept r := by
  unfold onStack
  repeat' split
  all_goals grind [kept_mk, Eng.arch_kept, Eng.go_kept, Ev.Kept]

theorem alu2_kept {e : Eng} {g : Word → Word → Word} (h : Kept r e.s) : (alu2 e g).Kept r := by
  unfold alu2
  grind [kept_mk, onStack_kept, Ev.Kept]

theorem shift_kept {e : Eng} {g : Word → Nat → Word} (h : Kept r e.s) : (shift e g).Kept r := by
  unfold shift
  grind [kept_mk, onStack_kept, Ev.Kept]

theorem dWrite_kept {e : Eng} {a : Nat} {bs : Bytes} {tag : Bool} (h : Kept r e.s) :
    ∀ z, dWrite e a bs tag = .ok z → Kept r z.s := by
  intro z hz
  unfold dWrite at hz
  split at hz
  · cases hz
    exact h
  · dsimp only at hz
    split at hz
    · cases hz
    split at hz
    · cases hz
    · cases hz
      exact h
  · cases hz

theorem fetchN_kept {e : Eng} {n : Nat} (h : Kept r e.s) : (fetchN e n).Kept r := by
  unfold fetchN
  grind [kept_mk, onStack_kept, Ev.Kept]

theorem storeN_kept {e : Eng} {n : Nat} (h : Kept r e.s) : (storeN e n).Kept r := by
  unfold storeN
  repeat' split
  all_goals grind [kept_mk, Eng.arch_kept, dWrite_kept, Eng.go_kept, Ev.Kept]

theorem execAlNop_kept {j : Nat} : Answers s (execAlNop j s) := ⟨_, rfl, engineStep_kept (.refl s) fun h => h⟩

theorem execAlDup_kept {j : Nat} : Answers s (execAlDup j s) := by
  refine ⟨_, rfl, engineStep_kept (.refl s) fun h => ?_⟩
  exact onStack_kept h

theorem execAlDrop_kept {j : Nat} : Answers s (execAlDrop j s) := by
  refine ⟨_, rfl, engineStep_kept (.refl s) fun h => ?_⟩
  exact onStack_kept h

theorem execAlSwap_kept {j : Nat} : Answers s (execAlSwap j s) := by
  refine ⟨_, rfl, engineStep_kept (.refl s) fun h => ?_⟩
  exact onStack_kept h

theorem execAlOver_kept {j : Nat} : Answers s (execAlOver j s) := by
  refine ⟨_, rfl, engineStep_kept (.refl s) fun h => ?_⟩
  exact onStack_kept h

theorem execAlRot_kept {j : Nat} : Answers s (execAlRot j s) := by
  refine ⟨_, rfl, engineStep_kept (.refl s) fun h => ?_⟩
  exact onStack_kept h

theorem execAlTor_kept {j : Nat} : Answers s (execAlTor j s) := by
  refine ⟨_, rfl, engineStep_kept (.refl s) fun h => ?_⟩
  split
  · split
    · trivial
    · exact h
  · trivial

theorem execAlFromr_kept {j : Nat} : Answers s (execAlFromr j s) := by
  refine ⟨_, rfl, engineStep_kept (.refl s) fun h => ?_⟩
  split
  · split
    · trivial
    · exact h
  · trivial

theorem execAlRcopy_kept {j : Nat} : Answers s (execAlRcopy j s) := by
  refine ⟨_, rfl, engineStep_kept (.refl s) fun h => ?_⟩
  split
  · exact onStack_kept h
  · trivial

theorem execAlDepth_kept {j : Nat} : Answers s (execAlDepth j s) := by
  refine ⟨_, rfl, engineStep_kept (.refl s) fun h => ?_⟩
  exact onStack_kept h

theorem execAlAdd_kept {j : Nat} : Answers s (execAlAdd j s) := by
  refine ⟨_, rfl, engineStep_kept (.refl s) fun h => ?_⟩
  exact alu2_kept h

theorem execAlSub_kept {j : Nat} : Answers s (execAlSub j s) := by
  refine ⟨_, rfl, engineStep_kept (.refl s) fun h => ?_⟩
  exact alu2_kept h

theorem execAlAnd_kept {j : Nat} : Answers s (execAlAnd j s) := by
  refine ⟨_, rfl, engineStep_kept (.refl s) fun h => ?_⟩
  exact alu2_kept h

theorem execAlOr_kept {j : Nat} : Answers s (execAlOr j s) := by
  refine ⟨_, rfl, engineStep_kept (.refl s) fun h => ?_⟩
  exact alu2_kept h

theorem execAlXor_kept {j : Nat} : Answers s (execAlXor j s) := by
  refine ⟨_, rfl, engineStep_kept (.refl s) fun h => ?_⟩
  exact alu2_kept h

theorem execAlInv_kept {j : Nat} : Answers s (execAlInv j s) := by
  refine ⟨_, rfl, engineStep_kept (.refl s) fun h => ?_⟩
  exact onStack_kept h

theorem execAlShl_kept {j : Nat} : Answers s (execAlShl j s) := by
  refine ⟨_, rfl, engineStep_kept (.refl s) fun h => ?_⟩
  exact shift_kept h

theorem execAlShr_kept {j : Nat} : Answers s (execAlShr j s) := by
  refine ⟨_, rfl, engineStep_kept (.refl s) fun h => ?_⟩
  exact shift_kept h

theorem execAlSar_kept {j : Nat} : Answers s (execAlSar j s) := by
  refine ⟨_, rfl, engineStep_kept (.refl s) fun h => ?_⟩
  exact shift_kept h

theorem execAlMul_kept {j : Nat} : Answers s (execAlMul j s) := by
  refine ⟨_, rfl, engineStep_kept (.refl s) fun h => ?_⟩
  exact alu2_kept h

theorem execAlMulhu_kept {j : Nat} : Answers s (execAlMulhu j s) := by
  refine ⟨_, rfl, engineStep_kept (.refl s) fun h => ?_⟩
  exact alu2_kept h

theorem execAlEq_kept {j : Nat} : Answers s (execAlEq j s) := by
  refine ⟨_, rfl, engineStep_kept (.refl s) fun h => ?_⟩
  exact alu2_kept h

theorem execAlUlt_kept {j : Nat} : Answers s (execAlUlt j s) := by
  refine ⟨_, rfl, engineStep_kept (.refl s) fun h => ?_⟩
  exact alu2_kept h

theorem execAlLt_kept {j : Nat} : Answers s (execAlLt j s) := by
  refine ⟨_, rfl, engineStep_kept (.refl s) fun h => ?_⟩
  exact alu2_kept h

theorem execAlCsel_kept {j : Nat} : Answers s (execAlCsel j s) := by
  refine ⟨_, rfl, engineStep_kept (.refl s) fun h => ?_⟩
  exact onStack_kept h

theorem execAlFetch_kept {j : Nat} : Answers s (execAlFetch j s) := ⟨_, rfl, engineStep_kept (.refl s) fetchN_kept⟩

theorem execAlStore_kept {j : Nat} : Answers s (execAlStore j s) := ⟨_, rfl, engineStep_kept (.refl s) storeN_kept⟩

theorem execAlFetchh_kept {j : Nat} : Answers s (execAlFetchh j s) := ⟨_, rfl, engineStep_kept (.refl s) fetchN_kept⟩

theorem execAlStoreh_kept {j : Nat} : Answers s (execAlStoreh j s) := ⟨_, rfl, engineStep_kept (.refl s) storeN_kept⟩

theorem execAlFetchb_kept {j : Nat} : Answers s (execAlFetchb j s) := ⟨_, rfl, engineStep_kept (.refl s) fetchN_kept⟩

theorem execAlStoreb_kept {j : Nat} : Answers s (execAlStoreb j s) := ⟨_, rfl, engineStep_kept (.refl s) storeN_kept⟩

theorem execAlIfetch_kept {j : Nat} : Answers s (execAlIfetch j s) := by
  refine ⟨_, rfl, engineStep_kept (.refl s) fun h => ?_⟩
  exact onStack_kept h

theorem goTo_kept {e : Eng} {t : Nat} (h : Kept r e.s) : (goTo e t).Kept r := by
  unfold goTo
  repeat' split
  all_goals grind [kept_mk, Eng.arch_kept, Ev.Kept]

theorem execAlRet_kept {j : Nat} : Answers s (execAlRet j s) := by
  refine ⟨_, rfl, engineStep_kept (.refl s) fun h => ?_⟩
  split
  · split
    · trivial
    · exact goTo_kept (e := Eng.arch _ _) h
  · trivial

theorem execAlCallt_kept {j : Nat} : Answers s (execAlCallt j s) := by
  refine ⟨_, rfl, engineStep_kept (.refl s) fun h => ?_⟩
  repeat' split
  · trivial
  · trivial
  · exact goTo_kept (e := Eng.arch _ _) h
  · trivial

theorem execAlBr_kept {j off : Nat} : Answers s (execAlBr j off s) := by
  refine ⟨_, rfl, engineStep_kept (.refl s) fun h => ?_⟩
  exact goTo_kept h

theorem condBranch_kept {e : Eng} {off : Nat} {taken : Word → Bool} (h : Kept r e.s) : (condBranch e off taken).Kept r := by
  unfold condBranch
  repeat' split
  all_goals grind [kept_mk, goTo_kept, Eng.arch_kept, Eng.go_kept, Ev.Kept]

theorem execAlBz_kept {j off : Nat} : Answers s (execAlBz j off s) := by
  refine ⟨_, rfl, engineStep_kept (.refl s) fun h => ?_⟩
  exact condBranch_kept h

theorem execAlBnz_kept {j off : Nat} : Answers s (execAlBnz j off s) := by
  refine ⟨_, rfl, engineStep_kept (.refl s) fun h => ?_⟩
  exact condBranch_kept h

theorem execAlDbnz_kept {j off : Nat} : Answers s (execAlDbnz j off s) := by
  refine ⟨_, rfl, engineStep_kept (.refl s) fun h => ?_⟩
  repeat' split
  · trivial
  · exact h
  · exact goTo_kept (e := Eng.arch _ _) h
  · trivial

theorem execAlLit_kept {j imm : Nat} : Answers s (execAlLit j imm s) := by
  refine ⟨_, rfl, engineStep_kept (.refl s) fun h => ?_⟩
  exact onStack_kept h

theorem execAlLitx_kept {j imm : Nat} : Answers s (execAlLitx j imm s) := by
  refine ⟨_, rfl, engineStep_kept (.refl s) fun h => ?_⟩
  exact onStack_kept h

theorem stageCommit_kept {e : Eng} (h : Kept r e.s) : Kept r (stageCommit e).s := kept_mk.2 h

theorem commitPoint_kept {e : Eng} (h : Kept r e.s) : Kept r (commitPoint e).s := by
  unfold commitPoint
  dsimp only
  split
  · exact nextSegment_kept (stageCommit_kept h) _ ‹_›
  · exact stageCommit_kept h

theorem execAlCommit_kept {j : Nat} : Answers s (execAlCommit j s) := by
  refine ⟨_, rfl, engineStep_kept (.refl s) fun h => ?_⟩
  dsimp only
  repeat' split
  all_goals grind [kept_mk, Kept.refl, engineStep_kept, commitPoint_kept, Ev.Kept]

theorem execAlYield_kept {j : Nat} : Answers s (execAlYield j s) := by
  refine ⟨_, rfl, engineStep_kept (.refl s) fun h => ?_⟩
  dsimp only
  repeat' split
  all_goals grind [kept_mk, Kept.refl, stageCommit_kept, engineStep_kept, Ev.Kept]

theorem execAlEnd_kept {j : Nat} : Answers s (execAlEnd j s) := by
  refine ⟨_, rfl, engineStep_kept (.refl s) fun h => ?_⟩
  dsimp only
  repeat' split
  all_goals grind [kept_mk, Kept.refl, engineStep_kept, Ev.Kept]

theorem execUnassignedEncoding_kept {j w : Nat} : Answers s (execUnassignedEncoding j w s) :=
  ⟨_, rfl, kept_ite (.refl s) (engineStep_kept (.refl s) fun _ => trivial)⟩

/-! ### AladaIo -/

theorem Eng.setHash_kept {e : Eng} {x1 : HashState} (h : Kept r e.s) : Kept r (Eng.setHash e x1).s := kept_mk.2 h

theorem keyReq_kept {e : Eng} {v : Nat} (h : Kept r e.s) : ∀ z, keyReq e v = .ok z → Kept r z.s := by
  unfold keyReq
  repeat' split
  all_goals grind [kept_mk, cacheFill_kept]

theorem declGo_kept {e : Eng} {v : Nat} (h : Kept r e.s) : ∀ z, declGo e v = .ok z → Kept r z.s := by
  unfold declGo
  grind [kept_mk, dWrite_kept]

theorem freeWord_kept {e : Eng} {tag : Bool} (h : Kept r e.s) : Kept r (freeWord e tag).2.s := kept_mk.2 h

theorem mxuWord_kept {e : Eng} {result : Bool} (h : Kept r e.s) : Kept r (mxuWord e result).2.s := by
  unfold mxuWord
  repeat' split
  all_goals grind [kept_mk, freeWord_kept]

theorem outPort_kept {e : Eng} {p : Nat} {x : TWord} (h : Kept r e.s) : ∀ z, outPort e p x = .ok z → Kept r z.s := by
  unfold outPort
  repeat' split
  all_goals grind [kept_mk, Eng.arch_kept, Eng.setHash_kept, keyReq_kept, declGo_kept]

theorem inPort_kept {e : Eng} {p : Nat} (h : Kept r e.s) : ∀ x z, inPort e p = .val x z → Kept r z.s := by
  intro x z hz
  unfold inPort at hz
  repeat' split at hz
  all_goals grind [rd, freeWord_kept, mxuWord_kept, takeFreeNat_kept, Eng.setHash_kept]

theorem doIn_kept {e : Eng} {p : Nat} (h : Kept r e.s) : (doIn e p).Kept r := by
  unfold doIn
  split
  · trivial
  · exact h
  · exact onStack_kept (inPort_kept h _ _ ‹_›)

theorem doOut_kept {e : Eng} {p : Nat} (h : Kept r e.s) : (doOut e p).Kept r := by
  unfold doOut
  split
  · trivial
  split
  · trivial
  split
  · trivial
  · have hk := outPort_kept (e := e.arch _) h _ ‹_›
    exact hk

theorem doOutIf_kept {e : Eng} {p : Nat} {want : Nat → Bool} (h : Kept r e.s) : (doOutIf e p want).Kept r := by
  unfold doOutIf
  repeat' split
  all_goals grind [kept_mk, doOut_kept, Ev.Kept]

theorem execAlIn_kept {j p : Nat} : Answers s (execAlIn j p s) := by
  refine ⟨_, rfl, engineStep_kept (.refl s) fun h => ?_⟩
  exact doIn_kept h

theorem keyReqStep_kept {u : Upset} {e : Eng} (h : Kept r e.s) : (keyReqStep u e).Kept r := by
  unfold keyReqStep
  split
  · exact kept_fst ‹_› (strikeVault_kept h)
  have h1 := kept_fst ‹_› (strikeVault_kept h)
  extract_lets e1
  split
  · exact glitchAlarm_kept h1
  have h2 : (doOut e1 0x10).Kept r := doOut_kept h1
  split <;> rename_i ho
  · rw [ho] at h2
    split <;> exact h2
  · exact h2

theorem State.clearIfSafe_kept (h : Kept r s) : Kept r (State.clearIfSafe s) := kept_ite (kept_mk.2 h) h

theorem execKeyReq_kept {j : Nat} {u : Upset} : Answers s (execKeyReq j u s) :=
  ⟨_, rfl, State.clearIfSafe_kept (engineStep_kept (.refl s) keyReqStep_kept)⟩

theorem execAlOut_kept {j p : Nat} : Answers s (execAlOut j p s) := by
  unfold execAlOut
  split
  · exact execKeyReq_kept
  · exact ⟨_, rfl, engineStep_kept (.refl s) doOut_kept⟩

theorem execHsInit_kept {j : Nat} : Answers s (execHsInit j s) := by
  refine ⟨_, rfl, engineStep_kept (.refl s) fun h => ?_⟩
  exact doOutIf_kept h

theorem execHsPad_kept {j : Nat} : Answers s (execHsPad j s) := by
  refine ⟨_, rfl, engineStep_kept (.refl s) fun h => ?_⟩
  exact doOutIf_kept h

theorem execHsIn_kept {j : Nat} : Answers s (execHsIn j s) := by
  refine ⟨_, rfl, engineStep_kept (.refl s) fun h => ?_⟩
  exact doOut_kept h

theorem execHsInb_kept {j : Nat} : Answers s (execHsInb j s) := by
  refine ⟨_, rfl, engineStep_kept (.refl s) fun h => ?_⟩
  exact doOut_kept h

theorem execHsOut_kept {j : Nat} : Answers s (execHsOut j s) := by
  refine ⟨_, rfl, engineStep_kept (.refl s) fun h => ?_⟩
  exact doIn_kept h

theorem execDrbgRead_kept {j : Nat} : Answers s (execDrbgRead j s) := by
  refine ⟨_, rfl, engineStep_kept (.refl s) fun h => ?_⟩
  exact doIn_kept h

theorem execVqWrite_kept {j : Nat} : Answers s (execVqWrite j s) := by
  refine ⟨_, rfl, engineStep_kept (.refl s) fun h => ?_⟩
  exact doOut_kept h

theorem execVcfgWrite_kept {j : Nat} : Answers s (execVcfgWrite j s) := by
  refine ⟨_, rfl, engineStep_kept (.refl s) fun h => ?_⟩
  exact doOut_kept h

theorem execVfaultFill_kept {j : Nat} : Answers s (execVfaultFill j s) := by
  refine ⟨_, rfl, engineStep_kept (.refl s) fun h => ?_⟩
  exact doOut_kept h

theorem execMboxCmd_kept {j : Nat} : Answers s (execMboxCmd j s) := by
  refine ⟨_, rfl, engineStep_kept (.refl s) fun h => ?_⟩
  exact doOut_kept h

theorem execDeclGo_kept {j : Nat} : Answers s (execDeclGo j s) := by
  refine ⟨_, rfl, engineStep_kept (.refl s) fun h => ?_⟩
  exact doOut_kept h

theorem gateFetch_kept {e : Eng} (h : Kept r e.s) : Kept r (gateFetch e).s := by
  unfold gateFetch
  repeat' split
  all_goals grind [kept_mk, cacheFill_kept]

theorem gateWrite_kept {e : Eng} {rest : List TWord} {dst : Nat} {b : Bytes} (h : Kept r e.s) :
    (gateWrite e rest dst b).Kept r := by
  unfold gateWrite
  split
  · trivial
  · have hk := dWrite_kept (e := e.arch _) h _ ‹_›
    exact hk

theorem gateSeal_kept {e : Eng} (h : Kept r e.s) : (gateSeal e).Kept r := by
  unfold gateSeal
  repeat' split
  all_goals grind [kept_mk, gateWrite_kept, gateFetch_kept, Ev.Kept]

theorem gateTag_kept {e : Eng} (h : Kept r e.s) : (gateTag e).Kept r := by
  unfold gateTag
  repeat' split
  all_goals grind [kept_mk, gateWrite_kept, gateFetch_kept, Ev.Kept]

theorem gateRandom_kept {e : Eng} (h : Kept r e.s) : (gateRandom e).Kept r := by
  unfold gateRandom
  repeat' split
  all_goals grind [kept_mk, takeFree_kept, gateWrite_kept, Ev.Kept]

theorem asGate_kept {e : Eng} {g : Eng → Ev} (h : Kept r e.s) (hf : ∀ {e}, Kept r e.s → (g e).Kept r) :
    (asGate e g).Kept r := by
  unfold asGate
  repeat' split
  all_goals grind [kept_mk, Ev.Kept]

theorem doCall_kept {e : Eng} {k : Nat} (h : Kept r e.s) : (doCall e k).Kept r := by
  unfold doCall
  repeat' split
  all_goals grind [kept_mk, goTo_kept, Eng.arch_kept, gateTag_kept, asGate_kept, gateSeal_kept, gateRandom_kept, Ev.Kept]

theorem execAlCall_kept {j k : Nat} : Answers s (execAlCall j k s) := by
  refine ⟨_, rfl, engineStep_kept (.refl s) fun h => ?_⟩
  exact doCall_kept h

/-! ### AladaSv -/

theorem Eng.setSv_kept {e : Eng} {i : Nat} {x2 : SvReg} (h : Kept r e.s) : Kept r (Eng.setSv e i x2).s := kept_mk.2 h

theorem Eng.wakeSv_kept {e : Eng} (h : Kept r e.s) : Kept r (Eng.wakeSv e).s := kept_mk.2 h

theorem doSv_kept {e : Eng} {f : Eng → Ev} (h : Kept r e.s) (hf : ∀ {e}, Kept r e.s → (f e).Kept r) : (doSv e f).Kept r := by
  unfold doSv
  repeat' split
  all_goals grind [kept_mk, Eng.wakeSv_kept, Ev.Kept]

theorem svMap2_kept {e : Eng} {sd ss : Nat} {g : Nat → Nat → Nat → Nat} (h : Kept r e.s) : (svMap2 e sd ss g).Kept r := by
  unfold svMap2
  grind [kept_mk, Eng.setSv_kept, Eng.go_kept, Ev.Kept]

theorem svWhole_kept {e : Eng} {sd ss : Nat} {g : BitVec 128 → BitVec 128 → BitVec 128} (h : Kept r e.s) :
    (svWhole e sd ss g).Kept r := by
  unfold svWhole
  grind [kept_mk, Eng.setSv_kept, Eng.go_kept, Ev.Kept]

theorem svShift_kept {e : Eng} {sd : Nat} {g : Nat → Nat → Nat → Nat} (h : Kept r e.s) : (svShift e sd g).Kept r := by
  unfold svShift
  repeat' split
  all_goals grind [kept_mk, Eng.arch_kept, Eng.setSv_kept, Eng.go_kept, Ev.Kept]

theorem execSvLd_kept {j sd ss : Nat} : Answers s (execSvLd j sd ss s) := by
  refine ⟨_, rfl, engineStep_kept (.refl s) fun h => ?_⟩
  refine doSv_kept h fun h => ?_
  repeat' split
  · trivial
  · trivial
  · trivial
  · exact h
  · trivial

theorem execSvSt_kept {j sd ss : Nat} : Answers s (execSvSt j sd ss s) := by
  refine ⟨_, rfl, engineStep_kept (.refl s) fun h => ?_⟩
  refine doSv_kept h fun h => ?_
  dsimp only
  repeat' split
  all_goals grind [kept_mk, Kept.refl, Eng.arch_kept, dWrite_kept, engineStep_kept, doSv_kept, Eng.go_kept, Ev.Kept]

theorem execSvAdd_kept {j sd ss : Nat} : Answers s (execSvAdd j sd ss s) := by
  refine ⟨_, rfl, engineStep_kept (.refl s) fun h => ?_⟩
  refine doSv_kept h fun h => ?_
  exact svMap2_kept h

theorem execSvSub_kept {j sd ss : Nat} : Answers s (execSvSub j sd ss s) := by
  refine ⟨_, rfl, engineStep_kept (.refl s) fun h => ?_⟩
  refine doSv_kept h fun h => ?_
  exact svMap2_kept h

theorem execSvMul_kept {j sd ss : Nat} : Answers s (execSvMul j sd ss s) := by
  refine ⟨_, rfl, engineStep_kept (.refl s) fun h => ?_⟩
  refine doSv_kept h fun h => ?_
  exact svMap2_kept h

theorem execSvAnd_kept {j sd ss : Nat} : Answers s (execSvAnd j sd ss s) := by
  refine ⟨_, rfl, engineStep_kept (.refl s) fun h => ?_⟩
  refine doSv_kept h fun h => ?_
  exact svWhole_kept h

theorem execSvOr_kept {j sd ss : Nat} : Answers s (execSvOr j sd ss s) := by
  refine ⟨_, rfl, engineStep_kept (.refl s) fun h => ?_⟩
  refine doSv_kept h fun h => ?_
  exact svWhole_kept h

theorem execSvXor_kept {j sd ss : Nat} : Answers s (execSvXor j sd ss s) := by
  refine ⟨_, rfl, engineStep_kept (.refl s) fun h => ?_⟩
  refine doSv_kept h fun h => ?_
  exact svWhole_kept h

theorem execSvShl_kept {j sd ss : Nat} : Answers s (execSvShl j sd ss s) := by
  refine ⟨_, rfl, engineStep_kept (.refl s) fun h => ?_⟩
  refine doSv_kept h fun h => ?_
  exact svShift_kept h

theorem execSvShr_kept {j sd ss : Nat} : Answers s (execSvShr j sd ss s) := by
  refine ⟨_, rfl, engineStep_kept (.refl s) fun h => ?_⟩
  refine doSv_kept h fun h => ?_
  exact svShift_kept h

theorem execSvRotl_kept {j sd ss : Nat} : Answers s (execSvRotl j sd ss s) := by
  refine ⟨_, rfl, engineStep_kept (.refl s) fun h => ?_⟩
  refine doSv_kept h fun h => ?_
  exact svShift_kept h

theorem execSvCmov_kept {j sd ss : Nat} : Answers s (execSvCmov j sd ss s) := by
  refine ⟨_, rfl, engineStep_kept (.refl s) fun h => ?_⟩
  refine doSv_kept h fun h => ?_
  dsimp only
  repeat' split
  all_goals grind [kept_mk, Kept.refl, Eng.arch_kept, engineStep_kept, Eng.setSv_kept, doSv_kept, Eng.go_kept, Ev.Kept]

theorem execSvMov_kept {j sd ss : Nat} : Answers s (execSvMov j sd ss s) :=
  ⟨_, rfl, engineStep_kept (.refl s) fun h => doSv_kept h fun h => h⟩

theorem execSvZero_kept {j sd ss : Nat} : Answers s (execSvZero j sd ss s) := by
  refine ⟨_, rfl, engineStep_kept (.refl s) fun h => ?_⟩
  refine doSv_kept h fun h => ?_
  split
  · trivial
  · exact h

theorem execSvShuf_kept {j sd ss : Nat} : Answers s (execSvShuf j sd ss s) := by
  refine ⟨_, rfl, engineStep_kept (.refl s) fun h => ?_⟩
  refine doSv_kept h fun h => ?_
  exact svWhole_kept h

theorem execSvAesr_kept {j sd ss : Nat} : Answers s (execSvAesr j sd ss s) := by
  refine ⟨_, rfl, engineStep_kept (.refl s) fun h => ?_⟩
  refine doSv_kept h fun h => ?_
  exact svWhole_kept h

theorem execSvAeslr_kept {j sd ss : Nat} : Answers s (execSvAeslr j sd ss s) := by
  refine ⟨_, rfl, engineStep_kept (.refl s) fun h => ?_⟩
  refine doSv_kept h fun h => ?_
  exact svWhole_kept h

theorem execSvClmul_kept {j sd ss : Nat} : Answers s (execSvClmul j sd ss s) := by
  refine ⟨_, rfl, engineStep_kept (.refl s) fun h => ?_⟩
  refine doSv_kept h fun h => ?_
  exact svWhole_kept h

theorem execSvTos_kept {j sd ss : Nat} : Answers s (execSvTos j sd ss s) := by
  refine ⟨_, rfl, engineStep_kept (.refl s) fun h => ?_⟩
  refine doSv_kept h fun h => ?_
  dsimp only
  repeat' split
  all_goals grind [kept_mk, Kept.refl, engineStep_kept, doSv_kept, onStack_kept, Ev.Kept]

theorem execSvFroms_kept {j sd ss : Nat} : Answers s (execSvFroms j sd ss s) := by
  refine ⟨_, rfl, engineStep_kept (.refl s) fun h => ?_⟩
  refine doSv_kept h fun h => ?_
  dsimp only
  repeat' split
  all_goals grind [kept_mk, Kept.refl, Eng.arch_kept, engineStep_kept, Eng.setSv_kept, doSv_kept, Eng.go_kept, Ev.Kept]

/-! ### AladaLv -/

theorem Eng.wakeLv_kept {e : Eng} (h : Kept r e.s) : Kept r (Eng.wakeLv e).s := kept_mk.2 h

theorem doLv_kept {e : Eng} {modular : Bool} {groups : List Nat} {f : Eng → Ev} (h : Kept r e.s) (hf : ∀ {e}, Kept r e.s → (f
    e).Kept r) :
    (doLv e modular groups f).Kept r := by
  unfold doLv
  repeat' split
  all_goals grind [kept_mk, Eng.wakeLv_kept, Ev.Kept]

theorem lvDone_kept {e : Eng} {ld : Nat} {es : List Nat} {tag : Bool} (h : Kept r e.s) : (lvDone e ld es tag).Kept r := by
  unfold lvDone
  grind [kept_mk, Eng.arch_kept, Eng.go_kept, Ev.Kept]

theorem popPlain_kept {e : Eng} {f : Eng → Nat → Ev} (h : Kept r e.s) (hf : ∀ {e n}, Kept r e.s → (f e n).Kept r) :
    (popPlain e f).Kept r := by
  unfold popPlain
  repeat' split
  all_goals grind [kept_mk, Eng.arch_kept, Ev.Kept]

theorem lvMap2_kept {e : Eng} {ld ls : Nat} {g : Nat → Nat → Nat} (h : Kept r e.s) : (lvMap2 e ld ls g).Kept r := by
  unfold lvMap2
  grind [kept_mk, lvDone_kept, Ev.Kept]

theorem lvMod2_kept {e : Eng} {ld ls : Nat} {g : Nat → Nat → Nat → Nat} (h : Kept r e.s) : (lvMod2 e ld ls g).Kept r := by
  unfold lvMod2
  grind [kept_mk, lvMap2_kept, doLv_kept, Ev.Kept]

theorem execLvLd_kept {j m ld ls : Nat} : Answers s (execLvLd j m ld ls s) := by
  refine ⟨_, rfl, engineStep_kept (.refl s) fun h => ?_⟩
  refine doLv_kept h fun h => ?_
  refine popPlain_kept h fun h => ?_
  dsimp only
  repeat' split
  all_goals grind [kept_mk, Kept.refl, popPlain_kept, engineStep_kept, doLv_kept, lvDone_kept, Ev.Kept]

theorem storeElems_kept {sz : Nat} {x1 : Eng} {x2 : Nat} {x3 : List (Nat × Bool)} (h : Kept r x1.s) :
    ∀ z, storeElems sz x1 x2 x3 = .ok z → Kept r z.s := by
  induction x3 generalizing x1 x2 with
  | nil => exact by rintro z ⟨⟩; exact h
  | cons x xs ih =>
    intro z hz
    unfold storeElems at hz
    split at hz
    · cases hz
    · exact ih (dWrite_kept h _ ‹_›) z hz

theorem execLvSt_kept {j m ld ls : Nat} : Answers s (execLvSt j m ld ls s) := by
  refine ⟨_, rfl, engineStep_kept (.refl s) fun h => ?_⟩
  dsimp only
  repeat' split
  all_goals grind [kept_mk, Kept.refl, storeElems_kept, popPlain_kept, engineStep_kept, doLv_kept, Eng.go_kept, Ev.Kept]

theorem vectorTrap_kept {e : Eng} {ld : Option Nat} {k cause addr : Nat} (h : Kept r e.s) :
    (vectorTrap e ld k cause addr).Kept r := by
  unfold vectorTrap
  repeat' split
  all_goals grind [kept_mk, Eng.arch_kept, Ev.Kept]

theorem doGather_kept {e : Eng} {ld ls : Nat} (h : Kept r e.s) : (doGather e ld ls).Kept r := by
  unfold doGather
  repeat' split
  all_goals grind [kept_mk, Eng.arch_kept, vectorTrap_kept, Eng.go_kept, Ev.Kept]

theorem scatterElems_kept {e : Eng} {base sz : Nat} {idx : List Nat} {es : List (Nat × Bool)} {lo hi : Nat} (h : Kept r e.s)
    :
    ∀ z, scatterElems e base sz idx es lo hi = .ok z → Kept r z.s := by
  unfold scatterElems
  generalize (List.range (hi - lo)).map (lo + ·) = l
  induction l generalizing e with
  | nil => exact by rintro z ⟨⟩; exact h
  | cons i l ih =>
    intro z hz
    rw [List.foldlM_cons] at hz
    cases hy : dWrite e (elemAddr base sz (idx.getD i 0)) (leBytes sz (es.getD i (0, false)).1) (es.getD i (0, false)).2 with
    | error f => rw [hy] at hz; cases hz
    | ok y => rw [hy] at hz; exact ih (dWrite_kept h _ hy) z hz

theorem doScatter_kept {e : Eng} {ld ls : Nat} (h : Kept r e.s) : (doScatter e ld ls).Kept r := by
  unfold doScatter
  repeat' split
  all_goals grind [kept_mk, Eng.arch_kept, scatterElems_kept, vectorTrap_kept, Eng.go_kept, Ev.Kept]

theorem execLvGather_kept {j m ld ls : Nat} : Answers s (execLvGather j m ld ls s) := by
  refine ⟨_, rfl, engineStep_kept (.refl s) fun h => ?_⟩
  refine doLv_kept h fun h => ?_
  exact doGather_kept h

theorem execLvScatter_kept {j m ld ls : Nat} : Answers s (execLvScatter j m ld ls s) := by
  refine ⟨_, rfl, engineStep_kept (.refl s) fun h => ?_⟩
  refine doLv_kept h fun h => ?_
  exact doScatter_kept h

theorem execLvAddm_kept {j m ld ls : Nat} : Answers s (execLvAddm j m ld ls s) := by
  refine ⟨_, rfl, engineStep_kept (.refl s) fun h => ?_⟩
  exact lvMod2_kept h

theorem execLvSubm_kept {j m ld ls : Nat} : Answers s (execLvSubm j m ld ls s) := by
  refine ⟨_, rfl, engineStep_kept (.refl s) fun h => ?_⟩
  exact lvMod2_kept h

theorem execLvMulm_kept {j m ld ls : Nat} : Answers s (execLvMulm j m ld ls s) := by
  refine ⟨_, rfl, engineStep_kept (.refl s) fun h => ?_⟩
  exact lvMod2_kept h

theorem execLvPmul_kept {j m ld ls : Nat} : Answers s (execLvPmul j m ld ls s) := by
  refine ⟨_, rfl, engineStep_kept (.refl s) fun h => ?_⟩
  dsimp only
  repeat' split
  all_goals grind [kept_mk, Kept.refl, lvMod2_kept, engineStep_kept, doLv_kept, lvDone_kept, Ev.Kept]

theorem execLvBfly_kept {j m ld ls : Nat} : Answers s (execLvBfly j m ld ls s) := by
  refine ⟨_, rfl, engineStep_kept (.refl s) fun h => ?_⟩
  dsimp only
  repeat' split
  all_goals grind [kept_mk, Kept.refl, popPlain_kept, engineStep_kept, doLv_kept, lvDone_kept, Ev.Kept]

theorem execLvComp_kept {j m ld ls : Nat} : Answers s (execLvComp j m ld ls s) := by
  refine ⟨_, rfl, engineStep_kept (.refl s) fun h => ?_⟩
  dsimp only
  repeat' split
  all_goals grind [kept_mk, Kept.refl, popPlain_kept, engineStep_kept, doLv_kept, lvDone_kept, Ev.Kept]

theorem freeNats_kept {x0 : Nat} {x1 : State} (h : Kept r x1) : Kept r (freeNats x0 x1).2 := by
  induction x0 generalizing x1 with
  | zero => exact h
  | succ n ih =>
    unfold freeNats
    exact ih (takeFreeNat_kept h)

theorem execLvSamu_kept {j m ld ls : Nat} : Answers s (execLvSamu j m ld ls s) := by
  refine ⟨_, rfl, engineStep_kept (.refl s) fun h => ?_⟩
  refine doLv_kept h fun h => ?_
  dsimp only
  repeat' split
  all_goals grind [kept_mk, Kept.refl, Eng.setHash_kept, engineStep_kept, doLv_kept, freeNats_kept, lvDone_kept, Ev.Kept]

theorem execLvSamcbd_kept {j m ld ls : Nat} : Answers s (execLvSamcbd j m ld ls s) := by
  refine ⟨_, rfl, engineStep_kept (.refl s) fun h => ?_⟩
  refine doLv_kept h fun h => ?_
  refine popPlain_kept h fun h => ?_
  dsimp only
  repeat' split
  all_goals grind [kept_mk, Kept.refl, popPlain_kept, Eng.setHash_kept, engineStep_kept, doLv_kept, freeNats_kept,
    lvDone_kept, Ev.Kept]

theorem execLvCmov_kept {j m ld ls : Nat} : Answers s (execLvCmov j m ld ls s) := by
  refine ⟨_, rfl, engineStep_kept (.refl s) fun h => ?_⟩
  refine doLv_kept h fun h => ?_
  dsimp only
  repeat' split
  all_goals grind [kept_mk, Kept.refl, Eng.arch_kept, engineStep_kept, doLv_kept, lvDone_kept, Ev.Kept]

theorem lvPerm_kept {e : Eng} {m x2 ld ls : Nat} (h : Kept r e.s) : (lvPerm e m x2 ld ls).Kept r := by
  unfold lvPerm
  grind [kept_mk, lvDone_kept, Ev.Kept]

theorem execLvPerm_kept {j m ld ls : Nat} : Answers s (execLvPerm j m ld ls s) := by
  refine ⟨_, rfl, engineStep_kept (.refl s) fun h => ?_⟩
  refine doLv_kept h fun h => ?_
  split
  · exact popPlain_kept h lvPerm_kept
  · exact lvPerm_kept h

theorem pushSum_kept {e : Eng} {v : Nat} {tag : Bool} (h : Kept r e.s) : (pushSum e v tag).Kept r := by
  unfold pushSum
  grind [kept_mk, onStack_kept, Ev.Kept]

theorem lvSum_kept {e : Eng} {m ld ls : Nat} {g : Nat → Nat} (h : Kept r e.s) : (lvSum e m ld ls g).Kept r := by
  unfold lvSum
  grind [kept_mk, doLv_kept, pushSum_kept, Ev.Kept]

theorem execLvSad_kept {j m ld ls : Nat} {u : Upset} : Answers s (execLvSad j m ld ls u s) := by
  refine ⟨_, rfl, engineStep_kept (.refl s) fun h => ?_⟩
  split
  · exact glitchAlarm_kept h
  · exact lvSum_kept h

theorem execLvSsd_kept {j m ld ls : Nat} : Answers s (execLvSsd j m ld ls s) := by
  refine ⟨_, rfl, engineStep_kept (.refl s) fun h => ?_⟩
  exact lvSum_kept h

theorem execLvOvb_kept {j m ld ls : Nat} : Answers s (execLvOvb j m ld ls s) := by
  refine ⟨_, rfl, engineStep_kept (.refl s) fun h => ?_⟩
  refine doLv_kept h fun h => ?_
  dsimp only
  grind [kept_mk, Kept.refl, engineStep_kept, doLv_kept, lvDone_kept, Ev.Kept]

theorem execLvMov_kept {j m ld ls : Nat} : Answers s (execLvMov j m ld ls s) := by
  refine ⟨_, rfl, engineStep_kept (.refl s) fun h => ?_⟩
  refine doLv_kept h fun h => ?_
  exact lvDone_kept h

theorem execLvZero_kept {j m ld ls : Nat} : Answers s (execLvZero j m ld ls s) := by
  refine ⟨_, rfl, engineStep_kept (.refl s) fun h => ?_⟩
  split
  · trivial
  · exact doLv_kept h lvDone_kept

theorem execLvLogic_kept {j m ld ls : Nat} : Answers s (execLvLogic j m ld ls s) := by
  refine ⟨_, rfl, engineStep_kept (.refl s) fun h => ?_⟩
  refine doLv_kept h fun h => ?_
  exact lvMap2_kept h

theorem execLvAdd_kept {j m ld ls : Nat} : Answers s (execLvAdd j m ld ls s) := by
  refine ⟨_, rfl, engineStep_kept (.refl s) fun h => ?_⟩
  dsimp only
  repeat' split
  all_goals grind [kept_mk, Kept.refl, lvMap2_kept, engineStep_kept, doLv_kept, Ev.Kept]

/-! ### Admin -/

theorem adminFail_kept {p reason index : Nat} (h : Kept r s) : Kept r (adminFail s p reason index) :=
  emit_kept (State.updPort_kept h)

theorem adminTake_kept {p : Nat} {se : Bytes} {sel : Bytes → Bool} (h : Kept r s) : Kept r (adminTake s p se sel).1 := by
  unfold adminTake
  repeat' split
  all_goals grind [kept_mk, transRange_kept, adminFail_kept, State.updPort_kept]

theorem adminRow_kept {p : Nat} {se : Bytes} {sel : Bytes → Bool} {body : State → State × Reply} (h : Kept r s) (hf : ∀ {s},
    Kept r s → Kept r (body s).1) :
    Kept r (adminRow p se sel body s) := by
  unfold adminRow
  repeat' split
  all_goals grind [kept_mk, adminTake_kept]

theorem adminCmd_kept {p : Nat} {se : Bytes} {sel : Bytes → Bool} {primary : Bool} {own : State → List (Bool × Reply)} {run :
    State → State × Reply} (h : Kept r s) (hf : ∀ {s}, Kept r s → Kept r (run s).1) :
    Kept r (adminCmd p se sel primary own run s) := by
  unfold adminCmd
  grind [kept_mk, adminRow_kept]

theorem adminOutput_kept {p : Nat} {se out : Bytes} (h : Kept r s) : Kept r (adminOutput s p se out).1 := by
  unfold adminOutput
  repeat' split
  all_goals grind [kept_mk, hostWrite_kept]

theorem postAdmin_kept {c : AdminCmd} (h : Kept r s) : Kept r (postAdmin s c) := by
  unfold postAdmin
  grind [kept_mk, writeCe_kept, State.updPort_kept]

theorem stopAdmq_kept {p : Nat} (h : Kept r s) : Kept r (stopAdmq s p) := kept_ite (kept_mk.2 h) h

theorem postAdmins_kept (h : Kept r s) : Kept r (postAdmins s) := foldl_kept stopAdmq_kept (foldl_kept postAdmin_kept h)

theorem finishCmd_kept {ref : Nat} {x2 : Reply} (h : Kept r s) : Kept r (finishCmd s ref x2) := kept_mk.2 h

/-! ### Instances -/

theorem instCmd_kept {p : Nat} {se : Bytes} {sel : Bytes → Bool} {create ownAf : Bool} {okState : InstState → Bool} {own :
    State → Nat → List (Bool × Reply)} {fields : State → Nat → List (Nat × Nat × Bool)} {run : State → Nat → State × Reply}
    (h : Kept r s) (hf : ∀ {s n}, Kept r s → Kept r (run s n).1) :
    Kept r (instCmd p se sel create ownAf okState own fields run s) := by
  unfold instCmd
  grind [kept_mk, adminRow_kept]

theorem liveCmd_kept {p : Nat} {se : Bytes} {op : Nat} {own : State → Nat → List (Bool × Reply)} {fields : State → Nat → List
    (Nat × Nat × Bool)} {run : State → Nat → State × Reply} (h : Kept r s) (hf : ∀ {s n}, Kept r s → Kept r (run s n).1) :
    Kept r (liveCmd p se op own fields run s) := by
  unfold liveCmd
  exact instCmd_kept h hf

theorem prefill_kept {i q : Nat} (h : Kept r s) : Kept r (prefill s i q) := by
  unfold prefill
  repeat' split
  all_goals grind [kept_mk, markSlots_kept]

theorem sqCreate_kept {se : Bytes} {i : Nat} (h : Kept r s) : Kept r (sqCreate s se i).1 := prefill_kept (kept_mk.2 h)

theorem execSqCreate_kept {p : Nat} {se : Bytes} : Answers s (execSqCreate p se s) :=
  ⟨_, rfl, liveCmd_kept (.refl s) fun h => sqCreate_kept h⟩

theorem cqCreate_kept {se : Bytes} {i : Nat} (h : Kept r s) : Kept r (cqCreate s se i).1 := kept_mk.2 h

theorem execCqCreate_kept {p : Nat} {se : Bytes} : Answers s (execCqCreate p se s) :=
  ⟨_, rfl, liveCmd_kept (.refl s) fun h => kept_mk.2 h⟩

theorem sqDelete_kept {i q : Nat} (h : Kept r s) : Kept r (sqDelete s i q).1 := by
  unfold sqDelete
  grind [kept_mk, State.updSq_kept, noteDropped_kept]

theorem execSqDelete_kept {p : Nat} {se : Bytes} : Answers s (execSqDelete p se s) :=
  ⟨_, rfl, liveCmd_kept (.refl s) fun h => sqDelete_kept h⟩

theorem sqDrained_kept {i q : Nat} (h : Kept r s) : Kept r (sqDrained s i q) := by
  unfold sqDrained
  split
  · exact h
  dsimp only
  split
  · exact foldl_kept finishCmd_kept (kept_mk.2 h)
  · exact h

theorem execSqDeleteDrained_kept {i q : Nat} : Answers s (execSqDeleteDrained i q s) := by
  refine ⟨_, rfl, ?_⟩
  repeat' split
  all_goals grind [kept_mk, Kept.refl, postAdmins_kept, sqDrained_kept]

theorem execCqDelete_kept {p : Nat} {se : Bytes} : Answers s (execCqDelete p se s) :=
  ⟨_, rfl, liveCmd_kept (.refl s) fun h => kept_mk.2 h⟩

theorem sqRestart_kept {se : Bytes} {i q : Nat} (h : Kept r s) : Kept r (sqRestart s se i q) := by
  unfold sqRestart
  repeat' split
  all_goals grind [kept_mk, prefill_kept, State.updSq_kept, noteDropped_kept]

theorem execSqRestart_kept {p : Nat} {se : Bytes} : Answers s (execSqRestart p se s) :=
  ⟨_, rfl, liveCmd_kept (.refl s) fun h => sqRestart_kept h⟩

theorem cqRestart_kept {se : Bytes} {i c : Nat} (h : Kept r s) : Kept r (cqRestart s se i c) := by
  unfold cqRestart
  repeat' split
  all_goals grind [kept_mk, State.updCq_kept]

theorem execCqRestart_kept {p : Nat} {se : Bytes} : Answers s (execCqRestart p se s) :=
  ⟨_, rfl, liveCmd_kept (.refl s) fun h => cqRestart_kept h⟩

theorem addChange_kept {c : Change} (h : Kept r s) : Kept r (addChange s c) := kept_mk.2 h

theorem execCqModify_kept {p : Nat} {se : Bytes} : Answers s (execCqModify p se s) :=
  ⟨_, rfl, liveCmd_kept (.refl s) fun h => kept_mk.2 h⟩

theorem execSqModify_kept {p : Nat} {se : Bytes} : Answers s (execSqModify p se s) :=
  ⟨_, rfl, liveCmd_kept (.refl s) fun h => kept_mk.2 h⟩

theorem execInstanceCreate_kept {p : Nat} {se : Bytes} : Answers s (execInstanceCreate p se s) :=
  ⟨_, rfl, instCmd_kept (.refl s) fun h => kept_mk.2 h⟩

theorem setResources_kept {se : Bytes} {i : Nat} (h : Kept r s) : Kept r (setResources s se i).1 :=
  State.updInst_kept (addChange_kept h)

theorem execInstanceSetResources_kept {p : Nat} {se : Bytes} : Answers s (execInstanceSetResources p se s) :=
  ⟨_, rfl, liveCmd_kept (.refl s) fun h => setResources_kept h⟩

theorem execInstanceGet_kept {p : Nat} {se : Bytes} : Answers s (execInstanceGet p se s) := by
  refine ⟨_, rfl, ?_⟩
  grind [kept_mk, Kept.refl, liveCmd_kept, adminOutput_kept]

theorem setRoot_kept {se : Bytes} {i : Nat} (h : Kept r s) : Kept r (setRoot s se i) := kept_mk.2 (State.updInst_kept h)

theorem execDatuSetRoot_kept {p : Nat} {se : Bytes} : Answers s (execDatuSetRoot p se s) :=
  ⟨_, rfl, liveCmd_kept (.refl s) fun h => setRoot_kept h⟩

theorem invalidate_kept {i iova pages : Nat} (h : Kept r s) : Kept r (invalidate s i iova pages) := by
  unfold invalidate
  grind [kept_mk, noteDropped_kept]

theorem execDatuInvalidate_kept {p : Nat} {se : Bytes} : Answers s (execDatuInvalidate p se s) :=
  ⟨_, rfl, liveCmd_kept (.refl s) fun h => invalidate_kept h⟩

theorem execDirtyLogStart_kept {p : Nat} {se : Bytes} : Answers s (execDirtyLogStart p se s) :=
  ⟨_, rfl, liveCmd_kept (.refl s) fun h => kept_mk.2 h⟩

theorem harvest_kept {ref i : Nat} (h : Kept r s) : Kept r (harvest s ref i) := State.updInst_kept (finishCmd_kept h)

theorem harvestNow_kept {i : Nat} (h : Kept r s) : Kept r (harvestNow s i) := foldl_kept harvest_kept (kept_mk.2 h)

theorem execDirtyLogStop_kept {p : Nat} {se : Bytes} : Answers s (execDirtyLogStop p se s) :=
  ⟨_, rfl, liveCmd_kept (.refl s) fun h => kept_mk.2 (harvestNow_kept h)⟩

theorem execDirtyLogHarvest_kept {p : Nat} {se : Bytes} : Answers s (execDirtyLogHarvest p se s) :=
  ⟨_, rfl, liveCmd_kept (.refl s) fun h => kept_mk.2 h⟩

theorem addAbort_kept {a : Abort} (h : Kept r s) : Kept r (addAbort s a) := kept_mk.2 h

theorem execInstanceQuiesce_kept {p : Nat} {se : Bytes} : Answers s (execInstanceQuiesce p se s) := by
  refine ⟨_, rfl, ?_⟩
  grind [kept_mk, Kept.refl, liveCmd_kept, addAbort_kept]

theorem execJobAbort_kept {p : Nat} {se : Bytes} : Answers s (execJobAbort p se s) :=
  ⟨_, rfl, liveCmd_kept (.refl s) fun h => kept_mk.2 h⟩

theorem abortJob_kept {detail : Nat} {j : Job} (h : Kept r s) : Kept r (abortJob s detail j) :=
  dropExec_kept (endUnconfirmed_kept h)

theorem applyJobAbort_kept {ref i q tag : Nat} {all : Bool} (h : Kept r s) : Kept r (applyJobAbort s ref i q tag all) :=
  finishCmd_kept (foldl_kept abortJob_kept h)

theorem applyQuiesce_kept {i : Nat} {abort : Bool} (h : Kept r s) : Kept r (applyQuiesce s i abort) := by
  unfold applyQuiesce
  split
  · exact h
  extract_lets old js s1 s2 w
  have h2 : Kept r s2 := State.updInst_kept (foldl_kept abortJob_kept h)
  exact noteDropped_kept (kept_mk.2 h2)

theorem finishQuiesce_kept {i result : Nat} (h : Kept r s) : Kept r (finishQuiesce s i result) := foldl_kept finishCmd_kept h

theorem quiesceDrained_kept {i : Nat} (h : Kept r s) : Kept r (quiesceDrained s i) := by
  unfold quiesceDrained
  repeat' split
  all_goals grind [kept_mk, finishQuiesce_kept, State.updInst_kept]

theorem execQuiesceDrained_kept {i : Nat} : Answers s (execQuiesceDrained i s) := by
  refine ⟨_, rfl, ?_⟩
  repeat' split
  all_goals grind [kept_mk, Kept.refl, postAdmins_kept, quiesceDrained_kept]

theorem execInstanceResume_kept {p : Nat} {se : Bytes} : Answers s (execInstanceResume p se s) :=
  ⟨_, rfl, instCmd_kept (.refl s) fun h => kept_mk.2 h⟩

theorem applyResume_kept {x : Inst} (h : Kept r s) : Kept r (applyResume s x) := by
  unfold applyResume
  repeat' split
  all_goals grind [kept_mk, State.updInst_kept]

theorem finishDeletes_kept {i : Nat} (h : Kept r s) : Kept r (finishDeletes s i) := foldl_kept finishCmd_kept h

theorem clearInst_kept {i : Nat} (h : Kept r s) : Kept r (clearInst s i) :=
  kept_mk.2 (State.updInst_kept (foldl_kept dropStream_kept (finishDeletes_kept (kept_mk.2 h))))

theorem execInstanceReset_kept {p : Nat} {se : Bytes} : Answers s (execInstanceReset p se s) :=
  ⟨_, rfl, instCmd_kept (.refl s) fun h => clearInst_kept h⟩

theorem removeInst_kept {i : Nat} (h : Kept r s) : Kept r (removeInst s i) :=
  State.updInst_kept (foldl_kept sendMsg_kept (foldl_kept dropCtx_kept (foldl_kept destroyKey_kept (clearInst_kept h))))

theorem removeDrained_kept {i : Nat} (h : Kept r s) : Kept r (removeDrained s i) := by
  unfold removeDrained
  split
  · exact foldl_kept finishCmd_kept h
  · exact h

theorem execInstanceRemove_kept {p : Nat} {se : Bytes} : Answers s (execInstanceRemove p se s) := by
  refine ⟨_, rfl, ?_⟩
  grind [kept_mk, Kept.refl, removeInst_kept, instCmd_kept]

theorem discardJob_kept {j : Job} (h : Kept r s) : Kept r (discardJob s j) := by
  unfold discardJob
  grind [kept_mk, zeroiseEnvelope_kept, cancelSend_kept, dropExec_kept]

theorem dropWork_kept {i : Nat} (h : Kept r s) : Kept r (dropWork s i) :=
  reapKeys_kept (clearInst_kept (kept_mk.2 (finishQuiesce_kept (foldl_kept discardJob_kept h))))

theorem flrAction_kept {i : Nat} (h : Kept r s) : Kept r (flrAction s i) := kept_ite h (emit_kept (dropWork_kept h))

theorem execDumpBufferSet_kept {p : Nat} {se : Bytes} : Answers s (execDumpBufferSet p se s) := by
  refine ⟨_, rfl, ?_⟩
  grind [kept_mk, Kept.refl, adminRow_kept]

theorem execPrimaryDelegate_kept {p : Nat} {se : Bytes} : Answers s (execPrimaryDelegate p se s) :=
  ⟨_, rfl, adminCmd_kept (.refl s) fun h => kept_mk.2 h⟩

theorem pairCmd_kept {p : Nat} {se : Bytes} {sel : Bytes → Bool} {down face misfit : State → Bool} {run : State → State} (h :
    Kept r s) (hf : ∀ {s}, Kept r s → Kept r (run s)) :
    Kept r (pairCmd p se sel down face misfit run s) := by
  unfold pairCmd
  grind [kept_mk, takeFreeNat_kept, adminCmd_kept]

theorem execPortPairUnpair_kept {p : Nat} {se : Bytes} : Answers s (execPortPairUnpair p se s) :=
  ⟨_, rfl, pairCmd_kept (.refl s) fun h => kept_mk.2 h⟩

theorem execPortPairPair_kept {p : Nat} {se : Bytes} : Answers s (execPortPairPair p se s) :=
  ⟨_, rfl, pairCmd_kept (.refl s) fun h => kept_mk.2 h⟩

theorem execPortPairReturn_kept {p : Nat} {se : Bytes} : Answers s (execPortPairReturn p se s) :=
  ⟨_, rfl, pairCmd_kept (.refl s) fun h => kept_mk.2 h⟩

theorem moveFace_kept {a : Nat} {toB : Bool} (h : Kept r s) : Kept r (moveFace s a toB) := by
  unfold moveFace
  split
  · exact h
  split
  · exact h
  extract_lets old new ad s1 again mine w s2 msgs s3
  have h1 : Kept r s1 := kept_mk.2 h
  have h2 : Kept r s2 := kept_mem h1 rfl fun hw => List.foldlRecOn again _ hw fun m hm w _ => scatterBytes_wf _ _ _ hm
  exact State.updPort_kept (State.updPort_kept (foldl_kept sendFn_kept h2))

theorem healthGet_kept {p : Nat} {se : Bytes} {retire : Bool} (h : Kept r s) : Kept r (healthGet p se retire s) := by
  unfold healthGet
  grind [kept_mk, adminRow_kept, addChange_kept]

theorem noiseRetire_kept {i : Nat} (h : Kept r s) : Kept r (noiseRetire s i) := by
  unfold noiseRetire
  grind [kept_mk, raiseSrc_kept]

theorem retireUnit_kept {u : Nat} (h : Kept r s) : Kept r (retireUnit s u) := by
  unfold retireUnit
  repeat' split
  all_goals grind [kept_mk, noiseRetire_kept, failEngine_kept, State.setUnit_kept, withdraw_kept]

theorem applyHealth_kept {ref p : Nat} {retire : Bool} {u expect addr : Nat} (h : Kept r s) :
    Kept r (applyHealth s ref p retire u expect addr).1 := by
  unfold applyHealth
  repeat' split
  all_goals grind [kept_mk, transRange_kept, retireUnit_kept, finishCmd_kept]

theorem healthGets_kept (h : Kept r s) : Kept r (healthGets s).1 := by
  unfold healthGets
  extract_lets hs rest
  exact List.foldlRecOn (motive := fun x : State × List (Nat × Nat × Nat) => Kept r x.1) hs _ (kept_mk.2 h)
    fun x hx a _ => applyHealth_kept hx

theorem writeHealth_kept {outs : List (Nat × Nat × Nat)} (h : Kept r s) : Kept r (writeHealth s outs) := by
  refine foldl_kept (fun hs => ?_) h
  split
  all_goals exact finishCmd_kept (kept_fst ‹_› (hostWrite_kept hs))

theorem execFaultSeveritySet_kept {p : Nat} {se : Bytes} : Answers s (execFaultSeveritySet p se s) :=
  ⟨_, rfl, adminCmd_kept (.refl s) fun h => kept_mk.2 h⟩

/-! ### AladaRun -/

theorem scalarWord_kept {j f : Nat} : Answers s (scalarWord j f s) := by
  unfold scalarWord
  split
  · exact execAlNop_kept
  · exact execAlDup_kept
  · exact execAlDrop_kept
  · exact execAlSwap_kept
  · exact execAlOver_kept
  · exact execAlRot_kept
  · exact execAlTor_kept
  · exact execAlFromr_kept
  · exact execAlRcopy_kept
  · exact execAlDepth_kept
  · exact execAlAdd_kept
  · exact execAlSub_kept
  · exact execAlAnd_kept
  · exact execAlOr_kept
  · exact execAlXor_kept
  · exact execAlInv_kept
  · exact execAlShl_kept
  · exact execAlShr_kept
  · exact execAlSar_kept
  · exact execAlMul_kept
  · exact execAlMulhu_kept
  · exact execAlEq_kept
  · exact execAlUlt_kept
  · exact execAlLt_kept
  · exact execAlCsel_kept
  · exact execAlFetch_kept
  · exact execAlStore_kept
  · exact execAlFetchh_kept
  · exact execAlStoreh_kept
  · exact execAlFetchb_kept
  · exact execAlStoreb_kept
  · exact execAlIfetch_kept
  · exact execAlRet_kept
  · exact execAlCallt_kept
  · exact execAlCommit_kept
  · exact execAlYield_kept
  · exact execAlEnd_kept
  · exact execUnassignedEncoding_kept

theorem svWord_kept {j w : Nat} : Answers s (svWord j w s) := by
  unfold svWord
  dsimp only
  split
  · exact execSvLd_kept
  · exact execSvSt_kept
  · exact execSvAdd_kept
  · exact execSvSub_kept
  · exact execSvMul_kept
  · exact execSvAnd_kept
  · exact execSvOr_kept
  · exact execSvXor_kept
  · exact execSvShl_kept
  · exact execSvShr_kept
  · exact execSvRotl_kept
  · exact execSvCmov_kept
  · exact execSvMov_kept
  · exact execSvZero_kept
  · exact execSvShuf_kept
  · exact execSvAesr_kept
  · exact execSvAeslr_kept
  · exact execSvClmul_kept
  · exact execSvTos_kept
  · exact execSvFroms_kept
  · exact execUnassignedEncoding_kept

theorem lvWord_kept {j w : Nat} : Answers s (lvWord j w s) := by
  unfold lvWord
  dsimp only
  split
  · exact execLvLd_kept
  · exact execLvSt_kept
  · exact execLvGather_kept
  · exact execLvScatter_kept
  · exact execLvAddm_kept
  · exact execLvSubm_kept
  · exact execLvMulm_kept
  · exact execLvPmul_kept
  · exact execLvBfly_kept
  · exact execLvComp_kept
  · exact execLvSamu_kept
  · exact execLvSamcbd_kept
  · exact execLvCmov_kept
  · exact execLvPerm_kept
  · exact execLvSad_kept
  · exact execLvSsd_kept
  · exact execLvOvb_kept
  · exact execLvMov_kept
  · exact execLvZero_kept
  · exact execLvLogic_kept
  · exact execLvAdd_kept
  · exact execUnassignedEncoding_kept

theorem aladaWord_kept {j w : Nat} : Answers s (aladaWord j w s) := by
  unfold aladaWord
  split
  · exact execUnassignedEncoding_kept
  split
  · exact scalarWord_kept
  · exact execAlLit_kept
  · exact execAlLitx_kept
  · split
    · exact execAlBr_kept
    · exact execAlBz_kept
    · exact execAlDbnz_kept
    · exact execAlBnz_kept
  · exact execAlCall_kept
  · exact execAlIn_kept
  · exact execAlOut_kept
  · exact svWord_kept
  · exact svWord_kept
  · exact lvWord_kept

theorem goesOn_kept {o : Host.Outcome State Fault Refusal} (h : Kept r s) (hf : ∀ t, o = .next t → Kept r t) :
    Kept r (goesOn o s) := by
  unfold goesOn
  split
  · exact hf _ rfl
  · exact h

theorem runOwner_kept {j x1 : Nat} {x2 : State} (h : Kept r x2) : Kept r (runOwner j x1 x2) := by
  induction x1 generalizing x2 with
  | zero => exact h
  | succ n ih =>
    unfold runOwner
    split
    · exact h
    · refine ih (goesOn_kept h fun t ht => ?_)
      obtain ⟨u, hu, hk⟩ := aladaWord_kept (j := j) (w := _) (s := x2)
      obtain rfl := Host.Outcome.next.inj (hu.symm.trans ht)
      exact h.trans hk

theorem execRoutineCall_kept {j n : Nat} : Answers s (execRoutineCall j n s) := by
  refine ⟨_, rfl, ?_⟩
  repeat' split
  all_goals grind [kept_mk, Kept.refl, noInput_kept, runOwner_kept, enterRun_kept, State.putRun_kept]

/-! ### Classical -/

theorem runDhKeygen_kept {u : Upset} {j : Job} {x3 : Bytes} (h : Kept r s) : Kept r (runDhKeygen u s j x3).1 := by
  unfold runDhKeygen
  repeat' split
  all_goals grind [kept_mk, takeFree_kept, pctFail_kept]

theorem runDhDerive_kept {j : Job} {inp : Bytes} (h : Kept r s) : Kept r (runDhDerive s j inp).1 := by
  unfold runDhDerive
  repeat' split
  all_goals grind [kept_mk]

theorem runRsaKeygen_kept {u : Upset} {j : Job} {x3 : Bytes} (h : Kept r s) : Kept r (runRsaKeygen u s j x3).1 := by
  unfold runRsaKeygen
  repeat' split
  all_goals grind [kept_mk, takeFree_kept, pctFail_kept]

theorem rsaCheckFail_kept (h : Kept r s) : Kept r (rsaCheckFail s).1 := raiseSrc_kept h

theorem runRsaSign_kept {u : Upset} {j : Job} {inp : Bytes} (h : Kept r s) : Kept r (runRsaSign u s j inp).1 := by
  unfold runRsaSign
  repeat' split
  all_goals grind [kept_mk, takeFree_kept, decided_kept, rsaCheckFail_kept]

theorem runRsaVerify_kept {u : Upset} {j : Job} {inp : Bytes} (h : Kept r s) : Kept r (runRsaVerify u s j inp).1 := by
  unfold runRsaVerify
  repeat' split
  all_goals grind [kept_mk, decided_kept]

theorem runRsaDecrypt_kept {u : Upset} {j : Job} {inp : Bytes} (h : Kept r s) : Kept r (runRsaDecrypt u s j inp).1 := by
  unfold runRsaDecrypt
  repeat' split
  all_goals grind [kept_mk, decided_kept, rsaCheckFail_kept]

theorem runRsaEncrypt_kept {j : Job} {inp : Bytes} (h : Kept r s) : Kept r (runRsaEncrypt s j inp).1 := by
  unfold runRsaEncrypt
  repeat' split
  all_goals grind [kept_mk, takeFree_kept]

/-! ### Kem -/

theorem kemPair_kept {u : Upset} {j : Job} {seed : Bytes} (h : Kept r s) : Kept r (kemPair u s j seed).1 := by
  unfold kemPair
  repeat' split
  all_goals grind [kept_mk, pctFail_kept]

theorem runKemKeygen_kept {u : Upset} {j : Job} {x3 : Bytes} (h : Kept r s) : Kept r (runKemKeygen u s j x3).1 := by
  unfold runKemKeygen
  repeat' split
  all_goals grind [kept_mk, kemPair_kept, takeFree_kept, prepare_kept]

theorem execKemKeygen_kept {j : Nat} {u : Upset} : Answers s (execKemKeygen j u s) := by
  refine ⟨_, rfl, ?_⟩
  grind [kept_mk, Kept.refl, runPart_kept, tryRow_kept, runKemKeygen_kept]

theorem runKemEncaps_kept {j : Job} {inp : Bytes} (h : Kept r s) : Kept r (runKemEncaps s j inp).1 := by
  unfold runKemEncaps
  repeat' split
  all_goals grind [kept_mk, takeFree_kept]

theorem runKemDecaps_kept {u : Upset} {j : Job} {inp : Bytes} (h : Kept r s) : Kept r (runKemDecaps u s j inp).1 :=
  decided_kept h

theorem runClientInit_kept {j : Job} {x2 : Bytes} (h : Kept r s) : Kept r (runClientInit s j x2).1 := by
  unfold runClientInit
  repeat' split
  all_goals grind [kept_mk, takeFree_kept]

theorem runServerRespond_kept {j : Job} {inp : Bytes} (h : Kept r s) : Kept r (runServerRespond s j inp).1 := by
  unfold runServerRespond
  repeat' split
  all_goals grind [kept_mk, takeFree_kept]

theorem runClientFinish_kept {u : Upset} {j : Job} {inp : Bytes} (h : Kept r s) : Kept r (runClientFinish u s j inp).1 := by
  unfold runClientFinish
  repeat' split
  all_goals grind [kept_mk, decided_kept]

/-! ### KeyJobs -/

theorem importObject_kept {j : Job} {m : Bytes} (h : Kept r s) : Kept r (importObject s j m).1 := by
  unfold importObject
  repeat' split
  all_goals grind [kept_mk, takeFree_kept]

theorem runKeyImport_kept {j : Job} {inp : Bytes} (h : Kept r s) : Kept r (runKeyImport s j inp).1 := by
  unfold runKeyImport
  repeat' split
  all_goals grind [kept_mk, importObject_kept]

theorem runKeyGenerate_kept {j : Job} {x2 : Bytes} (h : Kept r s) : Kept r (runKeyGenerate s j x2).1 := kept_mk.2 h

theorem runKeyExport_kept {j : Job} {x2 : Bytes} (h : Kept r s) : Kept r (runKeyExport s j x2).1 := h

theorem runKeyDestroy_kept {j : Job} {x2 : Bytes} (h : Kept r s) : Kept r (runKeyDestroy s j x2).1 := h

theorem dropReplicas_kept {j : Nat} (h : Kept r s) : ∀ z, dropReplicas s j = some z → Kept r z := by
  intro z hz
  unfold dropReplicas at hz
  repeat' split at hz
  · exact absurd hz nofun
  · exact Option.some.inj hz ▸ foldl_kept sendMsg_kept (State.updJob_kept h)
  · exact absurd hz nofun

theorem execKeyDestroy_kept {j : Nat} {u : Upset} : Answers s (execKeyDestroy j u s) := by
  refine ⟨_, rfl, ?_⟩
  split
  · exact dropReplicas_kept (.refl s) _ ‹_›
  · exact runJob_kept (.refl s) runKeyDestroy_kept

theorem runKeyGetPublic_kept {j : Job} {x2 : Bytes} (h : Kept r s) : Kept r (runKeyGetPublic s j x2).1 := by
  unfold runKeyGetPublic
  repeat' split
  all_goals grind [kept_mk]

theorem runCtxDerive_kept {j : Job} {inp : Bytes} (h : Kept r s) : Kept r (runCtxDerive s j inp).1 := h

theorem runCtxExport_kept {j : Job} {x2 : Bytes} (h : Kept r s) : Kept r (runCtxExport s j x2).1 := h

theorem runCtxDestroy_kept {j : Job} {x2 : Bytes} (h : Kept r s) : Kept r (runCtxDestroy s j x2).1 := h

/-! ### Mxu -/

theorem mxuAdvance_kept (h : Kept r s) : Kept r (mxuAdvance s) :=
  foldl_kept (fun hs => startStage_kept (fillContexts_kept hs)) (kept_mk.2 h)

theorem mxuIssue_kept {j : Job} {code : Nat} (h : Kept r s) : Kept r (mxuIssue s j code) := by
  unfold mxuIssue
  repeat' split
  all_goals grind [kept_mk, fillContexts_kept, finalCommit_kept, State.updJob_kept, mxuStart_kept, startStage_kept]

theorem mxuYield_kept {c : MxuCmd} (h : Kept r s) : Kept r (mxuYield s c) :=
  kept_ite h (mxuChoose_kept (State.updMxu_kept h))

theorem mxuDone_kept {c : MxuCmd} (h : Kept r s) : Kept r (mxuDone s c) := kept_ite h (mxuStart_kept (State.updMxu_kept h))

theorem mxuFault_kept {c : MxuCmd} {detected : optParam Bool true} (h : Kept r s) : Kept r (mxuFault s c detected) := by
  unfold mxuFault
  split
  · exact h
  extract_lets zs ex s1 s2 s3
  have h3 : Kept r s3 := State.updJob_kept (State.updMxu_kept (kept_mk.2 h) (r := r))
  refine mxuStart_kept (fillContexts_kept ?_)
  split
  · exact raiseSrc_kept h3
  · exact h3

theorem mxuEvent_kept {j code : Nat} {ev : MxuEvent} (h : Kept r s) : Kept r (mxuEvent s j code ev) := by
  unfold mxuEvent
  repeat' split
  all_goals grind [kept_mk, mxuIssue_kept, mxuYield_kept, mxuFault_kept, mxuDone_kept]

theorem deliverVerdict_kept {j : Nat} (h : Kept r s) : Kept r (deliverVerdict s j) := by
  unfold deliverVerdict
  repeat' split
  all_goals grind [kept_mk, fillContexts_kept, finalCommit_kept, noInput_kept, mxuStart_kept, startStage_kept,
    State.updMxu_kept, jobInput_kept]

theorem mxuFallback_kept (h : Kept r s) : Kept r (mxuFallback s) := kept_mk.2 h

theorem markFallback_kept {before : State} (h : Kept r s) : Kept r (markFallback s before) := kept_mk.2 h

theorem mxuPreempt_kept {m : Nat} (h : Kept r s) : Kept r (mxuPreempt s m) := by
  unfold mxuPreempt
  repeat' split
  all_goals grind [kept_mk, mxuYield_kept, mxuChoose_kept, mxuStart_kept, State.updMxu_kept]

theorem mxuBoundary_kept (h : Kept r s) : Kept r (mxuBoundary s) :=
  foldl_kept mxuPreempt_kept (mxuAdvance_kept (markFallback_kept (mxuFallback_kept h)))

/-! ### Micro -/

theorem State.putSeq_kept {x : Sequencer} (h : Kept r s) : Kept r (State.putSeq s x) := kept_mk.2 h

theorem microFault_kept {j : Job} {x2 : MicroHalt} (h : Kept r s) : Kept r (microFault s j x2) := by
  unfold microFault
  repeat' split
  all_goals grind [kept_mk, enterRun_kept, engineFault_kept]

theorem microStep_kept {q : Nat} {w : MicroWord} {sq : Nat} {f : Nat → List Nat → Nat × Nat → Except MicroHalt (Nat × List
    Nat)} {g : Job → State → State} (h : Kept r s) (hf : ∀ {x s}, Kept r s → Kept r (g x s)) :
    Kept r (microStep s q w sq f g) := by
  unfold microStep
  repeat' split
  all_goals grind [kept_mk, State.putSeq_kept, finalCommit_kept, microFault_kept]

theorem seqOnly_kept {x0 : Job} (h : Kept r s) : Kept r (seqOnly x0 s) := h

theorem execMicroNext_kept {q : Nat} {w : MicroWord} : Answers s (execMicroNext q w s) := by
  refine ⟨_, rfl, ?_⟩
  grind [kept_mk, Kept.refl, seqOnly_kept, microStep_kept]

theorem execMicroJump_kept {q : Nat} {w : MicroWord} : Answers s (execMicroJump q w s) := by
  refine ⟨_, rfl, ?_⟩
  grind [kept_mk, Kept.refl, seqOnly_kept, microStep_kept]

theorem execMicroMbranch_kept {q : Nat} {w : MicroWord} {c : Nat} {tagged : Bool} :
    Answers s (execMicroMbranch q w c tagged s) := by
  refine ⟨_, rfl, ?_⟩
  repeat' split
  all_goals grind [kept_mk, Kept.refl, seqOnly_kept, microStep_kept]

theorem execMicroCall_kept {q : Nat} {w : MicroWord} : Answers s (execMicroCall q w s) := by
  refine ⟨_, rfl, ?_⟩
  grind [kept_mk, Kept.refl, seqOnly_kept, microStep_kept]

theorem execMicroReturn_kept {q : Nat} {w : MicroWord} : Answers s (execMicroReturn q w s) := by
  refine ⟨_, rfl, ?_⟩
  grind [kept_mk, Kept.refl, seqOnly_kept, microStep_kept]

theorem microCommit_kept {q : Nat} {j : Job} (h : Kept r s) : Kept r (microCommit q j s) := by
  unfold microCommit
  repeat' split
  all_goals grind [kept_mk, enterRun_kept, commitPoint_kept, State.putRun_kept, mxuDone_kept]

theorem microYield_kept {q : Nat} {j : Job} (h : Kept r s) : Kept r (microYield q j s) := by
  unfold microYield
  repeat' split
  all_goals grind [kept_mk, stageCommit_kept, mxuYield_kept, enterRun_kept, State.putRun_kept]

theorem microEnd_kept {q : Nat} {j : Job} (h : Kept r s) : Kept r (microEnd q j s) := by
  unfold microEnd
  repeat' split
  all_goals grind [kept_mk, finalCommit_kept, enterRun_kept, State.putRun_kept, mxuDone_kept]

theorem execMicroCommit_kept {q : Nat} {w : MicroWord} : Answers s (execMicroCommit q w s) := by
  refine ⟨_, rfl, ?_⟩
  grind [kept_mk, Kept.refl, microCommit_kept, microStep_kept]

theorem execMicroYield_kept {q : Nat} {w : MicroWord} : Answers s (execMicroYield q w s) := by
  refine ⟨_, rfl, ?_⟩
  grind [kept_mk, Kept.refl, microYield_kept, microStep_kept]

theorem execMicroEnd_kept {q : Nat} {w : MicroWord} : Answers s (execMicroEnd q w s) := by
  refine ⟨_, rfl, ?_⟩
  grind [kept_mk, Kept.refl, microStep_kept, microEnd_kept]

theorem execMicroXjump_kept {q : Nat} {w : MicroWord} : Answers s (execMicroXjump q w s) := by
  refine ⟨_, rfl, ?_⟩
  grind [kept_mk, Kept.refl, seqOnly_kept, microStep_kept]

theorem execMicroXcall_kept {q : Nat} {w : MicroWord} : Answers s (execMicroXcall q w s) := by
  refine ⟨_, rfl, ?_⟩
  grind [kept_mk, Kept.refl, seqOnly_kept, microStep_kept]

theorem execMicroWait_kept {q : Nat} {w : MicroWord} {c : Nat} {tagged : Bool} :
    Answers s (execMicroWait q w c tagged s) := by
  refine ⟨_, rfl, ?_⟩
  repeat' split
  all_goals grind [kept_mk, Kept.refl, seqOnly_kept, microStep_kept]

theorem execMicroDispatch_kept {q : Nat} {w : MicroWord} : Answers s (execMicroDispatch q w s) := by
  refine ⟨_, rfl, ?_⟩
  repeat' split
  all_goals grind [kept_mk, Kept.refl, seqOnly_kept, microStep_kept]

/-! ### Grafts -/

theorem imageAlarm_kept {split : Bool} {x2 : Except Nat Bytes} (h : Kept r s) : Kept r (imageAlarm s split x2) := by
  unfold imageAlarm
  repeat' split
  all_goals grind [kept_mk, glitchAlarm_kept]

theorem loadLibrary_kept {b : Bytes} (h : Kept r s) : Kept r (loadLibrary s b) := by
  unfold loadLibrary
  repeat' split
  all_goals grind [kept_mk]

theorem loadVendor_kept {slot : Nat} {raw b : Bytes} (h : Kept r s) : Kept r (loadVendor s slot raw b) :=
  loadLibrary_kept (kept_mk.2 h)

theorem trySlot_kept {slot : Nat} {glitch : Option Nat} (h : Kept r s) : Kept r (trySlot s slot glitch).1 := by
  unfold trySlot
  extract_lets raw split1 res s1 g
  have h1 : Kept r s1 := imageAlarm_kept h
  clear_value s1 res
  cases res with
  | error e => exact emit_kept (kept_mk.2 h1)
  | ok b => exact loadVendor_kept (kept_mk.2 h1)

theorem loadRoutine_kept {code e : Bytes} (h : Kept r s) : Kept r (loadRoutine code s e) := by
  unfold loadRoutine
  repeat' split
  all_goals grind [kept_mk, takeFreeNat_kept, emit_kept]

theorem loadBundle_kept {glitch : Option Nat} (h : Kept r s) : Kept r (loadBundle s glitch) := by
  unfold loadBundle
  split
  · exact h
  extract_lets raw split1 res s1 g
  have h1 : Kept r s1 := imageAlarm_kept h
  clear_value s1 res
  cases res with
  | error e => exact emit_kept h1
  | ok b => exact foldl_kept loadRoutine_kept (kept_mk.2 h1)

theorem loadOwner_kept {glitch : Option Nat} (h : Kept r s) : Kept r (loadOwner s glitch) := by
  unfold loadOwner
  repeat' split
  all_goals grind [kept_mk, imageAlarm_kept, loadLibrary_kept]

theorem loadGrafts_kept {glitch : Option Nat} (h : Kept r s) : Kept r (loadGrafts s glitch) := by
  unfold loadGrafts
  grind [kept_mk, loadBundle_kept, emit_kept, raiseSrc_kept, trySlot_kept, loadOwner_kept]

theorem floorRaise_kept {torn : Bool} (h : Kept r s) : Kept r (floorRaise s torn) := by
  unfold floorRaise
  dsimp only
  split
  · exact h
  split
  · exact kept_mk.2 (takeFreeBool_kept h)
  split
  · exact kept_mk.2 h
  · exact emit_kept (kept_mk.2 h)

theorem endStage_kept {st : StageState} {reason : Nat} (h : Kept r s) : Kept r (endStage s st reason) := kept_mk.2 h

theorem setStageTarget_kept {v : Nat} (h : Kept r s) : Kept r (setStageTarget s v) := kept_mk.2 h

theorem execGraftStageOpen_kept {p value : Nat} : Answers s (execGraftStageOpen p value s) := by
  refine ⟨_, rfl, ?_⟩
  repeat' split
  all_goals grind [kept_mk, Kept.refl, setStageTarget_kept, endStage_kept]

theorem execGraftStageData_kept {p value : Nat} : Answers s (execGraftStageData p value s) := by
  refine ⟨_, rfl, ?_⟩
  repeat' split
  all_goals grind [kept_mk, Kept.refl, endStage_kept]

theorem execGraftStageCommit_kept {p : Nat} {x : Nat × Bool} : Answers s (execGraftStageCommit p x s) := by
  refine ⟨_, rfl, ?_⟩
  repeat' split
  all_goals grind [kept_mk, Kept.refl, imageAlarm_kept, setStageTarget_kept, endStage_kept]

theorem execGraftStageAbandon_kept {p value : Nat} : Answers s (execGraftStageAbandon p value s) := by
  refine ⟨_, rfl, ?_⟩
  repeat' split
  all_goals grind [kept_mk, Kept.refl, setStageTarget_kept, endStage_kept]

theorem putSlot_kept {slot : Nat} {b : Bytes} (h : Kept r s) : Kept r (putSlot s slot b) := by
  unfold putSlot
  repeat' split
  all_goals grind [kept_mk]

theorem execGraftStageDone_kept {ok : Bool} : Answers s (execGraftStageDone ok s) := by
  refine ⟨_, rfl, ?_⟩
  repeat' split
  all_goals grind [kept_mk, Kept.refl, putSlot_kept, takeFree_kept, endStage_kept]

theorem execGraftInfo_kept {p : Nat} {se : Bytes} : Answers s (execGraftInfo p se s) := by
  refine ⟨_, rfl, ?_⟩
  grind [kept_mk, Kept.refl, adminCmd_kept, adminOutput_kept]

/-! ### Registers -/

theorem cfgReject_kept {p off : Nat} (h : Kept r s) : Kept r (cfgReject s p off) := emit_kept (kept_mk.2 h)

theorem writeAdmq_kept {p off v : Nat} (h : Kept r s) : Kept r (writeAdmq s p off v) := by
  unfold writeAdmq
  repeat' split
  all_goals grind [kept_mk, cfgReject_kept, State.updPort_kept]

theorem writeSelector_kept {p off v : Nat} (h : Kept r s) : Kept r (writeSelector s p off v) := kept_mk.2 h

theorem writeInject_kept {p off v : Nat} (h : Kept r s) : Kept r (writeInject s p off v) := by
  unfold writeInject
  repeat' split
  all_goals grind [kept_mk]

theorem writeHwdStatus_kept {v : Nat} (h : Kept r s) : Kept r (writeHwdStatus s v) := kept_mk.2 h

theorem writeRate_kept {p v : Nat} (h : Kept r s) : Kept r (writeRate s p v) := kept_ite h (kept_mk.2 h)

theorem writeSnapList_kept {p v : Nat} (h : Kept r s) : Kept r (writeSnapList s p v) := kept_ite h (kept_mk.2 h)

theorem writeReg_kept {p off v : Nat} (h : Kept r s) : Kept r (writeReg s p off v) := by
  unfold writeReg
  repeat' split
  all_goals grind [kept_mk, cfgReject_kept, writeInject_kept, writeSnapList_kept, writeAdmq_kept, addChange_kept,
    writeRate_kept, writeSelector_kept, setStageTarget_kept, writeHwdStatus_kept, State.updPort_kept]

theorem execRegisterWrite_kept {p off width value : Nat} : Answers s (execRegisterWrite p off width value s) := by
  refine ⟨_, rfl, ?_⟩
  repeat' split
  all_goals grind [kept_mk, Kept.refl, writeReg_kept]

theorem answerReg_kept {p off : Nat} (h : Kept r s) : Kept r (answerReg s p off) := kept_mk.2 h

theorem execTickCountLoRead_kept {p : Nat} : Answers s (execTickCountLoRead p s) := by
  refine ⟨_, rfl, ?_⟩
  repeat' split
  all_goals grind [kept_mk, Kept.refl, answerReg_kept, State.updPort_kept]

theorem execHwdTimeLoRead_kept {p : Nat} : Answers s (execHwdTimeLoRead p s) := by
  refine ⟨_, rfl, ?_⟩
  repeat' split
  all_goals grind [kept_mk, Kept.refl, answerReg_kept, State.updPort_kept]

theorem execTetherTickOffLoRead_kept {p : Nat} : Answers s (execTetherTickOffLoRead p s) := by
  refine ⟨_, rfl, ?_⟩
  repeat' split
  all_goals grind [kept_mk, Kept.refl, answerReg_kept, State.updPort_kept]

theorem execSpecCounterLoRead_kept {p k : Nat} : Answers s (execSpecCounterLoRead p k s) := by
  refine ⟨_, rfl, ?_⟩
  repeat' split
  all_goals grind [kept_mk, Kept.refl, answerReg_kept, State.updPort_kept]

theorem execPerfCounterLoRead_kept {p k : Nat} : Answers s (execPerfCounterLoRead p k s) := by
  refine ⟨_, rfl, ?_⟩
  repeat' split
  all_goals grind [kept_mk, Kept.refl, answerReg_kept, State.updPort_kept]

theorem execHealthEpochRead_kept {p lag : Nat} : Answers s (execHealthEpochRead p lag s) := by
  refine ⟨_, rfl, ?_⟩
  repeat' split
  all_goals grind [kept_mk, Kept.refl, State.updPort_kept]

theorem execAdmqSqDb_kept {p value : Nat} : Answers s (execAdmqSqDb p value s) := by
  refine ⟨_, rfl, ?_⟩
  repeat' split
  all_goals grind [kept_mk, Kept.refl, State.updPort_kept]

theorem execHwdTmpCfgWrite_kept {p value : Nat} : Answers s (execHwdTmpCfgWrite p value s) := by
  refine ⟨_, rfl, ?_⟩
  repeat' split
  all_goals grind [kept_mk, Kept.refl, cfgReject_kept, addChange_kept]

theorem clearRecorder_kept {p : Nat} (h : Kept r s) : Kept r (clearRecorder s p) := by
  unfold clearRecorder
  repeat' split
  all_goals grind [kept_mk, cfgReject_kept]

theorem writeRecCtrl_kept {p value : Nat} (h : Kept r s) : Kept r (writeRecCtrl s p value) := by
  unfold writeRecCtrl
  repeat' split
  all_goals grind [kept_mk, clearRecorder_kept, flushRecorder_kept, writeSelector_kept]

theorem execHwdSnapManual_kept {p value : Nat} : Answers s (execHwdSnapManual p value s) := by
  refine ⟨_, rfl, ?_⟩
  repeat' split
  all_goals grind [kept_mk, Kept.refl, writeReg_kept, snapTrigger_kept]

theorem execThrottleClear_kept {p value : Nat} : Answers s (execThrottleClear p value s) := by
  refine ⟨_, rfl, ?_⟩
  repeat' split
  all_goals grind [kept_mk, Kept.refl, writeHwdStatus_kept]

/-! ### Heartwood -/

theorem recorderDue_kept (h : Kept r s) : Kept r (recorderDue s) := kept_ite (kept_mk.2 h) h

theorem backupTime_kept (h : Kept r s) : Kept r (backupTime s) := kept_ite h (kept_mk.2 (takeFreeNat_kept h))

theorem execTamperSample_kept {ch : Nat} {ev : Bool} {detail lights : Nat} :
    Answers s (execTamperSample ch ev detail lights s) := by
  refine ⟨_, rfl, ?_⟩
  repeat' split
  all_goals grind [kept_mk, Kept.refl, backupTime_kept]

theorem eraseSessions_kept (h : Kept r s) : Kept r (eraseSessions s) := kept_mk.2 h

theorem eraseKeys_kept (h : Kept r s) : Kept r (eraseKeys s) := kept_mk.2 h

theorem rankSeen_kept {x1 : Nat} (h : Kept r s) : Kept r (rankSeen s x1) := kept_ite h (kept_mk.2 h)

theorem respond_kept {x1 : Nat} (h : Kept r s) : Kept r (respond s x1) := by
  unfold respond
  extract_lets s1 s2 s3 w s4
  have h1 : Kept r s1 := rankSeen_kept h
  have h2 : Kept r s2 := by
    unfold s2
    split
    · exact eraseSessions_kept h1
    · exact h1
  have h3 : Kept r s3 := by
    unfold s3
    split
    · exact eraseKeys_kept h2
    · exact h2
  have h4 : Kept r s4 := by
    unfold s4
    split
    · exact kept_mk.2 h3
    · exact h3
  split
  · split
    · exact eraseKeys_kept h1
    · exact h1
  · refine raiseSrc_kept ?_
    split
    · exact snapTrigger_kept h4
    · exact h4

theorem tamperRecords_kept {fs : List Firing} {x2 : Nat} {disagree : Bool} (h : Kept r s) :
    Kept r (tamperRecords s fs x2 disagree) :=
  foldl_kept (fun hs => kept_mk.2 (emit_kept hs)) h

theorem execTamperDecision_kept {second : Option Nat} : Answers s (execTamperDecision second s) := by
  refine ⟨_, rfl, ?_⟩
  repeat' split
  all_goals grind [kept_mk, Kept.refl, tamperRecords_kept, flushRecorder_kept, respond_kept]

theorem execSupplySourceChange_kept {vdd : Bool} {vbak : Nat} : Answers s (execSupplySourceChange vdd vbak s) := by
  refine ⟨_, rfl, ?_⟩
  repeat' split
  all_goals grind [kept_mk, Kept.refl, backupTime_kept, tearWrites_kept]

theorem powerStop_kept (h : Kept r s) : Kept r (powerStop s) := by
  unfold powerStop
  split
  · exact h
  extract_lets n w dp s1 s2 w2 sn
  have h2 : Kept r s2 := flushRecorder_kept (emit_kept (stopCore_kept (kept_mk.2 h)))
  exact kept_ite (takeSnapshot_kept (kept_mk.2 h2)) h2

theorem composeDump_kept (h : Kept r s) : Kept r (composeDump s) := by
  unfold composeDump
  split
  · exact h
  · exact kept_mk.2 (takeFreeNat_kept (takeFree_kept h))

theorem attestSign_kept {ctx body : Bytes} (h : Kept r s) : Kept r (attestSign s ctx body).1 := takeFree_kept h

theorem dumpImage_kept {len : Nat} (h : Kept r s) : Kept r (dumpImage s len).1 := by
  rw [dumpImage, attestSign_fst]
  exact takeFree_kept h

theorem writePages_kept {inst : Nat} {x2 : List (Nat × Nat)} {x3 : Bytes} (h : Kept r s) :
    Kept r (writePages s inst x2 x3).1 := by
  induction x2 generalizing s x3 with
  | nil => exact h
  | cons p ps ih =>
    unfold writePages
    repeat' split
    all_goals grind [hostWrite_kept]

theorem dumpFailed_kept {reason iova : Nat} (h : Kept r s) : Kept r (dumpFailed s reason iova) := emit_kept (kept_mk.2 h)

theorem execFatalStateDump_kept : Answers s (execFatalStateDump s) := by
  refine ⟨_, rfl, kept_ite (.refl s) ?_⟩
  extract_lets w dp s1 s2
  have h1 : Kept s s1 := kept_mk.2 (.refl s)
  have h2 : Kept s s2 := composeDump_kept h1
  refine kept_ite (dumpFailed_kept h1) ?_
  split
  · exact dumpFailed_kept h2
  refine kept_ite (dumpFailed_kept h2) ?_
  split
  rename_i hd
  have h3 := kept_fst hd (dumpImage_kept h2)
  split <;> rename_i hp
  · exact dumpFailed_kept (kept_fst hp (writePages_kept h3))
  have h4 := kept_fst hp (writePages_kept h3)
  split <;> rename_i hw
  · exact dumpFailed_kept (kept_fst hw (hostWrite_kept h4))
  · exact emit_kept (kept_mk.2 (kept_fst hw (hostWrite_kept h4)))

/-! ### Devices -/

theorem faultSlice_kept {j : Nat} (h : Kept r s) : Kept r (faultSlice s j) := State.updJob_kept (abandonSlice_kept h)

theorem faultEngine_kept {e : Nat} (h : Kept r s) : Kept r (faultEngine s e) :=
  foldl_kept faultSlice_kept (abandonParts_kept h)

theorem faultMxu_kept {m : Nat} (h : Kept r s) : Kept r (faultMxu s m) := by
  unfold faultMxu
  repeat' split
  all_goals grind [kept_mk, mxuFault_kept, raiseSrc_kept]

theorem faultRecord_kept {j : Nat} (h : Kept r s) : Kept r (faultRecord s j) := by
  unfold faultRecord
  repeat' split
  all_goals grind [kept_mk, failJob_kept, raiseSrc_kept, State.updRun_kept, faultSlice_kept]

theorem execEccError_kept {e : EccError} : Answers s (execEccError e s) := by
  refine ⟨_, rfl, ?_⟩
  repeat' split
  all_goals grind [kept_mk, Kept.refl, faultRecord_kept, safeCore_kept, raiseCore_kept, raiseSrc_kept, faultMxu_kept,
    faultEngine_kept, raise_kept, State.updMxu_kept, faultSlice_kept]

theorem pllAbandon_kept (h : Kept r s) : Kept r (pllAbandon s) :=
  kept_mk.2 (foldl_kept faultSlice_kept (foldl_kept abandonParts_kept (kept_mk.2 h)))

theorem pllLoss_kept {i : Nat} {inj : Bool} (h : Kept r s) : Kept r (pllLoss s i inj) := by
  unfold pllLoss
  grind [kept_mk, safeCore_kept, raiseAs_kept, pllAbandon_kept]

theorem stewardDiffer_kept {inj : Bool} (h : Kept r s) : Kept r (stewardDiffer s inj) := by
  unfold stewardDiffer
  repeat' split
  all_goals grind [kept_mk, raiseAs_kept, snapTrigger_kept]

theorem stewardMismatch_kept (h : Kept r s) : Kept r (stewardMismatch s) := kept_ite h (stewardDiffer_kept h)

theorem vaultLoss_kept {c : Nat} {inj : Bool} (h : Kept r s) : Kept r (vaultLoss s c inj) := by
  unfold vaultLoss
  grind [kept_mk, safeCore_kept, raiseAs_kept]

theorem serveWaiting_kept (h : Kept r s) : Kept r (serveWaiting s) := serveRequests_kept h

theorem giveBlock_kept {i : Nat} {b : Bytes} (h : Kept r s) : Kept r (giveBlock s i b) := serveWaiting_kept (kept_mk.2 h)

theorem noiseFail_kept {i : Nat} {n : Noise} {inj : Bool} (h : Kept r s) : Kept r (noiseFail s i n inj) := by
  unfold noiseFail
  grind [kept_mk, raiseAs_kept]

theorem execNoiseSample_kept {i : Nat} {b : Bool} : Answers s (execNoiseSample i b s) := by
  refine ⟨_, rfl, ?_⟩
  repeat' split
  all_goals grind [kept_mk, Kept.refl, giveBlock_kept, noiseFail_kept]

theorem execNoiseReadmit_kept {i : Nat} : Answers s (execNoiseReadmit i s) := by
  refine ⟨_, rfl, ?_⟩
  repeat' split
  all_goals grind [kept_mk, Kept.refl, serveWaiting_kept, State.updateUnit_kept]

theorem drbgReseed_kept {g : Nat} (h : Kept r s) : Kept r (drbgReseed s g) := by
  unfold drbgReseed
  repeat' split
  all_goals grind [kept_mk, askBlock_kept, takeBlock_kept]

theorem drbgFail_kept {g : Nat} {inj : Bool} (h : Kept r s) : Kept r (drbgFail s g inj) := raiseAs_kept (kept_mk.2 h)

theorem drbgErrorDue_kept {g : Nat} (h : Kept r s) : Kept r (drbgErrorDue s g) := by
  unfold drbgErrorDue
  repeat' split
  all_goals grind [kept_mk, drbgFail_kept]

theorem execThrottleUpdate_kept {mw : Nat} {quiet back : Bool} : Answers s (execThrottleUpdate mw quiet back s) := by
  refine ⟨_, rfl, ?_⟩
  repeat' split
  all_goals grind [kept_mk, Kept.refl]

theorem execThermalLimitUpdate_kept : Answers s (execThermalLimitUpdate s) := by
  refine ⟨_, rfl, ?_⟩
  repeat' split
  all_goals grind [kept_mk, Kept.refl]

theorem takeTj_kept {tj : Int} (h : Kept r s) : Kept r (takeTj s tj) := by
  unfold takeTj
  grind [kept_mk, raiseSrc_kept]

theorem execEnvelopeSetQuery_kept {p : Nat} {se : Bytes} : Answers s (execEnvelopeSetQuery p se s) :=
  ⟨_, rfl, adminCmd_kept (.refl s) fun h => h⟩

theorem execEnvelopeSet_kept {p : Nat} {se : Bytes} : Answers s (execEnvelopeSet p se s) :=
  ⟨_, rfl, adminCmd_kept (.refl s) fun h => kept_mk.2 h⟩

theorem applyEnvelope_kept {ref e : Nat} (h : Kept r s) : Kept r (applyEnvelope s ref e) := finishCmd_kept (kept_mk.2 h)

theorem aliveToggle_kept (h : Kept r s) : Kept r (aliveToggle s) := kept_ite (kept_mk.2 h) h

theorem mgRead_kept {late : Bool} {n v : Nat} (h : Kept r s) : Kept r (mgRead s late n v) := kept_ite h (kept_mk.2 h)

/-! ### Shelf -/

theorem shelfWrite_kept {idx : Nat} (h : Kept r s) : Kept r (shelfWrite s idx) := by
  unfold shelfWrite
  repeat' split
  all_goals grind [kept_mk, takeFree_kept, State.updKey_kept]

theorem bootVault_kept {flash : List (Nat × Nat × Byte)} (h : Kept r s) : Kept r (bootVault s flash) := by
  unfold bootVault
  repeat' split
  all_goals grind [kept_mk, takeFree_kept, emit_kept, syncVault_kept]

/-! ### Boot -/

theorem coldStart_kept (h : Kept r s) : Kept r (coldStart s) := kept_mk.2 h

theorem flushRetention_kept (h : Kept r s) : Kept r (flushRetention s) := foldl_kept (fun hs => kept_mk.2 hs) (kept_mk.2 h)

theorem heartwoodKey_kept (h : Kept r s) : Kept r (heartwoodKey s) := by
  unfold heartwoodKey
  repeat' split
  all_goals grind [kept_mk, takeFree_kept, emit_kept]

theorem bootHeartwood_kept {byReset : Bool} (h : Kept r s) : Kept r (bootHeartwood s byReset) := by
  unfold bootHeartwood
  repeat' split
  all_goals grind [kept_mk, heartwoodKey_kept, emit_kept, flushRetention_kept]

theorem wipeAll_kept (h : Kept r s) : Kept r (wipeAll s) := kept_mk.2 h

theorem tryFirmware_kept {slot : Option FwSlot} {split : Bool} (h : Kept r s) : Kept r (tryFirmware s slot split).1 := by
  unfold tryFirmware
  repeat' split
  all_goals grind [kept_mk, glitchAlarm_kept]

theorem bootFirmware_kept {env : BootEnv} (h : Kept r s) : Kept r (bootFirmware s env).1 := by
  unfold bootFirmware
  grind [kept_mk, tryFirmware_kept]

theorem bootBist_kept {failed : List Nat} {recovery : Bool} (h : Kept r s) : Kept r (bootBist s failed recovery) :=
  refreshMxus_kept (foldl_kept refreshGrove_kept (kept_mk.2 h))

theorem bootReady_kept (h : Kept r s) : Kept r (bootReady s) := kept_mk.2 h

theorem bootRest_kept {env : BootEnv} (h : Kept r s) : Kept r (bootRest s env) := by
  unfold bootRest
  refine kept_ite (kept_mk.2 h) ?_
  split
  extract_lets env0 po pi li s1 fl rec
  have h1 : Kept r s1 := kept_mk.2 h
  refine kept_ite (kept_mk.2 h1) (kept_ite h1 ?_)
  split
  · exact kept_mk.2 (kept_fst ‹_› (bootFirmware_kept h1))
  · have h2 := kept_fst ‹_› (bootFirmware_kept h1)
    extract_lets pi li s3 s4 s5 s6
    have h4 : Kept r s4 := kept_ite (kept_mk.2 h2) (loadGrafts_kept (kept_mk.2 h2))
    have h5 : Kept r s5 := bootBist_kept h4
    exact bootReady_kept (kept_ite h5 (bootVault_kept h5))

theorem boot_kept {env : BootEnv} {byReset : Bool} (h : Kept r s) : Kept r (boot s env byReset) := by
  unfold boot
  grind [kept_mk, bootHeartwood_kept, bootRest_kept, wipeAll_kept, coldStart_kept]

theorem execPwrFailNRelease_kept {env : BootEnv} : Answers s (execPwrFailNRelease env s) := by
  refine ⟨_, rfl, ?_⟩
  grind [kept_mk, Kept.refl, bootRest_kept]

theorem lockoutExpiry_kept (h : Kept r s) : Kept r (lockoutExpiry s) := by
  unfold lockoutExpiry
  repeat' split
  all_goals grind [kept_mk]

/-! ### Lifecycle -/

theorem lcsMismatch_kept (h : Kept r s) : Kept r (lcsMismatch s) := kept_mk.2 h

theorem setField_kept {target : Nat} {f : Nat × Nat → Nat × Nat} (h : Kept r s) : Kept r (setField s target f) := kept_mk.2 h

theorem copyKey_kept (h : Kept r s) : Kept r (copyKey s) := kept_ite (kept_mk.2 h) h

theorem lcsActions_kept {target : Nat} (h : Kept r s) : Kept r (lcsActions s target) := by
  unfold lcsActions
  repeat' split
  all_goals grind [kept_mk, eraseKeys_kept, eraseSessions_kept, copyKey_kept, takeFree_kept]

theorem lcsTorn_kept {target : Nat} {u : LcsUpset} (h : Kept r s) : Kept r (lcsTorn s target u).1 := by
  unfold lcsTorn
  repeat' split
  all_goals grind [kept_mk, powerStop_kept]

theorem lcsProgram_kept {target : Nat} {block : Bytes} {u : LcsUpset} (h : Kept r s) :
    Kept r (lcsProgram s target block u).1 := by
  unfold lcsProgram
  split
  · exact lcsTorn_kept (setField_kept (kept_mk.2 h))
  extract_lets l1 s1 l2 o2 s2 l3 s3 s4 l4 s5 l5
  have h1 : Kept r s1 := setField_kept (kept_mk.2 h)
  have h2 : Kept r s2 := kept_ite (kept_mk.2 h1) h1
  have h3 : Kept r s3 := kept_mk.2 h2
  have h4 : Kept r s4 := lcsActions_kept h3
  split
  · exact kept_mk.2 h1
  split
  · exact lcsTorn_kept (kept_mk.2 h1)
  split
  · exact lcsTorn_kept (kept_ite h3 h4)
  split
  · exact lcsTorn_kept (setField_kept (kept_mk.2 h4))
  · exact kept_mk.2 (setField_kept h4)

theorem lcsToken2_kept {se block : Bytes} {u : LcsUpset} (h : Kept r s) : Kept r (lcsToken2 s se block u).1 := by
  unfold lcsToken2
  repeat' split
  all_goals grind [kept_mk, glitchAlarm_kept, lcsProgram_kept, lcsMismatch_kept]

theorem lcsNote_kept {x0 : State × Reply} (h : Kept r x0.1) : Kept r (lcsNote x0).1 := by
  unfold lcsNote
  repeat' split
  all_goals grind [kept_mk]

theorem lcsRun_kept {p : Nat} {se : Bytes} {u : LcsUpset} (h : Kept r s) : Kept r (lcsRun s p se u).1 := by
  unfold lcsRun
  repeat' split
  all_goals grind [kept_mk, hostRead_kept, lcsToken2_kept]

theorem execLcsTransition_kept {p : Nat} {se : Bytes} {u : LcsUpset} : Answers s (execLcsTransition p se u s) := by
  refine ⟨_, rfl, ?_⟩
  grind [kept_mk, Kept.refl, lcsNote_kept, lcsRun_kept, adminRow_kept]

theorem enterScrap_kept (h : Kept r s) : Kept r (enterScrap s) := kept_mk.2 (stopCore_kept h)

theorem execJtagLcsCmd_kept {params : Bytes} {u : LcsUpset} : Answers s (execJtagLcsCmd params u s) := by
  refine ⟨_, rfl, ?_⟩
  grind [kept_mk, Kept.refl, enterScrap_kept, lcsNote_kept, lcsToken2_kept]

theorem attestOut_kept {nonce : Bytes} {keys : Bool} (h : Kept r s) : Kept r (attestOut s nonce keys).1 := by
  rw [attestOut, attestSign_fst]
  exact takeFree_kept h

theorem execAttest_kept {p : Nat} {se : Bytes} : Answers s (execAttest p se s) := by
  refine ⟨_, rfl, ?_⟩
  grind [kept_mk, Kept.refl, adminRow_kept, attestOut_kept, adminOutput_kept]

theorem execDbgResponse_kept {x0 : Bytes} {glitch : Bool} : Answers s (execDbgResponse x0 glitch s) := by
  refine ⟨_, rfl, ?_⟩
  repeat' split
  all_goals grind [kept_mk, Kept.refl, glitchAlarm_kept]

/-! ### AladaM -/

theorem mRead_kept {a : Nat} (h : Kept r s) : Kept r (mRead s a).1 := by
  unfold mRead
  repeat' split
  all_goals grind [kept_mk, takeFreeNat_kept]

theorem mWrite_kept {a : Nat} {v : Word} (h : Kept r s) : Kept r (mWrite s a v) := by
  unfold mWrite
  repeat' split
  all_goals grind [kept_mk]

theorem mAt_kept {a : Nat} (h : Kept r s) : ∀ z, mAt s a = some z → Kept r z.1 := by
  unfold mAt
  repeat' split
  all_goals grind [kept_mk]

theorem mForm_kept {sp ext : Nat} (h : Kept r s) : ∀ z, mForm s sp ext = some z → Kept r z.1 := by
  intro z hz
  unfold mForm at hz
  dsimp only at hz
  split at hz
  · cases hz
  split at hz
  · cases hz
    exact h
  · cases hz
    exact h
  · exact mAt_kept h z hz
  · split at hz
    · exact mAt_kept (mRead_kept h) z hz
    · cases hz
  · exact mAt_kept h z hz
  · exact mAt_kept h z hz
  all_goals
    split at hz
    · cases hz
    · exact mAt_kept (mWrite_kept h) z hz

theorem mVal_kept {x1 : MLoc} (h : Kept r s) : Kept r (mVal s x1).1 := by
  unfold mVal
  repeat' split
  all_goals grind [kept_mk, mRead_kept]

theorem mRun_kept {k : Nat} {o : MOps} {body : State → MLoc → MLoc → MLoc → Option State} (h : Kept r s) (hf : ∀ {s a b c t},
    Kept r s → body s a b c = some t → Kept r t) :
    Kept r (mRun k o body s) := by
  unfold mRun
  split
  · exact h
  extract_lets zero form words res
  have hform : ∀ {i s sp ext z}, Kept r s → form i s sp ext = some z → Kept r z.1 := by
    intro i s sp ext z hs hz
    unfold form at hz
    split at hz
    · exact mForm_kept hs z hz
    · cases hz
      exact hs
  rcases ht : res with _ | t
  · exact stewardMismatch_kept h
  · unfold res at ht
    split at ht
    · cases ht
    · simp only [Option.bind_eq_bind, Option.bind_eq_some_iff] at ht
      obtain ⟨⟨s1, a⟩, h1, ⟨s2, b⟩, h2, ⟨s3, c⟩, h3, h4⟩ := ht
      exact hf (kept_mk.2 (hform (hform (hform h h1) h2) h3)) h4

theorem mStore_kept {d : MLoc} {v : Word} (h : Kept r s) : ∀ z, mStore s d v = some z → Kept r z := by
  unfold mStore
  repeat' split
  all_goals grind [kept_mk, mWrite_kept]

theorem mAlu_kept {f : Word → Word → Word} {o : MOps} (h : Kept r s) : Kept r (mAlu f o s) :=
  mRun_kept h fun hs => mStore_kept (mVal_kept (mVal_kept hs)) _

theorem mBranch_kept {f : Word → Word → Bool} {o : MOps} (h : Kept r s) : Kept r (mBranch f o s) := by
  unfold mBranch
  grind [kept_mk, mVal_kept, mRun_kept]

theorem mCopy_kept {x0 x1 x2 : Nat} {x3 : State} (h : Kept r x3) : Kept r (mCopy x0 x1 x2 x3) := by
  induction x0 generalizing x1 x2 x3 with
  | zero => exact h
  | succ n ih => exact ih (mWrite_kept (mRead_kept h))

theorem mFill_kept {x0 x1 : Nat} {x2 : Word} {x3 : State} (h : Kept r x3) : Kept r (mFill x0 x1 x2 x3) := by
  induction x0 generalizing x1 x3 with
  | zero => exact h
  | succ n ih => exact ih (mWrite_kept h)

theorem execAladaMJmp_kept {o : MOps} : Answers s (execAladaMJmp o s) := by
  refine ⟨_, rfl, ?_⟩
  grind [kept_mk, Kept.refl, mVal_kept, mRun_kept]

theorem execAladaMCopy_kept {o : MOps} : Answers s (execAladaMCopy o s) := by
  refine ⟨_, rfl, ?_⟩
  grind [kept_mk, Kept.refl, mVal_kept, mCopy_kept, mRun_kept]

theorem execAladaMFill_kept {o : MOps} : Answers s (execAladaMFill o s) := by
  refine ⟨_, rfl, ?_⟩
  grind [kept_mk, Kept.refl, mVal_kept, mFill_kept, mRun_kept]

theorem execAladaMWait_kept {o : MOps} : Answers s (execAladaMWait o s) := by
  refine ⟨_, rfl, mRun_kept (.refl s) fun {t m _ _ u} hs hu => ?_⟩
  split at hu <;> cases hu
  · exact mVal_kept hs
  · exact .refl s

theorem execAladaMLea_kept {o : MOps} : Answers s (execAladaMLea o s) := by
  refine ⟨_, rfl, ?_⟩
  grind [kept_mk, Kept.refl, mStore_kept, mRun_kept]

/-! ### Ports -/

theorem configRead_kept {fn off : Nat} (h : Kept r s) : Kept r (configRead s fn off).1 := by
  unfold configRead
  repeat' split
  all_goals grind [kept_mk, takeFreeNat_kept]

theorem execConfigRequest_kept {p fn : Nat} {a : CfgAccess} : Answers s (execConfigRequest p fn a s) := by
  refine ⟨_, rfl, ?_⟩
  repeat' split
  all_goals grind [kept_mk, Kept.refl, State.putMsix_kept, configRead_kept, State.updPort_kept]

theorem resetFn_kept {sel : Nat → Bool} (h : Kept r s) : Kept r (resetFn s sel) := kept_mk.2 h

theorem execBusMasterDisable_kept {fn : Nat × Bool} : Answers s (execBusMasterDisable fn s) := by
  refine ⟨_, rfl, ?_⟩
  grind [kept_mk, Kept.refl, State.updPort_kept]

theorem sendPending_kept (h : Kept r s) : Kept r (sendPending s) := by
  refine foldl_kept (fun hs => ?_) h
  dsimp only
  split
  · exact hs
  · exact foldl_kept (fun ht => State.putMsix_kept (sendFn_kept ht)) hs

theorem readFailed_kept {f : ReadFor} (h : Kept r s) : Kept r (readFailed s f) := by
  unfold readFailed
  repeat' split
  all_goals grind [kept_mk, finalCommit_kept, specInc_kept, State.updSq_kept]

theorem portEvent_kept {p b : Nat} (h : Kept r s) : Kept r (portEvent s p b) := kept_mk.2 h

theorem noData_kept {p k : Nat} {f : ReadFor} (h : Kept r s) : Kept r (noData s p k f) := by
  unfold noData
  repeat' split
  all_goals grind [kept_mk, readFailed_kept, portEvent_kept]

theorem execHostReadCompletion_kept {p : Nat} {f : ReadFor} {c : Cpl} : Answers s (execHostReadCompletion p f c s) := by
  refine ⟨_, rfl, kept_ite (.refl s) ?_⟩
  split
  · exact kept_mem (.refl s) rfl (Mem.writeBytes_wf _ _ _)
  all_goals exact noData_kept (.refl s)

theorem portDown_kept {p : Nat} (h : Kept r s) : Kept r (portDown s p) :=
  State.updateUnit_kept (portEvent_kept (raiseSrc_kept h))

theorem portUp_kept {p speed width lane : Nat} (h : Kept r s) : Kept r (portUp s p speed width lane) := by
  unfold portUp
  grind [kept_mk, raise_kept, State.updPort_kept, State.updateUnit_kept]

theorem execHostLinkRetry_kept {p : Nat} : Answers s (execHostLinkRetry p s) := by
  refine ⟨_, rfl, ?_⟩
  repeat' split
  all_goals grind [kept_mk, Kept.refl, portDown_kept, State.updPort_kept]

theorem execHostLinkDown_kept {p : Nat} {dl : Bool} : Answers s (execHostLinkDown p dl s) := by
  refine ⟨_, rfl, ?_⟩
  repeat' split
  all_goals grind [kept_mk, Kept.refl, portDown_kept, State.updPort_kept]

theorem execHostLaneDegrade_kept {p speed width lane : Nat} : Answers s (execHostLaneDegrade p speed width lane s) := by
  refine ⟨_, rfl, ?_⟩
  grind [kept_mk, Kept.refl, portUp_kept, portEvent_kept, State.updPort_kept]

theorem portReset_kept {p : Nat} (h : Kept r s) : Kept r (portReset s p) := by
  unfold portReset
  extract_lets keep tfs s1 s2 s3
  have h1 : Kept r s1 := foldl_kept (fun hs => State.updInst_kept (flrAction_kept hs)) h
  exact portEvent_kept (State.updPort_kept (resetFn_kept (kept_mk.2 (State.updInst_kept (dropWork_kept h1)))))

theorem portResets_kept (h : Kept r s) : Kept r (portResets s) := foldl_kept portReset_kept h

/-! ### Charter -/

theorem holdCharter_kept {b : Bytes} {num : Nat} (h : Kept r s) : Kept r (holdCharter s b num) := kept_mk.2 h

theorem State.updMember_kept {d : Nat} {f : Member → Member} (h : Kept r s) : Kept r (State.updMember s d f) := kept_mk.2 h

theorem State.updLink_kept {l : Nat} {f : TLink → TLink} (h : Kept r s) : Kept r (State.updLink s l f) := kept_mk.2 h

theorem tetherRecord_kept {code member link : Nat} (h : Kept r s) : Kept r (tetherRecord s code member link) :=
  emit_kept (takeFreeNat_kept h)

theorem sendCharter_kept {l dst : Nat} (h : Kept r s) : Kept r (sendCharter s l dst) := by
  unfold sendCharter
  split
  · exact h
  · dsimp only
    exact State.updLink_kept (sendClear_kept (attestSign_kept (takeFree_kept h)))

theorem discover_kept {l : Nat} (h : Kept r s) : Kept r (discover s l) := by
  unfold discover
  repeat' split
  all_goals grind [kept_mk, sendClear_kept, State.updLink_kept, sendCharter_kept]

theorem discoverAll_kept (h : Kept r s) : Kept r (discoverAll s) := foldl_kept discover_kept h

theorem charterVerdict_kept {b : Bytes} {split : Bool} (h : Kept r s) : Kept r (charterVerdict s b split).1 := by
  unfold charterVerdict
  repeat' split
  all_goals grind [kept_mk, glitchAlarm_kept]

theorem loadCharter_kept {b : Bytes} {split : Bool} (h : Kept r s) : Kept r (loadCharter s b split).1 := by
  unfold loadCharter
  repeat' split
  all_goals grind [kept_mk, holdCharter_kept, discoverAll_kept, State.updMember_kept, charterVerdict_kept]

theorem execCanopyConfigLoad_kept {p : Nat} {x : Bytes × Bool} : Answers s (execCanopyConfigLoad p x s) := by
  refine ⟨_, rfl, ?_⟩
  grind [kept_mk, Kept.refl, loadCharter_kept, adminCmd_kept, hostRead_kept]

theorem execCanopyConfigTenantBind_kept {p : Nat} {se : Bytes} : Answers s (execCanopyConfigTenantBind p se s) := by
  refine ⟨_, rfl, ?_⟩
  repeat' split
  all_goals grind [kept_mk, Kept.refl, takeFreeNat_kept, adminCmd_kept]

/-! ### Tether -/

theorem pairLink_kept {l : Nat} (h : Kept r s) : Kept r (pairLink s l) := by
  unfold pairLink
  repeat' split
  all_goals grind [kept_mk, State.updLink_kept]

theorem withdrawAll_kept {p : Nat → Bool} (h : Kept r s) : Kept r (withdrawAll s p) :=
  kept_mk.2 (foldl_kept discardJob_kept h)

theorem forgetAway_kept {p : Nat → Bool} (h : Kept r s) : Kept r (forgetAway s p) := kept_mk.2 h

theorem forgetReplicas_kept (h : Kept r s) : Kept r (forgetReplicas s) := foldl_kept dropKey_kept h

theorem recheck_kept {j : Job} (h : Kept r s) : Kept r (recheck s j) := kept_ite h (kept_mk.2 h)

theorem recheckPulling_kept (h : Kept r s) : Kept r (recheckPulling s) := foldl_kept recheck_kept h

theorem finishDestroy_kept {j : Nat} (h : Kept r s) : Kept r (finishDestroy s j) := by
  unfold finishDestroy
  repeat' split
  all_goals grind [kept_mk, finalCommit_kept]

theorem answered_kept {d : Nat} {p : Job → Bool} (h : Kept r s) : Kept r (answered s d p) :=
  foldl_kept (fun hs => finishDestroy_kept (State.updJob_kept hs)) h

theorem loseJob_kept {j : Job} (h : Kept r s) : Kept r (loseJob s j) := by
  unfold loseJob
  repeat' split
  all_goals grind [kept_mk, State.updJob_kept, failJob_kept, fetchKeys_kept]

theorem loseMember_kept {d : Nat} (h : Kept r s) : Kept r (loseMember s d) :=
  answered_kept (withdrawAll_kept (kept_mk.2 (forgetAway_kept (foldl_kept dropCtx_kept (foldl_kept loseJob_kept h)))))

theorem applyLosses_kept (h : Kept r s) : Kept r (applyLosses s) :=
  recheckPulling_kept (foldl_kept loseMember_kept (kept_mk.2 h))

theorem partCanopy_kept {keep : Ctx → Bool} (h : Kept r s) : Kept r (partCanopy s keep) :=
  kept_mk.2 (forgetReplicas_kept (forgetAway_kept (foldl_kept dropCtx_kept (withdrawAll_kept h))))

theorem orphan_kept (h : Kept r s) : Kept r (orphan s) := kept_ite h (kept_mk.2 (partCanopy_kept h))

theorem dissolve_kept (h : Kept r s) : Kept r (dissolve s) := kept_mk.2 (partCanopy_kept h)

theorem dissolveDue_kept (h : Kept r s) : Kept r (dissolveDue s) := by
  unfold dissolveDue
  repeat' split
  all_goals grind [kept_mk, dissolve_kept, finishCmd_kept]

theorem dropHomed_kept {d : Nat} (h : Kept r s) : Kept r (dropHomed s d) := foldl_kept dropCtx_kept h

theorem takeOver_kept (h : Kept r s) : Kept r (takeOver s) :=
  tetherRecord_kept (kept_mk.2 (foldl_kept sendMsg_kept (dropHomed_kept h)))

theorem acceptTakeover_kept (h : Kept r s) : Kept r (acceptTakeover s) := by
  unfold acceptTakeover
  repeat' split
  all_goals grind [kept_mk, tetherRecord_kept, dropHomed_kept]

theorem managerGone_kept (h : Kept r s) : Kept r (managerGone s) := by
  unfold managerGone
  repeat' split
  all_goals grind [kept_mk, acceptTakeover_kept, takeOver_kept, orphan_kept]

theorem markLost_kept {d link : Nat} (h : Kept r s) : Kept r (markLost s d link) := by
  unfold markLost
  repeat' split
  all_goals grind [kept_mk, managerGone_kept, tetherRecord_kept, State.updMember_kept]

theorem declareLost_kept {d : Nat} (h : Kept r s) : Kept r (declareLost s d) := foldl_kept sendMsg_kept (markLost_kept h)

theorem authFail_kept {m : TMsg} (h : Kept r s) : Kept r (authFail s m) := markLost_kept (tetherRecord_kept (kept_mk.2 h))

theorem noteCtr_kept {d ctr : Nat} (h : Kept r s) : Kept r (noteCtr s d ctr) := kept_mk.2 h

theorem passOn_kept {m : TMsg} {kind : Nat} {enc : Bool} (h : Kept r s) : Kept r (passOn s m kind enc) := kept_mk.2 h

theorem relay_kept {m : TMsg} {kind : Nat} (h : Kept r s) : Kept r (relay s m kind) := by
  unfold relay
  repeat' split
  all_goals grind [kept_mk, sendAs_kept, authFail_kept, noteCtr_kept, passOn_kept]

theorem take_kept {m : TMsg} {kind : Nat} {sel : TMsg → Bool} {f : TMsg → State → State} (h : Kept r s) (hf : ∀ {x s}, Kept r
    s → Kept r (f x s)) :
    Kept r (take s m kind sel f) := by
  unfold take
  repeat' split
  all_goals grind [kept_mk, authFail_kept, noteCtr_kept, relay_kept]

theorem refuseLink_kept {m : TMsg} (h : Kept r s) : Kept r (refuseLink s m) := tetherRecord_kept (State.updLink_kept h)

theorem joinReply_kept {m : TMsg} {b : Bytes} (h : Kept r s) : Kept r (joinReply s m b).1 := by
  unfold joinReply
  extract_lets ek pk
  rw [attestSign_fst]
  exact takeFree_kept (takeFree_kept h)

theorem takeCharter_kept {m : TMsg} {b : Bytes} {split : Bool} (h : Kept r s) : Kept r (takeCharter s m b split) := by
  unfold takeCharter
  repeat' split
  all_goals grind [kept_mk, sendClear_kept, joinReply_kept, holdCharter_kept, refuseLink_kept, State.updMember_kept,
    State.updLink_kept, charterVerdict_kept]

theorem takeRing_kept {m : TMsg} {own b : Bytes} (h : Kept r s) : Kept r (takeRing s m own b) := by
  unfold takeRing
  repeat' split
  all_goals grind [kept_mk, sendClear_kept, joinReply_kept, refuseLink_kept]

theorem execHealthCharter_kept {x : TMsg × Bool} : Answers s (execHealthCharter x s) := by
  refine ⟨_, rfl, ?_⟩
  repeat' split
  all_goals grind [kept_mk, Kept.refl, takeRing_kept, takeCharter_kept]

theorem pairKey_kept {a b : Nat} (h : Kept r s) : Kept r (pairKey s a b).1 := by
  unfold pairKey
  repeat' split
  all_goals grind [kept_mk, takeFree_kept]

theorem pairEntries_kept {d : Nat} {x2 : List Nat} (h : Kept r s) : Kept r (pairEntries s d x2).1 := by
  induction x2 generalizing s with
  | nil => exact h
  | cons p ps ih => exact ih (pairKey_kept h)

theorem sendAdmit_kept {d : Nat} (h : Kept r s) : Kept r (sendAdmit s d) := sendMsg_kept (pairEntries_kept h)

theorem admitPeer_kept {x : Member} {m : TMsg} {secret : Bytes} (h : Kept r s) : Kept r (admitPeer s x m secret) := by
  unfold admitPeer
  extract_lets te s1 s2 s3 s4 s5
  have h4 : Kept r s4 := tetherRecord_kept (foldl_kept sendAdmit_kept (State.updMember_kept (kept_mk.2 h)))
  have h5 : Kept r s5 := by
    unfold s5
    split
    · exact pairLink_kept h4
    · exact h4
  split
  · exact foldl_kept sendMsg_kept h5
  · exact h5

theorem execHealthJoin_kept {m : TMsg} : Answers s (execHealthJoin m s) := by
  refine ⟨_, rfl, ?_⟩
  repeat' split
  all_goals grind [kept_mk, Kept.refl, sendMsg_kept, admitPeer_kept, refuseLink_kept, tetherRecord_kept, State.updLink_kept,
    passOn_kept]

theorem takeKeys_kept {b : Bytes} {mask n : Nat} (h : Kept r s) : Kept r (takeKeys s b mask n) :=
  foldl_kept (fun hs => State.updMember_kept hs) (kept_mk.2 h)

theorem takeAdmit_kept {m : TMsg} (h : Kept r s) : Kept r (takeAdmit s m) := by
  unfold takeAdmit
  grind [kept_mk, discoverAll_kept, noteCtr_kept, tetherRecord_kept, takeKeys_kept, pairLink_kept]

theorem passAdmit_kept {m : TMsg} (h : Kept r s) : Kept r (passAdmit s m) := foldl_kept pairLink_kept (passOn_kept h)

theorem execHealthAdmit_kept {m : TMsg} : Answers s (execHealthAdmit m s) := by
  refine ⟨_, rfl, ?_⟩
  have h := Kept.refl s
  split
  · exact h
  split
  · exact passAdmit_kept h
  extract_lets x
  split
  · split
    · exact authFail_kept h
    · exact h
  extract_lets m1
  split
  · exact h
  split
  · split
    · exact State.updLink_kept h
    · exact h
  split
  · exact h
  split
  · exact authFail_kept h
  · exact takeAdmit_kept h

theorem execTetherTick_kept {m : TMsg} {err : Int} : Answers s (execTetherTick m err s) := by
  refine ⟨_, rfl, ?_⟩
  repeat' split
  all_goals grind [kept_mk, Kept.refl, take_kept, orphan_kept]

theorem execHealthBeat_kept {m : TMsg} : Answers s (execHealthBeat m s) := by
  refine ⟨_, rfl, ?_⟩
  grind [kept_mk, Kept.refl, take_kept, tetherRecord_kept, State.updMember_kept]

theorem execHealthTakeover_kept {m : TMsg} : Answers s (execHealthTakeover m s) := by
  refine ⟨_, rfl, take_kept (.refl s) fun hs => kept_ite (tetherRecord_kept hs) ?_⟩
  exact kept_ite (acceptTakeover_kept (kept_mk.2 (foldl_kept sendMsg_kept hs))) (kept_mk.2 (foldl_kept sendMsg_kept hs))

theorem execHealthLost_kept {m : TMsg} : Answers s (execHealthLost m s) := by
  refine ⟨_, rfl, ?_⟩
  grind [kept_mk, Kept.refl, take_kept, orphan_kept, markLost_kept]

theorem execHealthDissolve_kept {m : TMsg} : Answers s (execHealthDissolve m s) := by
  refine ⟨_, rfl, ?_⟩
  grind [kept_mk, Kept.refl, take_kept, dissolve_kept]

theorem execMemberLostTimeout_kept {d : Nat} : Answers s (execMemberLostTimeout d s) := by
  refine ⟨_, rfl, ?_⟩
  repeat' split
  all_goals grind [kept_mk, Kept.refl, declareLost_kept]

/-! ### TetherWork -/

theorem sendJob_kept {id : Nat} (h : Kept r s) : Kept r (sendJob s id) := by
  unfold sendJob
  repeat' split
  all_goals grind [kept_mk, finalCommit_kept, sendMsg_kept, specInc_kept, State.updJob_kept, jobInput_kept]

theorem sendJobs_kept (h : Kept r s) : Kept r (sendJobs s) := foldl_kept sendJob_kept h

theorem withGuest_kept {inst tag : Nat} (h : Kept r s) : Kept r (withGuest s inst tag) := kept_mk.2 h

theorem takeJob_kept {src : Nat} {b : Bytes} (h : Kept r s) : Kept r (takeJob s src b) := by
  unfold takeJob
  repeat' split
  all_goals grind [kept_mk, sendAs_kept, fetchKeys_kept, withGuest_kept]

theorem execTetherJob_kept {m : TMsg} : Answers s (execTetherJob m s) := by
  refine ⟨_, rfl, ?_⟩
  grind [kept_mk, Kept.refl, take_kept, takeJob_kept]

theorem takeHeld_kept (h : Kept r s) : Kept r (takeHeld s) := foldl_kept takeJob_kept (kept_mk.2 h)

theorem sendResult_kept {j : Job} (h : Kept r s) : Kept r (sendResult s j) := by
  unfold sendResult
  repeat' split
  all_goals grind [kept_mk, sendMsg_kept, State.updJob_kept, zeroiseEnvelope_kept, dropExec_kept, reapKeys_kept]

theorem sendResults_kept (h : Kept r s) : Kept r (sendResults s) := foldl_kept sendResult_kept h

theorem noteAbroad_kept {j : Job} {x2 : JobResult} (h : Kept r s) : Kept r (noteAbroad s j x2) := kept_ite (kept_mk.2 h) h

theorem execTetherResult_kept {m : TMsg} : Answers s (execTetherResult m s) := by
  refine ⟨_, rfl, ?_⟩
  grind [kept_mk, Kept.refl, take_kept, State.updJob_kept, noteAbroad_kept]

theorem takeCancel_kept {src : Nat} {e : Nat × Nat} (h : Kept r s) : Kept r (takeCancel s src e) := by
  unfold takeCancel
  repeat' split
  all_goals grind [kept_mk, sendAs_kept]

theorem cancelRow_kept {m : TMsg} {k : Nat} (h : Kept r s) : Kept r (cancelRow s m k) :=
  take_kept h fun hs => foldl_kept takeCancel_kept hs

theorem applyDisposition_kept {id : Nat} {confirm : Bool} (h : Kept r s) : Kept r (applyDisposition s id confirm) := by
  unfold applyDisposition
  repeat' split
  all_goals grind [kept_mk, State.updJob_kept, commitNow_kept, discardJob_kept, dropExec_kept, reapKeys_kept]

theorem refusePulling_kept {x1 : Nat} (h : Kept r s) : Kept r (refusePulling s x1) := kept_mk.2 h

theorem giveContext_kept {src x2 owner : Nat} (h : Kept r s) : Kept r (giveContext s src x2 owner) := by
  unfold giveContext
  repeat' split
  all_goals grind [kept_mk, sendAs_kept, sendMsg_kept, State.updCtx_kept]

theorem dropFar_kept {x1 : Nat} (h : Kept r s) : Kept r (dropFar s x1) := dropCtx_kept (kept_mk.2 h)

theorem installContext_kept {src : Nat} {b : Bytes} (h : Kept r s) : Kept r (installContext s src b) := by
  unfold installContext
  repeat' split
  all_goals grind [kept_mk, sendMsg_kept, recheckPulling_kept, dropFar_kept, refusePulling_kept]

theorem execCtxMoveTransfer_kept {m : TMsg} : Answers s (execCtxMoveTransfer m s) := by
  refine ⟨_, rfl, ?_⟩
  grind [kept_mk, Kept.refl, take_kept, giveContext_kept, installContext_kept]

theorem noteHolder_kept {x1 d : Nat} (h : Kept r s) : Kept r (noteHolder s x1 d) := kept_mk.2 h

theorem execCtxMoveAccept_kept {m : TMsg} : Answers s (execCtxMoveAccept m s) := by
  refine ⟨_, rfl, ?_⟩
  grind [kept_mk, Kept.refl, sendMsg_kept, take_kept, noteHolder_kept]

theorem execCtxMoveRefuse_kept {m : TMsg} : Answers s (execCtxMoveRefuse m s) := by
  refine ⟨_, rfl, ?_⟩
  grind [kept_mk, Kept.refl, take_kept, State.updCtx_kept, refusePulling_kept]

theorem execHealthKeyAdd_kept {m : TMsg} : Answers s (execHealthKeyAdd m s) := by
  refine ⟨_, rfl, ?_⟩
  grind [kept_mk, Kept.refl, take_kept]

theorem execHealthKeyDrop_kept {m : TMsg} : Answers s (execHealthKeyDrop m s) := by
  refine ⟨_, rfl, ?_⟩
  grind [kept_mk, Kept.refl, sendMsg_kept, take_kept, answered_kept, State.updKey_kept, dropKey_kept]

/-! ### Links -/

theorem execTetherLinkTrained_kept {l width : Nat} : Answers s (execTetherLinkTrained l width s) := by
  refine ⟨_, rfl, ?_⟩
  grind [kept_mk, Kept.refl, State.updLink_kept, discover_kept, State.updateUnit_kept]

theorem loseLink_kept {l : Nat} (h : Kept r s) : Kept r (loseLink s l) := by
  unfold loseLink
  grind [kept_mk, raiseSrc_kept, State.updLink_kept, State.updateUnit_kept]

theorem execTetherLaneFail_kept {l lane : Nat} : Answers s (execTetherLaneFail l lane s) := by
  refine ⟨_, rfl, ?_⟩
  grind [kept_mk, Kept.refl, raiseSrc_kept, loseLink_kept, State.updLink_kept, State.updateUnit_kept]

theorem retrainLink_kept {l : Nat} (h : Kept r s) : Kept r (retrainLink s l) := kept_ite h (kept_mk.2 h)

theorem sendNak_kept {l : Nat} (h : Kept r s) : Kept r (sendNak s l) := by
  unfold sendNak
  grind [kept_mk, State.updLink_kept, retrainLink_kept]

theorem badLengthFlit_kept {l vc : Nat} (h : Kept r s) : Kept r (badLengthFlit s l vc) := by
  unfold badLengthFlit
  grind [kept_mk, sendNak_kept, tetherRecord_kept, markLost_kept, State.updLink_kept]

theorem takeFlit_kept {l : Nat} {f : Bytes} (h : Kept r s) : Kept r (takeFlit s l f) := by
  unfold takeFlit
  grind [kept_mk, badLengthFlit_kept, State.updLink_kept]

theorem execFlitReceive_kept {l : Nat} {flit : Bytes} : Answers s (execFlitReceive l flit s) := by
  refine ⟨_, rfl, ?_⟩
  repeat' split
  all_goals grind [kept_mk, Kept.refl, sendNak_kept, takeFlit_kept, State.updLink_kept]

/-! ### Boundary -/

theorem advanceTime_kept (h : Kept r s) : Kept r (advanceTime s) := kept_mk.2 h

theorem countTick_kept (h : Kept r s) : Kept r (countTick s) := by
  unfold countTick
  grind [kept_mk, advanceTime_kept, emit_kept]

theorem faceMoves_kept (h : Kept r s) : Kept r (faceMoves s) := by
  unfold faceMoves
  extract_lets back rest s1
  exact foldl_kept (fun hs => kept_ite (moveFace_kept hs) hs) (foldl_kept moveFace_kept (kept_mk.2 h))

theorem pairResets_kept {before : List Health} (h : Kept r s) : Kept r (pairResets s before) :=
  foldl_kept (fun hs => foldl_kept (fun ht => State.updInst_kept (flrAction_kept ht)) hs) h

theorem primaryMoves_kept (h : Kept r s) : Kept r (primaryMoves s) := by
  unfold primaryMoves
  repeat' split
  all_goals grind [kept_mk, emit_kept]

theorem injectUpset_kept {src mode : Nat} (h : Kept r s) : Kept r (injectUpset s src mode) := by
  unfold injectUpset
  repeat' split
  all_goals grind [kept_mk, takeFreeNat_kept, mxuFault_kept, faultEngine_kept, faultSlice_kept]

theorem injectRaise_kept {src : Nat} (h : Kept r s) : Kept r (injectRaise s src) := by
  unfold injectRaise
  repeat' split
  all_goals grind [kept_mk, vaultLoss_kept, drbgFail_kept, noiseFail_kept, stewardDiffer_kept, raise_kept, pllLoss_kept]

theorem injectDue_kept (h : Kept r s) : Kept r (injectDue s) := by
  unfold injectDue
  repeat' split
  all_goals grind [kept_mk, injectRaise_kept, injectUpset_kept]

theorem boundaryOne_kept {tj : Int} (h : Kept r s) : Kept r (boundaryOne s tj) :=
  injectDue_kept (takeTj_kept (pairResets_kept (writeHealth_kept (publishHealth_kept (primaryMoves_kept (faceMoves_kept
   
    (healthGets_kept (applyUpdates_kept (applyRaises_kept h)))))))))

theorem setSeverity_kept {srcs : List Nat} {sev : Nat} (h : Kept r s) : Kept r (setSeverity s srcs sev) := kept_mk.2 h

theorem setSched_kept {i : Nat} {w l x4 : Option Nat} (h : Kept r s) : Kept r (setSched s i w l x4) := kept_mk.2 h

theorem setReg_kept {off v : Nat} (h : Kept r s) : Kept r (setReg s off v) := by
  unfold setReg
  repeat' split
  all_goals grind [kept_mk]

theorem applyChange_kept {c : Change} (h : Kept r s) : Kept r (applyChange s c) := by
  unfold applyChange
  repeat' split
  all_goals grind [kept_mk, setReg_kept, setSched_kept, harvest_kept, State.updSq_kept, setSeverity_kept, State.updCq_kept,
    applyEnvelope_kept]

theorem refillTokens_kept (h : Kept r s) : Kept r (refillTokens s) := kept_mk.2 h

theorem applyBinds_kept (h : Kept r s) : Kept r (applyBinds s) := foldl_kept State.updInst_kept (kept_mk.2 h)

theorem wakeDormant_kept (h : Kept r s) : Kept r (wakeDormant s) := kept_mk.2 h

theorem releaseLocks_kept (h : Kept r s) : Kept r (releaseLocks s) := by
  unfold releaseLocks
  grind [kept_mk]

theorem boundaryTwo_kept (h : Kept r s) : Kept r (boundaryTwo s) :=
  releaseLocks_kept (wakeDormant_kept (foldl_kept applyResume_kept (refillTokens_kept (applyBinds_kept (kept_mk.2
   
    (closeRounds_kept (foldl_kept applyChange_kept (kept_mk.2 h))))))))

theorem applyAbort_kept {a : Abort} (h : Kept r s) : Kept r (applyAbort s a) := by
  unfold applyAbort
  repeat' split
  all_goals grind [kept_mk, applyJobAbort_kept, applyQuiesce_kept, applyDisposition_kept]

theorem boundaryThree_kept (h : Kept r s) : Kept r (boundaryThree s) :=
  applyLosses_kept (dissolveDue_kept (portResets_kept (foldl_kept pendingTimeout_kept (foldl_kept applyAbort_kept (kept_mk.2
    h)))))

theorem drains_kept (h : Kept r s) : Kept r (drains s) :=
  foldl_kept quiesceDrained_kept (foldl_kept sqDrained_kept (foldl_kept removeDrained_kept h))

theorem interrupts_kept (h : Kept r s) : Kept r (interrupts s) :=
  foldl_kept adminInterrupt_kept (foldl_kept cqInterrupt_kept (sendPending_kept h))

theorem boundaryFour_kept (h : Kept r s) : Kept r (boundaryFour s) := by
  unfold boundaryFour
  exact interrupts_kept (postAdmins_kept (drains_kept (postDue_kept (foldl_kept releaseHeld_kept h))))

theorem pruneOld_kept (h : Kept r s) : Kept r (pruneOld s) := kept_mk.2 h

theorem countWaits_kept (h : Kept r s) : Kept r (countWaits s) :=
  foldl_kept (fun hs => kept_ite (perfInc_kept (State.updSq_kept hs)) (State.updSq_kept hs)) h

theorem refreshMasks_kept (h : Kept r s) : Kept r (refreshMasks s) := kept_mk.2 h

theorem boundaryFive_kept {late : Nat} (h : Kept r s) : Kept r (boundaryFive s late) :=
  assignSlices_kept (sendJobs_kept (mxuBoundary_kept (takeHeld_kept (resumeWaiters_kept (countWaits_kept (pruneOld_kept
    (refreshMasks_kept h)))))))

theorem boundaryActions_kept {tj : Int} {late : Nat} (h : Kept r s) : Kept r (boundaryActions s tj late) := by
  unfold boundaryActions
  extract_lets s1 s4 s2 s3
  have h1 : Kept r s1 := boundaryOne_kept (syncVault_kept h)
  have h4 : Kept r s4 := boundaryFour_kept (boundaryThree_kept (boundaryTwo_kept h1))
  have h2 : Kept r s2 := kept_ite (foldl_kept adminInterrupt_kept (postAdmins_kept h1)) (kept_ite h4 (boundaryFive_kept h4))
  have h3 : Kept r s3 := snapBoundary_kept h2
  exact kept_ite (enterScrap_kept h3) h3

theorem tickBoundary_kept {tj : Int} (h : Kept r s) : Kept r (tickBoundary s tj) := by
  unfold tickBoundary
  repeat' split
  all_goals grind [kept_mk, countTick_kept, boundaryActions_kept, countCommits_kept, sendResults_kept]

theorem execPllSwitchoverDone_kept : Answers s (execPllSwitchoverDone s) := by
  refine ⟨_, rfl, ?_⟩
  repeat' split
  all_goals grind [kept_mk, Kept.refl, takeFreeNat_kept, boundaryActions_kept]

/-! ### Digest -/

theorem runDigest_kept {j : Job} {inp : Bytes} (h : Kept r s) : Kept r (runDigest s j inp).1 := h

theorem runDigestStart_kept {j : Job} {inp : Bytes} (h : Kept r s) : Kept r (runDigestStart s j inp).1 := h

theorem onStream_kept {j : Job} {f : Stream → JobResult} (h : Kept r s) : Kept r (onStream s j f).1 := by
  unfold onStream
  repeat' split
  all_goals grind [kept_mk]

theorem runDigestUpdate_kept {j : Job} {inp : Bytes} (h : Kept r s) : Kept r (runDigestUpdate s j inp).1 := onStream_kept h

theorem runDigestRead_kept {j : Job} {x2 : Bytes} (h : Kept r s) : Kept r (runDigestRead s j x2).1 := onStream_kept h

theorem runDigestFinal_kept {j : Job} {inp : Bytes} (h : Kept r s) : Kept r (runDigestFinal s j inp).1 := onStream_kept h

theorem runDigestDiscard_kept {j : Job} {x2 : Bytes} (h : Kept r s) : Kept r (runDigestDiscard s j x2).1 := onStream_kept h

theorem runMac_kept {j : Job} {inp : Bytes} (h : Kept r s) : Kept r (runMac s j inp).1 := h

theorem runMacVerify_kept {u : Upset} {j : Job} {inp : Bytes} (h : Kept r s) : Kept r (runMacVerify u s j inp).1 :=
  decided_kept h

theorem runKdf_kept {j : Job} {inp : Bytes} (h : Kept r s) : Kept r (runKdf s j inp).1 := by
  unfold runKdf
  repeat' split
  all_goals grind [kept_mk]

theorem runAeadSeal_kept {j : Job} {inp : Bytes} (h : Kept r s) : Kept r (runAeadSeal s j inp).1 := h

theorem runAeadOpen_kept {u : Upset} {j : Job} {inp : Bytes} (h : Kept r s) : Kept r (runAeadOpen u s j inp).1 :=
  decided_kept h

theorem rngOut_kept {j : Job} (h : Kept r s) : Kept r (rngOut s j).1 := kept_mk.2 h

theorem runRng_kept {j : Job} {x2 : Bytes} (h : Kept r s) : Kept r (runRng s j x2).1 := by
  unfold runRng
  repeat' split
  all_goals grind [kept_mk, askBlock_kept, State.updJob_kept, takeBlock_kept, rngOut_kept]

/-! ### Every command -/

/-- Every command completes, and keeps the queue and host memory's form. -/
theorem exec_kept (c : Instr) (s : State) : Answers s (exec c s) := by
  cases c with
  | sqDoorbell face off width value => exact ⟨_, rfl, doorbellWrite_kept (.refl s)⟩
  | cqDoorbell face off width value => exact ⟨_, rfl, doorbellWrite_kept (.refl s)⟩
  | seFetch inst q pos => exact ⟨_, rfl, seFetch_kept (.refl s)⟩
  | jobDispatch inst q cy => exact ⟨_, rfl, dispatch_kept (.refl s)⟩
  | pendingTimeout j => exact execPendingTimeout_kept
  | tickBoundary tj => exact ⟨_, rfl, tickBoundary_kept (.refl s)⟩
  | jobRelease j => exact execJobRelease_kept
  | cqInterrupt inst q => exact execCqInterrupt_kept
  | cqStarved inst q => exact execCqStarved_kept
  | sliceOverrun j => exact execSliceOverrun_kept
  | vectorPowerDown engine => exact ⟨_, rfl, kept_mk.2 (.refl s)⟩
  | sqCreate p se => exact execSqCreate_kept
  | sqDelete p se => exact execSqDelete_kept
  | sqDeleteDrained inst q => exact execSqDeleteDrained_kept
  | cqCreate p se => exact execCqCreate_kept
  | cqDelete p se => exact execCqDelete_kept
  | sqRestart p se => exact execSqRestart_kept
  | cqRestart p se => exact execCqRestart_kept
  | cqModify p se => exact execCqModify_kept
  | sqModify p se => exact execSqModify_kept
  | instanceCreate p se => exact execInstanceCreate_kept
  | instanceQuiesce p se => exact execInstanceQuiesce_kept
  | quiesceDrained inst => exact execQuiesceDrained_kept
  | instanceResume p se => exact execInstanceResume_kept
  | instanceReset p se => exact execInstanceReset_kept
  | instanceRemove p se => exact execInstanceRemove_kept
  | instanceSetResources p se => exact execInstanceSetResources_kept
  | instanceGet p se => exact execInstanceGet_kept
  | datuSetRoot p se => exact execDatuSetRoot_kept
  | datuInvalidate p se => exact execDatuInvalidate_kept
  | dirtyLogStart p se => exact execDirtyLogStart_kept
  | dirtyLogStop p se => exact execDirtyLogStop_kept
  | dirtyLogHarvest p se => exact execDirtyLogHarvest_kept
  | jobAbort p se => exact execJobAbort_kept
  | dumpBufferSet p se => exact execDumpBufferSet_kept
  | healthGet p se => exact ⟨_, rfl, healthGet_kept (.refl s)⟩
  | healthGetRetire p se => exact ⟨_, rfl, healthGet_kept (.refl s)⟩
  | faultSeveritySet p se => exact execFaultSeveritySet_kept
  | attest p se => exact execAttest_kept
  | lcsTransition p se u => exact execLcsTransition_kept
  | graftInfo p se => exact execGraftInfo_kept
  | canopyConfigLoad p se => exact execCanopyConfigLoad_kept
  | canopyConfigDissolve p se => exact ⟨_, rfl, adminCmd_kept (.refl s) fun hs => kept_mk.2 (foldl_kept sendMsg_kept hs)⟩
  | canopyConfigTenantBind p se => exact execCanopyConfigTenantBind_kept
  | envelopeSetQuery p se => exact execEnvelopeSetQuery_kept
  | envelopeSet p se => exact execEnvelopeSet_kept
  | primaryDelegate p se => exact execPrimaryDelegate_kept
  | portPairUnpair p se => exact execPortPairUnpair_kept
  | portPairPair p se => exact execPortPairPair_kept
  | portPairReturn p se => exact execPortPairReturn_kept
  | kemKeygen j u => exact execKemKeygen_kept
  | kemEncaps j u => exact ⟨_, rfl, runJob_kept (.refl s) runKemEncaps_kept⟩
  | kemDecaps j u => exact ⟨_, rfl, runJob_kept (.refl s) runKemDecaps_kept⟩
  | sigKeygen j u => exact ⟨_, rfl, runJob_kept (.refl s) runSigKeygen_kept⟩
  | sigSign j u => exact execSigSign_kept
  | sigVerify j u => exact ⟨_, rfl, runJob_kept (.refl s) runSigVerify_kept⟩
  | dhKeygen j u => exact ⟨_, rfl, runJob_kept (.refl s) runDhKeygen_kept⟩
  | dhDerive j u => exact ⟨_, rfl, runJob_kept (.refl s) runDhDerive_kept⟩
  | rsaKeygen j u => exact ⟨_, rfl, runJob_kept (.refl s) runRsaKeygen_kept⟩
  | rsaSign j u => exact ⟨_, rfl, runJob_kept (.refl s) runRsaSign_kept⟩
  | rsaVerify j u => exact ⟨_, rfl, runJob_kept (.refl s) runRsaVerify_kept⟩
  | rsaDecrypt j u => exact ⟨_, rfl, runJob_kept (.refl s) runRsaDecrypt_kept⟩
  | rsaEncrypt j u => exact ⟨_, rfl, runJob_kept (.refl s) runRsaEncrypt_kept⟩
  | digest j u => exact ⟨_, rfl, runJob_kept (.refl s) runDigest_kept⟩
  | digestStart j u => exact ⟨_, rfl, runJob_kept (.refl s) runDigestStart_kept⟩
  | digestUpdate j u => exact ⟨_, rfl, runJob_kept (.refl s) runDigestUpdate_kept⟩
  | digestRead j u => exact ⟨_, rfl, runJob_kept (.refl s) runDigestRead_kept⟩
  | digestFinal j u => exact ⟨_, rfl, runJob_kept (.refl s) runDigestFinal_kept⟩
  | digestDiscard j u => exact ⟨_, rfl, runJob_kept (.refl s) runDigestDiscard_kept⟩
  | mac j u => exact ⟨_, rfl, runJob_kept (.refl s) runMac_kept⟩
  | macVerify j u => exact ⟨_, rfl, runJob_kept (.refl s) runMacVerify_kept⟩
  | kdf j u => exact ⟨_, rfl, runJob_kept (.refl s) runKdf_kept⟩
  | aeadSeal j u => exact ⟨_, rfl, runJob_kept (.refl s) runAeadSeal_kept⟩
  | aeadOpen j u => exact ⟨_, rfl, runJob_kept (.refl s) runAeadOpen_kept⟩
  | rng j u => exact ⟨_, rfl, runPart_kept (.refl s) runRng_kept⟩
  | keyImport j u => exact ⟨_, rfl, runJob_kept (.refl s) runKeyImport_kept⟩
  | keyGenerate j u => exact ⟨_, rfl, runJob_kept (.refl s) runKeyGenerate_kept⟩
  | keyExport j u => exact ⟨_, rfl, runJob_kept (.refl s) runKeyExport_kept⟩
  | keyDestroy j u => exact execKeyDestroy_kept
  | keyGetPublic j u => exact ⟨_, rfl, runJob_kept (.refl s) runKeyGetPublic_kept⟩
  | ctxDerive j u => exact ⟨_, rfl, runJob_kept (.refl s) runCtxDerive_kept⟩
  | ctxExport j u => exact ⟨_, rfl, runJob_kept (.refl s) runCtxExport_kept⟩
  | ctxDestroy j u => exact ⟨_, rfl, runJob_kept (.refl s) runCtxDestroy_kept⟩
  | clientInit j u => exact ⟨_, rfl, runJob_kept (.refl s) runClientInit_kept⟩
  | serverRespond j u => exact ⟨_, rfl, runJob_kept (.refl s) runServerRespond_kept⟩
  | clientFinish j u => exact ⟨_, rfl, runJob_kept (.refl s) runClientFinish_kept⟩
  | routineCall j n => exact execRoutineCall_kept
  | shelfWrite idx => exact ⟨_, rfl, shelfWrite_kept (.refl s)⟩
  | validate j ev => exact ⟨_, rfl, mxuEvent_kept (.refl s)⟩
  | rsaPriv j ev => exact ⟨_, rfl, mxuEvent_kept (.refl s)⟩
  | rsaPub j ev => exact ⟨_, rfl, mxuEvent_kept (.refl s)⟩
  | rsaGen j ev => exact ⟨_, rfl, mxuEvent_kept (.refl s)⟩
  | ecGen j ev => exact ⟨_, rfl, mxuEvent_kept (.refl s)⟩
  | ecSign j ev => exact ⟨_, rfl, mxuEvent_kept (.refl s)⟩
  | ecVerify j ev => exact ⟨_, rfl, mxuEvent_kept (.refl s)⟩
  | ecDerive j ev => exact ⟨_, rfl, mxuEvent_kept (.refl s)⟩
  | validationResult j => exact ⟨_, rfl, kept_ite (deliverVerdict_kept (.refl s)) (.refl s)⟩
  | alNop j => exact execAlNop_kept
  | alDup j => exact execAlDup_kept
  | alDrop j => exact execAlDrop_kept
  | alSwap j => exact execAlSwap_kept
  | alOver j => exact execAlOver_kept
  | alRot j => exact execAlRot_kept
  | alTor j => exact execAlTor_kept
  | alFromr j => exact execAlFromr_kept
  | alRcopy j => exact execAlRcopy_kept
  | alDepth j => exact execAlDepth_kept
  | alAdd j => exact execAlAdd_kept
  | alSub j => exact execAlSub_kept
  | alAnd j => exact execAlAnd_kept
  | alOr j => exact execAlOr_kept
  | alXor j => exact execAlXor_kept
  | alInv j => exact execAlInv_kept
  | alShl j => exact execAlShl_kept
  | alShr j => exact execAlShr_kept
  | alSar j => exact execAlSar_kept
  | alMul j => exact execAlMul_kept
  | alMulhu j => exact execAlMulhu_kept
  | alEq j => exact execAlEq_kept
  | alUlt j => exact execAlUlt_kept
  | alLt j => exact execAlLt_kept
  | alCsel j => exact execAlCsel_kept
  | alFetch j => exact execAlFetch_kept
  | alStore j => exact execAlStore_kept
  | alFetchh j => exact execAlFetchh_kept
  | alStoreh j => exact execAlStoreh_kept
  | alFetchb j => exact execAlFetchb_kept
  | alStoreb j => exact execAlStoreb_kept
  | alIfetch j => exact execAlIfetch_kept
  | alRet j => exact execAlRet_kept
  | alCallt j => exact execAlCallt_kept
  | alCommit j => exact execAlCommit_kept
  | alYield j => exact execAlYield_kept
  | alEnd j => exact execAlEnd_kept
  | alLit j imm => exact execAlLit_kept
  | alLitx j imm => exact execAlLitx_kept
  | alBr j off => exact execAlBr_kept
  | alBz j off => exact execAlBz_kept
  | alBnz j off => exact execAlBnz_kept
  | alDbnz j off => exact execAlDbnz_kept
  | alCall j k => exact execAlCall_kept
  | alIn j p => exact execAlIn_kept
  | alOut j p => exact execAlOut_kept
  | keyReq j u => exact execKeyReq_kept
  | keyDeliveryDone j => exact ⟨_, rfl, kept_mk.2 (.refl s)⟩
  | hsInit j => exact execHsInit_kept
  | hsPad j => exact execHsPad_kept
  | hsIn j => exact execHsIn_kept
  | hsInb j => exact execHsInb_kept
  | hsOut j => exact execHsOut_kept
  | hashPermutationDone j k => exact ⟨_, rfl, kept_mk.2 (.refl s)⟩
  | drbgRead j => exact execDrbgRead_kept
  | vqWrite j => exact execVqWrite_kept
  | vcfgWrite j => exact execVcfgWrite_kept
  | vfaultFill j => exact execVfaultFill_kept
  | mboxCmd j => exact execMboxCmd_kept
  | declGo j => exact execDeclGo_kept
  | gateSeal j => exact ⟨_, rfl, engineStep_kept (.refl s) fun h => asGate_kept h gateSeal_kept⟩
  | gateTag j => exact ⟨_, rfl, engineStep_kept (.refl s) fun h => asGate_kept h gateTag_kept⟩
  | gateRandom j => exact ⟨_, rfl, engineStep_kept (.refl s) fun h => asGate_kept h gateRandom_kept⟩
  | svLd j sd ss => exact execSvLd_kept
  | svSt j sd ss => exact execSvSt_kept
  | svAdd j sd ss => exact execSvAdd_kept
  | svSub j sd ss => exact execSvSub_kept
  | svMul j sd ss => exact execSvMul_kept
  | svAnd j sd ss => exact execSvAnd_kept
  | svOr j sd ss => exact execSvOr_kept
  | svXor j sd ss => exact execSvXor_kept
  | svShl j sd ss => exact execSvShl_kept
  | svShr j sd ss => exact execSvShr_kept
  | svRotl j sd ss => exact execSvRotl_kept
  | svCmov j sd ss => exact execSvCmov_kept
  | svMov j sd ss => exact execSvMov_kept
  | svZero j sd ss => exact execSvZero_kept
  | svShuf j sd ss => exact execSvShuf_kept
  | svAesr j sd ss => exact execSvAesr_kept
  | svAeslr j sd ss => exact execSvAeslr_kept
  | svClmul j sd ss => exact execSvClmul_kept
  | svTos j sd ss => exact execSvTos_kept
  | svFroms j sd ss => exact execSvFroms_kept
  | lvLd j m ld ls => exact execLvLd_kept
  | lvSt j m ld ls => exact execLvSt_kept
  | lvGather j m ld ls => exact execLvGather_kept
  | lvScatter j m ld ls => exact execLvScatter_kept
  | lvAddm j m ld ls => exact execLvAddm_kept
  | lvSubm j m ld ls => exact execLvSubm_kept
  | lvMulm j m ld ls => exact execLvMulm_kept
  | lvPmul j m ld ls => exact execLvPmul_kept
  | lvBfly j m ld ls => exact execLvBfly_kept
  | lvComp j m ld ls => exact execLvComp_kept
  | lvSamu j m ld ls => exact execLvSamu_kept
  | lvSamcbd j m ld ls => exact execLvSamcbd_kept
  | lvCmov j m ld ls => exact execLvCmov_kept
  | lvPerm j m ld ls => exact execLvPerm_kept
  | lvSad j m ld ls u => exact execLvSad_kept
  | lvSsd j m ld ls => exact execLvSsd_kept
  | lvOvb j m ld ls => exact execLvOvb_kept
  | lvMov j m ld ls => exact execLvMov_kept
  | lvZero j m ld ls => exact execLvZero_kept
  | lvLogic j m ld ls => exact execLvLogic_kept
  | lvAdd j m ld ls => exact execLvAdd_kept
  | microNext q w => exact execMicroNext_kept
  | microJump q w => exact execMicroJump_kept
  | microMbranch q w c tagged => exact execMicroMbranch_kept
  | microCall q w => exact execMicroCall_kept
  | microReturn q w => exact execMicroReturn_kept
  | microCommit q w => exact execMicroCommit_kept
  | microYield q w => exact execMicroYield_kept
  | microEnd q w => exact execMicroEnd_kept
  | microXjump q w => exact execMicroXjump_kept
  | microXcall q w => exact execMicroXcall_kept
  | microWait q w c tagged => exact execMicroWait_kept
  | microDispatch q w => exact execMicroDispatch_kept
  | aladaMMov o => exact ⟨_, rfl, mRun_kept (.refl s) fun hs => mStore_kept (mVal_kept hs) _⟩
  | aladaMAdd o => exact ⟨_, rfl, mAlu_kept (.refl s)⟩
  | aladaMSub o => exact ⟨_, rfl, mAlu_kept (.refl s)⟩
  | aladaMAnd o => exact ⟨_, rfl, mAlu_kept (.refl s)⟩
  | aladaMOr o => exact ⟨_, rfl, mAlu_kept (.refl s)⟩
  | aladaMXor o => exact ⟨_, rfl, mAlu_kept (.refl s)⟩
  | aladaMShl o => exact ⟨_, rfl, mAlu_kept (.refl s)⟩
  | aladaMShr o => exact ⟨_, rfl, mAlu_kept (.refl s)⟩
  | aladaMSar o => exact ⟨_, rfl, mAlu_kept (.refl s)⟩
  | aladaMMul o => exact ⟨_, rfl, mAlu_kept (.refl s)⟩
  | aladaMMulhu o => exact ⟨_, rfl, mAlu_kept (.refl s)⟩
  | aladaMDivu o => exact ⟨_, rfl, mAlu_kept (.refl s)⟩
  | aladaMRemu o => exact ⟨_, rfl, mAlu_kept (.refl s)⟩
  | aladaMBeq o => exact ⟨_, rfl, mBranch_kept (.refl s)⟩
  | aladaMBne o => exact ⟨_, rfl, mBranch_kept (.refl s)⟩
  | aladaMBltu o => exact ⟨_, rfl, mBranch_kept (.refl s)⟩
  | aladaMBlt o => exact ⟨_, rfl, mBranch_kept (.refl s)⟩
  | aladaMJmp o => exact execAladaMJmp_kept
  | aladaMCall o => exact ⟨_, rfl, mRun_kept (.refl s) fun hs => mStore_kept (kept_mk.2 (mVal_kept hs)) _⟩
  | aladaMCopy o => exact execAladaMCopy_kept
  | aladaMFill o => exact execAladaMFill_kept
  | aladaMWait o => exact execAladaMWait_kept
  | aladaMLea o => exact execAladaMLea_kept
  | registerWrite p off width value => exact execRegisterWrite_kept
  | tickCountLoRead p => exact execTickCountLoRead_kept
  | cfgRejectClear p value => exact ⟨_, rfl, kept_ite (kept_mk.2 (.refl s)) (.refl s)⟩
  | admqEnable p => exact ⟨_, rfl, kept_ite (.refl s) (kept_mk.2 (.refl s))⟩
  | admqDisable p => exact ⟨_, rfl, kept_ite (.refl s) (stopAdmq_kept (State.updPort_kept (.refl s)))⟩
  | admqSqDb p value => exact execAdmqSqDb_kept
  | admqCqDb p value => exact ⟨_, rfl, kept_ite (.refl s) (kept_mk.2 (.refl s))⟩
  | healthEpochRead p lag => exact execHealthEpochRead_kept
  | faultInjGo p value => exact ⟨_, rfl, kept_ite (kept_mk.2 (.refl s)) (.refl s)⟩
  | graftStageOpen p value => exact execGraftStageOpen_kept
  | graftStageData p value => exact execGraftStageData_kept
  | graftStageCommit p value => exact execGraftStageCommit_kept
  | graftStageAbandon p value => exact execGraftStageAbandon_kept
  | graftStageDone ok => exact execGraftStageDone_kept
  | specClear p => exact ⟨_, rfl, kept_ite (kept_mk.2 (.refl s)) (.refl s)⟩
  | specCounterLoRead p k => exact execSpecCounterLoRead_kept
  | perfClear p => exact ⟨_, rfl, kept_ite (kept_mk.2 (.refl s)) (.refl s)⟩
  | perfCounterLoRead p k => exact execPerfCounterLoRead_kept
  | hwdTimeLoRead p => exact execHwdTimeLoRead_kept
  | hwdTmpCfgWrite p value => exact execHwdTmpCfgWrite_kept
  | hwdRecFlush p value => exact ⟨_, rfl, kept_ite (writeRecCtrl_kept (.refl s)) (.refl s)⟩
  | hwdRecClear p value => exact ⟨_, rfl, kept_ite (writeRecCtrl_kept (.refl s)) (.refl s)⟩
  | hwdRecWindow7Read p => exact ⟨_, rfl, kept_ite (.refl s) (State.updPort_kept (answerReg_kept (.refl s)))⟩
  | hwdSnapManual p value => exact execHwdSnapManual_kept
  | hwdSnapWindow7Read p => exact ⟨_, rfl, kept_ite (.refl s) (State.updPort_kept (answerReg_kept (.refl s)))⟩
  | throttleClear p value => exact execThrottleClear_kept
  | tetherRetrain p value => exact ⟨_, rfl, kept_ite (.refl s) (foldl_kept (fun hs => retrainLink_kept (retrainLink_kept hs))
    (.refl s))⟩
  | tetherTickOffLoRead p => exact execTetherTickOffLoRead_kept
  | datuFaultClear p => exact ⟨_, rfl, kept_ite (kept_mk.2 (.refl s)) (.refl s)⟩
  | powerUp env => exact ⟨_, rfl, kept_ite (.refl s) (boot_kept (backupTime_kept (.refl s)))⟩
  | resetNFall => exact ⟨_, rfl, powerStop_kept (kept_mk.2 (.refl s))⟩
  | resetNRise env => exact ⟨_, rfl, kept_ite (.refl s) (boot_kept (.refl s))⟩
  | pwrFailN => exact ⟨_, rfl, powerStop_kept (kept_mk.2 (.refl s))⟩
  | brownOut => exact ⟨_, rfl, powerStop_kept (.refl s)⟩
  | supplyOutOfRange idx below => exact ⟨_, rfl, kept_ite (.refl s) (raiseSrc_kept (kept_mk.2 (.refl s)))⟩
  | eccError e => exact execEccError_kept
  | fatalStateDump => exact execFatalStateDump_kept
  | pllLockLoss idx => exact ⟨_, rfl, kept_ite (.refl s) (pllLoss_kept (.refl s))⟩
  | pllSwitchoverDone => exact execPllSwitchoverDone_kept
  | lockstepMismatch => exact ⟨_, rfl, stewardMismatch_kept (.refl s)⟩
  | stewardResetDone => exact ⟨_, rfl, kept_ite (.refl s) (State.updateUnit_kept (kept_mk.2 (.refl s)))⟩
  | vaultChannelLoss c => exact ⟨_, rfl, kept_ite (.refl s) (vaultLoss_kept (.refl s))⟩
  | vaultCopyBackDone c => exact ⟨_, rfl, kept_ite (.refl s) (State.updateUnit_kept (kept_mk.2 (.refl s)))⟩
  | drbgReseed g => exact ⟨_, rfl, drbgReseed_kept (.refl s)⟩
  | drbgErrorState g => exact ⟨_, rfl, drbgErrorDue_kept (.refl s)⟩
  | noiseSample idx b => exact execNoiseSample_kept
  | noiseReadmit idx => exact execNoiseReadmit_kept
  | aliveToggle => exact ⟨_, rfl, aliveToggle_kept (.refl s)⟩
  | tickWrap tj => exact ⟨_, rfl, kept_ite (tickBoundary_kept (.refl s)) (.refl s)⟩
  | recorderFlush => exact ⟨_, rfl, recorderDue_kept (.refl s)⟩
  | floorRaise torn => exact ⟨_, rfl, floorRaise_kept (.refl s)⟩
  | lockoutExpiry => exact ⟨_, rfl, lockoutExpiry_kept (.refl s)⟩
  | throttleUpdate mw quiet back => exact execThrottleUpdate_kept
  | thermalLimitUpdate => exact execThermalLimitUpdate_kept
  | tamperSample ch ev detail lights => exact execTamperSample_kept
  | tamperDecision second => exact execTamperDecision_kept
  | supplySourceChange vdd vbak => exact execSupplySourceChange_kept
  | heartwoodStateLoss => exact ⟨_, rfl, kept_ite (.refl s) (kept_mk.2 (.refl s))⟩
  | jtagLcsCmd params u => exact execJtagLcsCmd_kept
  | dbgChallenge => exact ⟨_, rfl, kept_ite (.refl s) (kept_mk.2 (takeFree_kept (.refl s)))⟩
  | dbgResponse r glitch => exact execDbgResponse_kept
  | extest => exact ⟨_, rfl, kept_ite (powerStop_kept (.refl s)) (.refl s)⟩
  | mgStateReport => exact ⟨_, rfl, kept_ite (.refl s) (kept_mk.2 (.refl s))⟩
  | mgHealthSummary => exact ⟨_, rfl, mgRead_kept (.refl s)⟩
  | mgTj => exact ⟨_, rfl, mgRead_kept (.refl s)⟩
  | mgPower => exact ⟨_, rfl, mgRead_kept (.refl s)⟩
  | alertResponse => exact ⟨_, rfl, kept_ite (kept_mk.2 (.refl s)) (.refl s)⟩
  | i3cIbiAck => exact ⟨_, rfl, kept_mk.2 (.refl s)⟩
  | configRequest p fn a => exact execConfigRequest_kept
  | vfEnableSet p n => exact ⟨_, rfl, kept_ite (.refl s) (kept_mk.2 (.refl s))⟩
  | vfEnableClear p => exact ⟨_, rfl, kept_ite (.refl s) (State.updPort_kept (resetFn_kept (foldl_kept flrAction_kept (.refl
    s))))⟩
  | functionLevelReset inst => exact ⟨_, rfl, kept_ite (.refl s) (resetFn_kept (flrAction_kept (.refl s)))⟩
  | busMasterDisable fn => exact execBusMasterDisable_kept
  | busMasterEnable fn => exact ⟨_, rfl, kept_ite (.refl s) (State.updPort_kept (kept_mk.2 (.refl s)))⟩
  | vectorUnmask inst v addr data => exact ⟨_, rfl, kept_ite (.refl s) (kept_mk.2 (.refl s))⟩
  | hostReadCompletion p f c => exact execHostReadCompletion_kept
  | completionTimeout p f => exact ⟨_, rfl, kept_ite (.refl s) (noData_kept (.refl s))⟩
  | portReset p => exact ⟨_, rfl, kept_ite (.refl s) (kept_mk.2 (.refl s))⟩
  | hostLinkTrained p speed width => exact ⟨_, rfl, kept_ite (.refl s) (portUp_kept (.refl s))⟩
  | hostLinkRetry p => exact execHostLinkRetry_kept
  | hostLinkDown p dl => exact execHostLinkDown_kept
  | hostLaneDegrade p speed width lane => exact execHostLaneDegrade_kept
  | tetherLinkTrained l width => exact execTetherLinkTrained_kept
  | tetherLaneFail l lane => exact execTetherLaneFail_kept
  | discoveryRetry l => exact ⟨_, rfl, kept_ite (.refl s) (discover_kept (.refl s))⟩
  | heartbeatDue => exact ⟨_, rfl, kept_ite (.refl s) (foldl_kept sendMsg_kept (.refl s))⟩
  | tickSyncDue => exact ⟨_, rfl, kept_ite (.refl s) (foldl_kept sendMsg_kept (.refl s))⟩
  | memberLostTimeout d => exact execMemberLostTimeout_kept
  | managerLostTimeout => exact ⟨_, rfl, kept_ite (markLost_kept (.refl s)) (.refl s)⟩
  | tetherJob m => exact execTetherJob_kept
  | tetherResult m => exact execTetherResult_kept
  | ctxMoveTransfer m => exact execCtxMoveTransfer_kept
  | ctxMoveAccept m => exact execCtxMoveAccept_kept
  | ctxMoveRefuse m => exact execCtxMoveRefuse_kept
  | tetherTick m err => exact execTetherTick_kept
  | tetherFence m => exact ⟨_, rfl, take_kept (.refl s) fun hs => markLost_kept (foldl_kept sendAs_kept hs)⟩
  | healthCharter m => exact execHealthCharter_kept
  | healthJoin m => exact execHealthJoin_kept
  | healthAdmit m => exact execHealthAdmit_kept
  | healthBeat m => exact execHealthBeat_kept
  | healthTakeover m => exact execHealthTakeover_kept
  | healthLost m => exact execHealthLost_kept
  | healthKeyAdd m => exact execHealthKeyAdd_kept
  | healthKeyDrop m => exact execHealthKeyDrop_kept
  | healthDissolve m => exact execHealthDissolve_kept
  | cancelConfirm m => exact ⟨_, rfl, cancelRow_kept (.refl s)⟩
  | cancelWithdraw m => exact ⟨_, rfl, cancelRow_kept (.refl s)⟩
  | flitReceive l flit => exact execFlitReceive_kept
  | vaultChannelReturn c => exact ⟨_, rfl, kept_ite (.refl s) (State.updateUnit_kept (takeFreeNat_kept (.refl s)))⟩
  | avsUpdate setpoint => exact ⟨_, rfl, kept_ite (.refl s) (kept_mk.2 (.refl s))⟩
  | pwrFailNRelease env => exact execPwrFailNRelease_kept
  | xtal32Stop => exact ⟨_, rfl, kept_mk.2 (.refl s)⟩
  | xtal32Restart => exact ⟨_, rfl, kept_mk.2 (.refl s)⟩
  | unassignedEncoding j w => exact execUnassignedEncoding_kept

/-! ### The queue and the machine as a whole -/

theorem step_of_pending {c : Instr} {rest : List Instr} (h : s.pending = c :: rest) :
    step s = exec c { s with pending := rest } := by simp [step, h]

theorem step_of_empty (h : s.pending = []) : step s = .next s := by simp [step, h]

/-- A step is the command at the front on the queue's rest, or idles. -/
theorem step_kept (h : step s = .next t) : Kept { s with pending := s.pending.tail } t := by
  cases hp : s.pending with
  | nil =>
    obtain rfl := Host.Outcome.next.inj ((step_of_empty hp).symm.trans h)
    exact ⟨hp, id⟩
  | cons c rest =>
    rw [step_of_pending hp] at h
    obtain ⟨u, hu, hk⟩ := exec_kept c { s with pending := rest }
    obtain rfl := Host.Outcome.next.inj (hu.symm.trans h)
    exact hk

end Sys2Proof.Machine

namespace Sys2Proof.Machine

/-- Settles O1: the two cases of `step`. -/
theorem stepRunsFront : Obligations.StepRunsFront := ⟨fun _ _ _ => step_of_pending, fun _ => step_of_empty⟩

/-- Settles O2: the fields of the reset state. -/
theorem resetState : Obligations.ResetState := by
  unfold Obligations.ResetState
  repeat' constructor

/-- Settles O3: an empty host memory is canonical. -/
theorem soundAtReset : Obligations.SoundAtReset := ⟨List.Pairwise.nil, nofun⟩

/-- Settles O4: every operation of the model that writes host memory does so by `Mem.write`, which keeps its form. -/
theorem soundKept : Obligations.SoundKept := fun _ _ hs h => (step_kept h).hostMem hs

/-- Settles O5: no operation of the model touches the queue, and every command answers a next state. -/
theorem stepKeepsRest : Obligations.StepKeepsRest :=
  ⟨fun _ _ h => (step_kept h).pending, fun c s =>
    let ⟨t, ht, hk⟩ := exec_kept c s
    ⟨t, ht, hk.pending⟩⟩

end Sys2Proof.Machine
end

section
/-! SUPPORT. Doorbell forms, slice limits and the events of queues (R35, R39, R45, R61, R78 to R90, R273): what a write of another
form does, when a slice has overrun, and how a CE that is due comes to be written or held. -/

namespace Sys2Proof.Machine

theorem doorbellWrite_of {s : State} {face off : Nat} (hr : s.ringing = true) (hl : s.instLive (faceInst s face) = true)
    (ha : asleep s face = false) (ho : off < 4096) (w v : Nat) : doorbellWrite s face off w v =
      if w = 4 ∧ off % 8 = 0 then ringSq s (faceInst s face) (off / 8) (v % 2 ^ 32)
      else if w = 4 ∧ off % 8 = 4 then ringCq s (faceInst s face) (off / 8) (v % 2 ^ 32)
      else if w = 8 ∧ off % 8 = 0 then
        ringCq (ringSq s (faceInst s face) (off / 8) (v % 2 ^ 32)) (faceInst s face) (off / 8) (v / 2 ^ 32 % 2 ^ 32)
      else emit s 0x0101 (faceInst s face) (off / 8) off := by
  simp [doorbellWrite, hr, hl, ha, ho.not_ge]

theorem faceInst_ringSq (s : State) (face i q v : Nat) : faceInst (ringSq s i q v) face = faceInst s face := by
  obtain ⟨_, _, h⟩ := ringSq_frame s i q v
  rw [h]; rfl

theorem updWhere_eq_self {α : Type} {l : List α} {p : α → Bool} {f : α → α} (h : ∀ x ∈ l, p x = true → f x = x) :
    updWhere p f l = l := by
  rw [updWhere]
  conv_rhs => rw [← List.map_id l]
  refine List.map_congr_left fun x hx => ?_
  split
  · exact h x hx ‹_›
  · rfl

/-- In a list in which no two elements share a key the first found under it is the only one. -/
theorem find?_of_pairwise {α : Type} {l : List α} {p : α → Bool} {x : α} (hp : l.Pairwise fun a b => ¬(p a = true ∧ p b = true))
    (hx : x ∈ l) (h : p x = true) : l.find? p = some x := by
  induction hp with
  | nil => cases hx
  | @cons a l hd _ ih =>
    rcases List.mem_cons.1 hx with rfl | hm
    · simp [h]
    · have : p a = false := by simpa [h] using hd x hm
      simp [this, ih hm]

theorem ringSq_ignored {s : State} {i q : Nat} (v : Nat)
    (hx : ∀ x, s.sq? i q = some x → x.state = .absent ∨ x.state = .error)
    (hp : s.work.sqs.Pairwise fun a b => ¬(a.inst = b.inst ∧ a.num = b.num)) : ringSq s i q v = s := by
  have hu : s.updSq i q (sqRung v) = s := by
    refine congrArg (fun l => ({ s with work.sqs := l } : State)) (updWhere_eq_self fun x hm hk => ?_)
    have hs := hx x (find?_of_pairwise (hp.imp fun {a b} hab => ?_) hm hk)
    · rcases hs with hs | hs <;> simp [sqRung, hs, QState.rings]
    · grind
  rw [ringSq_eq, hu]
  simp [noteDropped]

theorem ringCq_ignored {s : State} {i q : Nat} (v : Nat)
    (hc : ∀ c, s.cq? i q = some c → c.state = .absent ∨ c.state = .error) : ringCq s i q v = s := by
  unfold ringCq
  split
  · rfl
  · next c h => rcases hc c h with hs | hs <;> simp [hs, QState.rings]

/-- Settles O8, by the width and alignment of the write; one to a queue that stands in no state to take it changes nothing.
-/
theorem doorbellForms : Obligations.DoorbellForms := by
  unfold Obligations.DoorbellForms
  intro s face off w v hr hl ha ho
  have hex (w v : Nat) : exec (.sqDoorbell face off w v) s = .next (doorbellWrite s face off w v) := rfl
  have hex' (w v : Nat) : exec (.cqDoorbell face off w v) s = .next (doorbellWrite s face off w v) := rfl
  refine ⟨fun h8 hv => ⟨_, rfl, fun htr htl hta => ?_⟩, fun h4 h8 => ?_, fun h8 hx hp => ?_, fun h4 hc => ?_⟩
  · rw [doorbellWrite_of hr hl ha ho, if_pos ⟨rfl, h8⟩, Nat.mod_mod] at htr htl hta ⊢
    refine congrArg Host.Outcome.next (?_ : doorbellWrite .. = doorbellWrite ..)
    have hdiv : (off + 4) / 8 = off / 8 := by omega
    rw [doorbellWrite_of hr hl ha ho, doorbellWrite_of htr htl hta (by omega), hdiv, faceInst_ringSq,
      if_neg (by omega), if_neg (by omega), if_pos ⟨rfl, h8⟩, if_neg (by omega), if_pos (by omega)]
  · rw [hex, hex', doorbellWrite_of hr hl ha ho, if_neg (by omega), if_neg (by omega), if_neg h8]
    exact ⟨rfl, rfl⟩
  · rw [hex, doorbellWrite_of hr hl ha ho, if_pos ⟨rfl, h8⟩, ringSq_ignored _ hx hp]
  · rw [hex', doorbellWrite_of hr hl ha ho, if_neg (by omega), if_pos ⟨rfl, h4⟩, ringCq_ignored _ hc]

/-- Counting the bits of `runnable`, a job that runs in this tick has its slice in it. -/
theorem runnable_sliceTick {s : State} {x : Job} (h : runnable s x = true) : x.sliceTick = some (now s) := by
  simp only [runnable, Bool.and_eq_true, beq_iff_eq] at h
  exact h.1.2

theorem Engine.powerDown_eq (e : Engine) : e.powerDown = { e with
    svOn := if 3 ≤ e.svIdle then false else e.svOn, lvOn := if 3 ≤ e.lvIdle then false else e.lvOn } := by
  simp only [Engine.powerDown]
  congr 1
  · split <;> simp <;> omega
  · split <;> simp <;> omega

/-- Settles O13: a job whose slice runs has it in this tick, and a unit that has idled through two ticks is switched off. -/
theorem sliceLimits : Obligations.SliceLimits := by
  unfold Obligations.SliceLimits
  refine ⟨fun s j x hx => ⟨fun hr h0 => ?_, fun hr h0 => ?_, fun hr => ?_⟩, fun s k e he => ?_⟩
  · simp [exec, execSliceOverrun, hx, hr, runnable_sliceTick hr, h0]
  · simp [exec, execSliceOverrun, hx, hr, runnable_sliceTick hr, h0, errR]
  · simp [exec, execSliceOverrun, hx, hr]
  · refine ⟨_, rfl, ⟨_, rfl⟩, ?_, fun i hi => ?_⟩
    · simp [he, Engine.powerDown_eq]
    · simp [Ne.symm hi]

/-! ### What the posting of a CE goes by -/

/-- What a release reads and writes of CEs: the CQs, the jobs whose CE is not written yet, those whose CE is, and the boundary. -/
def State.posting (s : State) : List Cq × List Job × List Done × Nat :=
  (s.work.cqs, s.work.unposted, s.work.done, s.tick.count)

/-- A run of changes, none of which touches CEs. -/
theorem foldl_posting {α : Type} {f : State → α → State} (h : ∀ s a, (f s a).posting = s.posting) (l : List α) (s : State) :
    (l.foldl f s).posting = s.posting :=
  List.foldlRecOn (motive := fun t => t.posting = s.posting) l f rfl fun t ht a _ => (h t a).trans ht

theorem WriteLeaves.posting {s t : State} (h : WriteLeaves s t) : t.posting = s.posting := by
  obtain ⟨_, _, _, _, _, _, _, _, rfl, _⟩ := h
  rfl

@[simp] theorem updJob_posting (s : State) (j : Nat) (f : Job → Job) : (s.updJob j f).posting = s.posting := rfl
@[simp] theorem dropExec_posting (s : State) (j : Nat) : (dropExec s j).posting = s.posting := rfl
@[simp] theorem specInc_posting (s : State) (k n : Nat) : (specInc s k n).posting = s.posting := rfl
@[simp] theorem sendMsg_posting (s : State) (d k : Nat) (b : Bytes) : (sendMsg s d k b).posting = s.posting := rfl

@[simp] theorem dropKey_posting (s : State) (i : Nat) : (dropKey s i).posting = s.posting := by
  unfold dropKey
  split <;> rfl

@[simp] theorem reapKeys_posting (s : State) : (reapKeys s).posting = s.posting :=
  foldl_posting (fun s (k : KeyObj) => dropKey_posting s k.index) _ s

@[simp] theorem applyEffect_posting (s : State) (e : Effect) : (applyEffect s e).posting = s.posting := by
  cases e with
  | destroyKey i =>
    simp only [applyEffect, destroyKey]
    rw [apply_ite State.posting, dropKey_posting]
    exact ite_self _
  | putCtx c => simp only [applyEffect]; split <;> rfl
  | freeCtx h => simp only [applyEffect, dropCtx]; split <;> rfl
  | freeStream i => simp only [applyEffect, dropStream]; split <;> rfl
  | _ => rfl

@[simp] theorem applyEffects_posting (s : State) (es : List Effect) : (applyEffects s es).posting = s.posting :=
  foldl_posting applyEffect_posting es s

@[simp] theorem announceKeys_posting (s : State) (es : List Effect) : (announceKeys s es).posting = s.posting := by
  unfold announceKeys
  split
  · rfl
  refine foldl_posting (fun s e => ?_) es s
  split
  · split
    · exact foldl_posting (fun s d => sendMsg_posting ..) _ s
    · rfl
  · rfl

@[simp] theorem commitNow_posting (s : State) (j : Nat) : (commitNow s j).posting = s.posting := by
  unfold commitNow
  split
  · rfl
  rename_i x _
  split
  · rfl
  dsimp only
  split
  · simp
  have ho := outputFrags_leaves s x
  split <;> rename_i u _ hu <;> rw [hu] at ho
  · have ht := transFrags_leaves u x.inst ‹List Frag›
    split <;> rename_i hv <;> rw [hv] at ht
    · simpa using (ho.trans (ht.trans (writeFrags_leaves ..))).posting
    · exact (ho.trans ht).posting
  · exact ho.posting

@[simp] theorem cancelSend_posting (s : State) (x : Job) (d : Nat) : (cancelSend s x d).posting = s.posting := by
  unfold cancelSend
  split
  · split <;> rfl
  · rfl

@[simp] theorem endUnconfirmed_posting (s : State) (x : Job) (st d n : Nat) :
    (endUnconfirmed s x st d n).posting = s.posting := by
  have hz : (zeroiseEnvelope s x n).posting = s.posting := by
    unfold zeroiseEnvelope
    split <;> rfl
  unfold endUnconfirmed
  dsimp only
  rw [updJob_posting, apply_ite State.posting, specInc_posting, ite_self, cancelSend_posting, hz]

@[simp] theorem decideDependant_posting (s : State) (x : Job) (st : Nat) : (decideDependant s x st).posting = s.posting := by
  unfold decideDependant
  dsimp only
  split
  · rfl
  split
  · rw [apply_ite State.posting, commitNow_posting, ite_self, cancelSend_posting, apply_ite State.posting, specInc_posting,
      ite_self, updJob_posting]
  · rw [updJob_posting, endUnconfirmed_posting]

@[simp] theorem countCe_posting (s : State) (x : Job) : (countCe s x).posting = s.posting := by
  unfold countCe
  dsimp only
  split
  · rfl
  split <;> split <;> rfl

@[simp] theorem resumeWaiters_posting (s : State) : (resumeWaiters s).posting = s.posting := by
  refine foldl_posting (fun s (x : Job) => ?_) _ s
  unfold resumeOne
  split
  · rfl
  dsimp only
  split
  · rfl
  split
  · rfl
  split
  · rfl
  split
  · rfl
  split <;> rfl

/-! ### A CE on its way -/

/-- No CE that is held, due or written is lost. -/
def CesKept (s t : State) : Prop :=
  t.work.unposted = s.work.unposted ∧ t.work.done = s.work.done ∧ t.tick.count = s.tick.count
    ∧ ∀ i c y, s.cq? i c = some y → ∃ z, t.cq? i c = some z ∧ y.heldCes ⊆ z.heldCes

theorem CesKept.of_posting {s t : State} (h : t.posting = s.posting) : CesKept s t := by
  simp only [State.posting, Prod.mk.injEq] at h
  obtain ⟨hc, hu, hd, hn⟩ := h
  exact ⟨hu, hd, hn, fun i c y hy => ⟨y, by rw [State.cq?, hc]; exact hy, List.Subset.refl _⟩⟩

theorem CesKept.trans {s t u : State} (h : CesKept s t) (k : CesKept t u) : CesKept s u := by
  obtain ⟨hu, hd, hn, hc⟩ := h
  obtain ⟨ku, kd, kn, kc⟩ := k
  refine ⟨ku.trans hu, kd.trans hd, kn.trans hn, fun i c y hy => ?_⟩
  obtain ⟨z, hz, hs⟩ := hc i c y hy
  obtain ⟨w, hw, ht⟩ := kc i c z hz
  exact ⟨w, hw, List.Subset.trans hs ht⟩

/-- A change of one CQ that drops no CE it holds. -/
theorem updCq_cesKept (s : State) (i q : Nat) (f : Cq → Cq) (hk : ∀ c, (f c).inst = c.inst ∧ (f c).num = c.num)
    (hf : ∀ c, c.heldCes ⊆ (f c).heldCes) : CesKept s (s.updCq i q f) := by
  refine ⟨rfl, rfl, rfl, fun j c y hy => ?_⟩
  by_cases hq : j ≠ i ∨ c ≠ q
  · exact ⟨y, (State.cq?_updCq_ne s i q _ _ f hk hq).trans hy, List.Subset.refl _⟩
  · obtain ⟨rfl, rfl⟩ : j = i ∧ c = q := by simpa [not_or] using hq
    exact ⟨f y, by rw [State.cq?_updCq _ _ _ _ hk, hy, Option.map_some], hf y⟩

/-- The CQ written back with what a posted CE makes of it. -/
theorem setCq_cesKept {s : State} {i q : Nat} {y z : Cq} (hy : s.cq? i q = some y) (hi : z.inst = y.inst) (hn : z.num = y.num)
    (hz : z.heldCes = y.heldCes) : CesKept s (s.updCq i q fun _ => z) := by
  have hq : y.inst = i ∧ y.num = q := by simpa using find?_key hy
  let g (c : Cq) : Cq := if c.inst = i ∧ c.num = q then z else c
  have hg (c : Cq) : (g c).inst = c.inst ∧ (g c).num = c.num := by
    by_cases hc : c.inst = i ∧ c.num = q <;> simp only [g, hc, and_self, if_true, if_false]
    exact ⟨hi.trans hq.1, hn.trans hq.2⟩
  have he : (s.updCq i q fun _ => z) = s.updCq i q g := by
    refine congrArg (fun l => ({ s with work.cqs := l } : State)) (List.map_congr_left fun c _ => ?_)
    by_cases hc : c.inst = i ∧ c.num = q <;> simp [g, hc]
  refine ⟨rfl, rfl, rfl, fun j c w hw => ?_⟩
  rw [he]
  by_cases hjc : j ≠ i ∨ c ≠ q
  · exact ⟨w, (State.cq?_updCq_ne s i q _ _ g hg hjc).trans hw, List.Subset.refl _⟩
  · obtain ⟨rfl, rfl⟩ : j = i ∧ c = q := by simpa [not_or] using hjc
    obtain rfl : y = w := Option.some.inj (hy.symm.trans hw)
    exact ⟨g y, by rw [State.cq?_updCq _ _ _ _ hg, hw, Option.map_some], by simp [g, hq, hz]⟩

/-- The CE of a job is written, at boundary `n`. -/
def CeDone (x : Job) (n : Nat) (s : State) : Prop :=
  ∃ d ∈ s.work.done, d.id = x.id ∧ d.inst = x.inst ∧ d.tag = x.tag ∧ d.status = (x.result.getD default).status ∧ d.postedAt = n

/-- A job stands among those whose CE is still to be written, at boundary `n`. -/
def CeDue (x : Job) (n : Nat) (s : State) : Prop :=
  s.tick.count = n ∧ s.work.unposted.find? (·.id == x.id) = some x

/-- The CQ of a job holds its CE. -/
def CeHeld (x : Job) (s : State) : Prop :=
  ∃ c h, s.cq? x.inst x.cq = some c ∧ h ∈ c.heldCes ∧ h.id = x.id

/-- The CE of a job is written, or its CQ holds it. -/
def CeSettled (x : Job) (n : Nat) (s : State) : Prop := CeDone x n s ∨ CeDue x n s ∧ CeHeld x s

theorem State.cq?_updCq_some {s : State} {i q : Nat} {y : Cq} {f : Cq → Cq} (hy : s.cq? i q = some y)
    (hk : ∀ c, (f c).inst = c.inst ∧ (f c).num = c.num) : (s.updCq i q f).cq? i q = some (f y) := by
  rw [State.cq?_updCq _ _ _ _ hk, hy, Option.map_some]

section
variable {x : Job} {n : Nat} {s t : State}

theorem CeDone.kept (h : CeDone x n s) (k : CesKept s t) : CeDone x n t := by
  obtain ⟨-, hd, -⟩ := k
  simpa only [CeDone, hd] using h

theorem CeDue.kept (h : CeDue x n s) (k : CesKept s t) : CeDue x n t := by
  obtain ⟨hu, -, hn, -⟩ := k
  simpa only [CeDue, hu, hn] using h

theorem CeHeld.kept (h : CeHeld x s) (k : CesKept s t) : CeHeld x t := by
  obtain ⟨c, ce, hc, hm, hid⟩ := h
  obtain ⟨z, hz, hsub⟩ := k.2.2.2 _ _ _ hc
  exact ⟨z, ce, hz, hsub hm, hid⟩

theorem CeSettled.kept (h : CeSettled x n s) (k : CesKept s t) : CeSettled x n t :=
  h.imp (·.kept k) fun ⟨d, e⟩ => ⟨d.kept k, e.kept k⟩

/-- What is kept of a job whose CE is written at boundary `n`. -/
def doneOf (n : Nat) (j : Job) : Done :=
  ⟨j.id, j.inst, j.tag, (j.result.getD default).status, n, j.streamUse.map fun k => (k, j.streamGen)⟩

/-- A CE that is written has its job counted and its dependants decided. -/
theorem afterCe_some {id : Nat} {j : Job} (h : s.work.unposted.find? (·.id == id) = some j) : (afterCe s id).posting =
    (s.work.cqs, s.work.unposted.filter (fun y => y.id != id), s.work.done ++ [doneOf (now s) j], s.tick.count) := by
  simp only [afterCe, h]
  rw [foldl_posting fun _ _ => decideDependant_posting .., countCe_posting]
  rfl

theorem afterCe_none {id : Nat} (h : s.work.unposted.find? (·.id == id) = none) : afterCe s id = s := by
  simp only [afterCe, h]

theorem CeDue.afterCe (h : CeDue x n s) : CeDone x n (afterCe s x.id) := by
  have e := afterCe_some h.2
  simp only [State.posting, Prod.mk.injEq] at e
  obtain ⟨-, -, hd, -⟩ := e
  refine ⟨_, by rw [hd]; exact List.mem_append_right _ (List.mem_singleton_self _), rfl, rfl, rfl, rfl, h.1⟩

theorem CeDone.afterCe (h : CeDone x n s) (id : Nat) : CeDone x n (afterCe s id) := by
  rcases hj : s.work.unposted.find? (·.id == id) with _ | j
  · rwa [afterCe_none hj]
  · obtain ⟨d, hd, hrest⟩ := h
    have e := afterCe_some hj
    simp only [State.posting, Prod.mk.injEq] at e
    exact ⟨d, by rw [e.2.2.1]; exact List.mem_append_left _ hd, hrest⟩

theorem CeDue.afterCe_ne (h : CeDue x n s) {id : Nat} (hid : id ≠ x.id) : CeDue x n (Machine.afterCe s id) := by
  rcases hj : s.work.unposted.find? (·.id == id) with _ | j
  · rwa [afterCe_none hj]
  · have e := afterCe_some hj
    simp only [State.posting, Prod.mk.injEq] at e
    refine ⟨e.2.2.2.trans h.1, ?_⟩
    rw [e.2.1, List.find?_filter, ← h.2]
    refine congrArg (fun p => List.find? p _) (funext fun y => ?_)
    by_cases hy : y.id = x.id <;> simp [hy, Ne.symm hid]

theorem CeHeld.afterCe (h : CeHeld x s) (id : Nat) : CeHeld x (Machine.afterCe s id) := by
  rcases hj : s.work.unposted.find? (·.id == id) with _ | j
  · rwa [afterCe_none hj]
  · have e := afterCe_some hj
    simp only [State.posting, Prod.mk.injEq] at e
    obtain ⟨c, ce, hc, hm⟩ := h
    exact ⟨c, ce, by rw [State.cq?, e.1]; exact hc, hm⟩

theorem CeSettled.afterCe (h : CeSettled x n s) (id : Nat) : CeSettled x n (Machine.afterCe s id) := by
  rcases h with h | ⟨hd, hh⟩
  · exact .inl (h.afterCe id)
  · by_cases hid : id = x.id
    · exact .inl (hid ▸ hd.afterCe)
    · exact .inr ⟨hd.afterCe_ne hid, hh.afterCe id⟩

/-! ### One CE posted or held -/

theorem holdCe_cesKept (s : State) (i c : Nat) (ce : HeldCe) : CesKept s (holdCe s i c ce) := by
  refine updCq_cesKept s i c _ (fun _ => ⟨rfl, rfl⟩) fun y h hm => ?_
  by_cases hlt : h.id < ce.id
  · simp [hm, hlt]
  · simp [hm, Nat.not_lt.1 hlt]

theorem CeDue.holdCe {ce : HeldCe} (h : CeDue x n s) (hs : (s.cq? x.inst x.cq).isSome) (hid : ce.id = x.id) :
    CeSettled x n (holdCe s x.inst x.cq ce) := by
  obtain ⟨y, hy⟩ := Option.isSome_iff_exists.1 hs
  have hd := h.kept (holdCe_cesKept s x.inst x.cq ce)
  unfold Machine.holdCe at hd ⊢
  exact .inr ⟨hd, _, ce, State.cq?_updCq_some hy fun _ => ⟨rfl, rfl⟩, by simp, hid⟩

theorem cqFail_cesKept (s : State) (i c r k : Nat) : CesKept s (cqFail s i c r k) :=
  updCq_cesKept s i c (fun x => { x with state := .error, reason := r, errIndex := k % 65536 }) (fun _ => ⟨rfl, rfl⟩)
    fun _ => List.Subset.refl _

/-- What `postOne` can do: its CE is written and acted on, or its CQ holds it. -/
theorem postOne_cases (s : State) (i c : Nat) (ce : HeldCe) : ∃ t, CesKept s t ∧
    (postOne s i c ce = afterCe t ce.id ∨ (t.cq? i c).isSome ∧ postOne s i c ce = holdCe t i c ce) := by
  unfold postOne
  split
  · exact ⟨s, .of_posting rfl, .inl rfl⟩
  rename_i y hy
  split
  · exact ⟨s, .of_posting rfl, .inr ⟨by simp [hy], rfl⟩⟩
  have hw := (writeCe_leaves s y ce).posting
  have hz : ∀ z, (writeCe s y ce).2 = some z → z.inst = y.inst ∧ z.num = y.num ∧ z.heldCes = y.heldCes := by
    intro z
    unfold writeCe
    dsimp only
    split <;> intro hz <;> cases hz
    exact ⟨rfl, rfl, rfl⟩
  rcases hc : writeCe s y ce with ⟨u, _ | z⟩ <;> rw [hc] at hw hz
  · have hk := (CesKept.of_posting hw).trans (cqFail_cesKept u i c rCqWrite (y.tail % ringN y.log2n))
    obtain ⟨z, hz, -⟩ := hk.2.2.2 _ _ _ hy
    exact ⟨_, hk, .inr ⟨by simp [hz], rfl⟩⟩
  · obtain ⟨hi, hn, hh⟩ := hz z rfl
    have hy' : u.cq? i c = some y := by
      simp only [State.posting, Prod.mk.injEq] at hw
      rw [State.cq?, hw.1]
      exact hy
    exact ⟨_, (CesKept.of_posting hw).trans (setCq_cesKept hy' hi hn hh), .inl rfl⟩

theorem CeDone.postOne (h : CeDone x n s) (i c : Nat) (ce : HeldCe) : CeDone x n (postOne s i c ce) := by
  obtain ⟨t, hk, e | ⟨-, e⟩⟩ := postOne_cases s i c ce <;> rw [e]
  · exact (h.kept hk).afterCe _
  · exact (h.kept hk).kept (holdCe_cesKept ..)

theorem CeDue.postOne_ne (h : CeDue x n s) (i c : Nat) {ce : HeldCe} (hid : ce.id ≠ x.id) : CeDue x n (postOne s i c ce) := by
  obtain ⟨t, hk, e | ⟨-, e⟩⟩ := postOne_cases s i c ce <;> rw [e]
  · exact (h.kept hk).afterCe_ne hid
  · exact (h.kept hk).kept (holdCe_cesKept ..)

theorem CeDue.postOne (h : CeDue x n s) {ce : HeldCe} (hid : ce.id = x.id) : CeSettled x n (postOne s x.inst x.cq ce) := by
  obtain ⟨t, hk, e | ⟨hs, e⟩⟩ := postOne_cases s x.inst x.cq ce <;> rw [e]
  · exact .inl (hid ▸ (h.kept hk).afterCe)
  · exact (h.kept hk).holdCe hs hid

theorem CeSettled.postOne (h : CeSettled x n s) (i c : Nat) (ce : HeldCe) : CeSettled x n (postOne s i c ce) := by
  obtain ⟨t, hk, e | ⟨-, e⟩⟩ := postOne_cases s i c ce <;> rw [e]
  · exact (h.kept hk).afterCe _
  · exact (h.kept hk).kept (holdCe_cesKept ..)

/-! ### Held CEs released in order, and the CE of a job -/

/-- Held CEs that are posted one after another leave the CE of a job written or held, where it is so already, or is one of
them. -/
theorem foldl_postOne_settles {g : State → HeldCe → HeldCe} (hg : ∀ s h, (g s h).id = h.id) (l : List HeldCe) (i c : Nat)
    (h : CeSettled x n s ∨ CeDue x n s ∧ (i = x.inst ∧ c = x.cq) ∧ ∃ ce ∈ l, ce.id = x.id) :
    CeSettled x n (l.foldl (fun s ce => postOne s i c (g s ce)) s) := by
  induction l generalizing s with
  | nil => simpa using h
  | cons a l ih =>
    refine ih ?_
    rcases h with h | ⟨hd, ⟨rfl, rfl⟩, ce, hm, hid⟩
    · exact .inl (h.postOne ..)
    · by_cases ha : a.id = x.id
      · exact .inl (hd.postOne ((hg s a).trans ha))
      · have hm : ce ∈ l := (List.mem_cons.1 hm).resolve_left fun e => ha (e ▸ hid)
        exact .inr ⟨hd.postOne_ne _ _ (by rwa [hg]), ⟨rfl, rfl⟩, ce, hm, hid⟩

theorem CeSettled.releaseHeld (h : CeSettled x n s) (i c : Nat) (b : Option Nat) :
    CeSettled x n (Machine.releaseHeld s i c b) := by
  unfold Machine.releaseHeld
  split
  · exact h
  rename_i y hy
  extract_lets go
  split
  · exact h
  refine foldl_postOne_settles (g := fun s (h : HeldCe) => { h with body := withHead h.body (sqHeadNow s i h.sq) })
    (fun _ _ => rfl) _ i c ?_
  rcases h with hd | ⟨hd, z, ce, hz, hm, hid⟩
  · exact .inl (.inl hd)
  by_cases hq : x.inst ≠ i ∨ x.cq ≠ c
  · refine .inl (.inr ⟨hd, z, ce, ?_, hm, hid⟩)
    exact Eq.trans (State.cq?_updCq_ne s i c x.inst x.cq _ (by exact fun _ => ⟨rfl, rfl⟩) hq) hz
  · obtain ⟨rfl, rfl⟩ : x.inst = i ∧ x.cq = c := by simpa [not_or] using hq
    obtain rfl : y = z := Option.some.inj (hy.symm.trans hz)
    by_cases hgo : go ce = true
    · exact .inr ⟨hd, ⟨rfl, rfl⟩, ce, List.mem_filter.2 ⟨hm, hgo⟩, hid⟩
    · refine .inl (.inr ⟨hd, _, ce, State.cq?_updCq_some hy fun _ => ⟨rfl, rfl⟩, ?_, hid⟩)
      exact List.mem_filter.2 ⟨hm, by simpa using hgo⟩

theorem CeDue.releaseHeld (h : CeDue x n s) (i c : Nat) : CeDue x n (Machine.releaseHeld s i c (some x.id)) := by
  unfold Machine.releaseHeld
  split
  · exact h
  dsimp only
  split
  · exact h
  refine List.foldlRecOn (motive := CeDue x n) _ _ h fun t ht ce hce => ht.postOne_ne i c ?_
  have := (List.mem_filter.1 hce).2
  have hlt : ce.id < x.id := by simpa using this
  exact hlt.ne

theorem CeSettled.postCe (h : CeSettled x n s) (i c : Nat) (ce : HeldCe) : CeSettled x n (postCe s i c ce) :=
  (h.releaseHeld i c _).postOne i c ce

theorem CeDue.postCe (h : CeDue x n s) {ce : HeldCe} (hid : ce.id = x.id) : CeSettled x n (postCe s x.inst x.cq ce) := by
  rw [Machine.postCe, hid]
  exact (h.releaseHeld ..).postOne hid

/-- A state in which a job leaves the device for those whose CE is still to be written. -/
def leaves (s : State) (j : Job) : State := reapKeys (dropExec { s with
  work.jobs := s.work.jobs.filter (·.id != j.id), work.unposted := s.work.unposted ++ [j] } j.id)

theorem leaves_posting (s : State) (j : Job) :
    (leaves s j).posting = (s.work.cqs, s.work.unposted ++ [j], s.work.done, s.tick.count) := by
  rw [leaves, reapKeys_posting, dropExec_posting]
  rfl

theorem leaves_due (hn : s.tick.count = n) (hu : ∀ y ∈ s.work.unposted, y.id ≠ x.id) : CeDue x n (leaves s x) := by
  have e := leaves_posting s x
  simp only [State.posting, Prod.mk.injEq] at e
  refine ⟨e.2.2.2.trans hn, ?_⟩
  rw [e.2.1, List.find?_append, List.find?_eq_none.2 fun y hy => by simpa using hu y hy]
  simp

theorem CeSettled.leaves (h : CeSettled x n s) (j : Job) : CeSettled x n (leaves s j) := by
  have e := leaves_posting s j
  simp only [State.posting, Prod.mk.injEq] at e
  obtain ⟨hcq, hun, hdn, hn⟩ := e
  rcases h with hd | ⟨⟨hc, hf⟩, c, hh⟩
  · exact .inl (by simpa only [CeDone, hdn] using hd)
  · refine .inr ⟨⟨hn.trans hc, by rw [hun, List.find?_append, hf]; rfl⟩, c, ?_⟩
    rw [State.cq?, hcq]
    exact hh

/-- The CE of a job that leaves comes out of those its CQ has room for. -/
def unreserve (s : State) (j : Job) : State := s.updCq j.inst j.cq fun c => { c with reserved := c.reserved - 1 }

theorem unreserve_cesKept (s : State) (j : Job) : CesKept s (unreserve s j) :=
  updCq_cesKept s _ _ _ (fun _ => ⟨rfl, rfl⟩) fun _ => List.Subset.refl _

/-- The posting of a job: the commit that is still owed, then its leaving and its CE. -/
theorem postJob_eq (s : State) (k : Nat) : ∃ t, t.posting = s.posting ∧ (∀ j, s.job? k = some j → j.committed = true → t = s)
    ∧ (t.job? k = none ∧ postJob s k = t
      ∨ ∃ j, t.job? k = some j ∧ postJob s k = postCe (leaves (unreserve t j) j) j.inst j.cq (jobCe (unreserve t j) j (now t))) := by
  unfold postJob
  extract_lets t
  have ht : t.posting = s.posting := by
    unfold t
    split
    · split
      · exact commitNow_posting s k
      · rfl
    · rfl
  have hc (j : Job) (hj : s.job? k = some j) (hc : j.committed = true) : t = s := by simp [t, hj, hc]
  clear_value t
  refine ⟨t, ht, hc, ?_⟩
  split
  · exact .inl ⟨‹_›, rfl⟩
  · rename_i j hj
    obtain rfl := State.job?_id hj
    exact .inr ⟨j, hj, rfl⟩

/-- A job whose CE is due is written or held by the posting of it. -/
theorem postJob_settles (hx : s.job? x.id = some x) (hc : x.committed = true) (hu : ∀ y ∈ s.work.unposted, y.id ≠ x.id) :
    CeSettled x (now s) (postJob s x.id) := by
  obtain ⟨t, -, ht, he⟩ := postJob_eq s x.id
  obtain rfl := ht x hx hc
  rcases he with ⟨hn, -⟩ | ⟨j, hj, he⟩
  · simp [hx] at hn
  · obtain rfl : x = j := Option.some.inj (hx.symm.trans hj)
    rw [he]
    refine CeDue.postCe ?_ rfl
    exact leaves_due rfl hu

theorem CeSettled.postJob (h : CeSettled x n s) (k : Nat) : CeSettled x n (Machine.postJob s k) := by
  obtain ⟨t, ht, -, ⟨-, he⟩ | ⟨j, -, he⟩⟩ := postJob_eq s k <;> rw [he]
  · exact h.kept (.of_posting ht)
  · exact (((h.kept (.of_posting ht)).kept (unreserve_cesKept t j)).leaves j).postCe ..

theorem CeSettled.postDue (h : CeSettled x n s) (k : Nat) : CeSettled x n (postDue k s) := by
  induction k generalizing s with
  | zero => exact h
  | succ k ih =>
    simp only [Machine.postDue]
    split
    · exact h
    · exact ih (h.postJob _)
end

/-! ### JOB_RELEASE, PENDING_TIMEOUT, CQ_INTERRUPT and CQ_STARVED -/

/-- The CE of a job that is due is written or held at this boundary. -/
theorem exec_jobRelease_settles {s : State} {x : Job} (hx : s.job? x.id = some x) (hs : s.service = true)
    (hd : due x (now s) = true) (hc : x.committed = true) (hu : ∀ y ∈ s.work.unposted, y.id ≠ x.id) {t : State}
    (ht : exec (.jobRelease x.id) s = .next t) : CeSettled x (now s) t := by
  change execJobRelease x.id s = _ at ht
  simp only [execJobRelease, hx, hs, hd, Bool.and_self, if_true, Host.Outcome.next.injEq] at ht
  exact ht ▸ ((postJob_settles hx hc hu).postDue _).kept (.of_posting (resumeWaiters_posting _))

theorem pendingTimeout_idle {s : State} {x : Job} (h : x.dep ≠ .pending ∨ now s < x.dispatched + 4096) :
    pendingTimeout s x = s := by
  refine if_neg fun hc => ?_
  simp only [Bool.and_eq_true, beq_iff_eq, decide_eq_true_eq] at hc
  obtain ⟨⟨hp, -⟩, hn⟩ := hc
  rcases h with h | h
  · exact h hp
  · omega

theorem State.job?_updJob_some {s : State} {j : Nat} {x : Job} {f : Job → Job} (hx : s.job? j = some x)
    (hf : ∀ y, (f y).id = y.id) : (s.updJob j f).job? j = some (f x) := by
  rw [State.job?_updJob _ _ _ hf, hx, Option.map_some]

theorem endUnconfirmed_job? {s : State} {j : Nat} {x : Job} (hx : s.job? j = some x) (st d n : Nat) :
    ∃ y, (endUnconfirmed s x st d n).job? j = some y ∧ y.endedAt = some n
      ∧ y.result = some { status := st, detail := d, len := 0, out := [], effects := [] } := by
  obtain rfl := State.job?_id hx
  unfold endUnconfirmed
  extract_lets t u
  have hz : (zeroiseEnvelope s x n).job? x.id = some x := by
    unfold zeroiseEnvelope
    split <;> exact hx
  have ht : t.job? x.id = some x := by
    simp only [t, cancelSend]
    split
    · split <;> exact hz
    · exact hz
  have hu : u.job? x.id = some x := by
    simp only [u]
    split <;> exact ht
  exact ⟨_, State.job?_updJob_some hu fun _ => rfl, rfl, rfl⟩

/-- Ending an unconfirmed job writes no byte of host memory and no key, context or stream. -/
theorem endUnconfirmed_leaves (s : State) (x : Job) (st d n : Nat) :
    (endUnconfirmed s x st d n).hostMem = s.hostMem ∧ (endUnconfirmed s x st d n).store = s.store := by
  unfold endUnconfirmed cancelSend zeroiseEnvelope
  repeat' split
  all_goals exact ⟨rfl, rfl⟩

theorem cqDue_iff (c : Cq) (n : Nat) : cqDue c n = true ↔ c.armed = true ∧ c.armAt ≤ n ∧ ∃ oldest, c.posted.head? = some oldest
    ∧ (c.coalCount ≤ c.posted.length ∨ max oldest c.armAt + c.coalTicks ≤ n ∨ c.sprintAt = some n) := by
  unfold cqDue
  split <;> rename_i h <;> simp [h, and_assoc, or_assoc]

/-- Settles O11: what is posted later at the boundary loses no CE that is written or held, so that of the job is one or the
other. -/
theorem releasesAndQueueEvents : Obligations.ReleasesAndQueueEvents := by
  unfold Obligations.ReleasesAndQueueEvents
  refine ⟨fun s j x hx hs => ?_, fun s i q hs => ?_, fun s i q x hs hx h0 => ?_⟩
  · obtain rfl := State.job?_id hx
    refine ⟨exec_jobRelease_early hx, fun hd => ?_, fun h => ?_, fun hp he hn => ?_⟩
    · obtain ⟨t, ht, hnone⟩ := exec_jobRelease_due hx hs hd
      refine ⟨t, ht, hnone, fun hc hu r hr => ?_⟩
      have hset := exec_jobRelease_settles hx hs hd hc hu ht
      rcases hset with hdone | ⟨-, hh⟩
      · exact .inl (by simpa only [CeDone, hr, Option.getD_some, now] using hdone)
      · exact .inr hh
    · change execPendingTimeout x.id s = _
      simp [execPendingTimeout, hx, pendingTimeout_idle h]
    · refine ⟨endUnconfirmed s x 0x0401 0x02 (now s), ?_, (endUnconfirmed_leaves ..).1, (endUnconfirmed_leaves ..).2,
        endUnconfirmed_job? hx ..⟩
      change execPendingTimeout x.id s = _
      simp [execPendingTimeout, hx, hs, pendingTimeout, hp, he, now, hn]
  · intro dueNow
    have hd (c : Cq) : ((c.errorIntr && decide (c.errorAt ≤ now s)) || cqDue c (now s)) = true ↔ dueNow c := by
      simp only [Bool.or_eq_true, Bool.and_eq_true, decide_eq_true_eq, cqDue_iff]
      rfl
    simp only [State.service, Bool.and_eq_true, Bool.not_eq_true'] at hs
    obtain ⟨⟨⟨hrun, hsafe⟩, hstop⟩, -⟩ := hs
    refine ⟨fun c hq hc => ?_, fun hq hi => ?_⟩
    · have hex : exec (.cqInterrupt i q) s = .next (cqInterrupt s i q) := by
        change execCqInterrupt i q s = _
        simp [execCqInterrupt, hrun, hsafe, hstop, show ¬511 < q by omega]
      rw [hex]
      constructor <;> intro h
      · simp only [cqInterrupt, hc, (hd c).2 h, if_true]
      · simp only [cqInterrupt, hc, if_neg (mt (hd c).1 h)]
    · intro a
      have hex : exec (.cqInterrupt i q) s = .next (adminInterrupt s (i / 256)) := by
        change execCqInterrupt i q s = _
        simp [execCqInterrupt, hrun, hstop, show 511 < q by omega, portOf]
      rw [hex, adminInterrupt]
      constructor
      · intro ha h
        have := (hd a.cq).2 h
        simp only [a] at ha this
        simp only [ha, this, Bool.and_self, if_true, a]
      · intro h
        have : ¬(a.running && ((a.cq.errorIntr && decide (a.cq.errorAt ≤ now s)) || cqDue a.cq (now s))) = true := by
          rw [Bool.and_eq_true, hd]
          rintro ⟨h1, h2⟩
          rcases h with h | h
          · simp [h] at h1
          · exact h h2
        rw [if_neg this]
  · change (1000 ≤ x.waited → execCqStarved i q s = _) ∧ (x.waited < 1000 → execCqStarved i q s = _)
    constructor <;> intro hw
    · simp [execCqStarved, hx, hs, h0, hw]
    · simp [execCqStarved, hx, hs, h0, hw]

end Sys2Proof.Machine
end

section
/-! SUPPORT. Admin commands (R93 to R118, R361, R389, R392, R418, R427, R440, R450): which of them runs, what each does to queues,
instances and the device, and the obligations about them. -/

namespace Sys2Proof.Machine
open Sys2Proof.Claims

/-! ### An admin command that is taken, and what refuses it (R97) -/

theorem adminTake_of_taken {s s1 : State} {p : Nat} {se : Bytes} {sel : Bytes → Bool} (h : Taken s s1 p se)
    (hsel : sel se = true) : adminTake s p se sel = (s1, true) := by
  obtain ⟨hr, hm, s0, ps, ht, rfl⟩ := h
  simp only [adminTake, hr, Bool.not_true, Bool.false_eq_true, if_false, Sq.slotAddr, ringN, ht, hm, hsel, if_true]

theorem opIs_of {op : Nat} {se : Bytes} (h : byteAt se 0 = op) : opIs op se = true := by simp [opIs, h]

theorem journalled_eq (s t : State) (p : Nat) (se : Bytes) (r : Reply) : journalled s t p se r = journal s t p se r := rfl

theorem adminRow_of_taken {s s1 : State} {p : Nat} {se : Bytes} {sel : Bytes → Bool} {body : State → State × Reply}
    (h : Taken s s1 p se) (hsel : sel se = true) : adminRow p se sel body s = journal s1 (body s1).1 p se (body s1).2 :=
  adminRow_taken (adminTake_of_taken h hsel)

theorem firstReply_append_some {l m : List (Bool × Reply)} {r : Reply} (h : firstReply l = some r) :
    firstReply (l ++ m) = some r := by
  induction l with
  | nil => cases h
  | cons x l ih =>
    obtain ⟨b, q⟩ := x
    cases b
    · exact ih h
    · exact h

theorem firstReply_nil : firstReply [] = none := rfl

theorem firstReply_cons (b : Bool) (r : Reply) (l : List (Bool × Reply)) :
    firstReply ((b, r) :: l) = if b then some r else firstReply l := by
  cases b <;> rfl

theorem leNat_lt (b : Bytes) : leNat b < 256 ^ b.length := by
  induction b with
  | nil => simp [leNat]
  | cons x xs ih =>
    have hx : x.toNat < 256 := x.isLt
    simp only [leNat, List.length_cons, pow_succ]
    omega

theorem leAt_lt (b : Bytes) (o n : Nat) : leAt b o n < 256 ^ n :=
  (leNat_lt _).trans_le (Nat.pow_le_pow_right (by decide) (by simp [sub]))

/-- The checks that every instance command begins with, in their order. -/
theorem baseChecks_inst (s : State) (p : Nat) (se : Bytes) : firstReply (baseChecks s p se false true false) =
    if s.faults.safe ∨ s.stopped then some ⟨0x0701, 0x30, 0, .done⟩
    else if byteAt se 6 ≠ 0 ∨ byteAt se 7 ≠ 0 then some ⟨0x0303, 0x06, 0, .done⟩
    else if 1024 ≤ targetOf se then some ⟨0x0303, 0x04, 0, .done⟩
    else if adminPort s (targetOf se) ≠ p then some ⟨0x0701, 0x01, 0, .done⟩
    else none := by
  have hlt : targetOf se < 65536 := leAt_lt se 4 2
  have hb : bits (targetOf se) 15 10 = targetOf se / 1024 := by
    simp only [bits]
    omega
  simp only [baseChecks, hb, firstReply_cons, firstReply_nil, aState, aRange]
  by_cases ht : 1024 ≤ targetOf se
  · have : targetOf se / 1024 ≠ 0 := by omega
    simp [ht, this]
  · have : targetOf se / 1024 = 0 := by omega
    simp [ht, this, Nat.mod_eq_of_lt (Nat.not_le.1 ht)]

/-- An open command on an instance meets no refusal that instance commands share. -/
theorem instChecks_open {s : State} {p i : Nat} {se : Bytes} {create ownAf : Bool} {okState : InstState → Bool}
    {own : List (Bool × Reply)} (ho : Open s se) (hi : OnInstance s p se i) (haf : ownAf = true → i % 256 ≠ 0)
    (hok : okState (instState s i) = true) :
    firstReply (baseChecks s p se false true false ++
        [ (ownAf && i % 256 == 0, aState 0x12),
          (!vfEnabled s i && (create || instState s i == .absent), aState 0x11),
          (secondFace s i, aState 0x26), (!okState (instState s i), aState 0x10) ]
        ++ lifeChecks s false false ++ own) = firstReply own := by
  obtain ⟨hsafe, hstop, h6, h7, hdone, hpend⟩ := ho
  obtain ⟨ht, hlt, hport, hvf, hsec⟩ := hi
  have hb : bits i 15 10 = 0 := by simp [bits]; omega
  rw [firstReply_append]
  simp [baseChecks, lifeChecks, hsafe, hstop, h6, h7, hdone, hpend, ht, Nat.mod_eq_of_lt hlt, hport, hvf, hsec, hok, hb]
  exact haf

section
variable {s s1 : State} {p i : Nat} {se : Bytes} (ht : Taken s s1 p se) (ho : Open s1 se) (hi : OnInstance s1 p se i)
include ht ho hi

/-- An open command on an instance that has its state, meets no refusal of its own and has its parameters in range, runs. -/
theorem instCmd_open {sel : Bytes → Bool} {create ownAf : Bool} {okState : InstState → Bool}
    {own : State → Nat → List (Bool × Reply)} {fields : State → Nat → List (Nat × Nat × Bool)}
    {run : State → Nat → State × Reply} (hsel : sel se = true) (haf : ownAf = true → i % 256 ≠ 0)
    (hok : okState (instState s1 i) = true) (hown : firstReply (own s1 i) = none) (hf : scanParams se (fields s1 i) = none) :
    instCmd p se sel create ownAf okState own fields run s = journal s1 (run s1 i).1 p se (run s1 i).2 := by
  have hti : targetOf se % 1024 = i := by rw [hi.1, Nat.mod_eq_of_lt hi.2.1]
  have h := instCmd_runs (create := create) (ownAf := ownAf) (okState := okState) (own := own) (fields := fields) (run := run)
    (adminTake_of_taken ht hsel)
  rw [hti] at h
  exact h ((instChecks_open ho hi haf hok).trans hown) hf

theorem liveCmd_open {op : Nat} {own : State → Nat → List (Bool × Reply)} {fields : State → Nat → List (Nat × Nat × Bool)}
    {run : State → Nat → State × Reply} (hop : byteAt se 0 = op) (hok : liveState (instState s1 i) = true)
    (hown : firstReply (own s1 i) = none) (hf : scanParams se (fields s1 i) = none) :
    liveCmd p se op own fields run s = journal s1 (run s1 i).1 p se (run s1 i).2 :=
  instCmd_open ht ho hi (opIs_of hop) nofun hok hown hf
end

/-! ### Refusals (R97) -/

theorem instCmd_base_refused {s s1 : State} {p : Nat} {se : Bytes} (ht : Taken s s1 p se) {r : Reply}
    (hr : firstReply (baseChecks s1 p se false true false) = some r) {sel : Bytes → Bool} {create ownAf : Bool}
    {okState : InstState → Bool} {own : State → Nat → List (Bool × Reply)} {fields : State → Nat → List (Nat × Nat × Bool)}
    {run : State → Nat → State × Reply} (hsel : sel se = true) :
    instCmd p se sel create ownAf okState own fields run s = journal s1 s1 p se r :=
  instCmd_refused (adminTake_of_taken ht hsel) (by
    rw [List.append_assoc, List.append_assoc]
    exact firstReply_append_some hr)

/-- Settles O15: the shared checks stand first in the list of each of these commands. -/
theorem adminRefusals : Obligations.AdminRefusals := by
  unfold Obligations.AdminRefusals
  intro s s1 p se ht refusal r hr
  have hb : firstReply (baseChecks s1 p se false true false) = some r := (baseChecks_inst s1 p se).trans hr
  exact ⟨fun h => congrArg _ (instCmd_base_refused ht hb (opIs_of h)),
    fun h => congrArg _ (instCmd_base_refused ht hb (opIs_of h)),
    fun h => congrArg _ (instCmd_base_refused ht hb (opIs_of h)),
    fun h => congrArg _ (instCmd_base_refused ht hb (opIs_of h))⟩

/-! ### Queues come to be -/

theorem restState_ne_error (s : State) (i : Nat) : restState s i ≠ .error := by
  unfold restState
  split <;> nofun

theorem heldOrRest_ne_error (s : State) (i c : Nat) : heldOrRest s i c ≠ .error := by
  unfold heldOrRest
  split
  · split
    · nofun
    · exact restState_ne_error s i
  · exact restState_ne_error s i

theorem liveState_of {s : State} {i : Nat} {x : Inst} (hx : s.inst? i = some x) (h : x.state ≠ .absent) :
    liveState (instState s i) = true := by
  simp [liveState, instState, hx, h]

theorem roomChecks_none {s : State} {i m t : Nat} {x : Inst} (hx : s.inst? i = some x) (hm : m < x.queueLimit) (ht : t < 4096) :
    firstReply (roomChecks s i m t) = none := by
  simp [roomChecks, hx, firstReply, Nat.not_le.2 hm, Nat.not_le.2 ht]

/-- Settles O16: no check holds, and the queue appended is the one the parameters spell. -/
theorem queueCreate : Obligations.QueueCreate := by
  unfold Obligations.QueueCreate
  intro s s1 p i se x ht ho hi hx hlive
  have hl := liveState_of hx hlive
  refine ⟨fun hop hroom htot hf q hq => ?_, fun hop hroom htot hf q hq => ?_⟩
  · have hrun : execSqCreate p se s = .next (journal s1 (sqCreate s1 se i).1 p se (sqCreate s1 se i).2) := by
      rw [execSqCreate, liveCmd_open ht ho hi hop hl]
      · exact roomChecks_none hx hroom htot
      · exact hf
    change ∃ y : Sq, _ ∧ _ ∧ _ ∧ _ ∧ _ ∧ _ ∧ _ ∧ _ ∧ _ ∧ _ ∧ execSqCreate p se s = _
    rw [hrun]
    simp only [sqCreate, hq, Option.getD_some]
    refine ⟨_, ?_, ?_, ?_, ?_, ?_, ?_, ?_, ?_, ?_, ?_, rfl⟩
    all_goals by_cases ha : leAt se 8 8 % 4096 = 0 <;> simp [aligned4k, ha, sqFail, heldOrRest_ne_error] <;> rfl
  · have hrun : execCqCreate p se s = .next (journal s1 (cqCreate s1 se i).1 p se (cqCreate s1 se i).2) := by
      rw [execCqCreate, liveCmd_open ht ho hi hop hl]
      · exact roomChecks_none hx hroom htot
      · exact hf
    change ∃ y : Cq, _ ∧ _ ∧ _ ∧ _ ∧ _ ∧ _ ∧ _ ∧ _ ∧ _ ∧ _ ∧ _ ∧ execCqCreate p se s = _
    rw [hrun]
    simp only [cqCreate, hq, Option.getD_some]
    refine ⟨_, ?_, ?_, ?_, ?_, ?_, ?_, ?_, ?_, ?_, ?_, ?_, rfl⟩
    all_goals by_cases ha : leAt se 8 8 % 4096 = 0 <;> simp [aligned4k, ha, restState_ne_error] <;> rfl

/-! ### Queues deleted, restarted and modified -/

theorem noteDropped_frame (s t : State) : (noteDropped s t).work.jobs = t.work.jobs ∧ (noteDropped s t).work.cqs = t.work.cqs
    ∧ (noteDropped s t).hostMem = t.hostMem ∧ (noteDropped s t).adm = t.adm := by
  obtain ⟨_, h⟩ := noteDropped_eq s t
  rw [h]
  exact ⟨rfl, rfl, rfl, rfl⟩

/-- Where nothing is read ahead no slot is marked. -/
theorem prefill_without {s : State} {i q : Nat} {x : Sq} (hx : s.sq? i q = some x) (h : x.readAhead = false) :
    prefill s i q = s := by
  simp [prefill, hx, h]

theorem State.sq?_updSq_some {s : State} {i q : Nat} {x : Sq} {f : Sq → Sq} (hx : s.sq? i q = some x)
    (hk : ∀ y, (f y).inst = y.inst ∧ (f y).num = y.num) : (s.updSq i q f).sq? i q = some (f x) := by
  rw [State.sq?_updSq _ _ _ _ hk, hx, Option.map_some]

/-- SQ_RESTART leaves the queue, empty, at the position named, and changes no job and no byte of host memory. -/
theorem sqRestart_facts {s : State} {i q : Nat} {x : Sq} (se : Bytes) (hx : s.sq? i q = some x) (hb : x.base % 4096 = 0)
    (hr : x.readAhead = false) : (∃ y, (sqRestart s se i q).sq? i q = some y ∧ y.state ≠ .error ∧ y.head = y.tail ∧ y.copies = []
      ∧ y.head = byteAt se 20 % 2 * 2 ^ x.log2n + leAt se 18 2) ∧ (sqRestart s se i q).adm = s.adm
      ∧ (sqRestart s se i q).work.jobs = s.work.jobs ∧ (sqRestart s se i q).hostMem = s.hostMem := by
  simp only [sqRestart, hx, aligned4k, hb, beq_self_eq_true, Bool.not_true, Bool.false_eq_true, if_false]
  set t := State.updSq s i q _
  have hq : (noteDropped s t).sq? i q = some _ :=
    (noteDropped_sq? s t i q).trans (State.sq?_updSq_some hx fun _ => ⟨rfl, rfl⟩)
  obtain ⟨hj, -, hm, ha⟩ := noteDropped_frame s t
  rw [prefill_without hq hr]
  exact ⟨⟨_, hq, heldOrRest_ne_error s i x.cq, rfl, rfl, rfl⟩, ha, hj, hm⟩

/-- CQ_RESTART leaves the queue with its head at the position named and its tail where it was. -/
theorem cqRestart_facts {s : State} {i q : Nat} {c : Cq} (se : Bytes) (hc : s.cq? i q = some c) (hb : c.base % 4096 = 0) :
    (cqRestart s se i q).adm = s.adm ∧ ∃ d, (cqRestart s se i q).cq? i q = some d ∧ d.state ≠ .error
      ∧ d.head = byteAt se 20 % 2 * 2 ^ c.log2n + leAt se 18 2 ∧ d.tail = c.tail ∧ d.heldCes = c.heldCes := by
  simp only [cqRestart, hc, aligned4k, hb, beq_self_eq_true, Bool.not_true, Bool.false_eq_true, if_false]
  exact ⟨rfl, _, State.cq?_updCq_some hc fun _ => ⟨rfl, rfl⟩, restState_ne_error s i, rfl, rfl, rfl⟩

/-- A CQ taken out, and no other. -/
theorem cq?_removed (s : State) (i q : Nat) (l : List Cq) (hl : l = s.work.cqs.filter fun c => !(c.inst == i && c.num == q)) :
    ({ s with work.cqs := l } : State).cq? i q = none
    ∧ ∀ j r, (j, r) ≠ (i, q) → ({ s with work.cqs := l } : State).cq? j r = s.cq? j r := by
  subst hl
  refine ⟨List.find?_eq_none.2 fun c hc => by simpa [imp_iff_not_or] using (List.mem_filter.1 hc).2, fun j r h => ?_⟩
  simp only [State.cq?, List.find?_filter]
  refine congrArg (fun p => List.find? p _) (funext fun c => ?_)
  have := queue_ne_iff.1 h
  by_cases hj : c.inst = j ∧ c.num = r
  · obtain ⟨rfl, rfl⟩ := hj
    simpa [not_and_or] using this
  · simp [hj]
    grind

/-- Settles O17, a command at a time, from what each does to its queue. -/
theorem queueCommands : Obligations.QueueCommands := by
  unfold Obligations.QueueCommands
  intro s s1 p i se ht ho hi hl q
  refine ⟨fun x hx => ⟨fun hop hf => ?_, fun hop hf => ?_, fun hop he hb hf => ?_, fun hop he hb hr hf => ?_⟩,
    fun c hc => ⟨fun hop hbound hf => ?_, fun hop hf => ?_, fun hop he hb hf => ?_⟩⟩
  · have hrun : execSqDelete p se s = .next (journal s1 (sqDelete s1 i q).1 p se (sqDelete s1 i q).2) := by
      rw [execSqDelete, liveCmd_open ht ho hi hop hl rfl]
      simpa [noSq, q, hx] using hf
    obtain ⟨hj, hc, hm, ha⟩ := noteDropped_frame s1
      (s1.updSq i q fun x => { x with deleting := true, tail := x.head, copies := [] })
    exact ⟨_, hrun, (noteDropped_sq? s1 _ i q).trans (State.sq?_updSq_some hx fun _ => ⟨rfl, rfl⟩), hj, hc, hm,
      congrArg (fun a => a.cmds ++ _) ha⟩
  · change execSqModify p se s = _
    rw [execSqModify, liveCmd_open ht ho hi hop hl rfl]
    · rfl
    · simpa [noSq, q, hx] using hf
  · change execSqRestart p se s = _
    rw [execSqRestart, liveCmd_open ht ho hi hop hl]
    · simp [sqRestart, q, hx, aligned4k, hb]
      rfl
    · simp [q, hx, he, firstReply]
    · simp only [noSq, show s1.sq? i (leAt se 16 2) = some x from hx]
      exact hf
  · have hrun : execSqRestart p se s = .next (journal s1 (sqRestart s1 se i q) p se (aOk 0)) := by
      rw [execSqRestart, liveCmd_open ht ho hi hop hl]
      · simp [q, hx, he, firstReply]
      · simp only [noSq, show s1.sq? i (leAt se 16 2) = some x from hx]
        exact hf
    obtain ⟨hy, ha, hj, hm⟩ := sqRestart_facts se hx hb hr
    exact ⟨_, hrun, congrArg (fun a => a.cmds ++ _) ha, hj, hm, hy⟩
  · have hrun : execCqDelete p se s = .next (journal s1 { s1 with
        work.cqs := s1.work.cqs.filter fun c => !(c.inst == i && c.num == q) } p se (aOk 0)) := by
      rw [execCqDelete, liveCmd_open ht ho hi hop hl]
      · simpa [firstReply_cons, firstReply_nil, sqsOf, q] using fun _ y hy hyi => hbound y hy hyi
      · simpa [noCq, q, hc] using hf
    obtain ⟨hnone, hother⟩ := cq?_removed s1 i q _ rfl
    exact ⟨_, hrun, hnone, rfl, hother, rfl⟩
  · change execCqModify p se s = _
    rw [execCqModify, liveCmd_open ht ho hi hop hl rfl]
    · rfl
    · simpa [noCq, q, hc] using hf
  · have hrun : execCqRestart p se s = .next (journal s1 (cqRestart s1 se i q) p se (aOk 0)) := by
      rw [execCqRestart, liveCmd_open ht ho hi hop hl]
      · simp [q, hc, he, firstReply]
      · simpa [noCq, q, hc] using hf
    obtain ⟨ha, hd⟩ := cqRestart_facts se hc hb
    exact ⟨_, hrun, congrArg (fun a => a.cmds ++ _) ha, hd⟩

/-! ### INSTANCE_CREATE -/

theorem quotaChecks_create {s : State} {se : Bytes} {i : Nat}
    (hc : ((s.insts.filter (·.id != i)).map (·.ctxQuota)).sum + leAt se 24 4 ≤ 262144)
    (hk : ((s.insts.filter (·.id != i)).map (·.keyQuota)).sum + leAt se 28 4 ≤ 131072) :
    firstReply (quotaChecks s se i true) = none := by
  simp [quotaChecks, firstReply_cons, firstReply_nil, maskOn, otherQuotas, Nat.not_lt.2 hc, Nat.not_lt.2 hk]

/-- An instance in place of the one of its number, and no other changed. -/
theorem inst?_replaced (s : State) (i : Nat) (x : Inst) (hx : x.id = i) (l : List Inst)
    (hl : l = s.insts.filter (·.id != i) ++ [x]) : ({ s with insts := l } : State).inst? i = some x
    ∧ ∀ k, k ≠ i → ({ s with insts := l } : State).inst? k = s.inst? k := by
  subst hl hx
  refine ⟨?_, fun k hk => ?_⟩
  · rw [State.inst?, List.find?_append, List.find?_eq_none.2 fun y hy => by simpa using (List.mem_filter.1 hy).2]
    simp
  · simp only [State.inst?, List.find?_append, List.find?_filter]
    have : List.find? (fun y => y.id == k) [x] = none := by simp [Ne.symm hk]
    rw [this, Option.or_none]
    refine congrArg (fun p => List.find? p _) (funext fun y => ?_)
    by_cases hy : y.id = k <;> simp [hy, hk]

/-- Settles O18: the instance of TARGET is replaced by the one the parameters spell. -/
theorem instanceCreate : Obligations.InstanceCreate := by
  unfold Obligations.InstanceCreate
  intro s s1 p i se ht ho hi haf hst hop hcq hkq hf
  have hrun : execInstanceCreate p se s =
      .next (journal s1 { s1 with insts := s1.insts.filter (·.id != i) ++ [newInst se i] } p se (aOk 0)) := by
    rw [execInstanceCreate, instCmd_open ht ho hi (opIs_of hop) (fun _ => haf)]
    · simp [hst]
    · exact quotaChecks_create hcq hkq
    · exact hf
  obtain ⟨hnew, hother⟩ := inst?_replaced s1 i (newInst se i) rfl _ rfl
  exact ⟨_, _, hrun, hnew, rfl, rfl, rfl, rfl, rfl, rfl, rfl, rfl, rfl, hother, rfl, rfl, rfl, rfl⟩

/-! ### Stopping an instance (R113 to R118) -/

theorem instState_of {s : State} {i : Nat} {x : Inst} (hx : s.inst? i = some x) : instState s i = x.state := by
  simp [instState, hx]

/-- Completing commands changes their records alone. -/
theorem finishCmds_eq (l : List AdminCmd) (r : Reply) (s : State) :
    ∃ cs, l.foldl (fun s c => finishCmd s c.ref r) s = { s with adm.cmds := cs } := by
  refine List.foldlRecOn (motive := fun t : State => ∃ cs, t = { s with adm.cmds := cs }) l _ ⟨s.adm.cmds, rfl⟩ fun t ht c _ => ?_
  obtain ⟨cs, rfl⟩ := ht
  exact ⟨_, rfl⟩

theorem finishDeletes_eq (s : State) (i : Nat) : ∃ cs, finishDeletes s i = { s with adm.cmds := cs } := finishCmds_eq _ _ s

/-- Which commands a reset completes, and with what, depends on the commands alone. -/
theorem finishDeletes_cmds {s t : State} (h : t.adm = s.adm) (i : Nat) : (finishDeletes t i).adm = (finishDeletes s i).adm := by
  unfold finishDeletes
  rw [h]
  generalize s.adm.cmds.filter _ = l
  induction l generalizing s t with
  | nil => exact h
  | cons c l ih => exact ih (by simp only [finishCmd, h])

/-- Dropping a stream takes it, and nothing else but generations, from the store. -/
theorem dropStream_eq (s : State) (k : Nat) : ∃ g, dropStream s k = { s with
    store.streams := s.store.streams.filter (·.index != k), store.streamGens := g } := by
  unfold dropStream
  split
  · rename_i h
    refine ⟨s.store.streamGens, ?_⟩
    have : s.store.streams.filter (·.index != k) = s.store.streams :=
      List.filter_eq_self.2 fun x hx => by simpa using List.find?_eq_none.1 h x hx
    rw [this]
  · exact ⟨_, rfl⟩

theorem dropStreams_eq (l : List Stream) (s : State) : ∃ ss g,
    l.foldl (fun s x => dropStream s x.index) s = { s with store.streams := ss, store.streamGens := g }
    ∧ ∀ y ∈ ss, y ∈ s.store.streams ∧ ∀ x ∈ l, y.index ≠ x.index := by
  induction l generalizing s with
  | nil => exact ⟨_, _, rfl, fun y hy => ⟨hy, nofun⟩⟩
  | cons a l ih =>
    obtain ⟨g, hd⟩ := dropStream_eq s a.index
    obtain ⟨ss, g', he, hs⟩ := ih (dropStream s a.index)
    refine ⟨ss, g', by rw [List.foldl_cons, he, hd], fun y hy => ?_⟩
    obtain ⟨hm, hn⟩ := hs y hy
    rw [hd] at hm
    obtain ⟨hm, hne⟩ := List.mem_filter.1 hm
    refine ⟨hm, fun x hx => ?_⟩
    rcases List.mem_cons.1 hx with rfl | hx
    · simpa using hne
    · exact hn x hx

/-- What a reset of an instance leaves: nothing of its queues, streams and translations, and its keys and contexts as they were. -/
theorem clearInst_facts (s : State) (i : Nat) :
    (clearInst s i).adm = (finishDeletes s i).adm ∧ (clearInst s i).work.jobs = s.work.jobs
    ∧ (∀ y ∈ (clearInst s i).work.sqs, y.inst ≠ i) ∧ (∀ y ∈ (clearInst s i).work.cqs, y.inst ≠ i)
    ∧ (∀ y ∈ (clearInst s i).tlb, y.inst ≠ i) ∧ (∀ y ∈ (clearInst s i).store.streams, y.owner ≠ i)
    ∧ (clearInst s i).store.keys = s.store.keys ∧ (clearInst s i).store.ctxs = s.store.ctxs
    ∧ (clearInst s i).inst? i = (s.inst? i).map fun x =>
      { x with state := .active, dirty := none, quiesce := none, resumeAt := none } := by
  unfold clearInst
  extract_lets w t u
  obtain ⟨cs, ht⟩ : ∃ cs, t = { s with work.unposted := s.work.unposted.filter (·.inst != i), adm.cmds := cs } :=
    finishDeletes_eq _ i
  have ha : t.adm = (finishDeletes s i).adm :=
    finishDeletes_cmds (s := s) (t := { s with work.unposted := s.work.unposted.filter (·.inst != i) }) rfl i
  obtain ⟨ss, g, hu, hs⟩ : ∃ ss g, u = { t with store.streams := ss, store.streamGens := g } ∧ _ := dropStreams_eq _ t
  clear_value t u
  subst hu
  have hno (y : Stream) (hy : y ∈ ss) : y.owner ≠ i := fun h => by
    obtain ⟨hm, hne⟩ := hs y hy
    exact hne y (List.mem_filter.2 ⟨hm, by simpa using h⟩) rfl
  subst ht
  refine ⟨ha, rfl, ?_, ?_, ?_, hno, rfl, rfl, State.inst?_updInst s i _ fun _ => rfl⟩
  all_goals intro y hy; simpa using (List.mem_filter.1 hy).2

/-- A key that is destroyed is gone, or doomed while jobs still use it; no other key is changed otherwise. -/
theorem destroyKey_facts (s : State) (k : Nat) : (destroyKey s k).adm = s.adm ∧ (destroyKey s k).work = s.work
    ∧ (destroyKey s k).tlb = s.tlb ∧ (destroyKey s k).insts = s.insts ∧ (destroyKey s k).store.ctxs = s.store.ctxs
    ∧ (∀ x ∈ (destroyKey s k).store.keys, x.index = k → x.doomed = true)
    ∧ ∀ x ∈ (destroyKey s k).store.keys, x.doomed = true ∨ x ∈ s.store.keys := by
  unfold destroyKey
  extract_lets key a b u
  clear_value key
  have hkey : u.store.keys = s.store.keys := rfl
  have hu : u.adm = s.adm ∧ u.work = s.work ∧ u.tlb = s.tlb ∧ u.insts = s.insts ∧ u.store.ctxs = s.store.ctxs :=
    ⟨rfl, rfl, rfl, rfl, rfl⟩
  clear_value u
  obtain ⟨ha, hw, ht, hi, hc⟩ := hu
  split
  · refine ⟨ha, hw, ht, hi, hc, fun x hx hk => ?_, fun x hx => ?_⟩
    · obtain ⟨y, hy, rfl⟩ := List.mem_map.1 hx
      by_cases hyk : y.index = k
      · simp [hyk]
      · simp [hyk] at hk
    · obtain ⟨y, hy, rfl⟩ := List.mem_map.1 hx
      by_cases hyk : y.index = k
      · simp [hyk]
      · simpa [hyk] using .inr (hkey ▸ hy)
  · unfold dropKey
    split
    · rename_i hn
      refine ⟨ha, hw, ht, hi, hc, fun x hx hk => absurd hk (by simpa using List.find?_eq_none.1 hn x hx), fun x hx => ?_⟩
      exact .inr (hkey ▸ hx)
    · refine ⟨ha, hw, ht, hi, hc, fun x hx hk => ?_, fun x hx => .inr (hkey ▸ (List.mem_filter.1 hx).1)⟩
      simpa [hk] using (List.mem_filter.1 hx).2

/-- What a removal of an instance's keys keeps: only keys and what follows them change. -/
theorem destroyKeys_facts (l : List KeyObj) (s : State) :
    let t := l.foldl (fun s k => destroyKey s k.index) s
    t.adm = s.adm ∧ t.work = s.work ∧ t.insts = s.insts ∧ t.store.ctxs = s.store.ctxs
    ∧ ∀ x ∈ t.store.keys, x.doomed = true ∨ x ∈ s.store.keys ∧ ∀ k ∈ l, x.index ≠ k.index := by
  induction l generalizing s with
  | nil => exact ⟨rfl, rfl, rfl, rfl, fun x hx => .inr ⟨hx, nofun⟩⟩
  | cons a l ih =>
    obtain ⟨ha, hw, -, hi, hc, hk, hkeys⟩ := destroyKey_facts s a.index
    obtain ⟨ha', hw', hi', hc', hk'⟩ := ih (destroyKey s a.index)
    refine ⟨ha'.trans ha, hw'.trans hw, hi'.trans hi, hc'.trans hc, fun x hx => ?_⟩
    rcases hk' x hx with hd | ⟨hm, hn⟩
    · exact .inl hd
    by_cases hd : x.doomed = true
    · exact .inl hd
    refine .inr ⟨(hkeys x hm).resolve_left hd, fun k hkl => ?_⟩
    rcases List.mem_cons.1 hkl with rfl | hkl
    · exact fun e => hd (hk x hm e)
    · exact hn k hkl

/-- Dropping a context takes it, and nothing else but generations, from the store. -/
theorem dropCtx_eq (s : State) (h : Nat) : ∃ g, dropCtx s h = { s with
    store.ctxs := s.store.ctxs.filter (·.handle != h), store.ctxGens := g } := by
  unfold dropCtx
  split
  · rename_i hn
    refine ⟨s.store.ctxGens, ?_⟩
    have : s.store.ctxs.filter (·.handle != h) = s.store.ctxs :=
      List.filter_eq_self.2 fun x hx => by simpa using List.find?_eq_none.1 hn x hx
    rw [this]
  · exact ⟨_, rfl⟩

theorem dropCtxs_eq (l : List Ctx) (s : State) : ∃ cs g,
    l.foldl (fun s c => dropCtx s c.handle) s = { s with store.ctxs := cs, store.ctxGens := g }
    ∧ ∀ y ∈ cs, y ∈ s.store.ctxs ∧ ∀ x ∈ l, y.handle ≠ x.handle := by
  induction l generalizing s with
  | nil => exact ⟨_, _, rfl, fun y hy => ⟨hy, nofun⟩⟩
  | cons a l ih =>
    obtain ⟨g, hd⟩ := dropCtx_eq s a.handle
    obtain ⟨ss, g', he, hs⟩ := ih (dropCtx s a.handle)
    refine ⟨ss, g', by rw [List.foldl_cons, he, hd], fun y hy => ?_⟩
    obtain ⟨hm, hn⟩ := hs y hy
    rw [hd] at hm
    obtain ⟨hm, hne⟩ := List.mem_filter.1 hm
    refine ⟨hm, fun x hx => ?_⟩
    rcases List.mem_cons.1 hx with rfl | hx
    · simpa using hne
    · exact hn x hx

/-- Messages change the tether alone. -/
theorem sendMsgs_eq {α : Type} (d : α → Nat) (b : α → Bytes) (k : Nat) (l : List α) (s : State) : ∃ o ms rg,
    l.foldl (fun s x => sendMsg s (d x) k (b x)) s = { s with tether.out := o, tether.members := ms, tether.ring := rg } := by
  induction l generalizing s with
  | nil => exact ⟨s.tether.out, s.tether.members, s.tether.ring, rfl⟩
  | cons a l ih =>
    obtain ⟨o, ms, rg, h⟩ := ih (sendMsg s (d a) k (b a))
    exact ⟨o, ms, rg, h⟩

theorem inst?_updInst_some {s : State} {i : Nat} {x : Inst} {f : Inst → Inst} (hx : s.inst? i = some x)
    (hf : ∀ y, (f y).id = y.id) : (s.updInst i f).inst? i = some (f x) := by
  rw [State.inst?_updInst _ _ _ hf, hx, Option.map_some]

theorem inst?_congr {s t : State} (h : t.insts = s.insts) (i : Nat) : t.inst? i = s.inst? i := by
  simp only [State.inst?, h]

theorem removeInst_facts {s : State} {i : Nat} {x : Inst} (hx : s.inst? i = some x) :
    (removeInst s i).adm = (finishDeletes s i).adm
    ∧ (∀ y ∈ (removeInst s i).work.sqs, y.inst ≠ i) ∧ (∀ y ∈ (removeInst s i).work.cqs, y.inst ≠ i)
    ∧ (∀ k ∈ (removeInst s i).store.keys, k.owner = i → k.doomed = true)
    ∧ (∀ c ∈ (removeInst s i).store.ctxs, c.owner = i → c.tenant ≠ none)
    ∧ ∃ y, (removeInst s i).inst? i = some y ∧ y.state = .absent ∧ y.ctxQuota = 0 ∧ y.keyQuota = 0 ∧ y.mode = .off := by
  obtain ⟨ha, -, hsq, hcq, -, -, hk, hc, hi⟩ := clearInst_facts s i
  unfold removeInst
  extract_lets t u v w
  change t.adm = _ at ha
  change ∀ y ∈ t.work.sqs, _ at hsq
  change ∀ y ∈ t.work.cqs, _ at hcq
  change t.inst? i = _ at hi
  obtain ⟨hau, hwu, hiu, hcu, hku⟩ := destroyKeys_facts (t.store.keys.filter (·.owner == i)) t
  change u.adm = _ at hau
  change u.work = _ at hwu
  change u.insts = _ at hiu
  change u.store.ctxs = _ at hcu
  change ∀ x ∈ u.store.keys, _ at hku
  obtain ⟨cs, g, hv, hcs⟩ : ∃ cs g, v = { u with store.ctxs := cs, store.ctxGens := g } ∧ _ := dropCtxs_eq _ u
  obtain ⟨o, ms, rg, hw⟩ : ∃ o ms rg, w = { v with tether.out := o, tether.members := ms, tether.ring := rg } :=
    sendMsgs_eq Prod.snd (fun x : Nat × Nat => zeros 4 ++ leBytes 4 x.1 ++ leBytes 4 i) 3 _ v
  clear_value t u v w
  subst hw hv
  refine ⟨hau.trans ha, fun y hy => hsq y (hwu ▸ hy), fun y hy => hcq y (hwu ▸ hy), fun k hkm hko => ?_, fun c hcm hco => ?_, ?_⟩
  · refine (hku k hkm).resolve_right fun ⟨hm, hn⟩ => ?_
    exact hn k (List.mem_filter.2 ⟨hm, by simpa using hko⟩) rfl
  · intro hten
    obtain ⟨hm, hn⟩ := hcs c hcm
    exact hn c (List.mem_filter.2 ⟨hm, by simp [hco, hten]⟩) rfl
  · have hiu' : u.inst? i = some _ := (inst?_congr hiu i).trans (hi.trans (by rw [hx]; rfl))
    exact ⟨_, inst?_updInst_some hiu' fun _ => rfl, rfl, rfl, rfl, rfl⟩

/-- Settles O19, from what a reset and a removal take out of the stores and the queues. -/
theorem instanceStops : Obligations.InstanceStops := by
  unfold Obligations.InstanceStops
  intro s s1 p i se x ht ho hi hx
  have hst : instState s1 i = x.state := instState_of hx
  refine ⟨fun hop hs hf => ?_, fun hop hs hf => ?_, fun hop hs hf => ?_, fun hop hs haf hf => ?_, fun hop hs haf hf => ?_⟩
  · change execInstanceQuiesce p se s = _
    have hl : x.state ≠ .absent ∧ x.state ≠ .quiesced := by rcases hs with h | h <;> rw [h] <;> exact ⟨nofun, nofun⟩
    rw [execInstanceQuiesce, liveCmd_open ht ho hi hop (liveState_of hx hl.1) rfl hf, if_neg (by simpa [hst] using hl.2)]
    rfl
  · change execInstanceQuiesce p se s = _
    rw [execInstanceQuiesce, liveCmd_open ht ho hi hop (liveState_of hx (by simp [hs])) rfl hf, if_pos (by simp [hst, hs])]
  · change execInstanceResume p se s = _
    rw [execInstanceResume, instCmd_open ht ho hi (opIs_of hop) (fun h => absurd h Bool.false_ne_true) (by simp [hst, hs]) rfl hf]
    rfl
  · have hrun : execInstanceReset p se s = .next (journal s1 (clearInst s1 i) p se (aOk 0)) := by
      rw [execInstanceReset, instCmd_open ht ho hi (opIs_of hop) (fun _ => haf) (by simp [hst, hs]) rfl hf]
    obtain ⟨ha, -, hsq, hcq, htlb, hstr, hk, hc, hin⟩ := clearInst_facts s1 i
    exact ⟨_, hrun, congrArg (fun a => a.cmds ++ _) ha, hsq, hcq, htlb, hstr, hk, hc, _, hin.trans (by rw [hx]; rfl), rfl⟩
  · have hrun : execInstanceRemove p se s = .next (journal s1 (removeInst s1 i) p se
        (if (farContexts s1 i).isEmpty then aOk 0 else ⟨0, 0, 0, .ctxs i⟩)) := by
      rw [execInstanceRemove, instCmd_open ht ho hi (opIs_of hop) (fun _ => haf) (by simp [hst, hs]) rfl hf]
    obtain ⟨ha, hsq, hcq, hk, hc, hin⟩ := removeInst_facts hx
    generalize removeInst s1 i = t at hrun ha hsq hcq hk hc hin
    refine ⟨_, hrun, ?_, hsq, hcq, hk, hc, hin⟩
    simp only [List.isEmpty_iff]
    exact congrArg (fun a => a.cmds ++ _) ha

/-! ### Commands on the device (R93, R97) -/

theorem scanReply_nil {se : Bytes} {f : List (Nat × Nat × Bool)} (h : scanParams se f = none) : scanReply se f = [] := by
  simp [scanReply, h]

/-- No check on the device holds of an open command, of the primary AF where that is asked. -/
theorem baseChecks_open {s : State} {p : Nat} {se : Bytes} {primary safeOk : Bool}
    (hp : primary = true → s.adm.primary = p) (hs : safeOk = true ∨ s.faults.safe = false ∧ s.stopped = false)
    (h6 : byteAt se 6 = 0) (h7 : byteAt se 7 = 0) : ∀ x ∈ baseChecks s p se primary false safeOk, x.1 = false := by
  intro x hx
  simp only [baseChecks, List.mem_cons, List.not_mem_nil, or_false] at hx
  rcases hx with rfl | rfl | rfl | rfl | rfl
  · rcases hs with h | ⟨h1, h2⟩ <;> simp_all
  · cases primary <;> simp_all
  · simp [h6, h7]
  · rfl
  · rfl

/-- The checks that commands on the device begin with hold for an open command. -/
theorem deviceChecks_open {s : State} {p : Nat} {se : Bytes} {primary safeOk : Bool} {own : List (Bool × Reply)}
    (hp : primary = true → s.adm.primary = p) (hs : safeOk = true ∨ s.faults.safe = false ∧ s.stopped = false)
    (h6 : byteAt se 6 = 0) (h7 : byteAt se 7 = 0) (doneOk recoveryOk : Bool) (hd : doneOk = true ∨ s.life.done = false)
    (hr : recoveryOk = true ∨ s.life.pending = none) :
    firstReply (baseChecks s p se primary false safeOk ++ lifeChecks s doneOk recoveryOk ++ own) = firstReply own := by
  rw [List.append_assoc, firstReply_append _ _ (baseChecks_open hp hs h6 h7), firstReply_append]
  intro x hx
  simp only [lifeChecks, List.mem_cons, List.not_mem_nil, or_false] at hx
  rcases hx with rfl | rfl
  · rcases hd with h | h <;> simp [h]
  · rcases hr with h | h <;> simp [h]

/-- An open command on the device that meets no refusal of its own runs. -/
theorem adminCmd_open {s s1 : State} {p : Nat} {se : Bytes} {sel : Bytes → Bool} {primary : Bool}
    {own : State → List (Bool × Reply)} {run : State → State × Reply} (ht : Taken s s1 p se) (ho : Open s1 se) (hsel : sel se = true)
    (hp : primary = true → s1.adm.primary = p) (hown : firstReply (own s1) = none) :
    adminCmd p se sel primary own run s = journal s1 (run s1).1 p se (run s1).2 := by
  obtain ⟨hsafe, hstop, h6, h7, hdone, hpend⟩ := ho
  rw [adminCmd, adminRow_of_taken ht hsel,
    deviceChecks_open hp (.inr ⟨hsafe, hstop⟩) h6 h7 false false (.inr hdone) (.inr hpend), hown]

/-- A PORT_PAIR whose ports fit, and which names no second face that stands and no port that is down. -/
theorem pairCmd_open {s s1 : State} {p : Nat} {se : Bytes} {sel : Bytes → Bool} {down face misfit : State → Bool} {run : State → State}
    (ht : Taken s s1 p se) (ho : Open s1 se) (hp : s1.adm.primary = p) (hsel : sel se = true) (hd : down s1 = false)
    (hf : face s1 = false) (hm : misfit s1 = false) (hsc : scanParams se (pairFields se) = none) :
    pairCmd p se sel down face misfit run s = journal s1 (run s1) p se (aOk 0) := by
  rw [pairCmd, adminCmd_open ht ho hsel fun _ => hp]
  · simp [hm]
  · simp [hd, hf, hm, scanReply_nil hsc, firstReply_cons, firstReply_nil]

theorem pairStands_iff (s : State) (se : Bytes) :
    pairStands s se = true ↔ ∃ x ∈ s.adm.pairs, x.1 = byteAt se 8 ∧ x.2.1 = byteAt se 9 := by
  simp [pairStands]

/-- Settles O22: none of the checks of each command holds, so that it runs. -/
theorem deviceCommands : Obligations.DeviceCommands := by
  unfold Obligations.DeviceCommands
  intro s s1 p se ht hp
  refine ⟨fun hop h6 h7 hdone hpend hf => ?_, fun ho => ⟨fun hop hport hup hf => ?_, fun g hop h11 hg hlock hmin hmax hsev hf => ?_,
    fun hop h8 hf => ?_, fun hop h8 hlo hhi hw hf => ?_, fun hop h10 hf hst htf => ?_, fun hop h10 hf htf hfree => ?_,
    fun hop h10 hf hserves hst => ?_⟩⟩
  · change execDumpBufferSet p se s = _
    rw [execDumpBufferSet, adminRow_of_taken ht (opIs_of hop)]
    simp only [deviceChecks_open (fun _ => hp) (.inl rfl) h6 h7 false false (.inr hdone) (.inr hpend), scanReply_nil hf,
      firstReply_nil]
    split <;> rfl
  · change execPrimaryDelegate p se s = _
    rw [execPrimaryDelegate, adminCmd_open ht ho (opIs_of hop) fun _ => hp]
    · rfl
    · have h3 : ¬3 < byteAt se 8 := by omega
      simp [hup, h3, scanReply_nil hf, firstReply_cons, firstReply_nil]
  · change execFaultSeveritySet p se s = _
    rw [execFaultSeveritySet, adminCmd_open ht ho (opIs_of hop) fun _ => hp]
    · simp [sevSources, h11, hsev]
      rfl
    · simp [sevGroup, h11, hg, hlock, Nat.not_lt.2 hmin, Nat.not_lt.2 hmax, scanReply_nil hf, firstReply_cons, firstReply_nil]
  · change execEnvelopeSetQuery p se s = _
    rw [execEnvelopeSetQuery, adminCmd_open ht ho (by simp [opIs_of hop, h8]) fun _ => hp]
    · rfl
    · rw [scanReply_nil hf, firstReply_nil]
  · change execEnvelopeSet p se s = _
    rw [execEnvelopeSet, adminCmd_open ht ho (by simp [opIs_of hop, h8]) fun _ => hp]
    · rfl
    · simp [h8, hlo, hhi, Nat.not_lt.2 hw, scanReply_nil hf, firstReply_cons, firstReply_nil]
  · change execPortPairUnpair p se s = _
    rw [execPortPairUnpair, pairCmd_open ht ho hp (by simp [opIs_of hop, h10]) rfl rfl _ hf]
    · rfl
    · simp [(pairStands_iff s1 se).2 hst, htf]
  · change execPortPairPair p se s = _
    rw [execPortPairPair, pairCmd_open ht ho hp (by simp [opIs_of hop, h10]) rfl _ _ hf]
    · rfl
    · simp [htf]
    · simp only [h10, beq_self_eq_true, Bool.true_and]
      refine List.any_eq_false.2 fun x hx => ?_
      obtain ⟨h1, h2, h3, h4⟩ := hfree x hx
      simp [Ne.symm h1, Ne.symm h2, Ne.symm h3, Ne.symm h4]
  · change execPortPairReturn p se s = _
    rw [execPortPairReturn, pairCmd_open ht ho hp (by simp [opIs_of hop, h10]) _ rfl _ hf]
    · rfl
    · simp [hserves]
    · simp [(pairStands_iff s1 se).2 hst]

/-! ### HEALTH_GET, GRAFT_INFO, ATTEST, LCS_TRANSITION -/

theorem healthGet_open {s s1 : State} {p : Nat} {se : Bytes} {retire : Bool} (ht : Taken s s1 p se) (ho : Open s1 se)
    (hop : byteAt se 0 = 0xA0) (h20 : byteAt se 20 = b2n retire) (hp : retire = true → s1.adm.primary = p)
    (hc : firstReply (healthChecks se retire) = none) : healthGet p se retire s = journal s1 { s1 with
      adm.changes := s1.adm.changes ++
        [.health s1.adm.nextRef p retire (leAt se 22 2) (byteAt se 24) (leAt se 8 8)] } p se ⟨0, 0, 0, .later⟩ := by
  obtain ⟨hsafe, hstop, h6, h7, hdone, hpend⟩ := ho
  have hsel : (opIs 0xA0 se && (byteAt se 20 == 1) == retire) = true := by cases retire <;> simp [opIs_of hop, h20, b2n]
  rw [healthGet, adminRow_of_taken ht hsel]
  simp only [deviceChecks_open hp (.inr ⟨hsafe, hstop⟩) h6 h7 _ _ (.inr hdone) (.inr hpend), hc]
  rfl

theorem adminOutput_small {s : State} {p : Nat} {se out : Bytes} (h : leAt se 16 4 < out.length) :
    adminOutput s p se out = (s, ⟨0x0104, 0, out.length, .done⟩) := by
  rw [adminOutput, outLenOf, if_pos h]
  rfl

theorem adminOutput_written {s t : State} {p : Nat} {se out : Bytes} (h : out.length ≤ leAt se 16 4)
    (hw : hostWrite s (p * 256) (leAt se 8 8) out 6 = (t, true)) : adminOutput s p se out = (t, done out.length) := by
  rw [adminOutput, outLenOf, if_neg (Nat.not_lt.2 h), outAddrOf, hw]
  rfl

/-! ### CANOPY_CONFIG -/

theorem soloCheck_nil {s : State} (h : s.solo = false) (l : List (Bool × Reply)) :
    firstReply (soloCheck s :: l) = firstReply l := by
  rw [soloCheck, h, firstReply_cons, if_neg Bool.false_ne_true]

/-- Discovery on a link changes what goes out, the links and the count of fresh bytes. -/
theorem discover_eq (s : State) (l : Nat) : ∃ o ls n, discover s l =
    { s with tether.out := o, tether.links := ls, freeCtr := n } := by
  unfold discover
  split
  · exact ⟨_, _, _, rfl⟩
  split
  · exact ⟨_, _, _, rfl⟩
  split
  · unfold sendCharter
    split
    · exact ⟨_, _, _, rfl⟩
    · exact ⟨_, _, _, rfl⟩
  split <;> exact ⟨_, _, _, rfl⟩

theorem discoverAll_eq (s : State) : ∃ o ls n, discoverAll s = { s with tether.out := o, tether.links := ls, freeCtr := n } := by
  refine List.foldlRecOn (motive := fun t : State => ∃ o ls n, t = { s with tether.out := o, tether.links := ls, freeCtr := n })
    (List.range 8) discover ⟨s.tether.out, s.tether.links, s.freeCtr, rfl⟩ fun t ht l _ => ?_
  obtain ⟨o, ls, n, rfl⟩ := ht
  obtain ⟨o', ls', n', h⟩ := discover_eq { s with tether.out := o, tether.links := ls, freeCtr := n } l
  exact ⟨o', ls', n', h⟩

/-- A charter that no test refuses is held, and its device joined. -/
theorem loadCharter_good {s : State} {b : Bytes} (h : charterFail s b = none) : ∃ t, loadCharter s b false = (t, done 0)
    ∧ t.tether.joined = true ∧ t.tether.off = 0 ∧ t.tether.charter = some b ∧ t.adm = s.adm := by
  simp only [loadCharter, charterVerdict, Bool.false_and, Bool.false_eq_true, if_false, h]
  refine ⟨_, rfl, ?_⟩
  obtain ⟨o, ls, n, he⟩ := discoverAll_eq (State.updMember { holdCharter s b
    (((chMembers b).find? (·.role == 1)).getD default).num with
      tether.joined := true, tether.off := 0, tether.managerBeat := now s }
    (((chMembers b).find? (·.role == 1)).getD default).num fun m => { m with joined := true })
  rw [he]
  exact ⟨rfl, rfl, rfl, rfl⟩

theorem hostRead_frame (s : State) (i a n k : Nat) (sp : Bool) : (hostRead s i a n k sp).1.adm = s.adm
    ∧ (hostRead s i a n k sp).1.life = s.life := by
  obtain ⟨_, _, _, _, _, h⟩ := hostRead_eq s i a n k sp
  rw [h]
  exact ⟨rfl, rfl⟩

/-- What seals a message to a member: the device's own number, the next hop and the pair key with it. -/
def SealsAs (s t : State) : Prop :=
  t.selfId = s.selfId ∧ (∀ d, hopTo t d = hopTo s d) ∧ ∀ h, (peerEntry t h).pair = (peerEntry s h).pair

theorem SealsAs.trans {s t u : State} (h : SealsAs s t) (k : SealsAs t u) : SealsAs s u :=
  ⟨k.1.trans h.1, fun d => (k.2.1 d).trans (h.2.1 d), fun e => (k.2.2 e).trans (h.2.2 e)⟩

/-- The next hop goes by the numbers of the canopy and of the ring alone. -/
theorem hopTo_eq (s : State) (d : Nat) : hopTo s d =
    if d / 16 = s.tether.canopy ∨ d ∈ s.tether.ring.map (·.num) then d
    else if s.tether.active = 1 then
      (((s.tether.ring.map (·.num)).find? (· / 16 == d / 16)).orElse fun _ => (s.tether.ring.map (·.num)).head?).getD d
    else s.tether.canopy * 16 + s.tether.manager := by
  have h1 : (s.tether.ring.any (·.num == d)) = true ↔ d ∈ s.tether.ring.map (·.num) := by simp
  have h2 : ((s.tether.ring.find? (·.num / 16 == d / 16)).orElse fun _ => s.tether.ring.head?).map (·.num) =
      ((s.tether.ring.map (·.num)).find? (· / 16 == d / 16)).orElse fun _ => (s.tether.ring.map (·.num)).head? := by
    rw [List.find?_map, List.head?_map]
    change _ = (Option.map _ (s.tether.ring.find? fun m => m.num / 16 == d / 16)).orElse _
    cases s.tether.ring.find? fun m => m.num / 16 == d / 16 <;> rfl
  simp only [hopTo, h1, h2]

/-- A message moves on no more than the CTRs of the members it goes by. -/
theorem sendMsg_sealsAs (s : State) (d k : Nat) (b : Bytes) : SealsAs s (sendMsg s d k b) := by
  have hnum (q : Member → Bool) (l : List Member) :
      (updWhere q (fun m => { m with ctrOut := m.ctrOut + 1 }) l).map (·.num) = l.map (·.num) := by
    simp only [updWhere, List.map_map]
    refine List.map_congr_left fun m _ => ?_
    simp only [Function.comp_apply]
    split <;> rfl
  have hpair (q r : Member → Bool) (l : List Member) (hr : ∀ m : Member, r { m with ctrOut := m.ctrOut + 1 } = r m) :
      ((updWhere q (fun m => { m with ctrOut := m.ctrOut + 1 }) l).find? r).map (·.pair) = (l.find? r).map (·.pair) := by
    rw [find?_updWhere _ _ _ _ hr, Option.map_map]
    refine Option.map_congr fun m _ => ?_
    simp only [Function.comp_apply]
    split <;> rfl
  refine ⟨rfl, fun e => ?_, fun h => ?_⟩
  · rw [hopTo_eq, hopTo_eq s]
    simp only [sendMsg, sendAs, hnum]
  · have hp (x y : Option Member) : (((x.orElse fun _ => y).getD default).pair) =
        (((x.map (·.pair)).orElse fun _ => y.map (·.pair)).getD (default : Member).pair) := by
      cases x <;> cases y <;> rfl
    rw [peerEntry, peerEntry, hp, hp]
    simp only [sendMsg, sendAs]
    rw [hpair, hpair]
    · exact fun _ => rfl
    · exact fun _ => rfl

theorem dissolve_sends (l : List Nat) (s : State) : ∃ ms mem rg,
    l.foldl (fun s d => sendMsg s d 6 (leBytes 1 8)) s =
      { s with tether.out := s.tether.out ++ ms, tether.members := mem, tether.ring := rg }
    ∧ ms.map (·.dst) = l ∧ ∀ m ∈ ms, m.kind = 6 ∧ m.enc = true ∧ m.src = s.selfId
      ∧ m.body = sealBody (peerEntry s (hopTo s m.dst)).pair (s.selfId < hopTo s m.dst) 6 s.selfId m.dst m.ctr [8] := by
  induction l generalizing s with
  | nil => exact ⟨[], s.tether.members, s.tether.ring, by simp, rfl, nofun⟩
  | cons d l ih =>
    obtain ⟨mem, rg, hs⟩ := sendAs_eq s s.selfId d 6 (leBytes 1 8)
    obtain ⟨hself, hhop, hpair⟩ := sendMsg_sealsAs s d 6 (leBytes 1 8)
    obtain ⟨ms, mem', rg', he, hd, hm⟩ := ih (sendMsg s d 6 (leBytes 1 8))
    refine ⟨⟨s.selfId, d, (peerEntry s (hopTo s d)).ctrOut, 6, true, sealBody (peerEntry s (hopTo s d)).pair
      (s.selfId < hopTo s d) 6 s.selfId d (peerEntry s (hopTo s d)).ctrOut [8]⟩ :: ms, mem', rg', ?_,
      congrArg (d :: ·) hd, fun m hmm => ?_⟩
    · rw [List.foldl_cons, he, sendMsg, hs]
      simp only [List.append_assoc, List.cons_append, List.nil_append]
      rfl
    · rcases List.mem_cons.1 hmm with rfl | hmm
      · exact ⟨rfl, rfl, rfl, rfl⟩
      · simpa only [hself, hhop, hpair] using hm m hmm

/-- CANOPY_CONFIG LOAD that no check refuses takes the charter it reads. -/
theorem exec_canopyConfigLoad {s s1 s2 : State} {p : Nat} {se b : Bytes} (ht : Taken s s1 p se) (ho : Open s1 se)
    (hop : byteAt se 0 = 0xA5) (hsolo : s1.solo = false) (hp : s1.adm.primary = p) (h8 : byteAt se 8 = 0)
    (hact : s1.tether.active = 1) (hch : s1.tether.charter = none)
    (hf : scanParams se [(8, 1, false), (12, 2, false), (14, 2, false), (16, 8, false),
      (24, 4, decide (leAt se 24 4 < 64) || decide (16384 < leAt se 24 4))] = none)
    (hread : hostRead s1 (p * 256) (leAt se 16 8) (leAt se 24 4) 7 false = (s2, some b)) (split : Bool) :
    exec (.canopyConfigLoad p (se, split)) s = .next (journal s1 (loadCharter s2 b split).1 p se (loadCharter s2 b split).2) := by
  have hf' : scanParams se [(8, 1, byteAt se 8 != 0), (12, 2, false), (14, 2, false), (16, 8, false),
      (24, 4, decide (leAt se 24 4 < 64) || decide (16384 < leAt se 24 4))] = none := by simpa [h8] using hf
  change execCanopyConfigLoad p (se, split) s = _
  simp only [execCanopyConfigLoad]
  rw [adminCmd_open ht ho (by simp [opIs_of hop, h8]) fun _ => hp]
  · simp only [hread]
  · rw [List.cons_append, soloCheck_nil hsolo, scanReply_nil hf', firstReply_append]
    · rfl
    · simp [hact, hch]

/-- Settles O23; for DISSOLVE, a message moves on no more than CTRs, so that each is sealed as from the first state. -/
theorem reportsAndStanding : Obligations.ReportsAndStanding := by
  unfold Obligations.ReportsAndStanding
  intro s s1 p se ht ho
  refine ⟨fun retire hop h20 hp hc => ?_, fun hop hf hlen => ?_, fun hop hf hlen s2 hw => ?_, fun hop hf s2 out hout hlen s3 hw => ?_,
    fun hop hp hc u r hr => ?_, fun hop hsolo hp => ⟨fun h8 hact hch hf s2 b hread => ⟨fun hok => ?_, fun d hd => ?_,
      fun hdep hsig hfail => ?_⟩, fun h8 hact hf => ?_, fun h8 hj hlive hlt hf => ?_⟩⟩
  · have := healthGet_open ht ho hop h20 hp hc
    cases retire
    · exact congrArg Host.Outcome.next this
    · exact congrArg Host.Outcome.next this
  · change execGraftInfo p se s = _
    rw [execGraftInfo, adminCmd_open ht ho (opIs_of hop) (fun h => absurd h Bool.false_ne_true)]
    · rw [adminOutput_small hlen]
    · rw [scanReply_nil hf, firstReply_nil]
  · change execGraftInfo p se s = _
    rw [execGraftInfo, adminCmd_open ht ho (opIs_of hop) (fun h => absurd h Bool.false_ne_true)]
    · rw [adminOutput_written hlen hw]
    · rw [scanReply_nil hf, firstReply_nil]
  · obtain ⟨hsafe, hstop, h6, h7, -, -⟩ := ho
    change execAttest p se s = _
    rw [execAttest, adminRow_of_taken ht (opIs_of hop)]
    simp only [deviceChecks_open (primary := false) nofun (.inr ⟨hsafe, hstop⟩) h6 h7 true true (.inl rfl) (.inl rfl),
      scanReply_nil hf, firstReply_nil, hout, adminOutput_written hlen hw]
  · obtain ⟨hsafe, hstop, h6, h7, -, -⟩ := ho
    change execLcsTransition p se u s = _
    rw [execLcsTransition, adminRow_of_taken ht (opIs_of hop)]
    simp only [firstReply_append _ _ (baseChecks_open (fun _ => hp) (.inr ⟨hsafe, hstop⟩) h6 h7), hc, hr]
  · have hrun := exec_canopyConfigLoad ht ho hop hsolo hp h8 hact hch hf hread false
    obtain ⟨t, hload, hjoin, hoff, hchr, hadm⟩ := loadCharter_good hok
    obtain ⟨ha, -⟩ := hostRead_frame s1 (p * 256) (leAt se 16 8) (leAt se 24 4) 7 false
    rw [hread] at ha
    rw [hload] at hrun
    exact ⟨_, hrun, hjoin, hoff, hchr, congrArg (fun a => a.cmds ++ _) (hadm.trans ha)⟩
  · refine (exec_canopyConfigLoad ht ho hop hsolo hp h8 hact hch hf hread false).trans ?_
    simp [loadCharter, charterVerdict, hd]
  · refine (exec_canopyConfigLoad ht ho hop hsolo hp h8 hact hch hf hread true).trans ?_
    obtain ⟨-, hl⟩ := hostRead_frame s1 (p * 256) (leAt se 16 8) (leAt se 24 4) 7 false
    rw [hread] at hl
    have hdep' : s2.lcs = .deployed := (congrArg LcsBlock.state hl).trans hdep
    simp [loadCharter, charterVerdict, hdep', hsig, hfail]
  · obtain ⟨ms, mem, rg, he, hd, hm⟩ := dissolve_sends s1.peersJoined s1
    have hrun : execCanopyConfigDissolve p se s = .next (journal s1 { s1.peersJoined.foldl
        (fun s d => sendMsg s d 6 (leBytes 1 8)) s1 with tether.dissolve := some s1.adm.nextRef } p se aLater) := by
      rw [execCanopyConfigDissolve, adminCmd_open ht ho (by simp [opIs_of hop, h8]) fun _ => hp]
      rw [List.cons_append, soloCheck_nil hsolo, scanReply_nil hf, firstReply_append]
      · rfl
      · simp [hact]
    rw [he] at hrun
    exact ⟨_, hrun, rfl, ms, rfl, hd, hm⟩
  · change execCanopyConfigTenantBind p se s = _
    have h1023 : ¬1023 < leAt se 12 2 := by omega
    rw [execCanopyConfigTenantBind, adminCmd_open ht ho (by simp [opIs_of hop, h8]) fun _ => hp]
    · simp [hj, hlive, h1023, scanReply_nil hf, firstReply_nil]
      rfl
    · rw [soloCheck_nil hsolo, firstReply_nil]

end Sys2Proof.Machine
end

section
/-! SUPPORT. QUIESCE_DRAINED of an AF's own instance while its writes are logged (R111, R114): the state that refutes the obligation. -/

namespace Sys2Proof.Machine

/-- A dirty log of instance 0 that covers the page at 0x100000 alone. -/
def onePageLog : DirtyLog := ⟨true, false, 0x40000, 0x50000, 0x100000, 1, false, false, 0, 90⟩

/-- The instance of PORT 0's AF while it is quiesced, its writes being logged. -/
def quiescingAf : Inst :=
  { (default : Inst) with id := 0, state := .quiescing, mode := .bypass, dirty := some onePageLog }

/-- A device in service with no job, whose primary AF has the QUIESCE of its own instance still to be answered on an admin completion ring at
0x30000. -/
def quiescingDevice : State :=
  { State.reset with
    tick.running := true, tick.count := 100, hwd.vdd := true, busMaster := [0], insts := [quiescingAf],
    ports := [{ (default : Port) with
      present := true, dlUp := true,
      admq := { (default : Admq) with
        running := true, enable := true,
        cq := { (default : Cq) with base := 0x30000, log2n := 4, state := .active } } }],
    adm.cmds := [⟨7, 0, 9, 0x0501, 0, 0, 100, .quiesce 0⟩] }

/-- It is QUIESCING, its log runs within its range, and no job is left. -/
theorem quiescingDevice_met : quiescingDevice.service = true ∧ quiescingDevice.inst? 0 = some quiescingAf
    ∧ quiescingDevice.work.jobs = [] := by decide +kernel

/-- The CE of the QUIESCE is a write of that instance outside the range that is logged (R111). -/
theorem quiescingDevice_drained : (postAdmins (quiesceDrained quiescingDevice 0)).inst? 0 = some { quiescingAf with
    state := .quiesced, quiesce := none, dirty := some { onePageLog with outOfRange := true } } := by decide +kernel

theorem exec_quiesceDrained {s : State} (i : Nat) (h : s.service = true) :
    exec (.quiesceDrained i) s = .next (postAdmins (quiesceDrained s i)) := by
  change execQuiesceDrained i s = _
  rw [execQuiesceDrained, if_pos h]

/-- Refutes O21: QUIESCE_DRAINED posts the CE of the QUIESCE at once, and that write is itself logged: of an AF's own instance, whose log
does not reach over the completion ring, OUT_OF_RANGE is set besides. -/
theorem not_logAbortAndDrain : ¬Obligations.LogAbortAndDrain := by
  unfold Obligations.LogAbortAndDrain
  intro h
  obtain ⟨hs, hx, hj⟩ := quiescingDevice_met
  obtain ⟨-, -, hq⟩ := h.2 quiescingDevice
  obtain ⟨hdrained, -⟩ := hq 0 quiescingAf hs hx rfl
  obtain ⟨t, ht, hi⟩ := hdrained (by simp [hj])
  obtain rfl := Host.Outcome.next.inj ((exec_quiesceDrained 0 hs).symm.trans ht)
  have hd := congrArg Inst.dirty (Option.some.inj (hi.symm.trans quiescingDevice_drained))
  simp [quiescingAf, onePageLog] at hd

end Sys2Proof.Machine
end

section
/-! The rows of jobs -/

namespace Sys2Proof.Machine
open Sys2Proof.Claims

/-! ### A job whose slice runs -/

section
variable {s s1 : State} {j op : Nat} {x : Job} {u : Upset} {inp : Bytes} (h : Ready s s1 j op x u inp)
include h

theorem ready_job : s.job? j = some x := h.1

theorem ready_opcode : x.opcode = op := h.2.2.1

/-- What a row does of a job that is ready is what its own part says. -/
theorem ready_runPart {sel dr : Job → Bool} {f : State → Job → Bytes → State × Option JobResult} (hs : sel x = true)
    (hd : dr x = draws x) : Machine.runPart s j u sel dr f = match f s1 x inp with
      | (t, some r) => finalCommit t j r
      | (t, none) => t := by
  obtain ⟨hj, hr, -, s0, hv, hq, hi, hdd, hk, hm⟩ := h
  exact runPart_runs hj hr hs hv hq hi (by rw [hd]; exact hdd) hk hm

theorem ready_runJob {sel dr : Job → Bool} {f : State → Job → Bytes → State × JobResult} (hs : sel x = true)
    (hd : dr x = draws x) : Machine.runJob s j u sel dr f = finalCommit (f s1 x inp).1 j (f s1 x inp).2 := by
  rw [Machine.runJob, ready_runPart h hs hd]

/-- The row of a job that is ready yields what its own part gives. -/
theorem ready_yields {c : Instr} {sel dr : Job → Bool} {f : State → Job → Bytes → State × JobResult} {t : State} {r : JobResult}
    (he : exec c s = .next (Machine.runJob s j u sel dr f)) (hs : sel x = true) (hd : dr x = draws x) (hf : f s1 x inp = (t, r)) :
    Yields c s t j r := by
  rw [Yields, he, ready_runJob h hs hd, hf]

theorem ready_decides {c : Instr} {sel dr : Job → Bool} {f : State → Job → Bytes → State × JobResult} {t : State} {r : JobResult}
    (he : exec c s = .next (Machine.runJob s j u sel dr f)) (hs : sel x = true) (hd : dr x = draws x)
    (hf : f s1 x inp = decided t x u r) : Decides c u s t j x r := by
  refine ⟨fun hu => ready_yields h he hs hd (hf.trans ?_), fun hu => ready_yields h he hs hd (hf.trans ?_)⟩
  · simp [decided, hu]
  · simp [decided, hu, err, errR]
end

theorem takeFree_drawn (s : State) (n : Nat) : takeFree s n = (fresh s n, drawn s n) := rfl

/-! ### What every job row shares -/

/-- A destroy that has no member to tell, or has told them, is a job row as any other. -/
theorem exec_keyDestroy_alone {s : State} {j : Nat} (u : Upset) (h : dropReplicas s j = none) : exec (.keyDestroy j u) s =
    .next (runJob s j u (fun x => x.opcode == 0x42 && !revocationFull s x) (fun _ => false) runKeyDestroy) := by
  change execKeyDestroy j u s = _
  rw [execKeyDestroy, h]

/-- A row in its own turn is the common part with its own test and effect, and draws where its job does. -/
theorem jobRow_runPart {s : State} {j : Nat} {u : Upset} {x : Job} {c : Instr} (hc : jobRow j u x = some c)
    (ht : OwnTurn s j x) : ∃ sel dr f, exec c s = .next (runPart s j u sel dr f) ∧ sel x = true ∧ dr x = draws x := by
  obtain ⟨htry, hdrop, hrev⟩ := ht
  have htr (op : Nat) (a : State → Job → Nat → Bool) (r : State) : tryRow s j op a r = r := by simp [tryRow, htry]
  unfold jobRow at hc
  split at hc
  all_goals rename_i hop
  -- a row with two commands for one OPCODE takes the one its bit of OPT names
  case h_16 | h_17 | h_18 =>
    split at hc <;> rename_i hb <;> obtain rfl := Option.some.inj hc
    · exact ⟨_, _, _, rfl, by simp [hop, hb], by simp [draws, hop]⟩
    · exact ⟨_, _, _, rfl, by simp [hop, hb], by simp [draws, hop]⟩
  case h_23 =>
    split at hc <;> rename_i hb <;> obtain rfl := Option.some.inj hc
    · exact ⟨_, _, _, rfl, by simp [hop, hb], by simp [draws, hop, hb]⟩
    · exact ⟨_, _, _, rfl, by simp [hop, hb], by simp [draws, hop, hb]⟩
  case h_30 =>
    split at hc <;> rename_i hb <;> cases hc
    · exact ⟨_, _, _, rfl, by simp [hop, hb], by simp [draws, hop, hb]⟩
    · exact ⟨_, _, _, rfl, by simp [hop, hb], by simp [draws, hop, hb]⟩
    · exact ⟨_, _, _, rfl, by simp [hop, hb], by simp [draws, hop, hb]⟩
  case h_31 => cases hc
  -- a row that may run an attempt, or tell its members first, has neither to do in its own turn
  case h_1 | h_5 =>
    obtain rfl := Option.some.inj hc
    exact ⟨_, _, _, congrArg Host.Outcome.next (htr ..), by simp [hop], by simp [draws, hop]⟩
  case h_25 =>
    obtain rfl := Option.some.inj hc
    exact ⟨_, _, _, exec_keyDestroy_alone u hdrop, by simp [hop, hrev hop], by simp [draws, hop]⟩
  all_goals
    obtain rfl := Option.some.inj hc
    exact ⟨_, _, _, rfl, by simp [hop], by simp [draws, hop]⟩

theorem noInput_confirmed {s t : State} {x : Job} (h : x.confirmed = true) :
    ∃ d, (d = 0x01 ∨ d = 0x03) ∧ noInput s t x = finalCommit t x.id (err 0x0103 d) := by
  refine ⟨inputDetail s x, ?_, by simp [noInput, h, err, errR]⟩
  unfold inputDetail
  split
  · exact .inl rfl
  · split
    · exact .inl rfl
    · exact .inr rfl

/-! ### The final commit -/

theorem finalCommit_unconfirmed {s : State} {j : Nat} {x : Job} (r : JobResult) (hx : s.job? j = some x) (hm : s.mxuCmd? j = none)
    (hc : x.confirmed = false) : finalCommit s j r = s.updJob j fun x => x.reach r (now s) := by
  have hl : leaveMxu s j = s := by simp [leaveMxu, hm]
  rw [finalCommit_held (hl.symm ▸ hx) hc, hl]

theorem Job.reach_facts (x : Job) (r : JobResult) (t : Nat) :
    (x.reach r t).result = some r ∧ (x.reach r t).commitTick = some t ∧ (x.reach r t).committed = x.committed := by
  unfold Job.reach
  dsimp only
  split <;> exact ⟨rfl, rfl, rfl⟩

theorem Job.reach_confirmed (x : Job) (r : JobResult) (t : Nat) : (x.reach r t).confirmed = x.confirmed := by
  simp only [Job.confirmed, Job.reach_dep]

/-- A result without output and without changes, of a device with no replicas to announce, commits the job and nothing else. -/
theorem commitNow_nothing {s : State} {j : Nat} {x : Job} {r : JobResult} (hx : s.job? j = some x) (hr : x.result = some r)
    (ho : r.out = []) (he : r.effects = []) (hf : s.funnels = false) : commitNow s j = s.updJob j fun y => if r.status = 0 then
      { y with committed := true, resKeys := 0, resBytes := 0, resShelf := 0, resCtx := 0 } else { y with committed := true } := by
  have hf' (f : Job → Job) : (s.updJob j f).funnels = false := hf
  simp only [commitNow, hx, hr, ho, he, List.isEmpty_nil, Bool.true_or, if_true, applyEffects, List.foldl_nil, announceKeys, hf',
    Bool.not_false]

theorem finalCommit_nothing {s : State} {j : Nat} {x : Job} {r : JobResult} (hx : s.job? j = some x) (hm : s.mxuCmd? j = none)
    (hc : x.confirmed = true) (ho : r.out = []) (he : r.effects = []) (hf : s.funnels = false) :
    ∃ y, (finalCommit s j r).job? j = some y ∧ y.result = some r ∧ y.committed = true
      ∧ (finalCommit s j r).hostMem = s.hostMem ∧ (finalCommit s j r).store = s.store := by
  have hl : leaveMxu s j = s := by simp [leaveMxu, hm]
  have hy := State.job?_updJob_some hx (f := fun x => x.reach r (now s)) fun _ => Job.reach_id ..
  obtain ⟨hres, -, -⟩ := Job.reach_facts x r (now s)
  have hrun : finalCommit s j r = commitNow (s.updJob j fun x => x.reach r (now s)) j := by
    simp only [finalCommit, hl, hy, Job.reach_confirmed, hc, if_true]
  rw [hrun, commitNow_nothing hy hres ho he hf]
  refine ⟨_, State.job?_updJob_some hy fun y => by split <;> rfl, ?_, ?_, rfl, rfl⟩ <;> split
  · exact hres
  · exact hres
  · rfl
  · rfl

/-- Settles O24: a job of no effect leaves nothing to write, an unconfirmed one holds its result, and what every row meets
stands before its own part. -/
theorem Jobs.finalCommit : Obligations.FinalCommit := by
  unfold Obligations.FinalCommit
  refine ⟨fun s j x r hx hm => ⟨fun hc => ?_, fun hc ho he hf => finalCommit_nothing hx hm hc ho he hf⟩,
    fun s j u x c hx hc ht => ?_⟩
  · obtain ⟨hr, hct, hcm⟩ := Job.reach_facts x r (now s)
    exact ⟨_, _, finalCommit_unconfirmed r hx hm hc, State.job?_updJob_some hx fun _ => Job.reach_id .., hr, hct, hcm, rfl, rfl⟩
  obtain ⟨sel, dr, f, hex, hsel, hdr⟩ := jobRow_runPart hc ht
  obtain rfl := State.job?_id hx
  have herr (st d : Nat) : errR st d = err st d := rfl
  refine ⟨fun hr => ?_, fun hr => ⟨fun s0 hv => ?_, fun s0 hv => ⟨fun hq hd => ?_, fun hq => ⟨fun s1 hi => ?_, fun s1 inp hi => ?_⟩⟩⟩⟩
  · rw [hex]
    simp [runPart, hx, hr]
  · rw [Yields, hex]
    simp [runPart, hx, hr, hsel, hv, herr]
  · rw [Yields, hex]
    simp [runPart, hx, hr, hsel, hv, herr, hq, hd]
  · rw [hex]
    have hrun : runPart s x.id u sel dr f = noInput s0 s1 x := by simp [runPart, hx, hr, hsel, hv, hq, hi]
    rw [hrun]
    refine ⟨fun hcf => ?_, fun hcf => by simp [noInput, hcf]⟩
    obtain ⟨d, hd, hn⟩ := noInput_confirmed (s := s0) (t := s1) hcf
    exact ⟨d, hd, by rw [Yields, hex, hrun, hn]⟩
  · refine ⟨fun hd hdw => ?_, fun hd hdw hk => ?_, fun hd hk hm => ?_⟩
    · rw [Yields, hex]
      simp [runPart, hx, hr, hsel, hv, hq, hi, hd, hdr, hdw, herr]
    · rw [Yields, hex]
      simp [runPart, hx, hr, hsel, hv, hq, hi, hd, hdr, hdw, hk, herr]
    · rw [hex]
      have hd' : (drbgDown s1 x && dr x) = false := hdr ▸ hd
      simp only [runPart, hx, hr, hsel, hv, hq, hi, hd', hk, hm, Bool.not_true, Bool.or_false, Bool.not_false,
        Bool.false_eq_true, if_false, if_true]

/-! ### Attempts (R140, R142, R175) -/

/-- The end of an attempt moves a job's attempts and nothing else of it. -/
theorem Job.endTry_eq (x : Job) (k : Nat) (b : Bool) : ∃ t p l, x.endTry k b = { x with trying := t, parts := p, lowest := l } := by
  have hs (n : Nat) (y : Job) : ∃ p l, Job.settleTries n y = { y with parts := p, lowest := l } := by
    induction n generalizing y with
    | zero => exact ⟨y.parts, y.lowest, rfl⟩
    | succ n ih =>
      unfold Job.settleTries
      split
      · obtain ⟨p, l, h⟩ := ih { y with lowest := y.lowest + 1, parts := y.parts.filter (·.no != y.lowest) }
        exact ⟨p, l, h⟩
      · exact ⟨y.parts, y.lowest, rfl⟩
  unfold Job.endTry
  extract_lets old p y
  obtain ⟨q, l, h⟩ := hs y.parts.length y
  exact ⟨_, q, l, h⟩

theorem Job.endTry_id (x : Job) (k : Nat) (b : Bool) : (x.endTry k b).id = x.id := by
  obtain ⟨_, _, _, h⟩ := Job.endTry_eq x k b
  rw [h]

/-- Where a sprint job goes on, only its engine's plan changes. -/
theorem nextSegment_eq {s t : State} {x : Job} (h : nextSegment s x = some t) : ∃ es, t = { s with engines := es } := by
  unfold nextSegment at h
  dsimp only at h
  split at h
  · exact ⟨_, (Option.some.inj h).symm⟩
  · cases h

/-- What the end of an attempt can do: the job ends at the limit, or stands with its attempt ended. -/
theorem endTry_cases {s : State} {x : Job} (hx : s.job? x.id = some x) (hr : x.result = none) (k : Nat) (b : Bool) :
    (tryLimit x ≤ (x.endTry k b).lowest → endTry s x k b =
      finalCommit (s.updJob x.id fun z => z.endTry k b) x.id (err 0x0600 (tryDetail x)))
    ∧ ((x.endTry k b).lowest < tryLimit x → ∃ z, (endTry s x k b).job? x.id = some z ∧ z.parts = (x.endTry k b).parts
      ∧ z.lowest = (x.endTry k b).lowest ∧ z.result = none ∧ (endTry s x k b).store = s.store
      ∧ (endTry s x k b).hostMem = s.hostMem) := by
  obtain ⟨t, p, l, he⟩ := Job.endTry_eq x k b
  have hy := State.job?_updJob_some hx (f := fun z => z.endTry k b) fun z => Job.endTry_id ..
  have hid := Job.endTry_id x k b
  have hl : tryLimit (x.endTry k b) = tryLimit x := by rw [he]; rfl
  have hd : tryDetail (x.endTry k b) = tryDetail x := by rw [he]; rfl
  have hres : (x.endTry k b).result = none := by rw [he]; exact hr
  unfold endTry
  simp only [hy, hl, hid, hd]
  refine ⟨fun h => by rw [if_pos h]; rfl, fun h => ?_⟩
  rw [if_neg (Nat.not_le.2 h)]
  split
  · split
    · rename_i u hu
      obtain ⟨es, rfl⟩ := nextSegment_eq hu
      exact ⟨_, State.job?_updJob_some hy fun _ => rfl, rfl, rfl, hres, rfl, rfl⟩
    · exact ⟨_, hy, rfl, rfl, hres, rfl, rfl⟩
  · exact ⟨_, hy, rfl, rfl, hres, rfl, rfl⟩

theorem tryDue_some {s : State} {j k : Nat} {x : Job} (h : tryDue s j = some (x, k)) :
    s.job? j = some x ∧ x.result = none := by
  unfold tryDue at h
  split at h
  · rename_i y hy
    split at h
    · rename_i hl
      obtain ⟨m, -, hm⟩ := Option.map_eq_some_iff.1 h
      obtain ⟨rfl, rfl⟩ := Prod.mk.inj hm
      simp only [live, Bool.and_eq_true, Option.isNone_iff_eq_none] at hl
      exact ⟨hy, by tauto⟩
    · cases h
  · cases h

/-- A row whose jobs run in attempts ends the lowest one at work. -/
theorem tryRow_attempts {c : Instr} {s rest : State} {j op limit detail : Nat} {accept : State → Job → Nat → Bool}
    (hex : exec c s = .next (tryRow s j op accept rest))
    (hl : ∀ x : Job, x.opcode = op → tryLimit x = limit ∧ tryDetail x = detail) :
    AttemptEnds c s j op limit detail (accept s) := by
  intro x k hx hop
  obtain ⟨hj, hr⟩ := tryDue_some hx
  obtain rfl := State.job?_id hj
  obtain ⟨hlim, hdet⟩ := hl x hop
  have hrow : tryRow s x.id op accept rest = if drbgDown s x && runsMasked x then finalCommit s x.id (errR 0x0600 0x70)
      else endTry s x k (accept s x k) := by simp [tryRow, hx, hop]
  refine ⟨fun hd => ?_, fun hd => ?_⟩
  · rw [Yields, hex, hrow, if_pos hd]
    rfl
  · obtain ⟨hend, hgo⟩ := endTry_cases hj hr k (accept s x k)
    rw [hrow, if_neg (by simp [hd])] at hex
    rw [hlim] at hend hgo
    rw [hdet] at hend
    exact ⟨fun h => hex.trans (congrArg _ (hend h)), fun h => ⟨_, (hgo h).choose, hex, (hgo h).choose_spec⟩⟩

/-- No attempt of a job is at work whose kind has none, that is not prepared or has chosen. -/
theorem tryDue_none {s : State} {j : Nat} {x : Job} (hx : s.job? j = some x)
    (h : fanOf s x ≠ .attempts ∨ x.prepared = false ∨ x.chosen.isSome = true) : tryDue s j = none := by
  simp only [tryDue, hx]
  refine if_neg ?_
  simp only [Bool.and_eq_true, beq_iff_eq, Option.isNone_iff_eq_none]
  rintro ⟨⟨⟨-, hf⟩, hp⟩, hc⟩
  rcases h with h | h | h
  · exact h hf
  · simp [hp] at h
  · simp [hc] at h

theorem tryRow_rest {s rest : State} {j op : Nat} {accept : State → Job → Nat → Bool} (h : tryDue s j = none) :
    tryRow s j op accept rest = rest := by simp [tryRow, h]

/-! ### Where secrets go, and new keys -/

theorem secretOut_eq (s : State) (x : Job) (toCtx isNew : Bool) (pre ss : Bytes) :
    secretOut s x toCtx isNew pre ss = delivered s x toCtx isNew pre ss := by
  unfold secretOut delivered fillCtx
  cases toCtx
  · rfl
  · simp only [if_true]
    cases (if isNew then newCtx s x.inst else ctxAt s x.ctxH) <;> rfl

theorem newKey_isNew (s : State) (x : Job) (alg pset policy : Nat) (pub priv : Option Bytes) :
    IsNewKey s x alg pset pub priv (newKey s x.inst alg pset policy pub priv) :=
  ⟨rfl, rfl, rfl, rfl, rfl, rfl, rfl, rfl, rfl⟩

theorem pctFail_eq (s : State) (x : Job) : pctFail s x = (emit s 0x0201 x.inst x.alg x.pset, err 0x0600 0x22) := rfl

/-! ### KEM jobs -/

/-- KEM_KEYGEN of a pair: the test fails, or the new key comes with its public half. -/
theorem kemPair_fails (s : State) (x : Job) (seed : Bytes) :
    kemPair .pairwise s x seed = (emit s 0x0201 x.inst x.alg x.pset, err 0x0600 0x22) := rfl

/-- The row of KEM_KEYGEN, of a job that is ready with no attempt at work, does what its own part says. -/
theorem exec_kemKeygen {s s1 : State} {j : Nat} {x : Job} {u : Upset} {inp : Bytes} (h : Ready s s1 j 0x01 x u inp)
    (ht : fanOf s x ≠ .attempts ∨ x.prepared = false ∨ x.chosen.isSome = true) : exec (.kemKeygen j u) s =
    .next (match runKemKeygen u s1 x inp with
      | (t, some r) => finalCommit t j r
      | (t, none) => t) := by
  change execKemKeygen j u s = _
  rw [execKemKeygen, tryRow_rest (tryDue_none h.1 ht), ready_runPart h (by simp [ready_opcode h]) (by simp [draws, ready_opcode h])]

/-- Making a pair from `seed` in state `t` ends as the pairwise test decides. -/
theorem kemPair_ends {c : Instr} {s t : State} {j : Nat} {x : Job} {u : Upset} {seed : Bytes}
    (hex : exec c s = .next (finalCommit (kemPair u t x seed).1 j (kemPair u t x seed).2)) :
    let gen := if x.alg = 0x06 then [seed, leBytes 4 (x.chosen.getD 0)] else [seed]
    let pub := stdBytes .pubOf (ap x.alg x.pset) gen (pkLen x.alg x.pset)
    (u = .pairwise → PairFails c s t j x)
    ∧ (u ≠ .pairwise → ∃ k, IsNewKey t x x.alg x.pset (some pub)
        (some (stdBytes .privOf (ap x.alg x.pset) gen (skLen x.alg x.pset))) k
      ∧ Yields c s t j (ok (leBytes 4 k.handle ++ if x.alg = 0x06 then [] else pub) [.createKey k])) := by
  intro gen pub
  refine ⟨fun hu => ?_, fun hu => ⟨_, newKey_isNew t x x.alg x.pset x.policy _ _, ?_⟩⟩
  · subst hu
    exact hex
  · rw [Yields, hex]
    simp only [kemPair, beq_iff_eq, if_neg hu]
    rfl

/-- Settles O25, by the row: a pair and its test, the attempts of Classic McEliece, the check of an inline key. -/
theorem kemJobs : Obligations.KemJobs := by
  unfold Obligations.KemJobs
  intro s s1 j x u inp a
  refine ⟨fun h hal => ?_, fun h hal => ⟨fun hc hp => ?_, fun c hc => ?_⟩,
    tryRow_attempts (accept := fun _ x k => stdHolds .attemptOk (ap x.alg x.pset) [leBytes 4 k, x.rnd]) rfl ?_, fun h => ?_,
    fun h => ?_⟩
  · have hfan : fanOf s x ≠ .attempts := by simp [fanOf, ready_opcode h, hal]
    have hex := exec_kemKeygen h (.inl hfan)
    simp only [runKemKeygen, hal, if_false, takeFree_drawn] at hex
    have hk := kemPair_ends hex
    simp only [hal, if_false] at hk
    exact hk
  · have hex := exec_kemKeygen h (.inr (.inl hp))
    simp only [runKemKeygen, hal, if_true, hc, hp, Option.isSome_none, Bool.false_eq_true, if_false, takeFree_drawn] at hex
    exact hex
  · intro gen
    have hex := exec_kemKeygen h (.inr (.inr (by simp [hc])))
    simp only [runKemKeygen, hal, if_true, hc, Option.isSome_some] at hex
    have hk := kemPair_ends hex
    simp only [hal, if_true, hc, Option.getD_some, List.append_nil] at hk
    simpa only [a, gen, hal] using hk
  · intro x hop
    simp [tryLimit, tryDetail, hop]
  · intro ek n
    refine ⟨fun hek => ?_, fun st d hin hbad => ?_⟩
    · refine ready_yields h rfl (by simp [ready_opcode h]) (by simp [draws, ready_opcode h]) ?_
      have hok : (if x.ekInline then ekBad x.alg x.pset ek else none) = none := by
        rcases hek with hek | hek
        · simp [hek]
        · by_cases hi : x.ekInline = true <;> simp [ek, hi, hek]
      simp only [runKemEncaps]
      rw [show (if x.ekInline then ekBad x.alg x.pset (if x.ekInline then inp else (jobKey s1 x).pk) else none) = none from hok]
      simp only [takeFree_drawn, secretOut_eq]
      rfl
    · refine ready_yields h rfl (by simp [ready_opcode h]) (by simp [draws, ready_opcode h]) ?_
      simp [runKemEncaps, hin, hbad, err, errR]
  · refine ready_decides h rfl (by simp [ready_opcode h]) (by simp [draws, ready_opcode h]) ?_
    rw [runKemDecaps, secretOut_eq]

/-! ### HYBRID_KEX -/

/-- Settles O26, by the part of the exchange. -/
theorem hybridJobs : Obligations.HybridJobs := by
  unfold Obligations.HybridJobs
  intro s s1 j x u inp h ka da n c d
  have hop := ready_opcode h
  refine ⟨fun h0 => ?_, fun h1 => ⟨fun st e he => ?_, fun he => ⟨fun st e hp => ?_, fun hp => ?_⟩⟩,
    fun h2 => ⟨fun st e hp => ?_, fun ctx p dz sk hp hctx hslot => ?_⟩⟩
  · intro dz s2 sk s3
    refine ⟨fun ctx hc => ?_, fun hc => ?_⟩
    · refine ready_yields h rfl (by simp [hop, h0]) (by simp [draws, hop, h0]) ?_
      simp only [runClientInit, takeFree_drawn, fillCtx, hybridA]
      rw [show (if bit x.opt 2 then newCtx _ x.inst else ctxAt _ x.ctxH) = some ctx from hc]
      rfl
    · refine ready_yields h rfl (by simp [hop, h0]) (by simp [draws, hop, h0]) ?_
      simp only [runClientInit, takeFree_drawn, fillCtx, hybridA]
      rw [show (if bit x.opt 2 then newCtx _ x.inst else ctxAt _ x.ctxH) = none from hc]
      rfl
  · refine ready_yields h rfl (by simp [hop, h1]) (by simp [draws, hop, h1]) ?_
    simp only [runServerRespond, hybridA]
    rw [show ekBad 0x01 (hybridKem x.pset) (inp.take (pkLen 0x01 (hybridKem x.pset))) = some (st, e) from he]
    rfl
  · refine ready_yields h rfl (by simp [hop, h1]) (by simp [draws, hop, h1]) ?_
    simp only [runServerRespond, hybridA]
    rw [show ekBad 0x01 (hybridKem x.pset) (inp.take (pkLen 0x01 (hybridKem x.pset))) = none from he,
      show checkXPoint (hybridDh x.pset) (inp.drop (pkLen 0x01 (hybridKem x.pset))) = some (st, e) from hp]
    rfl
  · intro m s2 sk
    refine ready_yields h rfl (by simp [hop, h1]) (by simp [draws, hop, h1]) ?_
    simp only [runServerRespond, hybridA]
    rw [show ekBad 0x01 (hybridKem x.pset) (inp.take (pkLen 0x01 (hybridKem x.pset))) = none from he,
      show checkXPoint (hybridDh x.pset) (inp.drop (pkLen 0x01 (hybridKem x.pset))) = none from hp]
    simp only [takeFree_drawn, secretOut_eq]
    rfl
  · refine ready_yields h rfl (by simp [hop, h2]) (by simp [draws, hop, h2]) ?_
    simp only [runClientFinish, hybridA]
    rw [show checkXPoint (hybridDh x.pset) (inp.drop (ctLen 0x01 (hybridKem x.pset))) = some (st, e) from hp]
    rfl
  · intro ss
    refine ready_decides h rfl (by simp [hop, h2]) (by simp [draws, hop, h2]) ?_
    simp only [runClientFinish, hybridA]
    rw [show checkXPoint (hybridDh x.pset) (inp.drop (ctLen 0x01 (hybridKem x.pset))) = none from hp]
    simp only [hctx, Option.getD_some, hslot]
    by_cases hx : x.outToCtx = true
    · simp [hx, secretOut, fillCtx, hctx]
      rfl
    · simp [hx, secretOut]
      rfl

/-! ### Signature jobs -/

/-- The row of SIG_SIGN, of a job that is ready with no attempt at work, does what its own part says. -/
theorem exec_sigSign {s s1 : State} {j : Nat} {x : Job} {u : Upset} {inp : Bytes} (h : Ready s s1 j 0x09 x u inp)
    (ht : fanOf s x ≠ .attempts ∨ x.prepared = false ∨ x.chosen.isSome = true) : exec (.sigSign j u) s =
    .next (match runSigSign u s1 x inp with
      | (t, some r) => finalCommit t j r
      | (t, none) => t) := by
  change execSigSign j u s = _
  rw [execSigSign, tryRow_rest (tryDue_none h.1 ht), ready_runPart h (by simp [ready_opcode h]) (by simp [draws, ready_opcode h])]

/-- SIG_SIGN runs in attempts for ML-DSA alone. -/
theorem fanOf_sign {s : State} {x : Job} (hop : x.opcode = 0x09) (h : x.alg ≠ 0x02) : fanOf s x ≠ .attempts := by
  simp only [fanOf, hop, h, if_false]
  split
  · nofun
  · split
    · split <;> nofun
    · nofun

theorem isStateful_ne {alg n : Nat} (h : isStateful alg = true) (hn : n ≠ 0x04) (hn' : n ≠ 0x05) : alg ≠ n := by
  simp only [isStateful, Bool.or_eq_true, beq_iff_eq] at h
  omega

/-- SIG_KEYGEN fails its pairwise test, or yields the pair made of its seed. -/
theorem runSigKeygen_fails {s : State} {x : Job} (inp : Bytes) (h3 : x.alg ≠ 0x03) (hs : isStateful x.alg = false) :
    runSigKeygen .pairwise s x inp =
      (emit (drawn s (sigSeedLen x.alg x.pset)) 0x0201 x.inst x.alg x.pset, err 0x0600 0x22) := by
  simp [runSigKeygen, takeFree_drawn, h3, hs, pctFail_eq]

theorem runSigKeygen_plain {u : Upset} {s : State} {x : Job} (inp : Bytes) (hu : u ≠ .pairwise ∨ x.alg = 0x03)
    (hs : isStateful x.alg = false) : ∃ k, IsNewKey (drawn s (sigSeedLen x.alg x.pset)) x x.alg x.pset
      (some (stdBytes .pubOf (ap x.alg x.pset) [fresh s (sigSeedLen x.alg x.pset)] (pkLen x.alg x.pset)))
      (some (stdBytes .privOf (ap x.alg x.pset) [fresh s (sigSeedLen x.alg x.pset)] (skLen x.alg x.pset))) k
    ∧ runSigKeygen u s x inp = (drawn s (sigSeedLen x.alg x.pset), ok (leBytes 4 k.handle ++
      stdBytes .pubOf (ap x.alg x.pset) [fresh s (sigSeedLen x.alg x.pset)] (pkLen x.alg x.pset)) [.createKey k]) := by
  refine ⟨_, newKey_isNew _ x x.alg x.pset x.policy _ _, ?_⟩
  have hp : (u == .pairwise && !(x.alg == 0x03 || false)) = false := by
    rcases hu with hu | hu <;> simp [hu]
  simp only [runSigKeygen, takeFree_drawn, hp, hs, Bool.false_eq_true, if_false]
  rfl

theorem verifyDetail_facts (x : Job) (args : List Bytes) :
    (x.alg = 0x02 → 1 ≤ verifyDetail x args ∧ verifyDetail x args ≤ 3) ∧ (x.alg = 0x03 → verifyDetail x args = 4)
    ∧ (isStateful x.alg = true → verifyDetail x args = 4 ∨ verifyDetail x args = 5)
    ∧ (x.alg = 0x11 ∨ x.alg = 0x12 → verifyDetail x args = 7) := by
  refine ⟨fun h => ?_, fun h => ?_, fun h => ?_, fun h => ?_⟩
  · simp only [verifyDetail, h]
    omega
  · simp only [verifyDetail, h]
  · simp only [isStateful, Bool.or_eq_true, beq_iff_eq] at h
    rcases h with h | h <;> simp only [verifyDetail, h] <;> split <;> simp
  · rcases h with h | h <;> simp only [verifyDetail, h]

/-- Settles O27, by the family of the algorithm: with attempts, stateful, or neither. -/
theorem signatureJobs : Obligations.SignatureJobs := by
  unfold Obligations.SignatureJobs
  intro s s1 j x u inp a key
  refine ⟨fun h hst => ?_, fun h hst => ?_, fun h hst => ⟨fun hi => ?_, fun q hi => ?_⟩, fun h h2 => ⟨fun hc hp => ?_, fun k hc => ?_⟩,
    tryRow_attempts (accept := mldsaAccept) rfl ?_, fun h hst h2 => ?_, fun h => ?_⟩
  · intro n pub
    have hn : sigSeedLen x.alg x.pset = n := by simp only [sigSeedLen, hst, Bool.false_eq_true, if_false]; rfl
    refine ⟨fun hu h3 => ?_, fun hu => ?_⟩
    · subst hu
      exact ready_yields h rfl (by simp [ready_opcode h]) (by simp [draws, ready_opcode h]) (hn ▸ runSigKeygen_fails inp h3 hst)
    · obtain ⟨k, hk, hrun⟩ := runSigKeygen_plain (s := s1) inp hu hst
      rw [hn] at hk hrun
      exact ⟨k, hk, ready_yields h rfl (by simp [ready_opcode h]) (by simp [draws, ready_opcode h]) hrun⟩
  · intro n hs gen pub sk
    have hn : sigSeedLen x.alg x.pset = n := by
      simp only [sigSeedLen, isStateful_ne hst (n := 0x02) (by decide) (by decide),
        isStateful_ne hst (n := 0x03) (by decide) (by decide), hst, if_true, if_false]
      rfl
    refine ⟨{ newKey (drawn s1 n) x.inst x.alg x.pset x.policy (some pub) (some sk) with stateful := some (newStateful x sk) }, _,
      ?_, rfl, rfl, rfl, rfl, rfl, rfl, ?_⟩
    · exact ⟨rfl, rfl, rfl, rfl, rfl, rfl, rfl, rfl, rfl⟩
    · refine ready_yields h rfl (by simp [ready_opcode h]) (by simp [draws, ready_opcode h]) ?_
      simp only [runSigKeygen, takeFree_drawn, hst, hn, Bool.or_true, Bool.not_true, Bool.and_false, Bool.false_eq_true, if_false,
        if_true]
      rfl
  · have hex := exec_sigSign h (.inl (fanOf_sign (ready_opcode h) (isStateful_ne hst (by decide) (by decide))))
    simp only [runSigSign, hst, if_true, hi] at hex
    exact hex
  · intro hs
    have hex := exec_sigSign h (.inl (fanOf_sign (ready_opcode h) (isStateful_ne hst (by decide) (by decide))))
    refine ⟨fun hu => ?_, fun hu hr => ?_⟩
    · have hb : (u == .readBack && x.reserving) = false := by rcases hu with hu | hu <;> simp [hu]
      simp only [runSigSign, hst, if_true, hi, hb, Bool.false_eq_true, if_false] at hex
      exact hex
    · subst hu
      simp only [runSigSign, hst, if_true, hi, hr, beq_self_eq_true, Bool.and_self] at hex
      exact hex
  · have hex := exec_sigSign h (.inr (.inl hp))
    rw [hex]
    refine congrArg _ ?_
    by_cases hd : x.deterministic = true <;> simp [runSigSign, isStateful, h2, hc, hp, mldsaPrepare, hd, takeFree_drawn]
  · have hex := exec_sigSign h (.inr (.inr (by simp [hc])))
    have hs : isStateful 0x02 = false := rfl
    simp only [runSigSign, hs, Bool.false_eq_true, if_false, h2, if_true, hc] at hex
    simp only [a, h2]
    exact hex
  · intro x hop
    simp [tryLimit, tryDetail, hop]
  · intro n sig
    have hex := exec_sigSign h (.inl (fanOf_sign (ready_opcode h) h2))
    refine ⟨fun hd => ?_, fun hd => ?_⟩
    · simp only [runSigSign, hst, Bool.false_eq_true, if_false, h2, hd, if_true] at hex
      have hfix : fixedRandom s1 x = if x.alg = 0x03 then (key.sk.drop (2 * n)).take n else [] := by
        by_cases h3 : x.alg = 0x03 <;> simp [fixedRandom, h3, n, sub, key]
      rw [hfix] at hex
      exact hex
    · simp only [runSigSign, hst, Bool.false_eq_true, if_false, h2, hd, takeFree_drawn] at hex
      exact hex
  · intro pl sl pk sig args small curve
    have hclass : (x.alg == 0x11 || x.alg == 0x12) = decide curve := by rw [Bool.eq_iff_iff]; simp [curve]
    have hrun : runSigVerify u s1 x inp = match (if curve then checkPublic x.alg x.pset small pk else none) with
        | some (st, d) => (s1, errR st d)
        | none => if decide curve && sigRefused x.alg x.pset 0 sig then (s1, errR 0x0001 0x06)
          else decided s1 x u (verdict (stdHolds .verify a args) (verifyDetail x args)) := by
      simp only [runSigVerify, hclass, decide_eq_true_eq]
      rfl
    have hy {r : State × JobResult} (hr : runSigVerify u s1 x inp = r) : Yields (.sigVerify j u) s r.1 j r.2 :=
      ready_yields h rfl (by simp [ready_opcode h]) (by simp [draws, ready_opcode h]) hr
    have hd {r : JobResult} (hr : runSigVerify u s1 x inp = decided s1 x u r) : Decides (.sigVerify j u) u s s1 j x r :=
      ready_decides h rfl (by simp [ready_opcode h]) (by simp [draws, ready_opcode h]) hr
    refine ⟨fun st d hcv hbad => hy (r := (s1, errR st d)) (by rw [hrun, if_pos hcv, hbad]), fun hgood => ?_⟩
    have hnone : (if curve then checkPublic x.alg x.pset small pk else none) = none := by
      split
      · exact hgood ‹_›
      · rfl
    rw [hnone] at hrun
    refine ⟨fun hcv href => hy (r := (s1, errR 0x0001 0x06)) (by rw [hrun]; simp [hcv, href]), fun hok => ?_⟩
    have hpass : (decide curve && sigRefused x.alg x.pset 0 sig) = false := by
      by_cases hcv : curve
      · simp [hok hcv]
      · simp [hcv]
    simp only [hpass, Bool.false_eq_true, if_false] at hrun
    refine ⟨fun hv => hd (by rw [hrun, hv]; rfl), fun hv => ⟨verifyDetail x args, hd (by rw [hrun, hv]; rfl), ?_⟩⟩
    obtain ⟨h2, h3, hst, hcv⟩ := verifyDetail_facts x args
    exact ⟨h2, h3, hst, hcv⟩

/-! ### Diffie-Hellman and RSA jobs -/

/-- A refused inline key, by a test that is made only of inline keys. -/
theorem inlineCheck_none {b : Bool} {o : Option (Nat × Nat)} (h : b = true → o = none) : (if b then o else none) = none := by
  cases b
  · rfl
  · exact h rfl

/-- Settles O28, a row at a time. -/
theorem dhRsaJobs : Obligations.DhRsaJobs := by
  unfold Obligations.DhRsaJobs
  intro s s1 j x u inp key a r kl pl pk label
  refine ⟨fun h => ?_, fun h => ⟨fun hc => ?_, fun st d hc => ?_⟩, fun h => ?_, fun h => ?_, fun h => ?_, fun h => ?_,
    fun h => ⟨fun st d hi hc => ?_, fun hc => ?_⟩⟩
  · intro pub
    refine ⟨fun hu => ?_, fun hu => ⟨_, newKey_isNew (drawn s1 96) x x.alg x.pset x.policy _ _, ?_⟩⟩
    · refine ready_yields h rfl (by simp [ready_opcode h]) (by simp [draws, ready_opcode h]) ?_
      simp only [runDhKeygen, takeFree_drawn, hu, beq_self_eq_true, if_true, pctFail_eq]
    · refine ready_yields h rfl (by simp [ready_opcode h]) (by simp [draws, ready_opcode h]) ?_
      simp only [runDhKeygen, takeFree_drawn, beq_iff_eq, if_neg hu]
      rfl
  · refine ready_yields h rfl (by simp [ready_opcode h]) (by simp [draws, ready_opcode h]) ?_
    simp only [runDhDerive, hc, secretOut_eq]
    rfl
  · refine ready_yields h rfl (by simp [ready_opcode h]) (by simp [draws, ready_opcode h]) ?_
    simp only [runDhDerive, hc]
    rfl
  · intro gen s2
    have hy {q : State × JobResult} (hr : runRsaKeygen u s1 x inp = q) : Yields (.rsaKeygen j u) s q.1 j q.2 :=
      ready_yields h rfl (by simp [ready_opcode h]) (by simp [draws, ready_opcode h]) hr
    refine ⟨fun hn => hy (q := (s2, errR 0x0600 0x26)) ?_, fun hn => ?_⟩
    · simp only [runRsaKeygen, takeFree_drawn]
      exact if_pos hn
    · intro pub
      refine ⟨fun hu => hy (q := pctFail s2 x) ?_, fun hu =>
        ⟨{ newKey s2 x.inst 0x10 x.pset x.policy (some pub) (some (stdBytes .privOf r gen (skLen 0x10 x.pset))) with
            rejection := fresh (drawn s1 96) 32 }, ⟨rfl, rfl, rfl, rfl, rfl, rfl, rfl, rfl, rfl⟩, rfl, ?_⟩⟩
      · simp only [runRsaKeygen, takeFree_drawn]
        exact (if_neg (Nat.not_le.2 hn)).trans (if_pos (by simp [hu]))
      · refine ready_yields h rfl (by simp [ready_opcode h]) (by simp [draws, ready_opcode h]) ?_
        simp only [runRsaKeygen, takeFree_drawn]
        exact (if_neg (Nat.not_le.2 hn)).trans (if_neg (by simp [hu]))
  · intro args
    refine ⟨fun hu hok => ?_, fun hbad => ?_⟩
    · refine ready_decides h rfl (by simp [ready_opcode h]) (by simp [draws, ready_opcode h]) ?_
      simp only [runRsaSign, takeFree_drawn]
      refine if_neg ?_
      simp only [Bool.or_eq_true, beq_iff_eq, hu, false_or, Bool.not_eq_true']
      exact fun e => Bool.false_ne_true (e.symm.trans hok)
    · refine ready_yields h rfl (by simp [ready_opcode h]) (by simp [draws, ready_opcode h]) ?_
      simp only [runRsaSign, takeFree_drawn]
      refine (if_pos ?_).trans rfl
      simp only [Bool.or_eq_true, beq_iff_eq, Bool.not_eq_true']
      exact hbad
  · intro sig ok?
    refine ⟨fun st d hi hc => ?_, fun hc => ⟨fun hs => ?_, fun hs => ?_⟩⟩
    · refine ready_yields h rfl (by simp [ready_opcode h]) (by simp [draws, ready_opcode h]) ?_
      rw [runRsaVerify]
      simp only [hi, if_true]
      simp only [pk, pl, hi, if_true] at hc
      rw [hc]
      rfl
    · refine ready_yields h rfl (by simp [ready_opcode h]) (by simp [draws, ready_opcode h]) ?_
      rw [runRsaVerify]
      dsimp only
      rw [show (if x.pkInline then checkRsaKey x.pset pk else none) = none from inlineCheck_none hc]
      exact if_pos hs
    · refine ready_decides h rfl (by simp [ready_opcode h]) (by simp [draws, ready_opcode h]) ?_
      rw [runRsaVerify]
      dsimp only
      rw [show (if x.pkInline then checkRsaKey x.pset pk else none) = none from inlineCheck_none hc]
      exact if_neg (by rw [Bool.not_eq_true]; exact hs)
  · intro args
    have hy {q : State × JobResult} (hr : runRsaDecrypt u s1 x inp = q) : Yields (.rsaDecrypt j u) s q.1 j q.2 :=
      ready_yields h rfl (by simp [ready_opcode h]) (by simp [draws, ready_opcode h]) hr
    have hd {q : JobResult} (hr : runRsaDecrypt u s1 x inp = decided s1 x u q) : Decides (.rsaDecrypt j u) u s s1 j x q :=
      ready_decides h rfl (by simp [ready_opcode h]) (by simp [draws, ready_opcode h]) hr
    refine ⟨fun st d hc => hy (q := (s1, errR st d)) (by rw [runRsaDecrypt, hc]), fun hc => ?_⟩
    have hrun : runRsaDecrypt u s1 x inp = if u == .rsaCheck || !stdHolds .rsaPlainOk r args then rsaCheckFail s1
        else if stdHolds .rsaPadOk r args then
          decided s1 x u (okR (stdBytes .rsaPlain r args (min (rsaMax x) (stdNumber .rsaPlain r args))) [])
        else if x.scheme = 0 then decided s1 x u (okR (synthetic kl key.rejection inp) [])
        else decided s1 x u (errR 0x0300 0x08) := by
      rw [runRsaDecrypt, hc]
    refine ⟨fun hbad => hy (q := rsaCheckFail s1) (hrun.trans (if_pos ?_)), fun hu hok => ?_⟩
    · simp only [Bool.or_eq_true, beq_iff_eq, Bool.not_eq_true']
      exact hbad
    · rw [if_neg (by simp [hu, hok])] at hrun
      refine ⟨fun hp => hd (hrun.trans (if_pos hp)), fun hp hs => hd (hrun.trans ?_), fun hp hs => hd (hrun.trans ?_)⟩
      · rw [if_neg (by simp [hp]), if_pos hs]
        rfl
      · rw [if_neg (by simp [hp]), if_neg hs]
        rfl
  · refine ready_yields h rfl (by simp [ready_opcode h]) (by simp [draws, ready_opcode h]) ?_
    rw [runRsaEncrypt]
    dsimp only
    rw [show (if x.pkInline then checkRsaKey x.pset pk else none) = some (st, d) by simp only [hi, if_true, hc]]
    rfl
  · refine ready_yields h rfl (by simp [ready_opcode h]) (by simp [draws, ready_opcode h]) ?_
    rw [runRsaEncrypt]
    dsimp only
    rw [show (if x.pkInline then checkRsaKey x.pset pk else none) = none from inlineCheck_none hc]
    rfl

/-! ### Digest jobs -/

theorem strings_eq (x : Job) : strings x = (if isCshake x.pset then x.nStr else [], if isCshake x.pset then x.sStr else []) := by
  unfold strings
  split <;> rfl

theorem onStream_some {s : State} {x : Job} {st : Stream} (h : jobStream s x = some st) (f : Stream → JobResult) :
    onStream s x f = (s, f st) := by
  simp only [onStream, h]

theorem onStream_none {s : State} {x : Job} (h : jobStream s x = none) (f : Stream → JobResult) :
    onStream s x f = (s, err 0x0203 0x40) := by
  simp only [onStream, h]
  rfl

/-- Settles O29: each command acts on the stream that its job names. -/
theorem digestJobs : Obligations.DigestJobs := by
  unfold Obligations.DigestJobs
  intro s s1 j x u inp n cs
  refine ⟨fun h => ?_, fun h => ?_, fun st hst => ⟨fun h hb => ?_, fun h hb => ⟨fun hf => ?_, fun hf => ?_⟩, fun h hb => ?_,
    fun h hb => ?_⟩, fun hno => ⟨fun h hb => ?_, fun h hb => ?_, fun h hb => ?_, fun h hb => ?_⟩⟩
  · refine ready_yields h rfl (by simp [ready_opcode h]) (by simp [draws, ready_opcode h]) ?_
    rw [runDigest, strings_eq]
    rfl
  · refine ⟨⟨newStreamIndex s1, genOf s1.store.streamGens (newStreamIndex s1), x.inst, x.alg, x.pset, false, inp, n, cs, 0, false⟩,
      rfl, rfl, rfl, rfl, rfl, rfl, rfl, rfl, rfl,
      ready_yields h rfl (by simp [ready_opcode h]) (by simp [draws, ready_opcode h]) ?_⟩
    rw [runDigestStart, strings_eq]
    rfl
  · refine ready_yields h rfl (by simp [ready_opcode h, hb]) (by simp [draws, ready_opcode h]) ?_
    rw [runDigestUpdate, onStream_some hst]
    rfl
  · refine ready_yields h rfl (by simp [ready_opcode h, hb]) (by simp [draws, ready_opcode h]) ?_
    rw [runDigestRead, onStream_some hst, if_pos (by simp [hf])]
    rfl
  · refine ready_yields h rfl (by simp [ready_opcode h, hb]) (by simp [draws, ready_opcode h]) ?_
    rw [runDigestRead, onStream_some hst, if_neg (by simp [hf])]
    rfl
  · intro done
    refine ⟨fun hf => ?_, fun hf => ?_⟩
    · refine ready_yields h rfl (by simp [ready_opcode h, hb]) (by simp [draws, ready_opcode h]) ?_
      rw [runDigestFinal, onStream_some hst, if_pos hf]
      rfl
    · refine ready_yields h rfl (by simp [ready_opcode h, hb]) (by simp [draws, ready_opcode h]) ?_
      rw [runDigestFinal, onStream_some hst, if_neg (by simp [hf])]
      rfl
  · refine ready_yields h rfl (by simp [ready_opcode h, hb]) (by simp [draws, ready_opcode h]) ?_
    rw [runDigestDiscard, onStream_some hst]
    rfl
  · exact ready_yields h rfl (by simp [ready_opcode h, hb]) (by simp [draws, ready_opcode h]) (onStream_none hno _)
  · exact ready_yields h rfl (by simp [ready_opcode h, hb]) (by simp [draws, ready_opcode h]) (onStream_none hno _)
  · exact ready_yields h rfl (by simp [ready_opcode h, hb]) (by simp [draws, ready_opcode h]) (onStream_none hno _)
  · exact ready_yields h rfl (by simp [ready_opcode h, hb]) (by simp [draws, ready_opcode h]) (onStream_none hno _)

/-! ### Keyed jobs and random numbers -/

theorem rngOut_eq (s : State) (x : Job) : rngOut s x = (drawn s x.rngCount, some (ok (fresh s x.rngCount) [])) := by
  simp [rngOut, takeFree_drawn, ok, okR]

/-- The row of RNG, of a job that is ready, does what its own part says. -/
theorem exec_rng {s s1 : State} {j : Nat} {x : Job} {u : Upset} {inp : Bytes} (h : Ready s s1 j 0x38 x u inp) :
    exec (.rng j u) s = .next (match runRng s1 x inp with
      | (t, some r) => finalCommit t j r
      | (t, none) => t) := by
  change execRng j u s = _
  rw [execRng, ready_runPart h (by simp [ready_opcode h]) (by simp [draws, ready_opcode h])]

/-- The key object a KDF makes of what it derives. -/
def derivedKey (s : State) (x : Job) (b : Bytes) : KeyObj :=
  let k := newKey s x.inst x.tAlg x.tPset (derivedPolicy x (jobKey s x) x.policy) none (some b)
  { k with policy := derivedPolicy x (jobKey s x) k.policy }

/-- Settles O30, a row at a time; a nonce comes of the job or of the sequence of its context slot. -/
theorem keyedJobs : Obligations.KeyedJobs := by
  unfold Obligations.KeyedJobs
  intro s s1 j x u inp key a advance
  refine ⟨fun h hb => ?_, fun h hb => ?_, fun h => ?_, fun h => ?_, fun h => ?_, fun h => ?_⟩
  · exact ready_yields h rfl (by simp [ready_opcode h, hb]) (by simp [draws, ready_opcode h]) rfl
  · intro n
    refine ready_decides h rfl (by simp [ready_opcode h, hb]) (by simp [draws, ready_opcode h]) ?_
    simp only [runMacVerify, beq_iff_eq]
    rfl
  · intro salt info
    have hisnew (b : Bytes) : IsNewKey s1 x x.tAlg x.tPset none (some b) (derivedKey s1 x b) :=
      ⟨rfl, rfl, rfl, rfl, rfl, rfl, rfl, rfl, rfl⟩
    refine ⟨fun hi => ?_, fun hi hc => ⟨_, hisnew _, ?_⟩, fun c b hi hc hctx hslot => ⟨_, hisnew _, ?_⟩⟩
    · refine ready_yields h rfl (by simp [ready_opcode h]) (by simp [draws, ready_opcode h]) ?_
      simp only [runKdf, hi, if_true]
      rfl
    · refine ready_yields h rfl (by simp [ready_opcode h]) (by simp [draws, ready_opcode h]) ?_
      simp only [runKdf, hi, hc, Bool.false_eq_true, if_false]
      rfl
    · refine ready_yields h rfl (by simp [ready_opcode h]) (by simp [draws, ready_opcode h]) ?_
      simp only [runKdf, hi, hc, Bool.false_eq_true, if_false, if_true, hctx, Option.getD_some, hslot]
      rfl
  · exact ready_yields h rfl (by simp [ready_opcode h]) (by simp [draws, ready_opcode h]) rfl
  · exact ready_decides h rfl (by simp [ready_opcode h]) (by simp [draws, ready_opcode h]) rfl
  · intro gives
    have hex := exec_rng h
    refine ⟨fun hb => ?_, fun hb hp => ⟨fun hn => ?_, fun hn => ⟨fun t ht => ?_, fun ht => ?_⟩⟩, fun hb hp => ⟨fun hw => ?_, fun hw => ?_⟩⟩
    · simp only [runRng, hb, Bool.not_false, if_true, rngOut_eq] at hex
      exact hex
    · simp only [runRng, hb, hp, hn, Bool.not_true, Bool.not_false, Bool.false_eq_true, if_false, if_true] at hex
      exact hex
    · simp only [runRng, hb, hp, hn, ht, Bool.not_true, Bool.false_eq_true, if_false, rngOut_eq] at hex
      exact hex
    · simp only [runRng, hb, hp, hn, ht, Bool.not_true, Bool.false_eq_true, if_false] at hex
      exact hex
    · simp only [runRng, hb, hp, hw, Bool.not_true, Bool.false_eq_true, if_false, if_true, rngOut_eq] at hex
      exact hex
    · simp only [runRng, hb, hp, hw, Bool.not_true, Bool.false_eq_true, if_false, if_true] at hex
      exact hex

/-! ### Key jobs and context jobs -/

/-- KEY_DESTROY tells the members that hold replicas, waits for room in the revocation list, and then destroys. -/
theorem keyDestroy_ready {s s1 : State} {j : Nat} {x : Job} {u : Upset} {inp : Bytes} (h : Ready s s1 j 0x42 x u inp) :
    let k := jobKey s x
    let asks := !x.prepared && s.funnels && k.replicated && !s.peersJoined.isEmpty
    (asks = true → ∃ t y, exec (.keyDestroy j u) s = .next t ∧ t.job? j = some y ∧ y.awaiting = s.peersJoined
      ∧ y.result = x.result ∧ t.store = s.store)
    ∧ (asks = false →
      ((k.has pPersist = false ∨ s.shelf.revoked.length < 4096) →
        Yields (.keyDestroy j u) s s1 j (ok [] [.destroyKey (x.keyIdx.getD 0)]))
      ∧ (k.has pPersist = true → 4096 ≤ s.shelf.revoked.length → exec (.keyDestroy j u) s = .next s)) := by
  intro k asks
  have hop := ready_opcode h
  obtain ⟨hj, hr, -⟩ := id h
  have hask : (x.opcode = 0x42 ∧ runnable s x = true ∧ (!x.prepared) = true ∧ s.funnels = true ∧ (jobKey s x).replicated = true
      ∧ s.peersJoined ≠ []) ↔ asks = true := by
    simp [asks, k, hop, hr, and_assoc]
  refine ⟨fun ha => ?_, fun ha => ?_⟩
  · have hd : dropReplicas s j = some (s.peersJoined.foldl (fun s d => sendMsg s d 6 (dropBody (jobKey s x)))
        (s.updJob j fun y => { y with awaiting := s.peersJoined, prepared := true })) := by
      simp only [dropReplicas, hj]
      exact if_pos (hask.2 ha)
    have hex : exec (.keyDestroy j u) s = .next (s.peersJoined.foldl (fun s d => sendMsg s d 6 (dropBody (jobKey s x)))
        (s.updJob j fun y => { y with awaiting := s.peersJoined, prepared := true })) := by
      change execKeyDestroy j u s = _
      rw [execKeyDestroy, hd]
    have hkeep := List.foldlRecOn (motive := fun t : State => t.work = (s.updJob j fun y =>
        { y with awaiting := s.peersJoined, prepared := true }).work ∧ t.store = s.store) s.peersJoined
      (fun s d => sendMsg s d 6 (dropBody (jobKey s x)))
      (b := s.updJob j fun y => { y with awaiting := s.peersJoined, prepared := true }) ⟨rfl, rfl⟩ fun t ht d _ => ht
    refine ⟨_, { x with awaiting := s.peersJoined, prepared := true }, hex, ?_, rfl, rfl, hkeep.2⟩
    have hjob := State.job?_updJob_some hj (f := fun y => { y with awaiting := s.peersJoined, prepared := true }) fun _ => rfl
    rw [State.job?, hkeep.1]
    exact hjob
  · have hd : dropReplicas s j = none := by
      simp only [dropReplicas, hj]
      exact if_neg fun hc => Bool.false_ne_true (ha.symm.trans (hask.1 hc))
    refine ⟨fun hroom => ?_, fun hp hfull => ?_⟩
    · refine ready_yields h (exec_keyDestroy_alone u hd) ?_ (by simp [draws, hop]) rfl
      have : revocationFull s x = false := by
        rcases hroom with hroom | hroom
        · simp [revocationFull, show (jobKey s x).has pPersist = false from hroom]
        · simp [revocationFull, Nat.not_le.2 hroom]
      simp [hop, this]
    · rw [exec_keyDestroy_alone u hd]
      have : revocationFull s x = true := by simp [revocationFull, show (jobKey s x).has pPersist = true from hp, hfull]
      refine congrArg _ (runPart_idle fun y hy => .inr ?_)
      obtain rfl : x = y := Option.some.inj (hj.symm.trans hy)
      simp [this]

/-- Settles O31, a row at a time. -/
theorem keyAndContextJobs : Obligations.KeyAndContextJobs := by
  unfold Obligations.KeyAndContextJobs
  refine ⟨fun s s1 j x u inp => ⟨fun h hg => ?_, fun h hg => ?_, fun h => ?_, fun h => ?_, fun h => ⟨fun hb => ?_, fun hb => ?_⟩⟩,
    fun s s1 j x u inp => ⟨fun h c hc => ?_, fun h c hc => ?_, fun h => ?_⟩⟩
  · refine ⟨fun e he => ?_, fun m hm => ⟨fun st d hc => ?_, fun hc => ?_⟩, fun hw => ?_⟩
    · refine ready_yields h rfl (by simp [ready_opcode h, hg]) (by simp [draws, ready_opcode h, hg]) ?_
      simp only [runKeyImport, he]
      rfl
    · refine ready_yields h rfl (by simp [ready_opcode h, hg]) (by simp [draws, ready_opcode h, hg]) ?_
      simp only [runKeyImport, hm, importObject, hc]
      rfl
    · intro s2
      refine ⟨{ newKey s1 x.inst x.alg x.pset x.policy (formHalves x.form x.alg x.pset m).1 (formHalves x.form x.alg x.pset m).2 with
        rejection := if x.alg = 0x10 ∧ x.form = 1 then fresh s1 32 else [] }, ?_, rfl, ?_⟩
      · have h2 : newKeyIndex s2 = newKeyIndex s1 := by
          simp only [s2]
          split <;> rfl
        exact ⟨h2.symm, rfl, rfl, rfl, rfl, rfl, rfl, rfl, rfl⟩
      · refine ready_yields h rfl (by simp [ready_opcode h, hg]) (by simp [draws, ready_opcode h, hg]) ?_
        simp only [runKeyImport, hm, importObject, hc]
        by_cases hr : x.alg = 0x10 ∧ x.form = 1
        · simp only [hr, and_self, if_true, s2]
          rfl
        · simp only [hr, if_false, s2]
          rfl
    · simp [importText, hw]
  · intro n
    refine ⟨_, newKey_isNew (drawn s1 n) x x.alg x.pset x.policy _ _, ?_⟩
    exact ready_yields h rfl (by simp [ready_opcode h, hg]) (by simp [draws, ready_opcode h, hg]) rfl
  · exact ready_yields h rfl (by simp [ready_opcode h]) (by simp [draws, ready_opcode h]) rfl
  · exact keyDestroy_ready h
  · refine ready_yields h rfl (by simp [ready_opcode h]) (by simp [draws, ready_opcode h]) ?_
    rw [runKeyGetPublic, if_pos hb]
    rfl
  · refine ready_yields h rfl (by simp [ready_opcode h]) (by simp [draws, ready_opcode h]) ?_
    rw [runKeyGetPublic, if_neg (by simp [hb])]
    rfl
  · refine ready_yields h rfl (by simp [ready_opcode h]) (by simp [draws, ready_opcode h]) ?_
    rw [runCtxDerive, hc]
    rfl
  · refine ready_yields h rfl (by simp [ready_opcode h]) (by simp [draws, ready_opcode h]) ?_
    rw [runCtxExport, hc]
    rfl
  · exact ready_yields h rfl (by simp [ready_opcode h]) (by simp [draws, ready_opcode h]) rfl

end Sys2Proof.Machine
end

section
/-! The key shelf -/

namespace Sys2Proof.Machine
open Sys2Proof.Claims

/-! ### Reclaiming the shelf (R264) -/

theorem Shelf.putHeader_facts (x : Shelf) : x.putHeader.records = x.records ∧ x.putHeader.revoked = x.revoked
    ∧ x.putHeader.seq = (x.seq + 1) % 2 ^ 32 := by
  unfold Shelf.putHeader
  dsimp only
  split <;> exact ⟨rfl, rfl, rfl⟩

/-- Reclaiming moves records on, each under a header of its own: their keys stay, and the sequence counts them. -/
theorem Shelf.reclaim_facts (area size n : Nat) (x : Shelf) : (Shelf.reclaim area size n x).revoked = x.revoked
    ∧ (∃ k ≤ n, (Shelf.reclaim area size n x).seq % 2 ^ 32 = (x.seq + k) % 2 ^ 32)
    ∧ ∀ r ∈ (Shelf.reclaim area size n x).records, ∃ q ∈ x.records, r.key = q.key := by
  induction n generalizing x with
  | zero => exact ⟨rfl, ⟨0, le_rfl, rfl⟩, fun r hr => ⟨r, hr, rfl⟩⟩
  | succ n ih =>
    unfold Shelf.reclaim
    split
    · exact ⟨rfl, ⟨0, Nat.zero_le _, rfl⟩, fun r hr => ⟨r, hr, rfl⟩⟩
    split
    · exact ⟨rfl, ⟨0, Nat.zero_le _, rfl⟩, fun r hr => ⟨r, hr, rfl⟩⟩
    rename_i r rs hrs
    obtain ⟨hrec, hrev, hseq⟩ := Shelf.putHeader_facts (({ x with records := rs } : Shelf).append area r)
    obtain ⟨ihrev, ⟨k, hk, ihseq⟩, ihrec⟩ := ih (({ x with records := rs } : Shelf).append area r).putHeader
    refine ⟨ihrev.trans hrev, ⟨k + 1, by omega, ?_⟩, fun q hq => ?_⟩
    · rw [ihseq, hseq]
      change ((x.seq + 1) % 2 ^ 32 + k) % 2 ^ 32 = _
      omega
    · obtain ⟨p, hp, he⟩ := ihrec q hq
      rw [hrec] at hp
      rcases List.mem_append.1 hp with hp | hp
      · exact ⟨p, hrs ▸ List.mem_cons_of_mem _ hp, he⟩
      · obtain rfl := List.mem_singleton.1 hp
        exact ⟨r, hrs ▸ List.mem_cons_self, he⟩

/-- The object of an index after a change that keeps indices. -/
theorem keyAt_updKey {s : State} {i : Nat} {k : KeyObj} {f : KeyObj → KeyObj} (hk : keyAt s i = some k)
    (hf : ∀ x, (f x).index = x.index) : keyAt (s.updKey i f) i = some (f k) := by
  refine (find?_updWhere s.store.keys _ _ f fun x => by rw [hf]).trans ?_
  rw [show s.store.keys.find? (fun x => x.index == i) = some k from hk, Option.map_some, if_pos (find?_key hk)]

theorem shelfWrite_idle {s : State} {i : Nat} (h : ∀ k, keyAt s i = some k → s.service = false ∨ k.has pPersist = false
    ∨ k.shelved = true ∨ k.doomed = true ∨ s.shelfCapacity = 0) : shelfWrite s i = s := by
  unfold shelfWrite
  split
  · rfl
  · rename_i k hk
    refine if_pos ?_
    rcases h k hk with h | h | h | h | h <;> simp [h]

/-- The shelf without the copies that are revoked, and without one of the object itself. -/
def livingShelf (s : State) (k : KeyObj) : Shelf := { s.shelf with
  records := s.shelf.records.filter fun r =>
    !(s.shelf.revoked.any fun x => x.1 == r.key.handle && x.2 == r.key.owner) && r.key.handle != k.handle
  revoked := [] }

/-- The record of an object, sealed under fresh bytes. -/
def newRecord (s : State) (k : KeyObj) : ShelfRec := shelfRecord (drawn s 12) k (fresh s 12)

theorem shelfKey_drawn (s : State) (n : Nat) : shelfKey (drawn s n) = shelfKey s := by
  unfold shelfKey hwdDerived
  rfl

/-- What the new record spells. -/
theorem newRecord_facts (s : State) (k : KeyObj) :
    let m := k.pub.getD [] ++ k.priv.getD []
    let aad := recordAad k.handle k.owner k.alg k.pset m.length s.shelf.epoch
    let ct := Gcm.crypt (shelfKey s) (fresh s 12) m
    (newRecord s k).text = pad64 ct ∧ (newRecord s k).key.handle = k.handle
    ∧ (newRecord s k).header = withCrc (aad ++ fresh s 12 ++ Gcm.tag (shelfKey s) (fresh s 12) aad ct ++ zeros 14) := by
  intro m aad ct
  unfold newRecord shelfRecord
  simp only [shelfKey_drawn]
  exact ⟨rfl, rfl, rfl⟩

/-- SHELF_WRITE that is due: the living copies, what reclaiming moves of them, and then the new record. -/
theorem shelfWrite_writes {s : State} {i : Nat} {k : KeyObj} (hk : keyAt s i = some k) (hs : s.service = true)
    (hp : k.has pPersist = true) (hd : k.doomed = false) (hsh : k.shelved = false) (hc : s.shelfCapacity ≠ 0) :
    shelfWrite s i = { (drawn s 12).updKey i fun k => { k with shelved := true } with
      shelf := ((Shelf.reclaim s.shelfArea (newRecord s k).size (livingShelf s k).records.length (livingShelf s k)).append
        s.shelfArea (newRecord s k)).putHeader } := by
  unfold shelfWrite
  simp only [hk]
  exact if_neg (by simp [hs, hp, hd, hsh, hc])

/-- Settles O32: reclaiming drops only records, so that the new one stands and none that is revoked does. -/
theorem Shelf.shelfWrite : Obligations.ShelfWrite := by
  unfold Obligations.ShelfWrite
  intro s i
  refine ⟨fun k hk h => ?_, fun h => ?_, fun k hk hs hp hd hsh hc => ?_⟩
  · refine congrArg Host.Outcome.next (shelfWrite_idle fun k' hk' => ?_)
    obtain rfl : k = k' := Option.some.inj (hk.symm.trans hk')
    tauto
  · refine congrArg Host.Outcome.next (shelfWrite_idle fun k hk => ?_)
    rcases h with h | h
    · rw [h] at hk
      cases hk
    · simp [h]
  · intro iv m aad ct
    have hrun := shelfWrite_writes hk hs hp hd hsh hc
    obtain ⟨hrev, ⟨n, hn, hseq⟩, hrecs⟩ :=
      Shelf.reclaim_facts s.shelfArea (newRecord s k).size (livingShelf s k).records.length (livingShelf s k)
    generalize Shelf.reclaim s.shelfArea (newRecord s k).size (livingShelf s k).records.length (livingShelf s k) = x1
      at hrun hrev hseq hrecs
    obtain ⟨hrec, hrv, hsq⟩ := Shelf.putHeader_facts (x1.append s.shelfArea (newRecord s k))
    have hlast : { newRecord s k with off := x1.tail } ∈ (x1.append s.shelfArea (newRecord s k)).records :=
      List.mem_append_right _ (List.mem_singleton_self _)
    refine ⟨_, n, congrArg Host.Outcome.next hrun, hn.trans (List.length_filter_le _ _), ?_,
      ⟨{ newRecord s k with off := x1.tail }, hrec ▸ hlast, newRecord_facts s k⟩,
      hrv.trans hrev, fun r hr hin => ?_, keyAt_updKey (s := drawn s 12) hk fun _ => rfl, rfl, rfl⟩
    · refine hsq.trans ?_
      change (x1.seq + 1) % 2 ^ 32 = _
      change x1.seq % 2 ^ 32 = (s.shelf.seq + n) % 2 ^ 32 at hseq
      omega
    · have hr' : r ∈ (x1.append s.shelfArea (newRecord s k)).records := hrec ▸ hr
      rcases List.mem_append.1 hr' with hr' | hr'
      · obtain ⟨q, hq, he⟩ := hrecs r hr'
        have hq := (List.mem_filter.1 hq).2
        simp only [Bool.and_eq_true, Bool.not_eq_true', List.any_eq_false, beq_iff_eq, bne_iff_ne] at hq
        exact absurd ⟨he ▸ rfl, he ▸ rfl⟩ (hq.1 _ hin)
      · rw [List.mem_singleton.1 hr']
        rfl

end Sys2Proof.Machine
end

section
/-! The engines -/

namespace Sys2Proof.Machine
open Sys2Proof.Claims

/-! ### An instruction that runs -/

/-- An instruction of the word that stands at the PC of the job's slice does what its definition says. -/
theorem exec_engineStep {e : Eng} {j w : Nat} {c : Instr} {f : Eng → Ev} (h : OnEngine e j w)
    (hc : exec c e.s = .next (engineStep e.s j w f)) : exec c e.s = .next (settle e.s e.j e.r (f e)) := by
  obtain ⟨hj, hs, hr, hp, hw⟩ := h
  rw [hc, engineStep_runs hj hs hr hp hw]

theorem exec_go {e : Eng} {j w : Nat} {c : Instr} {f : Eng → Ev} {a : Arch} (h : OnEngine e j w)
    (hc : exec c e.s = .next (engineStep e.s j w f)) (hf : f e = (e.arch fun _ => a).go) : exec c e.s = .next (ran e a) := by
  rw [exec_engineStep h hc, hf]
  rfl

theorem exec_halts {e : Eng} {j w : Nat} {c : Instr} {f : Eng → Ev} {x : Halt} (h : OnEngine e j w)
    (hc : exec c e.s = .next (engineStep e.s j w f)) (hf : f e = .halt x) (hx : x ≠ .stall) : Halts c e x := by
  rw [Halts, exec_engineStep h hc, hf]
  cases x with
  | stall => exact absurd rfl hx
  | _ => rfl

theorem exec_stalls {e : Eng} {j w : Nat} {c : Instr} {f : Eng → Ev} (h : OnEngine e j w)
    (hc : exec c e.s = .next (engineStep e.s j w f)) (hf : f e = .halt .stall) : Stalls c e := by
  rw [Stalls, exec_engineStep h hc, hf, settle_stall]

/-! ### The data stack -/

theorem onStack_ok {e : Eng} {g : List TWord → Except Halt (List TWord)} {st : List TWord} (hg : g e.r.cur.ds = .ok st)
    (hl : st.length ≤ 32) : onStack e g = (e.arch fun _ => { e.r.cur with ds := st }).go := by
  simp only [onStack, hg, if_neg (Nat.not_lt.2 hl)]
  rfl

theorem onStack_error {e : Eng} {g : List TWord → Except Halt (List TWord)} {x : Halt} (hg : g e.r.cur.ds = .error x) :
    onStack e g = .halt x := by
  simp only [onStack, hg]

theorem onStack_full {e : Eng} {g : List TWord → Except Halt (List TWord)} {st : List TWord} (hg : g e.r.cur.ds = .ok st)
    (hl : 32 < st.length) : onStack e g = .halt .stack := by
  simp only [onStack, hg, if_pos hl]

section
variable {e : Eng} {j w : Nat} {c : Instr} {g : Eng → List TWord → Except Halt (List TWord)} (h : OnEngine e j w)
  (hc : exec c e.s = .next (engineStep e.s j w fun e => onStack e (g e)))
include h hc

/-- An instruction on the data stack leaves the stack its diagram says. -/
theorem exec_onStack {st : List TWord} (hg : g e e.r.cur.ds = .ok st) (hl : st.length ≤ 32) :
    exec c e.s = .next (ran e { e.r.cur with ds := st }) :=
  exec_go h hc (onStack_ok hg hl)

theorem halts_onStack {x : Halt} (hg : g e e.r.cur.ds = .error x) (hx : x ≠ .stall) : Halts c e x :=
  exec_halts h hc (onStack_error hg) hx

theorem halts_onStack_full {st : List TWord} (hg : g e e.r.cur.ds = .ok st) (hl : 32 < st.length) : Halts c e .stack :=
  exec_halts h hc (onStack_full hg hl) Halt.noConfusion

end

/-! ### The operations of Table 11.3 -/

theorem flagW_eq (p : Prop) [Decidable p] : flagW (decide p) = truth p := by
  by_cases h : p <;> simp [flagW, truth, h]

theorem exec_binary : ∀ p ∈ binaries, ∀ (j : Nat) (s : State),
    exec (p.1 j) s = .next (engineStep s j p.2.1 fun e => alu2 e p.2.2) := by
  have heq : (fun a b : Word => flagW (a == b)) = fun a b => truth (a = b) := by
    funext a b
    exact (congrArg flagW (Bool.eq_iff_iff.2 (by simp))).trans (flagW_eq _)
  have hult : (fun a b : Word => flagW (a.ult b)) = fun a b => truth (a.toNat < b.toNat) := by
    funext a b
    exact flagW_eq _
  have hslt : (fun a b : Word => flagW (a.slt b)) = fun a b => truth (a.toInt < b.toInt) := by
    funext a b
    exact flagW_eq _
  simp only [binaries, List.forall_mem_cons, ← heq, ← hult, ← hslt]
  exact ⟨fun _ _ => rfl, fun _ _ => rfl, fun _ _ => rfl, fun _ _ => rfl, fun _ _ => rfl, fun _ _ => rfl, fun _ _ => rfl,
    fun _ _ => rfl, fun _ _ => rfl, fun _ _ => rfl, fun _ h => nomatch h⟩

theorem exec_shift : ∀ p ∈ shifts, ∀ (j : Nat) (s : State),
    exec (p.1 j) s = .next (engineStep s j p.2.1 fun e => shift e p.2.2) := by
  have hl : (fun (a : Word) (n : Nat) => a <<< n) = fun a n => BitVec.ofNat 32 (a.toNat * 2 ^ n) := by
    funext a n
    exact BitVec.eq_of_toNat_eq (by simp [Nat.shiftLeft_eq])
  have hr : (fun (a : Word) (n : Nat) => a >>> n) = fun a n => BitVec.ofNat 32 (a.toNat / 2 ^ n) := by
    funext a n
    refine BitVec.eq_of_toNat_eq ?_
    rw [BitVec.toNat_ushiftRight, Nat.shiftRight_eq_div_pow, BitVec.toNat_ofNat,
      Nat.mod_eq_of_lt (lt_of_le_of_lt (Nat.div_le_self _ _) a.isLt)]
  have hs : (fun (a : Word) (n : Nat) => a.sshiftRight n) = fun a n => BitVec.ofInt 32 (a.toInt / 2 ^ n) := by
    funext a n
    rw [BitVec.sshiftRight_eq, Int.shiftRight_eq_div_pow]
    norm_cast
  simp only [shifts, List.forall_mem_cons, ← hl, ← hr, ← hs]
  exact ⟨fun _ _ => rfl, fun _ _ => rfl, fun _ _ => rfl, fun _ h => nomatch h⟩

/-- An instruction of `takers` has fewer entries than it takes. -/
theorem takers_halt {e : Eng} {j : Nat} :
    ∀ p ∈ takers, OnEngine e j p.2.1 → e.r.cur.ds.length < p.2.2 → Halts (p.1 j) e .stack := by
  have hd : ∀ {w n : Nat} {c : Instr} {f : Eng → Ev}, exec c e.s = .next (engineStep e.s j w f) →
      (e.r.cur.ds.length < n → f e = .halt .stack) → OnEngine e j w → e.r.cur.ds.length < n → Halts c e .stack :=
    fun hc hf h hl => exec_halts h hc (hf hl) Halt.noConfusion
  simp only [takers, List.forall_mem_cons]
  refine ⟨hd rfl ?_, hd rfl ?_, hd rfl ?_, hd rfl ?_, hd rfl ?_, hd rfl ?_, hd rfl ?_, hd rfl ?_, hd rfl ?_, hd rfl ?_,
    hd rfl ?_, hd rfl ?_, hd rfl ?_, hd rfl ?_, hd rfl ?_, hd rfl ?_, hd rfl ?_, hd rfl ?_, fun _ h => nomatch h⟩
  all_goals
    generalize hds : e.r.cur.ds = st
    rcases st with _ | ⟨x, _ | ⟨y, _ | ⟨z, st⟩⟩⟩
  all_goals
    intro hl
    simp only [List.length_cons, List.length_nil] at hl
  all_goals try omega
  all_goals simp only [onStack, shift, fetchN, storeN, hds]

theorem pushers_halt {e : Eng} {j : Nat} :
    ∀ p ∈ pushers, OnEngine e j p.2 → e.r.cur.ds.length = 32 → Halts (p.1 j) e .stack := by
  have hd : ∀ {w : Nat} {c : Instr} {f : Eng → Ev}, exec c e.s = .next (engineStep e.s j w f) →
      (e.r.cur.ds.length = 32 → f e = .halt .stack) → OnEngine e j w → e.r.cur.ds.length = 32 → Halts c e .stack :=
    fun hc hf h hl => exec_halts h hc (hf hl) Halt.noConfusion
  simp only [pushers, List.forall_mem_cons]
  refine ⟨hd rfl fun hl => ?_, hd rfl fun hl => ?_, hd rfl fun hl => ?_, hd rfl fun hl => ?_, hd rfl fun hl => ?_,
    fun _ h => nomatch h⟩
  · rcases hds : e.r.cur.ds with _ | ⟨x, st⟩
    · simp [hds] at hl
    · exact onStack_full (by rw [hds]) (by rw [hds] at hl; simp at hl ⊢; omega)
  · rcases hds : e.r.cur.ds with _ | ⟨x, _ | ⟨y, st⟩⟩
    · simp [hds] at hl
    · simp [hds] at hl
    · exact onStack_full (by rw [hds]) (by rw [hds] at hl; simp at hl ⊢; omega)
  · rcases hrs : e.r.cur.rs with _ | ⟨x, st⟩
    · rfl
    · exact if_pos hl.ge
  · rcases hrs : e.r.cur.rs with _ | ⟨x, st⟩
    · rfl
    · exact onStack_full rfl (by simp [hl])
  · exact onStack_full rfl (by simp [hl])

theorem signExtend_12 {n : Nat} (h : n < 4096) : (BitVec.ofNat 12 n).signExtend 32
    = if n < 2048 then BitVec.ofNat 32 n else BitVec.ofNat 32 (n + (2 ^ 32 - 4096)) := by
  have hm : n % 4096 = n := Nat.mod_eq_of_lt h
  refine BitVec.eq_of_toNat_eq ?_
  rw [BitVec.toNat_signExtend, BitVec.msb_eq_decide]
  by_cases hb : n < 2048
  · rw [if_pos hb]
    simp [hm, hb]
  · rw [if_neg hb]
    simp [hm, Nat.le_of_not_lt hb]
    omega

theorem shift_or_12 (a : Word) {n : Nat} (h : n < 4096) :
    a <<< 12 ||| BitVec.ofNat 32 (n % 4096) = BitVec.ofNat 32 (a.toNat * 4096 + n) := by
  refine BitVec.eq_of_toNat_eq ?_
  have hm : n % 4096 = n := Nat.mod_eq_of_lt h
  have hn : n < 2 ^ 32 := by omega
  have hs : a.toNat <<< 12 % 2 ^ 32 = (a.toNat % 2 ^ 20) * 2 ^ 12 := by rw [Nat.shiftLeft_eq]; omega
  rw [BitVec.toNat_or, BitVec.toNat_shiftLeft, BitVec.toNat_ofNat, BitVec.toNat_ofNat, hm, Nat.mod_eq_of_lt hn, hs,
    ← Nat.shiftLeft_eq, ← Nat.shiftLeft_add_eq_or_of_lt h, Nat.shiftLeft_eq]
  omega

/-- Settles O33, an instruction at a time: each leaves the stack its diagram says, or raises STACK or TAINT. -/
theorem aladaStackMachine : Obligations.AladaStackMachine := by
  unfold Obligations.AladaStackMachine
  refine ⟨fun e j => ⟨fun p hp h => ⟨fun a b rest hd hl => ?_, fun hl => ?_⟩,
    fun p hp h n a rest hd hl => ⟨fun ht => ?_, fun ht => ?_⟩, fun h a rest hd hl => ?_, takers_halt,
    pushers_halt, fun h a b c rest hd hl => ?_⟩, fun e j imm => ?_⟩
  · exact exec_onStack h (exec_binary p hp j e.s) (by rw [hd]) hl
  · refine halts_onStack h (exec_binary p hp j e.s) (x := .stack) ?_ Halt.noConfusion
    rcases hd : e.r.cur.ds with _ | ⟨x, _ | ⟨y, st⟩⟩
    · rfl
    · rfl
    · simp [hd] at hl
  · exact exec_onStack h (exec_shift p hp j e.s) (by rw [hd]; exact if_neg (by simp [ht])) hl
  · exact halts_onStack h (exec_shift p hp j e.s) (by rw [hd]; exact if_pos ht) Halt.noConfusion
  · exact exec_onStack h rfl (by 
      rw [hd]
      exact congrArg (fun v => Except.ok (⟨v, a.tag⟩ :: rest)) BitVec.xor_allOnes.symm) hl
  · exact exec_onStack h rfl (by rw [hd]; simp [ite_not]) hl
  · refine ⟨fun h => exec_go h rfl rfl, fun h a r hd => ⟨fun hl => ?_, fun hl => ?_⟩, fun h a r hd hl => ?_,
      fun h a b r hd hl => ?_, fun h a b r hd hl => ?_, fun h x y z r hd hl => ?_, fun h a r hd => ⟨fun hl => ?_, fun hl => ?_⟩,
      fun h a r hr hl => ?_, fun h a r hr hl => ?_, fun hr => ⟨fun h => ?_, fun h => ?_⟩, fun h hl => ?_, fun hi h hl => ?_,
          fun hi h hl => ?_,
      fun hi h hd => ?_, fun hi h a r hd hl => ?_⟩
    · exact exec_onStack h rfl (by rw [hd]) (by simp; omega)
    · exact halts_onStack_full h rfl (by rw [hd]) (by simp; omega)
    · exact exec_onStack h rfl (by rw [hd]) hl
    · exact exec_onStack h rfl (by rw [hd]) (by simp; omega)
    · exact exec_onStack h rfl (by rw [hd]) (by simp; omega)
    · exact exec_onStack h rfl (by rw [hd]) (by simp; omega)
    · exact exec_go h rfl (by simp only [hd, if_neg (Nat.not_le.2 hl)]; rfl)
    · exact exec_halts h rfl (by simp only [hd, if_pos hl.ge]) Halt.noConfusion
    · exact exec_go h rfl (by simp only [hr, if_neg (Nat.not_le.2 hl)]; rfl)
    · refine exec_go h rfl ?_
      split
      · rename_i x y hx
        obtain rfl := (List.cons.inj (hr.symm.trans hx)).1
        exact onStack_ok (g := fun st => .ok (a :: st)) rfl hl
      · simp_all
    · exact exec_halts h rfl (by simp only [hr]) Halt.noConfusion
    · exact exec_halts h rfl (by simp only [hr]) Halt.noConfusion
    · exact exec_onStack h rfl rfl hl
    · exact exec_onStack (w := 0x1000 + imm % 4096) (by rwa [Nat.mod_eq_of_lt hi]) rfl
        (congrArg (fun v => Except.ok (⟨v, false⟩ :: e.r.cur.ds)) (signExtend_12 hi)) hl
    · exact halts_onStack_full (w := 0x1000 + imm % 4096) (by rwa [Nat.mod_eq_of_lt hi]) rfl rfl (by simp [hl])
    · exact halts_onStack (w := 0x2000 + imm % 4096) (by rwa [Nat.mod_eq_of_lt hi]) rfl (by rw [hd]) Halt.noConfusion
    · exact exec_onStack (w := 0x2000 + imm % 4096) (by rwa [Nat.mod_eq_of_lt hi]) rfl
        (by rw [hd]; exact congrArg (fun v => Except.ok (⟨v, a.tag⟩ :: r)) (shift_or_12 a.v hi)) hl

/-! ### Words and bytes of a region -/

/-- Indices rise. -/
def Rising (m : List DCell) : Prop := m.Pairwise fun c d => c.idx < d.idx

theorem cellAt_below {m : List DCell} {i : Nat} (h : ∀ c ∈ m, i < c.idx) : cellAt m i = { v := 0, tag := false } := by
  induction m with
  | nil => rfl
  | cons c cs ih =>
    rw [cellAt, if_neg (h c List.mem_cons_self).ne', ih fun d hd => h d (List.mem_cons_of_mem _ hd)]

theorem cellAt_setCell {m : List DCell} (h : Rising m) (i : Nat) (w : TWord) (k : Nat) :
    cellAt (setCell m i w) k = if k = i then w else cellAt m k := by
  have hz : w.v = 0 ∧ w.tag = false → w = { v := 0, tag := false } := fun ⟨hv, ht⟩ => by cases w; simp_all
  induction m with
  | nil =>
    simp only [setCell]
    by_cases hw : w.v = 0 ∧ w.tag = false
    · simp [hz hw, cellAt]
    · simp only [if_neg hw, cellAt, eq_comm (a := i)]
  | cons c cs ih =>
    obtain ⟨hc, hcs⟩ := List.pairwise_cons.1 h
    simp only [setCell]
    rcases lt_trichotomy i c.idx with hi | hi | hi
    · have hb : cellAt (c :: cs) i = { v := 0, tag := false } :=
        cellAt_below (List.forall_mem_cons.2 ⟨hi, fun d hd => hi.trans (hc d hd)⟩)
      rw [if_pos hi]
      by_cases hw : w.v = 0 ∧ w.tag = false
      · rw [if_pos hw]
        by_cases hk : k = i
        · rw [if_pos hk, hk, hb, hz hw]
        · rw [if_neg hk]
      · rw [if_neg hw, cellAt]
        simp [eq_comm]
    · rw [if_neg (by omega), if_pos hi]
      by_cases hw : w.v = 0 ∧ w.tag = false
      · rw [if_pos hw]
        by_cases hk : k = i
        · rw [if_pos hk, hz hw, cellAt_below fun d hd => hk ▸ hi ▸ hc d hd]
        · rw [if_neg hk, cellAt, if_neg (by omega)]
      · rw [if_neg hw, cellAt, cellAt]
        by_cases hk : k = i
        · simp [hk]
        · rw [if_neg (by simpa [eq_comm] using hk), if_neg hk, if_neg (by omega)]
    · rw [if_neg (by omega), if_neg (by omega), cellAt, cellAt, ih hcs]
      by_cases hk : k = i
      · rw [if_neg (by omega), if_pos hk, if_pos hk]
      · rw [if_neg hk, if_neg hk]

theorem setCell_idx {m : List DCell} {i : Nat} {w : TWord} {d : DCell} (h : d ∈ setCell m i w) : d.idx = i ∨ d ∈ m := by
  induction m with
  | nil =>
    simp only [setCell] at h
    split at h <;> simp_all
  | cons c cs ih =>
    simp only [setCell] at h
    split at h <;> split at h
    · exact .inr h
    · exact (List.mem_cons.1 h).imp (congrArg DCell.idx) id
    · split at h
      · exact .inr (List.mem_cons_of_mem _ h)
      · exact (List.mem_cons.1 h).imp (congrArg DCell.idx) (List.mem_cons_of_mem _)
    · rcases List.mem_cons.1 h with rfl | h
      · exact .inr List.mem_cons_self
      · exact (ih h).imp id (List.mem_cons_of_mem _)

theorem setCell_rising {m : List DCell} (h : Rising m) (i : Nat) (w : TWord) : Rising (setCell m i w) := by
  induction m with
  | nil =>
    simp only [setCell]
    split
    · exact .nil
    · exact List.pairwise_singleton _ _
  | cons c cs ih =>
    obtain ⟨hc, hcs⟩ := List.pairwise_cons.1 h
    simp only [setCell]
    split <;> split
    · exact h
    · next hi _ => exact List.pairwise_cons.2 ⟨List.forall_mem_cons.2 ⟨hi, fun d hd => hi.trans (hc d hd)⟩, h⟩
    · split
      · exact hcs
      · next hi _ => exact List.pairwise_cons.2 ⟨fun d hd => hi ▸ hc d hd, hcs⟩
    · next hl hn => exact List.pairwise_cons.2 ⟨fun d hd => (setCell_idx hd).elim (fun h => by omega) (hc d), ih hcs⟩

/-- The byte at a position. -/
def cellByte (m : List DCell) (p : Nat) : Byte := BitVec.ofNat 8 ((cellAt m (p / 4)).v.toNat / 256 ^ (p % 4))

theorem cellBytes_eq (m : List DCell) (off n : Nat) :
    cellBytes m off n = ((List.range n).map fun k => cellByte m (off + k),
      (List.range n).any fun k => (cellAt m ((off + k) / 4)).tag) := rfl

theorem setByte_rising {m : List DCell} (h : Rising m) (off : Nat) (b : Byte) (tag : Bool) : Rising (setByte m off b tag) :=
  setCell_rising h _ _

theorem cellAt_setByte {m : List DCell} (h : Rising m) {off k : Nat} (b : Byte) (tag : Bool) (hk : k ≠ off / 4) :
    cellAt (setByte m off b tag) k = cellAt m k := (cellAt_setCell h _ _ _).trans (if_neg hk)

theorem tag_setByte {m : List DCell} (h : Rising m) (off : Nat) (b : Byte) (tag : Bool) :
    (cellAt (setByte m off b tag) (off / 4)).tag = tag := by
  rw [setByte, cellAt_setCell h, if_pos rfl]

/-- A byte of a word is set, and the other three stay. -/
theorem byte_of_word {w b q r : Nat} (hw : w < 2 ^ 32) (hb : b < 256) (hq : q < 4) (hr : r < 4) :
    (w - w / 256 ^ q % 256 * 256 ^ q + b * 256 ^ q) % 2 ^ 32 / 256 ^ r % 256
      = if r = q then b else w / 256 ^ r % 256 := by
  interval_cases q <;> interval_cases r <;> norm_num <;> omega

theorem cellByte_setByte {m : List DCell} (h : Rising m) (off : Nat) (b : Byte) (tag : Bool) (p : Nat) :
    cellByte (setByte m off b tag) p = if p = off then b else cellByte m p := by
  by_cases hk : p / 4 = off / 4
  · have hp : p = off ↔ p % 4 = off % 4 := by omega
    have hw := byte_of_word (cellAt m (off / 4)).v.isLt b.isLt (Nat.mod_lt off (by decide)) (Nat.mod_lt p (by decide : 0 < 4))
    rw [cellByte, cellByte, setByte, cellAt_setCell h, if_pos hk, hk]
    refine BitVec.eq_of_toNat_eq ?_
    simp only [BitVec.toNat_ofNat, hw, hp]
    split <;> simp
  · rw [cellByte, cellAt_setByte h b tag hk, if_neg fun he => hk (congrArg (· / 4) he), cellByte]

theorem setBytes_rising {m : List DCell} (h : Rising m) (off : Nat) (tag : Bool) (bs : Bytes) :
    Rising (setBytes m off tag bs) := by
  induction bs generalizing m off with
  | nil => exact h
  | cons b bs ih => exact ih (setByte_rising h off b tag) (off + 1)

theorem cellByte_setBytes {m : List DCell} (h : Rising m) (off : Nat) (tag : Bool) (bs : Bytes) (p : Nat) :
    cellByte (setBytes m off tag bs) p = if off ≤ p then bs.getD (p - off) (cellByte m p) else cellByte m p := by
  induction bs generalizing m off with
  | nil => simp [setBytes]
  | cons b bs ih =>
    rw [setBytes, ih (setByte_rising h off b tag), cellByte_setByte h]
    rcases lt_trichotomy p off with hp | rfl | hp
    · rw [if_neg (by omega), if_neg (by omega), if_neg (by omega)]
    · rw [if_neg (by omega), if_pos rfl, if_pos le_rfl, Nat.sub_self]
      rfl
    · rw [if_pos (by omega), if_neg (by omega), if_pos (by omega), show p - off = p - (off + 1) + 1 by omega]
      rfl

/-- A word none of whose bytes is written stays. -/
theorem cellAt_setBytes {m : List DCell} (h : Rising m) {off k : Nat} {tag : Bool} {bs : Bytes}
    (hk : ∀ i, i < bs.length → k ≠ (off + i) / 4) : cellAt (setBytes m off tag bs) k = cellAt m k := by
  induction bs generalizing m off with
  | nil => rfl
  | cons b bs ih =>
    rw [setBytes, ih (setByte_rising h off b tag) fun i hi => ?_, cellAt_setByte h b tag (by simpa using hk 0 (Nat.succ_pos _))]
    rw [show off + 1 + i = off + (i + 1) by omega]
    exact hk (i + 1) (by simpa using hi)

/-- A word that a byte is written to takes the tag. -/
theorem tag_setBytes {m : List DCell} (h : Rising m) {off k : Nat} {tag : Bool} {bs : Bytes}
    (hk : (∃ i, i < bs.length ∧ k = (off + i) / 4) ∨ (cellAt m k).tag = tag) : (cellAt (setBytes m off tag bs) k).tag = tag := by
  induction bs generalizing m off with
  | nil => exact hk.resolve_left fun ⟨i, hi, _⟩ => absurd hi (Nat.not_lt_zero i)
  | cons b bs ih =>
    refine ih (setByte_rising h off b tag) ?_
    by_cases h0 : k = off / 4
    · exact .inr (h0 ▸ tag_setByte h off b tag)
    · refine hk.imp (fun ⟨i, hi, he⟩ => ?_) fun ht => (congrArg TWord.tag (cellAt_setByte h b tag h0)).trans ht
      cases i with
      | zero => exact absurd he h0
      | succ i => exact ⟨i, by simpa using hi, by rw [he]; congr 1; omega⟩

/-- What is written to a region reads back, with its tag. -/
theorem cellBytes_setBytes {m : List DCell} (h : Rising m) (off : Nat) (tag : Bool) {bs : Bytes} (h0 : bs ≠ []) :
    cellBytes (setBytes m off tag bs) off bs.length = (bs, tag) := by
  rw [cellBytes_eq]
  refine Prod.ext ?_ ?_
  · refine List.ext_getElem (by simp) fun i h1 h2 => ?_
    simp [cellByte_setBytes h, h2]
  · have ht : ∀ i ∈ List.range bs.length, (cellAt (setBytes m off tag bs) ((off + i) / 4)).tag = tag := fun i hi =>
      tag_setBytes h (.inl ⟨i, List.mem_range.1 hi, rfl⟩)
    cases tag with
    | false => exact List.any_eq_false.2 fun i hi => by simp [ht i hi]
    | true =>
      have hz : 0 ∈ List.range bs.length := List.mem_range.2 (List.length_pos_iff.2 h0)
      exact List.any_eq_true.2 ⟨0, hz, ht 0 hz⟩

/-! ### Fetches and stores -/

/-- Below a multiple of its size, an aligned range lies wholly. -/
theorem aligned_lt {a n k : Nat} (ha : n ∣ a) (hk : n ∣ k) (h : a < k) : a + (n - 1) < k := by
  obtain ⟨q, rfl⟩ := ha
  obtain ⟨r, rfl⟩ := hk
  have hqr : q + 1 ≤ r := Nat.lt_of_mul_lt_mul_left h
  have hle : n * q + n ≤ n * r := (Nat.mul_succ n q).ge.trans (Nat.mul_le_mul_left n hqr)
  have hn : 0 < n := Nat.pos_of_mul_pos_right (lt_of_le_of_lt (Nat.zero_le _) h)
  omega

theorem accessRegion_aligned {a n : Nat} (ha : a % n = 0) (hn : n ∣ 4096) : accessRegion a n = regionOf a := by
  have hk : ∀ k, 4096 ∣ k → (a + (n - 1) < k) = (a < k) := fun k hk =>
    propext ⟨fun h => by omega, aligned_lt (Nat.dvd_of_mod_eq_zero ha) (hn.trans hk)⟩
  refine if_pos ?_
  simp only [regionOf, hk 0x8000 ⟨8, rfl⟩, hk 0xB000 ⟨11, rfl⟩, hk 0xD000 ⟨13, rfl⟩, hk 0xF000 ⟨15, rfl⟩, hk 0x10000 ⟨16, rfl⟩]

theorem regionOf_work {a : Nat} (h : a < 0x8000) : regionOf a = some .work := if_pos h

theorem regionOf_out {a : Nat} (h : 0xB000 ≤ a) (h' : a < 0xD000) : regionOf a = some .out := by
  unfold regionOf
  rw [if_neg (by omega), if_neg (by omega), if_pos h']

theorem regionOf_ne_out {a : Nat} (h : a < 0xB000 ∨ 0xD000 ≤ a) : regionOf a ≠ some .out := by
  unfold regionOf
  rcases h with h | h
  · rw [if_pos h]
    split <;> nofun
  · rw [if_neg (by omega), if_neg (by omega), if_neg (by omega)]
    split
    · nofun
    · split <;> nofun

theorem regionOf_ne_work {a : Nat} (h : 0x8000 ≤ a) : regionOf a ≠ some .work := by
  unfold regionOf
  rw [if_neg (by omega)]
  split
  · nofun
  split
  · nofun
  split
  · nofun
  · split <;> nofun

section
variable {e : Eng} {a n : Nat} {bs : Bytes} (ha : a % n = 0) (hn : n ∣ 4096) (hb : bs.length = n)
include ha hn hb

theorem dWrite_work (h : a < 0x8000) (tag : Bool) :
    dWrite e a bs tag = .ok (e.arch fun x => { x with work := setBytes x.work a tag bs }) := by
  rw [dWrite, hb, accessRegion_aligned ha hn, regionOf_work h]

theorem dWrite_out {tag : Bool} (ht : tag = false) (h : 0xB000 ≤ a) (h' : a < 0xD000)
    (hl : e.r.cur.outBase.toNat + (a - 0xB000) + n ≤ e.j.outLen) :
    dWrite e a bs tag
      = .ok (e.arch fun x => { x with out := setBytes x.out (e.r.cur.outBase.toNat + (a - 0xB000)) false bs }) := by
  simp only [dWrite, hb, accessRegion_aligned ha hn, regionOf_out h h', ht, Bool.false_eq_true, if_false, if_neg
      (Nat.not_lt.2 hl)]

theorem dWrite_beyond {tag : Bool} (ht : tag = false) (h : 0xB000 ≤ a) (h' : a < 0xD000)
    (hl : e.j.outLen < e.r.cur.outBase.toNat + (a - 0xB000) + n) :
    dWrite e a bs tag = .error .access := by
  simp only [dWrite, hb, accessRegion_aligned ha hn, regionOf_out h h', ht, Bool.false_eq_true, if_false, if_pos hl]

theorem dWrite_other (h : 0x8000 ≤ a) (h' : a < 0xB000 ∨ 0xD000 ≤ a) (tag : Bool) : dWrite e a bs tag = .error .access := by
  simp only [dWrite, hb, accessRegion_aligned ha hn]
  split
  · exact absurd ‹_› (regionOf_ne_work h)
  · exact absurd ‹_› (regionOf_ne_out h')
  · rfl

end

theorem iSpace_error {e : Eng} {i : Nat} {h : Halt} (hi : iSpace e i = .error h) : h = .access := by
  unfold iSpace at hi
  split at hi
  · split at hi <;> simp_all
  · split at hi
    · cases hi
    · split at hi <;> simp_all

section
variable {e : Eng} {a x : TWord} {rest : List TWord} {n : Nat} (hd : e.r.cur.ds = a :: x :: rest)
include hd

theorem storeN_address_tagged (ht : a.tag = true) : storeN e n = .halt .taint := by
  simp only [storeN, hd, ht, if_true]

theorem storeN_value_tagged (ht : a.tag = false) (hx : x.tag = true) (hr : regionOf a.v.toNat = some .out) :
    storeN e n = .halt .taint := by
  simp [storeN, hd, ht, hx, hr]

variable (ht : a.tag = false) (hx : x.tag = false ∨ regionOf a.v.toNat ≠ some .out)
include ht hx

theorem storeN_misaligned (ha : a.v.toNat % n ≠ 0) : storeN e n = .halt .access := by
  rcases hx with hx | hx <;> simp [storeN, hd, ht, hx, ha]

theorem storeN_ok {u : Eng} (ha : a.v.toNat % n = 0) (hw : dWrite e a.v.toNat (leBytes n x.v.toNat) x.tag = .ok u) :
    storeN e n = (u.arch fun y => { y with ds := rest }).go := by
  rcases hx with hx | hx <;> simp_all [storeN]

theorem storeN_error {h : Halt} (ha : a.v.toNat % n = 0)
    (hw : dWrite e a.v.toNat (leBytes n x.v.toNat) x.tag = .error h) : storeN e n = .halt h := by
  rcases hx with hx | hx <;> simp_all [storeN]

end

theorem exec_fetch : ∀ p ∈ ([(.alFetch, 0x20, 4), (.alFetchh, 0x22, 2), (.alFetchb, 0x24, 1)] : List ((Nat → Instr) × Nat × Nat)),
    ∀ (j : Nat) (s : State), exec (p.1 j) s = .next (engineStep s j p.2.1 (fetchN · p.2.2)) :=
  List.forall_mem_cons.2 ⟨fun _ _ => rfl, List.forall_mem_cons.2 ⟨fun _ _ => rfl, List.forall_mem_singleton.2 fun _ _ => rfl⟩⟩

theorem exec_store : ∀ p ∈ ([(.alStore, 0x21, 4), (.alStoreh, 0x23, 2), (.alStoreb, 0x25, 1)] : List ((Nat → Instr) × Nat × Nat)),
    p.2.2 ∣ 4096
      ∧ ∀ (j : Nat) (s : State), exec (p.1 j) s = .next (engineStep s j p.2.1 (storeN · p.2.2)) :=
  List.forall_mem_cons.2 ⟨⟨⟨1024, rfl⟩, fun _ _ => rfl⟩, List.forall_mem_cons.2 ⟨⟨⟨2048, rfl⟩, fun _ _ => rfl⟩,
    List.forall_mem_singleton.2 ⟨⟨4096, rfl⟩, fun _ _ => rfl⟩⟩⟩

/-- Settles O34: an aligned access lies in one region, and the bytes that are set read back with their tag. -/
theorem aladaMemory : Obligations.AladaMemory := by
  unfold Obligations.AladaMemory
  refine ⟨fun e j => ?_, ?_⟩
  · intro out
    refine ⟨fun p hp h a rest hd hl => ⟨fun ht ha => ⟨fun b t hr => ?_, fun hr => ?_, fun hr => ?_⟩, fun ht => ?_,
        fun ht ha => ?_⟩,
      fun p hp h a x rest hd => ?_, fun h a rest hd hl => ⟨fun ht => ⟨fun w hw => ?_, fun x hx => ?_, fun hi hj => ?_⟩,
          fun ht => ?_⟩⟩
    · exact exec_onStack h (exec_fetch p hp j e.s) (by simp [hd, ht, ha, hr]) hl
    · exact halts_onStack h (exec_fetch p hp j e.s) (by simp [hd, ht, ha, hr]) Halt.noConfusion
    · exact exec_stalls h (exec_fetch p hp j e.s) (onStack_error (by simp [hd, ht, ha, hr]))
    · exact halts_onStack h (exec_fetch p hp j e.s) (by simp [hd, ht]) Halt.noConfusion
    · exact halts_onStack h (exec_fetch p hp j e.s) (by simp [hd, ht, ha]) Halt.noConfusion
    · obtain ⟨hn, hex⟩ := exec_store p hp
      have hb := leBytes_length p.2.2 x.v.toNat
      refine ⟨fun ht ha => ⟨fun hw => ?_, fun h1 h2 hx => ⟨fun hle => ?_, fun hle => ?_⟩, fun h1 h2 => ?_⟩, fun ht => ?_,
        fun ht hx h1 h2 => ?_, fun ht hx ha => ?_⟩
      · exact exec_go h (hex j e.s) (storeN_ok hd ht (.inr (regionOf_ne_out (by omega))) ha (dWrite_work ha hn hb hw _))
      · exact exec_go h (hex j e.s) (storeN_ok hd ht (.inl hx) ha (dWrite_out ha hn hb hx h1 h2 hle))
      · exact exec_halts h (hex j e.s) (storeN_error hd ht (.inl hx) ha (dWrite_beyond ha hn hb hx h1 h2 hle)) Halt.noConfusion
      · exact exec_halts h (hex j e.s) (storeN_error hd ht (.inr (regionOf_ne_out h2)) ha (dWrite_other ha hn hb h1 h2 _))
          Halt.noConfusion
      · exact exec_halts h (hex j e.s) (storeN_address_tagged hd ht) Halt.noConfusion
      · exact exec_halts h (hex j e.s) (storeN_value_tagged hd ht hx (regionOf_out h1 h2)) Halt.noConfusion
      · exact exec_halts h (hex j e.s) (storeN_misaligned hd ht (hx.imp id regionOf_ne_out) ha) Halt.noConfusion
    · exact exec_onStack h rfl (by simp only [hd, ht, hw]; rfl) hl
    · obtain rfl := iSpace_error hx
      exact halts_onStack h rfl (by simp only [hd, ht, hx]; rfl) Halt.noConfusion
    · have hx : iSpace e a.v.toNat = .error .access := by
        simp only [iSpace, hj]
        rw [if_neg (by omega), if_neg (by omega)]
      exact halts_onStack h rfl (by simp only [hd, ht, hx]; rfl) Halt.noConfusion
    · exact halts_onStack h rfl (by simp only [hd, ht]; rfl) Halt.noConfusion
  · intro m off n v tag hm ho hn m'
    have hl := leBytes_length n v
    refine ⟨?_, fun k hk => cellAt_setBytes hm fun i hi => ?_, setBytes_rising hm off tag _⟩
    · have h := cellBytes_setBytes hm off tag (bs := leBytes n v) (List.ne_nil_of_length_pos (by omega))
      rwa [hl] at h
    · rw [hl] at hi
      rcases hn with rfl | rfl | rfl <;> omega

/-! ### Commit points, the end and engine faults -/

theorem Arch.vfaultValid_eq (a : Arch) : a.vfaultValid = decide (2 ^ 31 ≤ a.vfaultElem.toNat) :=
  (BitVec.msb_eq_getLsbD_last a.vfaultElem).symm.trans (BitVec.msb_eq_decide a.vfaultElem)

theorem Arch.midVector_eq_false {a : Arch} (hv : a.vstart = 0) (hf : a.vfaultElem.toNat < 2 ^ 31) : a.midVector = false := by
  simp only [Arch.midVector, Arch.vfaultValid_eq, hv, decide_eq_false (Nat.not_le.2 hf)]
  rfl

theorem Arch.midVector_eq_true {a : Arch} (h : a.vstart ≠ 0 ∨ 2 ^ 31 ≤ a.vfaultElem.toNat) : a.midVector = true := by
  simp only [Arch.midVector, Arch.vfaultValid_eq, Bool.or_eq_true, bne_iff_ne, decide_eq_true_eq]
  exact h

theorem onEngine_job_id {e : Eng} {j w : Nat} (h : OnEngine e j w) : e.j.id = j := State.job?_id h.1

theorem onEngine_run_job {e : Eng} {j w : Nat} (h : OnEngine e j w) : e.r.job = j := State.run?_job h.2.2.1

theorem cellBytes_length (m : List DCell) (off n : Nat) : (cellBytes m off n).1.length = n := by
  simp [cellBytes]

theorem commitPoint_some {e : Eng} {s : State} (h : nextSegment (stageCommit e).s e.j = some s) :
    commitPoint e = { stageCommit e with s := s } := by
  simp only [commitPoint, show (stageCommit e).j = e.j from rfl, h]

theorem commitPoint_none {e : Eng} (h : nextSegment (stageCommit e).s e.j = none) :
    commitPoint e = { stageCommit e with r.paused := true } := by
  simp only [commitPoint, show (stageCommit e).j = e.j from rfl, h]

section
variable {e : Eng} {j : Nat} (hm : e.r.cur.midVector = false)
include hm

theorem exec_alCommit (h : OnEngine e j 0x32) : exec (.alCommit j) e.s
    = .next ((commitPoint { e with r.cur := nextPc e.r.cur }).s.putRun (commitPoint { e with r.cur := nextPc e.r.cur }).r) := by
  rw [exec_engineStep h rfl, if_neg (by simp [hm]), settle_next]

theorem exec_alYield (h : OnEngine e j 0x33) : exec (.alYield j) e.s
    = .next ((showMxu e.s j).putRun { e.r with cur := nextPc e.r.cur, staged := some (nextPc e.r.cur), paused := true }) := by
  rw [exec_engineStep h rfl, if_neg (by simp [hm]), settle_next, ← onEngine_job_id h]
  rfl

theorem exec_alEnd (h : OnEngine e j 0x34) : exec (.alEnd j) e.s
    = .next (finalCommit (e.s.putRun { e.r with staged := some e.r.cur, paused := true }) j (archResult e)) := by
  rw [exec_engineStep h rfl, if_neg (by simp [hm]), ← onEngine_job_id h]
  rfl

end

/-- The first engine fault from a commit point: the job runs again from there, and nothing is written. -/
theorem engineFault_first_leaves {s : State} {x : Job} {r : Run} {j : Nat} {f : Halt} (hj : s.job? j = some x) (hr : r.job = j)
    (h0 : x.strikes = 0) : (engineFault s x r f).job? j
        = some { x with strikes := 1, rerun := true, sliceTick := none, trying := none }
      ∧ (engineFault s x r f).run? j = some r.restore ∧ (engineFault s x r f).hostMem = s.hostMem
      ∧ (engineFault s x r f).store = s.store := by
  obtain rfl := State.job?_id hj
  rw [engineFault_first h0]
  refine ⟨?_, ?_, rfl, rfl⟩
  · have h1 : (abandonSlice (s.putRun r.restore) x.id).job? x.id
        = some { x with rerun := true, sliceTick := none, trying := none } :=
      State.job?_updJob_some (s := s) (f := fun x => { x with rerun := true, sliceTick := none, trying := none }) hj fun _ => rfl
    exact State.job?_updJob_some (f := fun x => { x with strikes := 1 }) h1 fun _ => rfl
  · have h1 : (s.putRun r.restore).run? x.id = some r.restore := hr ▸ State.run?_putRun s r.restore
    refine (State.run?_updRun _ x.id Run.restore fun _ => rfl).trans ?_
    change Option.map Run.restore ((s.putRun r.restore).run? x.id) = _
    rw [h1]
    rfl

theorem archResult_beyond {e : Eng} (h : e.j.outLen < e.r.cur.jobResultLen.toNat) :
    archResult e = { err 0x0104 0x60 with len := e.r.cur.jobResultLen.toNat } := if_pos h

theorem archResult_shown {e : Eng} (h : e.r.cur.jobResultLen.toNat ≤ e.j.outLen) (hs : e.r.cur.jobStatus.toNat % 65536 ≤ 1) :
    archResult e = ⟨e.r.cur.jobStatus.toNat % 65536, e.r.cur.jobStatus.toNat / 65536 % 256, e.r.cur.jobResultLen.toNat,
      (cellBytes e.r.cur.out 0 e.r.cur.jobResultLen.toNat).1, []⟩ := by
  have ho : e.r.cur.jobStatus.toNat % 65536 = 0 ∨ e.r.cur.jobStatus.toNat % 65536 = 1 := by omega
  simp only [archResult, if_neg (Nat.not_lt.2 h), if_pos ho, cellBytes_length]
  rfl

theorem archResult_failed {e : Eng} (h : e.r.cur.jobResultLen.toNat ≤ e.j.outLen) (hs : 1 < e.r.cur.jobStatus.toNat % 65536) :
    archResult e = ⟨e.r.cur.jobStatus.toNat % 65536, e.r.cur.jobStatus.toNat / 65536 % 256, 0, [], []⟩ := by
  have ho : ¬(e.r.cur.jobStatus.toNat % 65536 = 0 ∨ e.r.cur.jobStatus.toNat % 65536 = 1) := by omega
  simp only [archResult, if_neg (Nat.not_lt.2 h), if_neg ho]
  rfl

theorem nextSegment_not_sprint (s : State) {x : Job} (h : x.sprint = false) : nextSegment s x = none := by
  simp [nextSegment, h]

theorem exec_unassigned {e : Eng} {j w : Nat} (h : OnEngine e j w) (ha : assignedWord w = false) :
    exec (.unassignedEncoding j w) e.s = .next (engineFault e.s e.j e.r .illegal) := by
  have hc : exec (.unassignedEncoding j w) e.s = .next (engineStep e.s j w fun _ => .halt .illegal) :=
    congrArg Host.Outcome.next (if_neg (by simp [ha]))
  rw [exec_engineStep h hc]
  rfl

/-- Settles O36, from what a commit point stages and what an engine fault leaves. -/
theorem aladaCommitsAndFaults : Obligations.AladaCommitsAndFaults := by
  unfold Obligations.AladaCommitsAndFaults
  refine ⟨fun e j => ?_, fun s j w ha => ?_, fun e j w h ha => ?_⟩
  · intro c a n st shown last
    refine ⟨fun hv hf => ?_, fun p hp h hv => ?_⟩
    · have hm : e.r.cur.midVector = false := Arch.midVector_eq_false hv hf
      refine ⟨fun h => ?_, exec_alYield hm, fun h => ⟨fun hn => ?_, fun hn hs => ?_, fun hn hs => ?_⟩⟩
      · have hs : (stageCommit { e with r.cur := nextPc e.r.cur }).s = shown := congrArg (showMxu e.s) (onEngine_job_id
            (e := e) h)
        refine ⟨fun s hn => ?_, fun hn => ?_, nextSegment_not_sprint shown⟩
        · rw [exec_alCommit hm h, commitPoint_some (hs ▸ hn)]
          rfl
        · rw [exec_alCommit hm h, commitPoint_none (hs ▸ hn), hs]
          rfl
      · rw [exec_alEnd hm h, archResult_beyond hn]
      · rw [exec_alEnd hm h, archResult_shown hn hs]
      · rw [exec_alEnd hm h, archResult_failed hn hs]
    · have hm : e.r.cur.midVector = true := Arch.midVector_eq_true hv
      simp only [List.mem_cons, List.not_mem_nil, or_false] at hp
      rcases hp with rfl | rfl | rfl <;> exact exec_halts h rfl (if_pos hm) Halt.noConfusion
  · exact congrArg Host.Outcome.next (if_pos ha)
  · refine ⟨fun h0 => ?_, fun h0 hr => ?_, fun h0 hr => ?_⟩
    · exact ⟨_, exec_unassigned h ha, engineFault_first_leaves h.1 (onEngine_run_job h) h0⟩
    · obtain ⟨r, hr⟩ := Option.isSome_iff_exists.1 hr
      rw [exec_unassigned h ha, ← onEngine_job_id h]
      simp only [engineFault, if_neg h0]
      rw [show jobRoutine (e.s.putRun e.r.restore) e.j = some r from hr]
      rfl
    · rw [exec_unassigned h ha, ← onEngine_job_id h]
      simp only [engineFault, if_neg h0]
      rw [show jobRoutine (e.s.putRun e.r.restore) e.j = none from hr]
      rfl

/-! ### Ports -/

theorem portOk_vendor {e : Eng} {p : Nat} (ho : e.owner = false) (h : vendorPorts.contains p = true) : portOk e p = true := by
  simp only [portOk, ho, h]
  simp

theorem portOk_owner {e : Eng} {p : Nat} (h : ownerPorts.contains p = true) : portOk e p = true := by
  simp only [portOk, h, Bool.true_or]

theorem inPort_illegal {e : Eng} {p : Nat} (h : portOk e p = false) : inPort e p = .halt .illegal := by
  unfold inPort
  rw [h]
  rfl

theorem inPort_readPorts (e : Eng) : ∀ p ∈ readPorts e, p.1 < 256 ∧ inPort e p.1 = rd e p.2 := by
  simp only [readPorts, List.forall_mem_cons]
  refine ⟨⟨by decide, rfl⟩, ⟨by decide, rfl⟩, ⟨by decide, rfl⟩, ⟨by decide, rfl⟩, ⟨by decide, rfl⟩, ⟨by decide, rfl⟩,
    ⟨by decide, rfl⟩, ⟨by decide, rfl⟩, ⟨by decide, rfl⟩, ⟨by decide, rfl⟩, ⟨by decide, rfl⟩, ⟨by decide, rfl⟩, ⟨by decide, rfl⟩,
    ⟨by decide, rfl⟩, ⟨by decide, rfl⟩, ⟨by decide, rfl⟩, ⟨by decide, rfl⟩, ⟨by decide, rfl⟩, ⟨by decide, rfl⟩, ⟨by decide, rfl⟩,
    ⟨by decide, rfl⟩, fun _ h => nomatch h⟩

theorem inPort_vendorReads {e : Eng} (ho : e.owner = false) : ∀ p ∈ vendorReads e, p.1 < 256 ∧ inPort e p.1 = rd e p.2 := by
  have hv : ∀ {p : Nat} {w : Word}, p < 256 → vendorPorts.contains p = true → (portOk e p = true → inPort e p = rd e w) →
      p < 256 ∧ inPort e p = rd e w := fun hp hc h => ⟨hp, h (portOk_vendor ho hc)⟩
  simp only [vendorReads, List.forall_mem_cons]
  refine ⟨hv (by decide) rfl fun h => ?_, hv (by decide) rfl fun h => ?_, hv (by decide) rfl fun h => ?_,
    hv (by decide) rfl fun h => ?_, hv (by decide) rfl fun h => ?_, hv (by decide) rfl fun h => ?_, hv
        (by decide) rfl fun h => ?_,
    hv (by decide) rfl fun h => ?_, hv (by decide) rfl fun h => ?_, fun _ h => nomatch h⟩
  all_goals
    unfold inPort
    rw [h]
    rfl

theorem doIn_val {e u : Eng} {p : Nat} {x : TWord} (h : inPort e p = .val x u) :
    doIn e p = onStack u fun st => .ok (x :: st) := by
  simp only [doIn, h]

section
variable {e : Eng} {j p : Nat} (h : OnEngine e j (0x5000 + p)) (hp : p < 256)
include h hp

/-- IN of a port of which the read has been worked out. -/
theorem exec_in {x : TWord} (hi : inPort e p = .val x e) (hl : e.r.cur.ds.length < 32) :
    exec (.alIn j p) e.s = .next (ran e { e.r.cur with ds := x :: e.r.cur.ds }) := by
  have hm := Nat.mod_eq_of_lt hp
  refine exec_go (w := inW p) (by rwa [inW, hm]) rfl ?_
  rw [hm, doIn_val hi]
  exact onStack_ok (g := fun st => .ok (x :: st)) rfl hl

theorem halts_in {x : TWord} (hi : inPort e p = .val x e) (hl : e.r.cur.ds.length = 32) : Halts (.alIn j p) e .stack := by
  have hm := Nat.mod_eq_of_lt hp
  refine exec_halts (w := inW p) (by rwa [inW, hm]) rfl ?_ Halt.noConfusion
  rw [hm, doIn_val hi]
  exact onStack_full rfl (by simp [hl])

theorem halts_in_port (hk : portOk e p = false) : Halts (.alIn j p) e .illegal := by
  have hm := Nat.mod_eq_of_lt hp
  refine exec_halts (w := inW p) (by rwa [inW, hm]) rfl ?_ Halt.noConfusion
  simp only [hm, doIn, inPort_illegal hk]

end

/-! A write pops the top of the stack first. -/

/-- The instruction with the data stack `rest`. -/
def popped (e : Eng) (rest : List TWord) : Eng := e.arch fun a => { a with ds := rest }

theorem outPort_illegal {e : Eng} {p : Nat} {x : TWord} (h : outIllegal e p x.v.toNat = true) :
    outPort e p x = .error .illegal := if_pos h

theorem outPort_taint {e : Eng} {p : Nat} {x : TWord} (h : outIllegal e p x.v.toNat = false) (ht : x.tag = true)
    (hs : tagSink p = false) : outPort e p x = .error .taint := by
  simp [outPort, h, ht, hs]

/-- A write that is neither ILLEGAL nor TAINT does what Table 11.5 says of its port. -/
theorem outPort_writes {i t : Bool} {o : Except Halt Eng} (hi : i = false) (ht : t = false) :
    (if i then .error .illegal else if t then .error .taint else o) = o := by
  rw [hi, ht]
  rfl

theorem and_tagSink {x : TWord} {p : Nat} (ht : x.tag = false ∨ tagSink p = true) : (x.tag && !tagSink p) = false := by
  rcases ht with ht | ht <;> simp [ht]

section
variable {e : Eng} {j p : Nat} (h : OnEngine e j (0x6000 + p)) (hp : p < 256) (hq : p ≠ 0x10)
include h hp hq

theorem exec_alOut : exec (.alOut j p) e.s = .next (settle e.s e.j e.r (doOut e p)) := by
  have hm := Nat.mod_eq_of_lt hp
  have hc : exec (.alOut j p) e.s = .next (engineStep e.s j (outW p) fun e => doOut e (p % 256)) := if_neg (by rwa [hm])
  have hx := exec_engineStep (w := outW p) (by rwa [outW, hm]) hc
  rwa [hm] at hx

/-- OUT of a port of which the write has been worked out. -/
theorem exec_out {x : TWord} {rest : List TWord} {u : Eng} (hd : e.r.cur.ds = x :: rest) (hk : portOk e p = true)
    (ho : outPort (popped e rest) p x = .ok u) : exec (.alOut j p) e.s = .next
        (u.s.putRun { u.r with cur := nextPc u.r.cur }) := by
  have hf : doOut e p = u.go := by
    simp only [doOut, hk, hd]
    rw [show e.arch (fun a => { a with ds := rest }) = popped e rest from rfl, ho]
    rfl
  rw [exec_alOut h hp hq, hf]
  rfl

theorem halts_out {x : TWord} {rest : List TWord} {y : Halt} (hd : e.r.cur.ds = x :: rest) (hk : portOk e p = true)
    (ho : outPort (popped e rest) p x = .error y) (hy : y ≠ .stall) : Halts (.alOut j p) e y := by
  have hf : doOut e p = .halt y := by
    simp only [doOut, hk, hd]
    rw [show e.arch (fun a => { a with ds := rest }) = popped e rest from rfl, ho]
    rfl
  rw [Halts, exec_alOut h hp hq, hf]
  cases y with
  | stall => exact absurd rfl hy
  | _ => rfl

theorem halts_out_empty (hd : e.r.cur.ds = []) (hk : portOk e p = true) : Halts (.alOut j p) e .stack := by
  have hf : doOut e p = .halt .stack := by
    simp only [doOut, hk, hd]
    rfl
  rw [Halts, exec_alOut h hp hq, hf]
  rfl

theorem halts_out_port (hk : portOk e p = false) : Halts (.alOut j p) e .illegal := by
  have hf : doOut e p = .halt .illegal := by
    simp only [doOut, hk]
    rfl
  rw [Halts, exec_alOut h hp hq, hf]
  rfl

end

/-- What a port of `writePorts` does: it is the routine's, no value is ILLEGAL, a tagged one is TAINT, and the register is set. -/
def SetsRegister (e : Eng) (p : Nat × (Arch → Word → Arch)) : Prop :=
  p.1 < 256 ∧ p.1 ≠ 0x10 ∧ portOk e p.1 = true ∧ tagSink p.1 = false
  ∧ ∀ x rest, outIllegal (popped e rest) p.1 x.v.toNat = false ∧ (x.tag = false →
    outPort (popped e rest) p.1 x = .ok (e.arch fun a => p.2 { a with ds := rest } x.v))

theorem writePorts_set (e : Eng) : ∀ p ∈ writePorts, SetsRegister e p := by
  have hw : ∀ {p : Nat} {f : Arch → Word → Arch}, p < 256 → p ≠ 0x10 → portOk e p = true → tagSink p = false →
      (∀ rest x, outIllegal (popped e rest) p x = false) → (∀ rest x, outIllegal (popped e rest) p x.v.toNat = false →
        x.tag = false → outPort (popped e rest) p x = .ok (e.arch fun a => f { a with ds := rest } x.v)) → SetsRegister e (p,
            f) :=
    fun h1 h2 h3 h4 h5 h6 => ⟨h1, h2, h3, h4, fun x rest => ⟨h5 _ _, h6 rest x (h5 _ _)⟩⟩
  simp only [writePorts, List.forall_mem_cons]
  refine ⟨hw (by decide) (by decide) rfl rfl (fun _ _ => rfl) fun rest x h1 ht => ?_,
    hw (by decide) (by decide) rfl rfl (fun _ _ => rfl) fun rest x h1 ht => ?_,
    hw (by decide) (by decide) rfl rfl (fun _ _ => rfl) fun rest x h1 ht => ?_,
    hw (by decide) (by decide) rfl rfl (fun _ _ => rfl) fun rest x h1 ht => ?_,
    hw (by decide) (by decide) rfl rfl (fun _ _ => rfl) fun rest x h1 ht => ?_,
    hw (by decide) (by decide) rfl rfl (fun _ _ => rfl) fun rest x h1 ht => ?_,
    hw (by decide) (by decide) rfl rfl (fun _ _ => rfl) fun rest x h1 ht => ?_,
    hw (by decide) (by decide) rfl rfl (fun _ _ => rfl) fun rest x h1 ht => ?_,
    hw (by decide) (by decide) rfl rfl (fun _ _ => rfl) fun rest x h1 ht => ?_,
    hw (by decide) (by decide) rfl rfl (fun _ _ => rfl) fun rest x h1 ht => ?_,
    hw (by decide) (by decide) rfl rfl (fun _ _ => rfl) fun rest x h1 ht => ?_,
    hw (by decide) (by decide) rfl rfl (fun _ _ => rfl) fun rest x h1 ht => ?_,
    hw (by decide) (by decide) rfl rfl (fun _ _ => rfl) fun rest x h1 ht => ?_,
    hw (by decide) (by decide) rfl rfl (fun _ _ => rfl) fun rest x h1 ht => ?_,
    hw (by decide) (by decide) rfl rfl (fun _ _ => rfl) fun rest x h1 ht => ?_, fun _ h => nomatch h⟩
  all_goals exact outPort_writes h1 (and_tagSink (.inl ht))

theorem run?_ran {e : Eng} {j w : Nat} (h : OnEngine e j w) {s : State} {a : Arch} :
    (ran { e with s := s } a).run? j = some { e.r with cur := { a with pc := (a.pc + 1) % 8192 } } :=
  onEngine_run_job h ▸ State.run?_putRun s { e.r with cur := { a with pc := (a.pc + 1) % 8192 } }

/-- Settles O37, a port at a time. -/
theorem aladaPorts : Obligations.AladaPorts := by
  unfold Obligations.AladaPorts
  intro e j stepped
  refine ⟨fun p hp h => ?_, fun p h1 h2 ho h hl hs => ?_, fun h hl => ?_, fun p hp h => ?_, fun x rest hd => ?_,
    fun p hp hk => ⟨fun h => halts_in_port h hp hk, fun h => ?_⟩, ?_⟩
  · have hi : p.1 < 256 ∧ inPort e p.1 = rd e p.2 := hp.elim (inPort_readPorts e p) fun ⟨hp, ho⟩ => inPort_vendorReads ho p hp
    exact ⟨fun hl => exec_in h hi.1 hi.2 hl, fun hl => halts_in h hi.1 hi.2 hl⟩
  · have hm : ∀ b, mxuWord e b = (plain 0, e) := fun b => by
      unfold mxuWord
      split
      · next c hc => rw [hs c hc]; rfl
      · rfl
    refine exec_in h (by omega) ?_ hl
    have hk : portOk e p = true := portOk_vendor ho (by interval_cases p <;> rfl)
    interval_cases p
    all_goals
      unfold inPort
      rw [hk]
      simp only [hm]
      rfl
  · have hx : exec (.alIn j 0x01) e.s = .next (ran { e with s := (takeFreeNat e.s).2 }
        { e.r.cur with ds := plain ((takeFreeNat e.s).1 % 900) :: e.r.cur.ds }) := by
      rw [exec_engineStep (w := inW 0x01) (f := fun e => doIn e 0x01) h rfl, doIn_val (e := e) (p := 0x01) rfl,
        onStack_ok (st := plain ((takeFreeNat e.s).1 % 900) :: e.r.cur.ds) rfl hl]
      rfl
    exact ⟨_, _, hx, Nat.mod_lt _ (by decide), run?_ran h, rfl, rfl, rfl⟩
  · obtain ⟨h1, h2, h3, h4, h5⟩ := writePorts_set e p hp
    refine ⟨fun hd => halts_out_empty h h1 h2 hd h3, fun x rest hd => ⟨fun ht => ?_, fun ht => ?_⟩⟩
    · exact exec_out h h1 h2 hd h3 ((h5 x rest).2 ht)
    · exact halts_out h h1 h2 hd h3 (outPort_taint (h5 x rest).1 ht h4) Halt.noConfusion
  · refine ⟨fun h => ⟨fun ht hv => ?_, fun hv => ?_⟩, fun h => ⟨fun ht hv => ?_, fun hv => ?_⟩, fun h => ⟨fun ht hv => ?_,
        fun ho hv => ?_⟩,
      fun h ht => ?_, fun h => ?_, fun ho => ⟨fun k hk h ht => ?_, fun k hk h ht => ?_, fun k hk h => ?_, fun h ht => ?_⟩⟩
    · exact exec_out (p := 0x0C) h (by decide) (by decide) hd rfl (outPort_writes (by simp [outIllegal, hv]; rfl) (and_tagSink
          (.inl ht)))
    · exact halts_out (p := 0x0C) h (by decide) (by decide) hd rfl (outPort_illegal (by simp [outIllegal, hv])) Halt.noConfusion
    · exact exec_out (p := 0x0D) h (by decide) (by decide) hd rfl (outPort_writes (by simp [outIllegal, hv]; rfl) (and_tagSink
          (.inl ht)))
    · exact halts_out (p := 0x0D) h (by decide) (by decide) hd rfl (outPort_illegal (by simp [outIllegal, hv])) Halt.noConfusion
    · have ho : ((popped e rest).owner && decide (1 < x.v.toNat % 65536)) = false := by
        rcases hv with hv | hv
        · rw [show (popped e rest).owner = false from hv]
          rfl
        · simp [Nat.not_lt.2 hv]
      exact exec_out (p := 0x0E) h (by decide) (by decide) hd rfl (outPort_writes (by simp [outIllegal, ho]; rfl) (and_tagSink
          (.inl ht)))
    · have ho : (popped e rest).owner = true := ho
      exact halts_out (p := 0x0E) h (by decide) (by decide) hd rfl (outPort_illegal (by simp [outIllegal, ho,
          hv])) Halt.noConfusion
    · exact exec_out (p := 0x20) (u := { popped e rest with r.hsSel := x.v.toNat % 4 }) h (by decide) (by decide) hd rfl
        (outPort_writes (show outIllegal (popped e rest) 0x20 x.v.toNat = false from rfl) (and_tagSink (.inl ht)))
    · exact halts_out (p := 0x34) h (by decide) (by decide) hd rfl (outPort_illegal (by simp [outIllegal])) Halt.noConfusion
    · have hk' : portOk e (0x08 + k) = true := portOk_vendor ho (by interval_cases k <;> rfl)
      refine exec_out (p := 0x08 + k) (Nat.add_assoc 0x6000 0x08 k ▸ h) (by omega) (by omega) hd hk'
          (u := { popped e rest with r.mbox := e.r.mbox.set k x.v }) ?_
      interval_cases k <;> exact outPort_writes (by simp [outIllegal, show portOk (popped e rest) _ = true from hk'])
          (and_tagSink (.inl ht))
    · have hk' : portOk e (0x40 + k) = true := portOk_vendor ho (by interval_cases k <;> rfl)
      refine exec_out (p := 0x40 + k) (Nat.add_assoc 0x6000 0x40 k ▸ h) (by omega) (by omega) hd hk'
          (u := { popped e rest with r.mxu := e.r.mxu.set k x }) ?_
      interval_cases k <;> exact outPort_writes (by simp [outIllegal, show portOk (popped e rest) _ = true from hk'])
          (and_tagSink (.inl ht))
    · have hk' : portOk e (0x42 + k) = true := portOk_vendor ho (by interval_cases k <;> rfl)
      refine exec_out (p := 0x42 + k) (Nat.add_assoc 0x6000 0x42 k ▸ h) (by omega) (by omega) hd hk'
          (u := { popped e rest with r.mxu := e.r.mxu.set (2 + k) x }) ?_
      interval_cases k <;>
        exact outPort_writes (by simp [outIllegal, show portOk (popped e rest) _ = true from hk']) (and_tagSink (.inr rfl))
    · have hk' : portOk e 0x50 = true := portOk_vendor ho rfl
      exact exec_out (p := 0x50) h (by decide) (by decide) hd hk'
        (outPort_writes (by simp [outIllegal, show portOk (popped e rest) _ = true from hk']) (and_tagSink (.inl ht)))
  · refine halts_out_port h hp (fun he => ?_) hk
    subst he
    cases hk
  · simp only [portRows, List.forall_mem_cons]
    exact ⟨fun _ => rfl, fun _ => rfl, fun _ => rfl, fun _ => rfl, fun _ => rfl, fun _ => rfl, fun _ => rfl, fun _ => rfl,
      fun _ => rfl, fun _ => rfl, fun _ h => nomatch h⟩

/-! ### Hash states -/

/-- The state after a write of `v` to HS_CTRL. -/
theorem HashState.write_eq (h : HashState) (v : Nat) : h.write v =
    (let g : HashState := { (if bit v 0 then idleHash else h) with rate := v / 256 % 256, func := v / 16 % 16, domain := v / 4 % 4 }
    if bit v 1 ∧ g.squeeze = false then { g with squeeze := true, busy := true } else g) := by
  cases h0 : bit v 0 <;> cases h1 : bit v 1 <;> simp [HashState.write, h0, h1, bits, idleHash]

theorem funcOk_eq {f : Nat} : funcOk f = true ↔ f ≤ 6 ∨ f = 8 := by
  simp [funcOk]

/-- A write to HS_CTRL is ILLEGAL only where INIT meets an undefined FUNC. -/
theorem outIllegal_ctrl (e : Eng) (v : Nat) : outIllegal e 0x21 v = (bit v 0 && !funcOk (v / 16 % 16)) := by
  simp [outIllegal, show portOk e 0x21 = true from rfl, bits]

theorem outIllegal_absorb (e : Eng) (v : Nat) : outIllegal e 0x22 v = e.hash.squeeze ∧ outIllegal e 0x23 v = e.hash.squeeze := by
  simp [outIllegal, show portOk e 0x22 = true from rfl, show portOk e 0x23 = true from rfl]

section
variable {e : Eng} {x : TWord} {rest : List TWord} (hd : e.r.cur.ds = x :: rest)
include hd

theorem doOut_ok {p : Nat} {u : Eng} (hk : portOk e p = true) (ho : outPort (popped e rest) p x = .ok u) : doOut e p = u.go := by
  simp only [doOut, hk, hd]
  rw [show e.arch (fun a => { a with ds := rest }) = popped e rest from rfl, ho]
  rfl

theorem doOut_error {p : Nat} {y : Halt} (hk : portOk e p = true) (ho : outPort (popped e rest) p x = .error y) :
    doOut e p = .halt y := by
  simp only [doOut, hk, hd]
  rw [show e.arch (fun a => { a with ds := rest }) = popped e rest from rfl, ho]
  rfl

theorem doOutIf_wanted {p : Nat} {want : Nat → Bool} (hw : want x.v.toNat = true) : doOutIf e p want = doOut e p := by
  simp only [doOutIf, hd, hw, if_true]

theorem doOutIf_other {p : Nat} {want : Nat → Bool} (hw : want x.v.toNat = false) : doOutIf e p want = .halt .stall := by
  simp only [doOutIf, hd, hw]
  rfl

end

/-- The rows that write HS_CTRL, each with the values it takes. -/
theorem exec_hsCtrl {e : Eng} {j : Nat} {x : TWord} {rest : List TWord} (h : OnEngine e j 0x6021) (hd : e.r.cur.ds = x :: rest) :
    ∀ p ∈ ([(.hsInit, fun v => bit v 0), (.hsPad, fun v => bit v 1), (fun j => .alOut j 0x21, fun _ => true)] :
      List ((Nat → Instr) × (Nat → Bool))),
    (p.2 x.v.toNat = true → exec (p.1 j) e.s = .next (settle e.s e.j e.r (doOut e 0x21)))
    ∧ (p.2 x.v.toNat = false → exec (p.1 j) e.s = .next e.s) := by
  simp only [List.forall_mem_cons]
  refine ⟨⟨fun hw => ?_, fun hw => ?_⟩, ⟨fun hw => ?_, fun hw => ?_⟩, ⟨fun _ => exec_alOut (p := 0x21) h (by decide)
      (by decide), nofun⟩, fun _ h => nomatch h⟩
  · rw [exec_engineStep (w := outW 0x21) h rfl, doOutIf_wanted hd hw]
  · rw [exec_engineStep (w := outW 0x21) h rfl, doOutIf_other hd hw, settle_stall]
  · rw [exec_engineStep (w := outW 0x21) h rfl, doOutIf_wanted hd hw]
  · rw [exec_engineStep (w := outW 0x21) h rfl, doOutIf_other hd hw, settle_stall]

section
variable {e : Eng} {x : TWord} {rest : List TWord}

theorem outPort_ctrl (hi : outIllegal (popped e rest) 0x21 x.v.toNat = false) (ht : x.tag = false) : outPort
    (popped e rest) 0x21 x
    = if (selected e).busy then .error .stall else .ok ((popped e rest).setHash ((selected e).write x.v.toNat)) :=
  outPort_writes hi (and_tagSink (.inl ht))

theorem outPort_absorb {p n : Nat} (hp : p = 0x22 ∧ n = 4 ∨ p = 0x23 ∧ n = 1) (hs : (selected e).squeeze = false) :
    outPort (popped e rest) p x = if (selected e).busy then .error .stall
      else .ok ((popped e rest).setHash ((selected e).absorb (leBytes n x.v.toNat) x.tag)) := by
  obtain ⟨h2, h3⟩ := outIllegal_absorb (popped e rest) x.v.toNat
  rcases hp with ⟨rfl, rfl⟩ | ⟨rfl, rfl⟩
  · exact outPort_writes (h2.trans hs) (and_tagSink (.inr rfl))
  · exact outPort_writes (h3.trans hs) (and_tagSink (.inr rfl))

end

theorem exec_hsAbsorb {e : Eng} {j : Nat} :
    ∀ p ∈ ([(.hsIn, 0x6022, 4), (.hsInb, 0x6023, 1)] : List ((Nat → Instr) × Nat × Nat)), OnEngine e j p.2.1 →
      ∃ q, (q = 0x22 ∧ p.2.2 = 4 ∨ q = 0x23 ∧ p.2.2 = 1) ∧ portOk e q = true
        ∧ exec (p.1 j) e.s = .next (settle e.s e.j e.r (doOut e q)) := by
  refine List.forall_mem_cons.2 ⟨fun h => ⟨0x22, .inl ⟨rfl, rfl⟩, rfl, ?_⟩, List.forall_mem_singleton.2 fun h =>
    ⟨0x23, .inr ⟨rfl, rfl⟩, rfl, ?_⟩⟩
  · exact exec_engineStep (w := outW 0x22) (f := fun e => doOut e 0x22) h rfl
  · exact exec_engineStep (w := outW 0x23) (f := fun e => doOut e 0x23) h rfl

theorem doIn_pushes {e u : Eng} {p : Nat} {x : TWord} (h : inPort e p = .val x u) (hl : u.r.cur.ds.length < 32) :
    doIn e p = (u.arch fun _ => { u.r.cur with ds := x :: u.r.cur.ds }).go :=
  (doIn_val h).trans (onStack_ok (g := fun st => .ok (x :: st)) rfl hl)

theorem inPort_hsOut_busy {e : Eng} (h : (selected e).busy = true) : inPort e 0x24 = .halt .stall := if_pos h

theorem inPort_hsOut_yields {e : Eng} (hb : (selected e).busy = false) (h : ((selected e).squeeze && (selected e).defined)
    = true) :
    inPort e 0x24 = .val ⟨BitVec.ofNat 32 (leNat ((selected e).outAt (selected e).squeezed 4)), (selected e).tagged⟩
      (e.setHash ((selected e).squeezeBy 4)) :=
  (if_neg (by rw [show e.hash = selected e from rfl, hb]; nofun)).trans (if_pos h)

theorem inPort_hsOut_free {e : Eng} (hb : (selected e).busy = false) (h : ((selected e).squeeze && (selected e).defined)
    = false) :
    inPort e 0x24 = .val ⟨BitVec.ofNat 32 (leNat (fresh e.s 4)), (selected e).tagged⟩ { e with s := drawn e.s 4 } :=
  (if_neg (by rw [show e.hash = selected e from rfl, hb]; nofun)).trans
    (if_neg (by rw [show e.hash = selected e from rfl, h]; nofun))

theorem State.run?_updRun_some {s : State} {j : Nat} {f : Run → Run} {r : Run} (h : s.run? j = some r)
    (hf : ∀ x, (f x).job = x.job) : (s.updRun j f).run? j = some (f r) := by
  rw [State.run?_updRun s j f hf, h]
  rfl

/-- Settles O38: a control word sets its fields, clears, then pads; a stall leaves the state. -/
theorem aladaHash : Obligations.AladaHash := by
  unfold Obligations.AladaHash
  intro e j h
  refine ⟨fun x rest hd => ?_, fun hd => ⟨fun h => ⟨?_, ?_⟩, fun h => ?_, fun h => ?_⟩,
    fun he => ⟨fun hb => ?_, fun hb hl => ⟨fun hs hf => ?_, fun hs => ?_⟩⟩, fun s k r g hr hg => ?_⟩
  · intro v f g g'
    have hg : h.write v = g' := HashState.write_eq h v
    refine ⟨fun p hp he => ?_, fun p hp he => ⟨fun hs => ?_, fun hs hb => ?_, fun hs hb => ?_⟩⟩
    · obtain ⟨hw, hn⟩ := exec_hsCtrl he hd p hp
      refine ⟨fun hv => ⟨fun hok => ?_, fun h0 hf => ?_⟩, hn⟩
      · have hi : outIllegal (popped e rest) 0x21 v = false := by
          rw [outIllegal_ctrl]
          cases h0 : bit v 0 with
          | false => rfl
          | true => rw [funcOk_eq.2 (hok h0)]; rfl
        refine ⟨fun ht hb => ?_, fun ht hb => ?_, fun ht => ?_⟩
        · have hb' : ¬(selected e).busy = true := fun he => Bool.false_ne_true (hb.symm.trans he)
          rw [hw hv, doOut_ok hd rfl ((outPort_ctrl hi ht).trans (if_neg hb'))]
          rw [show (selected e).write x.v.toNat = g' from hg]
          rfl
        · rw [Stalls, hw hv, doOut_error hd rfl ((outPort_ctrl hi ht).trans (if_pos hb)), settle_stall]
        · rw [Halts, hw hv, doOut_error hd rfl (outPort_taint hi ht rfl)]
          rfl
      · have hi : outIllegal (popped e rest) 0x21 v = true := by
          rw [outIllegal_ctrl, h0, Bool.true_and, Bool.not_eq_true']
          exact Bool.eq_false_iff.2 fun hk => by have := funcOk_eq.1 hk; omega
        rw [Halts, hw hv, doOut_error hd rfl (outPort_illegal hi)]
        rfl
    · obtain ⟨q, hq, hk, hx⟩ := exec_hsAbsorb p hp he
      have hi : outIllegal (popped e rest) q v = true := by
        obtain ⟨h2, h3⟩ := outIllegal_absorb (popped e rest) v
        rcases hq with ⟨rfl, -⟩ | ⟨rfl, -⟩
        · exact h2.trans hs
        · exact h3.trans hs
      rw [Halts, hx, doOut_error hd hk (outPort_illegal hi)]
      rfl
    · obtain ⟨q, hq, hk, hx⟩ := exec_hsAbsorb p hp he
      rw [Stalls, hx, doOut_error hd hk ((outPort_absorb hq hs).trans (if_pos hb)), settle_stall]
    · obtain ⟨q, hq, hk, hx⟩ := exec_hsAbsorb p hp he
      refine ⟨h.absorb (leBytes p.2.2 v) x.tag, ?_, rfl, rfl, rfl, rfl, rfl, hs⟩
      rw [hx, doOut_ok hd hk ((outPort_absorb hq hs).trans (if_neg (by rw [show (selected e).busy = false from hb]; nofun)))]
      rfl
  · exact exec_halts (w := outW 0x21) h rfl (by simp only [doOutIf, doOut, hd]; rfl) Halt.noConfusion
  · exact exec_halts (w := outW 0x21) h rfl (by simp only [doOutIf, doOut, hd]; rfl) Halt.noConfusion
  · exact exec_halts (w := outW 0x22) h rfl (by simp only [doOut, hd]; rfl) Halt.noConfusion
  · exact exec_halts (w := outW 0x23) h rfl (by simp only [doOut, hd]; rfl) Halt.noConfusion
  · exact exec_stalls (w := inW 0x24) he rfl (by simp only [doIn, inPort_hsOut_busy hb])
  · have hv := inPort_hsOut_yields hb (show (h.squeeze && h.defined) = true by rw [hs, hf]; rfl)
    refine ⟨h.squeezeBy 4, ?_, rfl, rfl, rfl⟩
    exact exec_go (w := inW 0x24) he rfl (doIn_pushes hv hl)
  · have hv := inPort_hsOut_free hb hs
    rw [exec_engineStep (w := inW 0x24) (f := fun e => doIn e 0x24) he rfl, doIn_pushes hv hl]
    rfl
  · refine ⟨_, _, rfl, State.run?_updRun_some hr fun _ => rfl, ?_, fun i hi => ?_, rfl, rfl, rfl⟩
    · simp [hg]
    · simp [Ne.symm hi]

end Sys2Proof.Machine
end

section
/-! The vector units -/

namespace Sys2Proof.Machine
open Sys2Proof.Claims

/-! ### Elements of a register -/

theorem packElems_lt (w : Nat) (es : List Nat) : packElems w es < 2 ^ (w * es.length) := by
  induction es with
  | nil => simp [packElems]
  | cons x xs ih =>
    have hx : x % 2 ^ w < 2 ^ w := Nat.mod_lt _ (Nat.two_pow_pos w)
    calc x % 2 ^ w + 2 ^ w * packElems w xs < 2 ^ w + 2 ^ w * packElems w xs := by omega
      _ = 2 ^ w * (packElems w xs + 1) := by ring
      _ ≤ 2 ^ w * 2 ^ (w * xs.length) := Nat.mul_le_mul_left _ ih
      _ = 2 ^ (w * (x :: xs).length) := by rw [← Nat.pow_add, List.length_cons, Nat.mul_succ, Nat.add_comm]

/-- The element at a place of a packed list. -/
theorem packElems_elem (w : Nat) (es : List Nat) (i : Nat) :
    packElems w es / 2 ^ (w * i) % 2 ^ w = es.getD i 0 % 2 ^ w := by
  induction es generalizing i with
  | nil => simp [packElems]
  | cons x xs ih =>
    cases i with
    | zero => simp [packElems]
    | succ i =>
      have hx : (x % 2 ^ w + 2 ^ w * packElems w xs) / 2 ^ w = packElems w xs := by
        rw [Nat.add_mul_div_left _ _ (Nat.two_pow_pos w), Nat.div_eq_of_lt (Nat.mod_lt _ (Nat.two_pow_pos w)), Nat.zero_add]
      rw [packElems, Nat.mul_succ, Nat.add_comm (w * i), Nat.pow_add, ← Nat.div_div_eq_div_mul, hx, ih]
      rfl

theorem elem_svPack {w : Nat} {es : List Nat} (hw : w * es.length = 128) (i : Nat) :
    Claims.elem w (svPack w es) i = es.getD i 0 % 2 ^ w := by
  have hlt : packElems w es < 2 ^ 128 := hw ▸ packElems_lt w es
  rw [Claims.elem, svPack, BitVec.toNat_ofNat, Nat.mod_eq_of_lt hlt, packElems_elem]

/-- The widths that VCFG can set divide a register. -/
theorem svWidth_mul (k : Nat) : 8 * 2 ^ (k % 4) * (128 / (8 * 2 ^ (k % 4))) = 128 := by
  have hk : k % 4 < 4 := Nat.mod_lt k (by decide)
  interval_cases k % 4 <;> rfl

theorem svElems_length (w : Nat) (v : BitVec 128) : (svElems w v).length = 128 / w := by
  simp [svElems]

theorem svElems_getD {w i : Nat} {v : BitVec 128} (hi : i < 128 / w) : (svElems w v).getD i 0 = Claims.elem w v i := by
  simp [svElems, List.getD, List.getElem?_range hi, Claims.elem]

theorem elem_lt (w : Nat) (v : BitVec 128) (i : Nat) : Claims.elem w v i < 2 ^ w := Nat.mod_lt _ (Nat.two_pow_pos w)

section
variable {w : Nat} (hw : w * (128 / w) = 128)
include hw

/-- Packing lists of the right length gives a register with these elements. -/
theorem svPack_eachElem {es : List Nat} {f : Nat → Nat} (hl : es.length = 128 / w)
    (hf : ∀ i, i < 128 / w → es.getD i 0 % 2 ^ w = f i % 2 ^ w) : EachElem w (svPack w es) f := fun i hi => by
  rw [elem_svPack (hl ▸ hw), hf i hi]

theorem zipWith_eachElem (a b : BitVec 128) {g f : Nat → Nat → Nat} (hg : ∀ x y, y < 2 ^ w → g x y % 2 ^ w = f x y % 2 ^ w) :
    EachElem w (svPack w (List.zipWith g (svElems w a) (svElems w b))) fun i => f (Claims.elem w a i) (Claims.elem w b i) := by
  refine svPack_eachElem hw (by simp [svElems_length]) fun i hi => ?_
  have h1 : (List.zipWith g (svElems w a) (svElems w b)).getD i 0 = g (Claims.elem w a i) (Claims.elem w b i) := by
    simp [svElems, List.getD, List.getElem?_range hi, Claims.elem]
  rw [h1, hg _ _ (elem_lt w b i)]

theorem map_eachElem (a : BitVec 128) {g f : Nat → Nat} (hg : ∀ x, g x % 2 ^ w = f x % 2 ^ w) :
    EachElem w (svPack w ((svElems w a).map g)) fun i => f (Claims.elem w a i) := by
  refine svPack_eachElem hw (by simp [svElems_length]) fun i hi => ?_
  have h1 : ((svElems w a).map g).getD i 0 = g (Claims.elem w a i) := by
    simp [svElems, List.getD, List.getElem?_range hi, Claims.elem]
  rw [h1, hg]

theorem set_eachElem (a : BitVec 128) (k v : Nat) :
    EachElem w (svPack w ((svElems w a).set k (v % 2 ^ w))) fun i => if i = k then v else Claims.elem w a i := by
  refine svPack_eachElem hw (by simp [svElems_length]) fun i hi => ?_
  by_cases h : i = k
  · subst h
    simp [List.getD, svElems_length, hi]
  · rw [if_neg h, ← svElems_getD hi]
    simp [List.getD, List.getElem?_set_ne (Ne.symm h)]

end

/-! ### SV instructions -/

section
variable {e : Eng} {j op d x : Nat} {c : Instr} {f : Eng → Ev} (hd : d < 16) (hx : x < 16)
  (h : OnEngine e j (0x8000 + op * 256 + d * 16 + x)) (hc : exec c e.s = .next (engineStep e.s j (svW op d x) fun e => doSv e f))
include hd hx h hc

/-- With no captured fault an SV instruction runs with its unit awake. -/
theorem exec_doSv (hf : e.r.cur.vfaultElem.toNat < 2 ^ 31) : exec c e.s = .next (settle e.s e.j e.r (f e.wakeSv)) := by
  have hm : e.r.cur.vfaultValid = false := (Arch.vfaultValid_eq _).trans (decide_eq_false (Nat.not_le.2 hf))
  rw [exec_engineStep (w := svW op d x) (by rwa [svW, Nat.mod_eq_of_lt hd, Nat.mod_eq_of_lt hx]) hc, doSv, hm]
  rfl

theorem halts_doSv_fault (hf : 2 ^ 31 ≤ e.r.cur.vfaultElem.toNat) : Halts c e .illegal := by
  have hm : e.r.cur.vfaultValid = true := (Arch.vfaultValid_eq _).trans (decide_eq_true hf)
  exact exec_halts (w := svW op d x) (by rwa [svW, Nat.mod_eq_of_lt hd, Nat.mod_eq_of_lt hx]) hc (if_pos hm) Halt.noConfusion

theorem halts_doSv {y : Halt} (hf : e.r.cur.vfaultElem.toNat < 2 ^ 31) (hy : f e.wakeSv = .halt y) (hs : y ≠ .stall) :
    Halts c e y := by
  rw [Halts, exec_doSv hd hx h hc hf, hy]
  cases y with
  | stall => exact absurd rfl hs
  | _ => rfl

theorem exec_doSv_go {a : Arch} (hf : e.r.cur.vfaultElem.toNat < 2 ^ 31) (hy : f e.wakeSv = (e.wakeSv.arch fun _ => a).go) :
    exec c e.s = .next (svRan e a) := by
  rw [exec_doSv hd hx h hc hf, hy]
  rfl

end

/-- What every row of `svAll` is. -/
theorem exec_sv : ∀ p ∈ svAll, ∀ j d x, ∃ f, ∀ s, exec (p.1 j d x) s = .next (engineStep s j
    (svW p.2 d x) fun e => doSv e f) := by
  simp only [svAll, List.forall_mem_cons]
  refine ⟨fun _ _ _ => ⟨_, fun _ => rfl⟩, fun _ _ _ => ⟨_, fun _ => rfl⟩, fun _ _ _ => ⟨_, fun _ => rfl⟩,
    fun _ _ _ => ⟨_, fun _ => rfl⟩, fun _ _ _ => ⟨_, fun _ => rfl⟩, fun _ _ _ => ⟨_, fun _ => rfl⟩, fun _ _ _ => ⟨_,
        fun _ => rfl⟩,
    fun _ _ _ => ⟨_, fun _ => rfl⟩, fun _ _ _ => ⟨_, fun _ => rfl⟩, fun _ _ _ => ⟨_, fun _ => rfl⟩, fun _ _ _ => ⟨_,
        fun _ => rfl⟩,
    fun _ _ _ => ⟨_, fun _ => rfl⟩, fun _ _ _ => ⟨_, fun _ => rfl⟩, fun _ _ _ => ⟨_, fun _ => rfl⟩, fun _ _ _ => ⟨_,
        fun _ => rfl⟩,
    fun _ _ _ => ⟨_, fun _ => rfl⟩, fun _ _ _ => ⟨_, fun _ => rfl⟩, fun _ _ _ => ⟨_, fun _ => rfl⟩, fun _ _ _ => ⟨_,
        fun _ => rfl⟩,
    fun _ _ _ => ⟨_, fun _ => rfl⟩, fun _ h => nomatch h⟩

theorem exec_svTakers : ∀ p ∈ svTakers, ∀ j d x, ∃ f, (∀ s, exec (p.1 j d x) s = .next (engineStep s j
    (svW p.2 d x) fun e => doSv e f))
    ∧ ∀ e : Eng, e.r.cur.ds = [] → f e = .halt .stack := by
  simp only [svTakers, List.forall_mem_cons]
  refine ⟨fun _ _ _ => ⟨_, fun _ => rfl, fun e hd => ?_⟩, fun _ _ _ => ⟨_, fun _ => rfl, fun e hd => ?_⟩,
    fun _ _ _ => ⟨_, fun _ => rfl, fun e hd => ?_⟩, fun _ _ _ => ⟨_, fun _ => rfl, fun e hd => ?_⟩,
    fun _ _ _ => ⟨_, fun _ => rfl, fun e hd => ?_⟩, fun _ _ _ => ⟨_, fun _ => rfl, fun e hd => ?_⟩,
    fun _ _ _ => ⟨_, fun _ => rfl, fun e hd => ?_⟩, fun _ h => nomatch h⟩
  all_goals simp only [svShift, hd]

theorem exec_svPairs : ∀ p ∈ svPairs, ∃ g : Nat → Nat → Nat → Nat, (∀ w x y, y < 2 ^ w → g w x y % 2 ^ w = p.2.2 w x y % 2 ^ w)
    ∧ ∀ j d x s, exec (p.1 j d x) s = .next (engineStep s j (svW p.2.1 d x) fun e => doSv e fun e => svMap2 e (d % 16)
        (x % 16) g) := by
  simp only [svPairs, List.forall_mem_cons]
  exact ⟨⟨_, fun _ _ _ _ => rfl, fun _ _ _ _ => rfl⟩,
    ⟨_, fun w x y hy => congrArg (· % 2 ^ w) (Nat.add_sub_assoc hy.le x), fun _ _ _ _ => rfl⟩,
    ⟨_, fun _ _ _ _ => rfl, fun _ _ _ _ => rfl⟩, fun _ h => nomatch h⟩

theorem exec_svShifts : ∀ p ∈ svShifts, ∃ g : Nat → Nat → Nat → Nat, (∀ w x n, g w x n % 2 ^ w = p.2.2 w x n % 2 ^ w)
    ∧ ∀ j d x s, exec (p.1 j d x) s = .next (engineStep s j (svW p.2.1 d x) fun e => doSv e fun e => svShift e (d % 16) g) := by
  simp only [svShifts, List.forall_mem_cons]
  exact ⟨⟨_, fun _ _ _ => rfl, fun _ _ _ _ => rfl⟩, ⟨_, fun _ _ _ => rfl, fun _ _ _ _ => rfl⟩,
    ⟨_, fun w x n => Nat.mod_add_mod _ _ _, fun _ _ _ _ => rfl⟩, fun _ h => nomatch h⟩

theorem exec_svWholes : ∀ p ∈ svWholes, ∀ j d x s,
    exec (p.1 j d x) s = .next (engineStep s j (svW p.2.1 d x) fun e => doSv e fun e => svWhole e (d % 16) (x % 16) p.2.2) := by
  simp only [svWholes, List.forall_mem_cons]
  exact ⟨fun _ _ _ _ => rfl, fun _ _ _ _ => rfl, fun _ _ _ _ => rfl, fun _ _ _ _ => rfl, fun _ _ _ _ => rfl, fun _ _ _ _ => rfl,
    fun _ h => nomatch h⟩

theorem svByte_eq (v : BitVec 128) (i : Nat) : svByte v i = Claims.elem 8 v i := by
  rw [svByte, Claims.elem, Nat.pow_mul]
  norm_num

theorem shuffle_elem (a b : BitVec 128) {i : Nat} (hi : i < 16) :
    Claims.elem 8 (svPack 8 ((List.range 16).map fun i => svByte a (svByte b i % 16))) i
      = Claims.elem 8 a (Claims.elem 8 b i % 16) := by
  have h : ((List.range 16).map fun i => svByte a (svByte b i % 16)).getD i 0 = Claims.elem 8 a (Claims.elem 8 b i % 16) := by
    simp only [List.getD, List.getElem?_map, List.getElem?_range hi, svByte_eq]
    rfl
  rw [elem_svPack (by simp), h, Nat.mod_eq_of_lt (elem_lt 8 a _)]

/-! A load, a store, and the moves between the stack and an element. -/

section
variable {e : Eng} {j d x : Nat} {a : TWord} {rest : List TWord} (hd : d < 16) (hx : x < 16)
  (h : OnEngine e j (0x8000 + 0x00 * 256 + d * 16 + x)) (hf : e.r.cur.vfaultElem.toNat < 2 ^ 31) (hs : e.r.cur.ds = a :: rest)
include hd hx h hf hs

theorem halts_svLd_taint (ht : a.tag = true) : Halts (.svLd j d x) e .taint := by
  refine halts_doSv hd hx h rfl hf ?_ Halt.noConfusion
  simp only [show e.wakeSv.r.cur.ds = a :: rest from hs, ht, if_true]

variable (ht : a.tag = false)
include ht

theorem halts_svLd_misaligned (ha : a.v.toNat % 16 ≠ 0) : Halts (.svLd j d x) e .access := by
  refine halts_doSv hd hx h rfl hf ?_ Halt.noConfusion
  simp only [show e.wakeSv.r.cur.ds = a :: rest from hs, ht, bne_iff_ne.2 ha]
  rfl

variable (ha : a.v.toNat % 16 = 0)
include ha

theorem exec_svLd {b : Bytes} {t : Bool} (hr : dRead e a.v.toNat 16 = .ok (b, t)) :
    exec (.svLd j d x) e.s = .next (svRan e { svSet e.r.cur d (BitVec.ofNat 128 (leNat b)) t with ds := rest }) := by
  refine exec_doSv_go hd hx h rfl hf ?_
  simp only [show e.wakeSv.r.cur.ds = a :: rest from hs, ht, ha, show dRead e.wakeSv a.v.toNat 16 = _ from hr,
      Nat.mod_eq_of_lt hd]
  rfl

theorem halts_svLd_read (hr : dRead e a.v.toNat 16 = .error .access) : Halts (.svLd j d x) e .access := by
  refine halts_doSv hd hx h rfl hf ?_ Halt.noConfusion
  simp only [show e.wakeSv.r.cur.ds = a :: rest from hs, ht, ha, show dRead e.wakeSv a.v.toNat 16 = _ from hr]
  rfl

theorem stalls_svLd (hr : dRead e a.v.toNat 16 = .error .stall) : Stalls (.svLd j d x) e := by
  rw [Stalls, exec_doSv (op := 0x00) hd hx h rfl hf]
  simp only [show e.wakeSv.r.cur.ds = a :: rest from hs, ht, ha, show dRead e.wakeSv a.v.toNat 16 = _ from hr]
  rfl

end

section
variable {e : Eng} {j x : Nat} {a : TWord} {rest : List TWord} (hx : x < 16) (h : OnEngine e j (0x8000 + 0x01 * 256 + 0 * 16 + x))
  (hf : e.r.cur.vfaultElem.toNat < 2 ^ 31) (hs : e.r.cur.ds = a :: rest)
include hx h hf hs

theorem halts_svSt_taint (ht : a.tag = true ∨ (svAt e.r.cur x).tag = true ∧ regionOf a.v.toNat = some .out) :
    Halts (.svSt j 0 x) e .taint := by
  refine halts_doSv (by decide) hx h rfl hf ?_ Halt.noConfusion
  have hT : (a.tag || ((svAt e.r.cur x).tag && regionOf a.v.toNat == some .out)) = true := by
    rcases ht with ht | ⟨ht, hr⟩
    · rw [ht]
      rfl
    · rw [ht, hr, Bool.or_eq_true]
      exact .inr rfl
  simp only [show e.wakeSv.r.cur.ds = a :: rest from hs, Nat.mod_eq_of_lt hx]
  exact if_pos hT

variable (ht : a.tag = false) (hy : (svAt e.r.cur x).tag = true → regionOf a.v.toNat ≠ some .out)
include ht hy

omit hx h hf hs in
theorem svSt_untainted : (a.tag || ((svAt e.r.cur x).tag && regionOf a.v.toNat == some .out)) = false := by
  rw [ht, Bool.false_or, Bool.and_eq_false_imp]
  exact fun h => beq_eq_false_iff_ne.2 (hy h)

theorem halts_svSt_misaligned (ha : a.v.toNat % 16 ≠ 0) : Halts (.svSt j 0 x) e .access := by
  refine halts_doSv (by decide) hx h rfl hf ?_ Halt.noConfusion
  simp only [show e.wakeSv.r.cur.ds = a :: rest from hs, Nat.mod_eq_of_lt hx,
    show e.wakeSv.r.cur.svReg x = svAt e.r.cur x from rfl, svSt_untainted ht hy, bne_iff_ne.2 ha]
  rfl

variable (ha : a.v.toNat % 16 = 0)
include ha

theorem exec_svSt {f : Arch → Arch}
    (hw : dWrite e.wakeSv a.v.toNat (leBytes 16 (svAt e.r.cur x).v.toNat) (svAt e.r.cur x).tag = .ok (e.wakeSv.arch f)) :
    exec (.svSt j 0 x) e.s = .next (svRan e { f e.r.cur with ds := rest }) := by
  have hT := svSt_untainted ht hy
  rw [exec_doSv (op := 0x01) (d := 0) (by decide) hx h rfl hf]
  simp only [show e.wakeSv.r.cur.ds = a :: rest from hs, Nat.mod_eq_of_lt hx,
    show e.wakeSv.r.cur.svReg x = svAt e.r.cur x from rfl, hT, ha, hw]
  rfl

theorem halts_svSt_write
    (hw : dWrite e.wakeSv a.v.toNat (leBytes 16 (svAt e.r.cur x).v.toNat) (svAt e.r.cur x).tag = .error .access) :
    Halts (.svSt j 0 x) e .access := by
  have hT := svSt_untainted ht hy
  refine halts_doSv (by decide) hx h rfl hf ?_ Halt.noConfusion
  simp only [show e.wakeSv.r.cur.ds = a :: rest from hs, Nat.mod_eq_of_lt hx,
    show e.wakeSv.r.cur.svReg x = svAt e.r.cur x from rfl, hT, ha, hw]
  rfl

end

section
variable {e : Eng} {j d x : Nat} {i : TWord} {rest : List TWord} (hd : d < 16) (hx : x < 16)
  (h : OnEngine e j (0x8000 + 0x12 * 256 + d * 16 + x)) (hf : e.r.cur.vfaultElem.toNat < 2 ^ 31) (hs : e.r.cur.ds = i :: rest)
include hd hx h hf hs

theorem halts_svTos_index (hi : 128 / e.r.cur.svWidth ≤ i.v.toNat) : Halts (.svTos j d x) e .illegal := by
  refine halts_doSv hd hx h rfl hf ?_ Halt.noConfusion
  simp only [show e.wakeSv.r.cur.ds = i :: rest from hs]
  exact if_pos hi

variable (hi : i.v.toNat < 128 / e.r.cur.svWidth)
include hi

theorem halts_svTos_taint (ht : i.tag = true) : Halts (.svTos j d x) e .taint := by
  refine halts_doSv hd hx h rfl hf ?_ Halt.noConfusion
  simp only [show e.wakeSv.r.cur.ds = i :: rest from hs]
  refine (if_neg (Nat.not_le.2 hi)).trans (onStack_error ?_)
  simp only [show e.wakeSv.r.cur.ds = i :: rest from hs, ht, if_true]

variable (ht : i.tag = false)
include ht

/-- What TOS pushes: a 64-bit element in two words. -/
theorem svTos_eq {st : List TWord} (hst : st = if e.r.cur.svWidth = 64 then
      ⟨BitVec.ofNat 32 (Claims.elem e.r.cur.svWidth (svAt e.r.cur x).v i.v.toNat / 2 ^ 32), (svAt e.r.cur x).tag⟩
        :: ⟨BitVec.ofNat 32 (Claims.elem e.r.cur.svWidth (svAt e.r.cur x).v i.v.toNat), (svAt e.r.cur x).tag⟩ :: rest
      else ⟨BitVec.ofNat 32 (Claims.elem e.r.cur.svWidth (svAt e.r.cur x).v i.v.toNat), (svAt e.r.cur x).tag⟩ :: rest) :
    exec (.svTos j d x) e.s = .next (settle e.s e.j e.r (onStack e.wakeSv fun _ => .ok st)) := by
  rw [exec_doSv (op := 0x12) hd hx h rfl hf]
  simp only [show e.wakeSv.r.cur.ds = i :: rest from hs]
  refine congrArg (fun v => Host.Outcome.next (settle e.s e.j e.r v)) ((if_neg (Nat.not_le.2 hi)).trans ?_)
  simp only [onStack, show e.wakeSv.r.cur.ds = i :: rest from hs, ht, Nat.mod_eq_of_lt hx,
    show e.wakeSv.r.cur.svReg x = svAt e.r.cur x from rfl, show e.wakeSv.r.cur.svWidth = e.r.cur.svWidth from rfl,
    svElems_getD hi, hst]
  by_cases hw : e.r.cur.svWidth = 64
  · simp only [if_pos hw]
    rfl
  · simp only [if_neg hw]
    rfl

end

section
variable {e : Eng} {j d x : Nat} {i : TWord} {st : List TWord} (hd : d < 16) (hx : x < 16)
  (h : OnEngine e j (0x8000 + 0x13 * 256 + d * 16 + x)) (hf : e.r.cur.vfaultElem.toNat < 2 ^ 31) (hs : e.r.cur.ds = i :: st)
include hd hx h hf hs

theorem halts_svFroms_index (hi : 128 / e.r.cur.svWidth ≤ i.v.toNat) : Halts (.svFroms j d x) e .illegal := by
  refine halts_doSv hd hx h rfl hf ?_ Halt.noConfusion
  simp only [show e.wakeSv.r.cur.ds = i :: st from hs]
  exact if_pos hi

variable (hi : i.v.toNat < 128 / e.r.cur.svWidth)
include hi

theorem halts_svFroms_short (hl : st.length < if e.r.cur.svWidth = 64 then 2 else 1) : Halts (.svFroms j d x) e .stack := by
  refine halts_doSv hd hx h rfl hf ?_ Halt.noConfusion
  simp only [show e.wakeSv.r.cur.ds = i :: st from hs, show e.wakeSv.r.cur.svWidth = e.r.cur.svWidth from rfl]
  refine (if_neg (Nat.not_le.2 hi)).trans ?_
  by_cases hw : e.r.cur.svWidth = 64
  · simp only [if_pos hw] at hl ⊢
    match st, hl with
    | [], _ => rfl
    | [_], _ => rfl
  · simp only [if_neg hw] at hl ⊢
    match st, hl with
    | [], _ => rfl

theorem halts_svFroms_taint (hl : (if e.r.cur.svWidth = 64 then 2 else 1) ≤ st.length) (ht : i.tag = true) :
    Halts (.svFroms j d x) e .taint := by
  refine halts_doSv hd hx h rfl hf ?_ Halt.noConfusion
  simp only [show e.wakeSv.r.cur.ds = i :: st from hs, show e.wakeSv.r.cur.svWidth = e.r.cur.svWidth from rfl]
  refine (if_neg (Nat.not_le.2 hi)).trans ?_
  by_cases hw : e.r.cur.svWidth = 64
  · simp only [if_pos hw] at hl ⊢
    match st, hl with
    | _ :: _ :: _, _ => exact if_pos ht
  · simp only [if_neg hw] at hl ⊢
    match st, hl with
    | _ :: _, _ => exact if_pos ht

variable (ht : i.tag = false)
include ht

theorem exec_svFroms_narrow (hw : e.r.cur.svWidth ≠ 64) {v : TWord} {rest : List TWord} (hst : st = v :: rest) :
    exec (.svFroms j d x) e.s = .next (svRan e { svSet e.r.cur d (svPack e.r.cur.svWidth
      ((svElems e.r.cur.svWidth (svAt e.r.cur d).v).set i.v.toNat (v.v.toNat % 2 ^ e.r.cur.svWidth)))
      ((svAt e.r.cur d).tag || v.tag) with ds := rest }) := by
  subst hst
  refine exec_doSv_go hd hx h rfl hf ?_
  simp only [show e.wakeSv.r.cur.ds = i :: v :: rest from hs, show e.wakeSv.r.cur.svWidth = e.r.cur.svWidth from rfl,
    Nat.mod_eq_of_lt hd]
  exact (if_neg (Nat.not_le.2 hi)).trans ((if_neg hw).trans (if_neg (by rw [ht]; nofun)))

theorem exec_svFroms_wide (hw : e.r.cur.svWidth = 64) {hi' lo : TWord} {rest : List TWord} (hst : st = hi' :: lo :: rest) :
    exec (.svFroms j d x) e.s = .next (svRan e { svSet e.r.cur d (svPack e.r.cur.svWidth
      ((svElems e.r.cur.svWidth (svAt e.r.cur d).v).set i.v.toNat
        ((hi'.v.toNat * 2 ^ 32 + lo.v.toNat) % 2 ^ e.r.cur.svWidth)))
      ((svAt e.r.cur d).tag || (hi'.tag || lo.tag)) with ds := rest }) := by
  subst hst
  refine exec_doSv_go hd hx h rfl hf ?_
  simp only [show e.wakeSv.r.cur.ds = i :: hi' :: lo :: rest from hs, show e.wakeSv.r.cur.svWidth = e.r.cur.svWidth from rfl,
    Nat.mod_eq_of_lt hd]
  exact (if_neg (Nat.not_le.2 hi)).trans ((if_pos hw).trans (if_neg (by rw [ht]; nofun)))

end

/-- Settles O41, from what packing elements into a register and reading them back gives. -/
theorem shortVectorUnit : Obligations.ShortVectorUnit := by
  unfold Obligations.ShortVectorUnit
  refine ⟨fun e j d x hd hx => ⟨fun p hp h hf => ?_, fun p hp h hf hs => ?_, fun h hf hs => ?_⟩, fun e j d x hd hx hf => ?_,
    fun e j d x hd hx hf => ?_⟩
  · obtain ⟨f, hc⟩ := exec_sv p hp j d x
    exact halts_doSv_fault hd hx h (hc e.s) hf
  · obtain ⟨f, hc, hn⟩ := exec_svTakers p hp j d x
    exact halts_doSv hd hx h (hc e.s) hf (hn e.wakeSv hs) Halt.noConfusion
  · refine halts_doSv (op := 0x01) (d := 0) (by decide) hx h rfl hf ?_ Halt.noConfusion
    simp only [show e.wakeSv.r.cur.ds = [] from hs]
    rfl
  · intro c w a b code
    have hw : w * (128 / w) = 128 := svWidth_mul _
    have hd' := Nat.mod_eq_of_lt hd
    have hx' := Nat.mod_eq_of_lt hx
    refine ⟨fun p hp h => ?_, fun p hp h n rest hs => ?_, fun p hp h => ?_, fun h n rest hs => ?_, fun h => ?_,
      fun h => ⟨fun h0 => ?_, fun h0 => ?_⟩, fun h => ?_⟩
    · obtain ⟨g, hg, hc⟩ := exec_svPairs p hp
      refine ⟨_, exec_doSv_go hd hx h (hc j d x e.s) hf ?_, zipWith_eachElem hw a.v b.v (hg w)⟩
      rw [hd', hx']
      rfl
    · obtain ⟨g, hg, hc⟩ := exec_svShifts p hp
      have hs : e.wakeSv.r.cur.ds = n :: rest := hs
      refine ⟨fun ht => ⟨_, exec_doSv_go hd hx h (hc j d x e.s) hf ?_, map_eachElem hw a.v fun v => hg w v (n.v.toNat % w)⟩,
        fun ht => halts_doSv hd hx h (hc j d x e.s) hf ?_ Halt.noConfusion⟩
      · simp only [svShift, hs, ht, hd']
        rfl
      · simp only [svShift, hs, ht, if_true]
    · refine exec_doSv_go hd hx h (exec_svWholes p hp j d x e.s) hf ?_
      rw [hd', hx']
      rfl
    · have hs : e.wakeSv.r.cur.ds = n :: rest := hs
      refine exec_doSv_go hd hx h rfl hf ?_
      simp only [hs, hd', hx', ite_not]
      rfl
    · refine exec_doSv_go hd hx h rfl hf ?_
      rw [hd', hx']
      rfl
    · refine exec_doSv_go hd hx h rfl hf ?_
      rw [hd', hx', h0]
      rfl
    · refine halts_doSv hd hx h rfl hf ?_ Halt.noConfusion
      rw [hx']
      exact if_pos (by simpa using h0)
    · refine ⟨_, exec_doSv_go hd hx h rfl hf ?_, fun i hi => shuffle_elem a.v b.v hi⟩
      rw [hd', hx']
      rfl
  · intro c w code
    have hw : w * (128 / w) = 128 := svWidth_mul _
    have hd' := Nat.mod_eq_of_lt hd
    have hx' := Nat.mod_eq_of_lt hx
    refine ⟨fun h a rest hs => ⟨fun ht ha => ⟨fun b t hr => ?_, fun hr => ?_, fun hr => ?_⟩, fun ht => ?_, fun ht ha => ?_⟩,
      fun h a rest hs => ?_, fun h i rest hs hl => ?_, fun h hw64 i rest hs hl hi ht => ?_, fun h i st hs => ?_⟩
    · exact exec_svLd hd hx h hf hs ht ha hr
    · exact halts_svLd_read hd hx h hf hs ht ha hr
    · exact stalls_svLd hd hx h hf hs ht ha hr
    · exact halts_svLd_taint hd hx h hf hs ht
    · exact halts_svLd_misaligned hd hx h hf hs ht ha
    · intro y o out
      have hr : regionOf a.v.toNat = some .out ↔ out :=
        ⟨fun hr => not_not.1 fun ho => regionOf_ne_out (by simp only [out] at ho; omega) hr, fun ho => regionOf_out ho.1 ho.2⟩
      have hb := leBytes_length 16 y.v.toNat
      have hn : 16 ∣ 4096 := ⟨256, rfl⟩
      refine ⟨fun h0 => ?_, fun h0 ht => ?_, fun h0 ht hy => ?_⟩
      · refine halts_doSv hd hx h rfl hf ?_ Halt.noConfusion
        rw [hd']
        exact if_pos (bne_iff_ne.2 h0)
      · subst h0
        exact halts_svSt_taint hx h hf hs (ht.imp id fun ⟨hy, ho⟩ => ⟨hy, hr.2 ho⟩)
      · subst h0
        have hy' : (svAt e.r.cur x).tag = true → regionOf a.v.toNat ≠ some .out := fun hyt he => hy hyt (hr.1 he)
        refine ⟨halts_svSt_misaligned hx h hf hs ht hy', fun ha => ⟨fun hlt => ?_, fun ho hle => ?_, fun ho hle => ?_,
            fun hge ho => ?_⟩⟩
        · exact exec_svSt hx h hf hs ht hy' ha (dWrite_work (e := e.wakeSv) ha hn hb hlt y.tag)
        · have hyf : y.tag = false := Bool.eq_false_iff.2 fun hyt => hy hyt ho
          exact exec_svSt hx h hf hs ht hy' ha (dWrite_out (e := e.wakeSv) ha hn hb hyf ho.1 ho.2 hle)
        · have hyf : y.tag = false := Bool.eq_false_iff.2 fun hyt => hy hyt ho
          exact halts_svSt_write hx h hf hs ht hy' ha (dWrite_beyond ha hn hb hyf ho.1 ho.2 hle)
        · refine halts_svSt_write hx h hf hs ht hy' ha (dWrite_other ha hn hb hge ?_ _)
          simp only [out] at ho
          omega
    · intro v t
      refine ⟨fun hi => halts_svTos_index hd hx h hf hs hi, fun hi ht => halts_svTos_taint hd hx h hf hs hi ht, fun hi ht => ?_⟩
      refine (svTos_eq hd hx h hf hs hi ht rfl).trans (congrArg (fun v => Host.Outcome.next (settle e.s e.j e.r v))
        (onStack_ok (e := e.wakeSv) (g := fun _ => .ok _) rfl ?_))
      split <;> simp only [List.length_cons] <;> omega
    · have hw64 : e.r.cur.svWidth = 64 := hw64
      have hi : i.v.toNat < 128 / e.r.cur.svWidth := by rw [hw64]; exact hi
      refine (svTos_eq hd hx h hf hs hi ht (if_pos hw64).symm).trans (congrArg (fun v => Host.Outcome.next (settle e.s e.j e.r v))
        (onStack_full (e := e.wakeSv) (g := fun _ => .ok _) rfl ?_))
      simp only [List.length_cons]
      omega
    · refine ⟨fun hi => halts_svFroms_index hd hx h hf hs hi, fun hi hl => halts_svFroms_short hd hx h hf hs hi hl,
        fun hi hl ht => halts_svFroms_taint hd hx h hf hs hi hl ht, fun hw64 v rest hst hi ht => ?_,
        fun hw64 hi' lo rest hst hi ht => ?_⟩
      · exact ⟨_, exec_svFroms_narrow hd hx h hf hs hi ht (ne_of_lt hw64) hst, set_eachElem hw _ _ _⟩
      · have hi : i.v.toNat < 128 / e.r.cur.svWidth := by rw [show e.r.cur.svWidth = 64 from hw64]; exact hi
        exact ⟨_, exec_svFroms_wide hd hx h hf hs hi ht hw64 hst, set_eachElem hw _ _ _⟩

/-! ### Groups of LV registers -/

theorem flatMap_range_map {α : Type} (g p : Nat) (f : Nat → Nat → α) :
    (List.range g).flatMap (fun k => (List.range p).map (f k)) = (List.range (g * p)).map fun i => f (i / p) (i % p) := by
  induction g with
  | zero => simp
  | succ g ih =>
    rw [List.range_succ, List.flatMap_append, ih, Nat.succ_mul, List.range_add, List.map_append]
    refine congrArg _ ?_
    simp only [List.flatMap_cons, List.flatMap_nil, List.append_nil, List.map_map]
    refine List.map_congr_left fun i hi => ?_
    have hi := List.mem_range.1 hi
    have hp : 0 < p := by omega
    simp only [Function.comp_apply, Nat.mul_add_div hp, Nat.mul_comm g p, Nat.div_eq_of_lt hi, Nat.add_zero, Nat.mul_add_mod,
      Nat.mod_eq_of_lt hi]

theorem foldl_set_getElem? {α : Type} (n d : Nat) (g : Nat → α) (l : List α) (i : Nat) :
    ((List.range n).foldl (fun rs k => rs.set (d + k) (g k)) l)[i]?
      = if d ≤ i ∧ i < d + n ∧ i < l.length then some (g (i - d)) else l[i]? := by
  have hlen : ∀ n, ((List.range n).foldl (fun rs k => rs.set (d + k) (g k)) l).length = l.length := fun n => by
    induction n with
    | zero => rfl
    | succ n ih => simp [List.range_succ, ih]
  induction n with
  | zero => simp; omega
  | succ n ih =>
    rw [List.range_succ, List.foldl_append, List.foldl_cons, List.foldl_nil, List.getElem?_set, ih, hlen]
    by_cases h : d + n = i
    · subst h
      by_cases hl : d + n < l.length
      · simp [hl]
      · simp [hl]
    · rw [if_neg h]
      refine if_congr ?_ rfl rfl
      omega

/-- The widths that VCFG can set divide a register, but for 11. -/
theorem Arch.lvWidth_cases {a : Arch} (h : a.lvWidth ≠ 0) : a.lvWidth = 16 ∨ a.lvWidth = 32 ∨ a.lvWidth = 64 := by
  have hb : bits a.vcfg.toNat 11 10 < 4 := Nat.mod_lt _ (by decide)
  revert h
  unfold Arch.lvWidth
  generalize bits a.vcfg.toNat 11 10 = b at hb
  interval_cases b <;> simp

theorem lvWidth_mul {w : Nat} (h : w = 16 ∨ w = 32 ∨ w = 64) : w * (2048 / w) = 2048 := by
  rcases h with rfl | rfl | rfl <;> rfl

theorem Arch.group_le {a : Arch} {d : Nat} (h : d % a.group = 0) (hd : d < 8) : d + a.group ≤ 8 := by
  have hb : bits a.vcfg.toNat 5 4 < 4 := Nat.mod_lt _ (by decide)
  revert h
  unfold Arch.group
  generalize bits a.vcfg.toNat 5 4 = b at hb
  interval_cases b <;> simp <;> omega

theorem Arch.lvCount_eq {a : Arch} (h : a.lvWidth ≠ 0) : a.lvCount = a.group * (2048 / a.lvWidth) := by
  unfold Arch.lvCount
  rcases Arch.lvWidth_cases h with h | h | h <;> rw [h] <;> omega

/-- An LV register as a number. -/
def lvNat (a : Arch) (r : Nat) : Nat := (a.lv.getD r { v := 0, tag := false }).v.toNat

theorem lvElems_eq (a : Arch) (l : Nat) : lvElems a l = (List.range (a.group * (2048 / a.lvWidth))).map fun i =>
    lvNat a (l + i / (2048 / a.lvWidth)) / 2 ^ (a.lvWidth * (i % (2048 / a.lvWidth))) % 2 ^ a.lvWidth :=
  flatMap_range_map a.group (2048 / a.lvWidth) fun k i => lvNat a (l + k) / 2 ^ (a.lvWidth * i) % 2 ^ a.lvWidth

theorem lvElems_length (a : Arch) (l : Nat) : (lvElems a l).length = a.group * (2048 / a.lvWidth) := by
  simp [lvElems_eq]

theorem lvElems_getD_lt (a : Arch) (l i : Nat) : (lvElems a l).getD i 0 < 2 ^ a.lvWidth := by
  rw [lvElems_eq, List.getD]
  cases h : ((List.range (a.group * (2048 / a.lvWidth))).map fun i =>
    lvNat a (l + i / (2048 / a.lvWidth)) / 2 ^ (a.lvWidth * (i % (2048 / a.lvWidth))) % 2 ^ a.lvWidth)[i]? with
  | none => exact Nat.two_pow_pos _
  | some x =>
    obtain ⟨k, -, rfl⟩ := List.mem_map.1 (List.mem_of_getElem? h)
    exact Nat.mod_lt _ (Nat.two_pow_pos _)

theorem putElems_lv (a : Arch) (d : Nat) (es : List Nat) (tag : Bool) (r : Nat) : (putElems a d es tag).lv[r]?
    = if d ≤ r ∧ r < d + a.group ∧ r < a.lv.length then some
        { v := BitVec.ofNat 2048 (packElems a.lvWidth ((es.drop (2048 / a.lvWidth * (r - d))).take (2048 / a.lvWidth))),
          tag := tag }
      else a.lv[r]? :=
  foldl_set_getElem? a.group d _ a.lv r

/-- The elements put into a group are those that stand in it. -/
theorem lvElems_putElems {a : Arch} {d : Nat} {es : List Nat} {tag : Bool} (hl : a.lv.length = 8) (hw : a.lvWidth ≠ 0)
    (hg : d % a.group = 0) (hd : d < 8) {i : Nat} (hi : i < a.lvCount) :
    (lvElems (putElems a d es tag) d)[i]? = some (es.getD i 0 % 2 ^ a.lvWidth) := by
  have hgl := Arch.group_le hg hd
  have hm := lvWidth_mul (Arch.lvWidth_cases hw)
  rw [Arch.lvCount_eq hw] at hi
  rw [lvElems_eq, List.getElem?_map]
  change Option.map _ (List.range (a.group * (2048 / a.lvWidth)))[i]? = _
  rw [List.getElem?_range hi]
  change some (lvNat (putElems a d es tag) (d + i / (2048 / a.lvWidth)) / 2 ^ (a.lvWidth * (i % (2048 / a.lvWidth)))
    % 2 ^ a.lvWidth) = _
  generalize hp : 2048 / a.lvWidth = p at *
  have hp0 : 0 < p := Nat.pos_of_ne_zero fun h => by simp [h] at hm
  have hk : i / p < a.group := Nat.div_lt_of_lt_mul (by rwa [Nat.mul_comm])
  have hr : (putElems a d es tag).lv[d + i / p]?
      = some { v := BitVec.ofNat 2048 (packElems a.lvWidth ((es.drop (p * (i / p))).take p)), tag := tag } := by
    rw [putElems_lv, if_pos ⟨Nat.le_add_right _ _, Nat.add_lt_add_left hk d, hl ▸ (Nat.add_lt_add_left hk d).trans_le hgl⟩, hp,
      Nat.add_sub_cancel_left]
  have hlt : packElems a.lvWidth ((es.drop (p * (i / p))).take p) < 2 ^ 2048 :=
    lt_of_lt_of_le (packElems_lt _ _) (Nat.pow_le_pow_right (by decide)
      (hm ▸ Nat.mul_le_mul_left _ (List.length_take_le _ _)))
  have hn : lvNat (putElems a d es tag) (d + i / p) = packElems a.lvWidth ((es.drop (p * (i / p))).take p) := by
    rw [lvNat, List.getD, hr]
    exact (BitVec.toNat_ofNat _ _).trans (Nat.mod_eq_of_lt hlt)
  have he : ((es.drop (p * (i / p))).take p).getD (i % p) 0 = es.getD i 0 := by
    rw [List.getD, List.getD, List.getElem?_take_of_lt (Nat.mod_lt _ hp0), List.getElem?_drop, Nat.div_add_mod]
  rw [hn, packElems_elem, he]

/-- What an LV instruction writes: the elements below ELEMS are new, and the others of the group stay. -/
theorem lvElems_lvPut {c : Arch} {d : Nat} {es : List Nat} (tag : Bool) (hl : c.lv.length = 8) (hw : c.lvWidth ≠ 0)
    (hg : d % c.group = 0) (hd : d < 8) (hn : c.lvN ≤ es.length) {i : Nat} (hi : i < c.lvCount) :
    (lvElems (lvPut c d es tag) d)[i]? = some (if i < c.lvN then es.getD i 0 % 2 ^ c.lvWidth else (lvElems c d).getD i 0) := by
  rw [lvPut, lvElems_putElems hl hw hg hd hi]
  have ht : (es.take c.lvN).length = c.lvN := by simp [hn]
  by_cases h : i < c.lvN
  · rw [if_pos h, List.getD, List.getElem?_append_left (by rwa [ht]), List.getElem?_take_of_lt h, ← List.getD]
  · have he : (es.take c.lvN ++ (lvElems c d).drop c.lvN).getD i 0 = (lvElems c d).getD i 0 := by
      rw [List.getD, List.getElem?_append_right (by rw [ht]; omega), ht, List.getElem?_drop, Nat.add_sub_of_le (Nat.not_lt.1 h),
        ← List.getD]
    rw [if_neg h, he, Nat.mod_eq_of_lt (lvElems_getD_lt c d i)]

/-! ### LV instructions -/

theorem doLv_runs {e : Eng} {b : Bool} {gs : List Nat} {f : Eng → Ev} (h : lvIllegal e.r.cur b gs = false) :
    doLv e b gs f = f e.wakeLv := if_neg (by rw [h]; nofun)

theorem doLv_illegal {e : Eng} {b : Bool} {gs : List Nat} {f : Eng → Ev} (h : lvIllegal e.r.cur b gs = true) :
    doLv e b gs f = .halt .illegal := if_pos h

/-- An LV instruction of the given word is ILLEGAL, or passes the checks of its groups and, with `b`, of VQ. -/
def LvRow (c : Nat → Nat → Nat → Nat → Instr) (op j m d x : Nat) (b : Bool) (gs : List Nat) : Prop :=
  ∃ f, (∀ s, exec (c j m d x) s = .next (engineStep s j (lvW op m d x) f))
    ∧ ∀ e, f e = .halt .illegal ∨ ∃ g, f e = doLv e b gs g

theorem doLv_congr {e : Eng} {b : Bool} {gs gs' : List Nat} {f : Eng → Ev} (h : lvIllegal e.r.cur b gs
    = lvIllegal e.r.cur b gs') :
    doLv e b gs f = doLv e b gs' f := by
  rw [doLv, doLv, h]

section
variable {j m d x : Nat} (hd : d < 8)
include hd

theorem lvLd_row : LvRow .lvLd 0x00 j m d x false [d] :=
  ⟨_, fun _ => rfl, fun _ => .inr ⟨_, by rw [Nat.mod_eq_of_lt hd]⟩⟩

theorem lvBfly_row : LvRow .lvBfly 0x08 j m d x true [d] := by
  refine ⟨_, fun _ => rfl, fun e => ?_⟩
  rw [Nat.mod_eq_of_lt hd]
  split
  · exact .inl rfl
  · exact .inr ⟨_, rfl⟩

theorem lvComp_row : LvRow .lvComp 0x09 j m d x true [d] := by
  refine ⟨_, fun _ => rfl, fun e => ?_⟩
  rw [Nat.mod_eq_of_lt hd]
  split
  · exact .inl rfl
  · exact .inr ⟨_, rfl⟩

theorem lvSamu_row : LvRow .lvSamu 0x0A j m d x true [d] :=
  ⟨_, fun _ => rfl, fun _ => .inr ⟨_, by rw [Nat.mod_eq_of_lt hd]⟩⟩

theorem lvSamcbd_row : LvRow .lvSamcbd 0x0B j m d x false [d] :=
  ⟨_, fun _ => rfl, fun _ => .inr ⟨_, by rw [Nat.mod_eq_of_lt hd]⟩⟩

theorem lvZero_row : LvRow .lvZero 0x12 j m d x false [d] := by
  refine ⟨_, fun _ => rfl, fun e => ?_⟩
  rw [Nat.mod_eq_of_lt hd]
  split
  · exact .inl rfl
  · exact .inr ⟨_, rfl⟩

variable (hx : x < 8)
include hx

theorem lvSt_row : LvRow .lvSt 0x01 j m d x false [d, x] := by
  refine ⟨_, fun _ => rfl, fun e => ?_⟩
  rw [Nat.mod_eq_of_lt hd, Nat.mod_eq_of_lt hx]
  by_cases h0 : d = 0
  · subst h0
    have hg : lvIllegal e.r.cur false [x] = lvIllegal e.r.cur false [0, x] := by simp [lvIllegal]
    exact .inr ⟨_, (if_neg (by decide)).trans (doLv_congr hg)⟩
  · exact .inl (if_pos (bne_iff_ne.2 h0))

theorem lvGather_row : LvRow .lvGather 0x02 j m d x false [d, x] :=
  ⟨_, fun _ => rfl, fun _ => .inr ⟨_, by rw [Nat.mod_eq_of_lt hd, Nat.mod_eq_of_lt hx]⟩⟩

theorem lvScatter_row : LvRow .lvScatter 0x03 j m d x false [d, x] :=
  ⟨_, fun _ => rfl, fun _ => .inr ⟨_, by rw [Nat.mod_eq_of_lt hd, Nat.mod_eq_of_lt hx]⟩⟩

theorem lvAddm_row : LvRow .lvAddm 0x04 j m d x true [d, x] :=
  ⟨_, fun _ => rfl, fun _ => .inr ⟨_, by rw [Nat.mod_eq_of_lt hd, Nat.mod_eq_of_lt hx]; rfl⟩⟩

theorem lvSubm_row : LvRow .lvSubm 0x05 j m d x true [d, x] :=
  ⟨_, fun _ => rfl, fun _ => .inr ⟨_, by rw [Nat.mod_eq_of_lt hd, Nat.mod_eq_of_lt hx]; rfl⟩⟩

theorem lvMulm_row : LvRow .lvMulm 0x06 j m d x true [d, x] :=
  ⟨_, fun _ => rfl, fun _ => .inr ⟨_, by rw [Nat.mod_eq_of_lt hd, Nat.mod_eq_of_lt hx]; rfl⟩⟩

theorem lvPmul_row : LvRow .lvPmul 0x07 j m d x true [d, x] := by
  refine ⟨_, fun _ => rfl, fun e => ?_⟩
  rw [Nat.mod_eq_of_lt hd, Nat.mod_eq_of_lt hx]
  split
  · exact .inr ⟨_, rfl⟩
  · exact .inr ⟨_, rfl⟩
  · exact .inl rfl

theorem lvCmov_row : LvRow .lvCmov 0x0C j m d x false [d, x] :=
  ⟨_, fun _ => rfl, fun _ => .inr ⟨_, by rw [Nat.mod_eq_of_lt hd, Nat.mod_eq_of_lt hx]⟩⟩

theorem lvPerm_row : LvRow .lvPerm 0x0D j m d x false [d, x] :=
  ⟨_, fun _ => rfl, fun _ => .inr ⟨_, by rw [Nat.mod_eq_of_lt hd, Nat.mod_eq_of_lt hx]⟩⟩

theorem lvSad_row : LvRow (fun j m d x => .lvSad j m d x .none) 0x0E j m d x false [d, x] :=
  ⟨_, fun _ => rfl, fun _ => .inr ⟨_, by rw [Nat.mod_eq_of_lt hd, Nat.mod_eq_of_lt hx]; exact if_neg (by decide)⟩⟩

theorem lvSsd_row : LvRow .lvSsd 0x0F j m d x false [d, x] :=
  ⟨_, fun _ => rfl, fun _ => .inr ⟨_, by rw [Nat.mod_eq_of_lt hd, Nat.mod_eq_of_lt hx]; rfl⟩⟩

theorem lvOvb_row : LvRow .lvOvb 0x10 j m d x true [d, x] :=
  ⟨_, fun _ => rfl, fun _ => .inr ⟨_, by rw [Nat.mod_eq_of_lt hd, Nat.mod_eq_of_lt hx]⟩⟩

theorem lvMov_row : LvRow .lvMov 0x11 j m d x false [d, x] :=
  ⟨_, fun _ => rfl, fun _ => .inr ⟨_, by rw [Nat.mod_eq_of_lt hd, Nat.mod_eq_of_lt hx]⟩⟩

theorem lvLogic_row : LvRow .lvLogic 0x13 j m d x false [d, x] :=
  ⟨_, fun _ => rfl, fun _ => .inr ⟨_, by rw [Nat.mod_eq_of_lt hd, Nat.mod_eq_of_lt hx]⟩⟩

theorem lvAdd_row : LvRow .lvAdd 0x14 j m d x false [d, x] := by
  refine ⟨_, fun _ => rfl, fun e => ?_⟩
  rw [Nat.mod_eq_of_lt hd, Nat.mod_eq_of_lt hx]
  split
  · exact .inl rfl
  · exact .inr ⟨_, rfl⟩

/-- Every row checks the group that LD names. -/
theorem lvAll_rows : ∀ p ∈ lvAll, ∃ b gs, d ∈ gs ∧ LvRow p.1 p.2 j m d x b gs := by
  have h1 := List.mem_singleton_self d
  have h2 : d ∈ [d, x] := List.mem_cons_self
  simp only [lvAll, List.forall_mem_cons]
  exact ⟨⟨_, _, h1, lvLd_row hd⟩, ⟨_, _, h2, lvSt_row hd hx⟩, ⟨_, _, h2, lvGather_row hd hx⟩, ⟨_, _, h2, lvScatter_row hd hx⟩,
    ⟨_, _, h2, lvAddm_row hd hx⟩, ⟨_, _, h2, lvSubm_row hd hx⟩, ⟨_, _, h2, lvMulm_row hd hx⟩, ⟨_, _, h2, lvPmul_row hd hx⟩,
    ⟨_, _, h1, lvBfly_row hd⟩, ⟨_, _, h1, lvComp_row hd⟩, ⟨_, _, h1, lvSamu_row hd⟩, ⟨_, _, h1, lvSamcbd_row hd⟩,
    ⟨_, _, h2, lvCmov_row hd hx⟩, ⟨_, _, h2, lvPerm_row hd hx⟩, ⟨_, _, h2, lvSad_row hd hx⟩, ⟨_, _, h2, lvSsd_row hd hx⟩,
    ⟨_, _, h2, lvOvb_row hd hx⟩, ⟨_, _, h2, lvMov_row hd hx⟩, ⟨_, _, h1, lvZero_row hd⟩, ⟨_, _, h2, lvLogic_row hd hx⟩,
    ⟨_, _, h2, lvAdd_row hd hx⟩, fun _ h => nomatch h⟩

theorem lvModular_rows : ∀ p ∈ lvModular, ∃ gs, LvRow p.1 p.2 j m d x true gs := by
  simp only [lvModular, List.forall_mem_cons]
  exact ⟨⟨_, lvAddm_row hd hx⟩, ⟨_, lvSubm_row hd hx⟩, ⟨_, lvMulm_row hd hx⟩, ⟨_, lvPmul_row hd hx⟩, ⟨_, lvBfly_row hd⟩,
    ⟨_, lvComp_row hd⟩, ⟨_, lvSamu_row hd⟩, ⟨_, lvOvb_row hd hx⟩, fun _ h => nomatch h⟩

theorem lvTwo_rows : ∀ p ∈ lvTwo, ∃ b, LvRow p.1 p.2 j m d x b [d, x] := by
  simp only [lvTwo, List.forall_mem_cons]
  exact ⟨⟨_, lvSt_row hd hx⟩, ⟨_, lvGather_row hd hx⟩, ⟨_, lvScatter_row hd hx⟩, ⟨_, lvAddm_row hd hx⟩, ⟨_, lvSubm_row hd hx⟩,
    ⟨_, lvMulm_row hd hx⟩, ⟨_, lvPmul_row hd hx⟩, ⟨_, lvCmov_row hd hx⟩, ⟨_, lvPerm_row hd hx⟩, ⟨_, lvSad_row hd hx⟩,
    ⟨_, lvSsd_row hd hx⟩, ⟨_, lvOvb_row hd hx⟩, ⟨_, lvMov_row hd hx⟩, ⟨_, lvLogic_row hd hx⟩, ⟨_, lvAdd_row hd hx⟩,
    fun _ h => nomatch h⟩

end

section
variable {e : Eng} {j op m d x : Nat} (hm : m < 4) (hd : d < 8) (hx : x < 8) (h : OnEngine e j (lvCode op m d x))
include hm hd hx h

theorem onEngine_lvW : OnEngine e j (lvW op m d x) := by
  rwa [lvW, Nat.mod_eq_of_lt hm, Nat.mod_eq_of_lt hd, Nat.mod_eq_of_lt hx]

/-- A row whose checks fail is ILLEGAL. -/
theorem halts_lvRow {c : Nat → Nat → Nat → Nat → Instr} {b : Bool} {gs : List Nat} (hr : LvRow c op j m d x b gs)
    (hi : lvIllegal e.r.cur b gs = true) : Halts (c j m d x) e .illegal := by
  obtain ⟨f, hc, hf⟩ := hr
  refine exec_halts (onEngine_lvW hm hd hx h) (hc e.s) ?_ Halt.noConfusion
  rcases hf e with hf | ⟨g, hg⟩
  · exact hf
  · exact hg.trans (doLv_illegal hi)

section
variable {c : Instr} {f : Eng → Ev} (hc : exec c e.s = .next (engineStep e.s j (lvW op m d x) f))
include hc

theorem halts_lv {y : Halt} (hf : f e = .halt y) (hy : y ≠ .stall) : Halts c e y :=
  exec_halts (onEngine_lvW hm hd hx h) hc hf hy

theorem exec_lv {a : Arch} (hf : f e = (e.wakeLv.arch fun _ => a).go) : exec c e.s = .next (lvRan e a) := by
  rw [exec_engineStep (onEngine_lvW hm hd hx h) hc, hf]
  rfl

end
end

theorem popPlain_empty {e : Eng} {f : Eng → Nat → Ev} (hs : e.r.cur.ds = []) : popPlain e f = .halt .stack := by
  simp only [popPlain, hs]

theorem popPlain_taint {e : Eng} {f : Eng → Nat → Ev} {n : TWord} {rest : List TWord} (hs : e.r.cur.ds = n :: rest)
    (ht : n.tag = true) : popPlain e f = .halt .taint := by
  simp only [popPlain, hs, ht, if_true]

theorem popPlain_pops {e : Eng} {f : Eng → Nat → Ev} {n : TWord} {rest : List TWord} (hs : e.r.cur.ds = n :: rest)
    (ht : n.tag = false) : popPlain e f = f (popped e rest) n.v.toNat := by
  simp only [popPlain, hs, ht]
  rfl

/-- What makes every LV instruction of LD ILLEGAL. -/
theorem lvIllegal_of_fault {c : Arch} {d : Nat} {b : Bool} {gs : List Nat} (hg : d ∈ gs)
    (h : 2 ^ 31 ≤ c.vfaultElem.toNat ∨ c.lvWidth = 0 ∨ d % c.group ≠ 0 ∨ c.lvCount < c.vcfg.toNat / 65536
      ∨ (c.vstart ≠ 0 ∧ c.pc ≠ c.vfaultElem.toNat / 2 ^ 13 % 2 ^ 13)) : lvIllegal c b gs = true := by
  have hb : bits c.vcfg.toNat 31 16 = c.vcfg.toNat / 65536 := Nat.mod_eq_of_lt (by have := c.vcfg.isLt; omega)
  simp only [lvIllegal, Bool.or_eq_true, hb]
  rcases h with h | h | h | h | ⟨h, h'⟩
  · exact .inl (.inl (.inl (.inl (.inl ((Arch.vfaultValid_eq c).trans (decide_eq_true h))))))
  · exact .inl (.inl (.inl (.inl (.inr (beq_iff_eq.2 h)))))
  · exact .inl (.inl (.inr (List.any_eq_true.2 ⟨d, hg, bne_iff_ne.2 h⟩)))
  · exact .inl (.inr (decide_eq_true h))
  · exact .inl (.inl (.inl (.inr (Bool.and_eq_true_iff.2 ⟨bne_iff_ne.2 h, bne_iff_ne.2 h'⟩))))

theorem lvIllegal_of_vq {c : Arch} {gs : List Nat} (h : c.vq.toNat % 2 = 0 ∨ c.vq.toNat < 3 ∨ (c.lvWidth = 16
    ∧ 2 ^ 15 ≤ c.vq.toNat)
    ∨ (c.lvWidth = 32 ∧ 2 ^ 31 ≤ c.vq.toNat) ∨ c.lvWidth = 64) : lvIllegal c true gs = true := by
  have hq : c.vqOk = false := by
    rcases h with h | h | ⟨h, h'⟩ | ⟨h, h'⟩ | h
    · simp [Arch.vqOk, h]
    · simp [Arch.vqOk, Nat.not_le.2 h]
    · simp [Arch.vqOk, h]
      omega
    · simp [Arch.vqOk, h]
      omega
    · simp [Arch.vqOk, h]
  simp [lvIllegal, hq]

theorem lvIllegal_of_group {c : Arch} {x : Nat} {b : Bool} {gs : List Nat} (hg : x ∈ gs) (h : x % c.group ≠ 0) :
    lvIllegal c b gs = true := by
  simp only [lvIllegal, Bool.or_eq_true]
  exact .inl (.inl (.inr (List.any_eq_true.2 ⟨x, hg, bne_iff_ne.2 h⟩)))

/-- Settles O42: every row passes the checks of its groups first, and a group holds the elements put into it. -/
theorem longVectorRules : Obligations.LongVectorRules := by
  unfold Obligations.LongVectorRules
  refine ⟨fun c d es tag hl hw hg hd hn he => ⟨fun i hi => lvElems_lvPut tag hl hw hg hd he hi, fun r hr => ?_, rfl, rfl, rfl⟩,
    fun e j m d x hm hd hx => ?_⟩
  · exact (putElems_lv _ _ _ _ r).trans (if_neg (by omega))
  · intro c q
    have hd' := Nat.mod_eq_of_lt hd
    have hx' := Nat.mod_eq_of_lt hx
    refine ⟨fun p hp h hf => ?_, fun p hp h hf => ?_, fun p hp h hf => ?_, fun hs => ⟨fun hi => ⟨fun h => ?_, fun h => ?_⟩,
      fun hi h2 => ⟨fun h => ?_, fun h => ?_⟩, fun hi h => ?_, fun hi => ⟨fun h => ?_, fun h => ?_, fun h => ?_, fun h => ?_⟩⟩⟩
    · obtain ⟨b, gs, hg, hr⟩ := lvAll_rows hd hx p hp
      exact halts_lvRow hm hd hx h hr (lvIllegal_of_fault hg hf)
    · obtain ⟨gs, hr⟩ := lvModular_rows hd hx p hp
      exact halts_lvRow hm hd hx h hr (lvIllegal_of_vq hf)
    · obtain ⟨b, hr⟩ := lvTwo_rows hd hx p hp
      exact halts_lvRow hm hd hx h hr (lvIllegal_of_group (by simp) hf)
    · refine halts_lv hm hd hx h rfl ?_ Halt.noConfusion
      exact (doLv_runs (hd'.symm ▸ hi)).trans (popPlain_empty hs)
    · refine halts_lv hm hd hx h rfl ?_ Halt.noConfusion
      exact (doLv_runs (hd'.symm ▸ hi)).trans (popPlain_empty hs)
    · refine halts_lv hm hd hx h rfl ?_ Halt.noConfusion
      exact (if_neg (by omega)).trans ((doLv_runs (hd'.symm ▸ hi)).trans (popPlain_empty hs))
    · refine halts_lv hm hd hx h rfl ?_ Halt.noConfusion
      exact (if_neg (by omega)).trans ((doLv_runs (hd'.symm ▸ hi)).trans (popPlain_empty hs))
    · refine halts_lv hm (by decide) hx h rfl ?_ Halt.noConfusion
      exact (if_neg (by decide)).trans ((doLv_runs (hx'.symm ▸ hi)).trans (popPlain_empty hs))
    · refine halts_lv hm hd hx h rfl ?_ Halt.noConfusion
      rw [hd', hx', doLv_runs hi]
      simp only [doGather, show e.wakeLv.r.cur.ds = [] from hs]
    · refine halts_lv hm hd hx h rfl ?_ Halt.noConfusion
      rw [hd', hx', doLv_runs hi]
      simp only [doScatter, show e.wakeLv.r.cur.ds = [] from hs]
    · refine halts_lv hm hd hx h rfl ?_ Halt.noConfusion
      rw [hd', hx', doLv_runs hi]
      simp only [show e.wakeLv.r.cur.ds = [] from hs]
    · refine halts_lv (by decide) hd hx h rfl ?_ Halt.noConfusion
      rw [hd', hx', doLv_runs hi]
      exact (if_pos rfl).trans (popPlain_empty hs)

/-! ### LV arithmetic -/

/-- VQ of an instruction that works modulo it is at least 3. -/
theorem vq_of_legal {c : Arch} {gs : List Nat} (h : lvIllegal c true gs = false) : 3 ≤ c.vq.toNat := by
  have hq : c.vqOk = true := by simpa using (Bool.or_eq_false_iff.1 h).2
  simp only [Arch.vqOk, Bool.and_eq_true, decide_eq_true_eq] at hq
  exact hq.1.2

theorem lvDone_awake (e : Eng) (d : Nat) (es : List Nat) (t : Bool) :
    lvDone e.wakeLv d es t = (e.wakeLv.arch fun _ => lvPut e.r.cur d es t).go := rfl

theorem lvDone_popped (e : Eng) (rest : List TWord) (d : Nat) (es : List Nat) (t : Bool) :
    lvDone (popped e.wakeLv rest) d es t = (e.wakeLv.arch fun _ => { lvPut e.r.cur d es t with ds := rest }).go := rfl

section
variable {e : Eng} {j m d x : Nat} (hm : m < 4) (hd : d < 8) (hx : x < 8)
include hm hd hx

theorem exec_modulars (hi : lvIllegal e.r.cur true [d, x] = false) : ∀ p ∈ modulars, OnEngine e j (lvCode p.2.1 m d x) →
    exec (p.1 j m d x) e.s = .next (lvRan e (lvPut e.r.cur d (List.zipWith (fun a b =>
      p.2.2 e.r.cur.vq.toNat (a % e.r.cur.vq.toNat) (b % e.r.cur.vq.toNat)) (lvElems e.r.cur d) (lvElems e.r.cur x))
      (groupTag e.r.cur d || groupTag e.r.cur x))) := by
  have hq : 0 < e.r.cur.vq.toNat := by have := vq_of_legal hi; omega
  have hs : ∀ a b : Nat, a % e.r.cur.vq.toNat + e.r.cur.vq.toNat - b % e.r.cur.vq.toNat
      = a % e.r.cur.vq.toNat + (e.r.cur.vq.toNat - b % e.r.cur.vq.toNat) := fun a b =>
    Nat.add_sub_assoc (Nat.mod_lt b hq).le _
  simp only [modulars, List.forall_mem_cons]
  refine ⟨fun h => exec_lv hm hd hx h rfl ?_, fun h => exec_lv hm hd hx h rfl ?_, fun h => exec_lv hm hd hx h rfl ?_,
    fun _ h => nomatch h⟩
  · rw [Nat.mod_eq_of_lt hd, Nat.mod_eq_of_lt hx, lvMod2, doLv_runs hi]
    rfl
  · rw [Nat.mod_eq_of_lt hd, Nat.mod_eq_of_lt hx, lvMod2, doLv_runs hi]
    simp only [← hs]
    rfl
  · rw [Nat.mod_eq_of_lt hd, Nat.mod_eq_of_lt hx, lvMod2, doLv_runs hi]
    rfl

theorem exec_lvPmul (hi : lvIllegal e.r.cur true [d, x] = false) (h : OnEngine e j (lvCode 0x07 m d x)) :
    (m = 0 → exec (.lvPmul j m d x) e.s = .next (lvRan e (lvPut e.r.cur d (List.zipWith (fun a b =>
      a % e.r.cur.vq.toNat * (b % e.r.cur.vq.toNat) % e.r.cur.vq.toNat) (lvElems e.r.cur d) (lvElems e.r.cur x))
      (groupTag e.r.cur d || groupTag e.r.cur x))))
    ∧ (m = 1 → exec (.lvPmul j m d x) e.s = .next (lvRan e (lvPut e.r.cur d (pairProducts e.r.cur.vq.toNat (lvElems e.r.cur d)
      (lvElems e.r.cur x) e.r.cur.lvN) (groupTag e.r.cur d || groupTag e.r.cur x))))
    ∧ (1 < m → Halts (.lvPmul j m d x) e .illegal) := by
  refine ⟨fun h0 => ?_, fun h1 => ?_, fun h2 => ?_⟩
  · subst h0
    refine exec_lv hm hd hx h rfl ?_
    rw [Nat.mod_eq_of_lt hd, Nat.mod_eq_of_lt hx]
    exact doLv_runs hi
  · subst h1
    refine exec_lv hm hd hx h rfl ?_
    rw [Nat.mod_eq_of_lt hd, Nat.mod_eq_of_lt hx]
    exact doLv_runs hi
  · refine halts_lv hm hd hx h rfl ?_ Halt.noConfusion
    interval_cases m <;> rfl

theorem exec_lvOvb (hi : lvIllegal e.r.cur true [d, x] = false) (h : OnEngine e j (lvCode 0x10 m d x)) :
    exec (.lvOvb j m d x) e.s = .next (lvRan e (lvPut e.r.cur d ((lvElems e.r.cur x).map fun b =>
      if e.r.cur.vbound.toNat ≤ min (b % e.r.cur.vq.toNat) (e.r.cur.vq.toNat - b % e.r.cur.vq.toNat) then 1 else 0)
      (groupTag e.r.cur x))) := by
  refine exec_lv hm hd hx h rfl ?_
  rw [Nat.mod_eq_of_lt hd, Nat.mod_eq_of_lt hx, doLv_runs hi]
  simp only [b2n, decide_eq_true_eq]
  rfl

section
variable (hi : lvIllegal e.r.cur true [d] = false) {n : TWord} {rest : List TWord} (hs : e.r.cur.ds = n :: rest)
include hi hs

theorem halts_lvComp (h : OnEngine e j (lvCode 0x09 m d x)) : (1 < m → Halts (.lvComp j m d x) e .illegal)
    ∧ (m < 2 → n.tag = true → Halts (.lvComp j m d x) e .taint) := by
  refine ⟨fun h2 => halts_lv hm hd hx h rfl (if_pos (by omega)) Halt.noConfusion,
    fun h2 ht => halts_lv hm hd hx h rfl ?_ Halt.noConfusion⟩
  rw [Nat.mod_eq_of_lt hd, if_neg (by omega), doLv_runs hi]
  exact popPlain_taint hs ht

theorem exec_lvComp (h : OnEngine e j (lvCode 0x09 m d x)) (h2 : m < 2) (ht : n.tag = false) : exec (.lvComp j m d x) e.s
    = .next (lvRan e { lvPut e.r.cur d ((lvElems e.r.cur d).map fun a =>
        compElem m e.r.cur.lvWidth e.r.cur.vq.toNat n.v.toNat (a % e.r.cur.vq.toNat))
            (groupTag e.r.cur d) with ds := rest }) := by
  refine exec_lv hm hd hx h rfl ?_
  rw [Nat.mod_eq_of_lt hd, Nat.mod_eq_of_lt hm, if_neg (by omega), doLv_runs hi]
  exact popPlain_pops (e := e.wakeLv) hs ht

theorem halts_lvBfly (h : OnEngine e j (lvCode 0x08 m d x)) : (1 < m → Halts (.lvBfly j m d x) e .illegal)
    ∧ (m < 2 → n.tag = true → Halts (.lvBfly j m d x) e .taint) := by
  refine ⟨fun h2 => halts_lv hm hd hx h rfl (if_pos (by omega)) Halt.noConfusion,
    fun h2 ht => halts_lv hm hd hx h rfl ?_ Halt.noConfusion⟩
  rw [Nat.mod_eq_of_lt hd, if_neg (by omega), doLv_runs hi]
  exact popPlain_taint hs ht

variable (h : OnEngine e j (lvCode 0x08 m d x)) (h2 : m < 2) (ht : n.tag = false)
include h h2 ht

/-- BFLY ends as the read of its twiddles does. -/
theorem exec_lvBfly_reads {v : Ev} (hv : (match tableBytes e e.r.cur.vtw.toNat (e.r.cur.lvN * (e.r.cur.lvWidth / 8)) with
      | .error y => Ev.halt y
      | .ok (b, t) => lvDone (popped e.wakeLv rest) d ((List.range e.r.cur.lvN).map fun i => Config.bflyElem m n.v.toNat
          e.r.cur.vq.toNat (((lvElems e.r.cur d).take e.r.cur.lvN).map (· % e.r.cur.vq.toNat))
          (elemsOfBytes e.r.cur.lvWidth b e.r.cur.lvN) i % e.r.cur.vq.toNat) (groupTag e.r.cur d || t)) = v) :
    exec (.lvBfly j m d x) e.s = .next (settle e.s e.j e.r v) := by
  rw [exec_engineStep (onEngine_lvW hm hd hx h) rfl, if_neg (by omega), Nat.mod_eq_of_lt hd, doLv_runs hi,
    popPlain_pops (e := e.wakeLv) hs ht, ← hv, Nat.mod_eq_of_lt hm]
  rfl

theorem exec_lvBfly {b : Bytes} {t : Bool}
    (hb : tableBytes e e.r.cur.vtw.toNat (e.r.cur.lvN * (e.r.cur.lvWidth / 8)) = .ok (b, t)) :
    ∃ es : List Nat, es.length = e.r.cur.lvN ∧ (∀ y ∈ es, y < e.r.cur.vq.toNat)
      ∧ exec (.lvBfly j m d x) e.s = .next (lvRan e { lvPut e.r.cur d es (groupTag e.r.cur d || t) with ds := rest }) := by
  have hq : 0 < e.r.cur.vq.toNat := by have := vq_of_legal hi; omega
  refine ⟨(List.range e.r.cur.lvN).map fun i => Config.bflyElem m n.v.toNat e.r.cur.vq.toNat
    (((lvElems e.r.cur d).take e.r.cur.lvN).map (· % e.r.cur.vq.toNat)) (elemsOfBytes e.r.cur.lvWidth b e.r.cur.lvN) i
      % e.r.cur.vq.toNat, by simp, fun y hy => ?_, ?_⟩
  · obtain ⟨i, -, rfl⟩ := List.mem_map.1 hy
    exact Nat.mod_lt _ hq
  · rw [exec_lvBfly_reads hm hd hx hi hs h h2 ht (by rw [hb])]
    rfl

theorem lvBfly_error {y : Halt} (hb : tableBytes e e.r.cur.vtw.toNat (e.r.cur.lvN * (e.r.cur.lvWidth / 8)) = .error y) :
    exec (.lvBfly j m d x) e.s = .next (settle e.s e.j e.r (.halt y)) :=
  exec_lvBfly_reads hm hd hx hi hs h h2 ht (by rw [hb])

end

section
variable (hi : lvIllegal e.r.cur false [d, x] = false)
include hi

theorem exec_lvLogic (h : OnEngine e j (lvCode 0x13 m d x)) :
    ∃ g : Nat → Nat → Nat, (m = 0 → g = fun a b => a &&& b) ∧ (m = 1 → g = fun a b => a ||| b)
      ∧ (m = 2 → g = fun a b => a ^^^ b) ∧ (m = 3 → g = fun a b => a - (a &&& b))
      ∧ exec (.lvLogic j m d x) e.s = .next (lvRan e (lvPut e.r.cur d (List.zipWith g (lvElems e.r.cur d) (lvElems e.r.cur x))
        (groupTag e.r.cur d || groupTag e.r.cur x))) := by
  refine ⟨_, ?_, ?_, ?_, ?_, exec_lv hm hd hx h rfl (by rw [Nat.mod_eq_of_lt hd, Nat.mod_eq_of_lt hx, doLv_runs hi]; rfl)⟩
  all_goals
    rintro rfl
    rfl

theorem exec_lvAdd (h : OnEngine e j (lvCode 0x14 m d x)) :
    (m = 0 → exec (.lvAdd j m d x) e.s = .next (lvRan e (lvPut e.r.cur d (List.zipWith (· + ·) (lvElems e.r.cur d)
      (lvElems e.r.cur x)) (groupTag e.r.cur d || groupTag e.r.cur x))))
    ∧ (m = 1 → exec (.lvAdd j m d x) e.s = .next (lvRan e (lvPut e.r.cur d (List.zipWith (fun a b =>
      a + 2 ^ e.r.cur.lvWidth - b) (lvElems e.r.cur d) (lvElems e.r.cur x)) (groupTag e.r.cur d || groupTag e.r.cur x))))
    ∧ (1 < m → Halts (.lvAdd j m d x) e .illegal) := by
  refine ⟨fun h0 => ?_, fun h1 => ?_, fun h2 => halts_lv hm hd hx h rfl (if_pos (by omega)) Halt.noConfusion⟩
  · subst h0
    refine exec_lv hm hd hx h rfl ?_
    rw [Nat.mod_eq_of_lt hd, Nat.mod_eq_of_lt hx]
    exact (if_neg (by decide)).trans (doLv_runs hi)
  · subst h1
    refine exec_lv hm hd hx h rfl ?_
    rw [Nat.mod_eq_of_lt hd, Nat.mod_eq_of_lt hx]
    exact (if_neg (by decide)).trans (doLv_runs hi)

theorem exec_lvMov (h : OnEngine e j (lvCode 0x11 m d x)) :
    exec (.lvMov j m d x) e.s = .next (lvRan e (lvPut e.r.cur d (lvElems e.r.cur x) (groupTag e.r.cur x))) := by
  refine exec_lv hm hd hx h rfl ?_
  rw [Nat.mod_eq_of_lt hd, Nat.mod_eq_of_lt hx]
  exact doLv_runs hi

theorem exec_lvCmov (h : OnEngine e j (lvCode 0x0C m d x)) {n : TWord} {rest : List TWord} (hs : e.r.cur.ds = n :: rest) :
    exec (.lvCmov j m d x) e.s = .next (lvRan e { lvPut e.r.cur d (if n.v ≠ 0 then lvElems e.r.cur x else lvElems e.r.cur d)
      (groupTag e.r.cur d || groupTag e.r.cur x || n.tag) with ds := rest }) := by
  refine exec_lv hm hd hx h rfl ?_
  rw [Nat.mod_eq_of_lt hd, Nat.mod_eq_of_lt hx, doLv_runs hi]
  simp only [show e.wakeLv.r.cur.ds = n :: rest from hs, ite_not]
  rfl

theorem exec_lvPerm (h : OnEngine e j (lvCode 0x0D m d x)) (h3 : m < 3) : ∃ es : List Nat, es.length = e.r.cur.lvN
    ∧ exec (.lvPerm j m d x) e.s = .next (lvRan e (lvPut e.r.cur d es (groupTag e.r.cur d || groupTag e.r.cur x))) := by
  refine ⟨(List.range e.r.cur.lvN).map fun i => Config.permElem m 0 ((lvElems e.r.cur d).take e.r.cur.lvN)
    ((lvElems e.r.cur x).take e.r.cur.lvN) i, by simp, exec_lv hm hd hx h rfl ?_⟩
  rw [Nat.mod_eq_of_lt hd, Nat.mod_eq_of_lt hx, Nat.mod_eq_of_lt hm, doLv_runs hi, if_neg (by omega)]
  rfl

theorem lvPerm_counted (h : OnEngine e j (lvCode 0x0D m d x)) (h3 : m = 3) {n : TWord} {rest : List TWord}
    (hs : e.r.cur.ds = n :: rest) : (n.tag = true → Halts (.lvPerm j m d x) e .taint)
      ∧ (n.tag = false → ∃ es : List Nat, es.length = e.r.cur.lvN ∧ exec (.lvPerm j m d x) e.s
        = .next (lvRan e { lvPut e.r.cur d es (groupTag e.r.cur d || groupTag e.r.cur x) with ds := rest })) := by
  subst h3
  refine ⟨fun ht => halts_lv hm hd hx h rfl ?_ Halt.noConfusion, fun ht =>
    ⟨(List.range e.r.cur.lvN).map fun i => Config.permElem 3 n.v.toNat ((lvElems e.r.cur d).take e.r.cur.lvN)
      ((lvElems e.r.cur x).take e.r.cur.lvN) i, by simp, exec_lv hm hd hx h rfl ?_⟩⟩
  · rw [Nat.mod_eq_of_lt hd, Nat.mod_eq_of_lt hx, doLv_runs hi]
    exact (if_pos rfl).trans (popPlain_taint hs ht)
  · rw [Nat.mod_eq_of_lt hd, Nat.mod_eq_of_lt hx, doLv_runs hi]
    exact (if_pos rfl).trans (popPlain_pops (e := e.wakeLv) hs ht)

omit hm hd hx in
theorem lvSum_eq (g : Nat → Nat) : lvSum e m d x g = pushSum e.wakeLv (sumOf e.r.cur m d x g)
    (groupTag e.r.cur d || groupTag e.r.cur x) := doLv_runs hi

end
end

theorem pushSum_ok {e : Eng} (hl : e.r.cur.ds.length ≤ 30) (v : Nat) (t : Bool) : pushSum e v t = (e.arch fun _ =>
    { e.r.cur with ds := ⟨BitVec.ofNat 32 (v / 2 ^ 32), t⟩ :: ⟨BitVec.ofNat 32 v, t⟩ :: e.r.cur.ds }).go :=
  onStack_ok (g := fun st => .ok (⟨BitVec.ofNat 32 (v / 2 ^ 32), t⟩ :: ⟨BitVec.ofNat 32 v, t⟩ :: st)) rfl
    (by simp only [List.length_cons]; omega)

theorem pushSum_full {e : Eng} (hl : 30 < e.r.cur.ds.length) (v : Nat) (t : Bool) : pushSum e v t = .halt .stack :=
  onStack_full rfl (by simp only [List.length_cons]; omega)

theorem not_glitch {u : Upset} (h : u ≠ .glitch) : ¬(u == Upset.glitch) = true := fun he => h (beq_iff_eq.1 he)

/-- Settles O43, a row at a time. -/
theorem longVectorArithmetic : Obligations.LongVectorArithmetic := by
  unfold Obligations.LongVectorArithmetic
  intro e j m d x hm hd hx c q w xs ys tag
  have hd' := Nat.mod_eq_of_lt hd
  have hx' := Nat.mod_eq_of_lt hx
  refine ⟨fun hi => ⟨exec_modulars hm hd hx hi, exec_lvPmul hm hd hx hi, exec_lvOvb hm hd hx hi⟩,
    fun hi n rest hs => ⟨fun h => ?_, fun h => ?_⟩,
    fun hi => ⟨exec_lvLogic hm hd hx hi, exec_lvAdd hm hd hx hi, exec_lvMov hm hd hx hi,
      fun h n rest hs => exec_lvCmov hm hd hx hi h hs,
      fun h => ⟨exec_lvPerm hm hd hx hi h, fun h3 n rest hs => lvPerm_counted hm hd hx hi h h3 hs⟩,
      fun hl => ⟨fun h => ?_, fun h => ?_⟩, fun hl => ?_⟩, fun h => ?_, fun hi h => ⟨fun h0 => ?_, fun h0 => ?_⟩⟩
  · obtain ⟨h1, h2⟩ := halts_lvComp hm hd hx hi hs h
    refine ⟨h1, h2, fun h2 ht => ?_⟩
    intro put
    have hx := exec_lvComp hm hd hx hi hs h h2 ht
    refine ⟨fun hl hw => ⟨fun h0 => ?_, fun h1 => ?_⟩, fun hw => ?_⟩
    · subst h0
      have hf : ∀ a, compElem 0 w q n.v.toNat a = (2 * (a * 2 ^ n.v.toNat) + q) / (2 * q) % 2 ^ n.v.toNat % q := fun a =>
        (if_neg (by omega)).trans (if_pos rfl)
      simp only [put, ← hf]
      exact hx
    · subst h1
      have hf : ∀ a, compElem 1 w q n.v.toNat a = (2 * q * a + 2 ^ n.v.toNat) / 2 ^ (n.v.toNat + 1) % q := fun a =>
        (if_neg (by omega)).trans (if_neg (by decide))
      simp only [put, ← hf]
      exact hx
    · have hf : ∀ a, compElem m w q n.v.toNat a = Config.compElem m q n.v.toNat a % q := fun a => if_pos hw
      simp only [put, ← hf]
      exact hx
  · obtain ⟨h1, h2⟩ := halts_lvBfly hm hd hx hi hs h
    exact ⟨h1, h2, fun h2 ht => ⟨fun b t hb => exec_lvBfly hm hd hx hi hs h h2 ht hb, lvBfly_error hm hd hx hi hs h h2 ht,
      lvBfly_error hm hd hx hi hs h h2 ht⟩⟩
  · refine halts_lv hm hd hx h rfl ?_ Halt.noConfusion
    rw [hd', hx', if_neg (by decide), lvSum_eq hi]
    exact pushSum_full (e := e.wakeLv) hl _ _
  · refine halts_lv hm hd hx h rfl ?_ Halt.noConfusion
    rw [hd', hx', lvSum_eq hi]
    exact pushSum_full (e := e.wakeLv) hl _ _
  · intro push
    refine ⟨fun h u hu => exec_lv hm hd hx h rfl ?_, fun h => exec_lv hm hd hx h rfl ?_⟩
    · rw [hd', hx', if_neg (not_glitch hu), lvSum_eq hi]
      exact pushSum_ok (e := e.wakeLv) hl _ _
    · rw [hd', hx', lvSum_eq hi]
      exact pushSum_ok (e := e.wakeLv) hl _ _
  · rw [exec_engineStep (onEngine_lvW hm hd hx h) rfl, if_pos (by decide), ← onEngine_job_id h]
    rfl
  · subst h0
    refine exec_lv hm hd hx h rfl ?_
    rw [hd']
    exact (if_neg (by decide)).trans (doLv_runs hi)
  · refine halts_lv hm hd hx h rfl ?_ Halt.noConfusion
    rw [hx']
    exact if_pos (bne_iff_ne.2 h0)

end Sys2Proof.Machine
end

section
/-! The stewards -/

namespace Sys2Proof.Machine
open Sys2Proof.Claims

/-! ### Operands of Alada-M (R443, Table 16.11) -/

section
variable (s : State)

/-- A pointer cell is written as one word of the pointer area, the other words staying. -/
theorem mWrite_pointer (a : Nat) (v : Word) (ha : a < 0x400) :
    mWord (mWrite s a v) a = v ∧ (∀ k, k ≠ a → mWord (mWrite s a v) k = mWord s k)
      ∧ (mWrite s a v).stw.pc = s.stw.pc := by
  have hr : mRegion a = some .pointer := if_pos ha
  have hw : mWrite s a v = { s with stw.mem := (a, v) :: s.stw.mem.filter (·.1 != a) } := by
    unfold mWrite
    rw [hr]
  rw [hw]
  refine ⟨by simp [mWord], fun k hk => ?_, rfl⟩
  have hf : ∀ l : List (Nat × Word), (l.filter (·.1 != a)).find? (·.1 == k) = l.find? (·.1 == k) := by
    intro l
    rw [List.find?_filter]
    congr 1
    funext c
    by_cases hc : c.1 = k
    · simp [hc, hk]
    · simp [hc]
  simp [mWord, Ne.symm hk, hf]

/-- A word of the pointer area reads as it is stored. -/
theorem mRead_pointer (a : Nat) (ha : a < 0x400) : mRead s a = (s, mWord s a) := by
  unfold mRead
  rw [show mRegion a = some .pointer from if_pos ha]

theorem mAt_eq (a : Nat) : mAt s a = if mOk a then some (s, .word a) else none := rfl

/-- A 24-bit or 16-bit displacement is added with its sign. -/
theorem mDisp_signed (a y n : Nat) (hn : n ≤ 32) :
    mDisp a y n = (a + (if y < 2 ^ (n - 1) then y else y + 2 ^ 32 - 2 ^ n)) % 2 ^ 32 := by
  have hp : (2 : Nat) ^ n ≤ 2 ^ 32 := Nat.pow_le_pow_right (by decide) hn
  unfold mDisp
  split
  · rfl
  · congr 1
    omega

section
variable {e : Nat} (he : e < 2 ^ 32)
include he

theorem ext_mod : e % 4294967296 = e := Nat.mod_eq_of_lt he

theorem mForm_long : mForm s 0x20 e = some (s, .imm (BitVec.ofNat 32 e)) := by
  simp [mForm, ext_mod he]

theorem mForm_word : mForm s 0x40 e = mAt s e := by
  simp [mForm, ext_mod he]

theorem mForm_through : mForm s 0x60 e = if mOk e then mAt (mRead s e).1 (mRead s e).2.toNat else none := by
  simp [mForm, ext_mod he]

theorem mForm_cell : mForm s 0x80 e = mAt s (mDisp (pCell s (bits e 31 24)) (bits e 23 0) 24) := by
  simp [mForm, ext_mod he]

theorem mForm_indexed : mForm s 0xA0 e
    = mAt s (mDisp (pCell s (bits e 31 24) + 4 * pCell s (bits e 23 16)) (bits e 15 0) 16) := by
  simp [mForm, ext_mod he]

theorem mForm_after : mForm s 0xC0 e = if bits e 31 8 != 0 then none
    else mAt (mWrite s (4 * e) (BitVec.ofNat 32 (pCell s e + 4))) (pCell s e) := by
  simp [mForm, ext_mod he]

theorem mForm_before : mForm s 0xE0 e = if bits e 31 8 != 0 then none
    else mAt (mWrite s (4 * e) (BitVec.ofNat 32 ((pCell s e + 2 ^ 32 - 4) % 2 ^ 32))) ((pCell s e + 2 ^ 32 - 4) % 2 ^ 32) := by
  simp [mForm, ext_mod he]

end

/-- A cell beyond the pointer area has nonzero bits 31 to 8. -/
theorem mForm_beyond (e : Nat) (h : 256 ≤ e) (he : e < 2 ^ 32) : mForm s 0xC0 e = none ∧ mForm s 0xE0 e = none := by
  have hb : (bits e 31 8 != 0) = true := by
    simp only [bits, bne_iff_ne]
    omega
  exact ⟨(mForm_after s he).trans (if_pos hb), (mForm_before s he).trans (if_pos hb)⟩

section
variable {p : Nat} (hp : p < 256)
include hp

/-- A cell of the pointer area that steps after its use. -/
theorem mForm_after_cell : mForm s 0xC0 p = mAt (mWrite s (4 * p) (BitVec.ofNat 32 (pCell s p + 4))) (pCell s p) := by
  have hb : ¬ (bits p 31 8 != 0) = true := by
    simp only [bits, bne_iff_ne]
    omega
  exact (mForm_after s (by omega)).trans (if_neg hb)

/-- A cell of the pointer area that steps before its use. -/
theorem mForm_before_cell : mForm s 0xE0 p
    = mAt (mWrite s (4 * p) (BitVec.ofNat 32 ((pCell s p + 2 ^ 32 - 4) % 2 ^ 32))) ((pCell s p + 2 ^ 32 - 4) % 2 ^ 32) := by
  have hb : ¬ (bits p 31 8 != 0) = true := by
    simp only [bits, bne_iff_ne]
    omega
  exact (mForm_before s (by omega)).trans (if_neg hb)

end

/-- A nonzero low field forms no operand where the mode has none. -/
theorem mForm_low_field (mode v e : Nat) (h1 : 1 ≤ mode) (h8 : mode < 8) (hv : v < 32) (h0 : v ≠ 0) :
    mForm s (mode * 32 + v) e = none := by
  have hm : (mode * 32 + v) % 256 / 32 = mode := by omega
  have hz : (mode * 32 + v) % 32 = v := by omega
  have hc : (mode != 0 && v != 0) = true := by simp [h0]; omega
  unfold mForm
  simp only [hm, hz]
  exact if_pos hc

end

/-- Settles O47: each mode of Table 16.11 is a branch of the operand's forming, the fields of the extension its digits. -/
theorem aladaMOperands : Obligations.AladaMOperands := by
  unfold Obligations.AladaMOperands
  intro s v p d x hv hp hx hd cell signed
  refine ⟨fun e => ?_, fun e he => ⟨mForm_long s he, mForm_word s he⟩, fun e he h4 => ?_, fun e he => ?_,
    mForm_beyond s, fun h => ?_, fun h => ?_, fun y hy => ?_, ?_, fun h => ?_, fun h => ?_,
    fun mode e h1 h8 h0 => mForm_low_field s mode v e h1 h8 hv h0⟩
  · have hm : v % 256 / 32 = 0 := by omega
    have hl : v % 32 = v := by omega
    simp [mForm, hm, hl]
  · have hok : mOk e = true := by simp [mOk, h4, mRegion, he]
    rw [mForm_through s (by omega), mRead_pointer s e he, if_pos hok, mAt_eq]
  · rw [mForm_through s he, mAt_eq]
    by_cases h1 : mOk e = true <;> simp [h1]
  · rw [mForm_after_cell s hp, mAt_eq]
    exact if_neg (fun hc => Bool.false_ne_true (h.symm.trans hc))
  · rw [mForm_before_cell s hp, mAt_eq]
    exact if_neg (fun hc => Bool.false_ne_true (h.symm.trans hc))
  · have h1 : bits (p * 2 ^ 24 + y) 31 24 = p := by simp only [bits]; omega
    have h2 : bits (p * 2 ^ 24 + y) 23 0 = y := by simp only [bits]; omega
    rw [mForm_cell s (by omega), h1, h2, mDisp_signed _ _ _ (by decide), mAt_eq]
    rfl
  · have h1 : bits (p * 2 ^ 24 + x * 2 ^ 16 + d) 31 24 = p := by simp only [bits]; omega
    have h2 : bits (p * 2 ^ 24 + x * 2 ^ 16 + d) 23 16 = x := by simp only [bits]; omega
    have h3 : bits (p * 2 ^ 24 + x * 2 ^ 16 + d) 15 0 = d := by simp only [bits]; omega
    rw [mForm_indexed s (by omega), h1, h2, h3, mDisp_signed _ _ _ (by decide), mAt_eq]
    rfl
  · obtain ⟨hw, hk, hpc⟩ := mWrite_pointer s (4 * p) (BitVec.ofNat 32 (cell p + 4)) (by omega)
    exact ⟨_, (mForm_after_cell s hp).trans (if_pos h), hw, hk, hpc⟩
  · obtain ⟨hw, hk, hpc⟩ := mWrite_pointer s (4 * p) (BitVec.ofNat 32 ((cell p + 2 ^ 32 - 4) % 2 ^ 32)) (by omega)
    exact ⟨_, (mForm_before_cell s hp).trans (if_pos h), hw, hk, hpc⟩

/-! ### Instructions of Alada-M (R443, R444, Table 16.12) -/

/-- Before the stewards run, and while they reset, no instruction runs. -/
theorem mRun_idle {s : State} (h : s.pins.boot < 2 ∨ s.stw.resetting = true) (k : Nat) (o : MOps)
    (body : State → MLoc → MLoc → MLoc → Option State) : mRun k o body s = s := by
  unfold mRun
  exact if_pos (by simpa using h)

theorem mExt_extWords (sp : Nat) : mExt sp = extWords sp := by
  unfold mExt extWords
  split <;> split <;> omega

section
variable {s t : State} {k : Nat} {o : MOps} {l a b : MLoc} (body : State → MLoc → MLoc → MLoc → Option State)

/-- The state of the body: the program counter stands at the next instruction. -/
def mAdvance (k : Nat) (o : MOps) (s : State) : State :=
  { s with stw.pc := (s.stw.pc + 4 * (1 + (if 0 < k then mExt o.s1 else 0) + (if 1 < k then mExt o.s2 else 0)
    + (if 2 < k then mExt o.s3 else 0))) % 2 ^ 32 }

/-- An instruction that runs forms its operands in order and goes on with its body; it is a mismatch where one is missing. -/
theorem mRun_running (hb : 2 ≤ s.pins.boot) (hr : s.stw.resetting = false) : mRun k o body s
    = (if !((decide (0 < k) || o.s1 % 256 == 0) && (decide (1 < k) || o.s2 % 256 == 0)
          && (decide (2 < k) || o.s3 % 256 == 0)) then none else
        (if 0 < k then mForm s o.s1 o.e1 else some (s, .imm 0)).bind fun p =>
        (if 1 < k then mForm p.1 o.s2 o.e2 else some (p.1, .imm 0)).bind fun q =>
        (if 2 < k then mForm q.1 o.s3 o.e3 else some (q.1, .imm 0)).bind fun r =>
          body (mAdvance k o r.1) p.2 q.2 r.2).getD (stewardMismatch s) := by
  have hgo : ¬ (decide (s.pins.boot < 2) || s.stw.resetting) = true := by simp [hr]; omega
  unfold mRun
  refine (if_neg hgo).trans ?_
  dsimp only
  split
  next t ht => exact (congrArg (·.getD (stewardMismatch s)) ht).symm
  next hn => exact (congrArg (·.getD (stewardMismatch s)) hn).symm

/-- An instruction whose operands are formed goes on with its body; where the body answers nothing it is a mismatch. -/
theorem mRun_ready (h : MReady s t k o l a b) : mRun k o body s
    = (body t l (if k < 2 then .imm 0 else a) (if k < 3 then .imm 0 else b)).getD (stewardMismatch s) := by
  obtain ⟨hb, hr, h1, h3, hz2, hz3, s1, s2, s3, hf1, hf2, hf3, rfl⟩ := h
  have hw := mExt_extWords
  refine (mRun_running body hb hr).trans ?_
  interval_cases k
  · obtain rfl : s2 = s1 := hf2
    obtain rfl : s3 = s2 := hf3
    simp [hz2, hz3, hf1, hw, mAdvance]
  · obtain rfl : s3 = s2 := hf3
    have hf2 : mForm s1 o.s2 o.e2 = some (s3, a) := hf2
    simp [hz3, hf1, hf2, hw, mAdvance]
  · have hf2 : mForm s1 o.s2 o.e2 = some (s2, a) := hf2
    have hf3 : mForm s2 o.s3 o.e3 = some (s3, b) := hf3
    simp [hf1, hf2, hf3, hw, mAdvance]

theorem mRun_some (h : MReady s t k o l a b) {u : State}
    (hu : body t l (if k < 2 then .imm 0 else a) (if k < 3 then .imm 0 else b) = some u) : mRun k o body s = u := by
  rw [mRun_ready body h, hu]
  rfl

theorem mRun_none (h : MReady s t k o l a b)
    (hu : body t l (if k < 2 then .imm 0 else a) (if k < 3 then .imm 0 else b) = none) :
    mRun k o body s = stewardMismatch s := by
  rw [mRun_ready body h, hu]
  rfl

/-- An instruction whose operands are not formed is a mismatch. -/
theorem mRun_unformed (hb : 2 ≤ s.pins.boot) (hr : s.stw.resetting = false) (hk1 : 1 ≤ k) (hk3 : k ≤ 3)
    (h : ∀ t l a b, ¬ MReady s t k o l a b) : mRun k o body s = stewardMismatch s := by
  refine (mRun_running body hb hr).trans ?_
  have hno : ∀ {s1 s2 s3 l a b}, (k < 2 → o.s2 % 256 = 0) → (k < 3 → o.s3 % 256 = 0) → mForm s o.s1 o.e1 = some (s1, l) →
      (if k < 2 then s2 = s1 else mForm s1 o.s2 o.e2 = some (s2, a)) →
      (if k < 3 then s3 = s2 else mForm s2 o.s3 o.e3 = some (s3, b)) → False :=
    fun h2 h3 hf1 hf2 hf3 => h _ _ _ _ ⟨hb, hr, hk1, hk3, h2, h3, _, _, _, hf1, hf2, hf3, rfl⟩
  split
  · rfl
  next hz =>
    simp only [decide_true, Bool.true_or, Bool.true_and, Bool.not_eq_true', Bool.not_eq_false, Bool.and_eq_true,
      Bool.or_eq_true, decide_eq_true_eq, beq_iff_eq, show 0 < k from hk1] at hz
    obtain ⟨hz2, hz3⟩ := hz
    have h2 : k < 2 → o.s2 % 256 = 0 := fun hk => hz2.resolve_left (by omega)
    have h3 : k < 3 → o.s3 % 256 = 0 := fun hk => hz3.resolve_left (by omega)
    rw [Option.getD_eq_iff]
    refine .inr ⟨Option.eq_none_iff_forall_ne_some.2 fun u hu => ?_, rfl⟩
    simp only [Option.bind_eq_some_iff, show 0 < k from hk1, if_true] at hu
    obtain ⟨⟨s1, l⟩, hf1, ⟨s2, a⟩, hf2, ⟨s3, b⟩, hf3, -⟩ := hu
    refine hno (a := a) (b := b) h2 h3 hf1 (s2 := s2) (s3 := s3) ?_ ?_
    · split
      next hk => rw [if_neg (by omega)] at hf2; simpa using (Prod.ext_iff.1 (Option.some.inj hf2)).1.symm
      next hk => rwa [if_pos (by omega)] at hf2
    · split
      next hk => rw [if_neg (by omega)] at hf3; simpa using (Prod.ext_iff.1 (Option.some.inj hf3)).1.symm
      next hk => rwa [if_pos (by omega)] at hf3

end

section
variable {s t : State} {o : MOps} {l a b : MLoc}

theorem mAlu_word {f : Word → Word → Word} (h : MReady s t 3 o l a b) (d : Nat) (hd : l = .word d) :
    mAlu f o s = mWrite (mVal (mVal t a).1 b).1 d (f (mVal t a).2 (mVal (mVal t a).1 b).2) := by
  subst hd
  exact mRun_ready _ h

theorem mAlu_imm {f : Word → Word → Word} (h : MReady s t 3 o l a b) (v : Word) (hd : l = .imm v) :
    mAlu f o s = stewardMismatch s := by
  subst hd
  exact mRun_ready _ h

theorem mBranch_ready {f : Word → Word → Bool} (h : MReady s t 3 o l a b) :
    mBranch f o s = if f (mVal t l).2 (mVal (mVal t l).1 a).2 then
        { (mVal (mVal (mVal t l).1 a).1 b).1 with stw.pc := (mVal (mVal (mVal t l).1 a).1 b).2.toNat }
      else (mVal (mVal (mVal t l).1 a).1 b).1 :=
  mRun_ready _ h

/-- WAIT goes on once an event of its mask is pending, and stands until then. -/
theorem mWait_ready (h : MReady s t 1 o l a b) :
    mRun 1 o (fun t m _ _ => if (mVal t m).2.toNat &&& s.stw.events != 0 then some (mVal t m).1 else some s) s
      = if (mVal t l).2.toNat &&& s.stw.events ≠ 0 then (mVal t l).1 else s := by
  rw [mRun_ready _ h]
  by_cases he : (mVal t l).2.toNat &&& s.stw.events = 0 <;> simp [he]

theorem shl_ofNat (x y : Word) : x <<< sh y = BitVec.ofNat 32 (x.toNat * 2 ^ (y.toNat % 32)) :=
  BitVec.eq_of_toNat_eq (by simp [sh, Nat.shiftLeft_eq])

theorem shr_ofNat (x y : Word) : x >>> sh y = BitVec.ofNat 32 (x.toNat / 2 ^ (y.toNat % 32)) := by
  refine BitVec.eq_of_toNat_eq ?_
  rw [BitVec.toNat_ushiftRight, Nat.shiftRight_eq_div_pow, BitVec.toNat_ofNat,
    Nat.mod_eq_of_lt (Nat.lt_of_le_of_lt (Nat.div_le_self ..) x.isLt)]
  rfl

theorem sar_ofInt (x y : Word) : x.sshiftRight (sh y) = BitVec.ofInt 32 (x.toInt / 2 ^ (y.toNat % 32)) := by
  rw [BitVec.sshiftRight, Int.shiftRight_eq_div_pow]
  simp [sh]

/-- The arithmetic instructions compute their function of two operands (Table 16.12). -/
theorem mAlus_exec : ∀ p ∈ mAlus, ∀ o s, exec (p.1 o) s = .next (mAlu p.2 o s) := by
  simp only [mAlus, List.forall_mem_cons]
  refine ⟨fun _ _ => rfl, fun _ _ => rfl, fun _ _ => rfl, fun _ _ => rfl, fun _ _ => rfl, fun o s => ?_, fun o s => ?_,
    fun o s => ?_, fun _ _ => rfl, fun _ _ => rfl, fun _ _ => rfl, fun _ _ => rfl, fun _ h => nomatch h⟩
  · exact congrArg (fun f => Host.Outcome.next (mAlu f o s)) (funext fun x => funext fun y => shl_ofNat x y)
  · exact congrArg (fun f => Host.Outcome.next (mAlu f o s)) (funext fun x => funext fun y => shr_ofNat x y)
  · exact congrArg (fun f => Host.Outcome.next (mAlu f o s)) (funext fun x => funext fun y => sar_ofInt x y)

/-- The branches test their condition of two operands (Table 16.12). -/
theorem mBranches_exec : ∀ p ∈ mBranches, ∀ o s, exec (p.1 o) s = .next (mBranch p.2 o s) := by
  simp only [mBranches, List.forall_mem_cons]
  refine ⟨fun o s => ?_, fun o s => ?_, fun _ _ => rfl, fun o s => ?_, fun _ h => nomatch h⟩
  · exact congrArg (fun f => Host.Outcome.next (mBranch f o s)) (funext fun x => funext fun y => by simp [BEq.beq])
  · exact congrArg (fun f => Host.Outcome.next (mBranch f o s)) (funext fun x => funext fun y => by simp [bne, BEq.beq])
  · exact congrArg (fun f => Host.Outcome.next (mBranch f o s)) (funext fun x => funext fun y => rfl)

/-- Every instruction runs as one of as many specifiers. -/
theorem mAll_exec : ∀ p ∈ mAll, ∃ body : State → State → MLoc → MLoc → MLoc → Option State,
    (∀ o s, exec (p.1 o) s = .next (mRun p.2 o (body s) s)) ∧ 1 ≤ p.2 ∧ p.2 ≤ 3 := by
  intro p hp
  rcases List.mem_append.1 hp with hp | hp
  · rcases List.mem_append.1 hp with hp | hp
    · obtain ⟨q, hq, rfl⟩ := List.mem_map.1 hp
      exact ⟨_, fun o s => (mAlus_exec q hq o s).trans (by rfl), by simp, by simp⟩
    · obtain ⟨q, hq, rfl⟩ := List.mem_map.1 hp
      exact ⟨_, fun o s => (mBranches_exec q hq o s).trans (by rfl), by simp, by simp⟩
  · simp only [List.mem_cons, List.not_mem_nil, or_false] at hp
    rcases hp with rfl | rfl | rfl | rfl | rfl | rfl | rfl <;>
      exact ⟨_, fun _ _ => rfl, by simp, by simp⟩

end

/-- Settles O48: the operands are formed once for every instruction, and its body is its row of Table 16.12. -/
theorem aladaMInstructions : Obligations.AladaMInstructions := by
  unfold Obligations.AladaMInstructions
  refine ⟨fun s o p hp => ?_, ?_⟩
  · obtain ⟨body, hx, h1, h3⟩ := mAll_exec p hp
    exact ⟨fun h => (hx o s).trans (congrArg _ (mRun_idle h _ o _)),
      fun hb hr h => (hx o s).trans (congrArg _ (mRun_unformed _ hb hr h1 h3 h))⟩
  intro s t o l a b u x y z n
  refine ⟨fun h => ⟨fun p hp d hd => ?_, fun p hp v hv => ?_, fun p hp => ?_,
    fun d e hd he => ⟨fun h1 h2 => ?_, fun h1 => ?_⟩, fun v hv => ?_, fun d hd => ⟨fun h1 => ?_, fun h1 => ?_⟩, fun v hv => ?_⟩,
    fun h => ⟨fun d hd => ?_, fun v hv => ⟨?_, ?_⟩, fun d e hd he => ?_, fun v hv => ⟨?_, ?_⟩, fun e he => ?_⟩,
    fun h => ⟨?_, ?_⟩⟩
  · exact (mAlus_exec p hp o s).trans (congrArg _ (mAlu_word h d hd))
  · exact (mAlus_exec p hp o s).trans (congrArg _ (mAlu_imm h v hv))
  · exact (mBranches_exec p hp o s).trans (congrArg _ (mBranch_ready h))
  · subst hd he
    exact congrArg Host.Outcome.next (mRun_some _ h (if_pos (show (mRange d n && mRange e n) = true by rw [h1, h2]; rfl)))
  · subst hd he
    exact congrArg Host.Outcome.next (mRun_none _ h (if_neg fun hc => Bool.false_ne_true (h1.symm.trans hc)))
  · refine congrArg Host.Outcome.next ((mRun_ready _ h).trans ?_)
    rcases hv with rfl | rfl
    · rfl
    · cases l <;> rfl
  · subst hd
    exact congrArg Host.Outcome.next (mRun_some _ h (if_pos h1))
  · subst hd
    exact congrArg Host.Outcome.next (mRun_none _ h (if_neg fun hc => Bool.false_ne_true (h1.symm.trans hc)))
  · subst hv
    exact congrArg Host.Outcome.next (mRun_ready _ h)
  · subst hd
    exact congrArg Host.Outcome.next (mRun_ready _ h)
  · subst hv
    exact congrArg Host.Outcome.next (mRun_ready _ h)
  · subst hv
    refine congrArg Host.Outcome.next ((mRun_ready _ h).trans ?_)
    cases a <;> rfl
  · subst hd he
    exact congrArg Host.Outcome.next (mRun_ready _ h)
  · subst hv
    exact congrArg Host.Outcome.next (mRun_ready _ h)
  · subst hv
    exact congrArg Host.Outcome.next (mRun_ready _ h)
  · subst he
    exact congrArg Host.Outcome.next (mRun_ready _ h)
  · exact congrArg Host.Outcome.next (mRun_ready _ h)
  · exact congrArg Host.Outcome.next (mWait_ready h)

end Sys2Proof.Machine
end

section
/-! The registers of a port -/

namespace Sys2Proof.Machine
open Sys2Proof.Claims

/-! ### Reads that latch a high word or move a cursor (R30) -/

section
variable (s : State) (p : Nat)

/-- A read of a register changes nothing but the answer. -/
theorem answerReg_frame (off : Nat) : (answerReg s p off).port = s.port ∧ (answerReg s p off).work = s.work
    ∧ (answerReg s p off).hostMem = s.hostMem := ⟨rfl, rfl, rfl⟩

/-- What a latching read leaves alone: the other ports, the work and host memory. -/
def LatchedOnly (t : State) : Prop := (∀ r, r ≠ p → t.port r = s.port r) ∧ t.work = s.work ∧ t.hostMem = s.hostMem

theorem latchedOnly_refl : LatchedOnly s p s := ⟨fun _ _ => rfl, rfl, rfl⟩

theorem latchedOnly_updPort (f : Port → Port) : LatchedOnly s p (s.updPort p f) :=
  ⟨fun _ hr => State.port_updPort_ne s p _ f hr, rfl, rfl⟩

theorem setLatch_getElem (l : List Nat) (n k v : Nat) (hk : k < n) : (setLatch l n k v)[k]? = some v := by
  have hlen : k < ((l ++ List.replicate n 0).take n).length := by
    simp only [List.length_take, List.length_append, List.length_replicate]
    omega
  rw [setLatch, List.getElem?_set_self hlen]

variable {s p} (hb : bar0 s p = true)
include hb

theorem not_unreachable : ¬ (!bar0 s p) = true := by simp [hb]

theorem latchingReads_keep (k : Nat) : ∀ c ∈ [Instr.tickCountLoRead p, .hwdTimeLoRead p, .tetherTickOffLoRead p,
    .specCounterLoRead p k, .perfCounterLoRead p k, .hwdRecWindow7Read p, .hwdSnapWindow7Read p, .healthEpochRead p k],
    ∃ t, exec c s = .next t ∧ LatchedOnly s p t := by
  simp only [List.forall_mem_cons]
  refine ⟨?_, ?_, ?_, ?_, ?_, ?_, ?_, ?_, fun _ h => nomatch h⟩
  · exact ⟨_, congrArg Host.Outcome.next (if_pos hb), latchedOnly_updPort s p _⟩
  · exact ⟨_, congrArg Host.Outcome.next (if_pos hb), latchedOnly_updPort s p _⟩
  · exact ⟨_, congrArg Host.Outcome.next (if_pos hb), latchedOnly_updPort s p _⟩
  · refine ⟨_, rfl, ?_⟩
    split
    · exact latchedOnly_updPort s p _
    · exact latchedOnly_refl s p
  · refine ⟨_, rfl, ?_⟩
    split
    · exact latchedOnly_updPort s p _
    · exact latchedOnly_refl s p
  · exact ⟨_, congrArg Host.Outcome.next (if_neg (not_unreachable hb)), latchedOnly_updPort (answerReg s p 0x124C) p _⟩
  · exact ⟨_, congrArg Host.Outcome.next (if_neg (not_unreachable hb)), latchedOnly_updPort (answerReg s p 0x128C) p _⟩
  · refine ⟨_, congrArg Host.Outcome.next (if_neg (not_unreachable hb)), ?_⟩
    split
    · exact latchedOnly_updPort s p _
    · exact latchedOnly_refl s p

variable (hl : s.ports.length = 4)
include hl

theorem bar0_port : p < s.ports.length := by
  simp only [bar0, Bool.and_eq_true, decide_eq_true_eq] at hb
  omega

theorem exec_specCounterLoRead {k : Nat} (hk : k < 7) : ∃ t, exec (.specCounterLoRead p k) s = .next t
    ∧ t.pins.answer = leBytes 4 (s.work.spec.getD k 0 % 2 ^ 32)
    ∧ (t.port p).specHi[k]? = some (s.work.spec.getD k 0 / 2 ^ 32) := by
  have hg : (bar0 s p && decide (k < 7)) = true := by simp [hb, hk]
  refine ⟨_, congrArg Host.Outcome.next (if_pos hg), ?_, ?_⟩
  · interval_cases k <;> rfl
  · refine (congrArg (fun x : Port => x.specHi[k]?) (State.port_updPort s p _ (bar0_port hb hl))).trans ?_
    exact setLatch_getElem _ _ _ _ hk

theorem exec_perfCounterLoRead {k : Nat} (hk : k < 7) : ∃ t, exec (.perfCounterLoRead p k) s = .next t
    ∧ t.pins.answer = leBytes 4 (perfValue s p k % 2 ^ 32)
    ∧ (t.port p).perfHi[k]? = some (perfValue s p k / 2 ^ 32) := by
  have hg : (bar0 s p && decide (k < 7)) = true := by simp [hb, hk]
  have hsel : ((s.updPort p fun x => { x with perfHi := setLatch x.perfHi 7 k (perfValue s p k / 2 ^ 32) }).port p).perfSel
      = (s.port p).perfSel := by rw [State.port_updPort s p _ (bar0_port hb hl)]
  refine ⟨_, congrArg Host.Outcome.next (if_pos hg), ?_, ?_⟩
  · generalize (fun x : Port => { x with perfHi := setLatch x.perfHi 7 k (perfValue s p k / 2 ^ 32) }) = f at hsel
    have hv : perfValue (s.updPort p f) p k = perfValue s p k := by
      unfold perfValue
      rw [hsel]
      rfl
    rw [← hv]
    interval_cases k <;> rfl
  · refine (congrArg (fun x : Port => x.perfHi[k]?) (State.port_updPort s p _ (bar0_port hb hl))).trans ?_
    exact setLatch_getElem _ _ _ _ hk

end

/-- Settles O51: the read answers the low word of what it latches in its port. -/
theorem latchingReads : Obligations.LatchingReads := by
  unfold Obligations.LatchingReads
  refine ⟨fun s p k hb => ?_, fun s p k hb hl => ⟨latchingReads_keep hb k, ⟨_, congrArg Host.Outcome.next (if_pos hb), rfl, ?_⟩,
    ⟨_, congrArg Host.Outcome.next (if_pos hb), rfl, ?_⟩, ⟨_, congrArg Host.Outcome.next (if_pos hb), rfl, ?_⟩,
    exec_specCounterLoRead hb hl, fun hk => ?_, exec_perfCounterLoRead hb hl (k := 6) (by decide), fun hk => ⟨?_, ?_⟩,
    fun h hk hh => ?_, ⟨_, congrArg Host.Outcome.next (if_neg (not_unreachable hb)), ?_⟩, ⟨_, congrArg Host.Outcome.next
        (if_neg (not_unreachable hb)), ?_⟩⟩⟩
  · have hn : ¬ bar0 s p = true := by simp [hb]
    have hn' : (!bar0 s p) = true := by simp [hb]
    have hk : ¬ (bar0 s p && decide (k < 7)) = true := by simp [hb]
    simp only [List.forall_mem_cons]
    exact ⟨congrArg Host.Outcome.next (if_neg hn), congrArg Host.Outcome.next (if_neg hn), congrArg Host.Outcome.next
        (if_neg hn), congrArg Host.Outcome.next (if_neg hk),
      congrArg Host.Outcome.next (if_neg hk), congrArg Host.Outcome.next (if_pos hn'), congrArg Host.Outcome.next (if_pos hn'),
          congrArg Host.Outcome.next (if_pos hn'), fun _ h => nomatch h⟩
  · exact congrArg Port.tickHi (State.port_updPort s p _ (bar0_port hb hl))
  · exact congrArg Port.timeHi (State.port_updPort s p _ (bar0_port hb hl))
  · exact congrArg Port.offHi (State.port_updPort s p _ (bar0_port hb hl))
  · have hv : perfValue s p k = s.work.perf.getD k 0 := if_pos hk
    rw [← hv]
    exact exec_perfCounterLoRead hb hl (by omega)
  · exact congrArg Host.Outcome.next (if_neg (by simp [hk]))
  · exact congrArg Host.Outcome.next (if_neg (by simp [hk]))
  · have hm : min k 2 = k := by omega
    refine ⟨{ (s.updPort p fun x => { x with health := h }) with pins.answer := leBytes 4 h.epoch }, ?_, rfl, ?_⟩
    · refine congrArg Host.Outcome.next ((if_neg (not_unreachable hb)).trans ?_)
      rw [hm, hh]
    · exact congrArg Port.health (State.port_updPort s p _ (bar0_port hb hl))
  · exact congrArg Port.recCursor (State.port_updPort (answerReg s p 0x124C) p _ (bar0_port hb hl))
  · exact congrArg Port.snapChunk (State.port_updPort (answerReg s p 0x128C) p _ (bar0_port hb hl))

/-! ### The registers of an admin queue (R94) -/

section
variable {s : State} {p : Nat}

theorem aligned4k_iff (b : Nat) : aligned4k b = true ↔ b % 4096 = 0 := by simp [aligned4k]

/-- The sizes and bases with which an admin queue may be enabled (R94). -/
def admqGood (a : Admq) : Bool :=
  decide (4 ≤ a.sqLog2) && decide (a.sqLog2 ≤ 12) && (decide (4 ≤ a.cqLog2) && decide (a.cqLog2 ≤ 12))
    && aligned4k a.sqBase && aligned4k a.cqBase

/-- A port whose admin queue is enabled: both rings start at position 0, or CFG_BAD is set. -/
def enablePort (p : Nat) (x : Port) : Port :=
  if admqGood x.admq then
    let a := x.admq
    { x with admq := { a with
        enable := true, running := true, cfgBad := false, lockedUntil := none,
        sq := freshSq p a.sqBase a.sqLog2, cq := freshCq p a.cqBase a.cqLog2 a.vector } }
  else { x with admq.cfgBad := true }

/-- What an SQ accepts of its doorbell (R63): an index below N, and a tail neither beyond the ring nor moved back. -/
def SqAccepts (q : Sq) (v : Nat) : Prop :=
  let n := 2 ^ q.log2n
  let t := v / 65536 % 2 * n + v % 65536
  v % 65536 < n ∧ dist n t q.head ≤ n ∧ dist n q.tail q.head ≤ dist n t q.head

theorem sqRing_accepted {q : Sq} {v : Nat} (h : SqAccepts q v) :
    sqRing q v = { q with tail := v / 65536 % 2 * 2 ^ q.log2n + v % 65536 } := by
  obtain ⟨h1, h2, h3⟩ := h
  simp [sqRing, bits_index, bits_lap, pos, ringN, Nat.not_le.2 h1, Nat.not_lt.2 h2, Nat.not_lt.2 h3]

theorem sqRing_malformed {q : Sq} {v : Nat} (h : ¬ SqAccepts q v) :
    (sqRing q v).state = .error ∧ (sqRing q v).head = q.head ∧ (sqRing q v).tail = q.tail := by
  simp only [sqRing, bits_index, bits_lap, pos, ringN]
  split
  · exact ⟨rfl, rfl, rfl⟩
  next h1 =>
    split
    · exact ⟨rfl, rfl, rfl⟩
    next h2 =>
      split
      · exact ⟨rfl, rfl, rfl⟩
      next h3 => exact absurd ⟨Nat.not_le.1 h1, Nat.not_lt.1 h2, Nat.not_lt.1 h3⟩ h

/-- A head that a CQ accepts moves it on, bit 31 arming its interrupt (R64). -/
theorem cqRing_moved (c : Cq) (v b : Nat) (hv : v < 2 ^ 32) :
    (cqRing c v b).head = v / 65536 % 2 * 2 ^ c.log2n + v % 65536 ∧ (cqRing c v b).state = c.state
      ∧ ((cqRing c v b).armed = true ↔ c.armed = true ∨ 2 ^ 31 ≤ v) := by
  rw [cqRing_eq]
  dsimp only
  split
  next h => exact ⟨rfl, rfl, iff_of_true rfl (.inr (by omega))⟩
  next h => exact ⟨rfl, rfl, (or_iff_left (by omega)).symm⟩

theorem bar0_of_bar0Write (h : bar0Write s p = true) : bar0 s p = true := by
  unfold bar0Write at h
  exact Bool.and_elim_left h

theorem port_of_bar0 (h : bar0 s p = true) (hl : s.ports.length = 4) : p < s.ports.length := by
  simp only [bar0, Bool.and_eq_true, decide_eq_true_eq] at h
  omega

theorem exec_admqEnable (hw : bar0Write s p = true) (he : (s.port p).admq.enable = false) :
    exec (.admqEnable p) s = .next (s.updPort p (enablePort p)) :=
  congrArg Host.Outcome.next (if_neg (by rw [hw, he]; decide))

/-- Where a state's port takes `f`, the state's update is that of any function agreeing on the port. -/
theorem State.updPort_congr (f g : Port → Port) (h : f (s.port p) = g (s.port p)) : s.updPort p f = s.updPort p g := by
  have hl : s.ports.modify p f = s.ports.modify p g := by
    refine List.ext_getElem? fun i => ?_
    rw [List.getElem?_modify, List.getElem?_modify]
    split
    next hi =>
      subst hi
      cases hp : s.ports[p]? with
      | none => rfl
      | some x =>
        have hx : s.port p = x := by simp [State.port, List.getD_eq_getElem?_getD, hp]
        rw [hx] at h
        simp [h]
    next hi => rfl
  unfold State.updPort
  rw [hl]

/-- An update that keeps the port keeps the state. -/
theorem State.updPort_self (f : Port → Port) (h : f (s.port p) = s.port p) : s.updPort p f = s := by
  rw [State.updPort_congr f id h]
  simp [State.updPort]

/-- A port whose queue is disabled stops what it fetched, its commands going on. -/
theorem stopAdmq_keeps (hl : p < s.ports.length) : (stopAdmq s p).adm = s.adm
    ∧ ((stopAdmq s p).port p).admq.enable = (s.port p).admq.enable
    ∧ ((stopAdmq s p).port p).admq.sq = (s.port p).admq.sq := by
  unfold stopAdmq
  dsimp only
  split
  · rw [State.port_updPort s p _ hl]
    exact ⟨rfl, rfl, rfl⟩
  · exact ⟨rfl, rfl, rfl⟩

end

/-- Settles O50: each write is one update of its port, which the fields of the value decide. -/
theorem adminQueueRegisters : Obligations.AdminQueueRegisters := by
  unfold Obligations.AdminQueueRegisters
  intro s p v a good
  have hgood : admqGood a = true ↔ good := by simp [admqGood, good, aligned4k_iff, and_assoc]
  refine ⟨fun hw hl => ⟨fun he hg => ?_, fun he hg => ?_, fun he => ?_, fun he => ?_, fun he => ?_⟩,
    fun hw => ⟨?_, ?_⟩, fun hb => ⟨?_, ?_⟩, fun h => ?_, fun hb hl hv => ⟨fun he hr => ?_, fun h => ?_, fun hr hc => ?_⟩⟩
  · refine ⟨_, exec_admqEnable hw he, ?_⟩
    have hx : (s.updPort p (enablePort p)).port p = _ :=
      (State.port_updPort s p _ (port_of_bar0 (bar0_of_bar0Write hw) hl)).trans (if_pos (hgood.2 hg))
    rw [hx]
    exact ⟨rfl, rfl, rfl, rfl, rfl, rfl, rfl, rfl, rfl, fun r hr => State.port_updPort_ne s p r _ hr⟩
  · rw [exec_admqEnable hw he, State.updPort_congr _ (fun x => { x with admq.cfgBad := true })
      (if_neg fun h => hg (hgood.1 h))]
  · exact congrArg Host.Outcome.next (if_pos (by simp [show (s.port p).admq.enable = true from he]))
  · exact congrArg Host.Outcome.next (if_pos (by simp [show (s.port p).admq.enable = false from he]))
  · have hp := port_of_bar0 (bar0_of_bar0Write hw) hl
    have hx := State.port_updPort s p (fun x => { x with admq.enable := false, admq.sq.tail := x.admq.sq.head }) hp
    obtain ⟨hadm, hen, hsq⟩ := stopAdmq_keeps (p := p)
      (s := s.updPort p fun x => { x with admq.enable := false, admq.sq.tail := x.admq.sq.head })
      (by simpa [State.updPort] using hp)
    refine ⟨_, congrArg Host.Outcome.next (if_neg (by rw [hw, show (s.port p).admq.enable = true from he]; decide)),
      hen.trans (by rw [hx]), ?_, congrArg (·.cmds) hadm⟩
    rw [hsq, hx]
  · exact congrArg Host.Outcome.next (if_pos (by simp [hw]))
  · exact congrArg Host.Outcome.next (if_pos (by simp [hw]))
  · exact congrArg Host.Outcome.next (if_pos (by simp [hb]))
  · exact congrArg Host.Outcome.next (if_pos (by simp [hb]))
  · refine congrArg Host.Outcome.next ?_
    have hn : ¬ (a.enable && a.sq.state.rings) = true := by
      rcases h with h | h <;> simp [h]
    dsimp only
    rw [if_neg hn, ite_self]
  · intro n q ok
    have hg : ((s.port p).admq.enable && (s.port p).admq.sq.state.rings) = true := by
      rw [show (s.port p).admq.enable = true from he, show (s.port p).admq.sq.state.rings = true from hr]
      rfl
    have hx : ∀ y, ({ (s.updPort p fun x => { x with admq.sq := y }) with stw.events := s.stw.events ||| 1 }).port p
      = { s.port p with admq.sq := y } := fun y => State.port_updPort s p _ (port_of_bar0 hb hl)
    refine ⟨_, congrArg Host.Outcome.next ((if_neg (by simp [hb])).trans (if_pos hg)), fun h => ?_, fun h => ?_⟩
    · rw [hx, Nat.mod_eq_of_lt hv]
      exact sqRing_accepted h
    · rw [hx, Nat.mod_eq_of_lt hv]
      exact sqRing_malformed h
  · have hn : (!a.running || !a.cq.state.rings) = true := by
      rcases h with h | h <;> simp [h]
    refine congrArg Host.Outcome.next ((if_neg (by simp [hb])).trans (State.updPort_self _ ?_))
    exact if_pos hn
  · have hn : ¬ (!a.running || !a.cq.state.rings) = true := by simp [hr, hc]
    have hp := port_of_bar0 hb hl
    have hm : v % 2 ^ 32 = v := Nat.mod_eq_of_lt hv
    refine ⟨_, congrArg Host.Outcome.next (if_neg (by simp [hb])), ?_⟩
    intro n h q
    rw [State.port_updPort s p _ hp, if_neg hn, hm]
    refine ⟨fun hbad => ?_, fun hh hd => ?_⟩
    · rw [if_pos ((cqRingBad_iff a.cq v).2 hbad)]
      refine ⟨rfl, rfl, ?_⟩
      simp only [beq_iff_eq]
      rfl
    · rw [if_neg fun hbad => ((cqRingBad_iff a.cq v).1 hbad).elim (Nat.not_le.2 hh) (Nat.not_lt.2 hd)]
      exact cqRing_moved a.cq v (now s + 1) hv

end Sys2Proof.Machine
end

section
/-! Raises, boot and staging -/

namespace Sys2Proof.Machine
open Sys2Proof.Claims

/-! ### Raising a source (R386, Table 14.9) -/

section
variable (s : State)

/-- A record changes the recorder, and on VBAK the retention SRAM, whatever its severity. -/
theorem snapTrigger_eq (b : Nat) : ∃ d, snapTrigger s b = { s with hwd.snap.due := d } := by
  unfold snapTrigger
  split
  · exact ⟨_, rfl⟩
  · exact ⟨_, rfl⟩

/-- A snapshot changes its slots and the recorder. -/
theorem takeSnapshot_eq (triggers source : Nat) : ∃ sn r ret dr, takeSnapshot s triggers source
    = { s with hwd.snap := sn, recd := r, hwd.retention := ret, hwd.dropped := dr } := by
  obtain ⟨r, ret, dr, h⟩ := emit_eq { s with
    hwd.snap.slots := (s.hwd.snap.next % 128, snapBytes s triggers source s.hwd.snap.missed)
      :: s.hwd.snap.slots.filter (·.1 != s.hwd.snap.next % 128),
    hwd.snap.next := (s.hwd.snap.next + 1) % 2 ^ 32, hwd.snap.missed := 0 } 0x0403 0 0 s.hwd.snap.next
  exact ⟨_, r, ret, dr, h⟩

/-- FENCE messages change the tether alone. -/
theorem sendFence_eq (src : Nat) : ∃ o ms rg, sendFence s src
    = { s with tether.out := o, tether.members := ms, tether.ring := rg } := by
  unfold sendFence
  generalize (s.tether.links.filter (·.state == .paired)).map (·.peer) = l
  induction l generalizing s with
  | nil => exact ⟨_, _, _, rfl⟩
  | cons d l ih =>
    obtain ⟨o, ms, rg, h⟩ := ih (sendMsg s d 5 (leBytes 2 src ++ zeros 2))
    exact ⟨o, ms, rg, h⟩

/-- The data path stops: every job without a posted CE, every slice and every MXU command is gone. -/
theorem stopCore_eq (src : Nat) : ∃ o ms rg, stopCore s src = { s with
    faults.errN := false, faults.raises := [],
    work.jobs := [], work.unposted := [], work.cqs := s.work.cqs.map (fun c => { c with heldCes := [], reserved := 0 }),
    work.done := [], work.zeroising := [],
    exec.runs := [], exec.mxu := [], exec.mxuZero := [], entropy.waiting := s.entropy.waiting.filter (·.2.isNone),
    adm.changes := s.adm.changes.filter (fun c => match c with | .reg _ _ _ => false | _ => true),
    groves := s.groves.map (fun g => { g with cache := [] }),
    tether.out := o, tether.members := ms, tether.ring := rg } := sendFence_eq ..

/-- The fault state after a raise: the source counted, and a raise of severity 2 or 3 waiting for the boundary, which overrides
an update of its unit. -/
def raisedFaults (src unit : Nat) : Faults :=
  let sev := sevOf s src
  let due := sev = 2 ∨ sev = 3
  { s.faults with
    raised := (src, satInc 65535 (raisedOf s src)) :: s.faults.raised.filter (·.1 != src),
    degraded := if sev = 2 then satInc 65535 s.faults.degraded else s.faults.degraded,
    contained := if sev = 3 then satInc 65535 s.faults.contained else s.faults.contained,
    mgAlertN := if 2 ≤ sev then false else s.faults.mgAlertN,
    raises := if due then s.faults.raises ++ [{ source := src, sev := sev, unit := unit }] else s.faults.raises,
    updates := if due then s.faults.updates.filter fun h => h.unit != unit else s.faults.updates }

/-- The snapshot that a severity asks for. -/
theorem snapOfSev_eq (sev : Nat) : ∃ d, (if sev = 2 then snapTrigger s 2 else if sev = 3 then snapTrigger s 3 else s)
    = { s with hwd.snap.due := d } := by
  split
  · exact snapTrigger_eq s 2
  · split
    · exact snapTrigger_eq s 3
    · exact ⟨_, rfl⟩

theorem raiseCore_eq (src unit p2 : Nat) (inj : Bool) : ∃ r ret dr due, raiseCore s src unit p2 inj
    = { s with faults := raisedFaults s src unit, recd := r, hwd.retention := ret, hwd.dropped := dr, hwd.snap.due := due,
               stw.events := s.stw.events ||| 4 } := by
  unfold raiseCore
  dsimp only
  generalize hu : ({ s with faults := _ } : State) = u
  obtain ⟨r, ret, dr, he⟩ := emitRec_eq u (0x1000 + src / 1024) (sevOf s src) unit src (satInc 65535 (raisedOf s src)) p2 inj
  obtain ⟨due, hd⟩ := snapOfSev_eq { u with recd := r, hwd.retention := ret, hwd.dropped := dr } (sevOf s src)
  rw [he, hd]
  subst hu
  unfold raisedFaults
  by_cases h2 : 2 ≤ sevOf s src <;> by_cases h3 : sevOf s src = 2 ∨ sevOf s src = 3
  · simp only [if_pos h2, if_pos h3]
    exact ⟨_, _, _, _, rfl⟩
  · simp only [if_pos h2, if_neg h3]
    exact ⟨_, _, _, _, rfl⟩
  · omega
  · simp only [if_neg h2, if_neg h3]
    exact ⟨_, _, _, _, rfl⟩

/-- Below FATAL a raise changes the fault state, the recorder, the snapshot due and the stewards' events. -/
theorem raise_eq {src : Nat} (h : sevOf s src ≠ 4) (unit p2 : Nat) (inj : Bool) : ∃ r ret dr due, raise s src unit p2 inj
    = { s with faults := raisedFaults s src unit, recd := r, hwd.retention := ret, hwd.dropped := dr, hwd.snap.due := due,
               stw.events := s.stw.events ||| 4 } := by
  obtain ⟨r, ret, dr, due, e⟩ := raiseCore_eq s src unit p2 inj
  exact ⟨r, ret, dr, due, (if_neg h).trans e⟩

end

/-- All that a raise can change, FATAL ones included: what stops with the data path, the fault state, the recorder, and in
heartwood the retention SRAM, the snapshots and the dump. -/
def RaiseLeaves (s t : State) : Prop := ∃ fl rc ret dr sn du jb un cq dn ze ex wt ch gr o ms rg ev, t = { s with
    faults := fl, recd := rc, hwd.retention := ret, hwd.dropped := dr, hwd.snap := sn, hwd.dump := du,
    work.jobs := jb, work.unposted := un, work.cqs := cq, work.done := dn, work.zeroising := ze,
    exec := ex, entropy.waiting := wt, adm.changes := ch, groves := gr,
    tether.out := o, tether.members := ms, tether.ring := rg, stw.events := ev }
  ∧ (jb = s.work.jobs ∨ jb = [])

theorem RaiseLeaves.refl (s : State) : RaiseLeaves s s :=
  ⟨_, _, _, _, _, _, _, _, _, _, _, _, _, _, _, _, _, _, _, rfl, .inl rfl⟩

theorem RaiseLeaves.trans {s t u : State} (h : RaiseLeaves s t) (k : RaiseLeaves t u) : RaiseLeaves s u := by
  obtain ⟨fl, rc, ret, dr, sn, du, jb, un, cq, dn, ze, ex, wt, ch, gr, o, ms, rg, ev, rfl, hj⟩ := h
  obtain ⟨fl', rc', ret', dr', sn', du', jb', un', cq', dn', ze', ex', wt', ch', gr', o', ms', rg', ev', rfl, hj'⟩ := k
  refine ⟨fl', rc', ret', dr', sn', du', jb', un', cq', dn', ze', ex', wt', ch', gr', o', ms', rg', ev', rfl, ?_⟩
  rcases hj' with h | h
  · exact hj.imp (h.trans ·) (h.trans ·)
  · exact .inr h

theorem emitRec_raiseLeaves (s : State) (code sev unit p0 p1 p2 : Nat) (inj : Bool) :
    RaiseLeaves s (emitRec s code sev unit p0 p1 p2 inj) := by
  obtain ⟨r, ret, dr, h⟩ := emitRec_eq s code sev unit p0 p1 p2 inj
  exact ⟨_, _, _, _, _, _, _, _, _, _, _, _, _, _, _, _, _, _, _, h, .inl rfl⟩

theorem takeSnapshot_raiseLeaves (s : State) (tr src : Nat) : RaiseLeaves s (takeSnapshot s tr src) := by
  obtain ⟨sn, r, ret, dr, h⟩ := takeSnapshot_eq s tr src
  exact ⟨_, _, _, _, _, _, _, _, _, _, _, _, _, _, _, _, _, _, _, h, .inl rfl⟩

theorem stopCore_raiseLeaves (s : State) (src : Nat) : RaiseLeaves s (stopCore s src) := by
  obtain ⟨o, ms, rg, h⟩ := stopCore_eq s src
  exact ⟨_, _, _, _, _, _, _, _, _, _, _, _, _, _, _, _, _, _, _, h, .inr rfl⟩

theorem safeCore_raiseLeaves (s : State) (src : Nat) (self inj : Bool) : RaiseLeaves s (safeCore s src self inj) := by
  unfold safeCore
  split
  · exact .refl s
  · refine RaiseLeaves.trans ?_ (takeSnapshot_raiseLeaves _ _ _)
    refine RaiseLeaves.trans (t := emitRec _ _ _ _ _ _ _ _) ?_
      ⟨_, _, _, _, _, _, _, _, _, _, _, _, _, _, _, _, _, _, _, rfl, .inl rfl⟩
    refine RaiseLeaves.trans ?_ (emitRec_raiseLeaves _ _ _ _ _ _ _ _)
    exact RaiseLeaves.trans ⟨_, _, _, _, _, _, _, _, _, _, _, _, _, _, _, _, _, _, _, rfl, .inl rfl⟩ (stopCore_raiseLeaves _ src)

theorem raise_leaves (s : State) (src unit p2 : Nat) (inj : Bool) : RaiseLeaves s (raise s src unit p2 inj) := by
  obtain ⟨r, ret, dr, due, h⟩ := raiseCore_eq s src unit p2 inj
  have hc : RaiseLeaves s (raiseCore s src unit p2 inj) :=
    ⟨_, _, _, _, _, _, _, _, _, _, _, _, _, _, _, _, _, _, _, h, .inl rfl⟩
  unfold raise
  dsimp only
  split
  · exact hc.trans (safeCore_raiseLeaves _ src false inj)
  · exact hc

theorem raiseSrc_leaves (s : State) (group index p2 : Nat) : RaiseLeaves s (raiseSrc s group index p2) := raise_leaves ..

/-- The glitch alarm raises its source, and heartwood's channel sees it. -/
theorem glitchAlarm_leaves (s : State) (inst kind unit : Nat) :
    ∃ u, RaiseLeaves s u ∧ glitchAlarm s inst kind unit = { u with hwd.glitch := true } :=
  ⟨_, (raiseSrc_leaves s 0x1D 0 kind).trans (emitRec_raiseLeaves _ _ _ _ _ _ _ _), rfl⟩

/-! ### What the steps of a boot keep -/

/-- What a boot's steps after heartwood leave alone: the clock, the fuses and the state they spell, the pins, the heartwood key,
the floor and host memory; no work comes to be. -/
def BootKeeps (s t : State) : Prop :=
  t.tick = s.tick ∧ t.life = s.life ∧ t.pins = s.pins ∧ t.hwd.key = s.hwd.key ∧ t.grafts.floorBits = s.grafts.floorBits
    ∧ t.hostMem = s.hostMem ∧ t.work.sqs = s.work.sqs ∧ (s.work.jobs = [] → t.work.jobs = [])

theorem BootKeeps.refl (s : State) : BootKeeps s s := ⟨rfl, rfl, rfl, rfl, rfl, rfl, rfl, id⟩

theorem BootKeeps.trans {s t u : State} (h : BootKeeps s t) (k : BootKeeps t u) : BootKeeps s u := by
  obtain ⟨h1, h2, h3, h4, h5, h6, h7, h8⟩ := h
  obtain ⟨k1, k2, k3, k4, k5, k6, k7, k8⟩ := k
  exact ⟨k1.trans h1, k2.trans h2, k3.trans h3, k4.trans h4, k5.trans h5, k6.trans h6, k7.trans h7, fun h => k8 (h8 h)⟩

/-- The other parts of the state do not count. -/
theorem bootKeeps_mk {r s : State} {v0 v1 v2 v3 v4 v5 v6 v7 v8 v9 v10 v11 v12 v13 v14 v15 v16 v17 v18 v19 v20 v21 v22 v23 v24 v25}
    (h : BootKeeps r s) : BootKeeps r { s with
      pending := v0, adm := v1, insts := v2, tlb := v3, ports := v4, msix := v5, busMaster := v6, writes := v7, store := v8,
      shelf := v9, exec := v10, entropy := v11, stw := v12, power := v13, tether := v14, groves := v15, engines := v16,
      masks := v17, faults := v18, recd := v19, htime := v20, vault := v21, flashSize := v22, stopped := v23, pllGap := v24,
      freeCtr := v25 } := h

theorem bootKeeps_grafts {r s : State} {g : Grafts} (h : BootKeeps r s) (hg : g.floorBits = s.grafts.floorBits) :
    BootKeeps r { s with grafts := g } := by
  obtain ⟨h1, h2, h3, h4, h5, h6, h7, h8⟩ := h
  exact ⟨h1, h2, h3, h4, hg.trans h5, h6, h7, h8⟩

theorem foldl_bootKeeps {α : Type} {f : State → α → State} (hf : ∀ s a, BootKeeps s (f s a)) (l : List α) (s : State) :
    BootKeeps s (l.foldl f s) := by
  induction l generalizing s with
  | nil => exact .refl s
  | cons a l ih => exact (hf s a).trans (ih _)

section
variable (s : State)

theorem emit_bootKeeps (code p0 p1 p2 : Nat) : BootKeeps s (emit s code p0 p1 p2) := by
  obtain ⟨r, ret, dr, h⟩ := emit_eq s code p0 p1 p2
  rw [h]
  exact ⟨rfl, rfl, rfl, rfl, rfl, rfl, rfl, id⟩

theorem raiseSrc_bootKeeps (g i p2 : Nat) : BootKeeps s (raiseSrc s g i p2) := by
  obtain ⟨_, _, _, _, _, _, jb, _, _, _, _, _, _, _, _, _, _, _, _, h, hj⟩ := raiseSrc_leaves s g i p2
  rw [h]
  exact ⟨rfl, rfl, rfl, rfl, rfl, rfl, rfl, fun hs => hj.elim (·.trans hs) id⟩

/-! ### Loading grafts without a glitch -/

theorem imageAlarm_false (r : Except Nat Bytes) : imageAlarm s false r = s := by
  unfold imageAlarm
  split <;> rfl

theorem loadLibrary_bootKeeps (b : Bytes) : BootKeeps s (loadLibrary s b) := by
  unfold loadLibrary
  split
  · exact .refl s
  · exact ⟨rfl, rfl, rfl, rfl, rfl, rfl, rfl, id⟩

theorem trySlot_bootKeeps (slot : Nat) : BootKeeps s (trySlot s slot none).1 := by
  unfold trySlot
  dsimp only
  rw [show ((none : Option Nat) == some (slot + 1)) = false from rfl, imageAlarm_false]
  split
  · exact BootKeeps.trans ⟨rfl, rfl, rfl, rfl, rfl, rfl, rfl, id⟩ (loadLibrary_bootKeeps _ _)
  · exact BootKeeps.trans ⟨rfl, rfl, rfl, rfl, rfl, rfl, rfl, id⟩ (emit_bootKeeps _ _ _ _ _)

theorem loadOwner_bootKeeps : BootKeeps s (loadOwner s none) := by
  unfold loadOwner
  split
  · exact .refl s
  · dsimp only
    rw [show ((none : Option Nat) == some 4) = false from rfl, imageAlarm_false]
    split
    · exact .refl s
    · exact (loadLibrary_bootKeeps s _).trans ⟨rfl, rfl, rfl, rfl, rfl, rfl, rfl, id⟩

theorem loadRoutine_bootKeeps (code e : Bytes) : BootKeeps s (loadRoutine code s e) := by
  unfold loadRoutine
  split
  · exact ⟨rfl, rfl, rfl, rfl, rfl, rfl, rfl, id⟩
  · exact BootKeeps.trans ⟨rfl, rfl, rfl, rfl, rfl, rfl, rfl, id⟩ (emit_bootKeeps _ _ _ _ _)

theorem loadBundle_bootKeeps : BootKeeps s (loadBundle s none) := by
  unfold loadBundle
  split
  · exact .refl s
  · dsimp only
    rw [show ((none : Option Nat) == some 5) = false from rfl, imageAlarm_false]
    split
    · exact emit_bootKeeps _ _ _ _ _
    · exact BootKeeps.trans ⟨rfl, rfl, rfl, rfl, rfl, rfl, rfl, id⟩
        (foldl_bootKeeps (fun s e => loadRoutine_bootKeeps s _ e) _ _)

/-- A second slot is tried where the first one fails. -/
theorem trySlots_bootKeeps {r : State × Bool} (h : BootKeeps s r.1) (slot : Nat) :
    BootKeeps s (if r.2 then r else trySlot r.1 slot none).1 := by
  split
  · exact h
  · exact h.trans (trySlot_bootKeeps _ _)

/-- With no slot that loads, the source is raised or a record is made. -/
theorem vendorMissing_bootKeeps (u : State) (ok : Bool) (h : BootKeeps s u) :
    BootKeeps s (if ok then u else if 0 < u.floorT then raiseSrc u 0x20 0 0 else emit u 0x0302 0 0 0) := by
  split
  · exact h
  · split
    · exact h.trans (raiseSrc_bootKeeps _ _ _ _)
    · exact h.trans (emit_bootKeeps _ _ _ _ _)

theorem loadGrafts_bootKeeps : BootKeeps s (loadGrafts s none) := by
  unfold loadGrafts
  extract_lets u1 va vb first r1 r2 u2 u3 u4
  have h1 : BootKeeps s u1 := bootKeeps_grafts (.refl s) rfl
  clear_value first u1
  have hr1 : BootKeeps s r1.1 := h1.trans (trySlot_bootKeeps u1 first)
  clear_value r1
  have hr2 : BootKeeps s r2.1 := trySlots_bootKeeps s hr1 _
  clear_value r2
  have h3 : BootKeeps s u3 := vendorMissing_bootKeeps s r2.1 r2.2 hr2
  clear_value u3
  have h4 : BootKeeps s u4 := (h3.trans (loadOwner_bootKeeps _)).trans (loadBundle_bootKeeps _)
  clear_value u4
  exact bootKeeps_grafts h4 rfl

/-! ### BIST and the vault -/

theorem refreshGrove_bootKeeps (g : Nat) : BootKeeps s (refreshGrove s g) := bootKeeps_mk (.refl s)

theorem bootBist_bootKeeps (failed : List Nat) (recovery : Bool) : BootKeeps s (bootBist s failed recovery) := by
  unfold bootBist
  exact bootKeeps_mk (BootKeeps.trans (bootKeeps_mk (.refl s)) (foldl_bootKeeps refreshGrove_bootKeeps _ _))

theorem vaultReport_bootKeeps : BootKeeps s (vaultReport s) := by
  have h1 : BootKeeps s (if s.vault.fixed then raiseSrc { s with vault.fixed := false } 0x12 0 0 else s) := by
    split
    · exact BootKeeps.trans (bootKeeps_mk (.refl s)) (raiseSrc_bootKeeps _ _ _ _)
    · exact .refl s
  unfold vaultReport
  refine h1.trans ?_
  generalize (if s.vault.fixed then raiseSrc { s with vault.fixed := false } 0x12 0 0 else s) = u
  dsimp only
  split
  · exact BootKeeps.trans (bootKeeps_mk (.refl u)) (raiseSrc_bootKeeps _ _ _ _)
  · exact .refl u

theorem cacheCtx_bootKeeps (tag : VaultTag) : BootKeeps s (cacheCtx s tag) := bootKeeps_mk (.refl s)

theorem syncVault_bootKeeps : BootKeeps s (syncVault s) := by
  unfold syncVault
  split
  · exact .refl s
  · refine BootKeeps.trans ?_ (vaultReport_bootKeeps _)
    exact BootKeeps.trans (bootKeeps_mk (.refl s)) (foldl_bootKeeps cacheCtx_bootKeeps _ _)

theorem bootVault_bootKeeps (flash : List (Nat × Nat × Byte)) : BootKeeps s (bootVault s flash) := by
  unfold bootVault
  dsimp only
  split
  · exact BootKeeps.trans (bootKeeps_mk (.refl s)) (syncVault_bootKeeps _)
  · exact BootKeeps.trans (bootKeeps_mk (.refl s)) (emit_bootKeeps _ _ _ _ _)

end

/-! ### Step 1, heartwood -/

section
variable (s : State)

theorem flushRetention_bootKeeps : BootKeeps s (flushRetention s) := by
  unfold flushRetention
  extract_lets put
  refine BootKeeps.trans ?_ (foldl_bootKeeps (f := put) (fun s r => bootKeeps_mk (.refl s)) _ _)
  exact ⟨rfl, rfl, rfl, rfl, rfl, rfl, rfl, id⟩

/-- What step 1 leaves alone: all that the later steps leave, but the boot step and the heartwood key. -/
def StepOneKeeps (s t : State) : Prop :=
  t.tick = s.tick ∧ t.life = s.life ∧ t.pins.pwrFailN = s.pins.pwrFailN ∧ t.grafts.floorBits = s.grafts.floorBits
    ∧ t.hostMem = s.hostMem ∧ t.work.sqs = s.work.sqs ∧ (s.work.jobs = [] → t.work.jobs = [])

theorem stepOneKeeps_of_bootKeeps {s t : State} (h : BootKeeps s t) : StepOneKeeps s t := by
  obtain ⟨h1, h2, h3, -, h5, h6, h7, h8⟩ := h
  exact ⟨h1, h2, congrArg (·.pwrFailN) h3, h5, h6, h7, h8⟩

theorem StepOneKeeps.trans {s t u : State} (h : StepOneKeeps s t) (k : StepOneKeeps t u) : StepOneKeeps s u := by
  obtain ⟨h1, h2, h3, h4, h5, h6, h7⟩ := h
  obtain ⟨k1, k2, k3, k4, k5, k6, k7⟩ := k
  exact ⟨k1.trans h1, k2.trans h2, k3.trans h3, k4.trans h4, k5.trans h5, k6.trans h6, fun h => k7 (h7 h)⟩

theorem key_of_bootKeeps {s t : State} (h : BootKeeps s t) : t.hwd.key = s.hwd.key := by
  obtain ⟨-, -, -, h, -⟩ := h
  exact h

/-- Heartwood has a key after step 1: the one it kept, its copy, or a fresh one. -/
theorem heartwoodKey_keeps : StepOneKeeps s (heartwoodKey s) ∧ (heartwoodKey s).hwd.key.isSome = true := by
  unfold heartwoodKey
  split
  next h => exact ⟨stepOneKeeps_of_bootKeeps (.refl s), h⟩
  next =>
    split
    next h => exact ⟨⟨rfl, rfl, rfl, rfl, rfl, rfl, id⟩, h.2⟩
    next =>
      refine ⟨StepOneKeeps.trans ?_ (stepOneKeeps_of_bootKeeps (emit_bootKeeps _ _ _ _ _)),
        (congrArg Option.isSome (key_of_bootKeeps (emit_bootKeeps _ _ _ _ _))).trans rfl⟩
      exact ⟨rfl, rfl, rfl, rfl, rfl, rfl, id⟩

/-- A cold start of heartwood is recorded. -/
theorem coldRecorded_bootKeeps (c : Bool) : BootKeeps s (if c then emit s 0x0006 0 0 0 else s) := by
  split
  · exact emit_bootKeeps ..
  · exact .refl s

theorem bootHeartwood_keeps (byReset : Bool) : StepOneKeeps s (bootHeartwood s byReset)
    ∧ (bootHeartwood s byReset).hwd.key.isSome = true := by
  unfold bootHeartwood
  extract_lets +lift u1 _ u2 u3 u4 cause u5
  have h1 : BootKeeps s u1 := flushRetention_bootKeeps s
  clear_value u1
  have h2 : BootKeeps s u2 := h1.trans ⟨rfl, rfl, rfl, rfl, rfl, rfl, rfl, id⟩
  clear_value u2
  have h3 : BootKeeps s u3 := h2.trans (coldRecorded_bootKeeps u2 u2.hwd.cold)
  clear_value u3
  obtain ⟨h4, hk⟩ : StepOneKeeps u3 u4 ∧ u4.hwd.key.isSome = true := heartwoodKey_keeps u3
  clear_value u4
  have h5 : BootKeeps u4 u5 := emit_bootKeeps u4 ..
  clear_value u5
  refine ⟨((stepOneKeeps_of_bootKeeps h3).trans h4).trans ((stepOneKeeps_of_bootKeeps h5).trans ?_), ?_⟩
  · exact ⟨rfl, rfl, rfl, rfl, rfl, rfl, id⟩
  · exact (congrArg Option.isSome (key_of_bootKeeps h5)).trans hk

end

/-! ### The boot as a whole (R436) -/

section
variable (s : State) (env : BootEnv)

/-- The state after the cold start, with the straps sampled and a wipe done where the fuses spell SCRAP. -/
def bootWiped : State :=
  let u := coldStart s
  let u := { u with pins.role := env.role % 4, pins.split := env.split % 4, pins.mgAddr := env.mgAddr % 8 }
  if (decodeLcs u.life.otp).1 = .scrap then wipeAll u else u

theorem boot_eq (byReset : Bool) : boot s env byReset =
    let u := bootHeartwood (bootWiped s env) byReset
    if !u.pins.pwrFailN then { u with pins.held := true } else bootRest u env := rfl

theorem bootWiped_quiet : (bootWiped s env).tick = State.reset.tick ∧ (bootWiped s env).work.jobs = []
    ∧ (bootWiped s env).pins.pwrFailN = s.pins.pwrFailN := by
  unfold bootWiped
  dsimp only
  split <;> exact ⟨rfl, rfl, rfl⟩

theorem bootWiped_eq (h : (decodeLcs s.life.otp).1 ≠ .scrap) : (bootWiped s env).life.otp = s.life.otp
    ∧ (bootWiped s env).grafts.floorBits = s.grafts.floorBits ∧ (bootWiped s env).hostMem = s.hostMem
    ∧ (bootWiped s env).work.sqs = [] := by
  have h' : ¬ (decodeLcs (coldStart s).life.otp).1 = .scrap := h
  unfold bootWiped
  dsimp only
  rw [if_neg h']
  exact ⟨rfl, rfl, rfl, rfl⟩

/-- A boot with PWR_FAIL_N low is held after step 1. -/
theorem boot_held (byReset : Bool) (h : s.pins.pwrFailN = false) : (boot s env byReset).pins.held = true
    ∧ (boot s env byReset).tick.running = false ∧ (boot s env byReset).work.jobs = [] := by
  obtain ⟨⟨htick, -, hpin, -, -, -, hjobs⟩, -⟩ := bootHeartwood_keeps (bootWiped s env) byReset
  obtain ⟨wtick, wjobs, wpin⟩ := bootWiped_quiet s env
  rw [boot_eq]
  generalize bootHeartwood (bootWiped s env) byReset = u at *
  have hn : (!u.pins.pwrFailN) = true := by rw [hpin, wpin, h]; rfl
  dsimp only
  rw [if_pos hn]
  exact ⟨rfl, congrArg (·.running) (htick.trans wtick), hjobs wjobs⟩

/-- The firmware of a boot that goes through is the one of slot FW_A. -/
theorem bootFirmware_only {f : FwSlot} (hg : env.glitch = none) (hb : env.fwB = none) (ha : env.fwA = some f)
    (hs : f.signed = true) (hf : s.floorT ≤ f.version / 2 ^ 24) : bootFirmware s env = (s, some f.version) := by
  have ht : tryFirmware s (some f) false = (s, some f.version) := by
    have hc : (f.signed && !false || s.lcs == .test) && decide (s.floorT ≤ f.version / 2 ^ 24) := by simp [hs]; exact hf
    exact if_pos hc
  simp [bootFirmware, hg, hb, ha, ht]

/-- The state once the fuses are decoded (step 2). -/
def bootDecoded : State :=
  let env0 := if s.life.otp.envelope = 0 then 1 else s.life.otp.envelope
  { s with
    life.state := (decodeLcs s.life.otp).1, life.pending := (decodeLcs s.life.otp).2,
    life.debugOpen := (decodeLcs s.life.otp).1 == .test, pins.boot := 2,
    power.envelope := env0, power.limit := envelopeWatts env0,
    power.avs := env.avs, power.setpoint := if env.avs then 300 else 320 }

/-- A boot with an accepted firmware goes on with grafts, BIST and vault, and ticks start. -/
theorem bootRest_firmware {u : State} {v : Nat} (ht : env.selfTest = true) (hp : (decodeLcs s.life.otp).2 = none)
    (hs : (decodeLcs s.life.otp).1 ≠ .scrap) (hb : ¬ ((decodeLcs s.life.otp).1 = .blank ∨ (decodeLcs s.life.otp).1 = .invalid))
    (hfw : bootFirmware (bootDecoded s env) env = (u, some v)) :
    bootRest s env = bootReady (bootVault (bootBist (loadGrafts { u with life.fwVersion := v, pins.boot := 3 } env.glitch)
      env.failed false) env.flash) := by
  have hd : decodeLcs s.life.otp = ((decodeLcs s.life.otp).1, none) := Prod.ext rfl hp
  unfold bootRest
  rw [if_neg (by simp [ht]), hd]
  dsimp -zeta only
  extract_lets +lift env0 _ _ _ w _ recovery
  have hr : recovery = false := rfl
  clear_value recovery
  subst hr
  have hw : w = bootDecoded s env := by
    unfold bootDecoded
    rw [hp]
  clear_value w
  rw [if_neg hs, if_neg hb, hw, hfw]
  simp only [Bool.false_eq_true, if_false]
  rfl

/-- The state with the accepted firmware (step 3). -/
def bootAccepted (v : Nat) : State := { bootDecoded s env with life.fwVersion := v, pins.boot := 3 }

theorem bootRest_boots (h : Boots s env) : ∃ v, bootRest s env
    = bootReady (bootVault (bootBist (loadGrafts (bootAccepted s env v) none) env.failed false) env.flash) := by
  obtain ⟨ht, hp, hb, hi, hs, hg, hB, f, hA, hsg, hfl⟩ := h
  have hfw := bootFirmware_only (bootDecoded s env) env hg hB hA hsg hfl
  exact ⟨f.version, (bootRest_firmware s env ht hp hs (fun h => h.elim hb hi) hfw).trans (by rw [hg]; rfl)⟩

theorem bootRest_inService (h : Boots s env) (hk : s.hwd.key.isSome = true) (hj : s.work.jobs = []) (hq : s.work.sqs = [])
    (ht : s.tick.count = 0) : InService s (bootRest s env) := by
  obtain ⟨v, hv⟩ := bootRest_boots s env h
  have hx : BootKeeps (bootAccepted s env v) (bootVault (bootBist (loadGrafts (bootAccepted s env v) none) env.failed false)
      env.flash) :=
    ((loadGrafts_bootKeeps _).trans (bootBist_bootKeeps _ _ _)).trans (bootVault_bootKeeps _ _)
  rw [hv]
  generalize bootVault _ _ = u at hx
  obtain ⟨htick, hlife, -, hkey, -, hmem, hsqs, hjobs⟩ := hx
  refine ⟨rfl, rfl, ?_, congrArg (·.state) hlife, hjobs hj, hsqs.trans hq, (congrArg Option.isSome hkey).trans hk, hmem,
    fun x hx => ?_⟩
  · show u.tick.count % 2 ^ 48 = 0
    rw [htick, show (bootAccepted s env v).tick.count = 0 from ht]
    rfl
  · obtain ⟨p, -, rfl⟩ := List.mem_map.1 hx
    exact ⟨Nat.mul_mod_left p 256, rfl, rfl⟩

/-- A boot whose fuses, self-test and firmware are in order ends in service. -/
theorem boot_inService (byReset : Bool) (hp : s.pins.pwrFailN = true) (h : Boots s env) : InService s (boot s env byReset) := by
  obtain ⟨⟨htick, hlife, hpin, hfl, hmem, hsqs, hjobs⟩, hkey⟩ := bootHeartwood_keeps (bootWiped s env) byReset
  obtain ⟨wtick, wjobs, wpin⟩ := bootWiped_quiet s env
  obtain ⟨hself, hpend, hb, hi, hs, hrest⟩ := h
  obtain ⟨wotp, wfl, wmem, wsqs⟩ := bootWiped_eq s env hs
  rw [boot_eq]
  generalize bootHeartwood (bootWiped s env) byReset = u at *
  have hotp : u.life.otp = s.life.otp := (congrArg (·.otp) hlife).trans wotp
  have hfloor : u.floorT = s.floorT := congrArg (thermometer · 64) (hfl.trans wfl)
  have hn : ¬ (!u.pins.pwrFailN) = true := by rw [hpin, wpin, hp]; decide
  have hB : Boots u env := by
    unfold Boots
    rw [hotp, hfloor]
    exact ⟨hself, hpend, hb, hi, hs, hrest⟩
  obtain ⟨i1, i2, i3, i4, i5, i6, i7, i8, i9⟩ := bootRest_inService u env hB hkey (hjobs wjobs) (hsqs.trans wsqs)
    (by rw [htick, wtick]; rfl)
  dsimp only
  rw [if_neg hn]
  exact ⟨i1, i2, i3, i4.trans (by rw [hotp]), i5, i6, i7, i8.trans (hmem.trans wmem), i9⟩

/-- A held boot of a BLANK device goes on to wait for its life-cycle request. -/
theorem bootRest_blank (ht : env.selfTest = true) (h : (decodeLcs s.life.otp).1 = .blank) :
    (bootRest s env).pins.held = s.pins.held ∧ (bootRest s env).pins.boot = 2 ∧ (bootRest s env).lcs = .blank := by
  have hd : bootRest s env = bootDecoded s env := by
    unfold bootDecoded
    unfold bootRest
    generalize decodeLcs s.life.otp = d at *
    obtain ⟨st, pend⟩ := d
    obtain rfl : st = .blank := h
    rw [if_neg (by simp [ht])]
    rfl
  rw [hd]
  exact ⟨rfl, rfl, h⟩

end

/-! ### Power-fail stop (R26, R416) -/

/-- A change of heartwood and the recorder alone. -/
def Recorded (s t : State) : Prop := ∃ w r, t = { s with hwd := w, recd := r }

theorem Recorded.trans {s t u : State} (h : Recorded s t) (k : Recorded t u) : Recorded s u := by
  obtain ⟨w, r, rfl⟩ := h
  obtain ⟨w', r', rfl⟩ := k
  exact ⟨w', r', rfl⟩

theorem emit_recorded (s : State) (code p0 p1 p2 : Nat) : Recorded s (emit s code p0 p1 p2) := by
  obtain ⟨r, ret, dr, h⟩ := emit_eq s code p0 p1 p2
  exact ⟨{ s.hwd with retention := ret, dropped := dr }, r, h⟩

theorem flushRecorder_recorded (s : State) : Recorded s (flushRecorder s) := by
  obtain ⟨r, h⟩ := flushRecorder_eq s
  exact ⟨s.hwd, r, h⟩

theorem takeSnapshot_recorded (s : State) (tr src : Nat) : Recorded s (takeSnapshot s tr src) := by
  obtain ⟨sn, r, ret, dr, h⟩ := takeSnapshot_eq s tr src
  exact ⟨{ s.hwd with snap := sn, retention := ret, dropped := dr }, r, h⟩

/-- What comes after the stop of the data path is records and a snapshot. -/
theorem powerStop_recorded (s : State) (h : s.stopped = false) (hb : s.pins.boot ≠ 0) :
    Recorded (stopCore { s with stopped := true, hwd.dump.due := false } 0xFFFF) (powerStop s) := by
  have hn : ¬ (s.stopped || s.pins.boot == 0) = true := by simp [h, hb]
  unfold powerStop
  rw [if_neg hn]
  generalize stopCore { s with stopped := true, hwd.dump.due := false } 0xFFFF = u
  extract_lets n _ w
  have hw : Recorded u w := (emit_recorded u 0x0002 n 0 0).trans (flushRecorder_recorded (emit u 0x0002 n 0 0))
  clear_value w
  split
  · exact hw.trans (Recorded.trans ⟨{ w.hwd with snap := { w.hwd.snap with due := 0 } }, w.recd, rfl⟩
      (takeSnapshot_recorded _ _ _))
  · exact hw

/-- A power-fail stop empties the data path, once. -/
theorem powerStop_stops (s : State) (h : s.stopped = false) (hb : s.pins.boot ≠ 0) :
    (powerStop s).stopped = true ∧ (powerStop s).pins = s.pins ∧ Stopped s (powerStop s) := by
  obtain ⟨w, r, hp⟩ := powerStop_recorded s h hb
  obtain ⟨o, ms, rg, hc⟩ := stopCore_eq { s with stopped := true, hwd.dump.due := false } 0xFFFF
  rw [hp, hc]
  refine ⟨rfl, rfl, rfl, rfl, rfl, rfl, rfl, fun c hm p off v he => ?_, rfl, rfl⟩
  subst he
  exact Bool.false_ne_true (List.mem_filter.1 hm).2

/-- A device that has stopped, or is dark, does not stop again. -/
theorem powerStop_once (s : State) (h : s.stopped = true ∨ s.pins.boot = 0) : powerStop s = s := by
  unfold powerStop
  exact if_pos (by simpa using h)

/-- Time on the backup supply moves heartwood's clock alone. -/
theorem backupTime_eq (s : State) : ∃ k n, backupTime s = { s with htime := k, freeCtr := n } := by
  unfold backupTime
  split
  · exact ⟨_, _, rfl⟩
  · exact ⟨_, _, rfl⟩

/-- Settles O53: a boot's steps leave alone what service needs, and a power-fail stop empties the data path. -/
theorem powerEvents : Obligations.PowerEvents := by
  unfold Obligations.PowerEvents
  intro s env
  have hup : s.pins.boot = 0 ∨ s.hwd.vdd = false → ¬ (s.hwd.vdd && s.pins.boot != 0) = true := by
    rintro (h | h) <;> simp [h]
  have hrise : s.pins.resetN = false → s.hwd.vdd = true → ¬ (s.pins.resetN || !s.hwd.vdd) = true := fun h h' => by simp [h, h']
  obtain ⟨k, n, hbt⟩ := backupTime_eq s
  refine ⟨fun h hp hB => ⟨_, congrArg Host.Outcome.next (if_neg (hup h)), ?_⟩,
    fun hr hv hp hB => ⟨_, congrArg Host.Outcome.next (if_neg (hrise hr hv)), boot_inService s env true hp hB⟩,
    fun h hp => ⟨_, congrArg Host.Outcome.next (if_neg (hup h)), ?_⟩,
    fun hb hv => congrArg Host.Outcome.next (if_pos (by simp [hb, hv])),
    fun hr hv hp => ⟨_, congrArg Host.Outcome.next (if_neg (hrise hr hv)), boot_held s env true hp⟩,
    fun h => congrArg Host.Outcome.next (if_pos (by simpa using h)),
    fun h => congrArg Host.Outcome.next (if_neg (by simp [h])), fun h ht hd => ⟨_, congrArg Host.Outcome.next (if_pos h), ?_⟩,
    fun h hb => ⟨⟨_, rfl, ?_⟩, ⟨_, rfl, ?_⟩, ⟨_, rfl, ?_⟩, fun hr => ⟨_, congrArg Host.Outcome.next (if_pos hr), ?_⟩⟩,
    fun h => ⟨?_, ?_, ?_⟩, fun h => congrArg Host.Outcome.next (if_neg (by simp [h]))⟩
  · rw [hbt]
    exact boot_inService { s with htime := k, freeCtr := n } env false hp hB
  · rw [hbt]
    exact boot_held { s with htime := k, freeCtr := n } env false hp
  · exact bootRest_blank _ env ht hd
  · obtain ⟨h1, h2, h3⟩ := powerStop_stops { s with pins.pwrFailN := false } h hb
    exact ⟨h1, congrArg (·.pwrFailN) h2, h3⟩
  · obtain ⟨h1, h2, h3⟩ := powerStop_stops { s with pins.resetN := false } h hb
    exact ⟨h1, congrArg (·.resetN) h2, h3⟩
  · obtain ⟨h1, -, h3⟩ := powerStop_stops s h hb
    exact ⟨h1, h3⟩
  · obtain ⟨h1, -, h3⟩ := powerStop_stops s h hb
    exact ⟨h1, h3⟩
  · exact congrArg Host.Outcome.next (powerStop_once { s with pins.pwrFailN := false } h)
  · exact congrArg Host.Outcome.next (powerStop_once { s with pins.resetN := false } h)
  · exact congrArg Host.Outcome.next (powerStop_once s h)

/-! ### Staging an image (R359, R360) -/

section
variable (s : State)

/-- A raise leaves the grafts alone. -/
theorem glitchAlarm_grafts (inst kind unit : Nat) : (glitchAlarm s inst kind unit).grafts = s.grafts := by
  obtain ⟨u, ⟨_, _, _, _, _, _, _, _, _, _, _, _, _, _, _, _, _, _, _, h, -⟩, he⟩ := glitchAlarm_leaves s inst kind unit
  rw [he, h]

theorem imageAlarm_grafts (split : Bool) (r : Except Nat Bytes) : (imageAlarm s split r).grafts = s.grafts := by
  unfold imageAlarm
  split
  · split
    · exact glitchAlarm_grafts s 0xFFFF 0 0xFFFF
    · rfl
  · rfl

theorem bit_zero (v : Nat) : bit v 0 = decide (v % 2 = 1) := by simp [bit, Nat.testBit_zero]

theorem bit_one (v : Nat) : bit v 1 = decide (v / 2 % 2 = 1) := Nat.testBit_eq_decide_div_mod_eq

theorem bit_two (v : Nat) : bit v 2 = decide (v / 4 % 2 = 1) := Nat.testBit_eq_decide_div_mod_eq

/-- A state of the staging operation that failed for a reason, every slot as it was. -/
def StageFails (t : State) (r : Nat) : Prop := t.grafts.stage.state = .failed ∧ t.grafts.stage.reason = r
  ∧ t.grafts.slotA = s.grafts.slotA ∧ t.grafts.slotB = s.grafts.slotB ∧ t.grafts.slotOwner = s.grafts.slotOwner
  ∧ t.grafts.slotBundle = s.grafts.slotBundle

/-- Ending the operation in FAILED, the slots being those of a state that agrees in them. -/
theorem endStage_fails {u : State} (r : Nat) (ha : u.grafts.slotA = s.grafts.slotA) (hb : u.grafts.slotB = s.grafts.slotB)
    (ho : u.grafts.slotOwner = s.grafts.slotOwner) (hl : u.grafts.slotBundle = s.grafts.slotBundle) :
    StageFails s (endStage u .failed r) r := ⟨rfl, rfl, ha, hb, ho, hl⟩

/-- The operation after the checks of Table 12.10 have answered. -/
def stageChecked (u : State) (split : Bool) (r : Except Nat Bytes) : State :=
  match r with
  | .error e => endStage (imageAlarm u split r) .failed e
  | .ok _ => { imageAlarm u split r with grafts.stage.state := .writing }

/-- The slots after bytes are put into the slot that a TARGET means. -/
theorem putSlot_stageSlot (u : State) (b : Bytes) (hs : u.grafts = s.grafts) :
    (putSlot u (stageSlot s) b).grafts.slotA = (if s.grafts.stage.target = 0 ∧ s.grafts.slot ≠ 1 then b else s.grafts.slotA)
    ∧ (putSlot u (stageSlot s) b).grafts.slotB = (if s.grafts.stage.target = 0 ∧ s.grafts.slot = 1 then b else s.grafts.slotB)
    ∧ (putSlot u (stageSlot s) b).grafts.slotOwner = (if s.grafts.stage.target = 1 then b else s.grafts.slotOwner)
    ∧ (putSlot u (stageSlot s) b).grafts.slotBundle = (if 1 < s.grafts.stage.target then b else s.grafts.slotBundle) := by
  rw [← hs]
  unfold stageSlot
  rw [← hs]
  generalize u.grafts.stage.target = g
  match g with
  | 0 => by_cases h : u.grafts.slot = 1 <;> simp [putSlot, h]
  | 1 => simp [putSlot]
  | n + 2 => simp [putSlot]

end

section
variable {s : State} {p v : Nat}

theorem exec_graftStageOpen (hm : mayStage s p = true) (hv : v % 2 = 1) (hr : s.grafts.stage.runs = false) :
    let g' := { s.grafts.stage with target := v / 16 % 4 }
    (v / 16 % 4 ≠ 3 → 128 ≤ s.grafts.stage.len → s.grafts.stage.len ≤ 262144 → exec (.graftStageOpen p v) s = .next { s with
      grafts.stage := { g' with state := .opened, reason := 0, buf := [], since := s.tick.count + 1 } })
    ∧ (v / 16 % 4 = 3 ∨ s.grafts.stage.len < 128 ∨ 262144 < s.grafts.stage.len →
      ∃ t, exec (.graftStageOpen p v) s = .next t ∧ StageFails s t 0x09) := by
  have hc : ¬ (!mayStage s p || !bit v 0 || s.grafts.stage.runs) = true := by simp [hm, hr, bit_zero, hv]
  refine ⟨fun h3 hl hh => congrArg Host.Outcome.next ((if_neg hc).trans (if_neg ?_)), fun h =>
    ⟨_, congrArg Host.Outcome.next ((if_neg hc).trans (if_pos h)), endStage_fails s _ rfl rfl rfl rfl⟩⟩
  rintro (h | h | h)
  · exact h3 h
  · exact absurd h (Nat.not_lt.2 hl)
  · exact absurd h (Nat.not_lt.2 hh)

theorem exec_graftStageCommit (split : Bool) (hm : mayStage s p = true) (ho : s.grafts.stage.state = .opened) (hv : v / 2 % 2
    = 1) :
    let u : State := { s with grafts.stage.target := v / 16 % 4 }
    let check := checkImage u (slotImage s.grafts.stage.buf) (slotKinds (stageSlot u)) split
    (s.grafts.stage.buf.length < s.grafts.stage.len ∨ v / 16 % 4 = 3 →
      ∃ t, exec (.graftStageCommit p (v, split)) s = .next t ∧ StageFails s t 0x09)
    ∧ (s.grafts.stage.len ≤ s.grafts.stage.buf.length → v / 16 % 4 ≠ 3 →
      (∀ b, check = .ok b → ∃ t, exec (.graftStageCommit p (v, split)) s = .next t
        ∧ t.grafts.stage = { s.grafts.stage with target := v / 16 % 4, state := .writing })
      ∧ (∀ r, check = .error r → ∃ t, exec (.graftStageCommit p (v, split)) s = .next t ∧ StageFails s t r)) := by
  intro u check
  have hc : ¬ (!mayStage s p || !bit v 1 || s.grafts.stage.state != .opened) = true := by simp [hm, ho, bit_one, hv]
  refine ⟨fun h => ?_, fun hl h3 => ⟨fun b hb => ?_, fun r hr => ?_⟩⟩
  · by_cases hs : s.grafts.stage.buf.length < s.grafts.stage.len
    · exact ⟨_, congrArg Host.Outcome.next ((if_neg hc).trans (if_pos hs)), endStage_fails s _ rfl rfl rfl rfl⟩
    · exact ⟨_, congrArg Host.Outcome.next ((if_neg hc).trans ((if_neg hs).trans (if_pos (h.resolve_left hs)))),
        endStage_fails s _ rfl rfl rfl rfl⟩
  · refine ⟨stageChecked u split check, congrArg Host.Outcome.next
      ((if_neg hc).trans ((if_neg (Nat.not_lt.2 hl)).trans (if_neg h3))), ?_⟩
    rw [hb]
    exact congrArg (fun g : Grafts => { g.stage with state := .writing }) (imageAlarm_grafts u split (.ok b))
  · refine ⟨stageChecked u split check, congrArg Host.Outcome.next
      ((if_neg hc).trans ((if_neg (Nat.not_lt.2 hl)).trans (if_neg h3))), ?_⟩
    rw [hr]
    have hg := imageAlarm_grafts u split (.error r)
    exact endStage_fails s r (congrArg (·.slotA) hg) (congrArg (·.slotB) hg) (congrArg (·.slotOwner) hg)
      (congrArg (·.slotBundle) hg)

end

/-- Settles O52: each write of GRAFT_STAGE_CTRL ends the operation, or moves it on, by its bits and the checks of the image. -/
theorem graftStaging : Obligations.GraftStaging := by
  unfold Obligations.GraftStaging
  intro s p v g g' fails
  refine ⟨fun hm => ⟨fun h => ?_, exec_graftStageOpen hm, fun h => ⟨?_, fun b => ?_⟩, fun h => ⟨fun hl => ?_, fun hl => ?_⟩,
    fun split => exec_graftStageCommit split hm, fun split h => ?_, fun h => ?_, fun h => ?_⟩,
    fun h b => ?_, fun h good => ?_, fun h => ?_⟩
  · refine congrArg Host.Outcome.next (if_pos ?_)
    rcases h with h | h
    · simp [bit_zero, h]
    · simp [show s.grafts.stage.runs = true from h]
  · exact congrArg Host.Outcome.next (if_pos (by simp [show s.grafts.stage.state ≠ .opened from h]))
  · exact congrArg Host.Outcome.next (if_pos (by simp [show s.grafts.stage.state ≠ .opened from h]))
  · have hc : ¬ (!mayStage s p || s.grafts.stage.state != .opened) = true := by
      simp [hm, show s.grafts.stage.state = .opened from h]
    exact congrArg Host.Outcome.next ((if_neg hc).trans (if_neg (Nat.not_le.2 hl)))
  · have hc : ¬ (!mayStage s p || s.grafts.stage.state != .opened) = true := by
      simp [hm, show s.grafts.stage.state = .opened from h]
    exact ⟨_, congrArg Host.Outcome.next ((if_neg hc).trans (if_pos hl)), endStage_fails s _ rfl rfl rfl rfl⟩
  · exact congrArg Host.Outcome.next (if_pos (by simp [bit_one, h]))
  · exact congrArg Host.Outcome.next (if_pos (by simp [bit_two, h]))
  · exact ⟨_, congrArg Host.Outcome.next (if_neg (by simp [hm, bit_two, h])), rfl, rfl, rfl, rfl⟩
  · exact congrArg Host.Outcome.next (if_pos (by simpa using h))
  · intro b
    have hc : ¬ (s.grafts.stage.state != .writing) = true := by simp [show s.grafts.stage.state = .writing from h]
    cases good with
    | true => exact ⟨_, congrArg Host.Outcome.next ((if_neg hc).trans (if_pos rfl)), rfl, rfl, putSlot_stageSlot s s _ rfl⟩
    | false =>
      exact ⟨_, congrArg Host.Outcome.next ((if_neg hc).trans (if_neg Bool.false_ne_true)), rfl, rfl,
        putSlot_stageSlot s (takeFree s s.grafts.stage.buf.length).2 _ rfl⟩
  · have hn : (!mayStage s p) = true := by simp [h]
    have hc : ∀ x y : Bool, (!mayStage s p || x || y) = true := fun x y => by simp [h]
    have hc' : ∀ x : Bool, (!mayStage s p || x) = true := fun x => by simp [h]
    simp only [List.forall_mem_cons]
    exact ⟨congrArg Host.Outcome.next (if_pos (hc _ _)), congrArg Host.Outcome.next (if_pos (hc' _)),
      congrArg Host.Outcome.next (if_pos (hc _ _)), congrArg Host.Outcome.next (if_pos (hc _ _)),
      congrArg Host.Outcome.next (if_pos (hc' _)), fun _ h => nomatch h⟩

end Sys2Proof.Machine
end

section
/-! Microcode and the MXUs -/

namespace Sys2Proof.Machine
open Sys2Proof.Claims

/-! ### A microword on its sequencer (R336 to R342) -/

/-- Every row is a step of its sequencer, with a next address and an effect of its own. -/
theorem microRows_exec (s : State) (q : Nat) (w : MicroWord) (c : Nat) (tagged : Bool) :
    ∀ p ∈ microRows q w c tagged, ∃ f g, exec p.1 s = .next (microStep s q w p.2 f g) := by
  simp only [microRows, List.forall_mem_cons]
  exact ⟨⟨_, _, rfl⟩, ⟨_, _, rfl⟩, ⟨_, _, rfl⟩, ⟨_, _, rfl⟩, ⟨_, _, rfl⟩, ⟨_, _, rfl⟩, ⟨_, _, rfl⟩, ⟨_, _, rfl⟩, ⟨_, _, rfl⟩,
    ⟨_, _, rfl⟩, ⟨_, _, rfl⟩, ⟨_, _, rfl⟩, fun _ h => nomatch h⟩

section
variable {s : State} {q : Nat} {w : MicroWord} {sq : Nat} {j : Job} {n : Nat × Nat}
  {f : Nat → List Nat → Nat × Nat → Except MicroHalt (Nat × List Nat)} {g : Job → State → State}

theorem microStep_idle (h : seqJob s q = none) : microStep s q w sq f g = s := by
  simp only [microStep, h]

theorem microStep_refused (hj : seqJob s q = some j)
    (h : s.service = false ∨ 288 ≤ q ∨ stands s q (s.seq q).upc w sq = false) : microStep s q w sq f g = s := by
  unfold microStep
  rw [hj]
  refine if_pos ?_
  rcases h with h | h | h <;> simp [h]

/-- A microword that stands: a SECRET one ends its job under a failed DRBG, one without its nanoword is MCODE_FORM. -/
theorem microStep_stands (hj : seqJob s q = some j) (hs : s.service = true) (hq : q < 288)
    (ha : stands s q (s.seq q).upc w sq = true) : microStep s q w sq f g =
      if w.isSecret && drbgDown s j then finalCommit s j.id (errR 0x0600 0x70) else
      match nanoOf s q (bankOf (s.seq q).upc) w.nano with
      | none => microFault s j .form
      | some n => match f (s.seq q).upc (s.seq q).stack n with
        | .error h => microFault s j h
        | .ok (a, st) => g j (seqTo s q a st) := by
  unfold microStep
  rw [hj]
  exact if_neg (by simp [hs, ha, hq])

theorem microStep_on (h : OnSeq s q w sq j n) : microStep s q w sq f g = match f (s.seq q).upc (s.seq q).stack n with
    | .error h => microFault s j h
    | .ok (a, st) => g j (seqTo s q a st) := by
  obtain ⟨hq, hs, hj, ha, hd, hn⟩ := h
  rw [microStep_stands hj hs hq ha, if_neg (Bool.not_eq_true _ ▸ hd), hn]

/-- A next address alone, or MCODE_FORM where there is none. -/
theorem goesTo_of {c : Instr} {a : Option Nat} {st : List Nat} (h : OnSeq s q w sq j n)
    (hc : exec c s = .next (microStep s q w sq f seqOnly))
    (hf : f (s.seq q).upc (s.seq q).stack n = match a with
      | some a => .ok (a, st)
      | none => .error .form) : GoesTo c s q j a st := by
  refine hc.trans (congrArg Host.Outcome.next ((microStep_on h).trans ?_))
  rw [hf]
  cases a <;> rfl

end

/-! ### Next addresses (Table 12.3) -/

theorem inBank_eq (bank i : Nat) : inBank bank i = match inBanks bank i with
    | some a => .ok a
    | none => .error .form := by
  unfold inBank inBanks
  by_cases h : bank = 0
  · rw [if_pos h, if_pos h]
  · by_cases hi : i < 1024
    · rw [if_neg h, if_neg h, if_neg (by omega), if_pos hi]
    · rw [if_neg h, if_neg h, if_pos (by omega), if_neg hi]

theorem withStack_inBank (st : List Nat) (bank i : Nat) : withStack st (inBank bank i) = match inBanks bank i with
    | some a => .ok (a, st)
    | none => .error .form := by
  rw [inBank_eq]
  cases inBanks bank i <;> rfl

theorem pushCall_some {a b : Nat} {st : List Nat} (hb : inBanks (bankOf a) (indexOf a + 1) = some b) (hl : st.length < 8)
    (bank i : Nat) : pushCall a st (inBank bank i) = match inBanks bank i with
      | some t => .ok (t, b :: st)
      | none => .error .form := by
  unfold pushCall succAddr
  rw [if_neg (Nat.not_le.2 hl), inBank_eq, inBank_eq, hb]
  cases inBanks bank i <;> rfl

theorem pushCall_none {a : Nat} {st : List Nat} (h : inBanks (bankOf a) (indexOf a + 1) = none ∨ 8 ≤ st.length)
    (r : Except MicroHalt Nat) : pushCall a st r = .error .form := by
  unfold pushCall
  rcases h with h | h
  · have hs : succAddr a = .error .form := by rw [succAddr, inBank_eq, h]
    rw [hs, ite_eq_left_iff]
    intro _
    cases r <;> rfl
  · exact if_pos h

/-! ### Commit points (R337, R342) -/

section
variable {s : State} {q : Nat} {j : Job} {r : Run} {c : MxuCmd}

theorem isEngineSeq_engine (hq : q < 272) : isEngineSeq q = true := decide_eq_true hq

theorem isEngineSeq_mxu (hq : 272 ≤ q) : ¬ isEngineSeq q = true := by
  simp [isEngineSeq, hq]

theorem microCommit_engine (hq : q < 272) (hr : s.run? j.id = some r) : microCommit q j s =
    match nextSegment (showMxu s j.id) j with
    | some t => t.putRun { r with staged := some r.cur }
    | none => (showMxu s j.id).putRun { r with staged := some r.cur, paused := true } := by
  unfold microCommit
  rw [if_pos (isEngineSeq_engine hq), enterRun_of hr]
  dsimp only
  cases h : nextSegment (showMxu s j.id) j with
  | some t => rw [commitPoint_some (e := { s := s, j := j, r := r }) h]; rfl
  | none => rw [commitPoint_none (e := { s := s, j := j, r := r }) h]; rfl

theorem microYield_engine (hq : q < 272) (hr : s.run? j.id = some r) : microYield q j s =
    (showMxu s j.id).putRun { r with staged := some r.cur, paused := true } := by
  unfold microYield
  rw [if_pos (isEngineSeq_engine hq), enterRun_of hr]
  rfl

theorem microEnd_engine (hq : q < 272) (hr : s.run? j.id = some r) : microEnd q j s =
    finalCommit (s.putRun { r with staged := some r.cur, paused := true }) j.id (archResult ⟨s, j, r⟩) := by
  unfold microEnd
  rw [if_pos (isEngineSeq_engine hq), enterRun_of hr]

theorem micro_mxu (hq : 272 ≤ q) (hc : s.mxuCmd? j.id = some c) :
    microCommit q j s = mxuDone s c ∧ microYield q j s = mxuYield s c ∧ microEnd q j s = mxuDone s c := by
  unfold microCommit microYield microEnd
  simp only [if_neg (isEngineSeq_mxu hq), hc]
  exact ⟨trivial, trivial, trivial⟩

/-- A word that goes on at the next address with an effect of its own. -/
theorem microStep_up {w : MicroWord} {sq b : Nat} {n : Nat × Nat} {g : Job → State → State} (h : OnSeq s q w sq j n)
    (hb : inBanks (bankOf (s.seq q).upc) (indexOf (s.seq q).upc + 1) = some b) :
    microStep s q w sq (fun a st _ => withStack st (succAddr a)) g = g j (seqTo s q b (s.seq q).stack) := by
  rw [microStep_on h, succAddr, withStack_inBank, hb]

theorem microStep_noUp {w : MicroWord} {sq : Nat} {n : Nat × Nat} {g : Job → State → State} (h : OnSeq s q w sq j n)
    (hb : inBanks (bankOf (s.seq q).upc) (indexOf (s.seq q).upc + 1) = none) :
    microStep s q w sq (fun a st _ => withStack st (succAddr a)) g = microFault s j .form := by
  rw [microStep_on h, succAddr, withStack_inBank, hb]

end

/-- Settles O45: each row is a step of its sequencer, whose next address is that of Table 12.3. -/
theorem microcode : Obligations.Microcode := by
  unfold Obligations.Microcode
  refine ⟨fun s q w c tagged p hp => ?_, fun s q w j n => ?_, fun s q w j n => ?_⟩
  · intro a
    obtain ⟨f, g, hex⟩ := microRows_exec s q w c tagged p hp
    refine ⟨fun h => hex.trans (congrArg Host.Outcome.next (microStep_idle h)), fun j hj => ⟨fun h =>
      hex.trans (congrArg Host.Outcome.next (microStep_refused hj h)), fun hs hq ha => ?_⟩⟩
    have hst := hex.trans (congrArg Host.Outcome.next (microStep_stands (f := f) (g := g) hj hs hq ha))
    refine ⟨fun hd => ?_, fun hd hn => ?_⟩
    · rw [if_pos hd] at hst
      exact hst
    · rw [if_neg (by rw [hd]; nofun)] at hst
      simp only [a] at hn
      rw [hn] at hst
      exact hst
  · intro a st up
    refine ⟨fun h => ?_, fun h => ?_, fun h c hc => ⟨?_, ?_⟩, fun h => ⟨fun b hb hl => ?_, fun hb => ?_⟩, fun h => ?_,
      fun h => ?_, fun h => ⟨fun b hb hl => ?_, fun hb => ?_⟩, fun h c => ⟨?_, ?_⟩, fun h => ?_⟩
    · exact goesTo_of h rfl (withStack_inBank ..)
    · exact goesTo_of h rfl (withStack_inBank ..)
    · exact congrArg Host.Outcome.next ((microStep_on h).trans rfl)
    · refine goesTo_of h rfl ?_
      dsimp only
      rw [if_neg nofun, Nat.mod_eq_of_lt hc]
      split
      · rfl
      · exact withStack_inBank ..
    · exact goesTo_of h rfl (pushCall_some hb hl ..)
    · exact goesTo_of (st := st) h rfl (pushCall_none hb _)
    · refine goesTo_of h rfl ?_
      show (match st with
        | b :: r => Except.ok (b, r)
        | [] => .error MicroHalt.form) = _
      cases st <;> rfl
    · exact goesTo_of h rfl (withStack_inBank ..)
    · exact goesTo_of h rfl (pushCall_some hb hl ..)
    · exact goesTo_of (st := st) h rfl (pushCall_none hb _)
    · exact congrArg Host.Outcome.next ((microStep_on h).trans rfl)
    · refine goesTo_of h rfl ?_
      rw [if_neg nofun]
      split
      · rfl
      · exact withStack_inBank ..
    · refine goesTo_of h rfl ?_
      obtain ⟨-, -, hj, -⟩ := h
      rw [hj]
  · intro a st
    refine ⟨fun hb => ⟨fun h => congrArg Host.Outcome.next (microStep_noUp h hb), fun h =>
      congrArg Host.Outcome.next (microStep_noUp h hb)⟩, fun b r hb hq hr => ?_, fun b c hb hq hc => ?_⟩
    · intro u last
      refine ⟨fun h => congrArg Host.Outcome.next ((microStep_up h hb).trans (microCommit_engine hq hr)), fun h =>
        congrArg Host.Outcome.next ((microStep_up h hb).trans (microYield_engine hq hr)), fun h =>
        congrArg Host.Outcome.next ((microStep_on h).trans (microEnd_engine (s := last) hq hr))⟩
    · obtain ⟨hcommit, hyield, -⟩ := micro_mxu (s := seqTo s q b st) hq hc
      obtain ⟨-, -, hend⟩ := micro_mxu (s := seqTo s q a st) hq hc
      exact ⟨fun h => congrArg Host.Outcome.next ((microStep_up h hb).trans hcommit), fun h =>
        congrArg Host.Outcome.next ((microStep_up h hb).trans hyield), fun h =>
        congrArg Host.Outcome.next ((microStep_on h).trans hend)⟩

/-! ### What scheduling does to the commands of the MXUs (R185 to R188) -/

/-- A change of the MXU commands one by one, each by `P`. -/
def MxuMapped (P : MxuCmd → MxuCmd → Prop) (s t : State) : Prop :=
  ∃ f, t = s.setMxus (s.exec.mxu.map f) ∧ ∀ c ∈ s.exec.mxu, P c (f c)

/-- A command keeps who it is and how far it has come: its context, operands, phase and stage may change. -/
def MxuSame (c d : MxuCmd) : Prop :=
  d.job = c.job ∧ d.code = c.code ∧ d.mxu = c.mxu ∧ d.order = c.order ∧ d.saved = c.saved ∧ d.steps = c.steps
    ∧ d.copyA = c.copyA ∧ d.copyB = c.copyB ∧ d.seen = c.seen ∧ d.resumed = c.resumed

/-- A command changes its phase alone, and only between READY and RUNNING. -/
def MxuChosen (c d : MxuCmd) : Prop :=
  ∃ p, d = { c with phase := p } ∧ (p = c.phase ∨ (c.phase = .running ∨ c.phase = .ready) ∧ (p = .running ∨ p = .ready))

/-- A command changes the start of its stage alone. -/
def MxuStaged (c d : MxuCmd) : Prop := ∃ a, d = { c with stageAt := a }

theorem MxuSame.refl (c : MxuCmd) : MxuSame c c := ⟨rfl, rfl, rfl, rfl, rfl, rfl, rfl, rfl, rfl, rfl⟩

theorem MxuSame.trans {a b c : MxuCmd} (h : MxuSame a b) (k : MxuSame b c) : MxuSame a c := by
  obtain ⟨h1, h2, h3, h4, h5, h6, h7, h8, h9, h10⟩ := h
  obtain ⟨k1, k2, k3, k4, k5, k6, k7, k8, k9, k10⟩ := k
  exact ⟨k1.trans h1, k2.trans h2, k3.trans h3, k4.trans h4, k5.trans h5, k6.trans h6, k7.trans h7, k8.trans h8, k9.trans h9,
    k10.trans h10⟩

theorem MxuChosen.same {c d : MxuCmd} (h : MxuChosen c d) : MxuSame c d := by
  obtain ⟨p, rfl, -⟩ := h
  exact .refl c

theorem MxuStaged.same {c d : MxuCmd} (h : MxuStaged c d) : MxuSame c d := by
  obtain ⟨a, rfl⟩ := h
  exact .refl c

section
variable {P Q : MxuCmd → MxuCmd → Prop} {s t u : State}

theorem MxuMapped.refl (hP : ∀ c, P c c) (s : State) : MxuMapped P s s := by
  refine ⟨id, ?_, fun c _ => hP c⟩
  rw [List.map_id]
  rfl

theorem MxuMapped.mono (h : MxuMapped P s t) (hPQ : ∀ c d, P c d → Q c d) : MxuMapped Q s t := by
  obtain ⟨f, ht, hf⟩ := h
  exact ⟨f, ht, fun c hc => hPQ _ _ (hf c hc)⟩

theorem MxuMapped.trans (hP : ∀ a b c, P a b → P b c → P a c) (h : MxuMapped P s t) (k : MxuMapped P t u) :
    MxuMapped P s u := by
  obtain ⟨f, rfl, hf⟩ := h
  obtain ⟨g, rfl, hg⟩ := k
  refine ⟨g ∘ f, ?_, fun c hc => hP _ _ _ (hf c hc) (hg _ (List.mem_map_of_mem hc))⟩
  rw [← List.map_map]
  rfl

/-- Such a change keeps everything beside the commands. -/
theorem MxuMapped.leaves (h : MxuMapped P s t) : ∃ l, t = s.setMxus l := by
  obtain ⟨f, h, -⟩ := h
  exact ⟨_, h⟩

variable (hP : ∀ c d, P c d → d.job = c.job)
include hP

theorem find_map_job (l : List MxuCmd) (f : MxuCmd → MxuCmd) (hf : ∀ c ∈ l, P c (f c)) (j : Nat) :
    (l.map f).find? (·.job == j) = (l.find? (·.job == j)).map f := by
  rw [List.find?_map]
  congr 1
  induction l with
  | nil => rfl
  | cons c l ih =>
    have hc : (f c).job = c.job := hP _ _ (hf c (List.mem_cons_self ..))
    simp only [List.find?_cons, Function.comp, hc]
    split
    · rfl
    · exact ih fun d hd => hf d (List.mem_cons_of_mem _ hd)

/-- A job's command is found again. -/
theorem MxuMapped.some (h : MxuMapped P s t) {j : Nat} {c : MxuCmd} (hc : s.mxuCmd? j = some c) :
    ∃ d, t.mxuCmd? j = some d ∧ P c d := by
  obtain ⟨f, rfl, hf⟩ := h
  refine ⟨f c, ?_, hf c (List.mem_of_find?_eq_some hc)⟩
  exact (find_map_job hP _ f hf j).trans (congrArg (Option.map f) hc)

theorem MxuMapped.none (h : MxuMapped P s t) {j : Nat} (hc : s.mxuCmd? j = none) : t.mxuCmd? j = none := by
  obtain ⟨f, rfl, hf⟩ := h
  exact (find_map_job hP _ f hf j).trans (congrArg (Option.map f) hc)

theorem MxuMapped.jobs (h : MxuMapped P s t) : t.exec.mxu.map (·.job) = s.exec.mxu.map (·.job) := by
  obtain ⟨f, rfl, hf⟩ := h
  refine (List.map_map ..).trans (List.map_congr_left fun c hc => hP _ _ (hf c hc))

end

/-! ### Contexts, the stage and the running command -/

section
variable (s : State) (m : Nat)

theorem updMxu_mapped {P : MxuCmd → MxuCmd → Prop} (hP : ∀ c, P c c) (j : Nat) (g : MxuCmd → MxuCmd)
    (hg : ∀ c ∈ s.exec.mxu, c.job = j → P c (g c)) : MxuMapped P s (s.updMxu j g) := by
  refine ⟨fun c => if c.job == j then g c else c, rfl, fun c hc => ?_⟩
  dsimp only
  split
  next h => exact hg c hc (beq_iff_eq.1 h)
  next h => exact hP c

/-- Does a command go through the validation stage when it gets a context? -/
def stagesFirst (s : State) (c : MxuCmd) : Bool :=
  match s.job? c.job with
  | some j => mxuValidates c.code j && !c.resumed
  | none => false

/-- A command with its context: in the stage, or ready with its secret loaded. -/
def withContext (s : State) (c : MxuCmd) (k : Nat) (d : MxuCmd) : MxuCmd :=
  let ram := ((s.job? c.job).bind (·.input)).getD []
  if stagesFirst s c then { d with ctx := some k, ram := ram, phase := .validating }
  else { d with ctx := some k, ram := ram }.load s

/-- A command that waits takes a free context, where there is one. -/
def fillOne (m : Nat) (s : State) (c : MxuCmd) : State :=
  match freeMxuCtx s m with
  | none => s
  | some k => s.updMxu c.job (withContext s c k)

theorem fillContexts_eq : fillContexts s m
    = (s.exec.mxu.filter fun c => c.mxu == m && c.phase == .queued).foldl (fillOne m) s := rfl

theorem withContext_same (c : MxuCmd) (k : Nat) (d : MxuCmd) : MxuSame d (withContext s c k d) := by
  unfold withContext
  dsimp only
  split
  · exact ⟨rfl, rfl, rfl, rfl, rfl, rfl, rfl, rfl, rfl, rfl⟩
  · exact ⟨rfl, rfl, rfl, rfl, rfl, rfl, rfl, rfl, rfl, rfl⟩

theorem fillOne_same (c : MxuCmd) : MxuMapped MxuSame s (fillOne m s c) := by
  unfold fillOne
  split
  · exact .refl .refl s
  next k _ => exact updMxu_mapped s .refl c.job _ fun d _ _ => withContext_same s c k d

/-- Filling the contexts keeps who every command is. -/
theorem fillContexts_same : MxuMapped MxuSame s (fillContexts s m) := by
  rw [fillContexts_eq]
  generalize (s.exec.mxu.filter fun c => c.mxu == m && c.phase == .queued) = l
  induction l generalizing s with
  | nil => exact .refl .refl s
  | cons c l ih => exact MxuMapped.trans (fun _ _ _ h k => h.trans k) (fillOne_same s m c) (ih _)

/-- A change of one job's commands leaves the command of another. -/
theorem updMxu_mxuCmd?_ne {k j : Nat} (g : MxuCmd → MxuCmd) (hg : ∀ c, (g c).job = c.job) (h : k ≠ j) :
    (s.updMxu k g).mxuCmd? j = s.mxuCmd? j := by
  unfold State.mxuCmd? State.updMxu
  dsimp only
  induction s.exec.mxu with
  | nil => rfl
  | cons c l ih =>
    rw [updWhere, List.map_cons, List.find?_cons, List.find?_cons]
    by_cases hc : c.job = k
    · simp only [hc, beq_self_eq_true, if_true, hg, beq_eq_false_iff_ne.2 h]
      exact ih
    · simp only [beq_eq_false_iff_ne.2 hc, Bool.false_eq_true, if_false]
      split
      · rfl
      · exact ih

/-- A job with no command that waits for a context keeps its command. -/
theorem fillContexts_keeps {j : Nat} (h : ∀ c ∈ s.exec.mxu, c.phase = .queued → c.job ≠ j) :
    (fillContexts s m).mxuCmd? j = s.mxuCmd? j := by
  have hl : ∀ c ∈ s.exec.mxu.filter fun c => c.mxu == m && c.phase == .queued, c.job ≠ j := by
    intro c hc
    obtain ⟨hc, hq⟩ := List.mem_filter.1 hc
    simp only [Bool.and_eq_true, beq_iff_eq] at hq
    exact h c hc hq.2
  rw [fillContexts_eq]
  generalize (s.exec.mxu.filter fun c => c.mxu == m && c.phase == .queued) = l at hl
  clear h
  induction l generalizing s with
  | nil => rfl
  | cons c l ih =>
    refine (ih _ fun d hd => hl d (List.mem_cons_of_mem _ hd)).trans ?_
    unfold fillOne
    split
    · rfl
    next k _ =>
      refine updMxu_mxuCmd?_ne s _ (fun d => ?_) (hl c (List.mem_cons_self ..))
      obtain ⟨hj, -⟩ := withContext_same s c k d
      exact hj

theorem startStage_staged : MxuMapped MxuStaged s (startStage s m) := by
  unfold startStage
  split
  · exact .refl (fun c => ⟨_, rfl⟩) s
  · split
    · exact .refl (fun c => ⟨_, rfl⟩) s
    · refine ⟨_, rfl, fun c _ => ?_⟩
      dsimp only
      split
      · exact ⟨_, rfl⟩
      · exact ⟨_, rfl⟩

theorem mxuFirst_mem {l : List MxuCmd} {w : MxuCmd} (h : mxuFirst s l = some w) : w ∈ l := by
  induction l generalizing w with
  | nil => cases h
  | cons c l ih =>
    unfold mxuFirst at h
    split at h
    next d hd =>
      split at h
      · cases h
        exact List.mem_cons_of_mem _ (ih hd)
      · cases h
        exact List.mem_cons_self ..
    · cases h
      exact List.mem_cons_self ..

/-- The choice of the next command moves commands between READY and RUNNING. -/
theorem mxuChoose_chosen (hn : (s.exec.mxu.map (·.job)).Nodup) : MxuMapped MxuChosen s (mxuChoose s m) := by
  have hr : ∀ c, MxuChosen c c := fun c => ⟨c.phase, rfl, .inl rfl⟩
  unfold mxuChoose
  extract_lets may runs
  split
  · exact .refl hr s
  next w hw =>
    split
    · exact .refl hr s
    · obtain ⟨hws, hwp⟩ := List.mem_filter.1 (mxuFirst_mem s hw)
      simp only [Bool.and_eq_true, beq_iff_eq] at hwp
      have hone : ∀ c ∈ s.exec.mxu, c.job = w.job → c = w := fun c hc hj => List.inj_on_of_nodup_map hn hc hws hj
      obtain ⟨-, hp⟩ := hwp
      refine ⟨_, congrArg s.setMxus (List.map_map ..), fun c hc => ?_⟩
      dsimp only [Function.comp]
      by_cases hrun : (c.mxu == m && c.phase == .running) = true
      · have hcr : c.phase = .running := by simpa using Bool.and_elim_right hrun
        simp only [hrun, if_true]
        split
        · exact ⟨.running, rfl, .inl hcr.symm⟩
        · exact ⟨.ready, rfl, .inr ⟨.inl hcr, .inr rfl⟩⟩
      · simp only [Bool.not_eq_true] at hrun
        simp only [hrun, Bool.false_eq_true, if_false]
        split
        next hj => exact ⟨.running, rfl, .inr ⟨.inr ((hone c hc (beq_iff_eq.1 hj)).symm ▸ hp), .inl rfl⟩⟩
        · exact hr c

theorem mxuStart_chosen (hn : (s.exec.mxu.map (·.job)).Nodup) : MxuMapped MxuChosen s (mxuStart s m) := by
  unfold mxuStart
  split
  · exact .refl (fun c => ⟨c.phase, rfl, .inl rfl⟩) s
  · exact mxuChoose_chosen s m hn

/-- Without that each job has one command, the choice still keeps who every command is. -/
theorem mxuStart_same : MxuMapped MxuSame s (mxuStart s m) := by
  unfold mxuStart mxuChoose
  split
  · exact .refl .refl s
  · extract_lets may runs
    split
    · exact .refl .refl s
    · split
      · exact .refl .refl s
      · refine ⟨_, congrArg s.setMxus (List.map_map ..), fun c hc => ?_⟩
        dsimp only [Function.comp]
        split <;> split <;> exact .refl c

/-- An MXU that has a place to give takes commands on without a change of who they are. -/
theorem mxuServed_same : MxuMapped MxuSame s (mxuStart (startStage (fillContexts s m) m) m) :=
  MxuMapped.trans (fun _ _ _ h k => h.trans k)
    (MxuMapped.trans (fun _ _ _ h k => h.trans k) (fillContexts_same s m)
      ((startStage_staged _ m).mono fun _ _ h => h.same)) (mxuStart_same _ m)

end

/-! ### A command alone on its MXU -/

/-- The last command is the only one of its MXU. -/
def MxuAlone (s : State) (m : Nat) (old : List MxuCmd) (c : MxuCmd) : Prop :=
  s.exec.mxu = old ++ [c] ∧ c.mxu = m ∧ (∀ d ∈ old, d.mxu ≠ m) ∧ ∀ d ∈ old, d.job ≠ c.job

section
variable {s : State} {m : Nat} {old : List MxuCmd} {c : MxuCmd}

theorem MxuAlone.filter (h : MxuAlone s m old c) (q : MxuCmd → Bool) :
    s.exec.mxu.filter (fun d => d.mxu == m && q d) = if q c then [c] else [] := by
  obtain ⟨hl, hm, ho, -⟩ := h
  have hn : old.filter (fun d => d.mxu == m && q d) = [] :=
    List.filter_eq_nil_iff.2 fun d hd => by simp [ho d hd]
  rw [hl, List.filter_append, hn, List.nil_append, List.filter_singleton]
  simp [hm]

theorem MxuAlone.any (h : MxuAlone s m old c) (q : MxuCmd → Bool) :
    s.exec.mxu.any (fun d => d.mxu == m && q d) = q c := by
  obtain ⟨hl, hm, ho, -⟩ := h
  have hn : old.any (fun d => d.mxu == m && q d) = false := List.any_eq_false.2 fun d hd => by simp [ho d hd]
  rw [hl, List.any_append, hn]
  simp [hm]

theorem MxuAlone.find (h : MxuAlone s m old c) : s.mxuCmd? c.job = some c := by
  obtain ⟨hl, -, -, hj⟩ := h
  unfold State.mxuCmd?
  rw [hl, List.find?_append, List.find?_eq_none.2 fun d hd => by simpa using hj d hd]
  simp

theorem MxuAlone.updMxu (h : MxuAlone s m old c) (g : MxuCmd → MxuCmd) (hg : (g c).mxu = m) (hj : (g c).job = c.job) :
    MxuAlone (s.updMxu c.job g) m old (g c) := by
  obtain ⟨hl, hm, ho, hn⟩ := h
  refine ⟨?_, hg, ho, fun d hd => hj ▸ hn d hd⟩
  have hold : old.map (fun d => if d.job == c.job then g d else d) = old := by
    conv_rhs => rw [← List.map_id old]
    exact List.map_congr_left fun d hd => if_neg (by simpa using hn d hd)
  show updWhere (·.job == c.job) g s.exec.mxu = old ++ [g c]
  rw [hl, updWhere, List.map_append, hold]
  simp

theorem MxuAlone.nodup (h : MxuAlone s m old c) (ho : (old.map (·.job)).Nodup) : (s.exec.mxu.map (·.job)).Nodup := by
  obtain ⟨hl, -, -, hj⟩ := h
  rw [hl, List.map_append]
  refine List.nodup_append.2 ⟨ho, List.nodup_singleton _, fun a ha b hb => ?_⟩
  obtain ⟨d, hd, rfl⟩ := List.mem_map.1 ha
  obtain rfl := List.mem_singleton.1 hb
  exact hj d hd

/-- It takes context 0 where no context is being zeroised. -/
theorem MxuAlone.fill (h : MxuAlone s m old c) (hz : s.exec.mxuZero = []) (hq : c.phase = .queued) (hc : c.ctx = none) :
    fillContexts s m = s.updMxu c.job (withContext s c 0) := by
  have hf : freeMxuCtx s m = some 0 := by
    have h0 : s.exec.mxu.any (fun d => d.mxu == m && d.ctx == some 0) = false := by
      rw [h.any fun d => d.ctx == some 0, hc]
      rfl
    unfold freeMxuCtx lowestFree
    rw [hz]
    refine List.find?_cons_of_pos ?_
    simp [h0]
  rw [fillContexts_eq, h.filter fun d => d.phase == .queued, hq]
  show fillOne m s c = _
  unfold fillOne
  rw [hf]

/-- A change of the commands of an MXU that it meets alone. -/
theorem MxuAlone.updWhere (h : MxuAlone s m old c) (q : MxuCmd → Bool) (g : MxuCmd → MxuCmd) (hq : q c = true)
    (hg : (g c).mxu = m) (hj : (g c).job = c.job) :
    MxuAlone (s.setMxus (updWhere (fun d => d.mxu == m && q d) g s.exec.mxu)) m old (g c) := by
  obtain ⟨hl, hm, ho, hn⟩ := h
  refine ⟨?_, hg, ho, fun d hd => hj ▸ hn d hd⟩
  have hold : old.map (fun d => if d.mxu == m && q d then g d else d) = old := by
    conv_rhs => rw [← List.map_id old]
    exact List.map_congr_left fun d hd => if_neg (by simp [ho d hd])
  show Machine.updWhere (fun d => d.mxu == m && q d) g s.exec.mxu = old ++ [g c]
  rw [hl, Machine.updWhere, List.map_append, hold]
  simp [hm, hq]

/-- A command in the stage starts it, where none has started. -/
theorem MxuAlone.stage (h : MxuAlone s m old c) (hp : c.phase = .validating) (ha : c.stageAt = none) :
    MxuAlone (startStage s m) m old { c with stageAt := some (now s) } := by
  have h1 := h.any fun d => d.phase == .validating && d.stageAt == some (now s)
  have h2 := h.filter fun d => d.phase == .validating && d.stageAt.isNone
  simp only [← Bool.and_assoc, hp, ha] at h1 h2
  unfold startStage
  rw [h1, h2]
  exact h.updWhere (fun d => d.order == c.order) _ (by simp) h.2.1 rfl

/-- Where no command is in the stage, none starts it. -/
theorem MxuAlone.stage_none (h : MxuAlone s m old c) (hp : c.phase ≠ .validating) : startStage s m = s := by
  have h1 := h.any fun d => d.phase == .validating && d.stageAt == some (now s)
  have h2 := h.filter fun d => d.phase == .validating && d.stageAt.isNone
  have hv : (c.phase == MxuPhase.validating) = false := beq_eq_false_iff_ne.2 hp
  simp only [← Bool.and_assoc, hv, Bool.false_and, Bool.false_eq_true, if_false] at h1 h2
  unfold startStage
  rw [h1, h2]
  rfl

/-- A ready command runs, where the datapath is not throttled. -/
theorem MxuAlone.start (h : MxuAlone s m old c) (hp : c.phase = .ready) (hl : s.power.level = 0) :
    MxuAlone (mxuStart s m) m old { c with phase := .running } := by
  have h0 := h.any fun d => d.phase == .running
  have h1 : s.exec.mxu.find? (fun d => d.mxu == m && d.phase == .running) = none :=
    List.find?_eq_none.2 fun d hd => by
      have := List.any_eq_false.1 (h0.trans (by rw [hp]; rfl)) d hd
      simpa using this
  have h2 := h.filter fun d => d.phase == .ready
  simp only [hp] at h0 h2
  unfold mxuStart mxuChoose
  rw [h0]
  simp only [hl, beq_self_eq_true, Bool.true_or, Bool.and_true, h1, h2]
  have hid : ∀ g, Machine.updWhere (fun d => d.mxu == m && d.phase == .running) g s.exec.mxu = s.exec.mxu := by
    intro g
    conv_rhs => rw [← List.map_id s.exec.mxu]
    exact List.map_congr_left fun d hd => if_neg (List.find?_eq_none.1 h1 d hd)
  have hs : ∀ g, MxuAlone (s.setMxus (Machine.updWhere (fun d => d.mxu == m && d.phase == .running) g s.exec.mxu)) m old c :=
    fun g => by rw [hid g]; exact h
  exact (hs _).updMxu _ h.2.1 rfl

end
/-! ### Events of a command (R185 to R196) -/

theorem mxuRows_exec : ∀ p ∈ mxuRows, ∀ j ev s, exec (p.1 j ev) s = .next (mxuEvent s j p.2 ev) := by
  simp only [mxuRows, List.forall_mem_cons]
  exact ⟨fun _ _ _ => rfl, fun _ _ _ => rfl, fun _ _ _ => rfl, fun _ _ _ => rfl, fun _ _ _ => rfl, fun _ _ _ => rfl,
    fun _ _ _ => rfl, fun _ _ _ => rfl, fun _ h => nomatch h⟩

section
variable {s : State} {j : Nat} {x : Job} {code : Nat}

theorem mxuEvent_issue (hs : s.service = true) (hx : s.job? j = some x) : mxuEvent s j code .issue = mxuIssue s x code := by
  unfold mxuEvent
  rw [if_neg (by simp [hs]), hx]

/-- An event of no command, of a command of another code, or of one that does not run. -/
theorem mxuEvent_idle (h : ∀ c, s.mxuCmd? j = some c → c.code ≠ code ∨ c.phase ≠ .running) (ev : MxuEvent) (he : ev ≠ .issue) :
    mxuEvent s j code ev = s := by
  unfold mxuEvent
  split
  · rfl
  · cases hc : s.mxuCmd? j with
    | none =>
      cases ev
      case issue => exact absurd rfl he
      all_goals rfl
    | some c =>
      have hn : ∀ t, (if c.phase != .running then s else t) = s ∨ c.code ≠ code := by
        intro t
        rcases h c hc with h | h
        · exact .inr h
        · exact .inl (if_pos (by simpa using h))
      cases ev
      case issue => exact absurd rfl he
      all_goals
        dsimp only
        split
        next hcode => exact (hn _).resolve_right (fun h => h hcode)
        · rfl

theorem mxuEvent_running {c : MxuCmd} (hs : s.service = true) (hc : s.mxuCmd? j = some c) (hcode : c.code = code) :
    mxuEvent s j code .yield = mxuYield s c ∧ mxuEvent s j code .done = mxuDone s c
      ∧ mxuEvent s j code .fault = mxuFault s c := by
  unfold mxuEvent
  simp only [hs, Bool.not_true, Bool.false_eq_true, if_false, hc, hcode, if_true]
  exact ⟨trivial, trivial, trivial⟩

/-- The command that an issue puts in the queue. -/
def issuedCmd (s : State) (j m code : Nat) : MxuCmd :=
  { job := j, code := code, mxu := m, ctx := none, phase := .queued, order := s.exec.mxuOrder,
    since := now s, stageAt := none, ram := [], secret := none, saved := 0, steps := 0, copyA := false,
    copyB := false, seen := false, resumed := false }

/-- The state with an issued command, the result of the one before collected. -/
def issuedState (s : State) (j m code : Nat) : State :=
  let u := s.updJob j fun x => { x with mxuGot := x.mxuGot ++ ((s.mxuCmd? j).map (·.code)).toList }
  { u with exec.mxu := u.exec.mxu.filter (·.job != j) ++ [issuedCmd s j m code], exec.mxuOrder := s.exec.mxuOrder + 1 }

theorem mxuIssue_issued (hr : runnable s x = true) (hu : mxuUsedBy code x = true)
    (he : ∀ c, s.mxuCmd? x.id = some c → c.phase = .ended) {m : Nat} (hm : mxuFor s x.grove = some m) :
    mxuIssue s x code = mxuStart (startStage (fillContexts (issuedState s x.id m code) m) m) m := by
  unfold mxuIssue
  extract_lets busy
  have hb : busy = false := by
    simp only [busy]
    split
    next c hc => simp [he c hc]
    · rfl
  rw [hb, if_neg (by simp [hr, hu]), hm]
  rfl

/-- An issue that the job may not make, or while its command is under way. -/
theorem mxuIssue_refused (h : runnable s x = false ∨ mxuUsedBy code x = false
    ∨ ∃ c, s.mxuCmd? x.id = some c ∧ c.phase ≠ .ended) : mxuIssue s x code = s := by
  unfold mxuIssue
  extract_lets busy
  refine if_pos ?_
  rcases h with h | h | ⟨c, hc, hp⟩
  · simp [h]
  · simp [h]
  · have hb : busy = true := by
      simp only [busy, hc]
      simpa using hp
    simp [hb]

/-- With no MXU that serves the grove the job ends. -/
theorem mxuIssue_unserved (hr : runnable s x = true) (hu : mxuUsedBy code x = true)
    (he : ∀ c, s.mxuCmd? x.id = some c → c.phase = .ended) (hm : mxuFor s x.grove = none) :
    mxuIssue s x code = finalCommit s x.id (err 0x0600 0x25) := by
  unfold mxuIssue
  extract_lets busy
  have hb : busy = false := by
    simp only [busy]
    split
    next c hc => simp [he c hc]
    · rfl
  rw [hb, if_neg (by simp [hr, hu]), hm]
  rfl

/-- What an issue leaves of its job and of its command. -/
theorem issued_facts (s : State) (j code m : Nat) : ∃ d,
    (mxuStart (startStage (fillContexts (issuedState s j m code) m) m) m).mxuCmd? j = some d
      ∧ MxuSame (issuedCmd s j m code) d := by
  have h0 : (issuedState s j m code).mxuCmd? j = some (issuedCmd s j m code) := by
    unfold State.mxuCmd? issuedState
    dsimp only
    rw [List.find?_append, List.find?_eq_none.2 fun c hc => by simpa using (List.mem_filter.1 hc).2]
    simp [issuedCmd]
  exact (mxuServed_same _ m).some (fun _ _ h => h.1) h0

/-- An issue to an MXU without commands or contexts takes context 0, for the stage or to run. -/
theorem issued_alone (hx : s.job? j = some x) (m : Nat) (hn : (s.exec.mxu.map (·.job)).Nodup)
    (ho : ∀ d ∈ s.exec.mxu, d.mxu ≠ m) (hz : s.exec.mxuZero = []) : ∃ d,
    (mxuStart (startStage (fillContexts (issuedState s j m code) m) m) m).mxuCmd? j = some d ∧ d.ctx = some 0
      ∧ (mxuValidates code x = true → d.phase = .validating ∧ d.stageAt = some s.tick.count)
      ∧ (mxuValidates code x = false → s.power.level = 0 → d.phase = .running) := by
  have ha : MxuAlone (issuedState s j m code) m (s.exec.mxu.filter (·.job != j)) (issuedCmd s j m code) :=
    ⟨rfl, rfl, fun d hd => ho d (List.mem_of_mem_filter hd), fun d hd => by simpa [issuedCmd] using (List.mem_filter.1 hd).2⟩
  have hf := ha.fill hz rfl rfl
  obtain ⟨hj, -, hm, -⟩ := withContext_same (issuedState s j m code) (issuedCmd s j m code) 0 (issuedCmd s j m code)
  have ha1 := ha.updMxu (withContext (issuedState s j m code) (issuedCmd s j m code) 0) hm hj
  rw [← hf] at ha1
  have hold : ((s.exec.mxu.filter (·.job != j)).map (·.job)).Nodup := hn.sublist (List.filter_sublist.map _)
  have hst : stagesFirst (issuedState s j m code) (issuedCmd s j m code) = mxuValidates code x := by
    have hu : (issuedState s j m code).job? (issuedCmd s j m code).job
        = some { x with mxuGot := x.mxuGot ++ ((s.mxuCmd? j).map (·.code)).toList } :=
      State.job?_updJob_some hx fun _ => rfl
    unfold stagesFirst
    rw [hu]
    exact Bool.and_true _
  unfold withContext at ha1
  rw [hst] at ha1
  cases hv : mxuValidates code x with
  | true =>
    rw [hv] at ha1
    have ha2 := ha1.stage rfl rfl
    obtain ⟨d, hd, p, rfl, hp⟩ := (mxuStart_chosen _ m (ha2.nodup hold)).some (fun _ _ h => h.same.1) ha2.find
    have hpv : p = .validating := hp.resolve_right fun h => h.1.elim nofun nofun
    refine ⟨_, hd, rfl, fun _ => ⟨hpv, ?_⟩, nofun⟩
    rw [hf]
    rfl
  | false =>
    rw [hv] at ha1
    have hs := ha1.stage_none nofun
    rw [hs]
    obtain ⟨d, hd, p, rfl, -⟩ := (mxuStart_chosen _ m (ha1.nodup hold)).some (fun _ _ h => h.same.1) ha1.find
    refine ⟨_, hd, rfl, nofun, fun _ hl => ?_⟩
    have hr := (ha1.start rfl (by rw [hf]; exact hl)).find
    exact congrArg MxuCmd.phase (Option.some.inj (hd.symm.trans hr))

end

/-! ### A yield point, an end and a fault (R187 to R196) -/

section
variable {s : State} {j : Nat} {c : MxuCmd}

theorem mxuCmd?_job (hc : s.mxuCmd? j = some c) : c.job = j := by
  simpa using List.find?_some hc

theorem updMxu_mxuCmd?_some (hc : s.mxuCmd? j = some c) (g : MxuCmd → MxuCmd) (hg : ∀ d, (g d).job = d.job) :
    (s.updMxu j g).mxuCmd? j = some (g c) := by
  refine (find_map_job (P := fun c d => d.job = c.job) (fun _ _ h => h) s.exec.mxu
    (fun d => if d.job == j then g d else d) (fun d _ => ?_) j).trans ?_
  · split
    · exact hg d
    · rfl
  · rw [show s.exec.mxu.find? (·.job == j) = some c from hc, Option.map_some, if_pos (beq_iff_eq.2 (mxuCmd?_job hc))]

theorem updMxu_nodup (hn : (s.exec.mxu.map (·.job)).Nodup) (g : MxuCmd → MxuCmd) (hg : ∀ d, (g d).job = d.job) :
    ((s.updMxu j g).exec.mxu.map (·.job)).Nodup := by
  have h := (updMxu_mapped (P := fun c d => d.job = c.job) s (fun _ => rfl) j g fun d _ _ => hg d).jobs fun _ _ h => h
  rwa [h]

/-- A yield point saves both copies of the record (R189). -/
theorem mxuYield_saves (hc : s.mxuCmd? j = some c) (hp : c.phase = .running) (hn : (s.exec.mxu.map (·.job)).Nodup) :
    ∃ d, (mxuYield s c).mxuCmd? j = some d ∧ d.steps = c.steps + 1 ∧ d.saved = c.steps + 1 ∧ d.copyA = true ∧ d.copyB = true
      ∧ d.ctx = c.ctx ∧ (mxuYield s c).work = s.work ∧ (mxuYield s c).store = s.store ∧ (mxuYield s c).hostMem = s.hostMem := by
  obtain rfl := mxuCmd?_job hc
  have hy : mxuYield s c = mxuChoose (s.updMxu c.job fun c => { c with steps := c.steps + 1 }.save) c.mxu :=
    if_neg (by simp [hp])
  have hm := mxuChoose_chosen _ c.mxu (updMxu_nodup (j := c.job) hn (fun c => { c with steps := c.steps + 1 }.save) fun _ => rfl)
  obtain ⟨d, hd, p, rfl, -⟩ := hm.some (fun _ _ h => h.same.1)
    (updMxu_mxuCmd?_some hc (fun c => { c with steps := c.steps + 1 }.save) fun _ => rfl)
  obtain ⟨l, hl⟩ := hm.leaves
  rw [hy]
  refine ⟨_, hd, rfl, rfl, rfl, rfl, rfl, ?_⟩
  rw [hl]
  exact ⟨rfl, rfl, rfl⟩

/-- An end empties the operand RAM (R195). -/
theorem mxuDone_ends (hc : s.mxuCmd? j = some c) (hp : c.phase = .running) (hn : (s.exec.mxu.map (·.job)).Nodup) :
    ∃ d, (mxuDone s c).mxuCmd? j = some d ∧ d.phase = .ended ∧ d.ctx = c.ctx ∧ d.ram = [] ∧ d.secret = none
      ∧ (mxuDone s c).work = s.work ∧ (mxuDone s c).store = s.store ∧ (mxuDone s c).hostMem = s.hostMem := by
  obtain rfl := mxuCmd?_job hc
  have hy : mxuDone s c = mxuStart (s.updMxu c.job fun c => { c with phase := .ended, ram := [], secret := none }) c.mxu :=
    if_neg (by simp [hp])
  have hm := mxuStart_chosen _ c.mxu
    (updMxu_nodup (j := c.job) hn (fun c => { c with phase := .ended, ram := [], secret := none }) fun _ => rfl)
  obtain ⟨d, hd, p, rfl, h⟩ := hm.some (fun _ _ h => h.same.1)
    (updMxu_mxuCmd?_some hc (fun c => { c with phase := .ended, ram := [], secret := none }) fun _ => rfl)
  obtain ⟨l, hl⟩ := hm.leaves
  have hpe : p = .ended := h.resolve_right fun h => h.1.elim nofun nofun
  rw [hy]
  refine ⟨_, hd, hpe, rfl, rfl, rfl, ?_⟩
  rw [hl]
  exact ⟨rfl, rfl, rfl⟩

/-- A fault sends the command back to its save record and marks the job (R195, R196). -/
theorem mxuFault_requeues {x : Job} (hx : s.job? j = some x) (hc : s.mxuCmd? j = some c) (hp : c.phase = .running)
    (hsev : sevOf s (0x0C00 + c.mxu) ≠ 4) : ∃ d y, (mxuFault s c).mxuCmd? j = some d
      ∧ d.steps = (if c.copyA || c.copyB then c.saved else 0) ∧ d.resumed = true
      ∧ (mxuFault s c).job? j = some y ∧ y.failover = true ∧ s.tick.count ∈ y.lostTicks ∧ (mxuFault s c).store = s.store := by
  obtain rfl := mxuCmd?_job hc
  have hlose : (Job.lose (now s) x).failover = true ∧ s.tick.count ∈ (Job.lose (now s) x).lostTicks := by
    refine ⟨rfl, ?_⟩
    show now s ∈ if x.lostTicks.contains (now s) then x.lostTicks else now s :: x.lostTicks
    split
    next h => simpa using h
    · exact List.mem_cons_self ..
  have hlid : ∀ y : Job, (Job.lose (now s) y).id = y.id := fun _ => rfl
  have hjob := State.job?_updJob_some hx (f := Job.lose (now s)) hlid
  have hcmd := updMxu_mxuCmd?_some hc (fun c => { c.requeue with resumed := true }) fun _ => rfl
  unfold mxuFault
  rw [if_neg (by simp [hp])]
  extract_lets zs _ u1 u2 u3
  have h3c : u3.mxuCmd? c.job = some { c.requeue with resumed := true } := hcmd
  have h3j : u3.job? c.job = some (Job.lose (now s) x) := hjob
  have h3s : u3.store = s.store := rfl
  have h3v : sevOf u3 (0x0C00 + c.mxu) ≠ 4 := hsev
  clear_value u3
  simp only [if_true]
  obtain ⟨r, ret, dr, due, he⟩ := raise_eq u3 (src := 0x0C00 + c.mxu) h3v (unitOfSource (srcId 0x03 c.mxu)) 0 false
  have he' : raiseSrc u3 0x03 c.mxu 0 = _ := he
  rw [he']
  generalize hw : ({ u3 with
    faults := raisedFaults u3 (0x0C00 + c.mxu) (unitOfSource (srcId 0x03 c.mxu)), recd := r, hwd.retention := ret,
    hwd.dropped := dr, hwd.snap.due := due, stw.events := u3.stw.events ||| 4 } : State) = w
  have hm : MxuMapped MxuSame w (mxuStart (fillContexts w c.mxu) c.mxu) :=
    MxuMapped.trans (fun _ _ _ h k => h.trans k) (fillContexts_same w c.mxu) (mxuStart_same _ c.mxu)
  subst hw
  obtain ⟨d, hd, -, -, -, -, -, hsteps, -, -, -, hres⟩ := hm.some (fun _ _ h => h.1) h3c
  obtain ⟨l, hl⟩ := hm.leaves
  refine ⟨d, _, hd, hsteps, hres, ?_, hlose.1, hlose.2, ?_⟩
  · rw [hl]
    exact h3j
  · rw [hl]
    exact h3s

end

/-! ### The verdict of the validation stage (R190, R191) -/

/-- What reading an input can change: translations, fault registers and records. -/
def ReadLeaves (s t : State) : Prop := ∃ tl ps r ret dr,
  t = { s with tlb := tl, ports := ps, recd := r, hwd.retention := ret, hwd.dropped := dr }

theorem ReadLeaves.trans {s t u : State} (h : ReadLeaves s t) (k : ReadLeaves t u) : ReadLeaves s u := by
  obtain ⟨_, _, _, _, _, rfl⟩ := h
  obtain ⟨tl, ps, r, ret, dr, rfl⟩ := k
  exact ⟨tl, ps, r, ret, dr, rfl⟩

theorem readSide_reads (s : State) (inst addr len frags : Nat) (sp : Bool) :
    ReadLeaves s (readSide s inst addr len frags sp).1 := by
  have hr : ReadLeaves s s := ⟨_, _, _, _, _, rfl⟩
  have hh : ReadLeaves s (hostRead s inst addr (16 * frags) 1 sp).1 := hostRead_eq ..
  unfold readSide
  split
  · exact hr
  · split
    · exact hr
    · split
      next he => rwa [he] at hh
      next he =>
        rw [he] at hh
        dsimp only
        split
        · exact hh
        · split <;> exact hh

theorem gatherInput_reads (inst : Nat) (sp : Bool) (fs : List Frag) (s : State) :
    ReadLeaves s (gatherInput s inst sp fs).1 := by
  induction fs generalizing s with
  | nil => exact ⟨_, _, _, _, _, rfl⟩
  | cons f fs ih =>
    have hh : ReadLeaves s (hostRead s inst f.addr f.len 1 sp).1 := hostRead_eq ..
    unfold gatherInput
    split
    next he => rwa [he] at hh
    next t b he =>
      rw [he] at hh
      have hi := ih t
      split
      next hg => rw [hg] at hi; exact hh.trans hi
      next hg => rw [hg] at hi; exact hh.trans hi

/-- A job with its input read: the read leaves the commands and the clock, and the job is the one it was but for its input. -/
theorem jobInput_leaves {s s1 : State} {x : Job} {inp : Bytes} (hx : s.job? x.id = some x)
    (h : jobInput s x = (s1, some inp)) : s1.exec = s.exec ∧ s1.tick = s.tick
      ∧ ∃ i tab, s1.job? x.id = some { x with input := i, inTable := tab } := by
  have hread : ∀ u fs, ReadLeaves s u → (gatherInput u x.inst (!x.confirmed) fs).2 = some inp →
      s1 = (gatherInput u x.inst (!x.confirmed) fs).1.updJob x.id (fun y => { y with input := some inp, inTable := some fs }) →
      s1.exec = s.exec ∧ s1.tick = s.tick ∧ ∃ i tab, s1.job? x.id = some { x with input := i, inTable := tab } := by
    rintro u fs hu - rfl
    obtain ⟨_, _, _, _, _, hg⟩ := hu.trans (gatherInput_reads x.inst (!x.confirmed) fs u)
    rw [hg]
    exact ⟨rfl, rfl, some inp, some fs, State.job?_updJob_some hx fun _ => rfl⟩
  have hrefl : ReadLeaves s s := ⟨_, _, _, _, _, rfl⟩
  have hside := readSide_reads s x.inst x.inAddr x.inLen x.inFrags (!x.confirmed)
  unfold jobInput at h
  split at h
  next b hb =>
    obtain ⟨rfl, -⟩ := Prod.ext_iff.1 h
    exact ⟨rfl, rfl, x.input, x.inTable, hx⟩
  next hb =>
    dsimp only at h
    split at h
    next u fs hm =>
      have hu : ReadLeaves s u := by
        split at hm
        · obtain ⟨rfl, -⟩ := Prod.ext_iff.1 hm
          exact hrefl
        · rwa [hm] at hside
      split at h
      next v b hg =>
        obtain ⟨h1, h2⟩ := Prod.ext_iff.1 h
        obtain rfl := Option.some.inj h2
        refine hread u fs hu (by rw [hg]) ?_
        rw [hg]
        exact h1.symm
      · cases h
    · cases h

/-- What the key port delivers depends on the job's operands alone. -/
theorem mxuSecret_input (s : State) (x : Job) (i : Option Bytes) (tab : Option (List Frag)) (code : Nat) :
    mxuSecret s { x with input := i, inTable := tab } code = mxuSecret s x code := rfl

/-- What a verdict that lets the input pass makes of the command: a VALIDATE ends, any other is ready with its secret. -/
def passedCmd (s1 : State) (c : MxuCmd) : MxuCmd :=
  if c.code = 1 then { c with phase := .ended, stageAt := none, ram := [] } else c.load s1

/-- The state in which the input of a job has passed, before its MXU takes commands on. -/
def passedState (s1 : State) (j : Nat) : State := s1.updMxu j (passedCmd s1)

section
variable {s s1 : State} {j t0 : Nat} {x : Job} {c : MxuCmd}

theorem deliverVerdict_early (hx : s.job? j = some x) (hc : s.mxuCmd? j = some c)
    (h : c.phase ≠ .validating ∨ c.stageAt = none ∨ c.stageAt = some t0 ∧ s.tick.count < t0 + 2) :
    deliverVerdict s j = s := by
  unfold deliverVerdict
  rw [hc, hx]
  dsimp only
  split
  · rfl
  next t ha =>
    refine if_pos ?_
    rcases h with h | h | ⟨h, ht⟩
    · simp [h]
    · cases ha.symm.trans h
    · cases ha.symm.trans h
      have hn : now s < t0 + 2 := ht
      simp [hn]

theorem deliverVerdict_due (hx : s.job? j = some x) (hc : s.mxuCmd? j = some c) (hp : c.phase = .validating)
    (ha : c.stageAt = some t0) (ht : t0 + 2 ≤ s.tick.count) : deliverVerdict s j =
      match jobInput s x with
      | (t, none) => noInput s t x
      | (u, some inp) => match mxuRefusal u x inp with
        | some (st, d) => finalCommit (u.updMxu j fun c => { c with phase := .ended }) j (errR st d)
        | none => mxuStart (startStage (fillContexts (passedState u j) c.mxu) c.mxu) c.mxu := by
  unfold deliverVerdict
  rw [hc, hx]
  dsimp only
  rw [ha]
  refine (if_neg ?_).trans rfl
  have h : ¬ now s < t0 + 2 := Nat.not_lt.2 ht
  simp [hp, h]

theorem commitNow_errR {st d : Nat} (hx : s.job? j = some x) (hr : x.result = some (errR st d)) :
    commitNow s j = s.updJob j fun y => if st = 0 then
      { y with committed := true, resKeys := 0, resBytes := 0, resShelf := 0, resCtx := 0 }
      else { y with committed := true } := by
  unfold commitNow
  rw [hx]
  dsimp only
  rw [hr]
  refine (if_pos rfl).trans ?_
  exact (apply_ite (f := fun t : State => t) ..).symm.trans (ite_self _)

/-- What a job leaves on its MXU: its command goes, and the other commands may get on. -/
theorem leaveMxu_dropped (s : State) (j : Nat) :
    (leaveMxu s j).mxuCmd? j = none ∧ (leaveMxu s j).work = s.work ∧ (leaveMxu s j).hostMem = s.hostMem := by
  unfold leaveMxu
  split
  next h => exact ⟨h, rfl, rfl⟩
  next c h =>
    have hm := mxuServed_same (dropMxu s (·.job == j)) c.mxu
    obtain ⟨l, hl⟩ := hm.leaves
    have hd : (dropMxu s (·.job == j)).mxuCmd? j = none := List.find?_eq_none.2 fun d hd => by
      simpa using (List.mem_filter.1 hd).2
    refine ⟨hm.none (fun _ _ h => h.1) hd, ?_⟩
    dsimp only
    rw [hl]
    exact ⟨rfl, rfl⟩

/-- A job refused by the stage is done with its MXU, with the refusal as its result and nothing written. -/
theorem finalCommit_errR (hx : s.job? j = some x) (st d : Nat) : ∃ y, (finalCommit s j (errR st d)).mxuCmd? j = none
    ∧ (finalCommit s j (errR st d)).job? j = some y ∧ y.result = some (errR st d)
    ∧ (finalCommit s j (errR st d)).hostMem = s.hostMem := by
  obtain ⟨hn, hj, hh⟩ := leaveMxu_dropped s j
  have hx' : (leaveMxu s j).job? j = some x := by
    unfold State.job?
    rw [hj]
    exact hx
  have hid : ∀ y : Job, (y.reach (errR st d) (now s)).id = y.id := fun y => Job.reach_id ..
  have hr := State.job?_updJob_some hx' hid
  obtain ⟨hres, -⟩ := Job.reach_facts x (errR st d) (now s)
  unfold finalCommit
  dsimp only
  rw [hr]
  dsimp only
  split
  · rw [commitNow_errR hr hres]
    refine ⟨_, hn, State.job?_updJob_some hr (fun y => ?_), ?_, hh⟩
    · split <;> rfl
    · split <;> exact hres
  · exact ⟨_, hn, hr, hres, hh⟩

/-- The command of a job whose input passed: a VALIDATE has ended, any other is ready or runs, with its secret loaded. -/
theorem passed_cmd (hx : s1.job? j = some x) (hc : s1.mxuCmd? j = some c) (hn : (s1.exec.mxu.map (·.job)).Nodup) (m : Nat) :
    ∃ d, (mxuStart (startStage (fillContexts (passedState s1 j) m) m) m).mxuCmd? j = some d
      ∧ (c.code = 1 → d.phase = .ended)
      ∧ (c.code ≠ 1 → (d.phase = .ready ∨ d.phase = .running) ∧ d.secret = mxuSecret s1 x c.code)
      ∧ (mxuStart (startStage (fillContexts (passedState s1 j) m) m) m).hostMem = s1.hostMem := by
  have hj : ∀ d, (passedCmd s1 d).job = d.job := fun d => by unfold passedCmd; split <;> rfl
  have hq : (passedCmd s1 c).phase ≠ .queued := by unfold passedCmd; split <;> nofun
  have h0 : (passedState s1 j).mxuCmd? j = some (passedCmd s1 c) := updMxu_mxuCmd?_some hc _ hj
  have hn0 : ((passedState s1 j).exec.mxu.map (·.job)).Nodup := updMxu_nodup hn _ hj
  have hk : ∀ d ∈ (passedState s1 j).exec.mxu, d.phase = .queued → d.job ≠ j := by
    intro d hd hdq hdj
    have he : d = passedCmd s1 c := List.inj_on_of_nodup_map hn0 hd (List.mem_of_find?_eq_some h0)
      (hdj.trans (mxuCmd?_job h0).symm)
    exact hq (he ▸ hdq)
  have h1 : (fillContexts (passedState s1 j) m).mxuCmd? j = some (passedCmd s1 c) :=
    (fillContexts_keeps _ m hk).trans h0
  have hf := fillContexts_same (passedState s1 j) m
  have hs := startStage_staged (fillContexts (passedState s1 j) m) m
  have hn2 : ((startStage (fillContexts (passedState s1 j) m) m).exec.mxu.map (·.job)).Nodup := by
    rw [hs.jobs fun _ _ h => h.same.1, hf.jobs fun _ _ h => h.1]
    exact hn0
  have hm := mxuStart_chosen _ m hn2
  obtain ⟨e, he, a, rfl⟩ := hs.some (fun _ _ h => h.same.1) h1
  obtain ⟨d, hd, p, rfl, hp⟩ := hm.some (fun _ _ h => h.same.1) he
  obtain ⟨l, hl⟩ := (mxuServed_same (passedState s1 j) m).leaves
  refine ⟨_, hd, fun h => ?_, fun h => ⟨?_, ?_⟩, by rw [hl]; rfl⟩
  · have hph : (passedCmd s1 c).phase = .ended := by rw [passedCmd, if_pos h]
    rw [hph] at hp
    exact hp.resolve_right fun h => h.1.elim nofun nofun
  · have hph : (passedCmd s1 c).phase = .ready := by rw [passedCmd, if_neg h]; rfl
    rw [hph] at hp
    exact hp.elim .inl fun h => h.2.symm
  · show (passedCmd s1 c).secret = _
    rw [passedCmd, if_neg h]
    show (s1.job? c.job).bind _ = _
    rw [mxuCmd?_job hc, hx]
    rfl

end

/-- Settles O46: scheduling keeps who every command is and moves it between READY and RUNNING alone, so each event
shows in its own command. -/
theorem mxuWork : Obligations.MxuWork := by
  unfold Obligations.MxuWork
  refine ⟨fun s j m x hs hx hn p hp => ?_, fun s j t0 x c hs hx hc => ?_, fun s j h => ?_⟩
  · obtain rfl := State.job?_id hx
    have hex : ∀ ev, exec (p.1 x.id ev) s = .next (mxuEvent s x.id p.2 ev) := fun ev => mxuRows_exec p hp x.id ev s
    have hissue : exec (p.1 x.id .issue) s = .next (mxuIssue s x p.2) :=
      (hex _).trans (congrArg Host.Outcome.next (mxuEvent_issue hs hx))
    refine ⟨fun h => hissue.trans (congrArg Host.Outcome.next (mxuIssue_refused h)), fun hr hu he => ⟨fun hm =>
      hissue.trans (congrArg Host.Outcome.next (mxuIssue_unserved hr hu he hm)), fun hm => ?_⟩, fun hc ev hev => ?_,
      fun c hc => ⟨fun h ev hev => ?_, fun hcode hrun => ?_⟩⟩
    · have ht := hissue.trans (congrArg Host.Outcome.next (mxuIssue_issued hr hu he hm))
      obtain ⟨l, hl⟩ := (mxuServed_same (issuedState s x.id m p.2) m).leaves
      obtain ⟨d, hd, -, hcode, hmx, hord, hsav, hst, -, -, hseen, hres⟩ := issued_facts s x.id p.2 m
      refine ⟨_, d, { x with mxuGot := x.mxuGot ++ ((s.mxuCmd? x.id).map (·.code)).toList }, ht, hd, ?_, rfl, hcode, hmx, hord,
          hsav, hst, hres, hseen, fun ho hz => ?_, ?_⟩
      · rw [hl]
        exact State.job?_updJob_some hx fun _ => rfl
      · obtain ⟨e, he, h⟩ := issued_alone (code := p.2) hx m hn ho hz
        obtain rfl := Option.some.inj (hd.symm.trans he)
        exact h
      · rw [hl]
        exact ⟨rfl, rfl, rfl⟩
    · exact (hex ev).trans (congrArg Host.Outcome.next (mxuEvent_idle (fun c h => nomatch hc.symm.trans h) ev hev))
    · refine (hex ev).trans (congrArg Host.Outcome.next (mxuEvent_idle (fun d hd => ?_) ev hev))
      obtain rfl := Option.some.inj (hc.symm.trans hd)
      exact h
    · obtain ⟨hy, hd, hf⟩ := mxuEvent_running hs hc hcode
      obtain ⟨d1, h1⟩ := mxuYield_saves hc hrun hn
      obtain ⟨d2, h2⟩ := mxuDone_ends hc hrun hn
      refine ⟨⟨_, d1, (hex _).trans (congrArg Host.Outcome.next hy), h1⟩,
        ⟨_, d2, (hex _).trans (congrArg Host.Outcome.next hd), h2⟩, fun hsev _ => ?_⟩
      obtain ⟨d, y, h⟩ := mxuFault_requeues hx hc hrun hsev
      exact ⟨_, d, y, (hex _).trans (congrArg Host.Outcome.next hf), h⟩
  · have hex : exec (.validationResult j) s = .next (deliverVerdict s j) :=
      congrArg Host.Outcome.next (if_pos hs)
    refine ⟨fun h => ?_, fun hp ha => ⟨fun ht => ?_, fun ht => ?_⟩⟩
    · exact hex.trans (congrArg Host.Outcome.next (deliverVerdict_early (t0 := 0) hx hc (h.imp_right .inl)))
    · exact hex.trans (congrArg Host.Outcome.next (deliverVerdict_early hx hc (.inr (.inr ⟨ha, ht⟩))))
    · have hdue := hex.trans (congrArg Host.Outcome.next (deliverVerdict_due hx hc hp ha ht))
      refine ⟨fun s1 h => ?_, fun s1 inp hn h => ?_⟩
      · rw [h] at hdue
        exact hdue
      · rw [h] at hdue
        obtain rfl := State.job?_id hx
        obtain ⟨hex1, -, i, tab, hx1⟩ := jobInput_leaves hx h
        have hc1 : s1.mxuCmd? x.id = some c := by
          unfold State.mxuCmd?
          rw [hex1]
          exact hc
        refine ⟨fun hpass => ?_, fun st dt href => ?_⟩
        · simp only [hpass] at hdue
          obtain ⟨d, hd, h1, h2, hh⟩ := passed_cmd hx1 hc1 (hex1 ▸ hn) c.mxu
          exact ⟨_, d, hdue, hd, h1, h2, hh⟩
        · simp only [href] at hdue
          obtain ⟨y, hm, hy, hr, hh⟩ := finalCommit_errR
            (s := s1.updMxu x.id fun c => { c with phase := .ended }) hx1 st dt
          exact ⟨_, y, hdue, hm, hy, hr, hh⟩
  · have hd : deliverVerdict s j = s := by
      unfold deliverVerdict
      rcases h with h | h
      · rw [h]
      · rw [h]
        split
        next hj => cases hj
        · rfl
    show Host.Outcome.next (if s.service = true then deliverVerdict s j else s) = _
    rw [hd, ite_self]

end Sys2Proof.Machine
end

section
/-! Entropy, power and heartwood -/

namespace Sys2Proof.Machine
open Sys2Proof.Claims

/-! ### Requests for blocks (R370, R371) -/

/-- What serving requests can change: the blocks, the rotation and the requests, the seeding of groves and their map entries. -/
def ServeLeaves (s t : State) : Prop := ∃ bl tu w g up, t = { s with
  entropy.blocks := bl, entropy.turn := tu, entropy.waiting := w, groves := g, faults.updates := up }

theorem ServeLeaves.trans {s t u : State} (h : ServeLeaves s t) (k : ServeLeaves t u) : ServeLeaves s u := by
  obtain ⟨_, _, _, _, _, rfl⟩ := h
  obtain ⟨bl, tu, w, g, up, rfl⟩ := k
  exact ⟨bl, tu, w, g, up, rfl⟩

section
variable {s t : State} {i g : Nat}

/-- A reseed sets the time of the seeding and clears the error state. -/
theorem reseed_groves {x : Grove} (hx : s.groves[g]? = some x) :
    (reseed s g).groves[g]? = some { x with drbgSeeded := s.tick.count, drbgError := false } := by
  have hm : (s.groves.modify g fun x => { x with drbgSeeded := s.tick.count, drbgError := false })[g]?
      = some { x with drbgSeeded := s.tick.count, drbgError := false } := by
    rw [List.getElem?_modify_eq, hx]
    rfl
  unfold reseed
  extract_lets
  split
  · exact hm
  · exact hm

theorem reseed_serves (s : State) (g : Nat) :
    ∃ gr up, reseed s g = { s with groves := gr, faults.updates := up } := by
  unfold reseed
  dsimp only
  split
  · exact ⟨_, _, rfl⟩
  · exact ⟨_, _, rfl⟩

theorem takeBlock_some (hn : nextSource s = some i) (g : Nat) : takeBlock s g = some (reseed { s with
    entropy.blocks := s.entropy.blocks.eraseP (·.1 == i), entropy.turn := (i + 1) % 4 } g) := by
  simp only [takeBlock, hn]

theorem takeBlock_none (hn : nextSource s = none) (g : Nat) : takeBlock s g = none := by
  simp only [takeBlock, hn]

theorem serveRequests_serves (n : Nat) (s : State) : ServeLeaves s (serveRequests n s) := by
  induction n generalizing s with
  | zero => exact ⟨_, _, _, _, _, rfl⟩
  | succ n ih =>
    unfold serveRequests
    split
    · exact ⟨_, _, _, _, _, rfl⟩
    next r rs _ =>
      cases hn : nextSource s with
      | none =>
        rw [takeBlock_none hn]
        exact ⟨_, _, _, _, _, rfl⟩
      | some i =>
        rw [takeBlock_some hn]
        obtain ⟨gr, up, hr⟩ := reseed_serves { s with
          entropy.blocks := s.entropy.blocks.eraseP (·.1 == i), entropy.turn := (i + 1) % 4 } r.1
        dsimp only
        rw [hr]
        exact ServeLeaves.trans ⟨_, _, _, _, _, rfl⟩ (ih _)

theorem serveWaiting_sources (s : State) : (serveWaiting s).entropy.sources = s.entropy.sources := by
  obtain ⟨_, _, _, _, _, h⟩ := serveRequests_serves s.entropy.waiting.length s
  exact congrArg (·.entropy.sources) h

theorem giveBlock_sources (s : State) (i : Nat) (b : Bytes) : (giveBlock s i b).entropy.sources = s.entropy.sources :=
  serveWaiting_sources _

theorem giveBlock_kept_block (h : s.entropy.waiting = []) (i : Nat) (b : Bytes) :
    (giveBlock s i b).entropy.blocks = s.entropy.blocks ++ [(i, b)] := by
  unfold giveBlock serveWaiting
  rw [h]
  rfl

end

/-! ### The health tests of a noise source (R369) -/

/-- The run of equal bits after one more bit. -/
def Noise.nextRun (n : Noise) (b : Bool) : Nat := if 0 < n.started ∧ n.last = b then n.run + 1 else 1

/-- The occurrences of a window's first bit after one more bit. -/
def Noise.nextOnes (n : Noise) (b : Bool) : Nat :=
  if n.windowAt = 0 then 1 else n.ones + (if b = n.first then 1 else 0)

/-- The counters of a source after one more bit. -/
def Noise.counted (n : Noise) (b : Bool) : Noise :=
  { n with started := n.started + 1, last := b, run := n.nextRun b, windowAt := (n.windowAt + 1) % 1024,
           first := if n.windowAt = 0 then b else n.first, ones := n.nextOnes b }

theorem Noise.test_eq (n : Noise) (b : Bool) :
    n.test b = (n.counted b, decide (41 ≤ n.nextRun b) || decide (800 ≤ n.nextOnes b)) := by
  have hr : (if 0 < n.started && n.last == b then n.run + 1 else 1) = n.nextRun b := by
    simp only [Noise.nextRun, Bool.and_eq_true, decide_eq_true_eq, beq_iff_eq]
  have ho : (if n.windowAt = 0 then 0 else n.ones) + b2n (b == if n.windowAt = 0 then b else n.first) = n.nextOnes b := by
    unfold Noise.nextOnes
    by_cases h : n.windowAt = 0
    · simp [h, b2n]
    · simp [h, b2n]
  unfold Noise.test
  dsimp only
  rw [ho, hr]
  rfl

section
variable {s : State} {i : Nat} {n : Noise} {b : Bool}

theorem sources_set (hn : s.entropy.sources[i]? = some n) (m : Noise) : (s.entropy.sources.set i m)[i]? = some m := by
  obtain ⟨hi, -⟩ := List.getElem?_eq_some_iff.1 hn
  exact List.getElem?_set_self hi

/-- A raise leaves the sources and the blocks, whatever its severity. -/
theorem raiseAs_entropy (s : State) (g k : Nat) (inj : Bool) : (raiseAs s g k inj).entropy.sources = s.entropy.sources
    ∧ (raiseAs s g k inj).entropy.blocks = s.entropy.blocks := by
  obtain ⟨_, _, _, _, _, _, _, _, _, _, _, _, _, _, _, _, _, _, _, h, -⟩ := raise_leaves s (srcId g k) (unitOfSource
      (srcId g k)) 0 inj
  exact ⟨congrArg (·.entropy.sources) h, congrArg (·.entropy.blocks) h⟩

/-- A source as a failed test leaves it. -/
def Noise.withdrawn (n : Noise) (t : Nat) : Noise := { n.start with out := true, failures := n.failures + 1, since := t }

/-- A source that fails a test is withdrawn, whatever the severity of its raise. -/
theorem noiseFail_withdraws (hn : s.entropy.sources[i]? = some n) (m : Noise) : ∃ k,
    (noiseFail s i m false).entropy.sources[i]? = some k ∧ k.out = true ∧ k.failures = m.failures + 1
      ∧ k.since = s.tick.count ∧ (noiseFail s i m false).entropy.blocks = s.entropy.blocks := by
  have h0 : (noiseFail s i m false).entropy.sources = s.entropy.sources.set i (m.withdrawn s.tick.count)
      ∧ (noiseFail s i m false).entropy.blocks = s.entropy.blocks := by
    unfold noiseFail
    extract_lets k _ _ u
    have hu : u.entropy.sources = s.entropy.sources.set i (m.withdrawn s.tick.count) ∧ u.entropy.blocks = s.entropy.blocks :=
      raiseAs_entropy ..
    clear_value u
    obtain ⟨h1, h2⟩ := raiseAs_entropy u 0x0B 0 false
    split
    · rwa [h1, h2]
    · exact hu
  obtain ⟨h1, h2⟩ := h0
  refine ⟨m.withdrawn s.tick.count, ?_, rfl, rfl, rfl, h2⟩
  rw [h1]
  exact sources_set hn _

theorem noiseSample_idle (h : n.failures ≥ 3 ∨ n.out = true ∧ s.tick.count < n.since + 1024) (hn : s.entropy.sources[i]?
    = some n) :
    exec (.noiseSample i b) s = .next s := by
  refine congrArg Host.Outcome.next ?_
  rw [hn]
  refine if_pos ?_
  rcases h with h | ⟨h, ht⟩
  · simp [h]
  · have ht' : now s < n.since + 1024 := ht
    simp [h, ht']

/-- A bit that is taken: the source fails, or its counters move and, in service, the bit is kept or makes a block. -/
theorem noiseSample_taken (hn : s.entropy.sources[i]? = some n) (hb : s.pins.boot = 8) (hf : n.failures < 3)
    (ho : n.out = false ∨ n.since + 1024 ≤ s.tick.count) : exec (.noiseSample i b) s = .next
      (if 41 ≤ n.nextRun b ∨ 800 ≤ n.nextOnes b then noiseFail s i (n.counted b) false
       else if n.out = true ∨ n.started < 1024 then { s with entropy.sources := s.entropy.sources.set i (n.counted b) }
       else if (n.bits ++ [b]).length < 1024 then
         { s with entropy.sources := s.entropy.sources.set i { n.counted b with bits := n.bits ++ [b] } }
       else giveBlock { s with entropy.sources := s.entropy.sources.set i { n.counted b with bits := [] } } i
          (hashOf 8 (packBits 128 (n.bits ++ [b])) [] [] 32)) := by
  have hc : ¬ (s.pins.boot == 0 || decide (3 ≤ n.failures) || (n.out && decide (now s < n.since + 1024))) = true := by
    rcases ho with ho | ho
    · simp [hb, hf, ho]
    · have ho' : ¬ now s < n.since + 1024 := Nat.not_lt.2 ho
      simp [hb, hf, ho']
  refine congrArg Host.Outcome.next ?_
  rw [hn]
  refine (if_neg hc).trans ?_
  rw [Noise.test_eq]
  by_cases h : 41 ≤ n.nextRun b ∨ 800 ≤ n.nextOnes b
  · have h' : (decide (41 ≤ n.nextRun b) || decide (800 ≤ n.nextOnes b)) = true := by simpa using h
    rw [h', if_pos h]
  · have h' : (decide (41 ≤ n.nextRun b) || decide (800 ≤ n.nextOnes b)) = false := by simpa using h
    rw [h', if_neg h]
    dsimp only
    simp only [Bool.or_eq_true, decide_eq_true_eq]

end

/-! ### Reseeding and re-admission (R369, R371) -/

section
variable {s : State} {i g : Nat} {n : Noise} {x : Grove}

theorem noiseReadmit_early (hn : s.entropy.sources[i]? = some n) (h : s.tick.count < n.since + 1024 ∨ n.started < 1024) :
    exec (.noiseReadmit i) s = .next s := by
  refine congrArg Host.Outcome.next ?_
  rw [hn]
  refine if_pos ?_
  rcases h with h | h
  · have h' : now s < n.since + 1024 := h
    simp [h']
  · simp [h]

theorem noiseReadmit_admits (hn : s.entropy.sources[i]? = some n) (ho : n.out = true) (hf : n.failures < 3)
    (ht : n.since + 1024 ≤ s.tick.count) (hs : 1024 ≤ n.started) : ∃ t m, exec (.noiseReadmit i) s = .next t
      ∧ t.entropy.sources[i]? = some m ∧ m.out = false ∧ m.failures = n.failures
      ∧ ⟨unitId 5 i, .serving, n.failures⟩ ∈ t.faults.updates := by
  have hc : ¬ (!n.out || decide (3 ≤ n.failures) || decide (now s < n.since + 1024) || decide (n.started < 1024)) = true := by
    have ht' : ¬ now s < n.since + 1024 := Nat.not_lt.2 ht
    simp [ho, hf, ht', hs]
  have hex : exec (.noiseReadmit i) s = .next ((serveWaiting { s with
      entropy.sources := s.entropy.sources.set i { n with out := false, bits := [] } }).updateUnit
        (unitId 5 i) .serving (min 3 n.failures)) := by
    refine congrArg Host.Outcome.next ?_
    rw [hn]
    exact if_neg hc
  refine ⟨_, { n with out := false, bits := [] }, hex, ?_, rfl, rfl, ?_⟩
  · show (serveWaiting _).entropy.sources[i]? = _
    rw [serveWaiting_sources]
    exact sources_set hn _
  · rw [Nat.min_eq_right (Nat.le_of_lt hf)]
    exact List.mem_append_right _ (List.mem_singleton_self _)

theorem drbgReseed_early (hx : s.groves[g]? = some x) (h : x.drbgUp = false ∨ s.tick.count < x.drbgSeeded + 1024) :
    exec (.drbgReseed g) s = .next s := by
  refine congrArg Host.Outcome.next ?_
  unfold drbgReseed
  rw [hx]
  refine if_pos ?_
  rcases h with h | h
  · simp [h]
  · have h' : now s < x.drbgSeeded + 1024 := h
    simp [h']

theorem drbgReseed_due (hx : s.groves[g]? = some x) (hr : s.tick.running = true) (hu : x.drbgUp = true)
    (ht : x.drbgSeeded + 1024 ≤ s.tick.count) : exec (.drbgReseed g) s = .next (match takeBlock s g with
      | some t => t
      | none => if s.entropy.waiting.contains (g, none) then s else askBlock s g none) := by
  have ht' : ¬ now s < x.drbgSeeded + 1024 := Nat.not_lt.2 ht
  refine congrArg Host.Outcome.next ?_
  unfold drbgReseed
  rw [hx]
  exact if_neg (by simp [hr, hu, ht'])

theorem drbgErrorState_exec (hx : s.groves[g]? = some x) (hr : s.tick.running = true) (he : x.drbgError = false) :
    (s.tick.count < x.drbgSeeded + 65536 → exec (.drbgErrorState g) s = .next s)
    ∧ (x.drbgSeeded + 65536 ≤ s.tick.count → exec (.drbgErrorState g) s = .next
        (raiseSrc { s with groves := s.groves.modify g fun x => { x with drbgError := true } } 0x09 g 0)) := by
  refine ⟨fun h => congrArg Host.Outcome.next ?_, fun h => congrArg Host.Outcome.next ?_⟩
  · have h' : now s < x.drbgSeeded + 65536 := h
    unfold drbgErrorDue
    rw [hx]
    exact if_pos (by simp [h'])
  · have h' : ¬ now s < x.drbgSeeded + 65536 := Nat.not_lt.2 h
    unfold drbgErrorDue
    rw [hx]
    exact if_neg (by simp [hr, he, h'])

end

/-! ### Power and ALIVE (R397, R503, R513, R514) -/

section
variable (s : State)

theorem throttleUpdate_exec (hr : s.tick.running = true) (mw : Nat) (quiet back : Bool) (hm : s.tick.count % 16 = 0) :
    ∃ t, exec (.throttleUpdate mw quiet back) s = .next t
        ∧ t.power.supply = (s.power.supply && !back)
        ∧ t.power.level = (if t.power.supply = true ∨ s.power.hot = true then 4
            else if 1000 * powerLimit s < mw then min 4 (s.power.level + 1)
            else if quiet then s.power.level - 1 else s.power.level)
        ∧ t.work = s.work := by
  have hc : ¬ (!s.tick.running || now s % 16 != 0) = true := by
    have hm' : now s % 16 = 0 := hm
    simp [hr, hm']
  refine ⟨_, congrArg Host.Outcome.next (if_neg hc), rfl, ?_, rfl⟩
  dsimp only [forcedLevel]
  simp only [Bool.or_eq_true]
  rfl

theorem thermalLimitUpdate_due (hr : s.tick.running = true) (h0 : s.tick.count ≠ 0) (hm : s.tick.count % 1048576 = 0) :
    exec .thermalLimitUpdate s = .next (
      if gradeMax s - 5 ≤ s.power.tj then { s with power.limit := max 12 (s.power.limit - 1) }
      else if s.power.tj ≤ gradeMax s - 10 then
        { s with power.limit := min (max (envelopeWatts s.power.envelope) s.power.limit) (s.power.limit + 1) }
      else s) := by
  refine congrArg Host.Outcome.next (if_neg ?_)
  have h0' : now s ≠ 0 := h0
  have hm' : now s % 1048576 = 0 := hm
  simp [hr, h0', hm']

end

/-- Settles O55: a source's counters move by one bit, serving a request leaves the sources, and no raise touches a source or
a block. -/
theorem entropyAndPower : Obligations.EntropyAndPower := by
  unfold Obligations.EntropyAndPower
  refine ⟨fun s hb hr => ⟨fun i b n hn => ?_, fun i b hn => ?_, fun i n hn ho hf => ?_, fun g x hx hu => ?_, fun g x hx hu =>
    drbgReseed_early hx (.inl hu), fun g x hx he => drbgErrorState_exec hx hr he⟩, fun s hr => ?_⟩
  · intro run ones stood
    refine ⟨fun h => noiseSample_idle h hn, fun hf ho => ⟨fun hrun hones => ?_, fun h => ?_⟩⟩
    · have hex := noiseSample_taken (b := b) hn hb hf ho
      have hpass : ¬ (41 ≤ n.nextRun b ∨ 800 ≤ n.nextOnes b) := fun h => h.elim (Nat.not_le.2 hrun) (Nat.not_le.2 hones)
      have hst : ∀ l, stood { n.counted b with bits := l } := fun l => ⟨rfl, rfl, rfl, rfl, rfl, rfl, rfl⟩
      rw [if_neg hpass] at hex
      by_cases hstart : n.out = true ∨ n.started < 1024
      · rw [if_pos hstart] at hex
        refine ⟨_, n.counted b, hex, sources_set hn _, hst n.bits, fun _ => ⟨rfl, rfl⟩, fun h1 h2 => ?_, fun h1 h2 => ?_⟩
        all_goals exact absurd hstart (by simp [h1, h2])
      · rw [if_neg hstart] at hex
        by_cases hl : n.bits.length < 1023
        · rw [if_pos (by rw [List.length_append]; exact Nat.succ_lt_succ hl)] at hex
          exact ⟨_, { n.counted b with bits := n.bits ++ [b] }, hex, sources_set hn _, hst _, fun h => absurd h hstart,
            fun _ _ _ => ⟨rfl, rfl⟩, fun _ _ h => absurd hl (Nat.not_lt.2 h)⟩
        · rw [if_neg (by rw [List.length_append]; exact fun h => hl (Nat.lt_of_succ_lt_succ h))] at hex
          refine ⟨_, { n.counted b with bits := [] }, hex, ?_, hst _, fun h => absurd h hstart, fun _ _ h => absurd h hl,
            fun _ _ _ => ⟨rfl, fun hw => giveBlock_kept_block (s := { s with
              entropy.sources := s.entropy.sources.set i { n.counted b with bits := [] } }) hw ..⟩⟩
          rw [giveBlock_sources]
          exact sources_set hn _
    · have hex := noiseSample_taken (b := b) hn hb hf ho
      have hfail : 41 ≤ n.nextRun b ∨ 800 ≤ n.nextOnes b := h
      rw [if_pos hfail] at hex
      obtain ⟨k, h1, h2, h3, h4, h5⟩ := noiseFail_withdraws hn (n.counted b)
      exact ⟨_, k, hex, h1, h2, h3, h4, h5⟩
  · refine ⟨congrArg Host.Outcome.next ?_, congrArg Host.Outcome.next ?_⟩
    · rw [hn]
    · rw [hn]
  · exact ⟨noiseReadmit_admits hn ho hf, noiseReadmit_early hn⟩
  · refine ⟨fun h => drbgReseed_early hx (.inr h), fun ht => ?_⟩
    have hex := drbgReseed_due hx hr hu ht
    refine ⟨fun i hi => ?_, fun hi hw => ?_, fun hi hw => ?_⟩
    · rw [takeBlock_some hi] at hex
      obtain ⟨gr, up, hs⟩ := reseed_serves { s with
        entropy.blocks := s.entropy.blocks.eraseP (·.1 == i), entropy.turn := (i + 1) % 4 } g
      exact ⟨_, _, hex, congrArg (·.entropy.blocks) hs, congrArg (·.entropy.turn) hs, reseed_groves hx, rfl, rfl⟩
    · rw [takeBlock_none hi] at hex
      exact hex.trans (congrArg Host.Outcome.next (if_neg (by simpa using hw)))
    · rw [takeBlock_none hi] at hex
      exact hex.trans (congrArg Host.Outcome.next (if_pos (by simpa using hw)))
  · refine ⟨fun mw quiet back h => congrArg Host.Outcome.next (if_pos ?_), fun mw quiet back h =>
      throttleUpdate_exec s hr mw quiet back h, fun h0 hm => ?_, fun hm => congrArg Host.Outcome.next (if_pos ?_),
      fun v ha hb hn hv => ⟨fun h1 h2 => congrArg Host.Outcome.next (if_neg ?_), fun h => congrArg Host.Outcome.next (if_pos ?_)⟩,
      fun v c hc h => congrArg Host.Outcome.next (if_pos ?_), fun h1 h2 h3 h4 h5 h6 => congrArg Host.Outcome.next (if_pos ?_),
      fun h => congrArg Host.Outcome.next (if_neg ?_)⟩
    · have h' : now s % 16 ≠ 0 := h
      simp [h']
    · have hex := thermalLimitUpdate_due s hr h0 hm
      refine ⟨fun h => ?_, fun h1 h2 => ?_, fun h1 h2 => ?_⟩
      · rw [if_pos h] at hex
        exact hex
      · rw [if_neg (by omega), if_neg (by omega)] at hex
        exact hex
      · rw [if_neg (by omega), if_pos h1, Nat.max_eq_left (Nat.le_of_lt h2), Nat.min_eq_right h2] at hex
        exact hex
    · have hm' : now s % 1048576 ≠ 0 := hm
      simp [hm']
    · simp [ha, hn, hv, Nat.not_lt.2 h1, Nat.not_lt.2 h2, Nat.not_lt.2 hb]
    · rcases h with h | h <;> simp [h]
    · have h' : ¬ c + 1024 ≤ now s := Nat.not_le.2 h
      simp [hc, h']
    · have h3' : 1024 ≤ now s := h3
      have h4' : now s % 1024 = 0 := h4
      have h5' : s.faults.published = now s := h5
      have h6' : s.faults.aliveAt ≠ now s := h6
      simp [hr, h1, h2, h3', h4', h5', h6']
    · have h' : now s % 1024 ≠ 0 := h
      simp [h']

/-! ### Supply and crystal (R400, R401) -/

section
variable (s : State)

theorem backupTime_vdd (h : s.hwd.vdd = true) : backupTime s = s := if_pos h

theorem backupTime_cell (h : s.hwd.vdd = false) :
    ∃ k, backupTime s = { s with htime := (s.htime + k) % 2 ^ 48, freeCtr := s.freeCtr + 1 } := by
  unfold backupTime
  rw [if_neg (by rw [h]; nofun)]
  exact ⟨_, rfl⟩

/-- What a torn reservation write can change: the objects held and the free values. -/
def TearLeaves (s t : State) : Prop := ∃ st fc, t = { s with store := st, freeCtr := fc }

theorem TearLeaves.trans {s t u : State} (h : TearLeaves s t) (k : TearLeaves t u) : TearLeaves s u := by
  obtain ⟨_, _, rfl⟩ := h
  obtain ⟨st, fc, rfl⟩ := k
  exact ⟨st, fc, rfl⟩

theorem tearWrites_leaves : TearLeaves s (tearWrites s) := by
  unfold tearWrites
  generalize s.work.jobs.filter _ = l
  induction l generalizing s with
  | nil => exact ⟨_, _, rfl⟩
  | cons j l ih =>
    refine TearLeaves.trans ?_ (ih _)
    dsimp only
    split
    next he _ =>
      obtain ⟨-, rfl⟩ := Prod.ext_iff.1 he
      exact ⟨_, _, rfl⟩
    next he _ =>
      obtain ⟨-, rfl⟩ := Prod.ext_iff.1 he
      exact ⟨_, _, rfl⟩

theorem windows_cleared (l : List Tamper) : (∀ c ∈ l.map fun c => { c with window := [] }, c.window = [])
    ∧ (l.map fun c => ({ c with window := [] } : Tamper)).length = l.length := by
  refine ⟨fun c hc => ?_, List.length_map ..⟩
  obtain ⟨d, -, rfl⟩ := List.mem_map.1 hc
  rfl

/-- A state on a new supply: every window cleared. -/
def onSupply (u : State) (vdd : Bool) : State :=
  { u with hwd.vdd := vdd, hwd.lossTime := if vdd then u.hwd.lossTime else u.htime,
           hwd.channels := u.hwd.channels.map fun c => { c with window := [] } }

theorem supplySourceChange_off (v : Nat) (h : s.hwd.vdd = true) : ∃ t, exec (.supplySourceChange false v) s = .next t
    ∧ t.hwd.vdd = false ∧ t.hwd.vbak = v ∧ t.hwd.key = s.hwd.key ∧ t.htime = s.htime ∧ t.recd = s.recd
      ∧ (∀ c ∈ t.hwd.channels, c.window = []) ∧ t.hwd.channels.length = s.hwd.channels.length := by
  have hu : TearLeaves { s with hwd.vbak := v }
      (if !false && !s.stopped then tearWrites { s with hwd.vbak := v } else { s with hwd.vbak := v }) := by
    split
    · exact tearWrites_leaves _
    · exact ⟨_, _, rfl⟩
  obtain ⟨st, fc, hu⟩ := hu
  obtain ⟨hw, hl⟩ := windows_cleared s.hwd.channels
  have hex : exec (.supplySourceChange false v) s = .next (onSupply _ false) := congrArg Host.Outcome.next
    ((if_neg (by simp [h])).trans (congrArg (onSupply · false) hu))
  exact ⟨_, hex, rfl, rfl, rfl, rfl, rfl, hw, hl⟩

theorem supplySourceChange_on (v : Nat) (h : s.hwd.vdd = false) : ∃ t k, exec (.supplySourceChange true v) s = .next t
    ∧ t.hwd.vdd = true ∧ t.hwd.vbak = v ∧ t.hwd.key = s.hwd.key ∧ t.htime = (s.htime + k) % 2 ^ 48 ∧ t.recd = s.recd
      ∧ (∀ c ∈ t.hwd.channels, c.window = []) := by
  obtain ⟨k, hk⟩ := backupTime_cell s h
  obtain ⟨hw, -⟩ := windows_cleared s.hwd.channels
  have hex : exec (.supplySourceChange true v) s
      = .next (onSupply { s with htime := (s.htime + k) % 2 ^ 48, freeCtr := s.freeCtr + 1, hwd.vbak := v } true) := by
    refine congrArg Host.Outcome.next ?_
    rw [if_pos rfl, hk]
    exact if_neg (by simp [h])
  exact ⟨_, k, hex, rfl, rfl, rfl, rfl, rfl, hw⟩

end

/-! ### Tamper samples (R404, R405) -/

theorem addFiring_ne_nil (t : Nat) (f : Firing) (l : List (Nat × List Firing)) : addFiring t f l ≠ [] := by
  unfold addFiring
  split
  · nofun
  · split <;> nofun
  · nofun

section
variable {s : State} {ch : Nat} {c : Tamper} {ev : Bool} {detail lights : Nat}

/-- The channel with its sample of this instant taken. -/
def Tamper.taken (c : Tamper) (t : Nat) : Tamper := { c with sampledAt := some t }

theorem tamperSample_idle (hv : s.hwd.vdd = true) (hc : s.hwd.channels[ch]? = some c)
    (h : 13 ≤ ch ∨ c.enable = false ∨ sampled s ch c = true) : exec (.tamperSample ch ev detail lights) s = .next s := by
  refine congrArg Host.Outcome.next ?_
  rw [backupTime_vdd s hv]
  dsimp only
  rw [hc]
  refine if_pos ?_
  rcases h with h | h | h
  · simp [samples, Nat.not_lt.2 h]
  · simp [h]
  · simp [h]

/-- A sample that is taken: the channel and, where its filter fires, the decision sets and the stewards' events. -/
theorem tamperSample_taken (hv : s.hwd.vdd = true) (hc : s.hwd.channels[ch]? = some c) (hch : ch < 13) (he : c.enable = true)
    (hs : sampled s ch c = false) : exec (.tamperSample ch ev detail lights) s = .next
      (let r := (c.taken s.tick.count).sample (isEvent s ch c ev)
       let u : State := { s with hwd.channels := s.hwd.channels.set ch r.2.2, hwd.glitch := s.hwd.glitch && ch != 12 }
       if r.1 = true then { u with
         hwd.sets := addFiring (instant u) ⟨ch, detail, if ch = 0 then lights else r.2.1⟩ s.hwd.sets,
         stw.events := s.stw.events ||| 8 } else u) := by
  refine congrArg Host.Outcome.next ?_
  rw [backupTime_vdd s hv]
  dsimp only
  rw [hc]
  refine (if_neg ?_).trans ?_
  · simp [samples, hch, hv, he, hs]
  · rw [if_pos hv]
    rfl

end

section
variable {c : Tamper} {e : Bool}

theorem sample_fires (he : e = true) (hn : c.n ≤ (((e :: c.window).take c.w).filter id).length) :
    c.sample e = (true, (((e :: c.window).take c.w).filter id).length,
      { c with window := [], fired := true, count := satInc 65535 c.count }) :=
  if_pos (by simp only [he, decide_eq_true (he ▸ hn), Bool.and_self])

theorem sample_quiet (h : e = false ∨ (((e :: c.window).take c.w).filter id).length < c.n) :
    c.sample e = (false, (((e :: c.window).take c.w).filter id).length, { c with window := (e :: c.window).take c.w }) := by
  refine if_neg ?_
  rcases h with rfl | h
  · nofun
  · simp only [Bool.and_eq_true, decide_eq_true_eq, not_and]
    exact fun _ => Nat.not_le.2 h

end

/-! ### Tamper decisions (R407, R408) -/

/-- Nothing that a response acts on: the objects, the vault, the heartwood key, what stands and what waits. -/
def HeartKeeps (s t : State) : Prop :=
  t.store = s.store ∧ t.vault = s.vault ∧ t.hwd.sets = s.hwd.sets ∧ t.hwd.key = s.hwd.key ∧ t.hwd.keyCopy = s.hwd.keyCopy
    ∧ t.hwd.erased = s.hwd.erased ∧ t.hwd.applied = s.hwd.applied ∧ t.hwd.throttle = s.hwd.throttle ∧ t.hwd.vdd = s.hwd.vdd

theorem HeartKeeps.refl (s : State) : HeartKeeps s s := ⟨rfl, rfl, rfl, rfl, rfl, rfl, rfl, rfl, rfl⟩

theorem HeartKeeps.trans {s t u : State} (h : HeartKeeps s t) (k : HeartKeeps t u) : HeartKeeps s u := by
  obtain ⟨h1, h2, h3, h4, h5, h6, h7, h8, h9⟩ := h
  obtain ⟨k1, k2, k3, k4, k5, k6, k7, k8, k9⟩ := k
  exact ⟨k1.trans h1, k2.trans h2, k3.trans h3, k4.trans h4, k5.trans h5, k6.trans h6, k7.trans h7, k8.trans h8, k9.trans h9⟩

theorem RaiseLeaves.heart {s t : State} (h : RaiseLeaves s t) : HeartKeeps s t := by
  obtain ⟨_, _, _, _, _, _, _, _, _, _, _, _, _, _, _, _, _, _, _, rfl, -⟩ := h
  exact .refl s

theorem tamperRecords_heart (s : State) (fs : List Firing) (r : Nat) (d : Bool) : HeartKeeps s (tamperRecords s fs r d) := by
  unfold tamperRecords
  induction fs generalizing s with
  | nil => exact .refl s
  | cons f fs ih =>
    obtain ⟨rc, ret, dr, he⟩ := emit_eq s (0x2000 + f.ch) f.detail f.lights (r + 8 * b2n d)
    rw [List.foldl_cons]
    refine HeartKeeps.trans ?_ (ih _)
    rw [he]
    exact .refl s

/-- What the response of rank `r` does on VDD beside its source and its snapshot. -/
def responseTo (s : State) (r : Nat) : State :=
  let s := rankSeen s r
  let s := if 3 ≤ r then eraseSessions s else s
  let s := if r = 4 then eraseKeys s else s
  if 1 ≤ r then { s with hwd.throttle := true } else s

theorem respond_vdd {s : State} (h : s.hwd.vdd = true) (r : Nat) : HeartKeeps (responseTo s r) (respond s r) := by
  have hv : (rankSeen s r).hwd.vdd = true := by
    unfold rankSeen
    split
    · exact h
    · exact h
  have he : respond s r = raiseSrc (if 1 ≤ r then snapTrigger (responseTo s r) 4 else responseTo s r) 0x24 r 0 := by
    unfold respond
    exact if_neg (by simp [hv])
  rw [he]
  refine HeartKeeps.trans ?_ (raiseSrc_leaves ..).heart
  obtain ⟨d, hd⟩ := snapTrigger_eq (responseTo s r) 4
  rw [hd]
  split
  · exact .refl _
  · exact .refl _

theorem responseTo_facts (s : State) (r : Nat) : (responseTo s r).hwd.sets = s.hwd.sets
    ∧ (1 ≤ r → (responseTo s r).hwd.throttle = true ∧ (responseTo s r).hwd.applied = r)
    ∧ (3 ≤ r → (responseTo s r).store.ctxs = [] ∧ (responseTo s r).store.streams = [] ∧ (responseTo s r).vault.keys = none)
    ∧ (r = 4 → (responseTo s r).hwd.key = none ∧ (responseTo s r).hwd.keyCopy = none ∧ (responseTo s r).hwd.erased = true)
    ∧ (r < 3 → (responseTo s r).store = s.store) ∧ (r < 4 → (responseTo s r).hwd.key = s.hwd.key) := by
  have hr : r = 0 ∨ (1 ≤ r ∧ r < 3) ∨ r = 3 ∨ r = 4 ∨ 4 < r := by omega
  rcases hr with rfl | ⟨h1, h3⟩ | rfl | rfl | h
  · exact ⟨rfl, nofun, nofun, nofun, fun _ => rfl, fun _ => rfl⟩
  · unfold responseTo
    simp only [rankSeen, if_neg (Nat.ne_of_gt h1), if_neg (Nat.not_le.2 h3), if_neg (show ¬ r = 4 by omega), if_pos h1]
    exact ⟨trivial, fun _ => ⟨trivial, trivial⟩, fun h => absurd h (Nat.not_le.2 h3), fun h => by omega, fun _ => trivial,
      fun _ => trivial⟩
  · exact ⟨rfl, fun _ => ⟨rfl, rfl⟩, fun _ => ⟨rfl, rfl, rfl⟩, nofun, nofun, fun _ => rfl⟩
  · exact ⟨rfl, fun _ => ⟨rfl, rfl⟩, fun _ => ⟨rfl, rfl, rfl⟩, fun _ => ⟨rfl, rfl, rfl⟩, nofun, nofun⟩
  · unfold responseTo
    simp only [rankSeen, if_neg (show ¬ r = 0 by omega), if_pos (show 3 ≤ r by omega), if_neg (show ¬ r = 4 by omega),
      if_pos (show 1 ≤ r by omega)]
    exact ⟨rfl, fun _ => ⟨trivial, rfl⟩, fun _ => ⟨rfl, rfl, rfl⟩, fun h => by omega, fun h => by omega, fun h => by omega⟩

/-- On VBAK alone only the erasure of rank 4 acts. -/
theorem respond_cell {s : State} (h : s.hwd.vdd = false) (r : Nat) :
    respond s r = if r = 4 then eraseKeys (rankSeen s r) else rankSeen s r := by
  have hv : (rankSeen s r).hwd.vdd = false := by
    unfold rankSeen
    split
    · exact h
    · exact h
  unfold respond
  exact if_pos (by simp [hv])

/-- What a response on VBAK alone leaves, where none stood. -/
theorem cell_facts {u : State} (r : Nat) (ha : u.hwd.applied = 0) :
    let t := if r = 4 then eraseKeys (rankSeen u r) else rankSeen u r
    t.hwd.sets = u.hwd.sets ∧ t.store = u.store ∧ t.hwd.applied = r
      ∧ (r = 4 → t.hwd.key = none ∧ t.hwd.keyCopy = none) ∧ (r ≠ 4 → t.hwd.key = u.hwd.key) := by
  intro t
  by_cases h4 : r = 4
  · subst h4
    exact ⟨rfl, rfl, rfl, fun _ => ⟨rfl, rfl⟩, fun h => absurd rfl h⟩
  · have ht : t = rankSeen u r := if_neg h4
    rw [ht]
    by_cases h0 : r = 0
    · subst h0
      exact ⟨rfl, rfl, ha, nofun, fun _ => rfl⟩
    · unfold rankSeen
      rw [if_neg h0]
      exact ⟨rfl, rfl, rfl, fun h => absurd h h4, fun _ => rfl⟩

section
variable {s : State} {q : Nat} {fs : List Firing} {rest : List (Nat × List Firing)}

/-- The rank that applies: the higher one of the two logics. -/
def appliedRank (s : State) (fs : List Firing) (second : Option Nat) : Nat :=
  max (rankOf s fs) (min 4 (second.getD (rankOf s fs)))

/-- The state with the oldest set taken and its records made. -/
def setTaken (s : State) (fs : List Firing) (rest : List (Nat × List Firing)) (second : Option Nat) : State :=
  tamperRecords { s with hwd.sets := rest } fs (appliedRank s fs second)
    (rankOf s fs != min 4 (second.getD (rankOf s fs)))

theorem setTaken_heart (second : Option Nat) : HeartKeeps { s with hwd.sets := rest } (setTaken s fs rest second) :=
  tamperRecords_heart ..

theorem tamperDecision_exec (hs : s.hwd.sets = (q, fs) :: rest) (second : Option Nat) :
    exec (.tamperDecision second) s = .next
      (let r := appliedRank s fs second
       let acts := s.hwd.applied == 0 || decide (s.hwd.applied < r)
       let w := if acts then respond (setTaken s fs rest second) r else setTaken s fs rest second
       if acts && decide (1 ≤ r) && w.hwd.vdd then flushRecorder w else w) := by
  refine congrArg Host.Outcome.next ?_
  rw [hs]
  rfl

/-- The flush that may follow a response keeps what it acts on. -/
theorem tamperDecision_ends (hs : s.hwd.sets = (q, fs) :: rest) (second : Option Nat) :
    ∃ t, exec (.tamperDecision second) s = .next t
      ∧ (s.hwd.applied = 0 ∨ s.hwd.applied < appliedRank s fs second →
        HeartKeeps (respond (setTaken s fs rest second) (appliedRank s fs second)) t)
      ∧ (s.hwd.applied ≠ 0 → appliedRank s fs second ≤ s.hwd.applied → HeartKeeps (setTaken s fs rest second) t) := by
  have hflush : ∀ (b : Bool) (w : State), HeartKeeps w (if b then flushRecorder w else w) := by
    intro b w
    split
    · exact .refl w
    · exact .refl w
  refine ⟨_, tamperDecision_exec hs second, fun h => ?_, fun h0 h => ?_⟩
  · have ha : (s.hwd.applied == 0 || decide (s.hwd.applied < appliedRank s fs second)) = true := by simpa using h
    simp only [ha, if_true]
    exact hflush ..
  · have ha : (s.hwd.applied == 0 || decide (s.hwd.applied < appliedRank s fs second)) = false := by
      simp [h0, Nat.not_lt.2 h]
    simp only [ha, Bool.false_and, Bool.false_eq_true, if_false]
    exact .refl _

end

/-! ### Floor bits and lockouts (R358, R424) -/

section
variable {s : State} {torn : Bool}

theorem lockoutExpiry_some {t : Nat} (ht : s.life.lockout = some t) (h : t ≤ s.tick.count ∨ s.tick.running = false) :
    exec .lockoutExpiry s = .next { s with life.lockout := none } := by
  refine congrArg Host.Outcome.next ?_
  unfold lockoutExpiry
  rw [ht]
  refine if_pos ?_
  rcases h with h | h
  · have h' : t ≤ now s := h
    simp [h']
  · simp [h]

theorem floorRaise_idle (h : s.grafts.floorPending = false ∨ s.tick.count < 60000000) :
    exec (.floorRaise torn) s = .next s := by
  refine congrArg Host.Outcome.next (if_pos ?_)
  rcases h with h | h
  · simp [h]
  · have h' : now s < 60000000 := h
    simp [h']

theorem floorRaise_due (hp : s.grafts.floorPending = true) (hr : s.tick.running = true) (hf : s.faults.safe = false)
    (hst : s.stopped = false) (ht : 60000000 ≤ s.tick.count) :
    (∃ t, exec (.floorRaise false) s = .next t
      ∧ t.grafts.floorBits = s.grafts.floorBits ||| 2 ^ s.floorT ∧ t.grafts.slotA = s.grafts.slotA)
    ∧ ∃ t, exec (.floorRaise true) s = .next t ∧ t.grafts.slotA = s.grafts.slotA
      ∧ (t.grafts.floorBits = s.grafts.floorBits ∨ t.grafts.floorBits = s.grafts.floorBits ||| 2 ^ s.floorT) := by
  have hc : ¬ (!s.grafts.floorPending || !s.tick.running || s.faults.safe || s.stopped || decide (now s < 60000000)) = true := by
    have ht' : ¬ now s < 60000000 := Nat.not_lt.2 ht
    simp [hp, hr, hf, hst, ht']
  have hdue (b : Bool) : exec (.floorRaise b) s = .next _ := congrArg Host.Outcome.next (if_neg hc)
  refine ⟨⟨_, hdue false, ?_⟩, _, hdue true, ?_⟩
  · rw [if_neg nofun]
    dsimp only
    split
    · exact ⟨rfl, rfl⟩
    · obtain ⟨r, ret, dr, he⟩ := emit_eq { s with
        grafts.floorBits := s.grafts.floorBits ||| 2 ^ s.floorT, grafts.floorPending := false } 0x0303 0 0
        ({ s with grafts.floorBits := s.grafts.floorBits ||| 2 ^ s.floorT } : State).floorT
      exact ⟨congrArg (·.grafts.floorBits) he, congrArg (·.grafts.slotA) he⟩
  · rw [if_pos rfl]
    refine ⟨rfl, ?_⟩
    dsimp only [takeFreeBool]
    split
    · exact .inr rfl
    · exact .inl rfl

end

/-- Settles O56: a response acts on its own state, and neither the records, nor the raise, nor the flush touch that again. -/
theorem heartwoodEvents : Obligations.HeartwoodEvents := by
  unfold Obligations.HeartwoodEvents
  intro s
  refine ⟨fun hv hl => ⟨congrArg Host.Outcome.next (if_pos ?_), rfl⟩, fun hv hb ht => congrArg Host.Outcome.next (if_pos ?_),
    fun h => congrArg Host.Outcome.next (if_neg ?_), fun ch ev detail lights c hv hc => ⟨tamperSample_idle hv hc,
      fun hch hen hs => ?_⟩, fun q fs rest second hs hv => ?_, fun hs second => ?_, fun q fs rest second hs hv ha => ?_,
    fun hv hb => ?_, fun h => congrArg Host.Outcome.next (if_pos ?_), fun v hv => supplySourceChange_off s v hv,
    fun v hv => supplySourceChange_on s v hv, rfl, rfl, fun t ht hr => ⟨fun h => ?_, fun h => ?_⟩, fun t ht hr => ?_, fun h => ?_,
    fun hp hr hf hst => ⟨fun ht => ?_, fun ht => ?_, fun torn ht => floorRaise_idle (.inr ht)⟩, fun torn h => floorRaise_idle
        (.inl h)⟩
  · simp [hv, hl]
  · have ht' : s.recd.flushed + 1048576 ≤ now s := ht
    simp [hv, hb, ht']
  · rcases h with h | h | ⟨h, ht⟩
    · simp [h]
    · simp [h]
    · have ht' : ¬ s.recd.flushed + 1048576 ≤ now s := Nat.not_le.2 ht
      simp [Nat.not_le.2 h, ht']
  · intro e w k
    have hex := tamperSample_taken (ev := ev) (detail := detail) (lights := lights) hv hc hch hen hs
    have hset : ∀ d, (s.hwd.channels.set ch d)[ch]? = some d := by
      obtain ⟨hi, -⟩ := List.getElem?_eq_some_iff.1 hc
      exact fun d => List.getElem?_set_self hi
    refine ⟨fun he hn => ?_, fun h => ?_⟩
    · have hf : (c.taken s.tick.count).sample (isEvent s ch c ev) = _ := sample_fires he hn
      rw [hf] at hex
      exact ⟨_, _, hex, hset _, rfl, rfl, rfl, fun h => addFiring_ne_nil _ _ _ h, rfl⟩
    · have hf : (c.taken s.tick.count).sample (isEvent s ch c ev) = _ := sample_quiet h
      rw [hf] at hex
      exact ⟨_, _, hex, hset _, rfl, rfl, rfl, rfl⟩
  · intro a r
    obtain ⟨t, hex, hact, hrest⟩ := tamperDecision_ends hs second
    obtain ⟨hst, hva, hse, hk, hkc, her, hap, hth, hvd⟩ := setTaken_heart (s := s) (fs := fs) (rest := rest) second
    refine ⟨t, hex, ?_, fun h => ?_, fun h0 h => ?_⟩
    · rcases Nat.eq_zero_or_pos s.hwd.applied with h0 | h0
      · obtain ⟨-, -, kse, -⟩ := (respond_vdd (hvd.trans hv) r).trans (hact (.inl h0))
        exact kse.trans ((responseTo_facts _ r).1.trans hse)
      · rcases Nat.lt_or_ge s.hwd.applied r with h | h
        · obtain ⟨-, -, kse, -⟩ := (respond_vdd (hvd.trans hv) r).trans (hact (.inr h))
          exact kse.trans ((responseTo_facts _ r).1.trans hse)
        · obtain ⟨-, -, kse, -⟩ := (setTaken_heart second).trans (hrest (Nat.ne_of_gt h0) h)
          exact kse
    · obtain ⟨kst, kva, kse, kk, kkc, ker, kap, kth, -⟩ := (respond_vdd (hvd.trans hv) r).trans (hact h)
      obtain ⟨-, f1, f3, f4, fs3, fk⟩ := responseTo_facts (setTaken s fs rest second) r
      rw [kst, kva, kk, kkc, ker, kap, kth]
      exact ⟨f1, f3, f4, fun h => (fs3 h).trans hst, fun h => (fk h).trans hk⟩
    · obtain ⟨kst, kva, -, kk, -, -, kap, -⟩ := (setTaken_heart second).trans (hrest h0 h)
      exact ⟨kva, kk, kst, kap⟩
  · refine congrArg Host.Outcome.next ?_
    rw [hs]
  · intro r
    obtain ⟨t, hex, hact, -⟩ := tamperDecision_ends hs second
    obtain ⟨hst, hva, hse, hk, hkc, her, hap, hth, hvd⟩ := setTaken_heart (s := s) (fs := fs) (rest := rest) second
    have hcell := hact (.inl ha)
    rw [respond_cell (hvd.trans hv)] at hcell
    obtain ⟨kst, -, kse, kk, kkc, -, kap, -⟩ := hcell
    obtain ⟨f1, f2, f3, f4, f5⟩ := cell_facts (u := setTaken s fs rest second) r (hap.trans ha)
    refine ⟨t, hex, ?_⟩
    rw [kst, kse, kk, kkc, kap]
    exact ⟨f1.trans hse, f2.trans hst, f3, f4, fun h => (f5 h).trans hk⟩
  · exact ⟨_, congrArg Host.Outcome.next (if_neg (by simp [hv, Nat.not_le.2 hb])), rfl, rfl, rfl, rfl, rfl, rfl⟩
  · simpa using h
  · exact lockoutExpiry_some ht (.inl h)
  · have h' : ¬ t ≤ now s := Nat.not_le.2 h
    refine congrArg Host.Outcome.next ?_
    unfold lockoutExpiry
    rw [ht]
    exact if_neg (by simp [hr, h'])
  · exact lockoutExpiry_some ht (.inr hr)
  · refine congrArg Host.Outcome.next ?_
    unfold lockoutExpiry
    rw [h]
  · exact (floorRaise_due hp hr hf hst ht).1
  · exact (floorRaise_due hp hr hf hst ht).2

end Sys2Proof.Machine
end

section
/-! Life cycle -/

namespace Sys2Proof.Machine
open Sys2Proof.Claims

/-! ### A transition over the TAP (R424, R425, R427, R433) -/

/-- The entry that the TAP's 56 parameter bytes stand for. -/
def tapEntry (params : Bytes) : Bytes := zeros 8 ++ fit 56 params

/-- What the TAP makes of a transition: a refusal shows in LCS_XSTATUS, and a SCRAP that completes goes on. -/
def tapEnds (se : Bytes) (r : State × Reply) : State :=
  if r.2.status = 0 && lcsTarget se == 6 && r.2.wait == .done then enterScrap r.1 else r.1

section
variable {s : State} {params : Bytes} {u : LcsUpset}

theorem jtagLcsCmd_ignored (h : s.pins.boot ≠ 2 ∨ s.lcs ≠ .blank ∧ (s.lcs ≠ .invalid ∨ lcsTarget (tapEntry params) ≠ 6)) :
    exec (.jtagLcsCmd params u) s = .next s := by
  refine congrArg Host.Outcome.next (if_pos ?_)
  rcases h with h | ⟨h, k | k⟩
  · simp [h]
  · simp [h, k]
  · have k' : lcsTarget (zeros 8 ++ fit 56 params) ≠ 6 := k
    simp [h, k']

theorem jtagLcsCmd_taken (hb : s.pins.boot = 2) (hl : s.lcs = .blank ∨ s.lcs = .invalid ∧ lcsTarget (tapEntry params) = 6) :
    exec (.jtagLcsCmd params u) s = .next (tapEnds (tapEntry params) (lcsNote
      (match firstReply (lcsChecks s (tapEntry params)) with
        | some r => (s, r)
        | none => lcsToken2 s (tapEntry params) [] u))) := by
  refine congrArg Host.Outcome.next ((if_neg ?_).trans rfl)
  rcases hl with h | ⟨h, k⟩
  · simp [hb, h]
  · have k' : lcsTarget (zeros 8 ++ fit 56 params) = 6 := k
    simp [hb, h, k']

/-- A transition that passes its checks is what its token and the fuses make of it. -/
theorem jtagLcsCmd_passed (hb : s.pins.boot = 2) (hl : s.lcs = .blank ∨ s.lcs = .invalid ∧ lcsTarget (tapEntry params) = 6)
    (hf : firstReply (lcsChecks s (tapEntry params)) = none) :
    exec (.jtagLcsCmd params u) s = .next (tapEnds (tapEntry params) (lcsNote (lcsToken2 s (tapEntry params) [] u))) := by
  rw [jtagLcsCmd_taken hb hl, hf]

theorem jtagLcsCmd_refused {r : Reply} (hb : s.pins.boot = 2)
    (hl : s.lcs = .blank ∨ s.lcs = .invalid ∧ lcsTarget (tapEntry params) = 6)
    (hf : firstReply (lcsChecks s (tapEntry params)) = some r) (h0 : r.status ≠ 0) (h6 : r.status ≠ 0x0600) (hw : r.wait
        = .done) :
    exec (.jtagLcsCmd params u) s = .next { s with life.phase := 0, life.lastDetail := r.detail } := by
  rw [jtagLcsCmd_taken hb hl, hf]
  have hn : lcsNote (s, r) = ({ s with life.phase := 0, life.lastDetail := r.detail }, r) := if_neg (by simp [h0, h6, hw])
  dsimp only
  rw [hn]
  exact congrArg Host.Outcome.next (if_neg (by simp [h0]))

/-- A mismatch is counted and locks out; it shows as 0x41. -/
theorem tapEnds_mismatch (se : Bytes) (v : State) : tapEnds se (lcsNote (lcsMismatch v, aState 0x41))
    = { lcsMismatch v with life.phase := 0, life.lastDetail := 0x41 } := by
  unfold lcsNote tapEnds
  generalize lcsMismatch v = w
  rfl

theorem lcsToken2_wrong {se : Bytes} (h : sha3 (lcsToken se) ∉ tokenSlots s (lcsTarget se)) (block : Bytes) :
    lcsToken2 s se block .none = (lcsMismatch s, aState 0x41) := by
  unfold lcsToken2
  dsimp only
  rw [if_neg nofun, if_pos (by simpa using h)]

theorem lcsToken2_right {se : Bytes} (h : sha3 (lcsToken se) ∈ tokenSlots s (lcsTarget se)) (block : Bytes)
    (hu : u ≠ .glitch) : lcsToken2 s se block u = lcsProgram s (lcsTarget se) block u := by
  unfold lcsToken2
  dsimp only
  rw [if_neg (by simpa using hu), if_neg (by simpa using h)]

theorem lcsToken2_glitch (se block : Bytes) :
    lcsToken2 s se block .glitch = (lcsMismatch (glitchAlarm s 0xFFFF 0xA3 (unitId 7 0)), aState 0x41) := rfl

/-- A glitch alarm leaves the fuses, the lockout and the clock. -/
theorem glitchAlarm_life (s : State) (inst kind unit : Nat) : (glitchAlarm s inst kind unit).life = s.life
    ∧ (glitchAlarm s inst kind unit).tick = s.tick := by
  obtain ⟨v, ⟨_, _, _, _, _, _, _, _, _, _, _, _, _, _, _, _, _, _, _, rfl, -⟩, h⟩ := glitchAlarm_leaves s inst kind unit
  rw [h]
  exact ⟨rfl, rfl⟩

theorem provExit_not (h : s.lcs ≠ .provisioned) (t : Nat) : provExit s t = false := by
  simp [provExit, h]

/-- Copy A of the field of a target programmed. -/
def copyAProgrammed (s : State) (target : Nat) : State :=
  setField { s with life.phase := 2 } target fun f => (0xFFFF, f.2)

/-- What follows copy A of a target other than SCRAP, without a data block: the actions and copy B. -/
def secondCopy (s : State) (target : Nat) (u : LcsUpset) : State × Reply :=
  match strikes u 2 with
  | some n => lcsTorn (if n = 0 then { s with life.phase := 4 } else lcsActions { s with life.phase := 4 } target) target u
  | none =>
    let s := lcsActions { s with life.phase := 4 } target
    match strikes u 3 with
    | some n => lcsTorn (setField { s with life.phase := 5 } target fun f => (f.1, progCopy f.2 n)) target u
    | none =>
      let s := setField s target fun f => (f.1, 0xFFFF)
      ({ s with life.phase := 6, life.done := true, life.pending := none }, aOk target)

theorem lcsProgram_test (h : s.lcs ≠ .provisioned) (block : Bytes) (h0 : strikes u 0 = none) :
    lcsProgram s 1 block u = secondCopy (copyAProgrammed s 1) 1 u := by
  have hf : provExit (copyAProgrammed s 1) 1 = false := provExit_not (s := copyAProgrammed s 1) h 1
  have hp : ¬ provExit (copyAProgrammed s 1) 1 = true := by
    rw [hf]
    nofun
  unfold lcsProgram
  rw [h0]
  refine (if_neg (by decide)).trans ?_
  split
  next n hn => cases ((if_neg hp).symm.trans hn : none = some n)
  next hn => exact congrArg (secondCopy · 1 u) (if_neg hp)

theorem lcsProgram_struck (block : Bytes) {t n : Nat} (h0 : strikes u 0 = some n) : lcsProgram s t block u
    = lcsTorn (setField { s with life.phase := 2 } t fun f => (progCopy f.1 n, f.2)) t u := by
  unfold lcsProgram
  rw [h0]

/-- A failed read-back leaves the transition pending, with what has been programmed. -/
theorem lcsTorn_readBack (t k n : Nat) :
    lcsTorn s t (.readBack k n) = ({ s with life.pending := some t }, ⟨0x0600, 0x40, 0, .done⟩) := rfl

/-- A torn transition and one that is not SCRAP show no more over the TAP. -/
theorem tapEnds_torn (se : Bytes) (v : State) : tapEnds se (lcsNote (v, ⟨0x0600, 0x40, 0, .done⟩)) = v := by
  unfold lcsNote tapEnds
  rfl

theorem tapEnds_ok {se : Bytes} (h : lcsTarget se ≠ 6) (v : State) (r : Nat) : tapEnds se (lcsNote (v, aOk r)) = v := by
  have hn : lcsNote (v, aOk r) = (v, aOk r) := if_pos (by simp [aOk])
  rw [hn]
  exact if_neg (by simp [h])

theorem tapEnds_scrap {se : Bytes} (h : lcsTarget se = 6) (v : State) (r : Nat) :
    tapEnds se (lcsNote (v, aOk r)) = enterScrap v := by
  have hn : lcsNote (v, aOk r) = (v, aOk r) := if_pos (by simp [aOk])
  rw [hn]
  exact if_pos (by simp [h, aOk])

theorem lcsProgram_scrap (block : Bytes) (h0 : strikes u 0 = none) : lcsProgram s 6 block u
    = ({ copyAProgrammed s 6 with life.done := true }, aOk 6) := by
  unfold lcsProgram
  rw [h0]
  exact if_pos rfl

/-- Both copies of the field of TEST are programmed, and no other field. -/
theorem secondCopy_field (h : s.life.otp.fields.length = 6) :
    (secondCopy (copyAProgrammed s 1) 1 .none).1.life.otp.fields[0]? = some (0xFFFF, 0xFFFF) := by
  show ((s.life.otp.fields.modify 0 fun f => (0xFFFF, f.2)).modify 0 fun f => (f.1, 0xFFFF))[0]? = _
  rw [List.getElem?_modify_eq, List.getElem?_modify_eq, List.getElem?_eq_getElem (h ▸ (by decide : 0 < 6))]
  rfl

theorem secondCopy_others {i : Nat} (h : 1 ≤ i) :
    (secondCopy (copyAProgrammed s 1) 1 .none).1.life.otp.fields[i]? = s.life.otp.fields[i]? := by
  obtain ⟨i, rfl⟩ : ∃ k, i = k + 1 := ⟨i - 1, by omega⟩
  show ((s.life.otp.fields.modify 0 fun f => (0xFFFF, f.2)).modify 0 fun f => (f.1, 0xFFFF))[i + 1]? = _
  cases s.life.otp.fields <;> rfl

/-- Every link stops, and the device is on the scrap path with no job left. -/
theorem enterScrap_stops (s : State) : (enterScrap s).life.state = .scrap ∧ (enterScrap s).life.otp = s.life.otp
    ∧ (enterScrap s).tick.running = false ∧ (enterScrap s).work.jobs = [] := by
  obtain ⟨o, ms, rg, h⟩ := stopCore_eq s 0xFFFF
  unfold enterScrap
  dsimp only
  rw [h]
  exact ⟨rfl, rfl, rfl, rfl⟩

theorem copyAProgrammed_scrap (h : s.life.otp.fields.length = 6) :
    ((copyAProgrammed s 6).life.otp.fields[5]?).map (·.1) = some 0xFFFF := by
  show ((s.life.otp.fields.modify 5 fun f => (0xFFFF, f.2))[5]?).map (·.1) = _
  rw [List.getElem?_modify_eq, List.getElem?_eq_getElem (h ▸ (by decide : 5 < 6))]
  rfl

/-- A TEST transition whose read-back fails in copy A, at the actions or in copy B. -/
theorem lcsProgram_readBack (h : s.lcs ≠ .provisioned) (block : Bytes) {k : Nat} (n : Nat) (hk : k = 0 ∨ k = 2 ∨ k = 3) :
    ∃ v : State, lcsProgram s 1 block (.readBack k n) = ({ v with life.pending := some 1 }, ⟨0x0600, 0x40, 0, .done⟩)
      ∧ v.life.done = s.life.done
      ∧ (k < 3 → (v.life.otp.fields[0]?).map (·.2) = (s.life.otp.fields[0]?).map (·.2)) := by
  have hmod : ∀ g : Nat × Nat → Nat, ((s.life.otp.fields.modify 0 fun f => (g f, f.2))[0]?).map (·.2)
      = (s.life.otp.fields[0]?).map (·.2) := by
    intro g
    rw [List.getElem?_modify_eq]
    cases s.life.otp.fields[0]? <;> rfl
  rcases hk with rfl | rfl | rfl
  · exact ⟨_, lcsProgram_struck block rfl, rfl, fun _ => hmod _⟩
  · exact ⟨{ copyAProgrammed s 1 with life.phase := 4 }, (lcsProgram_test h block rfl).trans
      (congrArg (lcsTorn · 1 (.readBack 2 n)) (ite_self { copyAProgrammed s 1 with life.phase := 4 })), rfl, fun _ => hmod _⟩
  · exact ⟨_, (lcsProgram_test h block rfl).trans rfl, rfl, fun h => absurd h (Nat.lt_irrefl 3)⟩

end

/-! ### Debug and the management port (R435, R520) -/

section
variable {s : State} {params n : Bytes} {g : Bool}

/-- The decision on a response: its length and both signatures. -/
def debugSigned (s : State) (n r : Bytes) : Bool :=
  r.length == 4723 && stdHolds .deviceVerify 0x0203
    [dzdebug, ((List.range 2689).map Config.debugRoot).take 2592, n ++ fit 16 s.pins.identity, r.take 4627]
    && stdHolds .deviceVerify 0x1102
      [((List.range 2689).map Config.debugRoot).drop 2592, n ++ fit 16 s.pins.identity, r.drop 4627]

theorem dbgResponse_exec (hl : s.lcs = .returned) (hc : s.life.challenge = some n) : exec (.dbgResponse params g) s = .next
    (if g then glitchAlarm { s with life.challenge := none } 0xFFFF 0 (unitId 7 0)
     else if debugSigned s n params then { s with life.challenge := none, life.debugOpen := true }
     else { s with life.challenge := none }) := by
  refine congrArg Host.Outcome.next ?_
  rw [hc]
  exact if_neg (by simp [hl])

theorem mgRead_up (hb : 2 ≤ s.pins.boot) (late : Bool) (n v : Nat) : mgRead s late n v
    = { s with pins.answer := leBytes n (if s.lcs = .scrap ∨ late = true ∧ s.pins.boot ≠ 8 then 0 else v) } := by
  have hu : (!mgUp s) = false := by simp [mgUp, hb]
  unfold mgRead
  rw [hu, if_neg nofun]
  have hi : (onScrap s || (late && s.pins.boot != 8)) = decide (s.lcs = .scrap ∨ late = true ∧ s.pins.boot ≠ 8) := by
    rw [Bool.eq_iff_iff]
    simp [onScrap]
  simp only [hi, decide_eq_true_eq]

end

/-- Settles O57: a refusal, a mismatch, a torn stage and a completion each leave the fuses as their step did. -/
theorem lifeCycleAndManagement : Obligations.LifeCycleAndManagement := by
  unfold Obligations.LifeCycleAndManagement
  intro s params se
  have hse : se = tapEntry params := rfl
  clear_value se
  subst hse
  refine ⟨fun hb hl hf => ⟨fun ht => ?_, fun ht h1 hlen => ?_, ?_, fun k n hk ht h1 => ?_⟩, fun hb hl => ⟨fun r u hf h0 h6 hw =>
    jtagLcsCmd_refused hb hl hf h0 h6 hw, fun hf ht h6 hlen => ?_⟩, fun u h => jtagLcsCmd_ignored h, fun hl hb => ?_,
    fun h => congrArg Host.Outcome.next (if_pos ?_), fun g h => ?_, fun n hl hc => ?_, fun n hl hc => ?_, fun hb => ?_,
    fun hb hl => ?_, fun hb hl => ?_, rfl⟩
  · have hex := jtagLcsCmd_passed (u := .none) hb (.inl hl) hf
    rw [lcsToken2_wrong ht, tapEnds_mismatch] at hex
    exact ⟨_, hex, rfl, rfl, rfl, rfl⟩
  · have hex := jtagLcsCmd_passed (u := .none) hb (.inl hl) hf
    have hne : lcsTarget (tapEntry params) ≠ 6 := by
      intro h
      cases h1.symm.trans h
    rw [lcsToken2_right (u := .none) (h1.symm ▸ ht) [] nofun, h1, lcsProgram_test (by rw [hl]; nofun) [] rfl] at hex
    refine ⟨_, hex.trans (congrArg Host.Outcome.next (tapEnds_ok hne _ _)), ?_, fun i hi => ?_, rfl, rfl⟩
    · exact secondCopy_field hlen
    · exact secondCopy_others hi
  · have hex := jtagLcsCmd_passed (u := .glitch) hb (.inl hl) hf
    rw [lcsToken2_glitch, tapEnds_mismatch] at hex
    obtain ⟨hlife, htick⟩ := glitchAlarm_life s 0xFFFF 0xA3 (unitId 7 0)
    generalize glitchAlarm s 0xFFFF 0xA3 (unitId 7 0) = v at hex hlife htick
    refine ⟨_, hex, ?_, ?_, rfl, ?_⟩
    · show satInc 255 v.life.mismatches = _
      rw [hlife]
    · show some (v.tick.count + 1000000) = _
      rw [htick]
    · show v.life.otp = _
      rw [hlife]
  · have hex := jtagLcsCmd_passed (u := .readBack k n) hb (.inl hl) hf
    obtain ⟨v, hv, hd, h3⟩ := lcsProgram_readBack (s := s) (by rw [hl]; nofun) [] n hk
    rw [lcsToken2_right (u := .readBack k n) (h1.symm ▸ ht) [] nofun, h1, hv, tapEnds_torn] at hex
    exact ⟨_, hex, rfl, hd, h3⟩
  · have hex := jtagLcsCmd_passed (u := .none) hb hl hf
    rw [lcsToken2_right (u := .none) (h6.symm ▸ ht) [] nofun, h6, lcsProgram_scrap [] rfl, tapEnds_scrap h6] at hex
    obtain ⟨h1, h2, h3, h4⟩ := enterScrap_stops { copyAProgrammed s 6 with life.done := true }
    refine ⟨_, hex, h1, ?_, h3, h4⟩
    rw [h2]
    exact copyAProgrammed_scrap hlen
  · exact congrArg Host.Outcome.next (if_neg (by simp [hl, Nat.not_lt.2 hb]))
  · rcases h with h | h <;> simp [h]
  · refine congrArg Host.Outcome.next ?_
    split
    · rfl
    next n hn =>
      refine if_pos ?_
      rcases h with h | h
      · simp [h]
      · cases hn.symm.trans h
  · obtain ⟨hlife, -⟩ := glitchAlarm_life { s with life.challenge := none } 0xFFFF 0 (unitId 7 0)
    refine ⟨_, dbgResponse_exec hl hc, congrArg (·.challenge) hlife, congrArg (·.debugOpen) hlife⟩
  · intro msg root good
    have hex := dbgResponse_exec (params := params) (g := false) hl hc
    have hg : debugSigned s n params = true ↔ good := by
      unfold debugSigned
      rw [Bool.and_eq_true, Bool.and_eq_true, beq_iff_eq, and_assoc]
    rw [if_neg nofun] at hex
    refine ⟨fun h => ?_, fun h => ?_⟩
    · rw [if_pos (hg.2 h)] at hex
      exact hex
    · rw [if_neg (mt hg.1 h)] at hex
      exact hex
  · refine ⟨congrArg Host.Outcome.next (if_pos ?_), congrArg Host.Outcome.next (if_pos ?_), congrArg Host.Outcome.next
        (if_pos ?_),
      congrArg Host.Outcome.next (if_pos ?_), congrArg Host.Outcome.next (if_neg ?_)⟩
    all_goals simp [mgUp, hb]
  · have hread : ∀ late v k, (late = true → s.pins.boot = 8) → mgRead s late k v = { s with pins.answer := leBytes k v } := by
      intro late v k h
      rw [mgRead_up hb, if_neg]
      rintro (h' | ⟨h1, h2⟩)
      · exact hl h'
      · exact h2 (h h1)
    have hup : ¬ (!mgUp s) = true := by simp [mgUp, hb]
    refine ⟨⟨_, congrArg Host.Outcome.next (if_neg hup), ?_, ?_⟩, congrArg Host.Outcome.next (hread _ _ _ nofun), fun h8 =>
      ⟨congrArg Host.Outcome.next (hread _ _ _ fun _ => h8), congrArg Host.Outcome.next (hread _ _ _ fun _ => h8)⟩, fun h8 => ?_,
      fun ha => congrArg Host.Outcome.next (if_pos ?_), fun ha => congrArg Host.Outcome.next (if_neg ?_)⟩
    · simp only [List.length_append, leBytes_length]
      rfl
    · show leNat [BitVec.ofNat 8 s.lcs.code] = s.lcs.code
      cases s.lcs <;> rfl
    · refine congrArg Host.Outcome.next ((mgRead_up hb ..).trans ?_)
      rw [if_pos (.inr ⟨rfl, h8⟩)]
    · simp [mgUp, hb, ha]
    · simp [ha]
  · have hread : ∀ late v k, mgRead s late k v = { s with pins.answer := leBytes k 0 } := fun late v k => by
      rw [mgRead_up hb, if_pos (.inl hl)]
    exact ⟨congrArg Host.Outcome.next (hread ..), congrArg Host.Outcome.next (hread ..), congrArg Host.Outcome.next (hread ..)⟩

end Sys2Proof.Machine
end

section
/-! Tether links -/

namespace Sys2Proof.Machine
open Sys2Proof.Claims

/-! ### A link after a change (R453) -/

section
variable {s : State} {l : Nat}

theorem State.link_updLink (h : l < s.tether.links.length) (f : TLink → TLink) : (s.updLink l f).link l = f (s.link l) := by
  unfold State.link State.updLink
  dsimp only
  rw [List.getD_eq_getElem?_getD, List.getD_eq_getElem?_getD, List.getElem?_modify_eq, List.getElem?_eq_getElem h]
  rfl

theorem State.link_updLink_ne {k : Nat} (h : k ≠ l) (s : State) (f : TLink → TLink) : (s.updLink k f).link l = s.link l := by
  unfold State.link State.updLink
  dsimp only
  rw [List.getD_eq_getElem?_getD, List.getD_eq_getElem?_getD, List.getElem?_modify_ne f _ h]

theorem State.updLink_length (s : State) (k : Nat) (f : TLink → TLink) :
    (s.updLink k f).tether.links.length = s.tether.links.length := List.length_modify ..

/-- What discovery can change of a link: what it offered, and when. -/
def LinkOffered (k k' : TLink) : Prop := ∃ sd o r t, k' = { k with seed := sd, offer := o, refused := r, tried := t }

theorem offered_updLink {u : State} {f : TLink → TLink} (hu : u.tether.links = s.tether.links) (hf : ∀ k, LinkOffered k (f k))
    (h : l < s.tether.links.length) : LinkOffered (s.link l) ((u.updLink l f).link l) := by
  have hl : u.link l = s.link l := congrArg (List.getD · l default) hu
  rw [State.link_updLink (hu ▸ h), hl]
  exact hf _

theorem discover_link (s : State) (h : l < s.tether.links.length) : LinkOffered (s.link l) ((discover s l).link l) := by
  have hr : LinkOffered (s.link l) (s.link l) := ⟨_, _, _, _, rfl⟩
  unfold discover
  split
  · exact hr
  split
  · exact hr
  split
  · unfold sendCharter
    split
    · exact hr
    · exact offered_updLink rfl (fun _ => ⟨_, _, _, _, rfl⟩) h
  · split
    · exact offered_updLink rfl (fun _ => ⟨_, _, _, _, rfl⟩) h
    · exact hr

end

/-! ### Training, lanes and retrains (R453) -/

section
variable {s : State} {l : Nat}

/-- The other link of a link's port. -/
def otherLink (l : Nat) : Nat := l + 1 - 2 * (l % 2)

/-- Is the port of a link split in two? -/
def portSplit (s : State) (l : Nat) : Bool :=
  (s.link l).split || l % 2 == 1 || (s.link (otherLink l)).state == .paired || (s.link (otherLink l)).state == .discovery

/-- A link that has trained to a width. -/
def TLink.trained (k : TLink) (width : Nat) (split : Bool) : TLink :=
  { k with
    state := if k.was then .paired else .discovery, was := false, width := width, split := split, nakRow := 0, nak := false,
    rxSeq := if k.was then k.rxSeq else 0, parts := if k.was then k.parts else [] }

theorem otherLink_ne (l : Nat) : otherLink l ≠ l := by
  unfold otherLink
  omega

theorem tetherLinkTrained_refused {w : Nat} (h : ((s.link l).state ≠ .training ∧ (s.link l).state ≠ .lost ∧
    (s.link l).state ≠ .down)
    ∨ (w ≠ 1 ∧ w ≠ 2 ∧ w ≠ 4) ∨ w = 4 ∧ portSplit s l = true) : exec (.tetherLinkTrained l w) s = .next s := by
  refine congrArg Host.Outcome.next (if_pos ?_)
  rcases h with ⟨h1, h2, h3⟩ | ⟨h1, h2, h3⟩ | ⟨rfl, h⟩
  · simp [h1, h2, h3]
  · simp [h1, h2, h3]
  · refine Bool.or_eq_true_iff.2 (.inr ?_)
    exact Bool.and_eq_true_iff.2 ⟨h, rfl⟩

theorem tetherLinkTrained_trains {w : Nat} (hb : s.pins.boot = 8) (hr : s.pins.role ≠ 0) (hl : l < 8)
    (hlen : s.tether.links.length = 8) (hk : (s.link l).state = .training ∨ (s.link l).state = .lost ∨ (s.link l).state = .down)
    (hw : w = 1 ∨ w = 2 ∨ w = 4 ∧ portSplit s l = false) : ∃ t, exec (.tetherLinkTrained l w) s = .next t
      ∧ LinkOffered ((s.link l).trained w (portSplit s l)) (t.link l) ∧ t.work = s.work := by
  have hc : ¬ (!s.up || s.solo || decide (8 ≤ l)
      || !((s.link l).state == .training || (s.link l).state == .lost || (s.link l).state == .down)
        || !([1, 2, 4].contains w) || (portSplit s l && w == 4)) = true := by
    have h1 : (s.link l).state == .training || (s.link l).state == .lost || (s.link l).state == .down := by
      rcases hk with h | h | h <;> simp [h]
    have h2 : [1, 2, 4].contains w = true ∧ (portSplit s l && w == 4) = false := by
      rcases hw with rfl | rfl | ⟨rfl, h⟩
      · simp
      · simp
      · simp [h]
    obtain ⟨h2, h3⟩ := h2
    have hup : s.up = true := by simp [State.up, hb]
    have hsolo : s.solo = false := by simp [State.solo, hr]
    simp only [h1, h2, h3, hup, hsolo, Nat.not_le.2 hl]
    decide
  refine ⟨_, congrArg Host.Outcome.next (if_neg hc), ?_⟩
  extract_lets u v
  have hu : u.link l = (s.link l).trained w (portSplit s l) ∧ u.tether.links.length = 8 ∧ u.work = s.work := by
    refine ⟨?_, ?_, rfl⟩
    · refine (State.link_updLink_ne (otherLink_ne l) _ _).trans ?_
      exact State.link_updLink (hlen ▸ hl) _
    · exact (State.updLink_length ..).trans ((State.updLink_length ..).trans hlen)
  obtain ⟨h1, h2, h3⟩ := hu
  have hv : v.link l = u.link l ∧ v.tether.links.length = 8 ∧ v.work = s.work := ⟨rfl, h2, h3⟩
  clear_value v
  obtain ⟨g1, g2, g3⟩ := hv
  obtain ⟨_, _, _, he⟩ := discover_eq v l
  refine ⟨?_, ?_⟩
  · have := discover_link v (l := l) (g2 ▸ hl)
    rwa [g1, h1] at this
  · rw [he]
    exact g3

theorem tetherLaneFail_idle {lane : Nat} (h : 4 ≤ lane ∨ (s.link l).width = 0) : exec (.tetherLaneFail l lane) s = .next s := by
  refine congrArg Host.Outcome.next (if_pos ?_)
  rcases h with h | h <;> simp [h]

/-- A raise leaves the tether's links. -/
theorem raiseSrc_links (s : State) (g i p2 : Nat) : (raiseSrc s g i p2).tether.links = s.tether.links := by
  obtain ⟨_, _, _, _, _, _, _, _, _, _, _, _, _, _, _, _, _, _, _, h, -⟩ := raiseSrc_leaves s g i p2
  exact congrArg (·.tether.links) h

theorem link_of_links {t : State} (h : t.tether.links = s.tether.links) : t.link l = s.link l :=
  congrArg (List.getD · l default) h

/-- A link that is lost. -/
def TLink.gone (k : TLink) : TLink := { k with state := .lost, width := 0, was := false, parts := [] }

theorem loseLink_link (h : l < s.tether.links.length) : (loseLink s l).link l = (s.link l).gone := by
  have hl : (s.updLink l TLink.gone).link l = (s.link l).gone := State.link_updLink h _
  unfold loseLink
  extract_lets u
  have hu : u.link l = (s.link l).gone := hl
  clear_value u
  split
  · exact (link_of_links (raiseSrc_links u 0x1A (l / 2) 0)).trans hu
  · exact hu

/-- The next lower width of a link, with its retrain counted. -/
def TLink.narrowed (k : TLink) : TLink :=
  { k with width := narrower k.width, retrains := satInc 255 k.retrains, nakRow := 0, nak := false }

theorem tetherLaneFail_fails {lane : Nat} (hb : s.pins.boot = 8) (hr : s.pins.role ≠ 0) (hl : l < 8)
    (hlen : s.tether.links.length = 8) (ha : lane < 4) (hw : (s.link l).width ≠ 0) : ∃ t,
      exec (.tetherLaneFail l lane) s = .next t
        ∧ t.link l = if (s.link l).width = 1 then (s.link l).gone else (s.link l).narrowed := by
  have hc : ¬ (!s.up || s.solo || decide (8 ≤ l) || decide (4 ≤ lane) || decide ((s.link l).width = 0)) = true := by
    simp [State.up, hb, State.solo, hr, Nat.not_le.2 hl, Nat.not_le.2 ha, hw]
  refine ⟨_, congrArg Host.Outcome.next (if_neg hc), ?_⟩
  extract_lets u
  have hu : u.tether.links = s.tether.links := raiseSrc_links ..
  have hul : l < u.tether.links.length := by
    rw [hu, hlen]
    exact hl
  clear_value u
  split
  · rw [loseLink_link hul, link_of_links hu]
  · refine (State.link_updLink hul TLink.narrowed).trans ?_
    rw [link_of_links hu]

/-- A link after a retrain has been asked for. -/
def TLink.retrained (k : TLink) : TLink :=
  if k.state = .down ∨ k.state = .training then k
  else { k with state := .training, was := k.state == .paired, retrains := satInc 255 k.retrains, nakRow := 0 }

theorem retrainLink_link (s : State) (k : Nat) (h : l < s.tether.links.length) :
    (retrainLink s k).link l = if k = l then (s.link l).retrained else s.link l := by
  unfold retrainLink
  dsimp only
  by_cases hk : k = l
  · subst hk
    rw [if_pos rfl]
    unfold TLink.retrained
    by_cases hd : (s.link k).state = .down ∨ (s.link k).state = .training
    · rw [if_pos hd, if_pos (by simpa using hd)]
    · rw [if_neg hd, if_neg (by simpa using hd), State.link_updLink h]
  · rw [if_neg hk]
    split
    · rfl
    · exact State.link_updLink_ne hk ..

/-- A retrain changes the links alone, and how many there are it leaves. -/
theorem retrainLink_eq (s : State) (k : Nat) :
    ∃ ls, retrainLink s k = { s with tether.links := ls } ∧ ls.length = s.tether.links.length := by
  unfold retrainLink
  dsimp only
  split
  · exact ⟨_, rfl, rfl⟩
  · exact ⟨_, rfl, List.length_modify ..⟩

theorem retrainLink_length (s : State) (k : Nat) : (retrainLink s k).tether.links.length = s.tether.links.length := by
  obtain ⟨ls, h, hl⟩ := retrainLink_eq s k
  rw [h]
  exact hl

/-- Retraining both links of each port of a list retrains each link once. -/
theorem retrainPorts_link (qs : List Nat) (hn : qs.Nodup) (s : State) (h : l < s.tether.links.length) :
    (qs.foldl (fun s q => retrainLink (retrainLink s (2 * q)) (2 * q + 1)) s).link l
      = if l / 2 ∈ qs then (s.link l).retrained else s.link l := by
  induction qs generalizing s with
  | nil => rfl
  | cons q qs ih =>
    obtain ⟨hq, hn⟩ := List.nodup_cons.1 hn
    have hlen : l < (retrainLink (retrainLink s (2 * q)) (2 * q + 1)).tether.links.length := by
      rwa [retrainLink_length, retrainLink_length]
    rw [List.foldl_cons, ih hn _ hlen, retrainLink_link _ _ (by rwa [retrainLink_length]), retrainLink_link _ _ h]
    by_cases hl : l / 2 = q
    · have hone : 2 * q + 1 = l ∨ 2 * q = l := by omega
      subst hl
      rw [if_neg hq, if_pos (List.mem_cons_self ..)]
      rcases hone with he | he
      · rw [if_pos he, if_neg (by omega)]
      · rw [if_neg (by omega), if_pos he]
    · have h1 : ¬ 2 * q + 1 = l := by omega
      have h2 : ¬ 2 * q = l := by omega
      simp only [h1, h2, if_false, List.mem_cons, hl, false_or]

theorem retrainPorts_work (qs : List Nat) (s : State) :
    (qs.foldl (fun s q => retrainLink (retrainLink s (2 * q)) (2 * q + 1)) s).work = s.work := by
  induction qs generalizing s with
  | nil => rfl
  | cons q qs ih =>
    obtain ⟨_, h1, -⟩ := retrainLink_eq s (2 * q)
    obtain ⟨_, h2, -⟩ := retrainLink_eq (retrainLink s (2 * q)) (2 * q + 1)
    rw [List.foldl_cons, ih, h2, h1]

theorem tetherRetrain_exec {v : Nat} (hb : s.pins.boot = 8) (hr : s.pins.role ≠ 0) (hl : l < 8) (hlen : s.tether.links.length = 8)
    (hd : (s.port s.adm.primary).dlUp = true) : ∃ t, exec (.tetherRetrain s.adm.primary v) s = .next t ∧ t.work = s.work
      ∧ t.link l = if bit v (l / 2) = true then (s.link l).retrained else s.link l := by
  have hc : ¬ (!s.up || s.solo || s.adm.primary != s.adm.primary || !(s.port s.adm.primary).dlUp) = true := by
    simp [State.up, hb, State.solo, hr, hd]
  refine ⟨_, congrArg Host.Outcome.next (if_neg hc), retrainPorts_work .., ?_⟩
  have hm : l / 2 ∈ (List.range 4).filter (bit v) ↔ bit v (l / 2) = true := by
    rw [List.mem_filter, List.mem_range]
    exact and_iff_right (by omega)
  rw [retrainPorts_link _ (List.nodup_range.filter _) _ (hlen ▸ hl)]
  simp only [hm]

end

/-! ### Flits (R454 to R457) -/

section
variable {s : State} {l : Nat}

/-- A link with a NAK counted. -/
def TLink.nakked (k : TLink) : TLink := { k with nak := true, naks := satInc 255 k.naks, nakRow := k.nakRow + 1 }

theorem sendNak_few (h : (s.link l).nakRow < 7) : sendNak s l = s.updLink l TLink.nakked :=
  if_neg (Nat.not_le.2 (Nat.succ_lt_succ h))

theorem sendNak_many (h : 7 ≤ (s.link l).nakRow) : sendNak s l = retrainLink (s.updLink l TLink.nakked) l :=
  if_pos (Nat.succ_le_succ h)

/-- A NAK touches the link alone, which keeps its sequence number and what it has received. -/
theorem sendNak_link (s : State) (h : l < s.tether.links.length) :
    ((sendNak s l).link l).naks = satInc 255 (s.link l).naks ∧ ((sendNak s l).link l).rxSeq = (s.link l).rxSeq
      ∧ ∃ ls, sendNak s l = { s with tether.links := ls } ∧ ls.length = s.tether.links.length := by
  have hu : (s.updLink l TLink.nakked).link l = (s.link l).nakked := State.link_updLink h _
  rcases Nat.lt_or_ge (s.link l).nakRow 7 with hn | hn
  · rw [sendNak_few hn, hu]
    exact ⟨rfl, rfl, _, rfl, List.length_modify ..⟩
  · rw [sendNak_many hn]
    obtain ⟨ls, he, hlen⟩ := retrainLink_eq (s.updLink l TLink.nakked) l
    refine ⟨?_, ?_, ls, he, hlen.trans (List.length_modify ..)⟩
    all_goals
      rw [retrainLink_link _ _ (by rwa [State.updLink_length]), if_pos rfl, hu, TLink.retrained]
      split <;> rfl

/-- A link with the acknowledgement that a flit carries. -/
def TLink.acked (k : TLink) (f : Bytes) : TLink :=
  { k with ackSeq := if bit (byteAt f 2) 0 || bit (byteAt f 2) 1 then byteAt f 1 else k.ackSeq, replay := bit (byteAt f 2) 1 }

theorem flitReceive_exec (f : Bytes) : exec (.flitReceive l f) s = .next (if !tetherUp s l then s
    else if !flitOk f then sendNak s l
    else if bit (byteAt f 2) 4 then s.updLink l (TLink.acked · f)
    else if byteAt f 0 != ((s.updLink l (TLink.acked · f)).link l).rxSeq then sendNak (s.updLink l (TLink.acked · f)) l
    else takeFlit (s.updLink l (TLink.acked · f)) l f) := rfl

theorem tetherUp_state (h : tetherUp s l = true) :
    l < 8 ∧ ((s.link l).state = .paired ∨ (s.link l).state = .discovery) := by
  simp only [tetherUp, Bool.and_eq_true, decide_eq_true_eq, Bool.or_eq_true, beq_iff_eq] at h
  obtain ⟨⟨-, hl⟩, hs⟩ := h
  exact ⟨hl, hs⟩

/-- A link that has taken a data flit: the next SEQ, and its channel's message as it now stands. -/
def TLink.took (k : TLink) (vc : Nat) (b : Bytes) (eom : Bool) : TLink :=
  { k with
    rxSeq := (k.rxSeq + 1) % 256, nakRow := 0, nak := false, badLength := k.badLength && !eom,
    parts := (if eom then [] else [{ vc := vc, bytes := b }]) ++ k.parts.filter (·.vc != vc) }

/-- The length of a message that has begun on channel 0 with a flit does not agree. -/
def flitMisfits (f : Bytes) (eom : Bool) : Prop :=
  (16 ≤ byteAt f 3 ∧ (32 + leAt f 8 4 < byteAt f 3 ∨ eom = true ∧ byteAt f 3 < 32 + leAt f 8 4))
    ∨ byteAt f 3 < 16 ∧ eom = true ∨ 16 ≤ byteAt f 3 ∧ 131072 < leAt f 8 4

theorem flitOk_length {f : Bytes} (h : flitOk f = true) : f.length = 256 ∧ byteAt f 3 ≤ 248 := by
  simp only [flitOk, Bool.and_eq_true, decide_eq_true_eq, beq_iff_eq] at h
  obtain ⟨⟨⟨⟨hl, -⟩, h3⟩, -⟩, -⟩ := h
  exact ⟨hl, h3⟩

theorem leAt_sub (f : Bytes) {n : Nat} (h : 8 ≤ n) : leAt (sub f 4 n) 4 4 = leAt f 8 4 := by
  unfold leAt sub
  rw [List.drop_take, List.take_take, List.drop_drop, Nat.min_eq_left (by omega)]

theorem byteAt_lt (b : Bytes) (o : Nat) : byteAt b o < 256 := BitVec.isLt _

/-- A flit that begins a message on channel 0 in sequence: taken, or its length does not agree. -/
theorem takeFlit_starts {f : Bytes} (eom : Bool) (hok : flitOk f = true) (hf : byteAt f 2 = if eom then 12 else 4)  :
    (flitMisfits f eom → takeFlit s l f = badLengthFlit s l 0)
    ∧ (¬ flitMisfits f eom → takeFlit s l f = (let u := s.updLink l (TLink.took · 0 (sub f 4 (byteAt f 3)) eom)
        if eom then { u with tether.inbox := s.tether.inbox ++ [(l, sub f 4 (byteAt f 3))] } else u)) := by
  obtain ⟨hlen, h3⟩ := flitOk_length hok
  have hvc : bits (byteAt f 2) 5 5 = 0 ∧ bit (byteAt f 2) 2 = true ∧ bit (byteAt f 2) 3 = eom := by
    rw [hf]
    cases eom <;> decide
  obtain ⟨hvc, hsom, heom⟩ := hvc
  have hb : (sub f 4 (byteAt f 3)).length = byteAt f 3 := by
    rw [sub, List.length_take, List.length_drop, hlen]
    omega
  have hmis : ((16 ≤ (sub f 4 (byteAt f 3)).length ∧ (16 + leAt (sub f 4 (byteAt f 3)) 4 4 + 16 < (sub f 4 (byteAt f 3)).length
      ∨ (eom = true ∧ (sub f 4 (byteAt f 3)).length < 16 + leAt (sub f 4 (byteAt f 3)) 4 4 + 16)))
      ∨ ((sub f 4 (byteAt f 3)).length < 16 ∧ eom = true)
      ∨ (16 ≤ (sub f 4 (byteAt f 3)).length ∧ 131072 < leAt (sub f 4 (byteAt f 3)) 4 4)
      ∨ (True ∧ 1024 < (sub f 4 (byteAt f 3)).length)) ↔ flitMisfits f eom := by
    unfold flitMisfits
    rw [hb]
    by_cases h16 : 16 ≤ byteAt f 3
    · rw [leAt_sub f (by omega)]
      cases eom <;> simp only [Bool.false_eq_true, false_and, and_false, or_false, false_or, true_and, and_true] <;> omega
    · cases eom <;> simp only [Bool.false_eq_true, false_and, and_false, or_false, false_or, true_and, and_true] <;> omega
  unfold takeFlit
  simp only [hvc, heom, hsom, if_true, List.nil_append]
  refine ⟨fun h => if_pos (hmis.2 h), fun h => ?_⟩
  rw [if_neg (mt hmis.1 h)]
  rfl

/-- A length mismatch of a link that had none is counted and answered with NAK. -/
theorem badLengthFlit_counts (vc : Nat) (h : l < s.tether.links.length) (hb : (s.link l).badLength = false) :
    (badLengthFlit s l vc).tether.lengthErr = satInc 65535 s.tether.lengthErr
      ∧ (badLengthFlit s l vc).tether.inbox = s.tether.inbox
      ∧ ((badLengthFlit s l vc).link l).naks = satInc 255 (s.link l).naks := by
  unfold badLengthFlit
  extract_lets k _ u _ _ v
  have hk : ¬ (k.badLength && decide (k.nakRow = 0)) = true := by
    have hk : k.badLength = false := hb
    simp [hk]
  rw [if_neg hk]
  obtain ⟨hn, -, ls, he, hlen⟩ := sendNak_link u h
  have hv : v = { u with tether.links := ls } := he
  have hvn : (v.link l).naks = satInc 255 (s.link l).naks := hn
  clear_value v
  have hvl : l < v.tether.links.length := by
    rw [hv]
    exact hlen.symm ▸ h
  split
  · refine ⟨?_, ?_, ?_⟩
    · rw [hv]; rfl
    · rw [hv]; rfl
    · rw [State.link_updLink hvl]
      exact hvn
  · refine ⟨?_, ?_, hvn⟩
    · rw [hv]
    · rw [hv]

/-- What a flit that is not whole does: a NAK, with which the eighth in a row retrains the link. -/
theorem flit_broken {f : Bytes} (hu : tetherUp s l = true) (hlen : s.tether.links.length = 8) (hf : flitOk f = false) :
    ((s.link l).nakRow < 7 → exec (.flitReceive l f) s = .next (s.updLink l TLink.nakked))
    ∧ ((s.link l).nakRow = 7 → ∃ t, exec (.flitReceive l f) s = .next t ∧ (t.link l).state = .training
      ∧ (t.link l).naks = satInc 255 (s.link l).naks ∧ (t.link l).retrains = satInc 255 (s.link l).retrains
      ∧ t.tether.inbox = s.tether.inbox) := by
  obtain ⟨hl, hst⟩ := tetherUp_state hu
  have hex : exec (.flitReceive l f) s = .next (sendNak s l) := by
    rw [flitReceive_exec, hu, hf]
    rfl
  refine ⟨fun h => hex.trans (congrArg Host.Outcome.next (sendNak_few h)), fun h => ⟨_, hex, ?_⟩⟩
  rw [sendNak_many (Nat.le_of_eq h.symm)]
  have hlk : (s.updLink l TLink.nakked).link l = (s.link l).nakked := State.link_updLink (hlen ▸ hl) _
  obtain ⟨ls, he, -⟩ := retrainLink_eq (s.updLink l TLink.nakked) l
  rw [retrainLink_link _ _ (by rw [State.updLink_length]; exact hlen ▸ hl), if_pos rfl, hlk]
  have hr : ¬ ((s.link l).nakked.state = .down ∨ (s.link l).nakked.state = .training) := by
    show ¬ ((s.link l).state = .down ∨ (s.link l).state = .training)
    rcases hst with h | h <;> rw [h] <;> nofun
  rw [TLink.retrained, if_neg hr]
  refine ⟨rfl, rfl, rfl, ?_⟩
  rw [he]
  rfl

/-- A whole flit that carries nothing, or comes out of sequence. -/
theorem flit_skipped {f : Bytes} (hu : tetherUp s l = true) (hlen : s.tether.links.length = 8) (hf : flitOk f = true) :
    (bit (byteAt f 2) 4 = true → ∃ t, exec (.flitReceive l f) s = .next t ∧ (t.link l).rxSeq = (s.link l).rxSeq
      ∧ (t.link l).parts = (s.link l).parts ∧ t.tether.inbox = s.tether.inbox)
    ∧ (bit (byteAt f 2) 4 = false → byteAt f 0 ≠ (s.link l).rxSeq → ∃ t, exec (.flitReceive l f) s = .next t
      ∧ (t.link l).rxSeq = (s.link l).rxSeq ∧ (t.link l).naks = satInc 255 (s.link l).naks
      ∧ t.tether.inbox = s.tether.inbox) := by
  obtain ⟨hl, -⟩ := tetherUp_state hu
  have hlk : (s.updLink l (TLink.acked · f)).link l = (s.link l).acked f := State.link_updLink (hlen ▸ hl) _
  have hex := flitReceive_exec (s := s) (l := l) f
  rw [hu, hf] at hex
  refine ⟨fun h => ?_, fun h hne => ?_⟩
  · simp only [h, Bool.not_true, Bool.false_eq_true, if_false, if_true] at hex
    refine ⟨_, hex, ?_⟩
    rw [hlk]
    exact ⟨rfl, rfl, rfl⟩
  · have hsq : (byteAt f 0 != ((s.updLink l (TLink.acked · f)).link l).rxSeq) = true := by
      rw [hlk]
      exact bne_iff_ne.2 hne
    simp only [h, hsq, Bool.not_true, Bool.false_eq_true, if_false, if_true] at hex
    obtain ⟨hn, hrx, ls, he, -⟩ := sendNak_link (s.updLink l (TLink.acked · f)) (l := l)
        (by rw [State.updLink_length]; exact hlen ▸ hl)
    refine ⟨_, hex, ?_, ?_, ?_⟩
    · rw [hrx, hlk]
      rfl
    · rw [hn, hlk]
      rfl
    · rw [he]
      rfl

/-- A whole flit in sequence that begins a message on channel 0. -/
theorem flit_begins {f : Bytes} (eom : Bool) (hu : tetherUp s l = true) (hf : flitOk f = true)
    (h2 : byteAt f 2 = if eom then 12 else 4) (hsq : byteAt f 0 = (s.link l).rxSeq) (hlen : s.tether.links.length = 8) :
    exec (.flitReceive l f) s = .next (takeFlit (s.updLink l (TLink.acked · f)) l f) := by
  obtain ⟨hl, -⟩ := tetherUp_state hu
  have hlk : (s.updLink l (TLink.acked · f)).link l = (s.link l).acked f := State.link_updLink (hlen ▸ hl) _
  have h4 : bit (byteAt f 2) 4 = false := by
    rw [h2]
    cases eom <;> decide
  have hs : (byteAt f 0 != ((s.updLink l (TLink.acked · f)).link l).rxSeq) = false := by
    rw [hlk]
    exact bne_eq_false_iff_eq.2 hsq
  have hex := flitReceive_exec (s := s) (l := l) f
  rw [hu, hf] at hex
  simpa only [h4, hs, Bool.not_true, Bool.false_eq_true, if_false] using hex

end

/-! ### Heartbeats and losses (R458, R459, R466) -/

/-- What sending a message keeps of the members: who stands, and who is being lost. -/
def MembersStand (s t : State) : Prop := t.tether.losing = s.tether.losing
  ∧ ∀ id y, s.memberOf id = some y → ∃ z, t.memberOf id = some z ∧ z.lost = y.lost ∧ z.joined = y.joined

theorem MembersStand.refl (s : State) : MembersStand s s := ⟨rfl, fun _ y h => ⟨y, h, rfl, rfl⟩⟩

theorem MembersStand.trans {s t u : State} (h : MembersStand s t) (k : MembersStand t u) : MembersStand s u := by
  obtain ⟨h1, h2⟩ := h
  obtain ⟨k1, k2⟩ := k
  refine ⟨k1.trans h1, fun id y hy => ?_⟩
  obtain ⟨z, hz, hl, hj⟩ := h2 id y hy
  obtain ⟨w, hw, kl, kj⟩ := k2 id z hz
  exact ⟨w, hw, kl.trans hl, kj.trans hj⟩

/-- A change of some members that leaves their numbers finds them again. -/
theorem find_updWhere_num (l : List Member) (p : Member → Bool) (f : Member → Member) (hf : ∀ m, (f m).num = m.num) (n : Nat) :
    (updWhere p f l).find? (·.num == n) = (l.find? (·.num == n)).map fun m => if p m then f m else m :=
  find?_updWhere _ _ _ _ fun m => by rw [hf]

theorem memberOf_updMembers {s t : State} {p : Member → Bool} {f : Member → Member} (hf : ∀ m, (f m).num = m.num)
    (hc : t.tether.canopy = s.tether.canopy) (hm : t.tether.members = updWhere p f s.tether.members) {id : Nat} {y : Member}
    (h : s.memberOf id = some y) : t.memberOf id = some (if p y then f y else y) := by
  unfold State.memberOf at h ⊢
  split at h
  next hid =>
    rw [hc, if_pos hid, hm, find_updWhere_num _ _ _ hf, h]
    rfl
  · cases h

theorem sendMsg_stand (s : State) (d k : Nat) (b : Bytes) : MembersStand s (sendMsg s d k b) := by
  refine ⟨rfl, fun id y h => ⟨_, memberOf_updMembers (s := s) (t := sendMsg s d k b)
      (p := fun m => s.tether.canopy * 16 + m.num == hopTo s d)
    (f := fun m => { m with ctrOut := m.ctrOut + 1 }) (fun _ => rfl) rfl rfl h, ?_⟩⟩
  split
  · exact ⟨rfl, rfl⟩
  · exact ⟨rfl, rfl⟩

theorem sendMsgs_stand {α : Type} (d : α → Nat) (k : Nat) (b : State → α → Bytes) (l : List α) (s : State) :
    MembersStand s (l.foldl (fun s x => sendMsg s (d x) k (b s x)) s) := by
  induction l generalizing s with
  | nil => exact .refl s
  | cons x l ih => exact (sendMsg_stand ..).trans (ih _)

section
variable {s : State} {d : Nat} {x : Member}

theorem memberOf_num (h : s.memberOf (s.idOf d) = some x) : x.num = d := by
  unfold State.memberOf State.idOf at h
  split at h
  next hid =>
    have hn : x.num = (s.tether.canopy * 16 + d) % 16 := by simpa using List.find?_some h
    omega
  · cases h

/-- A member that is lost to the manager is marked, and its loss is learned at the next boundary. -/
theorem markLost_marks (h : s.memberOf (s.idOf d) = some x) (hd : d ≠ s.tether.member) (hj : s.tether.joined = true)
    (hl : x.lost = false) (hm : s.tether.manager = s.tether.member) (link : Nat) :
    ∃ y, (markLost s (s.idOf d) link).memberOf (s.idOf d) = some y ∧ y.lost = true ∧ y.joined = false
      ∧ s.idOf d ∈ (markLost s (s.idOf d) link).tether.losing := by
  have hnum := memberOf_num h
  have hne : ¬ x.num = s.tether.manager := by
    rw [hnum, hm]
    exact hd
  have hrec : (tetherRecord s 0x0502 (s.idOf d) link).tether = s.tether := by
    obtain ⟨r, ret, dr, he⟩ := emit_eq (takeFreeNat s).2 0x0502 (s.idOf d) link ((takeFreeNat s).1 % 2 ^ 32)
    exact congrArg (·.tether) he
  have hc : ¬ (x.lost || x.num == s.tether.member || !s.tether.joined) = true := by
    have hx : ¬ x.num = s.tether.member := by rwa [hnum]
    simp [hl, hx, hj]
  have hu : markLost s (s.idOf d) link = { (tetherRecord s 0x0502 (s.idOf d) link).updMember x.num
      (fun m => { m with lost := true, joined := false, free := 0 }) with
        tether.losing := (tetherRecord s 0x0502 (s.idOf d) link).tether.losing ++ [s.idOf d] } := by
    unfold markLost
    rw [h]
    refine (if_neg hc).trans ((if_neg ?_).trans rfl)
    show ¬ x.num = (tetherRecord s 0x0502 (s.idOf d) link).tether.manager
    rwa [hrec]
  rw [hu]
  refine ⟨_, memberOf_updMembers (p := (·.num == x.num)) (f := fun m => { m with lost := true, joined := false, free := 0 })
    (fun _ => rfl) (congrArg (·.canopy) hrec) ?_ h, ?_, ?_, List.mem_append_right _ (List.mem_singleton_self _)⟩
  · show updWhere _ _ (tetherRecord s 0x0502 (s.idOf d) link).tether.members = _
    rw [hrec]
  · rw [if_pos (beq_self_eq_true x.num)]
  · rw [if_pos (beq_self_eq_true x.num)]

/-- The loss of a member is told to the others, which changes no standing. -/
theorem declareLost_marks (h : s.memberOf (s.idOf d) = some x) (hd : d ≠ s.tether.member) (hj : s.tether.joined = true)
    (hl : x.lost = false) (hm : s.tether.manager = s.tether.member) :
    ∃ y, (declareLost s d).memberOf (s.idOf d) = some y ∧ y.lost = true ∧ y.joined = false
      ∧ s.idOf d ∈ (declareLost s d).tether.losing := by
  obtain ⟨y, hy, h1, h2, h3⟩ := markLost_marks h hd hj hl hm 0
  obtain ⟨k1, k2⟩ : MembersStand (markLost s (s.idOf d) 0) (declareLost s d) :=
    sendMsgs_stand (fun x => x) 6 (fun s _ => leBytes 1 5 ++ leBytes 1 (s.idOf d)) _ _
  obtain ⟨z, hz, g1, g2⟩ := k2 _ y hy
  exact ⟨z, hz, g1.trans h1, g2.trans h2, k1 ▸ h3⟩

end

/-- Settles O59: a link changes by its own events alone, and every loss is that of `markLost`. -/
theorem tetherLinksAndTimers : Obligations.TetherLinksAndTimers := by
  unfold Obligations.TetherLinksAndTimers
  refine ⟨fun s l hb hr hl hlen => ?_, fun s hs hj => ?_⟩
  · intro k other split
    have hack : ∀ f, (s.updLink l (TLink.acked · f)).link l = (s.link l).acked f := fun f => State.link_updLink (hlen ▸ hl) _
    have hsp : portSplit s l = true ↔ split := by
      simp only [portSplit, Bool.or_eq_true, beq_iff_eq, or_assoc]
      rfl
    refine ⟨fun w hk hw => ?_, fun w h => tetherLinkTrained_refused ?_, fun lane h => tetherLaneFail_idle h, fun lane ha _ =>
      ⟨fun hw => ?_, fun hw _ => ?_⟩, fun v hd => ?_, fun p v h => congrArg Host.Outcome.next (if_pos ?_), fun h1 h2 h3 =>
      congrArg Host.Outcome.next (if_neg ?_), fun h => congrArg Host.Outcome.next (if_pos ?_), fun f h => ?_, fun f hu =>
      ⟨?_, ?_, ?_, ?_, fun hf h2 hsq h16 hle hmax => ?_, fun hf h2 hsq => ⟨fun h16 he => ?_, fun hbad hbl => ?_⟩⟩⟩
    · obtain ⟨t, hex, ⟨sd, o, r, tr, ht⟩, hwk⟩ := tetherLinkTrained_trains hb hr hl hlen hk
        (hw.imp_right fun h => h.imp_right fun h => ⟨h.1, Bool.eq_false_iff.2 fun h' => h.2 (hsp.1 h')⟩)
      refine ⟨t, hex, ?_⟩
      rw [ht]
      exact ⟨rfl, rfl, hsp, rfl, rfl, hwk⟩
    · rcases h with h | h | h | ⟨h1, h2⟩
      · have h' : (s.link l).state = .paired := h
        exact .inl (by simp [h'])
      · have h' : (s.link l).state = .discovery := h
        exact .inl (by simp [h'])
      · exact .inr (.inl h)
      · exact .inr (.inr ⟨h1, hsp.2 h2⟩)
    · have hw' : 1 < (s.link l).width := hw
      obtain ⟨t, hex, ht⟩ := tetherLaneFail_fails hb hr hl hlen ha (Nat.ne_of_gt (Nat.lt_of_lt_of_le Nat.zero_lt_one hw'.le))
      rw [if_neg (Nat.ne_of_gt hw')] at ht
      refine ⟨t, hex, ?_⟩
      rw [ht]
      exact ⟨rfl, rfl, rfl⟩
    · have hw' : (s.link l).width = 1 := hw
      obtain ⟨t, hex, ht⟩ := tetherLaneFail_fails hb hr hl hlen ha (by rw [hw']; nofun)
      rw [if_pos hw'] at ht
      refine ⟨t, hex, ?_⟩
      rw [ht]
      exact ⟨rfl, rfl⟩
    · obtain ⟨t, hex, hwk, ht⟩ := tetherRetrain_exec (v := v) hb hr hl hlen hd
      refine ⟨t, hex, hwk, fun hv h1 h2 => ?_, fun h => ?_⟩
      · rw [if_pos hv, TLink.retrained, if_neg (not_or.2 ⟨h1, h2⟩)] at ht
        rw [ht]
        exact ⟨rfl, by simp [k], rfl⟩
      · rcases h with h | h
        · rw [if_neg (by rw [h]; nofun)] at ht
          exact ht
        · rw [ht, TLink.retrained, if_pos h, ite_self]
    · rcases h with h | h <;> simp [h]
    · have h3' : ¬ now s < (s.link l).tried + 1048576 := Nat.not_lt.2 h3
      simp [h1, h2, h3', Nat.not_le.2 hl]
    · rcases h with h | h
      · have h' : now s < (s.link l).tried + 1048576 := h
        simp [h']
      · simp [h]
    · rw [flitReceive_exec, h]
      rfl
    · exact fun hf => (flit_broken hu hlen hf).1
    · exact fun hf => (flit_broken hu hlen hf).2
    · exact fun hf => (flit_skipped hu hlen hf).1
    · exact fun hf => (flit_skipped hu hlen hf).2
    · have hex := flit_begins false hu hf h2 hsq hlen
      have hfit : ¬ flitMisfits f false := by
        rintro (⟨-, h | ⟨h, -⟩⟩ | ⟨-, h⟩ | ⟨-, h⟩)
        · omega
        · cases h
        · cases h
        · omega
      rw [(takeFlit_starts false hf h2).2 hfit] at hex
      refine ⟨_, hex, ?_⟩
      rw [if_neg nofun, State.link_updLink (by rw [State.updLink_length]; exact hlen ▸ hl), hack]
      exact ⟨rfl, List.mem_cons_self .., rfl⟩
    · have hex := flit_begins true hu hf h2 hsq hlen
      have hfit : ¬ flitMisfits f true := by
        rintro (⟨-, h | ⟨-, h⟩⟩ | ⟨h, -⟩ | ⟨-, h⟩)
        · omega
        · omega
        · omega
        · have := flitOk_length hf
          omega
      rw [(takeFlit_starts true hf h2).2 hfit] at hex
      refine ⟨_, hex, ?_, rfl⟩
      refine (congrArg TLink.rxSeq (State.link_updLink (by rw [State.updLink_length]; exact hlen ▸ hl) _)).trans ?_
      rw [hack]
      rfl
    · have hex := flit_begins true hu hf h2 hsq hlen
      have hmis : flitMisfits f true := by
        rcases hbad with h | h
        · exact .inr (.inl ⟨h, rfl⟩)
        · by_cases h16 : 16 ≤ byteAt f 3
          · rcases Nat.lt_or_gt_of_ne h with h | h
            · exact .inl ⟨h16, .inr ⟨rfl, by omega⟩⟩
            · exact .inl ⟨h16, .inl (by omega)⟩
          · exact .inr (.inl ⟨Nat.not_le.1 h16, rfl⟩)
      rw [(takeFlit_starts true hf h2).1 hmis] at hex
      obtain ⟨h1, h2, h3⟩ := badLengthFlit_counts (s := s.updLink l (TLink.acked · f)) 0
        (by rw [State.updLink_length]; exact hlen ▸ hl) (by rw [hack]; exact hbl)
      refine ⟨_, hex, h1, h2, h3.trans ?_⟩
      rw [hack]
      rfl
  · have hsv : s.service = true := hs
    have hj' : s.joined = true := hj
    refine ⟨fun h => congrArg Host.Outcome.next (if_pos ?_), fun h => ?_, fun h => congrArg Host.Outcome.next (if_pos ?_),
      fun h ha => congrArg Host.Outcome.next (if_neg ?_), fun d h => congrArg Host.Outcome.next ?_, fun d x hx hxj hd =>
      ⟨fun h => congrArg Host.Outcome.next ?_, fun ha hm ht hl => ?_⟩, fun h => congrArg Host.Outcome.next (if_neg ?_),
          fun h1 h2 h3 =>
      congrArg Host.Outcome.next (if_neg ?_), fun h ht => congrArg Host.Outcome.next (if_pos ?_)⟩
    · simp [h]
    · refine ⟨leBytes 1 3 ++ leBytes 4 (healthSummary s.faults.safe (s.faults.history.headD default).map)
        ++ leBytes 2 ((List.range 16).map (freeSlots s)).sum, ?_, rfl, fun ha => ?_, fun ha => ?_⟩
      · simp only [List.length_append, leBytes_length]
      · refine congrArg Host.Outcome.next ((if_neg (by simp [hsv, hj', h])).trans ?_)
        rw [if_neg ha]
        rfl
      · refine congrArg Host.Outcome.next ((if_neg (by simp [hsv, hj', h])).trans ?_)
        rw [if_pos ha]
    · rcases h with h | h <;> simp [h]
    · simp [hsv, hj', h, ha]
    · rcases h with h | h | h
      · rw [h]
      · split
        · exact if_neg (by simp [h])
        · rfl
      · split
        · exact if_neg (by simp [h])
        · rfl
    · have h' : ¬ x.beat + 64 ≤ now s := Nat.not_le.2 h
      rw [hx]
      exact if_neg (by simp [h'])
    · have ht' : x.beat + 64 ≤ now s := ht
      obtain ⟨y, h1, h2, h3, h4⟩ := declareLost_marks hx hd hj hl hm
      refine ⟨_, y, congrArg Host.Outcome.next ?_, h1, h2, h3, h4⟩
      rw [hx]
      exact if_pos (by simp [hsv, hj', ha, hxj, hd, ht'])
    · rcases h with h | h
      · have h' : ¬ s.tether.managerBeat + (if s.tether.active = 3 then 48 else 64) ≤ now s := by
          have h' : now s < s.tether.managerBeat + 48 := h
          split <;> omega
        simp [h']
      · simp [h]
    · have h' : ¬ s.tether.managerBeat + (if s.tether.active = 3 then 48 else 64) ≤ now s := by
        rw [if_neg h2]
        exact Nat.not_le.2 h3
      simp [h']
    · have ha : s.tether.active ≠ 1 := by
        rcases h with h | ⟨h, -⟩
        · rw [h]; nofun
        · exact h
      have h' : s.tether.managerBeat + (if s.tether.active = 3 then 48 else 64) ≤ now s := by
        have ht' : s.tether.managerBeat + 48 ≤ now s := ht
        split
        · exact ht'
        next hn => exact (h.resolve_left hn).2
      simp [hsv, hj', ha, h']

end Sys2Proof.Machine
end

section
/-! Host ports -/

namespace Sys2Proof.Machine
open Sys2Proof.Claims

/-! ### What a reset of an instance leaves (R119) -/

/-- What dropping the work of an instance leaves alone: ports, bus mastering, host memory and queues; and no job comes to be. -/
def DropKeeps (s t : State) : Prop := t.ports = s.ports ∧ t.busMaster = s.busMaster ∧ t.hostMem = s.hostMem
  ∧ t.work.sqs = s.work.sqs ∧ t.work.cqs = s.work.cqs ∧ ∀ j ∈ t.work.jobs, j ∈ s.work.jobs

theorem DropKeeps.refl (s : State) : DropKeeps s s := ⟨rfl, rfl, rfl, rfl, rfl, fun _ h => h⟩

theorem DropKeeps.trans {s t u : State} (h : DropKeeps s t) (k : DropKeeps t u) : DropKeeps s u := by
  obtain ⟨h1, h2, h3, h4, h5, h6⟩ := h
  obtain ⟨k1, k2, k3, k4, k5, k6⟩ := k
  exact ⟨k1.trans h1, k2.trans h2, k3.trans h3, k4.trans h4, k5.trans h5, fun j hj => h6 j (k6 j hj)⟩

theorem DropKeeps.foldl {α : Type} {f : State → α → State} (hf : ∀ s a, DropKeeps s (f s a)) (l : List α) (s : State) :
    DropKeeps s (l.foldl f s) := by
  induction l generalizing s with
  | nil => exact .refl s
  | cons a l ih => exact (hf s a).trans (ih _)

theorem dropKey_dropKeeps (s : State) (k : Nat) : DropKeeps s (dropKey s k) := by
  unfold dropKey
  split
  · exact .refl s
  · exact .refl s

theorem dropStream_dropKeeps (s : State) (k : Nat) : DropKeeps s (dropStream s k) := by
  unfold dropStream
  split
  · exact .refl s
  · exact .refl s

theorem finishCmd_dropKeeps (s : State) (ref : Nat) (r : Reply) : DropKeeps s (finishCmd s ref r) := .refl s

theorem discardJob_dropKeeps (s : State) (j : Job) : DropKeeps s (discardJob s j) := by
  have hz : DropKeeps s (zeroiseEnvelope s j (now s)) := by
    unfold zeroiseEnvelope
    split
    · exact .refl s
    · exact .refl s
  have hc : DropKeeps (zeroiseEnvelope s j (now s)) (cancelSend (zeroiseEnvelope s j (now s)) j 1) := by
    unfold cancelSend
    split
    · split
      · exact .refl _
      · exact .refl _
    · exact .refl _
  obtain ⟨h1, h2, h3, h4, h5, h6⟩ := hz.trans hc
  exact ⟨h1, h2, h3, h4, h5, fun x hx => h6 x (List.mem_of_mem_filter hx)⟩

/-- A discarded job is gone. -/
theorem discardJob_gone (s : State) (j : Job) : ∀ x ∈ (discardJob s j).work.jobs, x.id ≠ j.id := by
  intro x hx
  simpa using (List.mem_filter.1 hx).2

theorem discardJobs_gone (l : List Job) (s : State) : ∀ x ∈ (l.foldl discardJob s).work.jobs, ∀ j ∈ l, x.id ≠ j.id := by
  induction l generalizing s with
  | nil => exact fun _ _ _ h => nomatch h
  | cons a l ih =>
    intro x hx j hj
    rcases List.mem_cons.1 hj with rfl | hj
    · obtain ⟨-, -, -, -, -, h⟩ := DropKeeps.foldl discardJob_dropKeeps l (discardJob s j)
      exact discardJob_gone s j x (h x hx)
    · exact ih _ x hx j hj

/-- What the reset of an instance takes and what it leaves. -/
def ResetTakes (s t : State) (i : Nat) : Prop := t.ports = s.ports ∧ t.busMaster = s.busMaster ∧ t.hostMem = s.hostMem
  ∧ t.work.sqs = s.work.sqs.filter (·.inst != i) ∧ t.work.cqs = s.work.cqs.filter (·.inst != i)
  ∧ ∀ j ∈ t.work.jobs, j ∈ s.work.jobs

theorem ResetTakes.before {s t u : State} {i : Nat} (h : DropKeeps s t) (k : ResetTakes t u i) : ResetTakes s u i := by
  obtain ⟨h1, h2, h3, h4, h5, h6⟩ := h
  obtain ⟨k1, k2, k3, k4, k5, k6⟩ := k
  exact ⟨k1.trans h1, k2.trans h2, k3.trans h3, h4 ▸ k4, h5 ▸ k5, fun j hj => h6 j (k6 j hj)⟩

theorem ResetTakes.after {s t u : State} {i : Nat} (h : ResetTakes s t i) (k : DropKeeps t u) : ResetTakes s u i := by
  obtain ⟨h1, h2, h3, h4, h5, h6⟩ := h
  obtain ⟨k1, k2, k3, k4, k5, k6⟩ := k
  exact ⟨k1.trans h1, k2.trans h2, k3.trans h3, k4.trans h4, k5.trans h5, fun j hj => h6 j (k6 j hj)⟩

theorem finishDeletes_dropKeeps (s : State) (i : Nat) : DropKeeps s (finishDeletes s i) := by
  obtain ⟨cs, h⟩ := finishDeletes_eq s i
  rw [h]
  exact .refl s

/-- A reset takes the queues of its instance, and no other. -/
theorem clearInst_takes (s : State) (i : Nat) : ResetTakes s (clearInst s i) i := by
  have h1 : DropKeeps s (finishDeletes { s with work.unposted := s.work.unposted.filter (·.inst != i) } i) :=
    DropKeeps.trans (t := { s with work.unposted := s.work.unposted.filter (·.inst != i) }) (.refl s)
      (finishDeletes_dropKeeps _ i)
  have hv := h1.trans (.foldl (fun s (x : Stream) => dropStream_dropKeeps s x.index)
    ((finishDeletes { s with work.unposted := s.work.unposted.filter (·.inst != i) } i).store.streams.filter (·.owner == i)) _)
  exact .before hv ⟨rfl, rfl, rfl, rfl, rfl, fun _ h => h⟩

/-- The work of an instance goes with its queues. -/
theorem dropWork_takes (s : State) (i : Nat) :
    ResetTakes s (dropWork s i) i ∧ ∀ j ∈ (dropWork s i).work.jobs, ¬ (j.inst = i ∧ j.origin = none) := by
  unfold dropWork
  extract_lets ended u v _ w
  have hu : DropKeeps s u := .foldl discardJob_dropKeeps _ s
  have hg : ∀ x ∈ u.work.jobs, ¬ (x.inst = i ∧ x.origin = none) := by
    intro x hx ⟨hi, ho⟩
    obtain ⟨-, -, -, -, -, h⟩ := hu
    exact discardJobs_gone _ s x hx x (List.mem_filter.2 ⟨h x hx, by simp [hi, ho]⟩) rfl
  have hv : DropKeeps u v := by
    obtain ⟨cs, he⟩ := finishCmds_eq (u.adm.cmds.filter fun c => c.wait == .quiesce i) ⟨0x0501, 0, ended, .done⟩ u
    have he' : v = _ := he
    rw [he']
    exact .refl u
  have hw : ResetTakes u (reapKeys (clearInst w i)) i :=
    (ResetTakes.before hv (.before (t := w) (.refl v) (clearInst_takes w i))).after
      (.foldl (fun s (k : KeyObj) => dropKey_dropKeeps s k.index) _ _)
  refine ⟨.before hu hw, fun j hj => ?_⟩
  obtain ⟨-, -, -, -, -, h⟩ := hw
  exact hg j (h j hj)

theorem emit_dropKeeps (s : State) (c a b d : Nat) : DropKeeps s (emit s c a b d) := by
  obtain ⟨r, ret, dr, he⟩ := emit_eq s c a b d
  rw [he]
  exact .refl s

theorem flrAction_takes (s : State) {i : Nat} (h : instState s i ≠ .absent) :
    ResetTakes s (flrAction s i) i ∧ ∀ j ∈ (flrAction s i).work.jobs, ¬ (j.inst = i ∧ j.origin = none) := by
  have he : flrAction s i = emit (dropWork s i) 0x0107 i 0 0 := if_neg (by simpa using h)
  have hk := emit_dropKeeps (dropWork s i) 0x0107 i 0 0
  obtain ⟨ht, hg⟩ := dropWork_takes s i
  rw [he]
  refine ⟨ht.after hk, fun j hj => ?_⟩
  obtain ⟨-, -, -, -, -, h⟩ := hk
  exact hg j (h j hj)

/-- Resets of a port's instances leave the queues of every other port. -/
def OthersStand (p : Nat) (s t : State) : Prop := t.ports = s.ports ∧ t.hostMem = s.hostMem
  ∧ ∀ x ∈ s.work.sqs, portOf x.inst ≠ p → x ∈ t.work.sqs

theorem flrAction_othersStand {p i : Nat} (hi : portOf i = p) (s : State) : OthersStand p s (flrAction s i) := by
  by_cases h : instState s i = .absent
  · have he : flrAction s i = s := if_pos (by simpa using h)
    rw [he]
    exact ⟨rfl, rfl, fun _ h _ => h⟩
  · obtain ⟨⟨hp, -, hm, hs, -⟩, -⟩ := flrAction_takes s h
    refine ⟨hp, hm, fun x hx hne => hs ▸ List.mem_filter.2 ⟨hx, ?_⟩⟩
    simp only [bne_iff_ne]
    rintro rfl
    exact hne hi

theorem flrActions_othersStand {p : Nat} (l : List Nat) (hl : ∀ i ∈ l, portOf i = p) (s : State) :
    OthersStand p s (l.foldl flrAction s) := by
  induction l generalizing s with
  | nil => exact ⟨rfl, rfl, fun _ h _ => h⟩
  | cons i l ih =>
    obtain ⟨h1, h2, h3⟩ := flrAction_othersStand (hl i (List.mem_cons_self ..)) s
    obtain ⟨k1, k2, k3⟩ := ih (fun j hj => hl j (List.mem_cons_of_mem _ hj)) (flrAction s i)
    exact ⟨k1.trans h1, k2.trans h2, fun x hx hp => k3 x (h3 x hx hp) hp⟩

/-! ### Functions (R119, R438, R477, R480, R481) -/

section
variable {s : State} {p n : Nat}

theorem up_of_boot (h : s.pins.boot = 8) : s.up = true := beq_iff_eq.2 h

theorem configRequest_exec (h : s.pins.boot = 8) (hf : fnExists s (p * 256 + n) = true) (hn : n < 256) (a : CfgAccess) :
    exec (.configRequest p n a) s = .next (match a with
      | .read off => { (configRead s (p * 256 + n) off).1 with pins.answer := leBytes 4 (configRead s (p * 256 + n) off).2 }
      | .msix enable mask => s.putMsix { s.msixOf (p * 256 + n) with enable := enable, funcMask := mask }
      | .ari on => if n = 0 then s.updPort p fun x => { x with ari := on } else s) := by
  refine congrArg Host.Outcome.next ((if_neg (by simp [up_of_boot h])).trans ((if_neg ?_).trans rfl))
  simp [hf, Nat.not_le.2 hn]

/-- A configuration register and the free values its reading takes. -/
theorem configRead_facts (s : State) (f off : Nat) :
    (configRead s f off).1 = { s with freeCtr := s.freeCtr + (if off = 0 ∨ off = 0x08 ∨ off = 0x2C then 0 else 1) }
    ∧ (configRead s f off).2 < 2 ^ 32 ∧ (off = 0x08 → (configRead s f off).2 = 0x10800000 + s.pins.stepping % 256)
    ∧ (off = 0x2C → (configRead s f off).2 = (if s.pins.grade = 0 then 0x000A else 0x000C) * 65536 + 0x1E73) := by
  unfold configRead
  split
  · refine ⟨rfl, ?_, nofun, nofun⟩
    dsimp only
    split <;> omega
  · refine ⟨rfl, ?_, fun _ => rfl, nofun⟩
    dsimp only
    omega
  · refine ⟨rfl, ?_, nofun, fun _ => rfl⟩
    dsimp only
    split <;> omega
  next h0 h8 h2 =>
    rw [if_neg (by rintro (h | h | h) <;> contradiction)]
    exact ⟨rfl, Nat.mod_lt _ (by decide), fun h => absurd h h8, fun h => absurd h h2⟩

/-- A port that is not the default one stands in the list. -/
theorem port_lt {f : Port → Bool} (hf : f default = false) (h : f (s.port p) = true) : p < s.ports.length := by
  by_contra hn
  have hd : s.port p = default := List.getD_eq_default _ _ (Nat.not_lt.1 hn)
  rw [hd, hf] at h
  cases h

theorem resetFn_ports (s : State) (sel : Nat → Bool) : (resetFn s sel).ports.length = s.ports.length := List.length_mapIdx ..

theorem vfEnableClear_exec (h : s.pins.boot = 8) (hv : (s.port p).vfEnable = true) : ∃ t, exec (.vfEnableClear p) s = .next t
    ∧ (t.port p).vfEnable = false ∧ (t.port p).numVfs = 0 ∧ t.hostMem = s.hostMem
    ∧ ∀ x ∈ s.work.sqs, portOf x.inst ≠ p → x ∈ t.work.sqs := by
  have hlt : p < s.ports.length := port_lt (f := (·.vfEnable)) rfl hv
  refine ⟨_, congrArg Host.Outcome.next (if_neg (by simp [up_of_boot h, hv])), ?_⟩
  extract_lets tfs u
  obtain ⟨hp, hm, hs⟩ : OthersStand p s u := flrActions_othersStand tfs (fun i hi => by
    obtain ⟨x, hx, rfl⟩ := List.mem_map.1 hi
    have hx' := (List.mem_filter.1 hx).2
    simp only [Bool.and_eq_true, beq_iff_eq] at hx'
    exact hx'.1) s
  clear_value u
  rw [State.port_updPort _ _ _ (by rwa [resetFn_ports, hp])]
  exact ⟨rfl, rfl, hm, hs⟩

theorem functionLevelReset_exec {i : Nat} (h : s.pins.boot = 8) (hi : i % 256 ≠ 0) (hf : fnExists s i = true)
    (hface : faceInst s i = i) (hst : instState s i ≠ .absent) : ∃ t, exec (.functionLevelReset i) s = .next t
      ∧ t.work.sqs = s.work.sqs.filter (·.inst != i) ∧ t.work.cqs = s.work.cqs.filter (·.inst != i)
      ∧ (∀ j ∈ t.work.jobs, ¬(j.inst = i ∧ j.origin = none)) ∧ (∀ j ∈ t.work.jobs, ∃ k ∈ s.work.jobs, k.id = j.id)
      ∧ t.hostMem = s.hostMem ∧ i ∉ t.busMaster := by
  obtain ⟨⟨-, -, hm, hs, hc, hj⟩, hg⟩ := flrAction_takes s hst
  refine ⟨resetFn (flrAction s i) (· == i), congrArg Host.Outcome.next ((if_neg (by simp [up_of_boot h, hi, hf])).trans ?_),
    hs, hc, hg, fun j hj' => ⟨j, hj j hj', rfl⟩, hm, fun hb => ?_⟩
  · rw [hface]
  · simpa using (List.mem_filter.1 hb).2

theorem asleep_updPort (hlen : s.ports.length = 4) {f : Nat} (hf : f < 1024) (d : List Nat → List Nat) (g : Nat) :
    asleep (s.updPort (portOf f) fun x => { x with d3 := d x.d3 }) g
      = if portOf g = portOf f then (d (s.port (portOf f)).d3).contains (g % 256) else asleep s g := by
  have hlt : portOf f < s.ports.length := by
    rw [hlen]
    unfold portOf
    omega
  unfold asleep
  split
  next h => rw [h, State.port_updPort _ _ _ hlt]
  next h => rw [State.port_updPort_ne _ _ _ _ h]

theorem busMasterDisable_sleeps {f : Nat} (hf : f < 1024) (hlen : s.ports.length = 4) :
    ∃ t, exec (.busMasterDisable (f, true)) s = .next t ∧ f ∉ t.busMaster ∧ asleep t f = true ∧ t.work = s.work
      ∧ ∀ g, g ≠ f → g < 1024 → asleep t g = asleep s g := by
  have hb : f ∉ s.busMaster.filter (· != f) := fun h => by simpa using (List.mem_filter.1 h).2
  by_cases ha : asleep s f = true
  · exact ⟨{ s with busMaster := s.busMaster.filter (· != f) }, congrArg Host.Outcome.next (if_neg (by
      have ha' : asleep { s with busMaster := s.busMaster.filter (· != f) } f = true := ha
      simp [ha'])), hb, ha, rfl, fun _ _ _ => rfl⟩
  · have hex : exec (.busMasterDisable (f, true)) s = .next (({ s with busMaster := s.busMaster.filter (· != f) } : State).updPort
        (portOf f) fun x => { x with d3 := x.d3 ++ [f % 256] }) := congrArg Host.Outcome.next (if_pos (by
      have ha' : asleep { s with busMaster := s.busMaster.filter (· != f) } f = false := Bool.eq_false_iff.2 ha
      simp [ha']))
    refine ⟨_, hex, hb, ?_, rfl, fun g hg hg' => ?_⟩
    · rw [asleep_updPort (s := { s with busMaster := s.busMaster.filter (· != f) }) hlen hf (· ++ [f % 256]), if_pos rfl]
      simp
    · rw [asleep_updPort (s := { s with busMaster := s.busMaster.filter (· != f) }) hlen hf (· ++ [f % 256])]
      split
      next hp =>
        have hne : ¬ g % 256 = f % 256 := by
          unfold portOf at hp
          omega
        show ((s.port (portOf f)).d3 ++ [f % 256]).contains (g % 256) = (s.port (portOf g)).d3.contains (g % 256)
        rw [hp]
        simp [hne]
      · rfl

theorem busMasterEnable_wakes {f : Nat} (h : s.pins.boot = 8) (hf : fnExists s f = true) (hb : f ∉ s.busMaster)
    (hlen : s.ports.length = 4) : ∃ t, exec (.busMasterEnable f) s = .next t ∧ t.busMaster = s.busMaster ++ [f]
      ∧ asleep t f = false ∧ t.work = s.work := by
  have hlt : f < 1024 := by
    simp only [fnExists, Bool.and_eq_true, decide_eq_true_eq] at hf
    exact hf.1.1
  refine ⟨_, congrArg Host.Outcome.next (if_neg (by simp [up_of_boot h, hf, hb])), rfl, ?_, rfl⟩
  rw [asleep_updPort (s := { s with busMaster := s.busMaster ++ [f] }) hlen hlt (·.filter (· != f % 256)), if_pos rfl]
  simp

/-- A function's vectors after they have been put back. -/
theorem msixOf_putMsix (s : State) (m : Msix) (i : Nat) : (s.putMsix m).msixOf i = if i = m.inst then m else s.msixOf i := by
  unfold State.msixOf State.putMsix
  dsimp only
  by_cases h : i = m.inst
  · subst h
    rw [if_pos rfl, List.find?_cons_of_pos (p := fun x : Msix => x.inst == m.inst) (beq_self_eq_true _)]
    rfl
  · rw [if_neg h, List.find?_cons_of_neg (p := fun x : Msix => x.inst == i) (by simpa using Ne.symm h), List.find?_filter]
    refine congrArg (Option.getD · _) (congrArg (fun q => List.find? q s.msix) (funext fun x => ?_))
    by_cases hx : x.inst = i
    · simp [hx, h]
    · simp [hx]

theorem msixOf_inst (s : State) (i : Nat) : (s.msixOf i).inst = i := by
  unfold State.msixOf
  cases h : s.msix.find? (·.inst == i) with
  | none => rfl
  | some m => simpa using List.find?_some h

theorem msix_entry_cons (m : Msix) (v w a d : Nat) :
    ({ m with entries := ⟨v, a, d, false⟩ :: m.entries.filter (·.vec != v) } : Msix).entry w
      = if w = v then ⟨v, a, d, false⟩ else m.entry w := by
  unfold Msix.entry
  dsimp only
  by_cases h : w = v
  · rw [if_pos h, List.find?_cons_of_pos (p := fun x : MsixEntry => x.vec == w) (beq_iff_eq.2 h.symm)]
    rfl
  · rw [if_neg h, List.find?_cons_of_neg (p := fun x : MsixEntry => x.vec == w) (by simpa using Ne.symm h), List.find?_filter]
    refine congrArg (Option.getD · _) (congrArg (fun q => List.find? q m.entries) (funext fun x => ?_))
    by_cases hx : x.vec = w
    · simp [hx, h]
    · simp [hx]

theorem vectorUnmask_exec {i v a d : Nat} (h : s.pins.boot = 8) (hf : fnExists s i = true) (hs : asleep s i = false)
    (hv : v < (if i % 256 = 0 then 2048 else 64)) (ha : a < 2 ^ 64) (hd : d < 2 ^ 32) :
    ∃ t, exec (.vectorUnmask i v a d) s = .next t ∧ (t.msixOf i).entry v = ⟨v, a, d, false⟩
      ∧ (∀ w, w ≠ v → (t.msixOf i).entry w = (s.msixOf i).entry w) ∧ (t.msixOf i).pba = (s.msixOf i).pba
      ∧ ∀ k, k ≠ i → t.msixOf k = s.msixOf k := by
  let m : Msix := { s.msixOf i with entries := ⟨v, a, d, false⟩ :: (s.msixOf i).entries.filter (·.vec != v) }
  have hm : m.inst = i := msixOf_inst s i
  have hex : exec (.vectorUnmask i v a d) s = .next (s.putMsix m) := by
    have ht : m = { s.msixOf i with
        entries := ⟨v, a % 2 ^ 64, d % 2 ^ 32, false⟩ :: (s.msixOf i).entries.filter (·.vec != v) } := by
      rw [Nat.mod_eq_of_lt ha, Nat.mod_eq_of_lt hd]
    rw [ht]
    exact congrArg Host.Outcome.next (if_neg (by simp [up_of_boot h, hf, hs, hv]))
  have hi : (s.putMsix m).msixOf i = m := by rw [msixOf_putMsix, if_pos hm.symm]
  refine ⟨_, hex, ?_, fun w hw => ?_, by rw [hi], fun k hk => ?_⟩
  · rw [hi]
    exact (msix_entry_cons (s.msixOf i) v v a d).trans (if_pos rfl)
  · rw [hi]
    exact (msix_entry_cons (s.msixOf i) v w a d).trans (if_neg hw)
  · rw [msixOf_putMsix, if_neg (by rwa [hm])]

/-- Functions of a device that is up (R119, R438, R480, R481). -/
theorem configForms (s : State) (p n : Nat) :
    (s.pins.boot ≠ 8 → exec (.configRequest p n (.read 0)) s = .next { s with pins.answer := [] })
    ∧ (s.pins.boot = 8 → fnExists s (p * 256 + n) = true → n < 256 →
      exec (.configRequest p n (.read 0)) s = .next { s with
        pins.answer := leBytes 4 ((if n = 0 then 0x8256 else 0x8257) * 65536 + 0x1E73) }
      ∧ (∀ e m, exec (.configRequest p n (.msix e m)) s = .next
        (s.putMsix { s.msixOf (p * 256 + n) with enable := e, funcMask := m })))
    ∧ (s.pins.boot = 8 → fnExists s (p * 256 + n) = true → n < 256 → ∀ off, ∃ v, v < 2 ^ 32
      ∧ exec (.configRequest p n (.read off)) s = .next { s with
          freeCtr := s.freeCtr + (if off = 0 ∨ off = 0x08 ∨ off = 0x2C then 0 else 1), pins.answer := leBytes 4 v }
      ∧ (off = 0x08 → v = 0x10800000 + s.pins.stepping % 256)
      ∧ (off = 0x2C → v = (if s.pins.grade = 0 then 0x000A else 0x000C) * 65536 + 0x1E73))
    ∧ (s.pins.boot = 8 → 256 ≤ n ∨ fnExists s (p * 256 + n) = false → ∀ a, exec (.configRequest p n a) s = .next s)
    ∧ (s.pins.boot = 8 → fnExists s (p * 256) = true → ∀ b,
      exec (.configRequest p 0 (.ari b)) s = .next (s.updPort p fun x => { x with ari := b })) := by
  refine ⟨fun h => ?_, fun h hf hn => ⟨?_, fun e m => configRequest_exec h hf hn _⟩, fun h hf hn off => ?_, fun h hn a => ?_,
    fun h hf b =>
      (configRequest_exec (n := 0) (a := .ari b) h (by rwa [Nat.add_zero]) (by omega)).trans (congrArg Host.Outcome.next
          (if_pos rfl))⟩
  · exact congrArg Host.Outcome.next (if_pos (by simpa [State.up] using h))
  · have hm : (p * 256 + n) % 256 = n := by omega
    rw [configRequest_exec h hf hn]
    simp only [configRead, hm]
  · obtain ⟨h1, h2, h3, h4⟩ := configRead_facts s (p * 256 + n) off
    exact ⟨_, h2, (configRequest_exec h hf hn _).trans (congrArg (fun u : State => Host.Outcome.next { u with
      pins.answer := leBytes 4 (configRead s (p * 256 + n) off).2 }) h1), h3, h4⟩
  · refine congrArg Host.Outcome.next ((if_neg (by simp [up_of_boot h])).trans (if_pos ?_))
    rcases hn with hn | hn <;> simp [hn]

/-! ### Reads that bring no data (R486, R487) -/

theorem noData_input {u : State} {k j : Nat} {x : Job} (hu : portEvent s p k = u) (hx : s.job? j = some x) :
    (runnable u x = true → x.input = none → x.confirmed = true → noData s p k (.input j) = finalCommit u j (err 0x0103 0x01))
    ∧ (runnable u x = true → x.input = none → x.confirmed = false → noData s p k (.input j) = specInc u 6 1)
    ∧ (runnable u x = false ∨ x.input.isSome = true → noData s p k (.input j) = u) := by
  subst hu
  have he : noData s p k (.input j) = if !runnable (portEvent s p k) x || x.input.isSome then portEvent s p k
      else if x.confirmed then finalCommit (portEvent s p k) j (errR 0x0103 0x01) else specInc (portEvent s p k) 6 1 := by
    have hj : (portEvent s p k).job? j = some x := hx
    simp only [noData, readFailed, hj]
  rw [he]
  refine ⟨fun hr hi hc => ?_, fun hr hi hc => ?_, fun h => if_pos ?_⟩
  · rw [if_neg (by simp [hr, hi]), if_pos hc]
    rfl
  · rw [if_neg (by simp [hr, hi]), if_neg (by simp [hc])]
  · rcases h with h | h <;> simp [h]

theorem noData_se {u : State} {k i q pos : Nat} {x : Sq} (hu : portEvent s p k = u) (hx : s.sq? i q = some x)
    (hm : mayFetch u x = true) (hp : pos < 2 * 2 ^ x.log2n) (hd : dist (2 ^ x.log2n) pos x.head < 2 ^ x.log2n)
    (hc : ∀ c ∈ x.copies, c.pos ≠ pos) :
    (dist (2 ^ x.log2n) pos x.head < x.published → noData s p k (.se i q pos)
      = u.updSq i q fun x => { x with copies := x.copies ++ [{ pos := pos, bytes := none }] })
    ∧ (x.published ≤ dist (2 ^ x.log2n) pos x.head → x.readAhead = true → noData s p k (.se i q pos) = specInc u 6 1) := by
  subst hu
  have he : noData s p k (.se i q pos) = if dist (2 ^ x.log2n) pos x.head < x.published
      then (portEvent s p k).updSq i q fun x => { x with copies := x.copies ++ [{ pos := pos, bytes := none }] }
      else if x.readAhead then specInc (portEvent s p k) 6 1 else portEvent s p k := by
    have hj : (portEvent s p k).sq? i q = some x := hx
    have hany : x.copies.any (·.pos == pos) = false := by simpa using hc
    simp only [noData, readFailed, hj]
    exact if_neg (by simp [ringN, hm, hany, Nat.not_le.2 hp, Nat.not_le.2 hd])
  rw [he]
  exact ⟨fun h => if_pos h, fun h hr => (if_neg (Nat.not_lt.2 h)).trans (if_pos hr)⟩

theorem noData_none {k : Nat} : (∀ j, s.job? j = none → noData s p k (.input j) = portEvent s p k)
    ∧ ∀ i q pos, s.sq? i q = none → noData s p k (.se i q pos) = portEvent s p k := by
  refine ⟨fun j h => ?_, fun i q pos h => ?_⟩
  · have hj : (portEvent s p k).job? j = none := h
    simp only [noData, readFailed, hj]
  · have hj : (portEvent s p k).sq? i q = none := h
    simp only [noData, readFailed, hj]

/-! ### Port links (R475, R482) -/

theorem raise_stands {src : Nat} (h : sevOf s src ≠ 4) (unit p2 : Nat) (inj : Bool) :
    (raise s src unit p2 inj).ports = s.ports ∧ (raise s src unit p2 inj).work = s.work := by
  obtain ⟨r, ret, dr, due, e⟩ := raise_eq s h unit p2 inj
  rw [e]
  exact ⟨rfl, rfl⟩

theorem port_of_ports {t : State} (h : t.ports = s.ports) : t.port p = s.port p := congrArg (List.getD · p default) h

/-- A port that comes up, below its full speed and width with a source raised. -/
theorem portUp_state {speed w lane : Nat} (hp : p < s.ports.length) (hs : sevOf s (0x5C00 + lane % 16) ≠ 4) :
    (portUp s p speed w lane).port p = { s.port p with dlUp := true, l0 := true, fell := false, speed := speed, linkWidth := w }
    ∧ (⟨unitId 9 p, if 5 ≤ speed ∧ (s.port p).maxWidth ≤ w then .serving else .degraded, w⟩ : Health)
      ∈ (portUp s p speed w lane).faults.updates
    ∧ (portUp s p speed w lane).work = s.work := by
  unfold portUp
  extract_lets full u v
  have hu : u.ports = s.ports ∧ u.work = s.work := by
    by_cases hf : full = true
    · rw [show u = s from if_pos hf]
      exact ⟨rfl, rfl⟩
    · rw [show u = raise s (srcId 0x17 (lane % 16)) (unitId 9 p) 0 false from if_neg hf]
      exact raise_stands hs _ _ _
  obtain ⟨hup, huw⟩ := hu
  have hv : v.port p = { s.port p with dlUp := true, l0 := true, fell := false, speed := speed, linkWidth := w } := by
    rw [← port_of_ports hup]
    exact State.port_updPort u p _ (by rwa [hup])
  refine ⟨hv, ?_, huw⟩
  have hfull : (if full = true then UnitState.serving else .degraded)
      = if 5 ≤ speed ∧ (s.port p).maxWidth ≤ w then .serving else .degraded := by
    simp [full]
  rw [← hfull]
  exact List.mem_append_right _ (List.mem_singleton.2 rfl)

/-- A port that goes down. -/
theorem portDown_state (hp : p < s.ports.length) (hs : sevOf s (0x6000 + p) ≠ 4) :
    (portDown s p).port p = { s.port p with events := (s.port p).events ||| 2 ^ 0 }
    ∧ (⟨unitId 9 p, .withdrawn, 0⟩ : Health) ∈ (portDown s p).faults.updates ∧ (portDown s p).work = s.work := by
  obtain ⟨hup, huw⟩ := raise_stands hs (unitOfSource (srcId 0x18 p)) 0 false
  unfold portDown
  refine ⟨?_, List.mem_append_right _ (List.mem_singleton.2 rfl), huw⟩
  rw [← port_of_ports hup]
  exact State.port_updPort _ p _ (lt_of_lt_of_eq hp (congrArg List.length hup).symm)

theorem bit_or_pow (v k : Nat) : bit (v ||| 2 ^ k) k = true := by
  simp [bit]

theorem updPort_length (s : State) (p : Nat) (f : Port → Port) : (s.updPort p f).ports.length = s.ports.length :=
  List.length_modify ..

theorem hostLinkTrained_exec {speed w : Nat} (h : s.pins.boot = 8) (hp : (s.port p).present = true) (hl : (s.port p).l0 = false)
    (hw : widthOk s p w = true) (h3 : 3 ≤ speed) (h5 : speed ≤ 5) : exec (.hostLinkTrained p speed w) s
      = .next (portUp s p speed w (firstLane s.pins.split p + (if w < (s.port p).maxWidth then w else 0))) :=
  congrArg Host.Outcome.next (if_neg (by simp [up_of_boot h, hp, hl, hw, Nat.not_lt.2 h3, Nat.not_lt.2 h5]))

theorem hostLinkTrained_full (h : s.pins.boot = 8) (hp : (s.port p).present = true) (hl : (s.port p).l0 = false) :
    exec (.hostLinkTrained p 5 (s.port p).maxWidth) s = (if widthOk s p (s.port p).maxWidth then .next
      { (s.updPort p fun x => { x with
        dlUp := true, l0 := true, fell := false, speed := 5, linkWidth := (s.port p).maxWidth }) with
        faults.updates := s.faults.updates ++ [⟨unitId 9 p, .serving, (s.port p).maxWidth⟩] } else .next s) := by
  by_cases hw : widthOk s p (s.port p).maxWidth = true
  · rw [if_pos hw, hostLinkTrained_exec h hp hl hw (by decide) (by decide)]
    have hf : (decide (5 ≤ 5) && decide ((s.port p).maxWidth ≤ (s.port p).maxWidth)) = true := by simp
    unfold portUp
    simp only [hf, if_true]
    rfl
  · rw [if_neg hw]
    exact congrArg Host.Outcome.next (if_pos (by simp [hw]))

theorem hostLinkTrained_stays {speed w : Nat} (h : (s.port p).l0 = true ∨ widthOk s p w = false ∨ speed < 3 ∨ 5 < speed) :
    exec (.hostLinkTrained p speed w) s = .next s := by
  refine congrArg Host.Outcome.next (if_pos ?_)
  rcases h with h | h | h | h <;> simp [h]

theorem hostLinkTrained_below {speed w : Nat} (h : s.pins.boot = 8) (hp : (s.port p).present = true) (hl : (s.port p).l0 = false)
    (hw : widthOk s p w = true) (h3 : 3 ≤ speed) (h5 : speed ≤ 5) (hb : speed < 5 ∨ w < (s.port p).maxWidth)
    (hs : ∀ k, sevOf s (0x5C00 + k) ≠ 4) : ∃ t, exec (.hostLinkTrained p speed w) s = .next t ∧ (t.port p).dlUp = true
      ∧ (t.port p).l0 = true ∧ (t.port p).speed = speed ∧ (t.port p).linkWidth = w
      ∧ (⟨unitId 9 p, .degraded, w⟩ : Health) ∈ t.faults.updates ∧ t.work = s.work := by
  have hlt : p < s.ports.length := port_lt (f := (·.present)) rfl hp
  obtain ⟨hv, hm, hwk⟩ := portUp_state (speed := speed) (w := w) hlt (hs ((firstLane s.pins.split p
    + (if w < (s.port p).maxWidth then w else 0)) % 16))
  have hnf : ¬ (5 ≤ speed ∧ (s.port p).maxWidth ≤ w) := by omega
  rw [if_neg hnf] at hm
  refine ⟨_, hostLinkTrained_exec h hp hl hw h3 h5, ?_, ?_, ?_, ?_, hm, hwk⟩
  all_goals rw [hv]

theorem hostLinkRetry_down (h : s.pins.boot = 8) (hp : (s.port p).present = true) (hd : (s.port p).dlUp = false)
    (hh : (s.health (unitId 9 p)).state ≠ .withdrawn) (hr : ∀ r ∈ s.faults.raises, r.unit ≠ unitId 9 p)
    (hs : sevOf s (0x6000 + p) ≠ 4) : ∃ t, exec (.hostLinkRetry p) s = .next t
      ∧ (t.port p).recoveries = satInc 65535 (s.port p).recoveries ∧ bit (t.port p).events 0 = true
      ∧ (⟨unitId 9 p, .withdrawn, 0⟩ : Health) ∈ t.faults.updates ∧ t.work = s.work := by
  let u := s.updPort p fun x => { x with recoveries := satInc 65535 x.recoveries }
  have hlt : p < s.ports.length := port_lt (f := (·.present)) rfl hp
  have hup : u.port p = { s.port p with recoveries := satInc 65535 (s.port p).recoveries } := State.port_updPort s p _ hlt
  obtain ⟨hv, hm, hwk⟩ := portDown_state (s := u) (by rwa [updPort_length]) hs
  have hex : exec (.hostLinkRetry p) s = .next (portDown u p) := by
    refine congrArg Host.Outcome.next ((if_neg (by simp [up_of_boot h, hp, hd])).trans (if_neg ?_))
    have hh' : ¬ (u.health (unitId 9 p)).state = .withdrawn := hh
    have hr' : ∀ r ∈ u.faults.raises, r.unit ≠ unitId 9 p := hr
    simp only [Bool.or_eq_true, beq_iff_eq, List.any_eq_true, not_or, not_exists, not_and]
    exact ⟨hh', hr'⟩
  refine ⟨_, hex, ?_, ?_, hm, hwk⟩
  · rw [hv, hup]
  · rw [hv]
    exact bit_or_pow _ 0

theorem hostLinkRetry_withdrawn (h : s.pins.boot = 8) (hp : (s.port p).present = true) (hd : (s.port p).dlUp = false)
    (hh : (s.health (unitId 9 p)).state = .withdrawn) : exec (.hostLinkRetry p) s
      = .next (s.updPort p fun x => { x with recoveries := satInc 65535 x.recoveries }) :=
  congrArg Host.Outcome.next ((if_neg (by simp [up_of_boot h, hp, hd])).trans (if_pos (by
    rw [Bool.or_eq_true]
    exact .inl (beq_iff_eq.2 hh))))

theorem hostLinkDown_recovers (h : s.pins.boot = 8) (hl : (s.port p).l0 = true) (hn : isPaired s p = false) :
    exec (.hostLinkDown p false) s = .next
        (s.updPort p fun x => { x with l0 := false, recoveries := satInc 65535 x.recoveries }) :=
  congrArg Host.Outcome.next ((if_neg (by simp [up_of_boot h, hl])).trans
    ((if_neg Bool.false_ne_true).trans (if_neg (Bool.eq_false_iff.1 hn))))

theorem hostLinkDown_paired (h : s.pins.boot = 8) (hl : (s.port p).l0 = true) (hn : isPaired s p = true)
    (hs : sevOf s (0x6000 + p) ≠ 4) : ∃ t, exec (.hostLinkDown p false) s = .next t
      ∧ (t.port p).l0 = false ∧ (t.port p).dlUp = (s.port p).dlUp ∧ bit (t.port p).events 0 = true
      ∧ (⟨unitId 9 p, .withdrawn, 0⟩ : Health) ∈ t.faults.updates ∧ t.work = s.work := by
  have hlt : p < s.ports.length := port_lt (f := (·.l0)) rfl hl
  have hup := State.port_updPort s p (fun x => { x with l0 := false, recoveries := satInc 65535 x.recoveries }) hlt
  obtain ⟨hv, hm, hwk⟩ := portDown_state
      (s := s.updPort p fun x => { x with l0 := false, recoveries := satInc 65535 x.recoveries })
    (by rwa [updPort_length]) hs
  refine ⟨_, congrArg Host.Outcome.next ((if_neg (by simp [up_of_boot h, hl])).trans
    ((if_neg Bool.false_ne_true).trans (if_pos hn))), ?_, ?_, ?_, hm, hwk⟩
  · rw [hv, hup]
  · rw [hv, hup]
  · rw [hv]
    exact bit_or_pow _ 0

/-- A port whose data link has gone down. -/
def Port.cut (x : Port) : Port :=
  { x with dlUp := false, l0 := false, fell := true, speed := 0, linkWidth := 0, resetDue := true
           recoveries := satInc 65535 x.recoveries }

theorem hostLinkDown_dl (h : s.pins.boot = 8) (hl : (s.port p).l0 = true) (hs : sevOf s (0x6000 + p) ≠ 4) :
    ∃ t, exec (.hostLinkDown p true) s = .next t ∧ (t.port p).dlUp = false
      ∧ (t.port p).l0 = false ∧ (t.port p).resetDue = true ∧ bit (t.port p).events 0 = true
      ∧ (⟨unitId 9 p, .withdrawn, 0⟩ : Health) ∈ t.faults.updates ∧ t.work = s.work := by
  have hlt : p < s.ports.length := port_lt (f := (·.l0)) rfl hl
  let u := s.updPort p fun x => { x with l0 := false, recoveries := satInc 65535 x.recoveries }
  let v := u.updPort p fun x => { x with dlUp := false, fell := true, speed := 0, linkWidth := 0, resetDue := true }
  have hvp : v.port p = (s.port p).cut := by
    rw [State.port_updPort u p _ (by rwa [updPort_length]), State.port_updPort s p _ hlt]
    rfl
  obtain ⟨hv, hm, hwk⟩ := portDown_state (s := v) (p := p) (by rwa [updPort_length, updPort_length]) hs
  rw [hvp] at hv
  refine ⟨_, congrArg Host.Outcome.next ((if_neg (by simp [up_of_boot h, hl])).trans (if_pos rfl)), ?_, ?_, ?_, ?_, hm, hwk⟩
  · rw [hv]
    rfl
  · rw [hv]
    rfl
  · rw [hv]
    rfl
  · rw [hv]
    exact bit_or_pow _ 0

/-- A link that comes up again at a lower width or speed. -/
def degraded (s : State) (p g w : Nat) : State :=
  let u := if w < (s.port p).linkWidth then portEvent s p 1 else s
  let v := if g < (s.port p).speed then portEvent u p 2 else u
  v.updPort p fun x => { x with recoveries := satInc 65535 x.recoveries }

theorem hostLaneDegrade_exec {g w lane : Nat} (h : s.pins.boot = 8) (hl : (s.port p).l0 = true) (hw : widthOk s p w = true)
    (h3 : 3 ≤ g) (hg : g ≤ (s.port p).speed) (hlw : w ≤ (s.port p).linkWidth)
    (hne : ¬ (g = (s.port p).speed ∧ w = (s.port p).linkWidth)) :
    exec (.hostLaneDegrade p g w lane) s = .next (portUp (degraded s p g w) p g w lane) :=
  congrArg Host.Outcome.next (if_neg (by
    simpa [up_of_boot h, hl, hw, Nat.not_lt.2 h3, Nat.not_lt.2 hg, Nat.not_lt.2 hlw] using hne))

theorem portEvent_port {k : Nat} (hp : p < s.ports.length) :
    (portEvent s p k).port p = { s.port p with events := (s.port p).events ||| 2 ^ k } := State.port_updPort s p _ hp

/-- What a loss of width or speed notes in the events of the port. -/
def degradeEvents (x : Port) (g w : Nat) : Nat :=
  let e := if w < x.linkWidth then x.events ||| 2 ^ 1 else x.events
  if g < x.speed then e ||| 2 ^ 2 else e

theorem degraded_facts {g w : Nat} (hp : p < s.ports.length) : (degraded s p g w).ports.length = s.ports.length
    ∧ ((degraded s p g w).port p).events = degradeEvents (s.port p) g w ∧ (degraded s p g w).work = s.work
    ∧ (degraded s p g w).faults = s.faults := by
  unfold degraded degradeEvents
  extract_lets u v e
  have hu : u.ports.length = s.ports.length ∧ (u.port p).events = e ∧ u.work = s.work ∧ u.faults = s.faults := by
    unfold u e
    split
    · exact ⟨updPort_length .., congrArg Port.events (portEvent_port hp), rfl, rfl⟩
    · exact ⟨rfl, rfl, rfl, rfl⟩
  obtain ⟨hul, hue, huw, huf⟩ := hu
  have hv : v.ports.length = s.ports.length ∧ (v.port p).events = (if g < (s.port p).speed then e ||| 2 ^ 2 else e)
      ∧ v.work = s.work ∧ v.faults = s.faults := by
    unfold v
    split
    · exact ⟨(updPort_length ..).trans hul, (congrArg Port.events (portEvent_port (by rwa [hul]))).trans (by rw [hue]), huw, huf⟩
    · exact ⟨hul, hue, huw, huf⟩
  obtain ⟨hvl, hve, hvw, hvf⟩ := hv
  clear_value v
  refine ⟨(updPort_length ..).trans hvl, ?_, hvw, hvf⟩
  rw [State.port_updPort v p _ (by rwa [hvl])]
  exact hve

theorem hostLaneDegrade_state {g w lane : Nat} (h : s.pins.boot = 8) (hl : (s.port p).l0 = true) (hw : widthOk s p w = true)
    (h3 : 3 ≤ g) (hg : g ≤ (s.port p).speed) (hlw : w ≤ (s.port p).linkWidth)
    (hne : ¬ (g = (s.port p).speed ∧ w = (s.port p).linkWidth)) (hs : sevOf s (0x5C00 + lane % 16) ≠ 4) :
    ∃ t, exec (.hostLaneDegrade p g w lane) s = .next t ∧ (t.port p).linkWidth = w ∧ (t.port p).speed = g
      ∧ (t.port p).l0 = true ∧ (t.port p).events = degradeEvents (s.port p) g w ∧ t.work = s.work := by
  have hlt : p < s.ports.length := port_lt (f := (·.l0)) rfl hl
  obtain ⟨hdl, hde, hdw, hdf⟩ := degraded_facts (g := g) (w := w) hlt
  have hs' : sevOf (degraded s p g w) (0x5C00 + lane % 16) ≠ 4 := by
    unfold sevOf
    rw [hdf]
    exact hs
  obtain ⟨hv, -, hwk⟩ := portUp_state (speed := g) (w := w) (by rwa [hdl]) hs'
  refine ⟨_, hostLaneDegrade_exec h hl hw h3 hg hlw hne, ?_, ?_, ?_, ?_, hwk.trans hdw⟩
  · rw [hv]
  · rw [hv]
  · rw [hv]
  · rw [hv]
    exact hde

theorem hostLaneDegrade_stays {g w lane : Nat} (h : (s.port p).l0 = false ∨ widthOk s p w = false ∨ g < 3
    ∨ (s.port p).speed < g ∨ (s.port p).linkWidth < w) : exec (.hostLaneDegrade p g w lane) s = .next s := by
  refine congrArg Host.Outcome.next (if_pos ?_)
  rcases h with h | h | h | h | h <;> simp [h]

theorem vfEnableSet_exec (h : s.pins.boot = 8) (hp : (s.port p).present = true) (hv : (s.port p).vfEnable = false) (h1 : 1 ≤ n)
    (hn : n ≤ 255) : exec (.vfEnableSet p n) s = .next (s.updPort p fun x => { x with vfEnable := true, numVfs := n }) :=
  congrArg Host.Outcome.next (if_neg (by simp [up_of_boot h, hp, hv, Nat.not_lt.2 hn, Nat.one_le_iff_ne_zero.1 h1]))

theorem vfEnableSet_stays (h : (s.port p).present = false ∨ (s.port p).vfEnable = true ∨ n = 0 ∨ 255 < n) :
    exec (.vfEnableSet p n) s = .next s := by
  refine congrArg Host.Outcome.next (if_pos ?_)
  rcases h with h | h | h | h <;> simp [h]

theorem functionLevelReset_stays {i : Nat} (h : i % 256 = 0 ∨ fnExists s i = false) :
    exec (.functionLevelReset i) s = .next s := by
  refine congrArg Host.Outcome.next (if_pos ?_)
  rcases h with h | h <;> simp [h]

theorem busMasterEnable_stays {f : Nat} (h : fnExists s f = false ∨ f ∈ s.busMaster) : exec (.busMasterEnable f) s = .next s := by
  refine congrArg Host.Outcome.next (if_pos ?_)
  rcases h with h | h <;> simp [h]

/-- A sleeping function takes no doorbell. -/
theorem doorbellWrite_asleep {f : Nat} (h : asleep s f = true) (off w v : Nat) : doorbellWrite s f off w v = s :=
  if_pos (by simp [h])

theorem hostReadCompletion_exec {f : ReadFor} (h : s.pins.boot = 8) (hl : (s.port p).dlUp = true) (c : Cpl) :
    exec (.hostReadCompletion p f c) s = .next (match c with
      | .ok bus data => { s with
        hostMem := Mem.writeBytes s.hostMem bus data, hostDeaf := s.hostDeaf.flatMap (Deaf.minus bus data.length) }
      | .ur => noData s p 5 f
      | .ca => noData s p 5 f
      | .poisoned => noData s p 3 f) :=
  congrArg Host.Outcome.next ((if_neg (by simp [up_of_boot h, hl])).trans rfl)

theorem completionTimeout_exec {f : ReadFor} (h : s.pins.boot = 8) (hp : (s.port p).present = true) :
    exec (.completionTimeout p f) s = .next (noData s p 4 f) := congrArg Host.Outcome.next (if_neg (by simp [up_of_boot h, hp]))

end

/-- What `HostPorts` says of a read that brings no data. -/
theorem noDataForms (s : State) (p k : Nat) (g : ReadFor → Instr) (hg : ∀ f, exec (g f) s = .next (noData s p k f)) :
    let u := s.updPort p fun x => { x with events := x.events ||| 2 ^ k }
    (∀ b n, exec (g (.span b n)) s = .next { s with hostDeaf := s.hostDeaf.flatMap (Deaf.minus b n) ++ [⟨b, n, k⟩] })
    ∧ exec (g .other) s = .next u
    ∧ (∀ j, s.job? j = none → exec (g (.input j)) s = .next u)
    ∧ (∀ j x, s.job? j = some x →
      (runnable u x = true → x.input = none → x.confirmed = true →
        exec (g (.input j)) s = .next (finalCommit u j (err 0x0103 0x01)))
      ∧ (runnable u x = true → x.input = none → x.confirmed = false → exec (g (.input j)) s = .next (specInc u 6 1))
      ∧ (runnable u x = false ∨ x.input.isSome = true → exec (g (.input j)) s = .next u))
    ∧ (∀ i q k', s.sq? i q = none → exec (g (.se i q k')) s = .next u)
    ∧ (∀ i q k' x, s.sq? i q = some x → mayFetch u x = true → k' < 2 * 2 ^ x.log2n →
      dist (2 ^ x.log2n) k' x.head < 2 ^ x.log2n → (∀ c ∈ x.copies, c.pos ≠ k') →
      (dist (2 ^ x.log2n) k' x.head < x.published → exec (g (.se i q k')) s =
        .next (u.updSq i q fun x => { x with copies := x.copies ++ [{ pos := k', bytes := none }] }))
      ∧ (x.published ≤ dist (2 ^ x.log2n) k' x.head → x.readAhead = true → exec (g (.se i q k')) s = .next (specInc u 6 1))) := by
  intro u
  have hu : portEvent s p k = u := rfl
  clear_value u
  obtain ⟨hni, hns⟩ := noData_none (s := s) (p := p) (k := k)
  refine ⟨fun b n => hg _, ?_, fun j hj => ?_, fun j x hx => ?_, fun i q pos hq => ?_, fun i q pos x hx hm hp hd hc => ?_⟩
  · exact (hg _).trans (congrArg Host.Outcome.next hu)
  · rw [hg, hni j hj, hu]
  · obtain ⟨h1, h2, h3⟩ := noData_input hu hx
    rw [hg]
    exact ⟨fun hr hi hc => congrArg Host.Outcome.next (h1 hr hi hc), fun hr hi hc => congrArg Host.Outcome.next (h2 hr hi hc),
      fun h => congrArg Host.Outcome.next (h3 h)⟩
  · rw [hg, hns i q pos hq, hu]
  · obtain ⟨h1, h2⟩ := noData_se hu hx hm hp hd hc
    rw [hg]
    exact ⟨fun h => congrArg Host.Outcome.next (h1 h), fun h hr => congrArg Host.Outcome.next (h2 h hr)⟩

/-- Settles O58: each clause is a lemma about its command above; functions first, then reads and port links. -/
theorem hostPorts : Obligations.HostPorts := by
  unfold Obligations.HostPorts
  refine ⟨fun s p n => ?_, fun s p h hp hlen => ?_⟩
  · obtain ⟨c1, c2, c3, c4, c5⟩ := configForms s p n
    refine ⟨c1, c2, c3, c4, c5, vfEnableSet_exec, vfEnableSet_stays, ?_, fun i => functionLevelReset_stays,
      fun f => busMasterEnable_stays, fun h hv _ => vfEnableClear_exec h hv,
          fun i h hi hf hface hst => functionLevelReset_exec h hi hf hface hst,
      fun f => rfl, fun f hf hlen => busMasterDisable_sleeps hf hlen, ?_, ?_,
      fun f h hf hb hlen => busMasterEnable_wakes h hf hb hlen,
          fun i v a d h hf hs hv ha hd => vectorUnmask_exec h hf hs hv ha hd⟩
    · exact fun hv => congrArg Host.Outcome.next (if_pos (by simp [hv]))
    · exact fun f v a d hs => congrArg Host.Outcome.next (if_pos (by simp [hs]))
    · exact fun f off w v hs => ⟨congrArg Host.Outcome.next (doorbellWrite_asleep hs off w v),
        congrArg Host.Outcome.next (doorbellWrite_asleep hs off w v)⟩
  · refine ⟨fun f b d hl => hostReadCompletion_exec h hl _, ?_, fun rs hrs hl => noDataForms s p rs.2 rs.1 fun f => ?_, ?_,
      hostLinkTrained_full h hp, fun speed w => hostLinkTrained_stays,
      fun speed w hl hw h3 h5 hb hs => hostLinkTrained_below h hp hl hw h3 h5 hb hs, ?_, hostLinkRetry_down h hp,
      hostLinkRetry_withdrawn h hp, fun hl => ⟨hostLinkDown_recovers h hl, hostLinkDown_paired h hl, hostLinkDown_dl h hl⟩,
      ?_, ?_, fun g w lane => hostLaneDegrade_stays, ?_⟩
    · exact fun f c hl => congrArg Host.Outcome.next (if_pos (by simp [hl]))
    · simp only [List.mem_cons, List.not_mem_nil, or_false] at hrs
      rcases hrs with rfl | rfl | rfl | rfl
      · exact hostReadCompletion_exec h hl _
      · exact hostReadCompletion_exec h hl _
      · exact hostReadCompletion_exec h hl _
      · exact completionTimeout_exec h hp
    · exact congrArg Host.Outcome.next (if_neg (by simp [up_of_boot h, hp]))
    · exact fun hd => congrArg Host.Outcome.next (if_pos (by simp [hd]))
    · exact fun d hl => congrArg Host.Outcome.next (if_pos (by simp [hl]))
    · intro g w lane hl hw h3 hg hlw hs
      obtain ⟨t, ht, h1, h2, -, h4, h5⟩ := hostLaneDegrade_state h hl hw h3 (Nat.le_of_lt hg) hlw
        (fun hc => Nat.lt_irrefl _ (hc.1 ▸ hg)) hs
      refine ⟨t, ht, h1, h2, ?_, h5⟩
      rw [h4, degradeEvents, if_pos hg]
      exact bit_or_pow _ 2
    · intro w lane hl h5 hlw hw hs
      obtain ⟨t, ht, h1, h2, h3, h4, h6⟩ := hostLaneDegrade_state h hl hw (g := 5) (by decide) (Nat.le_of_eq h5.symm)
        (Nat.le_of_lt hlw) (fun hc => Nat.lt_irrefl _ (hc.2 ▸ hlw)) hs
      refine ⟨t, ht, h1, h2, h3, ?_, h6⟩
      rw [h4, degradeEvents, if_pos hlw, if_neg (by rw [h5]; decide)]
      exact bit_or_pow _ 1

end Sys2Proof.Machine
end

section
/-! Messages between members -/

namespace Sys2Proof.Machine
open Sys2Proof.Claims

/-- A row that takes a message of its TYPE is its own effect on the plaintext, in the state that has noted the CTR. -/
theorem take_arrives {s u : State} {m p : TMsg} {kind : Nat} (h : Arrives s u m p kind) {sel : TMsg → Bool} (hsel : sel p = true)
    (f : TMsg → State → State) : take s m kind sel f = f p u := by
  obtain ⟨hup, hj, hd, d, b, hb, hc, rfl, rfl⟩ := h
  unfold take
  rw [if_neg (by simp [hup, State.joined, hj]), if_neg (by simp [hd]), hb]
  exact (if_neg (Nat.not_lt.2 hc)).trans (if_pos hsel)

/-- The replica of a public key of the manager's instance 0, given to this member of canopy 1. -/
def replicaKey : KeyObj :=
  { (default : KeyObj) with index := 131072, gen := 1, owner := guestInst 16 0, alg := 1, pset := 1, pub := some [1] }

/-- The manager of canopy 1, paired under an empty key. -/
def pairedManager : Member := { (default : Member) with role := 1, joined := true }

/-- Member 1 of canopy 1, in service, whose vault holds the replica's one line in a touched page of which both copies are lost. -/
def memberWithLostTree : State :=
  { State.reset with
    tick.running := true, tick.count := 100, pins.boot := 8, pins.role := 2
    groves := List.replicate 16 Grove.reset
    faults.map := [⟨unitId 0 0, .serving, 0⟩, ⟨unitId 2 0, .serving, 1⟩]
    store.keys := [replicaKey]
    vault.keys := some (zeros 64, zeros 32), vault.touched := [0], vault.copies := [[], []]
    vault.objs := [⟨replicaKey.tag, [(0, 1)], []⟩]
    tether.active := 2, tether.joined := true, tether.canopy := 1, tether.member := 1
    tether.members := [pairedManager], tether.links := [{ (default : TLink) with state := .paired }] }

/-- JOB 77 of the manager's instance 0: one SE, KEY_GET_PUBLIC of the replicated key. -/
def getPublicJob : Bytes :=
  leBytes 4 77 ++ zeros 11 ++ leBytes 1 1
    ++ (leBytes 1 0x43 ++ zeros 5 ++ leBytes 2 0xFFFF ++ leBytes 4 (2 ^ 24) ++ zeros 28 ++ leBytes 4 4096 ++ zeros 20)

/-- That JOB in plaintext, and as the manager seals it. -/
def jobInClear : TMsg := { link := 0, src := 16, dst := 17, ctr := 0, ok := true, body := getPublicJob }
def jobSealed : TMsg := { jobInClear with body := sealBody pairedManager.pair (16 < 17) 1 16 17 0 getPublicJob }

/-- The member once it has noted the CTR of the JOB. -/
def jobNoted : State := { noteCtr memberWithLostTree 16 0 with stw.events := memberWithLostTree.stw.events ||| 16 }

theorem jobSealed_opens : unsealed memberWithLostTree jobSealed 1 = some ((16, pairedManager), getPublicJob) := by
  have hp : (pairedWith memberWithLostTree).partition (·.1 == 16) = ([(16, pairedManager)], []) := by decide +kernel
  have ho : openFrom memberWithLostTree jobSealed 1 (16, pairedManager) = some ((16, pairedManager), getPublicJob) :=
    congrArg (Option.map fun b => ((16, pairedManager), b)) (openBody_sealBody ..)
  unfold unsealed
  rw [show jobSealed.src = 16 from rfl, hp]
  show List.findSome? _ [(16, pairedManager)] = _
  rw [List.findSome?_cons, ho]

theorem jobSealed_arrives : Arrives memberWithLostTree jobNoted jobSealed jobInClear 1 :=
  ⟨by decide +kernel, rfl, rfl, _, _, jobSealed_opens, Nat.le_refl 0, rfl, rfl⟩

/-- The JOB has one SE, needs no context and finds a free job slot. -/
theorem jobInClear_met : 16 ≤ getPublicJob.length ∧ byteAt getPublicJob 15 = 1 ∧ jobNoted.service = true
    ∧ (let j := guestJob 16 getPublicJob
       let v := withGuest jobNoted j.inst (leAt getPublicJob 6 2)
       (planOf v j none false).useCtx = false ∧ guestWaits v j = false) := by decide +kernel

/-- Fetching its key meets a tree line that has failed in both copies: VAULT_TREE_UE, FATAL by default, stops every job (R262). -/
theorem takeJob_lostTree : (takeJob jobNoted 16 getPublicJob).work.jobs = [] := by decide +kernel

theorem exec_tetherJob_lostTree : exec (.tetherJob jobSealed) memberWithLostTree = .next (takeJob jobNoted 16 getPublicJob) := by
  obtain ⟨hlen, hses, hserv, -⟩ := jobInClear_met
  refine congrArg Host.Outcome.next ((take_arrives jobSealed_arrives ?_ _).trans (if_pos hserv))
  have hb : jobInClear.body = getPublicJob := rfl
  simp [hb, hlen, hses]

/-- Refutes O60: a JOB does not always stand among the jobs when its row is done.  Where the tree lines over its key have failed
in both copies of the vault, taking it raises VAULT_TREE_UE, and safe state discards every job, the new one too. -/
theorem not_tetherMessages : ¬Obligations.TetherMessages := by
  unfold Obligations.TetherMessages
  intro h
  obtain ⟨hlen, hses, -, hplan⟩ := jobInClear_met
  obtain ⟨hjob, -⟩ := h.1 memberWithLostTree jobNoted jobSealed jobInClear (by decide +kernel)
  obtain ⟨t, y, ht, -, hy, -⟩ := hjob jobSealed_arrives hlen (Nat.le_of_eq hses.symm) (hses ▸ by decide) hplan
  obtain rfl := Host.Outcome.next.inj (exec_tetherJob_lostTree.symm.trans ht)
  rw [takeJob_lostTree] at hy
  cases hy

end Sys2Proof.Machine
end
